-- ==== Sys2Proof/Word.lean ====
section
/-! DEFINITION. The words of the block and their plainest arithmetic: bytes, the register word, little-endian
reading and writing (R11), and the sparse tables in one canonical form in which the block keeps numbered things. -/

/-- Put an element before the first that it does not follow. -/
def List.insertBy {α : Type} (le : α → α → Bool) (x : α) : List α → List α
  | [] => [x]
  | y :: t => if le x y then x :: y :: t else y :: List.insertBy le x t

/-- Sort a list by an order, keeping the order of equals. -/
def List.isort {α : Type} (l : List α) (le : α → α → Bool) : List α := l.foldr (List.insertBy le) []

namespace Sys2Proof

/-- One byte of a memory, a packet or a register window. -/
abbrev Byte := BitVec 8

/-- A 64-bit register of BAR0 or BAR2. -/
abbrev Reg := BitVec 64

/-- A 16-bit status code (R18): class in bits [15:12], code in bits [11:0]. -/
abbrev Status := BitVec 16

/-- A sparse table: pairs of a number and an entry, numbers strictly rising, no entry equal to the default entry that
an unlisted number reads as. -/
abbrev Tbl (α : Type) := List (Nat × α)

/-- The entry at `k`; `d` is what an unlisted number reads as. -/
def tblGet {α : Type} (d : α) : Tbl α → Nat → α
  | [], _ => d
  | (i, x) :: t, k => if i = k then x else tblGet d t k

/-- Take the entry at `k` out of the table. -/
def tblDel {α : Type} : Tbl α → Nat → Tbl α
  | [], _ => []
  | (i, x) :: t, k => if i = k then tblDel t k else (i, x) :: tblDel t k

/-- Put an entry at `k`, in order, in place of any that stands there. -/
def tblPut {α : Type} : Tbl α → Nat → α → Tbl α
  | [], k, v => [(k, v)]
  | (i, x) :: t, k, v =>
    if k < i then (k, v) :: (i, x) :: t
    else if k = i then (k, v) :: t
    else (i, x) :: tblPut t k v

/-- Write the entry at `k`: writing what an unlisted number reads as takes the entry out. -/
def tblSet {α : Type} [DecidableEq α] (d : α) (t : Tbl α) (k : Nat) (v : α) : Tbl α :=
  if v = d then tblDel t k else tblPut t k v

/-- Change the entry at `k` by a function. -/
def tblUpd {α : Type} [DecidableEq α] (d : α) (t : Tbl α) (k : Nat) (f : α → α) : Tbl α :=
  tblSet d t k (f (tblGet d t k))

/-- The canonical form: numbers strictly rising, and no entry equal to the default. -/
def tblWf {α : Type} [DecidableEq α] (d : α) : Tbl α → Bool
  | [] => true
  | [(_, x)] => decide (x ≠ d)
  | (i, x) :: (j, y) :: t => decide (i < j) && decide (x ≠ d) && tblWf d ((j, y) :: t)

/-- Read `n` bytes as a little-endian number (R11). -/
def leNat : List Byte → Nat
  | [] => 0
  | b :: bs => b.toNat + 256 * leNat bs

/-- The `n` little-endian bytes of a number (R11). -/
def leBytes : Nat → Nat → List Byte
  | 0, _ => []
  | n + 1, v => BitVec.ofNat 8 v :: leBytes n (v / 256)

/-- `n` bytes of a list from byte `off`; bytes past its end read as zero. -/
def bytesAt (bs : List Byte) (off n : Nat) : List Byte :=
  (List.range n).map fun i => bs.getD (off + i) 0

/-- The little-endian number in `n` bytes from byte `off`. -/
def fieldAt (bs : List Byte) (off n : Nat) : Nat := leNat (bytesAt bs off n)

/-- Bits [`hi`:`lo`] of a number. -/
def bitsOf (v hi lo : Nat) : Nat := (v >>> lo) % 2 ^ (hi + 1 - lo)

/-- A word with bit `n` set. -/
def setBit {w : Nat} (x : BitVec w) (n : Nat) : BitVec w := x ||| BitVec.ofNat w (2 ^ n)

/-- A word with bit `n` clear. -/
def clrBit {w : Nat} (x : BitVec w) (n : Nat) : BitVec w := x &&& ~~~(BitVec.ofNat w (2 ^ n))

/-- A word with bit `n` as given. -/
def putBit {w : Nat} (x : BitVec w) (n : Nat) (b : Bool) : BitVec w := if b then setBit x n else clrBit x n

/-- Add one, holding at the width's largest value. -/
def satInc {w : Nat} (x : BitVec w) : BitVec w := if x = BitVec.allOnes w then x else x + 1

/-- Add a count, holding at the width's largest value. -/
def satAdd {w : Nat} (x : BitVec w) (n : Nat) : BitVec w :=
  if x.toNat + n < 2 ^ w then BitVec.ofNat w (x.toNat + n) else BitVec.allOnes w

/-- Overwrite bytes of a list from `off`; the list's length stays. -/
def patchBytes (bs : List Byte) (off : Nat) (new : List Byte) : List Byte :=
  (bs.zipIdx).map fun p => if off ≤ p.2 ∧ p.2 < off + new.length then new.getD (p.2 - off) 0 else p.1

end Sys2Proof
end

