-- ==== Sys2Proof/Syntax.lean ====
section
/-! DEFINITION. The commands of the block: one constructor for each row of spec/opcode_table.json, with the operands
that the row's rules name. The table gives the rows no bits, so nothing here is encoded (log entry 1). -/

namespace Sys2Proof

/-- The three paths to the parameter dictionary (R673): the BAR0 window, MCTP on I3C, and the Tenon link. -/
inductive DictPath where
  | bar0
  | mctp
  | tenon
  deriving DecidableEq, Repr

/-- Why a tidy program trapped (R435): a failed response to one of its accesses, a response PASID_INVALID, or any
other synchronous trap in user mode. -/
inductive TrapCause where
  | dma
  | pasid
  | other
  deriving DecidableEq, Repr

/-- The core faults of R436. -/
inductive CoreFaultCause where
  | machineTrap
  | localEcc
  | beatNotAcknowledged
  deriving DecidableEq, Repr

/-- The atomic instructions of the A extension (R426): those that the fabric also performs (R75), and LR and SC. -/
inductive AmoFn where
  | swap
  | add
  | and
  | or
  | xor
  | min
  | max
  | minu
  | maxu
  | lr
  | sc
  deriving DecidableEq, Repr

/-- The operand of an atomic instruction, which says its width (R426). -/
inductive AmoOperand where
  | word (value : BitVec 32)
  | double (value : BitVec 64)
  deriving DecidableEq, Repr

/-- The addresses of a SETDASA (R97): the static address that it goes to and the dynamic address that it assigns. -/
structure DasaAddress where
  static : BitVec 7
  dynamic : BitVec 7
  deriving DecidableEq, Repr

/-- Where a register write comes from (R58, R447): a BAR of the function port, at an offset in it, or an end of the mailbox
channels, under an identity, at an offset from the first channel's registers. -/
inductive WritePath where
  | bar0
  | bar2
  | box (mid : BitVec 8) (clusterEnd : Bool)
  deriving DecidableEq, Repr

/-- What a cluster reset came from, which decides what the boot ROM does next (R441, R445). -/
inductive ClusterCause where
  | coldStart
  | warmStart
  | restart
  | domainReset
  | recover
  | recoveryRing
  deriving DecidableEq, Repr

/-- Where in the Kiln a check code failed (R398): in an operand slot, or in a result area. -/
inductive EccPlace where
  | operand (slot : Nat)
  | result
  deriving DecidableEq, Repr

/-- The switchable power domains of R100. -/
inductive Domain where
  | ctl
  | pln
  | tnl
  | eng (port : Nat)
  deriving DecidableEq, Repr

/-- The fields of a TRAIN block (R466). -/
structure TrainBlk where
  lane : Nat
  chip : BitVec 6
  chipValid : Bool
  port : BitVec 3
  seen : Bool
  done : Bool
  counter : BitVec 16
  rev : BitVec 8
  deriving DecidableEq, Repr

/-- The commands. [DESIGN CHOICE, log entry 1] -/
inductive Instr where
  /-- NOP (R176). A NOP command is released and ends with OK, signalling its fence if asked. -/
  | nop (id : Nat)
  /-- EXEC (R179). An EXEC command is released and its tiles are cut, bound to ports and staged. -/
  | execTiles (id : Nat)
  /-- COPY (R182). A COPY command is released to the copy engine, which moves bytes unchanged and ends with a signalled write. -/
  | copy (id : Nat)
  /-- FILL (R181). A FILL command is released to the copy engine, which writes the 8-byte pattern over the range. -/
  | fill (id : Nat)
  /-- TIDY (R421). A TIDY command becomes runnable and waits for dispatch to a joiner core at a beat edge. -/
  | tidy (id : Nat)
  /-- SEM_ACQUIRE (R314). A SEM_ACQUIRE waits until its units are free and it stands first, then adds units to its context's
  holding. -/
  | semAcquire (id : Nat)
  /-- SEM_RELEASE (R315). A SEM_RELEASE subtracts units from its context's holding, or is rejected if it holds too few. -/
  | semRelease (id : Nat)
  /-- COUNTER_OP_SET (R319). A COUNTER_OP with OP SET sets a local counter or semaphore CAPACITY to VALUE. -/
  | counterOpSet (id : Nat)
  /-- COUNTER_OP_ADD (R319). A COUNTER_OP with OP ADD adds VALUE, saturating with COUNTER_SATURATED. -/
  | counterOpAdd (id : Nat)
  /-- COUNTER_OP_SUB (R319). A COUNTER_OP with OP SUB subtracts VALUE, clamping at zero with COUNTER_SATURATED. -/
  | counterOpSub (id : Nat)
  /-- COUNTER_OP_WAIT_GE (R319). A COUNTER_OP with OP WAIT_GE waits until the local counter reaches VALUE. -/
  | counterOpWaitGe (id : Nat)
  /-- WATCH_ADD (R325). A WATCH_ADD registers a NOTIFY or FORWARD watch in a watch slot, firing at once if its condition holds. -/
  | watchAdd (id : Nat)
  /-- WATCH_CANCEL (R333). A WATCH_CANCEL removes a watch, writes a WATCH_CANCELLED record and frees its slot. -/
  | watchCancel (id : Nat)
  /-- BARRIER_ARRIVE (R535). A BARRIER_ARRIVE command is checked against the barrier state and counted as a local arrival. -/
  | barrierArrive (id : Nat)
  /-- GRAPH (R193). A GRAPH command reads a graph packet, checks it and runs its nodes by their edges. -/
  | graph (id : Nat)
  /-- GRAPH_LOAD (R198). A GRAPH_LOAD reads, checks and copies a graph packet into the slice's resident graph store. -/
  | graphLoad (id : Nat)
  /-- RELAUNCH (R202). A RELAUNCH waits for earlier runs, applies its patches to the resident copy, re-checks and starts a run. -/
  | relaunch (id : Nat)
  /-- GRAPH_UNLOAD (R198). A GRAPH_UNLOAD waits for earlier runs and frees the resident copy. -/
  | graphUnload (id : Nat)
  /-- OBJ_CREATE (R232). An OBJ_CREATE takes an index, makes the object live, charges MEM_BYTES and writes the handle. -/
  | objCreate (id : Nat)
  /-- OBJ_FREE (R236). An OBJ_FREE marks the object free-pending and raises its generation. -/
  | objFree (id : Nat)
  /-- STREAM_CREATE (R244). A STREAM_CREATE creates a stream object, writes its header and result, and takes a descriptor. -/
  | streamCreate (id : Nat)
  /-- STREAM_ADVANCE (R256). A STREAM_ADVANCE checks every entry, then moves all token positions in one control cycle and writes
  headers. -/
  | streamAdvance (id : Nat)
  /-- STREAM_MAP (R250). A STREAM_MAP sets or removes page entries of a stream and updates PAGE_COUNT. -/
  | streamMap (id : Nat)
  /-- QUEUE_CREATE (R186). A QUEUE_CREATE reads a queue descriptor and creates the queue on the issuing or named slice. -/
  | queueCreate (id : Nat)
  /-- QUEUE_DESTROY (R184). A QUEUE_DESTROY removes a queue so its number becomes ABSENT. -/
  | queueDestroy (id : Nat)
  /-- CTX_LOAD (R280). A CTX_LOAD asks for its context to be loaded into a resident slot at priority 7. -/
  | ctxLoad (id : Nat)
  /-- CTX_EVICT (R184). A CTX_EVICT saves and evicts a context at the next beat edge after its tiles end. -/
  | ctxEvict (id : Nat)
  /-- QUERY (R185). A QUERY writes 32 bytes of a context's utilisation record to RESULT_PTR. -/
  | query (id : Nat)
  /-- SLICE_FREEZE (R605). A SLICE_FREEZE puts the slice in FROZEN, suspends its commands and ends when the slice is quiescent. -/
  | sliceFreeze (id : Nat)
  /-- SLICE_RESUME (R608). A SLICE_RESUME returns a FROZEN slice to ACTIVE and resumes its timers, doorbells and watches. -/
  | sliceResume (id : Nat)
  /-- SLICE_SAVE (R609). A SLICE_SAVE waits for quiescence, reads fences and semaphores in one cycle and writes the slice image. -/
  | sliceSave (id : Nat)
  /-- SLICE_RESTORE (R614). A SLICE_RESTORE checks an image against an OFF slice, relocates and installs it, and leaves the
  slice FROZEN. -/
  | sliceRestore (id : Nat)
  /-- DIRTY_LOG_ENABLE (R598). DIRTY_LOG ENABLE zeroes the selected maps and starts host or device dirty logging. -/
  | dirtyLogEnable (id : Nat)
  /-- DIRTY_LOG_HARVEST (R602). DIRTY_LOG HARVEST takes and clears the map words and writes a summary and the words to a buffer. -/
  | dirtyLogHarvest (id : Nat)
  /-- DIRTY_LOG_DISABLE (R603). DIRTY_LOG DISABLE stops the selected logs. -/
  | dirtyLogDisable (id : Nat)
  /-- CAPTURE_SET (R583). A CAPTURE_SET names the host capture buffer and resets HEAD and TAIL, or turns capture off. -/
  | captureSet (id : Nat)
  /-- DOMAIN_RESET (R571). A DOMAIN_RESET starts a reset of the named domain, entering the engine-port ladder at the named rung. -/
  | domainReset (id : Nat)
  /-- PASID_REVOKE (R592). A PASID_REVOKE fences the slice, error-marks its fences, stops its contexts and stops all requests
  with its PASID. -/
  | pasidRevoke (id : Nat)
  /-- SLICE_ENABLE (R117). A write of ENABLE to SLC_CTL takes an OFF slice to ACTIVE or records STATE_REJECT. -/
  | sliceEnable (slice : Nat)
  /-- SLICE_DISABLE (R117). A write of DISABLE to SLC_CTL takes the slice to DRAINING or directly to OFF. -/
  | sliceDisable (slice : Nat)
  /-- SLICE_DRAINED (R118). When a DRAINING slice has finished its fetched commands, its queues are destroyed and it enters OFF. -/
  | sliceDrained (slice : Nat)
  /-- SQ_DOORBELL (R134). A write to SLC_SQ_DB sets a new TAIL, or is refused with DOORBELL_RANGE. -/
  | sqDoorbell (slice queue : Nat) (value : BitVec 32)
  /-- CQ_DOORBELL (R134). A write to SLC_CQ_DB sets a new CQ_HEAD and retries held records, or is refused. -/
  | cqDoorbell (slice queue : Nat) (value : BitVec 32)
  /-- QUEUE_RESUME (R141). A write of RESUME to SLC_Q_CTL returns a HALTED queue to service and clears KILLED. -/
  | queueResume (slice queue : Nat)
  /-- QUEUE_RETRY (R150). A write of RETRY to SLC_Q_CTL retries held completion records and the status block. -/
  | queueRetry (slice queue : Nat)
  /-- ADMIN_QUEUE_ENABLE (R215). Raising ADM_AQ_CTL.ENABLE reads the admin queue descriptor and starts service, or clears ENABLE
  with ENABLE_FAILED. -/
  | adminQueueEnable
  /-- ADMIN_QUEUE_DISABLE (R217). Lowering ADM_AQ_CTL.ENABLE stops fetching from the admin queue while fetched commands run to
  completion. -/
  | adminQueueDisable
  /-- ADMIN_SQ_DOORBELL (R216). A write to ADM_AQ_SQ_DB sets the admin queue's TAIL under the ring rules. -/
  | adminSqDoorbell (value : BitVec 32)
  /-- ADMIN_CQ_DOORBELL (R216). A write to ADM_AQ_CQ_DB sets the admin queue's CQ_HEAD under the ring rules. -/
  | adminCqDoorbell (value : BitVec 32)
  /-- BEAT_QUARTERS_WRITE (R27). A write of BEAT_QUARTERS sets the beat length, or is discarded when out of range. -/
  | beatQuartersWrite (value : BitVec 8)
  /-- LOW_HALF_READ_LATCH (R35). A 32-bit read of the low half of a 64-bit counter latches the high half for the next read. -/
  | lowHalfReadLatch (offset : Nat)
  /-- FENCE_SIGNAL (R343). SYN_OP_CTL FENCE_SIGNAL applies a signal of SYN_OP_VALUE to a fence of a slice. -/
  | fenceSignal (slice index : Nat)
  /-- FENCE_ADD (R343). SYN_OP_CTL FENCE_ADD adds SYN_OP_VALUE to a fence of a slice. -/
  | fenceAdd (slice index : Nat)
  /-- FENCE_READ (R343). SYN_OP_CTL FENCE_READ returns a fence's VALUE, ERR_STATUS and ERR_TOP. -/
  | fenceRead (slice index : Nat)
  /-- SEM_READ (R343). SYN_OP_CTL SEM_READ returns a semaphore's CAPACITY, HELD and flags. -/
  | semRead (slice index : Nat)
  /-- RECOVER (R445). ADM_JNR_CTL RECOVER resets the joiner cluster into RECOVERY_WAIT. -/
  | recover
  /-- RESTART (R445). ADM_JNR_CTL RESTART resets the joiner cluster and checks the retained image. -/
  | restart
  /-- MAILBOX_RING (R455). A W1S write to MBX_DB rings doorbell bits toward the other end of a channel and starts their timers. -/
  | mailboxRing (mid : BitVec 8) (channel : Nat) (clusterEnd : Bool) (bits : BitVec 16)
  /-- MAILBOX_CLEAR (R455). A W1C write to MBX_DB clears received doorbell bits. -/
  | mailboxClear (mid : BitVec 8) (channel : Nat) (clusterEnd : Bool) (bits : BitVec 16)
  /-- MAILBOX_MASK_WRITE (R456). A write to MBX_MASK changes mask bits, raising an interrupt for a set bit that is unmasked. -/
  | mailboxMaskWrite (mid : BitVec 8) (channel : Nat) (clusterEnd : Bool) (bits : BitVec 16)
  /-- MAILBOX_MSG_WRITE (R455). A write to MBX_MSG_OUT sets an end's outgoing message word. -/
  | mailboxMsgWrite (mid : BitVec 8) (channel : Nat) (clusterEnd : Bool) (word : BitVec 64)
  /-- MAILBOX_RING_TIMEOUT (R457). A rung bit still set after MBX_TIMEOUT_US, or unanswerable, sets the ringer's TIMEOUT bit. -/
  | mailboxRingTimeout (channel bit : Nat)
  /-- RECOVERY_LOAD (R442). A ring of bit 0 on channel 0 in RECOVERY_WAIT makes the boot ROM read, check and install a firmware
  image. -/
  | recoveryLoad (mid : BitVec 8)
  /-- RECOVERY_RING (R445). A ring of bit 0 on channel 0 in NORMAL mode resets the joiner cluster into RECOVERY_WAIT. -/
  | recoveryRing
  /-- PING (R458). The firmware answers a PING request on a service channel with the request word. -/
  | ping (channel : Nat)
  /-- VERSION (R458). The firmware answers a VERSION request with FW_VERSION. -/
  | version (channel : Nat)
  /-- CORE_MAP (R458). The firmware answers a CORE_MAP request with CORES_UP. -/
  | coreMap (channel : Nat)
  /-- LOCK_READ (R460). A read of a lock register takes a free lock for the reader or returns the holder. -/
  | lockRead (mid : BitVec 8) (lock : Nat)
  /-- LOCK_RELEASE (R460). A write of zero by the holder releases a lock; other writes are refused and counted. -/
  | lockRelease (mid : BitVec 8) (lock : Nat) (value : BitVec 64)
  /-- MBX_LOCK_FORCE (R461). A write to MBX_LOCK_FORCE releases the named lock whoever holds it. -/
  | mbxLockForce (lock : Nat)
  /-- RETRAIN (R513). TNL_CTL RETRAIN makes a Tenon port train again. -/
  | retrain (port : Nat)
  /-- PORT_DISABLE (R513). TNL_CTL DISABLE takes a Tenon port to DISABLED. -/
  | portDisable (port : Nat)
  /-- WAKE (R509). TNL_CTL WAKE sends the wake pattern on a sleeping port and then trains it. -/
  | wake (port : Nat)
  /-- CAP_HEAD_WRITE (R595). A write to ADM_CAP_PTRS.HEAD consumes capture records, discarded if it would pass TAIL. -/
  | capHeadWrite (value : BitVec 32)
  /-- GO_PS0 (R622). PWR_CTL GO_PS0 starts the exit from PS2 to PS0. -/
  | goPs0
  /-- GO_PS2 (R621). PWR_CTL GO_PS2 checks conditions and powers down the Planer, engines and Tenon ports. -/
  | goPs2
  /-- GO_PS3 (R623). PWR_CTL GO_PS3 checks conditions, saves retained state and powers down CTL and the clocks. -/
  | goPs3
  /-- SILL_TEST (R642). PWR_CTL SILL_TEST writes a Sill record with REASON OK without a freeze. -/
  | sillTest
  /-- DICT_GO (R674). A write of GO to ADM_DICT_CTL submits the request body in ADM_DICT_BUF to the dictionary. -/
  | dictGo (irq : Bool)
  /-- REGISTER_WRITE (R15). A write to a register field with no row of its own acts by its access code. -/
  | registerWrite (path : WritePath) (offset : Nat) (value : BitVec 64)
  /-- DICT_READ (R670). A dictionary READ request returns a parameter's value. -/
  | dictRead (path : DictPath) (source tag : BitVec 8) (message : List Byte)
  /-- DICT_WRITE (R670). A dictionary WRITE request checks and sets a parameter's working value. -/
  | dictWrite (path : DictPath) (source tag : BitVec 8) (message : List Byte)
  /-- DICT_INFO (R670). A dictionary INFO request returns a parameter's type, access, flags, size and default. -/
  | dictInfo (path : DictPath) (source tag : BitVec 8) (message : List Byte)
  /-- DICT_SAVE (R678). A dictionary SAVE writes every persistent parameter into the older store half and reads it back. -/
  | dictSave (path : DictPath) (source tag : BitVec 8) (message : List Byte) (storeOk : Bool)
  /-- SET_ENDPOINT_ID (R98). The block answers the MCTP Set Endpoint ID control message. -/
  | setEndpointId (source tag header eid : BitVec 8)
  /-- GET_ENDPOINT_ID (R98). The block answers the MCTP Get Endpoint ID control message. -/
  | getEndpointId (source tag header : BitVec 8)
  /-- GET_MCTP_VERSION_SUPPORT (R98). The block answers the MCTP Get MCTP Version Support control message. -/
  | getMctpVersionSupport (source tag header msgType : BitVec 8)
  /-- GET_MESSAGE_TYPE_SUPPORT (R675). The block answers Get Message Type Support, listing type 0x7E only when MCTP_VENDOR_ID is
  set. -/
  | getMessageTypeSupport (source tag header : BitVec 8)
  /-- ENTDAA (R97). The I3C target takes a dynamic address assigned by ENTDAA. -/
  | entdaa (address : BitVec 7)
  /-- SETDASA (R97). The I3C target takes a dynamic address by SETDASA from its static address. -/
  | setdasa (address : DasaAddress)
  /-- ECALL_EXIT (R430). A tidy program's EXIT waits for its stores to drain, then ends its TIDY with OK or TIDY_EXIT. -/
  | ecallExit (program : Nat) (a0 : BitVec 64)
  /-- ECALL_YIELD (R428). A tidy program's YIELD lets the core run its other programs before resuming. -/
  | ecallYield (program : Nat)
  /-- PROGRAM_TRAP (R435). A synchronous user-mode trap ends the program and its TIDY with TIDY_FAULT or DMA_FAULT. -/
  | programTrap (program : Nat) (cause : TrapCause)
  /-- PROGRAM_FENCE (R431). A FENCE W,O instruction completes after every earlier store of the program is acknowledged. -/
  | programFence (program : Nat)
  /-- PROGRAM_MEMORY_ACCESS (R427). A tidy program's load or store to device or host space is checked and issued. -/
  | programMemoryAccess (program : Nat) (address : BitVec 64) (size : Nat) (store : Option (List Byte))
  /-- PROGRAM_AMO (R426). A 64-bit AMO instruction to device space becomes an AMO request. -/
  | programAmo (program : Nat) (address : BitVec 64) (fn : AmoFn) (operand : AmoOperand)
  /-- JU_SYNC_SIGNAL (R433). A JU_SYNC_OP write with SIGNAL applies a fence signal for the program's slice. -/
  | juSyncSignal (program : Nat) (fence : BitVec 16)
  /-- JU_SYNC_ADD (R433). A JU_SYNC_OP write with ADD applies a fence add for the program's slice. -/
  | juSyncAdd (program : Nat) (fence : BitVec 16)
  /-- JU_DOORBELL (R434). A JU_DOORBELL write acts as a doorbell write to a queue of the program's slice. -/
  | juDoorbell (program : Nat) (word : BitVec 64)
  /-- TIDY_SLICE_EXPIRY (R429). A program that has run TIDY_SLICE_CYCLES is switched out for the core's other programs. -/
  | tidySliceExpiry (program : Nat)
  /-- CORE_FAULT (R565). A core fault stops the core and holds its programs as suspects. -/
  | coreFault (core : Nat) (cause : CoreFaultCause)
  /-- CORE_RESTART_DONE (R567). A restarted core begins replaying its held suspects one at a time. -/
  | coreRestartDone (core : Nat) (imageGood : Bool)
  /-- FIRMWARE_NORMAL (R451). The firmware selects NORMAL mode, the mailbox unit resets its channels and the cluster shows RUNNING. -/
  | firmwareNormal
  /-- FIRMWARE_START_TIMEOUT (R444). If the firmware has not entered NORMAL mode 10 ms after LOADED, the boot ROM rings
  START_FAILED. -/
  | firmwareStartTimeout
  /-- CLUSTER_RESET (R441). On a cluster reset the boot ROM checks the retained image or enters RECOVERY_WAIT. -/
  | clusterReset (cause : ClusterCause)
  /-- PORST_N_RISE (R648). The rise of PORST_N starts a cold start. -/
  | porstNRise (present : BitVec 16) (bf16 : BitVec 16)
  /-- SYSRST_N_PULSE (R57). A low pulse of SYSRST_N of at least 1 µs causes a full block reset and a warm start. -/
  | sysrstNPulse (nanoseconds : Nat)
  /-- FN_FLR_REQ (R65). A function level reset causes a full block reset and start, ending with FN_FLR_DONE. -/
  | fnFlrReq
  /-- FN_WAKE_REQ (R66). FN_WAKE_REQ while CLK_REQ is 0 wakes the block for a held function-port access or SIGIN update. -/
  | fnWakeReq
  /-- FN_BME_CHANGE (R64). A change of Bus Master Enable holds or releases host-space requests, MSI-X messages and page requests. -/
  | fnBmeChange (value msixEn msixFmask : Bool)
  /-- MSIX_MESSAGE_SEND (R62). A pending MSI-X message is sent once its vector is unmasked, MSI-X is enabled and the function is
  unmasked. -/
  | msixMessageSend (vector : Nat)
  /-- FUNCTION_PORT_ACCESS (R60). A function-port access of an unsupported size or alignment is answered Unsupported Request or
  discarded. -/
  | functionPortAccess (bar2 write : Bool) (offset size : Nat) (data : BitVec 64) (tag : BitVec 10)
  /-- PAGE_REQUEST_RESPONSE (R77). A page request group response arrives and the missed request is retried once, or fails. -/
  | pageRequestResponse (group : Nat) (code : BitVec 4)
  /-- PRI_TIMEOUT (R67). A page request group without a response within the PRI timeout counts as failed. -/
  | priTimeout (group : Nat)
  /-- MEMORY_RESPONSE (R76). A memory response arrives and is read as success or as a fault, page miss or revocation. -/
  | memoryResponse (tag : Nat) (code : BitVec 3) (data : List Byte)
  /-- MEMORY_RESPONSE_TIMEOUT (R78). A request without a response within the memory response timeout fails with DMA_FAULT. -/
  | memoryResponseTimeout (tag : Nat)
  /-- SIGIN_UPDATE (R309). A SIGIN fence update from a signalled write is applied as a signal, or dropped. -/
  | siginUpdate (slice fence : Nat) (value : BitVec 64)
  /-- QUEUE_FETCH (R136). A queue that may fetch starts a read of up to 8 submission entries. -/
  | queueFetch (slice queue : Nat)
  /-- ENTRY_READ_RETURN (R162). A submission entry read returns and its command is validated and held for release, or ends. -/
  | entryReadReturn (tag : Nat)
  /-- COMMAND_RELEASE (R172). A fetched command is released in ring order once its context is resident and its waits are met. -/
  | commandRelease (id : Nat)
  /-- STATUS_BLOCK_WRITE (R142). The block writes a queue status block after FETCH, HEAD, CQ_TAIL or the queue state changes. -/
  | statusBlockWrite (slice queue : Nat)
  /-- COMPLETION_RECORD_WRITE (R147). A completion record write completes, or fails and goes to the overflow. -/
  | completionRecordWrite (tag : Nat)
  /-- COALESCE_TIMEOUT (R146). COAL_BEATS beat edges after a record, the queue's pending bit is raised and the completion vector
  sent. -/
  | coalesceTimeout (slice queue : Nat)
  /-- QUEUE_CACHE_LOAD (R137). A queue with a pending doorbell is loaded into the queue cache when an entry frees. -/
  | queueCacheLoad (slice queue : Nat)
  /-- OBJ_ENTRY_LOAD (R227). An object table entry read from device memory arrives and the waiting command proceeds. -/
  | objEntryLoad (index : Nat)
  /-- GRANT_SNAPSHOT (R262). L control cycles before a beat edge, the scheduler charges deficits and computes grants, evictions
  and loads. -/
  | grantSnapshot
  /-- BEAT_EDGE (R33). At a beat edge the beat number rises, grants and rate levels take effect, timers fall and tidy programs
  dispatch. -/
  | beatEdge
  /-- COMMAND_TIMEOUT (R212). A command whose remaining timeout reaches zero ends with CMD_TIMEOUT and its work is stopped. -/
  | commandTimeout (id : Nat)
  /-- LEND_EXPIRY (R291). An expired lend whose holder still holds units tears the holder down and marks the semaphore abandoned. -/
  | lendExpiry (slice sem context : Nat)
  /-- TILE_BIND (R269). A ready tile is bound to a port and its footprint reserved when staging begins. -/
  | tileBind (id tile : Nat)
  /-- EXPANDER_UNIT_DONE (R390). An expander lane finishes a unit and writes its groups into the Kiln. -/
  | expanderUnitDone (lane : Nat)
  /-- TABLE_LOAD (R391). A code table not in the cache is read and loaded before the lane's unit proceeds. -/
  | tableLoad (lane : Nat)
  /-- TILE_OFFER (R271). A free port offers the chosen fully staged, granted tile on ENGn_TS_VALID. -/
  | tileOffer (port : Nat)
  /-- TILE_START (R83). The engine takes an offered tile, operand delivery begins and the result area is zeroed. -/
  | tileStart (port : Nat)
  /-- TILE_OFFER_TIMEOUT (R83). A tile offered for more than 1,024 control cycles marks the engine hung and enters rung 1. -/
  | tileOfferTimeout (port : Nat)
  /-- RESULT_BEAT (R87). An engine result beat writes its selected bytes into the tile's result area. -/
  | resultBeat (port : Nat) (tileId : BitVec 8) (offset : BitVec 16) (mask : BitVec 128) (data : List Byte)
  /-- TILE_DONE (R40). Tile done ends a tile, which then goes to commit. -/
  | tileDone (port : Nat) (tileId : BitVec 8) (cycles : Nat)
  /-- ENGINE_FAULT (R557). An engine fault for the running tile ends it without commit and tears down its context. -/
  | engineFault (port : Nat) (tileId : BitVec 8) (code : BitVec 8) (cycles : Nat)
  /-- PREEMPT_KILL (R282). The block kills a running lower-priority tile so that a staged priority-7 tile can start. -/
  | preemptKill (port : Nat)
  /-- KILL_ACK (R90). The engine raises ENGn_KILL_ACK, ending the killed tile's use of the buses. -/
  | killAck (port : Nat) (cycles : Nat)
  /-- KILL_ACK_TIMEOUT (R557). No KILL_ACK within 256 control cycles declares the engine hung and starts rung 1. -/
  | killAckTimeout (port : Nat)
  /-- TILE_OVERRUN_HALF (R286). A tile not ended half a beat after start sets OVERRUN and counts a TILE_OVERRUN event. -/
  | tileOverrunHalf (port : Nat)
  /-- TILE_OVERRUN_KILL (R287). A tile not ended a full beat after start is killed and its command ends with TILE_OVERRUN. -/
  | tileOverrunKill (port : Nat)
  /-- COMMIT_DONE (R404). A commit lane finishes a tile's commit after its last signalled write is answered. -/
  | commitDone (lane : Nat)
  /-- KILN_ECC_ERROR (R398). A Kiln ECC error is corrected, or causes re-staging, kill and replay, or KILN_ECC. -/
  | kilnEccError (port : Nat) (tile : Nat) (place : EccPlace) (double : Bool)
  /-- SLOT_SAVE_DONE (R279). An evicted slot's save completes or fails and the waiting load begins. -/
  | slotSaveDone (slot : Nat)
  /-- SLOT_LOAD_DONE (R156). A context's record and save area are read and the context becomes resident. -/
  | slotLoadDone (slot : Nat)
  /-- COPY_ROUND (R293). The copy engine gives a slice its weighted round-robin share of transfer. -/
  | copyRound (slice : Nat)
  /-- SOFT_RESET_ACK (R91). ENGn_SRST_ACK rises and the soft reset of an engine port succeeds. -/
  | softResetAck (port : Nat)
  /-- SOFT_RESET_TIMEOUT (R573). No SRST_ACK within 256 control cycles starts rung 2, the hard reset. -/
  | softResetTimeout (port : Nat)
  /-- ENGINE_IDLE (R92). ENGn_IDLE rises after a hard reset, isolation is lowered and the port returns to service. -/
  | engineIdle (port : Nat)
  /-- HRST_WAIT_TIMEOUT (R573). No ENGn_IDLE within HRST_WAIT_US starts rung 3, retirement. -/
  | hrstWaitTimeout (port : Nat)
  /-- PSW_ACK_FALL (R576). PSW_ACK_ENGn falls and the port is retired. -/
  | pswAckFall (port : Nat)
  /-- RETIRE_WAIT_TIMEOUT (R573). PSW_ACK_ENGn still high after RETIRE_WAIT_US starts an engine domain reset. -/
  | retireWaitTimeout (port : Nat)
  /-- ENGINE_DOMAIN_RESET (R577). The engine domain reset resets every engine port and the Planer and replays uncommitted tiles. -/
  | engineDomainReset
  /-- ENGDOM_WAIT_TIMEOUT (R577). An engine domain reset not complete within ENGDOM_WAIT_US starts a block reset. -/
  | engdomWaitTimeout
  /-- PLANER_WATCHDOG (R578). A Planer unit without progress for PLANER_WD_US resets the Planer. -/
  | planerWatchdog
  /-- TEARDOWN_COMPLETE (R562). Once a stopped context's requests are answered, the faulting command ends and the teardown
  completes. -/
  | teardownComplete (slice context : Nat)
  /-- CAPTURE_SNAPSHOT_DONE (R587). A capture snapshot is complete and its record is written to the host buffer, DONE last. -/
  | captureSnapshotDone
  /-- CAPTURE_WAIT_TIMEOUT (R586). An event waiting CAPTURE_WAIT_US for a busy capture buffer is dropped. -/
  | captureWaitTimeout
  /-- PASID_REVOKE_COMPLETE (R593). Once every request and page request of the slice is answered, PASID_REVOKE completes. -/
  | pasidRevokeComplete (slice : Nat)
  /-- TRAIN_BLOCK (R467). A received TRAIN block advances training, or declares a neighbour lost from PROBATION or UP. -/
  | trainBlock (port : Nat) (block : TrainBlk)
  /-- TRAIN_FAILED (R468). A training step not reached in time fails training with TRAIN_FAILED. -/
  | trainFailed (port : Nat)
  /-- TRAIN_RETRY_TIMER (R468). 10 ms after a failed training, or 1 ms after a loss, the port trains again. -/
  | trainRetryTimer (port : Nat)
  /-- PING_BLOCK (R471). A PING block is answered, or an answer gives a hop-latency sample. -/
  | pingBlock (port : Nat) (tag : BitVec 8) (echo : Bool) (turn : BitVec 16) (arrival delay : Nat)
  /-- LATENCY_REMEASURE (R472). At beat edges that are multiples of 256, an UP port re-measures H and may declare LATENCY_SHIFT. -/
  | latencyRemeasure (port : Nat)
  /-- LINK_FRAME (R479). A received link frame is accepted in order with a good CRC, or discarded with a NAK. -/
  | linkFrame (port : Nat) (seq : BitVec 8) (flits : List Byte) (crc : BitVec 32) (arrival : Nat)
  /-- ACK_BLOCK (R481). A received ACK block acknowledges frames, updates credits or triggers a resend on NAK. -/
  | ackBlock (port : Nat) (ackSeq : BitVec 8) (nak sleep ackValid : Bool) (credits : BitVec 7)
  /-- ACK_SEND_TIMER (R480). A port sends an ACK block at least every 0.5 µs. -/
  | ackSendTimer (port : Nat)
  /-- ACK_TIMEOUT (R481). A frame unacknowledged 2 µs after its EOF is resent with every later frame. -/
  | ackTimeout (port : Nat) (seq : BitVec 8)
  /-- RESEND_TIMEOUT (R482). A resent frame unacknowledged after 2 µs declares the neighbour lost with LINK_DEADLINE. -/
  | resendTimeout (port : Nat) (seq : BitVec 8)
  /-- SILENCE_TIMEOUT (R483). 4 µs without an ACK block declares the neighbour lost with PEER_LOST. -/
  | silenceTimeout (port : Nat)
  /-- CLEAN_BEAT (R486). A clean beat in PROBATION counts up, and the port enters UP after 8. -/
  | cleanBeat (port : Nat)
  /-- TRANSIT_TIMEOUT (R494). A message in transit that has waited 4 µs for its output port is dropped. -/
  | transitTimeout (port index : Nat)
  /-- BEAT_MESSAGE (R503). A BEAT message sets the worker's next edge and is sent on to its child ports. -/
  | beatMessage
  /-- NOTICE (R519). A NOTICE message changes the chip's frame view, tree and routes. -/
  | noticeMessage
  /-- FENCE_MESSAGE (R496). A FENCE message applies a remote signal or error mark to a fence. -/
  | fenceMessage
  /-- WATCH_REG (R497). A WATCH_REG message registers a remote NOTIFY wait in a watch slot. -/
  | watchReg
  /-- WATCH_NOTIFY (R330). A WATCH_NOTIFY message makes the registering chip write its watch record and raise the vector. -/
  | watchNotify
  /-- WATCH_DROP (R497). A WATCH_DROP message cancels or ends a remote watch registration. -/
  | watchDrop
  /-- BARRIER_ARRIVE_MESSAGE (R536). A child's BARRIER_ARRIVE message counts toward its parent's subtree, or breaks the barrier
  at the manager. -/
  | barrierArriveMessage
  /-- BARRIER_RELEASE (R538). A BARRIER_RELEASE message releases, breaks or reopens a barrier generation. -/
  | barrierRelease
  /-- DICT_REQ (R554). A DICT_REQ message is reassembled and executed with identity 0x02, or refused. -/
  | dictReq
  /-- DICT_RSP (R554). A DICT_RSP message returns a forwarded answer to the requester. -/
  | dictRsp
  /-- DICT_REQ_TIMEOUT (R498). A DICT_REQ without a complete answer within 10 ms ends with LINK_DEADLINE. -/
  | dictReqTimeout (tag : BitVec 16)
  /-- WAKE_DETECT (R508). A wake detector reports WAKE or ACTIVITY on a sleeping lane and wakes the block. -/
  | wakeDetect (port : Nat) (edges : List (Nat × Nat))
  /-- WAKE_WAIT_TIMEOUT (R509). Training not reaching step 7 within WAKE_WAIT_US after a wake declares the neighbour lost. -/
  | wakeWaitTimeout (port : Nat)
  /-- FOUND_FRAME (R523). Chip 0, hearing no BEAT within JOIN_LISTEN_BEATS, founds a frame as manager. -/
  | foundFrame
  /-- JOIN_STATE (R528). A JOIN_STATE write from the manager makes a following chip adopt the view and become MEMBER. -/
  | joinState (body : List Byte)
  /-- FRAME_CMD_EXCLUDE (R529). FRAME_CMD EXCLUDE makes the manager exclude the named pending chip. -/
  | frameCmdExclude (chip : Nat)
  /-- EXCLUDE_TIMEOUT (R529). A chip pending for EXCLUDE_BEATS is excluded by the manager. -/
  | excludeTimeout (chip : Nat)
  /-- MANAGER_LOST_WAIT (R541). 2.25 µs after losing the manager, a worker breaks its owned barriers locally. -/
  | managerLostWait
  /-- PWRFAIL_N_FALL (R632). PWRFAIL_N sampled low freezes the block, powers down domains and writes the Sill record. -/
  | pwrfailNFall
  /-- SILL_WRITE_DONE (R636). The last byte of a Sill record is written to the store. -/
  | sillWriteDone
  /-- PWRFAIL_N_RISE (R639). PWRFAIL_N high for 1 ms after a freeze causes a full block reset with a warm start. -/
  | pwrfailNRise
  /-- PMB_ALERT (R630). PMB_ALERT_N makes the block read STATUS_WORD and act on faults or warnings; none where the packet error
  check of the read fails (R103). -/
  | pmbAlert (statusWord : Option (BitVec 16))
  /-- VR_TELEMETRY_POLL (R630). Every 256 beats the block reads input voltage, current and temperature over PMBus; none where the
  packet error check of a read fails (R103). -/
  | vrTelemetryPoll (vinMv ioutMa tempC : Option (BitVec 32))
  /-- VOLTAGE_READBACK (R628). A voltage read back within tolerance acknowledges a rail request. -/
  | voltageReadback (rail : Nat) (millivolts : BitVec 16)
  /-- VOLTAGE_TIMEOUT (R629). A voltage request unacknowledged within 50 µs fails with VOLTAGE_NACK. -/
  | voltageTimeout (rail : Nat)
  /-- VOLTAGE_RETRY_TIMER (R629). 1 ms after a failed raising the block tries the voltage request once more. -/
  | voltageRetryTimer (rail : Nat)
  /-- PSW_ACK (R102). PSW_ACK of a domain rises, the domain is reset and its isolation lowered. -/
  | pswAck (domain : Domain)
  /-- PS1_IDLE_TIMEOUT (R618). After PS1_IDLE_CYCLES without work the block enters PS1. -/
  | ps1IdleTimeout
  /-- PS1_EXIT (R618). A staging request in PS1 returns the block to PS0. -/
  | ps1Exit
  /-- WAKE_AFTER_TIMEOUT (R625). WAKE_AFTER_MS after entering PS2 or PS3 the block wakes. -/
  | wakeAfterTimeout
  /-- PS3_EXIT (R624). A wake source in PS3 raises CLK_REQ, restores power and causes a warm start. -/
  | ps3Exit
  /-- CLK_OK_RISE (R55). CLK_OK rises and the block may use ACLK and CCLK again. -/
  | clkOkRise
  /-- FUSE_ACK (R112). The fuse word arrives and is checked, reread or published as zero with FUSE_FAULT. -/
  | fuseAck (word : BitVec 128)
  /-- DICTIONARY_LOAD (R653). The dictionary load reads the persistent store or retention SRAM and sets every parameter. -/
  | dictionaryLoad (store : Option (List Byte))
  /-- WARM_START (R651). After a full block reset the block runs a warm start from retained state. -/
  | warmStart
  /-- START_COMPLETE (R654). A start completes when the frame-join step begins, setting DONE and sending admin vector 6. -/
  | startComplete
  /-- START_TIMEOUT (R655). A warm start not complete within its budget fails and causes a full block reset. -/
  | startTimeout
  /-- PORST_N_FALL (R661). PORST_N falls, putting the block in power-on reset and ending any start in progress. -/
  | porstNFall
  /-- RX_LOCK_CHANGE (R467). The RX_LOCK input of a Tenon lane rises or falls, advancing training or marking a beat unclean. -/
  | rxLockChange (port lane : Nat) (level : Bool)
  /-- BLOCK_LOCK_CHANGE (R465). A lane gains block lock after 64 valid sync headers or loses it after 16 invalid ones in 64. -/
  | blockLockChange (port lane : Nat) (blocks : List (BitVec 66))
  /-- PROBATION_NULL_FRAME (R486). Every 0.5 µs a port in PROBATION sends one frame of NULL messages. -/
  | probationNullFrame (port : Nat)
  /-- SELF_TEST_DONE (R649). Built-in self-test of the cold start ends, removing failed cores or ports, or halting the start
  with BIST_FAILED. -/
  | selfTestDone (ctl kiln retention : Bool) (cores : BitVec 32) (ports : BitVec 16)
  deriving DecidableEq, Repr

end Sys2Proof
end

