-- ==== Sys2Proof/Decode.lean ====
section
/-! DEFINITION. The word reading that the host asks for. The opcode table gives no row any bits (every row's "fields"
is empty), so no word spells a command. -/

namespace Sys2Proof

/-- The command that a word of `nbits` bits spells by the table's bits: none, since no row has any.
[DESIGN CHOICE, log entry 1] -/
def decodeTableWord (_nbits _w : Nat) : Option Instr := none

end Sys2Proof
end

