-- ==== Sys2Proof/Config.lean ====
section
/-! DEFINITION. What the spec leaves open and an implementation fixes: free values, which no proof can evaluate. -/

namespace Sys2Proof.Config

/-- A free 64-bit value: the n-th value that the spec leaves open in a run. Nothing constrains it.
[DESIGN CHOICE, log entry 28; DESIGN CHOICE, log entry 54] -/
opaque freeWord : Nat → BitVec 64

/-- A free byte of a layout that the spec calls private to the block (a context save area, R158; the entries of a slice
image, R611): the n-th draw, at byte `i`. Nothing constrains it.
[DESIGN CHOICE, log entry 16; DESIGN CHOICE, log entry 54] -/
opaque freeByte : Nat → Nat → BitVec 8

/-- The free pattern under which the block keeps the bytes of a private layout (a context save area, R158; the entries of
a slice image, R611): byte `i` of what the block writes is its own byte combined with this one, so that only a block that
knows the pattern reads it back. [DESIGN CHOICE, log entry 16; DESIGN CHOICE, log entry 54] -/
opaque privateMask : Nat → BitVec 8

/-- A free choice among alternatives that the spec leaves to the block (which of several slots, tags or channels).
[DESIGN CHOICE, log entry 32; DESIGN CHOICE, log entry 38; DESIGN CHOICE, log entry 54] -/
opaque freeChoice : Nat → Nat

/-- The memory channel that a tag's request takes: the block spreads them as it chooses. Nothing constrains it.
[DESIGN CHOICE, log entry 54; DESIGN CHOICE, log entry 56] -/
opaque freeChannel : Nat → Nat

/-- The port in whose DROPS a FENCE without a route counts, for the n-th free value and its destination. Nothing constrains it.
[DESIGN CHOICE, log entry 20; DESIGN CHOICE, log entry 54] -/
opaque freePort : Nat → Nat → Nat

/-- Whether the receiver of a channel holds READY high (R50): the n-th draw. Nothing constrains it.
[DESIGN CHOICE, log entry 54; DESIGN CHOICE, log entry 56] -/
opaque freeReady : Nat → Bool

/-- Whether PRI is enabled in the function (R77): a setting of its configuration space, for which the function port has no
pin. [DESIGN CHOICE, log entry 49; DESIGN CHOICE, log entry 54] -/
opaque priEnabled : Bool

end Sys2Proof.Config
end

