-- ==== Sys2Proof/Machine/State.lean ====
section
/-! DEFINITION. The state of the block as plain data: every register, queue, table, mode and pin that the spec gives it,
in parts that the rules keep apart, and the state after reset. -/

namespace Sys2Proof.Machine

/-! ### The clock and the beat (R26 to R35) -/

/-- The beat registers of R34 and the latches of R35. `cycle` counts control cycles since the last full block
reset (R22). [DESIGN CHOICE, log entry 4] -/
@[ext] structure Clock where
  cycle : Nat := 0
  phase : BitVec 16 := 0
  beat : BitVec 64 := 0
  quarters : BitVec 8 := 16
  aligned : Bool := false
  src : BitVec 4 := 0
  latches : Tbl (Option (BitVec 32)) := []
  deriving DecidableEq, Repr

/-! ### What leaves the block on its ports -/

/-- A command to the store (R678). -/
inductive StoreOp where
  | writeEnable
  | sectorErase
  | pageProgram
  | readStatus
  deriving DecidableEq, Repr

/-- What the block has put on its output ports, one entry for each transfer. [DESIGN CHOICE, log entry 8] -/
inductive Output where
  /-- An MSI-X message on FN_INT (R62). -/
  | msix (vector : Nat) (addr : BitVec 64) (data : BitVec 32)
  /-- A read completion on FN_CPL (R61). -/
  | cpl (tag : BitVec 10) (data : BitVec 64) (ur : Bool)
  /-- A page request of a group of one (R67). -/
  | pageReq (group : Nat) (pasid : BitVec 20) (page : BitVec 52) (write : Bool)
  /-- The pulse FN_FLR_DONE (R65). -/
  | flrDone
  /-- The tile descriptor of R80 offered on a port. -/
  | tileDesc (port : Nat) (desc : BitVec 512)
  /-- A beat on ENGn_OPD that the engine has accepted (R84): slot, element count, elements packed from bit 0, OPD_LAST. -/
  | operandBeat (port : Nat) (tileId : BitVec 8) (slot count : Nat) (data : BitVec 16384) (last : Bool)
  /-- A hard reset pulse on ENGn_HRST_N (R92). -/
  | hardReset (port : Nat)
  /-- A link frame on a Tenon port: sequence number, flit bytes and CRC (R476). -/
  | frame (port : Nat) (seq : BitVec 8) (flits : List Byte) (crc : BitVec 32)
  /-- An ACK block (R476). -/
  | ack (port : Nat) (ackSeq : BitVec 8) (nak sleep ackValid : Bool) (credits : Nat)
  /-- A PING block (R471). -/
  | ping (port : Nat) (tag : BitVec 8) (echo : Bool) (turn : BitVec 16)
  /-- The wake pattern on both lanes of a port (R509). -/
  | wakePattern (port : Nat)
  /-- An I3C in-band interrupt (R97, R456). -/
  | ibi
  /-- An MCTP message (R98, R675): the endpoint that it goes to, the tag of the request that it answers, its bytes. -/
  | mctp (dest tag : BitVec 8) (bytes : List Byte)
  /-- Bytes written to the persistent store from an address (R636, R678), in a mode of R107: STORE_MODE and STORE_MHZ, or none for
  that of a start, single-bit SPI mode 0 at CCLK ÷ 48. -/
  | store (mode : Option (Nat × Nat)) (address : Nat) (bytes : List Byte)
  /-- A command to the store in a mode (R678), with its address and the bytes that it programs. -/
  | storeOp (mode : Option (Nat × Nat)) (op : StoreOp) (address : Nat) (bytes : List Byte)
  /-- A target voltage written over AVSBus (R628). -/
  | avs (rail : Nat) (millivolts : BitVec 16)
  /-- The cluster mailbox interrupt for a channel, on a core (R456). -/
  | clusterIrq (channel core : Nat)
  /-- The beat event, to the cores of a map (R33 step 4). -/
  | beatEvent (cores : BitVec 32)
  /-- A read of the fuse word (R112). -/
  | fuseReq
  /-- A read of the persistent store (R107): mode, command (the octal one is not given), address, bytes. -/
  | storeRead (mode : Option (Nat × Nat)) (command : Option (BitVec 8)) (address len : Nat)
  /-- A request on MEMc_REQ (R68 to R70): its tag, operation, space, address, PASID, length field, atomic function and
  fence update. -/
  | memReq (tag : Nat) (op : BitVec 2) (host : Bool) (addr : BitVec 64) (pasid : BitVec 20) (len : BitVec 3) (amo : BitVec 4)
      (sig : BitVec 92)
  /-- The WD beat of a request (R70): the 256 bytes of its window and their byte enables. -/
  | memData (tag : Nat) (data : List Byte) (be : BitVec 256)
  /-- What a read of a lock returns to an identity that is not the host's (R460). -/
  | lockValue (mid : BitVec 8) (lock : Nat) (data : BitVec 64)
  deriving DecidableEq, Repr

/-! ### The memory request port (R68 to R79) -/

/-- The operations of R68. -/
inductive MemOp where
  | read
  | write
  | signalledWrite
  | amo
  deriving DecidableEq, Repr

/-- The fence update of a signalled write (R74). -/
structure FenceUpd where
  chip : BitVec 6
  slice : Nat
  fence : Nat
  value : BitVec 64
  deriving DecidableEq, Repr

/-- Codes, clipped codes and escape groups (R410). -/
structure CodeCount where
  codes : Nat := 0
  clipped : Nat := 0
  escs : Nat := 0
  deriving DecidableEq, Repr

/-- What a request is for: which rule reads its answer. `id` names a command in flight, `qk` a queue. -/
inductive Purpose where
  /-- A read of submission entries `first` to `first + count - 1` (R136). -/
  | sqRead (qk first count : Nat)
  /-- The admin queue's descriptor (R215). -/
  | adminDesc
  /-- A queue descriptor (R186). -/
  | queueDesc (id : Nat)
  /-- A queue status block showing FETCH (R142, R143). -/
  | statusBlock (qk : Nat) (fetch : BitVec 32)
  /-- A completion record, from the overflow or not (R147, R150). -/
  | record (qk : Nat) (deferred : Bool)
  /-- A graph packet (R187). -/
  | packet (id : Nat)
  /-- The patch list of a RELAUNCH (R200). -/
  | patchList (id : Nat)
  /-- The entry list of a STREAM_ADVANCE (R253). -/
  | advanceList (id : Nat)
  /-- The successor of a chained command (R204). -/
  | chainNext (id : Nat)
  /-- A successor read only to error its fence (R208). -/
  | chainSkip (id : Nat)
  /-- The result of OBJ_CREATE or STREAM_CREATE, or the mirror entry of a STREAM_CREATE (R232, R244, R637). -/
  | createWrite (id : Nat)
  /-- The page entries of STREAM_MAP (R251). -/
  | mapWrite (id : Nat)
  /-- A mirror write before a STREAM_ADVANCE moves (R637). -/
  | mirrorWrite (id : Nat)
  /-- A write of a stream's header for a command (R244, R251, R256). -/
  | header (index id : Nat)
  /-- A mirror entry of a reclaimed stream: its answer ends nothing (R637). -/
  | mirrorFree
  /-- The result of QUERY (R185). -/
  | queryWrite (id : Nat)
  /-- The context record that QUERY of a context that is not resident reads (R185). -/
  | queryRead (id : Nat)
  /-- A watch record (R327), with its IRQ flag. -/
  | watchRecord (slice : Nat) (irq : Bool)
  /-- Bytes of a context record written by the block (R155, R160): its failure is dropped. -/
  | ctxRecord (slice ctx : Nat)
  /-- The flags of a context record that the block does not hold yet, read before RESUME writes them (R141). -/
  | ctxFlags (slice ctx : Nat)
  /-- The save area of an evicted slot (R158). -/
  | slotSave (slot : Nat)
  /-- The context record read at a load (R156). -/
  | slotRecord (slot : Nat)
  /-- The save area read at a load (R156). -/
  | slotArea (slot : Nat)
  /-- The write of a commit on a commit lane (R404), for an object of a slice: the groups of codes that begin in it, by byte. -/
  | commit (lane slice obj : Nat) (groups : List (Nat × CodeCount))
  /-- A read or write of the copy engine (R182). -/
  | copyRead (id : Nat)
  | copyWrite (id : Nat) (last : Bool)
  /-- A load, store or AMO of a tidy program (R427). -/
  | program (pid : Nat)
  /-- Writes of a slice image or of a harvest (R602, R612), and the zeroing of a dirty map (R598). -/
  | imageWrite (id : Nat)
  /-- The marking of a word of a dirty map, or the taking of one, for a HARVEST (R602). -/
  | mapWord (id : Nat)
  /-- The read of a slice image (R613). -/
  | imageRead (id : Nat)
  /-- A write of a restore into list regions or the mirror (R614). -/
  | restoreWrite (id : Nat)
  /-- A capture record (R587). -/
  | capture
  /-- An object table entry (R227). -/
  | objEntry (index : Nat)
  /-- A container part or code-stream bytes for a lane (R390, R391). -/
  | lane (lane : Nat)
  /-- A queue table entry, read into the queue cache or written as a queue leaves it (R137). -/
  | queueLoad (qk : Nat)
  | queueStore (qk : Nat)
  /-- Bytes of the object and stream tables, written once after a full block reset (R220). -/
  | tableFill
  /-- Context records read for CTX_RECORDS (R689). -/
  | ctxDict (ctx : Nat)
  /-- The boot ROM's reads of an image: the header, then the rest (R442). -/
  | bootRead (rest : Bool)
  deriving DecidableEq, Repr

/-- One request of a transfer (R68, R70): its tag, the bytes that it covers, all in one 256-byte window, and how many bytes of
the transfer come before them. `held` marks one that waits for FN_BME (R64); `paging` one that waits for a page request
(R77); `retried` one that has had its single retry; `answer` is its response. -/
structure Part where
  tag : Nat
  addr : BitVec 64
  len : Nat
  off : Nat
  held : Bool := false
  paging : Bool := false
  retried : Bool := false
  answer : Option (Status × List Byte) := none
  deriving DecidableEq, Repr

/-- An outstanding transfer on the memory request port, known by the tag of its first request. `slice` is the slice whose
PASID it carries: none for a request of the physical function and for device space; `owner` is the slice on whose behalf it
goes. `parts` are its requests; `answer` holds the outcome once every one of them is answered and the row that reads it has
not run. -/
structure Req where
  tag : Nat
  op : MemOp
  dev : Bool
  addr : BitVec 64
  pasid : BitVec 20
  slice : Option Nat
  owner : Option Nat
  len : Nat
  data : List Byte
  amo : BitVec 4
  sig : Option FenceUpd
  why : Purpose
  parts : List Part
  dead : Bool
  answer : Option (Status × List Byte)
  deriving DecidableEq, Repr

/-- A page request group in use (R67): the request it serves, and whether it has failed and only keeps its index. -/
structure PriGroup where
  group : Nat
  tag : Nat
  slice : Nat
  burnt : Bool
  deriving DecidableEq, Repr

/-- One entry of the MSI-X table. [DESIGN CHOICE, log entry 4; PRESUMED, log entry 18] -/
structure MsixEntry where
  addr : BitVec 64 := 0
  data : BitVec 32 := 0
  masked : Bool := true
  deriving DecidableEq, Repr

/-- The function port and the memory request port: pins, MSI-X, requests and page requests.
[DESIGN CHOICE, log entry 4; DESIGN CHOICE, log entry 8] -/
@[ext] structure Fabric where
  bme : Bool := false
  msixEn : Bool := false
  msixFmask : Bool := false
  msix : Tbl MsixEntry := []
  pba : BitVec 272 := 0
  clkReq : Bool := true
  clkOk : Bool := false
  wakeReq : Bool := false
  flrBusy : Bool := false
  reqs : List Req := []
  burntTags : List Nat := []
  nextTag : Nat := 0
  groups : List PriGroup := []
  out : List Output := []
  offers : List Output := []
  deriving DecidableEq, Repr

/-! ### Queues (R121 to R152) -/

/-- The queue states of R138. -/
inductive QState where
  | absent
  | active
  | blocked
  | draining
  | halted
  deriving DecidableEq, Repr

/-- The fields of a queue descriptor (R121). -/
structure QDesc where
  sqBase : BitVec 64 := 0
  cqBase : BitVec 64 := 0
  statusBase : BitVec 64 := 0
  sqLog2 : Nat := 0
  cqLog2 : Nat := 0
  sqDev : Bool := false
  cqDev : Bool := false
  statusDev : Bool := false
  irqEn : Bool := false
  priority : Nat := 0
  cls : Nat := 0
  context : Nat := 0
  timeoutBeats : Nat := 0
  coalCount : Nat := 0
  coalBeats : Nat := 0
  maxInflight : Nat := 0
  deriving DecidableEq, Repr

/-- A completion record before it is laid out (R128); `place` is its place in the order in which records entered the overflow (R148). -/
structure Rec where
  sqIndex : BitVec 32
  node : BitVec 16
  status : Status
  fenceValue : BitVec 64
  fence : BitVec 16
  context : Nat
  queue : Nat
  beatLo : BitVec 32
  place : Nat := 0
  deriving DecidableEq, Repr

/-- One queue: its descriptor, its five positions (R124) and what the block keeps to serve it. `due` holds records that wait
for the record write in flight, `readNext` the next entry whose read is to be issued, `skip` the positions still to come of an
extension whose base has ended, `held` those in the completion overflow, `kept` those that found it full (R149). `cached` says
that it is in the queue cache, `loading` that its entry of the queue table is being read, `dbPending` is its bit in the
pending map (R137); `closing` that a QUEUE_DESTROY waits for its last writes. -/
@[ext] structure Queue where
  state : QState := .absent
  desc : QDesc := {}
  tail : BitVec 32 := 0
  fetch : BitVec 32 := 0
  head : BitVec 32 := 0
  cqTail : BitVec 32 := 0
  cqHead : BitVec 32 := 0
  dbRefused : BitVec 8 := 0
  lateTail : Option (BitVec 32) := none
  lateHead : Option (BitVec 32) := none
  shownFetch : BitVec 32 := 0
  stDirty : Bool := false
  stFailed : Bool := false
  stBusy : Bool := false
  sinceRecs : Nat := 0
  sinceBeats : Option Nat := none
  due : List Rec := []
  recBusy : Option Rec := none
  held : List Rec := []
  kept : List Rec := []
  finished : List Nat := []
  drain : Option (BitVec 32) := none
  readNext : BitVec 32 := 0
  skip : Nat := 0
  cached : Bool := true
  loading : Bool := false
  dbPending : Bool := false
  closing : Bool := false
  deriving DecidableEq, Repr

/-! ### Commands in flight (R161 to R213) -/

/-- How far a command has come. -/
inductive Phase where
  /-- The base has been read and extension entries are missing (R162). -/
  | partBase
  /-- Read, checked and held for release (R173, R276). -/
  | fetched
  /-- A graph node that waits for predecessors by edges (R193). -/
  | blocked
  /-- Released to its engine or to the front end (R171). -/
  | released
  /-- Its effect has begun and waits for an answer, a tile, a turn or a condition. -/
  | running
  /-- It has timed out, or its context is torn down, and its work is being stopped (R560, R562). -/
  | stopping
  deriving DecidableEq, Repr

/-- What a running command waits for beside its own requests. -/
inductive Waiting where
  | none
  /-- A semaphore grant (R314). -/
  | sem
  /-- A local counter (R319). -/
  | counter
  /-- An object table entry read from device memory (R227). -/
  | table
  /-- Its turn on a resident graph (R199). -/
  | turn
  /-- A barrier generation (R535). -/
  | barrier
  /-- The reclaim of an object (R237). -/
  | reclaim
  /-- Quiescence of a slice (R605, R609). -/
  | quiesce
  /-- A context's load or eviction (R184). -/
  | slot
  /-- The last writes of the queue that a QUEUE_DESTROY removes (R131, R184). -/
  | queue
  /-- The answers of a revoked slice (R593), a domain's return (R572), or the end of a graph run (R195). -/
  | revoke
  | domain
  | run
  deriving DecidableEq, Repr

/-- A command in flight. `qk` is its queue, `span` the ring positions of its entry, `parent` the entry of the graph run it is
a node of, `chainPos` its place in a chain. `timer` is the remaining timeout in beats, running once started (R211). `marks`
holds, for each tile of an EXEC, its kills for pre-emption (R284) and its double-bit errors (R398), `readyAt` when a tile that
returned to ready did so (R270). `credits` are those of its last tile, which its fence update has yet to give back (R288), and
`guard` says that it has failed a guard (R411). `unpaid` lists the tiles whose replay is charged to no slice (R577). `relSlot` is the slot that the context held at release: its number, its load
and the local counter that a COUNTER_OP names as it stood (R321). -/
@[ext] structure Cmd where
  id : Nat
  qk : Nat
  slice : Option Nat
  ctx : Nat
  sqIndex : BitVec 32
  span : Nat
  node : BitVec 16
  bytes : List Byte
  parent : Option Nat
  chainPos : Option Nat
  phase : Phase
  waiting : Waiting
  timer : Option Nat
  priority : Nat
  order : Nat
  relOrder : Nat
  refs : List Nat
  slotTaken : Bool
  waitDone : Bool
  sigDone : Bool
  quietEnd : Bool
  badStatus : Status
  endStatus : Option Status
  suspended : Bool
  tilesDone : List Nat
  bytesDone : Nat
  writesLeft : Nat
  codes : Nat
  clipped : Nat
  escs : Nat
  aux : List Byte
  auxNat : Nat
  marks : Tbl (Nat × Nat) := []
  readyAt : Tbl Nat := []
  credits : List Nat := []
  guard : Bool := false
  unpaid : List Nat := []
  relSlot : Option (Nat × Nat × BitVec 32) := none
  deriving DecidableEq, Repr

/-- What became of a node of a run. -/
inductive NodeSt where
  | waiting
  | live
  | ok
  | failed
  deriving DecidableEq, Repr

/-- A graph run, known by the command that is its entry (R187 to R197); `named` says that the deadlock walk has named it (R337). -/
structure Run where
  entry : Nat
  image : List Byte
  edges : List (Nat × Nat)
  nodes : List NodeSt
  decl : List Nat
  first : Option Status
  started : Bool
  graphId : Option Nat
  named : Bool := false
  deriving DecidableEq, Repr

/-- A resident graph (R198): its patched copy, while `loading` not yet checked. -/
structure Resident where
  gid : Nat
  image : List Byte
  loading : Bool
  deriving DecidableEq, Repr

/-! ### Objects and streams (R218 to R256) -/

/-- The guard counts of R410. -/
structure Guards where
  codes : BitVec 64 := 0
  clipped : BitVec 32 := 0
  escGroups : BitVec 32 := 0
  escDenied : BitVec 32 := 0
  nan : BitVec 32 := 0
  inf : BitVec 32 := 0
  amax : BitVec 32 := 0
  deriving DecidableEq, Repr

/-- An object table entry. `gen` is the generation that its object carries, or its next one will (R220), `own` the one in its
object's handle. A stream also has its descriptor, position, pages and state (R242 to R256); `hdrBusy` says that a write of its
header is out, `hdrDue` names the commands whose writes of it wait (R247). -/
@[ext] structure Obj where
  gen : Nat := 1
  own : Nat := 1
  live : Bool := false
  pend : Bool := false
  slice : Nat := 0
  ctx : Nat := 0
  dev : Bool := false
  base : Nat := 0
  size : Nat := 0
  fmt : Nat := 0
  comp : Bool := false
  cls : Nat := 0
  rotSize : Nat := 0
  chip : Nat := 0
  remote : Bool := false
  scale : BitVec 32 := 0
  book : List (BitVec 16) := []
  codeLen : Nat := 0
  refs : Nat := 0
  freer : Option Nat := none
  stream : Bool := false
  desc : Nat := 0
  tok : Nat := 0
  tpp : Nat := 0
  pages : List Nat := []
  faulted : Bool := false
  hdrSeen : Bool := false
  hdrBusy : Bool := false
  hdrDue : List Nat := []
  cached : Bool := false
  guards : Guards := {}
  deriving DecidableEq, Repr

/-! ### The sync unit (R297 to R343) -/

/-- A fence (R300). -/
@[ext] structure Fence where
  value : BitVec 64 := 0
  err : Status := 0
  errTop : BitVec 64 := 0
  deriving DecidableEq, Repr

/-- A semaphore (R312): holder records are pairs of a context and its units. -/
@[ext] structure Sem where
  cap : BitVec 32 := 0
  holders : List (Nat × Nat) := []
  abandoned : Bool := false
  deriving DecidableEq, Repr

/-- A watch registered by WATCH_ADD (R324); `fired` holds the status, value and beat of one that fired while its slice was
FROZEN (R607). -/
structure Watch where
  wid : Nat
  ctx : Nat
  fence : Nat
  forward : Bool
  irq : Bool
  remote : Bool
  chip : Nat
  target : Nat
  value : BitVec 64
  ptr : BitVec 64
  cookie : BitVec 32
  fired : Option (Status × BitVec 64 × BitVec 64)
  deriving DecidableEq, Repr

/-- A NOTIFY wait that another chip registered by WATCH_REG (R497). -/
structure RemoteWait where
  src : Nat
  wid : Nat
  fence : Nat
  value : BitVec 64
  deriving DecidableEq, Repr

/-! ### Slices and contexts (R113 to R120, R153 to R160, R262, R596 to R616) -/

/-- The slice states of R116. -/
inductive SliceSt where
  | off
  | active
  | draining
  | frozen
  | fenced
  deriving DecidableEq, Repr

/-- What the block holds of a context: the values of its record (R154), whether its flags are the record's (`known`) and
ENGINE_NS and PLANER_BYTES go on from the record's (`counted`), whether it is stopped for teardown, when it last left a slot (R278), and `event`, the SEQ of the capture of its last teardown
(R563). -/
@[ext] structure Ctx where
  engineNs : BitVec 64 := 0
  planerBytes : BitVec 64 := 0
  memBytes : BitVec 64 := 0
  updateBeat : BitVec 64 := 0
  saved : Bool := false
  killed : Bool := false
  last : Status := 0
  known : Bool := false
  counted : Bool := false
  stopped : Bool := false
  leftAt : Nat := 0
  event : Nat := 0
  deriving DecidableEq, Repr

/-- A dirty log (R596 to R603): its range and the address of its map, OUTSIDE and HARVEST_SEQ. `bits` holds the marks that the block has
set and that a HARVEST has yet to make visible in the map (R602). -/
structure DirtyLog where
  on : Bool := false
  base : Nat := 0
  len : Nat := 0
  map : Nat := 0
  bits : Tbl Bool := []
  outside : Bool := false
  seq : Nat := 0
  deriving DecidableEq, Repr

/-- Event counts of R413, in the order of R688: four causes of KILN_STARVE, then NAN, INF, CLIPPED, ESC_GROUPS,
ESC_DENIED and CLIP_GUARD. -/
abbrev Counts := Tbl (BitVec 64)

/-- One slice. `event` is the SEQ of the capture of its revocation (R594). -/
@[ext] structure Slice where
  pasid : BitVec 20 := 0
  ctxBase : BitVec 52 := 0
  saveBase : BitVec 52 := 0
  ctxLog2 : BitVec 4 := 0
  state : SliceSt := .off
  ctlStatus : Status := 0
  cqPend : BitVec 64 := 0
  errq : BitVec 64 := 0
  cause : BitVec 5 := 0
  lastStatus : Status := 0
  fences : Tbl Fence := []
  sems : Tbl Sem := []
  watches : List Watch := []
  remoteWaits : List RemoteWait := []
  stale : BitVec 64 := 0
  cycleMap : BitVec 64 := 0
  fenceCount : Nat := 0
  semCount : Nat := 0
  watchCount : Nat := 0
  freeIdx : List Nat := []
  graphs : List Resident := []
  ctxs : Tbl Ctx := []
  deficit : Int := 0
  used : Nat := 0
  maxPrio : Nat := 6
  lvlCmd : Int := 0
  lvlPlaner : Int := 0
  lvlMem : Int := 0
  applied : BitVec 32 := 0
  hostLog : DirtyLog := {}
  devLog : DirtyLog := {}
  quiescent : Bool := false
  revoking : Bool := false
  offDue : Bool := false
  counts : Counts := []
  watchDrops : BitVec 64 := 0
  event : Nat := 0
  deriving DecidableEq, Repr

/-- The registers of SYN_OP (R343). -/
@[ext] structure SyncRegs where
  opValue : BitVec 64 := 0
  opStatus : Status := 0
  errStatus : Status := 0
  rdA : BitVec 64 := 0
  rdB : BitVec 64 := 0
  dropped : BitVec 64 := 0
  deriving DecidableEq, Repr

/-- The admin queue's registers (R214, R706). -/
structure AdminRegs where
  descAddr : BitVec 64 := 0
  enable : Bool := false
  pend : Bool := false
  causes : BitVec 6 := 0
  lastStatus : Status := 0
  deriving DecidableEq, Repr

/-! ### Resident slots and lends (R276 to R296) -/

/-- The slot states of R277. -/
inductive SlotSt where
  | free
  | runnable
  | blocked
  | idle
  | saving
  | loading
  deriving DecidableEq, Repr

/-- A resident slot, with its local sync counters (R318). `chosen` marks one that a snapshot chose for eviction, `evict` one
whose eviction an edge has begun, and `next` is the context that waits to be loaded into it. `load` is the order of the load that
brought its context. -/
@[ext] structure Slot where
  state : SlotSt := .free
  slice : Nat := 0
  ctx : Nat := 0
  priority : Nat := 0
  beats : BitVec 32 := 0
  counters : Tbl (BitVec 32) := []
  chosen : Bool := false
  evict : Bool := false
  next : Option (Nat × Nat) := none
  loadedBeat : BitVec 64 := 0
  load : Nat := 0
  deriving DecidableEq, Repr

/-- A priority lend (R289): decided at a snapshot, `live` from the edge at which it takes effect. -/
structure Lend where
  slice : Nat
  sem : Nat
  ctx : Nat
  priority : Nat
  beats : Nat
  live : Bool
  deriving DecidableEq, Repr

/-! ### Engine ports, tiles and the Kiln (R80 to R92, R257 to R288, R386 to R415) -/

/-- Where a tile stands. -/
inductive TileSt where
  | staging
  | staged
  | offered
  | running
  | committing
  deriving DecidableEq, Repr

/-- A unit that a lane has finished while one before it in the code stream has not: the byte it begins at, the byte that
follows it, the groups (of a code format) or bytes that it holds, and what it writes (R390, R392). -/
structure DoneUnit where
  pos : Nat
  next : Nat
  found : Nat
  bytes : List Byte
  deriving DecidableEq, Repr

/-- What a tile keeps in the Kiln for one operand slot (R351, R394, R395): the bytes written so far, the byte of the
code stream that follows them, the groups (of a code format) or bytes still to find, the byte at which the next unit begins,
the units finished ahead of their turn, and the pages reserved. -/
structure SlotData where
  bytes : List Byte := []
  at0 : Nat := 0
  left : Nat := 0
  pos : Nat := 0
  ahead : List DoneUnit := []
  pages : Nat := 0
  deriving DecidableEq, Repr

/-- A tile bound to a port. `order` is the order in which it became ready (R270); `credits` lists the Tenon ports on which it has
reserved a credit (R288), one for each; `doneBeat` is the beat of its tile done (R633), `ran` the time that it then charged, and
`bad` says that an operand of it has failed while it was offered (R398). -/
@[ext] structure Tile where
  cmd : Nat
  index : Nat
  port : Nat
  state : TileSt
  tileId : BitVec 8
  order : Nat
  slots : List SlotData
  result : Tbl Byte
  credits : List Nat
  grace : Bool
  startCycle : Nat
  beats : Nat
  doneBeat : Nat := 0
  ran : Nat := 0
  bad : Bool := false
  deriving DecidableEq, Repr

/-- Why a running tile is being killed, which decides its replay (R45). -/
inductive KillWhy where
  | preempt (bySlice : Nat)
  | kilnError
  | planerReset
  | portReset
  | overrun
  | timeout
  | teardown
  | revoke
  deriving DecidableEq, Repr

/-- PORT_STATE of R296. -/
inductive PortSt where
  | absent
  | inService
  | softReset
  | hardReset
  | retired
  deriving DecidableEq, Repr

/-- The running ladder of a port (R573): the status that started it, the rung named by a DOMAIN_RESET and its command, and the
SEQ of its capture, 0 for none (R584). -/
structure Ladder where
  rung : Nat
  named : Nat
  status : Status
  cmd : Option Nat
  seq : Nat := 0
  deriving DecidableEq, Repr

/-- A beat that a port's dequantizer holds on ENGn_OPD or has still to send (R84, R400): its tile, slot, element count and packed
elements, whether it is the slot's last, and the NaNs and infinities of its operand (R364) with the slice and object that they
count for. -/
structure OpdBeat where
  tileId : BitVec 8
  slot : Nat
  count : Nat
  data : BitVec 16384
  last : Bool
  slice : Nat
  obj : Nat
  nan : Nat
  inf : Nat
  deriving DecidableEq, Repr

/-- One engine port. `nextTile` is the next TILE_ID (R80), of which the spec gives no first value; `opd` holds the operand
beats that the engine has not accepted. `killFresh` says that ENGn_KILL rose in this control cycle; `done` and `fault` hold a tile
done and a fault of the running tile that were sampled in it, the fault with its code, each with the tile's cycles: what becomes
of the tile is settled at its end (R45), and `overKill` says that it is killed for its overrun (R287). `killAck` and `srstAck` stand from the row that raises them to the end of the cycle;
`hrstWait` counts the control cycles for which ENGn_HRST_N is still held low (R92). `due` is a rung that waits for the running
tile to end, with its status, the DOMAIN_RESET that asks for it and the SEQ of that one's capture (R557, R574); `starve` counts
KILN_STARVE cycles by cause (R412).
[DESIGN CHOICE, log entry 4] -/
@[ext] structure Port where
  present : Bool := false
  bf16 : Bool := false
  opdFmt : Nat := 0
  opd : List OpdBeat := []
  nextTile : BitVec 8 := 0
  kill : Bool := false
  killAck : Bool := false
  srst : Bool := false
  srstAck : Bool := false
  hrstN : Bool := false
  hrstWait : Nat := 0
  idle : Bool := false
  killWhy : Option KillWhy := none
  state : PortSt := .absent
  primary : Option Nat := none
  grants : List Nat := []
  nextPrimary : Option Nat := none
  nextGrants : List Nat := []
  overrun : Bool := false
  overruns : Nat := 0
  protoErrs : Nat := 0
  kilnMib : Nat := 0
  ladder : Option Ladder := none
  faults : BitVec 16 := 0
  hung : BitVec 16 := 0
  soft : BitVec 16 := 0
  hard : BitVec 8 := 0
  lastRung : BitVec 4 := 0
  lastFlt : BitVec 8 := 0
  due : Option (Nat × Status × Option Nat × Nat) := none
  killFresh : Bool := false
  done : Option Nat := none
  fault : Option (BitVec 8 × Nat) := none
  overKill : Bool := false
  lastUnit : Nat := 0
  starve : Tbl (BitVec 64) := []
  deriving DecidableEq, Repr

/-- What a lane reads for its unit (R383, R386, R390, R391): a page entry of a stream, a container's header, an index entry, a
code table, or the unit's own bytes. -/
inductive LaneStage where
  | page
  | header
  | index
  | table
  | data
  deriving DecidableEq, Repr

/-- A unit on an expander lane (R390): the tile and slot that it stages, the code-stream byte it begins at, the bytes it
reads or has read, the page entry or index entry it has read and the code table of a block, the groups or bytes that it holds
at the least, and the bytes read before a read that goes on. -/
structure LaneUnit where
  cmd : Nat
  tile : Nat
  port : Nat
  slot : Nat
  pos : Nat
  len : Nat
  discard : Bool
  stage : LaneStage
  entry : Nat
  want : Nat
  table : List Byte
  got : List Byte
  deriving DecidableEq, Repr

/-- A commit on a commit lane (R404, R409): the code-stream byte and the bytes of its last write, the writes before it that
are not yet answered, whether the last has been issued and answered, and a failure; `groups` holds the groups of the last write by
code-stream byte, `counts` what the commit holds in all. -/
structure CommitJob where
  groups : List (Nat × CodeCount) := []
  counts : CodeCount := {}
  cmd : Nat
  tile : Nat
  port : Nat
  lastAt : Nat
  lastBytes : List Byte
  writesLeft : Nat
  lastSent : Bool
  done : Bool
  failed : Option Status
  deriving DecidableEq, Repr

/-- The Planer: lanes, the container headers that commands have checked (by command and object), the code-table cache (by
handle and table, most recent first), commit lanes and the queue of commits, and PLN_ECC; `event` is the SEQ of the capture of
its last reset (R584). -/
@[ext] structure Planer where
  headers : List (Nat × Nat × List Byte) := []
  lanes : Tbl (Option LaneUnit) := []
  tables : List (Nat × Nat × List Byte) := []
  commits : Tbl (Option CommitJob) := []
  commitQ : List (Nat × Nat × Nat) := []
  corrected : BitVec 32 := 0
  uncorrected : BitVec 32 := 0
  inReset : Bool := false
  engineDomain : Bool := false
  engCmd : Option Nat := none
  plnCmd : Option Nat := none
  event : Nat := 0
  deriving DecidableEq, Repr

/-! ### Joiner cores and tidy programs (R416 to R446, R565 to R568) -/

/-- The registers of a core in one of its modes (R416): `user` says which, `x`, `f` and `v` are the integer, floating-point and
vector registers, `csr` the control and status registers by number. [DESIGN CHOICE, log entry 35] -/
structure Hart where
  pc : BitVec 64 := 0
  user : Bool := false
  x : Tbl (BitVec 64) := []
  f : Tbl (BitVec 64) := []
  v : Tbl (BitVec 512) := []
  csr : Tbl (BitVec 64) := []
  deriving DecidableEq, Repr

/-- A tidy program on a core, with the registers that it runs on. `loading` says that its image is being read, `fencing` that
a FENCE W,O waits for its stores (R431); `current` is the one of its core that runs; `lastLoad` is the answer to its last
access; `reserved` is the reservation of an LR, its address and size (R426). `gone` marks one that is removed and whose last
accesses are not yet answered. -/
@[ext] structure Prog where
  pid : Nat
  cmd : Nat
  slice : Nat
  ctx : Nat
  core : Nat
  firstPage : Nat
  pages : Nat
  hart : Hart
  syncValue : BitVec 64
  syncStatus : Status
  storesOut : Nat
  exitA0 : Option (BitVec 64)
  loading : Bool
  fencing : Bool
  suspect : Bool
  replaying : Bool
  current : Bool
  gone : Bool
  lastLoad : Option (Status × List Byte)
  reserved : Option (Nat × Nat)
  deriving DecidableEq, Repr

/-- An image kept on a core (R422): its handle, offset, length and pages. -/
structure KeptImage where
  handle : BitVec 32
  offset : Nat
  len : Nat
  firstPage : Nat
  pages : Nat
  deriving DecidableEq, Repr

/-- One joiner core. `left` lists the contexts whose programs have left it, with the edges for which a fault still suspects
them (R565); `replayFault` says that a replay after the last fault ended by a core fault (R568), `event` is the SEQ of the capture of that fault; `events` counts beat events
delivered to it, to 2 (R33, R436); `hart` holds its registers in machine mode. -/
structure JCore where
  up : Bool := false
  inService : Bool := true
  restarting : Bool := false
  replay : Bool := false
  faults : BitVec 32 := 0
  confirmed : BitVec 16 := 0
  unattrib : BitVec 8 := 0
  replayFault : Bool := false
  kept : List KeptImage := []
  left : List (Nat × Nat × Nat) := []
  event : Nat := 0
  events : Nat := 0
  hart : Hart := {}
  deriving DecidableEq, Repr

/-- ADM_JNR_STATE.STATE (R446). -/
inductive JnrSt where
  | reset
  | checking
  | recoveryWait
  | loading
  | starting
  | running
  deriving DecidableEq, Repr

/-- The joiner cluster: the local memories (R417), byte `a` of core `k` under 2^18 k + a; the image region of core 0, which is
the retained image (R441), and those of the other cores (`copies`); what the last cluster reset came from, the boot ROM's
registers (R443, R446), cores and programs; `boxDue` says that a cluster reset has yet to reach the mailbox unit (R451, R461). -/
@[ext] structure Joiner where
  state : JnrSt := .reset
  lastCode : BitVec 16 := 0
  attempts : BitVec 16 := 0
  fwVersion : BitVec 32 := 0
  image : List Byte := []
  copies : Tbl (List Byte) := []
  mem : Tbl Byte := []
  cause : ClusterCause := .coldStart
  cores : Tbl JCore := []
  progs : List Prog := []
  nextPid : Nat := 0
  domainCmd : Option Nat := none
  boxDue : Bool := false
  deriving DecidableEq, Repr

/-! ### Faults and capture (R557 to R595) -/

/-- A teardown that runs (R562): its context, its status, the command whose failure caused it, and the status that
other started entities end with; `rank` is the place of its fault among those that meet in one control cycle (R594), while that
cycle lasts. -/
structure Teardown where
  slice : Nat
  ctx : Nat
  status : Status
  cmd : Option Nat
  others : Status
  rank : Option Nat := none
  deriving DecidableEq, Repr

/-- What a capture's event concerns, which decides its sections (R590). -/
inductive Concern where
  | context (slice ctx : Nat)
  | portOnly (p : Nat)
  | allPorts
  | sliceAll (s : Nat)
  | cores
  | link
  | block
  deriving DecidableEq, Repr

/-- A captured event: TRIGGER, DOMAIN, INDEX, RUNG and what it concerns, with the failing command and the cycle map. -/
structure Event where
  trigger : Status
  domain : Nat := 0
  index : Nat := 0
  rung : Nat := 0
  slice : Nat := 0xFF
  ctx : Option Nat := none
  cmd : Option Nat := none
  cycleMap : BitVec 64 := 0
  suspects : List (Nat × Nat × Bool) := []
  concern : Concern
  deriving DecidableEq, Repr

/-- An event that waits for the busy capture buffer (R586), with the later faults counted under it (R563). -/
structure WaitingEvent where
  seq : Nat
  beat : BitVec 64
  timeNs : BitVec 64
  event : Event
  added : BitVec 16 := 0
  deriving DecidableEq, Repr

/-- The header values of a capture (R588), as its snapshot took them; `body` holds the sections' entries by offset. -/
structure Snap where
  seq : Nat
  beat : BitVec 64
  timeNs : BitVec 64
  trigger : Status
  domain : Nat
  index : Nat
  rung : Nat
  slice : Nat
  ctx : Option Nat
  entry : BitVec 64
  cycleMap : BitVec 64
  added : BitVec 16
  suspects : List (Nat × Nat × Bool)
  late : Bool
  ports : BitVec 32
  cores : BitVec 32
  queues : Nat
  fences : Nat
  sems : Nat
  trunc : Nat
  body : List (Nat × List Byte)
  deriving DecidableEq, Repr

/-- State capture and the fault registers of R595. `blockReset` says that a block reset is due (R581), `recordFirst` that it
also waits for the record of its DOMAIN_RESET (R572). -/
@[ext] structure Capture where
  buf : BitVec 64 := 0
  records : Nat := 0
  irq : Bool := false
  head : BitVec 32 := 0
  tail : BitVec 32 := 0
  taken : BitVec 32 := 0
  seq : Nat := 0
  dropped : BitVec 16 := 0
  busy : Option Snap := none
  written : Bool := false
  waiting : List WaitingEvent := []
  teardowns : List Teardown := []
  lastStatus : Status := 0
  lastDomain : BitVec 8 := 0
  lastIndex : BitVec 8 := 0
  blockReset : Bool := false
  recordFirst : Bool := false
  deriving DecidableEq, Repr

/-! ### Messages between chips (R489 to R494) -/

/-- A message of 32 bytes, its header taken apart (R489). -/
structure Msg where
  typ : BitVec 8
  bcast : Bool
  dest : BitVec 6
  src : BitVec 6
  hops : BitVec 8
  slice : BitVec 6
  bseq : BitVec 16
  payload : List Byte
  deriving DecidableEq, Repr

/-- A message that waits in an output queue of a port: `transit` marks one created on another chip (R494), `edgeAt` is the time of
the edge that a BEAT names, in units of 0.25 ns (R502), `owed` marks a FENCE that waits for a credit (R500). -/
structure Queued where
  port : Nat
  transit : Bool
  msg : Msg
  edgeAt : Option Nat := none
  owed : Bool := false
  deriving DecidableEq, Repr

/-- The messages that wait for output ports, the messages received for this chip and not yet taken, with their port
and arrival time in units of 0.25 ns, the credits in use (R500), TNL_RX_DROP, and DROPS of each port (R513). -/
@[ext] structure MsgQueues where
  out : List Queued := []
  inbox : List (Nat × Nat × Msg) := []
  bcastSeq : BitVec 16 := 0
  credits : Tbl Nat := []
  rxDrop : BitVec 64 := 0
  drops : Tbl (BitVec 16) := []
  deriving DecidableEq, Repr

/-- The pins of a power domain (R100 to R102): PSW_EN_x, PSW_ACK_x and ISO_EN_x. -/
@[ext] structure Switch where
  on : Bool := false
  ack : Bool := false
  iso : Bool := true
  deriving DecidableEq, Repr

/-- The registers whose bits a write of 1 clears (R133, R214, R343, R454, R642). -/
inductive W1c where
  | cqPend (slice : Nat)
  | errq (slice : Nat)
  | cause (slice : Nat)
  | cycleMap (slice : Nat)
  | adminPend
  | adminCause
  | power
  | doorbell (channel : Nat)
  | timeout (channel : Nat) (clusterEnd : Bool)
  deriving DecidableEq, Repr

/-- What a control cycle has begun and its end decides, where a rule gives what else comes in the cycle the first word.
[DESIGN CHOICE, log entry 5] -/
inductive Late where
  /-- The timeout of a command (R213, R438, R555). -/
  | timeout (id : Nat)
  /-- The end of a lend (R292, R295): slice, semaphore and context. -/
  | lend (slice sem ctx : Nat)
  /-- The end of the time for ENGn_KILL_ACK (R594). -/
  | hung (port : Nat)
  /-- A broadcast received on a port at a time (R511). -/
  | bcast (port arrival : Nat) (msg : Msg)
  /-- The expiry of a frame (R511). -/
  | ackTimeout (port : Nat) (seq : BitVec 8)
  /-- The expiry of a resent frame (R511). -/
  | resendTimeout (port : Nat) (seq : BitVec 8)
  /-- 4 µs without an ACK block (R511). -/
  | silence (port : Nat)
  /-- The takeover by the standby (R555). -/
  | takeOver
  /-- The exclusion of a pending chip whose time has run out (R555). -/
  | exclude (chip : Nat)
  /-- A BARRIER_ARRIVE message (R555). -/
  | arrive (msg : Msg)
  /-- A look at a barrier's subtree (R555). -/
  | subtree (barrier : Nat)
  /-- The reopening of broken barriers at an edge (R555). -/
  | reopen
  /-- An OBJ_FREE (R228). -/
  | objFree (id : Nat)
  /-- The completion of a teardown (R342, R562). -/
  | teardown (slice ctx : Nat)
  /-- An error mark of a fence (R307), with its target: none is VALUE + 1 (R303). -/
  | mark (slice fence : Nat) (st : Status) (target : Option (BitVec 64))
  /-- An error mark of every fence of a slice (R341). -/
  | markAll (slice : Nat) (st : Status)
  /-- The waits on a fence, against the result of the cycle (R307). -/
  | resolve (slice fence : Nat)
  /-- A command that found its fence with an error as it was to register its wait (R307, R323). -/
  | waited (id : Nat)
  /-- The end of a torn-down context's watches (R340, R342). -/
  | dropWatches (slice ctx : Nat) (st : Status)
  /-- The save cycle of a SLICE_SAVE (R609, R616). -/
  | save (id : Nat)
  /-- A read of a lock by an identity (R461), on the function port with the tag of its request. -/
  | lockRead (mid : BitVec 8) (lock : Nat) (tag : Option (BitVec 10))
  /-- The completion of a later read on the function port (R61). -/
  | cpl (tag : BitVec 10) (data : BitVec 64) (ur : Bool)
  /-- The end of the time for a voltage request (R643). -/
  | voltage (rail : Nat)
  /-- A slice that left OFF in the cycle (R690). -/
  | leftOff (slice : Nat)
  deriving DecidableEq, Repr

/-- Everything that commands, contexts, tiles and programs share. `copyLast` is the slice that the copy engine served last
(R293). `sw` holds the pins of the switchable domains. `streamUp` says that the stream table's descriptors have been laid out,
`streamCached` holds the descriptors in the table cache (R242), `fillLeft` the windows of 256 bytes of the tables that are
still to be written (R220). `barEnds` lists the arrivals that have ended with a status of R540 in this control cycle: slice,
barrier, generation and status. `setNow` lists the W1C bits that the block has set in this control cycle (R17), `late` what
its end decides. -/
@[ext] structure Work where
  fab : Fabric := {}
  slices : Tbl Slice := []
  queues : Tbl Queue := []
  admin : AdminRegs := {}
  sync : SyncRegs := {}
  cmds : List Cmd := []
  nextId : Nat := 0
  runs : List Run := []
  objs : Tbl Obj := []
  streamUp : Bool := false
  streamFree : List Nat := []
  streamCached : Tbl Bool := []
  tableUp : Bool := false
  fillLeft : Nat := 0
  tableBase : Nat := 0
  tableEntries : Nat := 0
  objHits : BitVec 64 := 0
  objMisses : BitVec 64 := 0
  slots : Tbl Slot := []
  lends : List Lend := []
  rr : Nat := 0
  tiles : List Tile := []
  nextOrder : Nat := 0
  copyLast : Nat := 63
  ports : Tbl Port := []
  sw : Tbl Switch := []
  pln : Planer := {}
  jnr : Joiner := {}
  cap : Capture := {}
  msgs : MsgQueues := {}
  fenced : BitVec 64 := 0
  barEnds : List (Nat × Nat × Nat × Status) := []
  setNow : List (W1c × BitVec 64) := []
  late : List Late := []
  fresh : Nat := 0
  deriving DecidableEq, Repr

/-! ### Mailboxes and locks (R447 to R461) -/

/-- One mailbox channel: bits, masks, words and identities of both ends. Index 0 is the peer end, 1 the cluster end. -/
@[ext] structure Channel where
  db : BitVec 32 := 0
  mask : BitVec 32 := BitVec.allOnes 32
  peerWord : BitVec 64 := 0
  clusterWord : BitVec 64 := 0
  ringToPeer : BitVec 8 := 0xFF
  ringToCluster : BitVec 8 := 0xFF
  msgToPeer : BitVec 8 := 0xFF
  msgToCluster : BitVec 8 := 0xFF
  timeoutPeer : BitVec 16 := 0
  timeoutCluster : BitVec 16 := 0
  deriving DecidableEq, Repr

/-- The mailbox unit: channels, the block-wide mode (R450) and the lock registers (R459): a lock is none when free. -/
@[ext] structure Mailboxes where
  chans : Tbl Channel := []
  maint : Bool := true
  locks : Tbl (Option (BitVec 8)) := []
  refused : BitVec 64 := 0
  deriving DecidableEq, Repr

/-! ### The Tenon ports (R462 to R513) -/

/-- TNL_STATUS.STATE (R485). -/
inductive LinkSt where
  | disabled
  | training
  | probation
  | up
  | lost
  | sleep
  | miswired
  deriving DecidableEq, Repr

/-- One lane of a port. `good` counts consecutive valid sync headers, to 64, and `bad` marks the invalid ones among the last 64, the
latest in bit 0 (R465). Of the wake detector, `windows` holds the rising edges of the last windows, the latest first, and `tone`
counts consecutive windows of 1 or 2 edges (R508). -/
structure Lane where
  rxLock : Bool := false
  blockLock : Bool := false
  good : Nat := 0
  bad : BitVec 64 := 0
  windows : List Nat := []
  tone : Nat := 0
  deriving DecidableEq, Repr

/-- A frame sent and not acknowledged: its number, its bytes, its message count, and whether it has been resent. -/
structure SentFrame where
  seq : BitVec 8
  flits : List Byte
  count : Nat
  resent : Bool
  deriving DecidableEq, Repr

/-- One Tenon port: the registers of R513, and the state of training, frames, acknowledgement and latency. `counted` says
that this beat was counted as clean, `waking` that the port trains after a wake pattern (R509). `pings` holds samples of
twice H, `spread2` is twice the last spread, `pingAt` the time at which the last PING was sent, `ackAt` that of the last ACK block
received (R486), both in units of 0.25 ns. `rstWait` counts the control cycles for which RST_N stays low, `seen` is SEEN of the TRAIN
blocks sent (R467). [DESIGN CHOICE, log entry 4] -/
@[ext] structure LinkPort where
  state : LinkSt := .disabled
  lastCause : Status := 0
  flaps : BitVec 8 := 0
  cleanBeats : BitVec 8 := 0
  nbrChip : BitVec 6 := 0
  nbrPort : BitVec 3 := 0
  nbrValid : Bool := false
  subCause : BitVec 4 := 0
  spread : BitVec 16 := 0
  hop : BitVec 32 := 0
  retries : BitVec 16 := 0
  crcErrors : BitVec 16 := 0
  naks : BitVec 16 := 0
  txIdle : Bool := true
  pd : Bool := true
  rstN : Bool := false
  lane0 : Lane := {}
  lane1 : Lane := {}
  deskew : Option Nat := none
  lastCounter0 : Option (BitVec 16) := none
  lastCounter1 : Option (BitVec 16) := none
  lastTrain : Option (BitVec 6 × Bool × BitVec 3 × BitVec 8) := none
  trainRun : Nat := 0
  seenRun : Nat := 0
  doneRun : Nat := 0
  step : Nat := 0
  counter : BitVec 16 := 0
  pings : List Nat := []
  pinging : Bool := false
  nextSeq : BitVec 8 := 0
  unacked : List SentFrame := []
  rxSeq : Option (BitVec 8) := none
  nakSent : Bool := false
  partnerAck : Option (BitVec 8) := none
  partnerCredits : Nat := 64
  rxCredits : Nat := 64
  unclean : Bool := false
  counted : Bool := false
  waking : Bool := false
  spread2 : Nat := 0
  pingAt : Nat := 0
  ackAt : Nat := 0
  rstWait : Nat := 0
  seen : Bool := false
  deriving DecidableEq, Repr

/-- The scrambler of a lane and its descrambler (R463): the last 58 bits sent and received, the latest in bit 0. `words` holds the
words put on TX_DATA, the latest first, `acc` the `fill` bits that do not yet fill one (R462).
[DESIGN CHOICE, log entry 63] -/
@[ext] structure LaneCoder where
  tx : BitVec 58 := 0
  rx : BitVec 58 := 0
  acc : Nat := 0
  fill : Nat := 0
  words : List (BitVec 32) := []
  deriving DecidableEq, Repr

/-- The block layer of a port (R462): its lanes, the lanes that send and receive next, COUNTER of the TRAIN block sent next,
and the blocks put on TX_DATA, the latest first, each with its lane. [DESIGN CHOICE, log entry 63] -/
@[ext] structure Coder where
  lane0 : LaneCoder := {}
  lane1 : LaneCoder := {}
  next : Nat := 0
  rxNext : Nat := 0
  count : BitVec 16 := 0
  sent : List (Nat × BitVec 66) := []
  deriving DecidableEq, Repr

/-- The six ports with their block layers, the last broadcast number of each chip (R493), and TNL_BEAT; `edges` holds the
edges that accepted BEATs name (number, time in units of 0.25 ns, whether PATH_OK and DEPTH allow ALIGNED), `lastEdge` the time
of the last, and `placed` its number once a BEAT of this manager has placed an edge. -/
@[ext] structure Links where
  ports : Tbl LinkPort := []
  coders : Tbl Coder := []
  lastBseq : Tbl (Option (BitVec 16)) := []
  lastErr : BitVec 16 := 0
  missed : BitVec 8 := 0
  depth : BitVec 4 := 0
  edges : List (Nat × Nat × Bool) := []
  lastEdge : Nat := 0
  placed : Option Nat := none
  deriving DecidableEq, Repr

/-! ### The frame and the Truss (R514 to R556) -/

/-- FRAME_STATE of R556. -/
inductive FrameSt where
  | standalone
  | listening
  | following
  | member
  | manager
  | minority
  | excluded
  | invalid
  deriving DecidableEq, Repr

/-- The state of a barrier generation (R533). -/
inductive BarSt where
  | idle
  | counting
  | broken
  deriving DecidableEq, Repr

/-- One barrier: LAST, the state of generation LAST + 1, local arrivals and the reports of children. -/
structure Barrier where
  last : BitVec 64 := 0
  state : BarSt := .idle
  loc : Nat := 0
  expect : Nat := 0
  reports : Tbl Nat := []
  sentUp : Bool := false
  arrivals : List Nat := []
  deriving DecidableEq, Repr

/-- What the manager keeps of a pending chip: beats since it became pending, beats since it was read, the answers
still missing, the segments of its JOIN_STATE write, and whether it follows this manager, having answered it (R553).
[DESIGN CHOICE, log entry 45] -/
structure Pending where
  beats : Nat := 0
  sinceRead : Option Nat := none
  chipOk : Bool := false
  hashOk : Bool := false
  joining : Bool := false
  follows : Bool := false
  deriving DecidableEq, Repr

/-- Why the manager sends a dictionary request (R525, R527, R553): a request that it carries, its own reads of CHIP_NUM and
FRAME_HASH, and its write of JOIN_STATE. -/
inductive FwdWhy where
  | carried
  | chipNum
  | frameHash
  | joinState
  deriving DecidableEq, Repr

/-- A dictionary request sent over the link (R553): its tag, its target chip, why it was sent, and the segments of the
answer that have arrived. -/
structure Forwarded where
  tag : BitVec 16
  chip : Nat
  why : FwdWhy
  nextSeg : Nat := 0
  body : List Byte := []
  deriving DecidableEq, Repr

/-- A dictionary request that arrives over the link (R554): its tag and sender, the segment that comes next, and whether it
is whole and waits. -/
structure InReq where
  tag : BitVec 16
  src : Nat
  nextSeg : Nat
  body : List Byte
  whole : Bool
  deriving DecidableEq, Repr

/-- The frame: TNL_FRAME, the view (R519), from which the tree and the routes are derived (R520, R521), barriers and TRUSS status;
`waitLost` says that the wait of R541 runs after the loss of the manager `lostMgr`. -/
@[ext] structure Frame where
  state : FrameSt := .standalone
  lastCause : Status := 0
  epoch : BitVec 16 := 0
  mgr : BitVec 6 := 0
  mgrLost : Bool := false
  lossByNotice : Bool := false
  hash : BitVec 32 := 0
  admitted : BitVec 64 := 0
  excl : BitVec 64 := 0
  down : Tbl Nat := []
  pending : Tbl (Option Pending) := []
  listened : Nat := 0
  barriers : Tbl Barrier := []
  breakStatus : Status := 0
  breakSrc : BitVec 6 := 0
  breakBarrier : BitVec 8 := 0
  diverged : BitVec 16 := 0
  arriveDrops : BitVec 16 := 0
  waitLost : Bool := false
  lostMgr : BitVec 6 := 0
  fwd : List Forwarded := []
  reqIn : List InReq := []
  nextTag : BitVec 16 := 0
  deriving DecidableEq, Repr

/-! ### Power (R617 to R643) -/

/-- The power states of R617. -/
inductive PowerSt where
  | ps0
  | ps1
  | ps2
  | ps3
  deriving DecidableEq, Repr

/-- Why a Sill record is written (R634). -/
inductive SillWhy where
  | freeze
  | rest
  | test
  deriving DecidableEq, Repr

/-- A voltage request of a commanded rail (R628): its target, what it goes back to, and whether it is the retry. -/
structure VoltReq where
  target : BitVec 16
  previous : BitVec 16
  retry : Bool
  raising : Bool
  failed : Bool
  deriving DecidableEq, Repr

/-- The power controller: PWR_STATUS, PWR_RAIL, the transition in progress with the step at which it
stands, the domains, the Sill record, and whether a SILL_TEST waits for a SAVE (R690). [DESIGN CHOICE, log entry 4] -/
@[ext] structure Power where
  state : PowerSt := .ps0
  lastStatus : Status := 0
  wakeSrc : BitVec 8 := 0
  sillDone : Bool := false
  voltFail : Bool := false
  transition : Option PowerSt := none
  stage : Nat := 0
  wakeLate : Option (BitVec 8) := none
  target0 : BitVec 16 := 0
  target1 : BitVec 16 := 0
  read0 : BitVec 16 := 0
  read1 : BitVec 16 := 0
  volt0 : Option VoltReq := none
  volt1 : Option VoltReq := none
  pwrfailLow : Bool := false
  frozen : Bool := false
  freezeReason : Status := 0
  freezeBeat : BitVec 64 := 0
  sillSlotA : Option (BitVec 64 × List Byte) := none
  sillSlotB : Option (BitVec 64 × List Byte) := none
  sillBusy : Option (SillWhy × Bool × List Byte) := none
  sillWaits : Bool := false
  testWaits : Bool := false
  retention : Option (List Byte) := none
  retDict : Tbl (Tbl Nat) := []
  restView : Option (BitVec 64 × BitVec 64 × Tbl Nat) := none
  vin : BitVec 32 := 0
  iout : BitVec 32 := 0
  temp : BitVec 32 := 0
  warnings : BitVec 64 := 0
  deriving DecidableEq, Repr

/-! ### Start-up and identity (R644 to R662) -/

/-- The start registers of R662 and the identity of R658. `hostWait` is HOST_WAIT_US in control cycles; `loaded` says that the
dictionary load has ended, `everDone` that a start has completed since the last cold start
began (R645), `inPor` that PORST_N is low. -/
@[ext] structure Start where
  lastFail : Status := 0
  warmFails : BitVec 8 := 0
  step : BitVec 8 := 1
  warm : Bool := false
  cause : BitVec 4 := 0
  done : Bool := false
  halted : Bool := false
  dictDefaulted : Bool := false
  fromRetention : Bool := false
  fwRetained : Bool := false
  bistPorts : BitVec 16 := 0
  bistRetention : Bool := false
  bistKiln : Bool := false
  bistCtl : Bool := false
  bistCores : BitVec 32 := 0
  hostWait : Nat := 0
  elapsedUs : BitVec 32 := 0
  bar0 : Bool := false
  loaded : Bool := false
  everDone : Bool := false
  inPor : Bool := true
  lot : BitVec 40 := 0
  wafer : BitVec 5 := 0
  dieX : BitVec 8 := 0
  dieY : BitVec 8 := 0
  licensee : BitVec 16 := 0
  integration : BitVec 16 := 0
  fuseFault : Bool := false
  fuseTries : Nat := 0
  present : BitVec 16 := 0
  bf16 : BitVec 16 := 0
  deriving DecidableEq, Repr

/-! ### The dictionary window and the management plane (R97 to R99, R663 to R690) -/

/-- A request that the dictionary is serving and has not answered (R672): its path, the endpoint and tag of an MCTP or
Tenon request, its body, of a read of CTX_RECORDS the bytes gathered so far by context with the reads still out, and of a SAVE
in progress the half (`true` for B), its SEQ and whether the store does what is asked of it (R678, R690). -/
structure Serving where
  path : DictPath
  eid : BitVec 8
  tag : BitVec 16
  src : Nat
  body : List Byte
  parts : List (Nat × List Byte) := []
  left : Nat := 0
  failed : Bool := false
  save : Option (Bool × BitVec 32 × Bool) := none
  deriving DecidableEq, Repr

/-- The dictionary: its working values where they differ from the defaults (by INDEX, then SUBINDEX), `taken` those that
the last snapshot took, which govern the parameters of R260, its window in BAR0,
the requests that wait on each path, and the store halves as last read or written. -/
@[ext] structure Dict where
  vals : Tbl (Tbl Nat) := []
  taken : Tbl (Tbl Nat) := []
  buf : Tbl Byte := []
  lastStatus : Status := 0
  busy : Bool := false
  irq : Bool := false
  discarded : BitVec 32 := 0
  waitMctp : List (BitVec 8 × BitVec 8 × List Byte) := []
  lastPath : DictPath := .tenon
  requests : BitVec 64 := 0
  skipped : BitVec 32 := 0
  halfA : Option (BitVec 32) := none
  halfB : Option (BitVec 32) := none
  locked : Bool := false
  serving : Option Serving := none
  sillRecord : List Byte := []
  deriving DecidableEq, Repr

/-- The I3C target and its MCTP endpoint (R97, R98). -/
structure Mgmt where
  dynAddr : Option (BitVec 7) := none
  eid : BitVec 8 := 0
  deriving DecidableEq, Repr

/-- Output pins that hold no transfer of a row between them (R52): each at its Reset value until the block drives it. The serial
buses carry whole transactions in their rows and stand at rest between rows. [DESIGN CHOICE, log entry 56] -/
@[ext] structure Pins where
  pmbSclOe : Bool := false
  pmbSdaOe : Bool := false
  avsClk : Bool := false
  avsMdata : Bool := true
  psSck : Bool := false
  psCsN : Bool := true
  psDqOut : BitVec 8 := 0
  psDqOe : Bool := false
  i3cSdaOut : Bool := true
  i3cSdaOe : Bool := false
  fuseReq : Bool := false
  deriving DecidableEq, Repr

/-- The block without its queue of commands. -/
@[ext] structure Block where
  clk : Clock := {}
  work : Work := {}
  mbx : Mailboxes := {}
  lnk : Links := {}
  frm : Frame := {}
  pwr : Power := {}
  st : Start := {}
  dct : Dict := {}
  mgmt : Mgmt := {}
  pins : Pins := {}
  deriving DecidableEq, Repr

/-- The machine: the block, and the commands that wait, first in, first out. -/
structure State where
  core : Block := {}
  pending : List Instr := []
  deriving DecidableEq, Repr

/-- The reasons a step can stop with a fault. The spec gives every command of the table an effect or leaves the block
as it is, so no command raises one; the type keeps its one name for the interface. -/
inductive Fault where
  /-- Raised by nothing. Safe. -/
  | none
  deriving DecidableEq, Repr

/-- The reasons a step is refused. -/
inductive Refusal where
  /-- A command of the table whose meaning the model does not hold. Raised by an arm of exec alone. Safe. -/
  | notModelled (mnemonic : String)
  deriving DecidableEq, Repr

/-- The state after reset: every field at the value the spec's register tables give for a full block reset, with
nothing waiting. Values that the spec does not state are named in log entry 4. [DESIGN CHOICE, log entry 4] -/
def State.reset : State := {}

/-- Change the block and leave the queue. -/
def State.on (s : State) (f : Block → Block) : State := { s with core := f s.core }

end Sys2Proof.Machine
end

