-- ==== Sys2Proof/Machine/Status.lean ====
section
/-! DEFINITION. The status and event codes of R691 to R704, by name. -/

namespace Sys2Proof.Machine.St

/-- OK. -/
abbrev ok : Status := 0x0000
/-- STATE_REJECT. -/
abbrev stateReject : Status := 0x1001
/-- BAD_COMMAND. -/
abbrev badCommand : Status := 0x1002
/-- OBJ_STALE. -/
abbrev objStale : Status := 0x1003
/-- OBJ_RANGE. -/
abbrev objRange : Status := 0x1004
/-- PATCH_RANGE. -/
abbrev patchRange : Status := 0x1005
/-- DOORBELL_RANGE. -/
abbrev doorbellRange : Status := 0x1006
/-- GRAPH_STORE_FULL. -/
abbrev graphStoreFull : Status := 0x1007
/-- OBJ_TABLE_FULL. -/
abbrev objTableFull : Status := 0x1008
/-- STREAM_TABLE_FULL. -/
abbrev streamTableFull : Status := 0x1009
/-- OBJ_KIND. -/
abbrev objKind : Status := 0x100A
/-- STREAM_LIMIT. -/
abbrev streamLimit : Status := 0x100B
/-- CMD_TIMEOUT. -/
abbrev cmdTimeout : Status := 0x2001
/-- TILE_OVERRUN. -/
abbrev tileOverrun : Status := 0x2002
/-- ENGINE_FAULT. -/
abbrev engineFault : Status := 0x2003
/-- SUSPECT_CONFIRMED. -/
abbrev suspectConfirmed : Status := 0x2004
/-- TIDY_FAULT. -/
abbrev tidyFault : Status := 0x2005
/-- TIDY_EXIT. -/
abbrev tidyExit : Status := 0x2006
/-- ENGINE_HUNG. -/
abbrev engineHung : Status := 0x2007
/-- FENCE_SATURATED. -/
abbrev fenceSaturated : Status := 0x3001
/-- DEADLOCK. -/
abbrev deadlock : Status := 0x3002
/-- OWNER_RESET. -/
abbrev ownerReset : Status := 0x3003
/-- SEM_LEND_EXPIRED. -/
abbrev semLendExpired : Status := 0x3004
/-- SEM_ABANDONED. -/
abbrev semAbandoned : Status := 0x3005
/-- COUNTER_SATURATED. -/
abbrev counterSaturated : Status := 0x3006
/-- WATCH_FULL. -/
abbrev watchFull : Status := 0x3007
/-- WATCH_CANCELLED. -/
abbrev watchCancelled : Status := 0x3008
/-- STEP_BROKEN. -/
abbrev stepBroken : Status := 0x4001
/-- PEER_LOST. -/
abbrev peerLost : Status := 0x4002
/-- LINK_DEADLINE. -/
abbrev linkDeadline : Status := 0x4003
/-- LATENCY_SHIFT. -/
abbrev latencyShift : Status := 0x4004
/-- TRAIN_FAILED. -/
abbrev trainFailed : Status := 0x4005
/-- CHIP_EXCLUDED. -/
abbrev chipExcluded : Status := 0x4006
/-- TOPOLOGY_MISMATCH. -/
abbrev topologyMismatch : Status := 0x4007
/-- FRAME_JOINED. -/
abbrev frameJoined : Status := 0x4008
/-- COMPLETION_BLOCKED. -/
abbrev completionBlocked : Status := 0x5001
/-- PASID_REVOKED. -/
abbrev pasidRevoked : Status := 0x5002
/-- DMA_FAULT. -/
abbrev dmaFault : Status := 0x5003
/-- PLANER_FORMAT. -/
abbrev planerFormat : Status := 0x6001
/-- CLIP_GUARD. -/
abbrev clipGuard : Status := 0x6002
/-- NAN_SCRUBBED. -/
abbrev nanScrubbed : Status := 0x6003
/-- KILN_STARVE. -/
abbrev kilnStarve : Status := 0x6004
/-- INF_SATURATED. -/
abbrev infSaturated : Status := 0x6005
/-- ROSREK_FORMAT. -/
abbrev rosrekFormat : Status := 0x6006
/-- KILN_ECC. -/
abbrev kilnEcc : Status := 0x6007
/-- KILN_FIT. -/
abbrev kilnFit : Status := 0x6008
/-- CONTEXT_KILLED. -/
abbrev contextKilled : Status := 0x7001
/-- SLICE_FROZEN. -/
abbrev sliceFrozen : Status := 0x7002
/-- RESET_DOMAIN. -/
abbrev resetDomain : Status := 0x7003
/-- IMAGE_SIZE. -/
abbrev imageSize : Status := 0x7004
/-- IMAGE_REJECT. -/
abbrev imageReject : Status := 0x7005
/-- BIST_FAILED. -/
abbrev bistFailed : Status := 0x7006
/-- START_TIMEOUT. -/
abbrev startTimeout : Status := 0x7007
/-- POWER_FAIL. -/
abbrev powerFail : Status := 0x8001
/-- VOLTAGE_NACK. -/
abbrev voltageNack : Status := 0x8002
/-- VR_FAULT. -/
abbrev vrFault : Status := 0x8003
/-- NO_SUCH_OBJECT. -/
abbrev noSuchObject : Status := 0x9001
/-- ACCESS_DENIED. -/
abbrev accessDenied : Status := 0x9002
/-- TYPE_MISMATCH. -/
abbrev typeMismatch : Status := 0x9003
/-- VALUE_RANGE. -/
abbrev valueRange : Status := 0x9004
/-- LOCKED_IN_STATE. -/
abbrev lockedInState : Status := 0x9005
/-- DICT_DEFAULTED. -/
abbrev dictDefaulted : Status := 0x9006
/-- DICT_BAD_REQUEST. -/
abbrev dictBadRequest : Status := 0x9007
/-- STORE_FAILED. -/
abbrev storeFailed : Status := 0x9008

end Sys2Proof.Machine.St
end

