-- ==== Sys2Proof/Machine/Params.lean ====
section
/-! DEFINITION. The parameter dictionary's tables (R663, R664, R680 to R688): each parameter's address, type, access,
lock point, default, persistence and range, and the reading and writing of working values. -/

namespace Sys2Proof.Machine

/-- The types of R664. -/
inductive PTy where
  | bool
  | u8
  | u16
  | u32
  | u64
  | i32
  | str (max : Nat)
  | blob (size : Nat)
  deriving DecidableEq, Repr

/-- The type code of R664. -/
def PTy.code : PTy → Nat
  | .bool => 1
  | .u8 => 2
  | .u16 => 3
  | .u32 => 4
  | .u64 => 5
  | .i32 => 6
  | .str _ => 7
  | .blob _ => 8

/-- The size in bytes, or the maximum of a string (R664). -/
def PTy.size : PTy → Nat
  | .bool => 1
  | .u8 => 1
  | .u16 => 2
  | .u32 => 4
  | .u64 => 8
  | .i32 => 4
  | .str n => n
  | .blob n => n

/-- Whether a type is a STR or a BLOB, whose requests may carry an OFFSET (R670). -/
def PTy.isBytes : PTy → Bool
  | .str _ => true
  | .blob _ => true
  | _ => false

/-- The access classes of R665. -/
inductive PAcc where
  | ro
  | rw
  | rwl
  | wo
  deriving DecidableEq, Repr

/-- The lock points of R665: frame join (or the end of start-up of a chip that joins none), a slice's leaving OFF
(R115), and the end of start-up (R393, R402). -/
inductive PLock where
  | join
  | slice
  | start
  deriving DecidableEq, Repr

/-- The range of a parameter's value: bounds, and how a further rule of one parameter alone narrows them. -/
inductive PRange where
  /-- Any value of the type. -/
  | any
  | between (lo hi : Nat)
  /-- Bounds and a multiple. -/
  | multiple (lo hi m : Nat)
  /-- One of the listed values. -/
  | oneOf (vs : List Nat)
  /-- A value within bounds, or 0xFF. -/
  | orNone (lo hi : Nat)
  /-- The channel bindings of R449. -/
  | binding
  deriving DecidableEq, Repr

/-- One row of the tables: parameters at INDEX `index` to `index + count - 1`, SUBINDEX `sub` to `sub + subs - 1`. -/
structure PRow where
  index : Nat
  count : Nat := 1
  sub : Nat := 0
  subs : Nat := 1
  ty : PTy
  acc : PAcc
  lock : PLock := .join
  dflt : Nat := 0
  pers : Bool := false
  range : PRange := .any
  deriving DecidableEq, Repr

/-- The identity range (R680). -/
def rowsIdentity : List PRow := [
  { index := 0x1000, ty := .u64, acc := .ro },
  { index := 0x1001, ty := .str 8, acc := .ro },
  { index := 0x1002, ty := .u8, acc := .ro },
  { index := 0x1003, ty := .i32, acc := .ro },
  { index := 0x1004, ty := .i32, acc := .ro },
  { index := 0x1005, ty := .u16, acc := .ro },
  { index := 0x1006, ty := .u16, acc := .ro },
  { index := 0x1007, ty := .str 20, acc := .ro },
  { index := 0x1008, ty := .bool, acc := .ro },
  { index := 0x1010, ty := .u16, acc := .ro, dflt := 0x0203 },
  { index := 0x1011, ty := .u16, acc := .ro, dflt := 0x0104 },
  { index := 0x1012, ty := .u16, acc := .ro, dflt := 0x0101 },
  { index := 0x1013, ty := .u32, acc := .ro },
  { index := 0x1014, ty := .u64, acc := .ro },
  { index := 0x1020, ty := .u8, acc := .rwl, dflt := 0x2C, pers := true, range := .between 0x08 0x77 },
  { index := 0x1021, ty := .u16, acc := .rwl, dflt := 0xFFFF, pers := true }]

/-- The block configuration range (R681). -/
def rowsBlock : List PRow := [
  { index := 0x2000, ty := .u32, acc := .rwl, dflt := 1200000, pers := true, range := .between 100000 1200000 },
  { index := 0x2001, ty := .u8, acc := .rwl, dflt := 16, pers := true, range := .between 4 128 },
  { index := 0x2002, ty := .u16, acc := .rw, dflt := 10, pers := true, range := .between 1 65535 },
  { index := 0x2003, ty := .u16, acc := .rw, dflt := 100, pers := true, range := .between 10 65535 },
  { index := 0x2004, ty := .u64, acc := .rwl, pers := true, range := .multiple 0 (2 ^ 42 - 1) 65536 },
  { index := 0x2005, ty := .u64, acc := .rwl, pers := true },
  { index := 0x2006, ty := .u32, acc := .rwl, dflt := 1048576, pers := true, range := .multiple (2 ^ 16) (2 ^ 24) 4096 },
  { index := 0x2007, ty := .u16, acc := .rw, dflt := 4096, pers := true, range := .between 1 65535 },
  { index := 0x2010, ty := .u8, acc := .rw, dflt := 4, pers := true, range := .between 1 64 },
  { index := 0x2011, ty := .u16, acc := .rw, dflt := 16, pers := true, range := .between 1 1024 },
  { index := 0x2012, ty := .u8, acc := .rw, dflt := 4, pers := true, range := .between 1 15 },
  { index := 0x2013, ty := .u8, acc := .rw, dflt := 4, pers := true, range := .between 1 8 },
  { index := 0x2014, ty := .u16, acc := .rw, dflt := 2400, pers := true, range := .between 256 65535 },
  { index := 0x2015, ty := .u16, acc := .rw, dflt := 1000, pers := true, range := .between 1 65535 },
  { index := 0x2016, sub := 0, ty := .u16, acc := .ro, dflt := 0x0000, pers := true, range := .oneOf [0] },
  { index := 0x2016, sub := 1, ty := .u16, acc := .rwl, dflt := 0x0000, pers := true, range := .binding },
  { index := 0x2016, sub := 2, ty := .u16, acc := .rwl, dflt := 0x0101, pers := true, range := .binding },
  { index := 0x2016, sub := 3, ty := .u16, acc := .rwl, dflt := 0xFF02, pers := true, range := .binding },
  { index := 0x2016, sub := 4, subs := 60, ty := .u16, acc := .rwl, dflt := 0xFFFF, pers := true, range := .binding },
  { index := 0x2020, ty := .u16, acc := .rw, dflt := 200, pers := true, range := .between 10 65535 },
  { index := 0x2021, ty := .u16, acc := .rw, dflt := 50, pers := true, range := .between 1 65535 },
  { index := 0x2022, ty := .u16, acc := .rw, dflt := 2000, pers := true, range := .between 100 65535 },
  { index := 0x2023, ty := .u8, acc := .rw, dflt := 3, pers := true, range := .between 1 255 },
  { index := 0x2024, ty := .u16, acc := .rw, dflt := 500, pers := true, range := .between 50 65535 },
  { index := 0x2025, ty := .u16, acc := .rw, dflt := 100, pers := true, range := .between 10 65535 },
  { index := 0x2030, ty := .u8, acc := .ro, dflt := 64 },
  { index := 0x2031, ty := .u8, acc := .ro, dflt := 64 },
  { index := 0x2032, ty := .u8, acc := .ro, dflt := 12 }]

/-- The slices range (R682, R260, R297, R559, R641). -/
def rowsSlices : List PRow := [
  { index := 0x3000, subs := 64, ty := .u64, acc := .rwl, lock := .slice, range := .multiple 0 (2 ^ 42 - 1) 65536 },
  { index := 0x3001, subs := 64, ty := .u64, acc := .rwl, lock := .slice, range := .multiple 0 (2 ^ 64 - 1) 65536 },
  { index := 0x3002, subs := 64, ty := .u32, acc := .rwl, lock := .slice },
  { index := 0x3003, subs := 64, ty := .u32, acc := .rwl, lock := .slice },
  { index := 0x3004, subs := 64, ty := .u16, acc := .rwl, lock := .slice, range := .between 0 16384 },
  { index := 0x3005, subs := 64, ty := .u16, acc := .rwl, lock := .slice, range := .between 0 4096 },
  { index := 0x3006, subs := 64, ty := .u16, acc := .rw, dflt := 1024 },
  { index := 0x3007, subs := 64, ty := .u16, acc := .rw, dflt := 64, range := .between 0 4096 },
  { index := 0x3008, subs := 64, ty := .u16, acc := .rw, dflt := 128, range := .between 0 8192 },
  { index := 0x3010, subs := 64, ty := .u8, acc := .rw, dflt := 1, range := .between 1 255 },
  { index := 0x3011, subs := 64, ty := .u8, acc := .rw, dflt := 6, range := .between 0 7 },
  { index := 0x3012, subs := 64, ty := .u8, acc := .rw, dflt := 48, range := .between 1 48 },
  { index := 0x3013, subs := 64, ty := .u16, acc := .rw },
  { index := 0x3014, subs := 64, ty := .u32, acc := .rw },
  { index := 0x3015, subs := 64, ty := .u32, acc := .rw },
  { index := 0x3016, subs := 64, ty := .u8, acc := .rw, dflt := 4 },
  { index := 0x3017, subs := 64, ty := .u8, acc := .rw, dflt := 7 },
  { index := 0x3020, subs := 192, ty := .u16, acc := .rw, dflt := 0xFFFF },
  { index := 0x3021, subs := 64, ty := .u64, acc := .rwl, lock := .slice, range := .multiple 0 (2 ^ 56 - 1) 65536 }]

/-- The Planer range (R684, R393, R394, R402, R407, R410, R411). -/
def rowsPlaner : List PRow := [
  { index := 0x4000, ty := .u8, acc := .rwl, lock := .start, pers := true, range := .between 0 1 },
  { index := 0x4001, subs := 16, ty := .u8, acc := .rwl, lock := .start, dflt := 4, pers := true, range := .between 1 64 },
  { index := 0x4002, ty := .u16, acc := .rw, pers := true, range := .between 0 1000 },
  { index := 0x4003, subs := 16, ty := .u8, acc := .rwl, lock := .start, pers := true, range := .between 0 2 },
  { index := 0x4100, count := 64, sub := 0, ty := .u8, acc := .rw, dflt := 4, range := .between 1 32 },
  { index := 0x4100, count := 64, sub := 1, ty := .u8, acc := .rw, dflt := 2, range := .between 0 32 },
  { index := 0x4100, count := 64, sub := 2, subs := 2, ty := .u32, acc := .rw },
  { index := 0x4100, count := 64, sub := 4, ty := .u8, acc := .rw },
  { index := 0x4100, count := 64, sub := 0x10, subs := 8, ty := .u32, acc := .rw },
  { index := 0x4100, count := 64, sub := 0x18, subs := 8, ty := .bool, acc := .wo, range := .between 0 1 }]

/-- The counts of the eight trackers (R684): CODES at 0x20 + 8k, and six 32-bit counts after it. -/
def rowsTracker : List PRow :=
  (List.range 8).flatMap fun k =>
    [{ index := 0x4100, count := 64, sub := 0x20 + 8 * k, ty := .u64, acc := .ro },
     { index := 0x4100, count := 64, sub := 0x21 + 8 * k, subs := 6, ty := .u32, acc := .ro }]

/-- The Tenon and frame range (R685, R512, R514). -/
def rowsFrame : List PRow := [
  { index := 0x5000, ty := .u8, acc := .rwl, dflt := 0x3F, pers := true },
  { index := 0x5001, ty := .u16, acc := .rwl, dflt := 256, pers := true, range := .between 16 1024 },
  { index := 0x5002, ty := .u8, acc := .rw, dflt := 8, pers := true, range := .between 1 255 },
  { index := 0x5003, ty := .u16, acc := .rw, dflt := 2000, pers := true, range := .between 100 65535 },
  { index := 0x5010, ty := .u8, acc := .rwl, dflt := 0xFF, pers := true, range := .orNone 0 63 },
  { index := 0x5011, ty := .u64, acc := .rwl, pers := true },
  { index := 0x5012, ty := .u8, acc := .rwl, dflt := 0xFF, pers := true, range := .orNone 1 63 },
  { index := 0x5013, subs := 64, ty := .u64, acc := .rwl, pers := true },
  { index := 0x5014, subs := 64, ty := .u64, acc := .rwl, pers := true },
  { index := 0x5015, subs := 64, ty := .u64, acc := .rwl, pers := true },
  { index := 0x5016, ty := .u32, acc := .ro },
  { index := 0x5017, ty := .u16, acc := .rw, dflt := 500, pers := true, range := .between 1 65535 },
  { index := 0x5018, ty := .u32, acc := .rw, dflt := 25000, pers := true, range := .between 1 (2 ^ 32 - 1) },
  { index := 0x5019, subs := 256, ty := .u8, acc := .rw, dflt := 0xFF },
  { index := 0x501A, ty := .u16, acc := .wo },
  { index := 0x501B, ty := .blob 2128, acc := .wo }]

/-- The power range (R686, R641). VOLT_MV lies at 4 × state + rail. -/
def rowsPower : List PRow := [
  { index := 0x6000, ty := .u16, acc := .rwl, dflt := 100, pers := true, range := .oneOf [100, 400] },
  { index := 0x6001, ty := .u8, acc := .rwl, dflt := 8, pers := true, range := .oneOf [4, 8, 16] },
  { index := 0x6002, ty := .u8, acc := .rwl, pers := true },
  { index := 0x6003, ty := .u8, acc := .rwl, dflt := 1, pers := true },
  { index := 0x6004, ty := .u8, acc := .rwl, pers := true, range := .between 0 1 },
  { index := 0x6005, ty := .u8, acc := .rwl, dflt := 25, pers := true, range := .between 0 200 },
  { index := 0x6006, ty := .bool, acc := .rwl, dflt := 1, pers := true, range := .between 0 1 },
  { index := 0x6007, ty := .bool, acc := .rwl, pers := true, range := .between 0 1 },
  { index := 0x6008, ty := .blob 4096, acc := .ro },
  { index := 0x6010, ty := .u32, acc := .rw, dflt := 2400, range := .between 16 (2 ^ 32 - 1) },
  { index := 0x6011, sub := 0, subs := 2, ty := .u16, acc := .rw, pers := true },
  { index := 0x6011, sub := 4, subs := 2, ty := .u16, acc := .rw, pers := true },
  { index := 0x6011, sub := 8, subs := 2, ty := .u16, acc := .rw, pers := true },
  { index := 0x6011, sub := 12, subs := 2, ty := .u16, acc := .rw, pers := true },
  { index := 0x6012, ty := .u8, acc := .rw, dflt := 10, pers := true },
  { index := 0x6013, ty := .u32, acc := .rw }]

/-- The telemetry and utilisation ranges (R687, R688). The size of CTX_RECORDS is that of the largest CTX_LOG2; a
slice's own CTX_LOG2 bounds a read (R688). -/
def rowsTelemetry : List PRow := [
  { index := 0x7000, ty := .u64, acc := .ro },
  { index := 0x7001, ty := .u64, acc := .ro },
  { index := 0x7002, subs := 64, ty := .u64, acc := .ro },
  { index := 0x7010, count := 2, ty := .u32, acc := .ro },
  { index := 0x7012, ty := .i32, acc := .ro },
  { index := 0x7013, ty := .u64, acc := .ro },
  { index := 0x7020, ty := .u32, acc := .ro },
  { index := 0x7021, count := 2, ty := .u64, acc := .ro },
  { index := 0x8000, count := 64, sub := 0, subs := 10, ty := .u64, acc := .ro },
  { index := 0x8040, count := 64, ty := .blob (32 * 2 ^ 12), acc := .ro }]

/-- All rows. -/
def paramRows : List PRow :=
  rowsIdentity ++ rowsBlock ++ rowsSlices ++ rowsPlaner ++ rowsTracker ++ rowsFrame ++ rowsPower ++ rowsTelemetry

/-- Whether a row holds the parameter at INDEX `i`, SUBINDEX `j`. -/
def PRow.holds (r : PRow) (i j : Nat) : Bool :=
  decide (r.index ≤ i) && decide (i < r.index + r.count) && decide (r.sub ≤ j) && decide (j < r.sub + r.subs)

/-- The row of a parameter, none where INDEX and SUBINDEX name none (R671 order 2). -/
def paramRow (i j : Nat) : Option PRow := paramRows.find? fun r => r.holds i j

/-- The identities that MBX_BIND takes (R449). -/
def bindingOk (v : Nat) : Bool :=
  let nm := v % 256
  let mm := v / 256
  (nm ≤ 2 || (0x40 ≤ nm && nm ≤ 0x7F) || nm == 0xFF) && (mm ≤ 2 || mm == 0xFF) && v < 65536

/-- Whether a value lies in a parameter's own range (R671 order 6, the part of one parameter). -/
def PRange.admits : PRange → Nat → Bool
  | .any, _ => true
  | .between lo hi, v => lo ≤ v && v ≤ hi
  | .multiple lo hi m, v => lo ≤ v && v ≤ hi && v % m == 0
  | .oneOf vs, v => vs.contains v
  | .orNone lo hi, v => (lo ≤ v && v ≤ hi) || v == 0xFF
  | .binding, v => bindingOk v

/-- The default of a parameter. -/
def parDflt (i j : Nat) : Nat := ((paramRow i j).map PRow.dflt).getD 0

/-- The working value of a parameter with its default `d`. -/
def Dict.at (t : Dict) (i j d : Nat) : Nat := tblGet d (tblGet [] t.vals i) j

/-- The working value of a parameter (R667). -/
def Dict.par (t : Dict) (i j : Nat) : Nat := t.at i j (parDflt i j)

/-- The value that governs a parameter of R260: the one the last snapshot took. -/
def Dict.gov (t : Dict) (i j d : Nat) : Nat := tblGet d (tblGet [] t.taken i) j

/-- Set a working value. -/
def setVal (vals : Tbl (Tbl Nat)) (i j v : Nat) : Tbl (Tbl Nat) :=
  tblSet [] vals i (tblSet (parDflt i j) (tblGet [] vals i) j v)

/-- Set a working value of the dictionary. -/
def Dict.setPar (t : Dict) (i j v : Nat) : Dict := { t with vals := setVal t.vals i j v }

/-! ### The parameters that the block's other parts read, by name -/

/-- CCLK_KHZ (R22). -/
def Dict.cclkKhz (t : Dict) : Nat := t.at 0x2000 0 1200000
/-- BEAT_QUARTERS as loaded (R26). -/
def Dict.beatQuarters (t : Dict) : Nat := t.at 0x2001 0 16
/-- QUEUE_TABLE_BASE (R137). -/
def Dict.queueTableBase (t : Dict) : Nat := t.at 0x2004 0 0
/-- OBJ_TABLE_BASE (R223). -/
def Dict.objTableBase (t : Dict) : Nat := t.at 0x2005 0 0
/-- OBJ_TABLE_ENTRIES (R223). -/
def Dict.objTableEntries (t : Dict) : Nat := t.at 0x2006 0 1048576
/-- CHAIN_LIMIT (R206). -/
def Dict.chainLimit (t : Dict) : Nat := t.at 0x2007 0 4096
/-- DEF_CAP_BEATS (R260). -/
def Dict.defCap (t : Dict) : Nat := t.gov 0x2010 0 4
/-- LEND_BEATS (R260). -/
def Dict.lendBeats (t : Dict) : Nat := t.gov 0x2011 0 16
/-- KILL_PROTECT (R260). -/
def Dict.killProtect (t : Dict) : Nat := t.gov 0x2012 0 4
/-- TIDY_SLOTS (R421). -/
def Dict.tidySlots (t : Dict) : Nat := t.at 0x2013 0 4
/-- MBX_BIND[c] (R449). -/
def Dict.mbxBind (t : Dict) (c : Nat) : Nat :=
  t.at 0x2016 c (if c ≤ 1 then 0 else if c = 2 then 0x0101 else if c = 3 then 0xFF02 else 0xFFFF)
/-- RETIRE_AFTER (R570). -/
def Dict.retireAfter (t : Dict) : Nat := t.at 0x2023 0 3
/-- DEV_BASE[s] (R231). -/
def Dict.devBase (t : Dict) (s : Nat) : Nat := t.at 0x3000 s 0
/-- DEV_SIZE[s] (R231). -/
def Dict.devSize (t : Dict) (s : Nat) : Nat := t.at 0x3001 s 0
/-- OBJ_FIRST[s] (R224). -/
def Dict.objFirst (t : Dict) (s : Nat) : Nat := t.at 0x3002 s 0
/-- OBJ_COUNT[s] (R224). -/
def Dict.objCount (t : Dict) (s : Nat) : Nat := t.at 0x3003 s 0
/-- STREAM_QUOTA[s] (R242). -/
def Dict.streamQuota (t : Dict) (s : Nat) : Nat := t.at 0x3004 s 0
/-- GRAPH_STORE_KIB[s] (R198). -/
def Dict.graphStoreKib (t : Dict) (s : Nat) : Nat := t.at 0x3005 s 0
/-- FENCE_COUNT[s] (R297). -/
def Dict.fenceCount (t : Dict) (s : Nat) : Nat := t.at 0x3006 s 1024
/-- SEM_COUNT[s] (R297). -/
def Dict.semCount (t : Dict) (s : Nat) : Nat := t.at 0x3007 s 64
/-- WATCH_COUNT[s] (R297). -/
def Dict.watchCount (t : Dict) (s : Nat) : Nat := t.at 0x3008 s 128
/-- WEIGHT[s] (R260). -/
def Dict.weight (t : Dict) (s : Nat) : Nat := t.gov 0x3010 s 1
/-- MAX_PRIORITY[s] (R260). -/
def Dict.maxPriority (t : Dict) (s : Nat) : Nat := t.gov 0x3011 s 6
/-- MAX_SLOTS[s] (R260). -/
def Dict.maxSlots (t : Dict) (s : Nat) : Nat := t.gov 0x3012 s 48
/-- CMD_LIMIT[s] (R260). -/
def Dict.cmdLimit (t : Dict) (s : Nat) : Nat := t.gov 0x3013 s 0
/-- PLANER_LIMIT[s] (R260). -/
def Dict.planerLimit (t : Dict) (s : Nat) : Nat := t.gov 0x3014 s 0
/-- MEM_LIMIT[s] (R260). -/
def Dict.memLimit (t : Dict) (s : Nat) : Nat := t.gov 0x3015 s 0
/-- BURST_BEATS[s] (R260). -/
def Dict.burstBeats (t : Dict) (s : Nat) : Nat := t.gov 0x3016 s 4
/-- TEARDOWN_MASK[s] (R559). -/
def Dict.teardownMask (t : Dict) (s : Nat) : Nat := t.at 0x3017 s 7
/-- SILL_FENCE[3s + k] (R635). -/
def Dict.sillFence (t : Dict) (s k : Nat) : Nat := t.at 0x3020 (3 * s + k) 0xFFFF
/-- POS_MIRROR[s] (R637). -/
def Dict.posMirror (t : Dict) (s : Nat) : Nat := t.at 0x3021 s 0
/-- KILN_MODE (R393). -/
def Dict.kilnMode (t : Dict) : Nat := t.at 0x4000 0 0
/-- KILN_MIB[p] (R393). -/
def Dict.kilnMib (t : Dict) (p : Nat) : Nat := t.at 0x4001 p 4
/-- ESC_HEADROOM (R394). -/
def Dict.escHeadroom (t : Dict) : Nat := t.at 0x4002 0 0
/-- OPD_FMT[p] (R402). -/
def Dict.opdFmt (t : Dict) (p : Nat) : Nat := t.at 0x4003 p 0
/-- SCALE_RANK of slice s (R407). -/
def Dict.scaleRank (t : Dict) (s : Nat) : Nat := t.at (0x4100 + s) 0 4
/-- ESC_CLIP of slice s (R407). -/
def Dict.escClip (t : Dict) (s : Nat) : Nat := t.at (0x4100 + s) 1 2
/-- GUARD_CLIP_PPM of slice s (R411). -/
def Dict.guardClipPpm (t : Dict) (s : Nat) : Nat := t.at (0x4100 + s) 2 0
/-- GUARD_ESC_PPM of slice s (R411). -/
def Dict.guardEscPpm (t : Dict) (s : Nat) : Nat := t.at (0x4100 + s) 3 0
/-- GUARD_ACTION of slice s (R411). -/
def Dict.guardAction (t : Dict) (s : Nat) : Nat := t.at (0x4100 + s) 4 0
/-- TRACK_HANDLE[k] of slice s (R410). -/
def Dict.trackHandle (t : Dict) (s k : Nat) : Nat := t.at (0x4100 + s) (0x10 + k) 0
/-- PORT_ENABLE (R512). -/
def Dict.portEnable (t : Dict) : Nat := t.at 0x5000 0 0x3F
/-- LOCAL_CREDITS (R512). -/
def Dict.localCredits (t : Dict) : Nat := t.at 0x5001 0 256
/-- FLAP_LIMIT (R512). -/
def Dict.flapLimit (t : Dict) : Nat := t.at 0x5002 0 8
/-- CHIP_NUM (R514). -/
def Dict.chipNum (t : Dict) : Nat := t.at 0x5010 0 0xFF
/-- FRAME_MEMBERS (R514). -/
def Dict.frameMembers (t : Dict) : Nat := t.at 0x5011 0 0
/-- STANDBY_CHIP (R514). -/
def Dict.standbyChip (t : Dict) : Nat := t.at 0x5012 0 0xFF
/-- TOPO[c] (R515). -/
def Dict.topo (t : Dict) (c : Nat) : Nat := t.at 0x5013 c 0
/-- SHARED_BASE[c] (R514). -/
def Dict.sharedBase (t : Dict) (c : Nat) : Nat := t.at 0x5014 c 0
/-- SHARED_SIZE[c] (R514). -/
def Dict.sharedSize (t : Dict) (c : Nat) : Nat := t.at 0x5015 c 0
/-- JOIN_LISTEN_BEATS (R523). -/
def Dict.joinListen (t : Dict) : Nat := t.at 0x5017 0 500
/-- EXCLUDE_BEATS (R529). -/
def Dict.excludeBeats (t : Dict) : Nat := t.at 0x5018 0 25000
/-- BARRIER_OWNER[b] (R532). -/
def Dict.barrierOwner (t : Dict) (b : Nat) : Nat := t.at 0x5019 b 0xFF
/-- SILL_CAPABLE (R109). -/
def Dict.sillCapable (t : Dict) : Bool := t.at 0x6007 0 0 == 1
/-- VOLT_MV[4 × state + rail] (R641). -/
def Dict.voltMv (t : Dict) (state rail : Nat) : Nat := t.at 0x6011 (4 * state + rail) 0
/-- VOLT_TOL_MV (R628). -/
def Dict.voltTol (t : Dict) : Nat := t.at 0x6012 0 10
/-- CORE_RAIL and ARITH_RAIL (R641). -/
def Dict.railNumber (t : Dict) (rail : Nat) : Nat := if rail = 0 then t.at 0x6002 0 0 else t.at 0x6003 0 1
/-- WAKE_AFTER_MS (R625). -/
def Dict.wakeAfterMs (t : Dict) : Nat := t.at 0x6013 0 0
/-- I3C_STATIC_ADDR (R97). -/
def Dict.staticAddr (t : Dict) : Nat := t.at 0x1020 0 0x2C
/-- MCTP_VENDOR_ID (R675). -/
def Dict.vendorId (t : Dict) : Nat := t.at 0x1021 0 0xFFFF

end Sys2Proof.Machine
end

