-- ==== Sys2Proof/Machine/View.lean ====
section
/-! DEFINITION. What a chip derives from its view of the frame (R519 to R522): usable links, the tree, the routes, and
the block's own chip number in an address (R69). -/

namespace Sys2Proof.Machine

/-- Whether the block has joined a frame (R523, R528, R552). [DEDUCED, log entry 27] -/
def Frame.joined (f : Frame) : Bool :=
  f.state == .member || f.state == .manager || f.state == .minority

/-- Whether the block follows a manager or is one, so that it holds a view (R524). -/
def Frame.viewed (f : Frame) : Bool := f.joined || f.state == .following

/-- Whether the block keeps a view of the frame that changes of R519 reach: it takes part in one, or listens for one. -/
def Frame.hasView (f : Frame) : Bool := f.viewed || f.state == .listening

/-- The number that names the block's own memory (R69): its chip number in a frame, zero outside one.
[DEDUCED, log entry 27] -/
def ownChip (e : Block) : Nat := if e.frm.joined then e.dct.chipNum else 0

/-- The far end of port `p` of chip `c` by TOPO (R515): chip and port, none where VALID is 0. -/
def farLink (d : Dict) (c p : Nat) : Option (Nat × Nat) :=
  let w := d.topo c >>> (10 * p)
  if bitsOf w 9 9 = 1 then some (bitsOf w 5 0, bitsOf w 8 6) else none

/-- Whether chip `c` is a frame chip: a member that has not been excluded. -/
def inF (e : Block) (c : Nat) : Bool := e.dct.frameMembers.testBit c && !e.frm.excl.toNat.testBit c

/-- Whether chip `c` is admitted. -/
def inA (e : Block) (c : Nat) : Bool := e.frm.admitted.toNat.testBit c

/-- Whether chip `c` is pending: in F and not in A. -/
def isPending (e : Block) (c : Nat) : Bool := inF e c && !inA e c

/-- Whether port `p` of chip `c` is marked down. -/
def downMark (f : Frame) (c p : Nat) : Bool := (tblGet 0 f.down c).testBit p

/-- The far end of port `p` of chip `c` over a usable link. -/
def usable (e : Block) (c p : Nat) : Option (Nat × Nat) :=
  match farLink e.dct c p with
  | none => none
  | some (y, q) =>
    if !downMark e.frm c p && !downMark e.frm y q && inF e c && inF e y then some (y, q) else none

/-- One chip of the tree: its number, its parent with the parent's port, its own port to the parent, its depth. -/
structure TreeNode where
  chip : Nat
  parent : Option (Nat × Nat)
  parentPort : Option Nat
  depth : Nat
  deriving DecidableEq, Repr

/-- The ports of `x` tried in order: each chip not yet reached joins the tree (R520). -/
def treeStep (e : Block) (x : TreeNode) (reached : List TreeNode) : List TreeNode :=
  (List.range 6).foldl (fun acc p =>
    match usable e x.chip p with
    | none => acc
    | some (y, q) =>
      if (reached ++ acc).any (fun n => n.chip == y) then acc
      else acc ++ [{ chip := y, parent := some (x.chip, p), parentPort := some q, depth := x.depth + 1 }]) []

/-- The walk of R520, breadth first; `fuel` bounds the chips taken. -/
def treeWalk (e : Block) : Nat → List TreeNode → List TreeNode → List TreeNode
  | 0, _, done => done
  | _, [], done => done
  | fuel + 1, x :: queue, done =>
    let new := treeStep e x (done ++ x :: queue)
    treeWalk e fuel (queue ++ new) (done ++ [x])

/-- The tree over usable links rooted at chip `m` (R520). -/
def treeFrom (e : Block) (m : Nat) : List TreeNode :=
  if inF e m then treeWalk e 64 [{ chip := m, parent := none, parentPort := none, depth := 0 }] [] else []

/-- The beat and Truss tree: rooted at the followed manager. -/
def frameTree (e : Block) : List TreeNode := treeFrom e e.frm.mgr.toNat

/-- A chip's place in the tree. -/
def treeNode (e : Block) (c : Nat) : Option TreeNode := (frameTree e).find? fun n => n.chip == c

/-- The parent port of this chip. -/
def parentPort (e : Block) : Option Nat := (treeNode e e.dct.chipNum).bind TreeNode.parentPort

/-- The children of chip `c`: its port and the child. -/
def childrenOf (e : Block) (c : Nat) : List (Nat × Nat) :=
  (frameTree e).filterMap fun n =>
    match n.parent with
    | some (x, p) => if x = c then some (p, n.chip) else none
    | none => none

/-- The child ports of this chip. -/
def childPorts (e : Block) : List (Nat × Nat) := childrenOf e e.dct.chipNum

/-- The hop distance over usable links, none where no link leads there (R521). -/
def hops (e : Block) (x d : Nat) : Option Nat :=
  if x = d then some 0 else ((treeFrom e x).find? fun n => n.chip == d).map TreeNode.depth

/-- The port of a direct neighbour recorded under R469. -/
def neighbourPort (e : Block) (d : Nat) : Option Nat :=
  (List.range 6).find? fun p =>
    let l := tblGet {} e.lnk.ports p
    l.nbrValid && l.nbrChip.toNat == d

/-- The route to chip `d` (R521, R491): the lowest port of least distance; before the block holds a view, a direct
neighbour's port alone. -/
def routeTo (e : Block) (d : Nat) : Option Nat :=
  if e.frm.viewed then
    let cand := (List.range 6).filterMap fun p =>
      match usable e e.dct.chipNum p with
      | none => none
      | some (y, _) => (hops e y d).map fun h => (h, p)
    (cand.foldl (fun (best : Option (Nat × Nat)) c =>
      match best with
      | none => some c
      | some b => if c.1 < b.1 then some c else some b) none).map Prod.snd
  else neighbourPort e d

/-- Whether a port carries messages: it is UP (R485). -/
def portUp (e : Block) (p : Nat) : Bool := (tblGet {} e.lnk.ports p).state == .up

/-- Whether a chip is reachable over usable links and an UP port (R331). -/
def reachable (e : Block) (d : Nat) : Bool :=
  match routeTo e d with
  | some p => portUp e p || (tblGet {} e.lnk.ports p).state == .sleep
  | none => false

/-- ALIGNED (R505): the current edge was placed from a BEAT that allows it, and the parent port's last spread was at most 2 ns. -/
def Block.aligned (b : Block) : Bool :=
  b.clk.aligned && match parentPort b with
    | some p => decide ((tblGet {} b.lnk.ports p).spread2 ≤ 16)
    | none => false

end Sys2Proof.Machine
end

