-- ==== Sys2Proof/Machine/Flags.lean ====
section
/-! DEFINITION. Flags: MSI-X vectors and pending bits (R59, R62), the error causes, pending bits and status fields that a
slice, the admin queue and the fault unit raise (R133, R146, R595, R706). -/

namespace Sys2Proof.Machine

/-! ### Parts of the shared state by number -/

/-- Slice `s`. -/
def Work.slice (w : Work) (s : Nat) : Slice := tblGet {} w.slices s

/-- Change slice `s`. -/
def Work.updSlice (w : Work) (s : Nat) (f : Slice → Slice) : Work := { w with slices := tblUpd {} w.slices s f }

/-- Queue `qk`. -/
def Work.queue (w : Work) (qk : Nat) : Queue := tblGet {} w.queues qk

/-- Change queue `qk`. -/
def Work.updQueue (w : Work) (qk : Nat) (f : Queue → Queue) : Work := { w with queues := tblUpd {} w.queues qk f }

/-- Engine port `p`. -/
def Work.port (w : Work) (p : Nat) : Port := tblGet {} w.ports p

/-- Change engine port `p`. -/
def Work.updPort (w : Work) (p : Nat) (f : Port → Port) : Work := { w with ports := tblUpd {} w.ports p f }

/-- The key of a power domain (R100). -/
def domainKey : Domain → Nat
  | .ctl => 0
  | .pln => 1
  | .tnl => 2
  | .eng p => 3 + p

/-- The switch pins of a power domain. -/
def Work.switch (w : Work) (d : Domain) : Switch := tblGet {} w.sw (domainKey d)

/-- Change the switch pins of a power domain. -/
def Work.updSwitch (w : Work) (d : Domain) (f : Switch → Switch) : Work := { w with sw := tblUpd {} w.sw (domainKey d) f }

/-- Change the function and memory ports. -/
def Work.updFab (w : Work) (f : Fabric → Fabric) : Work := { w with fab := f w.fab }

/-- Change the capture unit and the fault registers. -/
def Work.updCap (w : Work) (f : Capture → Capture) : Work := { w with cap := f w.cap }

/-- The key of the admin queue. [DESIGN CHOICE, log entry 11] -/
abbrev adminKey : Nat := 4096

/-- The key of queue `q` of slice `s`; the admin queue's for any slice past the last. [DESIGN CHOICE, log entry 11] -/
def qkey (s q : Nat) : Nat := if s < 64 then s * 64 + q % 64 else adminKey

/-- The slice of a queue, none for the admin queue. -/
def sliceOf (qk : Nat) : Option Nat := if qk < adminKey then some (qk / 64) else none

/-! ### Channels (R50) -/

/-- The output channels that have VALID and READY and no row of the table for READY (R50). ENGn_TS has one (TILE_START), and
the beats of ENGn_OPD wait in their port. -/
inductive Chan where
  | cpl
  | int
  | pri
  | req (c : Nat)
  | wd (c : Nat)
  deriving DecidableEq, Repr

/-- The memory channel that takes a request: the block spreads them as it chooses. [DESIGN CHOICE, log entry 56] -/
def chanOfTag (tag : Nat) : Nat := Config.freeChannel tag % 48

/-- The channel of an output, none for a pin, a pulse or a port without a handshake. -/
def Output.chan : Output → Option Chan
  | .cpl _ _ _ => some .cpl
  | .msix _ _ _ => some .int
  | .pageReq _ _ _ _ => some .pri
  | .memReq t _ _ _ _ _ _ _ => some (.req (chanOfTag t))
  | .memData t _ _ => some (.wd (chanOfTag t))
  | _ => none

/-- Something leaves the block. On a channel it is offered, VALID high with its payload, until READY is high (R50). -/
def Fabric.emit (f : Fabric) (o : Output) : Fabric :=
  { f with out := o :: f.out, offers := match o.chan with
    | some _ => f.offers ++ [o]
    | none => f.offers }

/-- Something leaves the block. -/
def Work.emit (w : Work) (o : Output) : Work := w.updFab fun f => f.emit o

/-! ### MSI-X (R59, R62, R64) -/

/-- The vector of admin use `n`. -/
def vecAdmin (n : Nat) : Nat := n
/-- The completion vector of slice `s`. -/
def vecCompletion (s : Nat) : Nat := 16 + 4 * s
/-- The error vector of slice `s`. -/
def vecError (s : Nat) : Nat := 17 + 4 * s
/-- The mailbox vector of slice `s`. -/
def vecMailbox (s : Nat) : Nat := 18 + 4 * s
/-- The watch vector of slice `s`. -/
def vecWatch (s : Nat) : Nat := 19 + 4 * s

/-- Whether the conditions of R62 and R64 hold for a message of vector `v`. [PRESUMED, log entry 18] -/
def Fabric.msixOpen (f : Fabric) (v : Nat) : Bool :=
  f.bme && f.msixEn && !f.msixFmask && !(tblGet {} f.msix v).masked

/-- Send the message of vector `v`, or set its pending bit (R62): a message that R64 holds waits in the same bit, so that
repeats of it merge. [DESIGN CHOICE, log entry 18] -/
def Fabric.raise (f : Fabric) (v : Nat) : Fabric :=
  if f.msixOpen v then
    let m := tblGet {} f.msix v
    f.emit (.msix v m.addr m.data)
  else { f with pba := setBit f.pba v }

/-- Send a pending message whose conditions hold now (R62). -/
def Fabric.release (f : Fabric) (v : Nat) : Fabric :=
  if f.msixOpen v && f.pba.getLsbD v then
    let m := tblGet {} f.msix v
    { f.emit (.msix v m.addr m.data) with pba := clrBit f.pba v }
  else f

/-- Raise vector `v`. -/
def Work.raise (w : Work) (v : Nat) : Work := w.updFab fun f => f.raise v

/-! ### Bits that a write of 1 clears (R15, R17) -/

/-- The block sets bits of a W1C register in this control cycle. -/
def Work.sets (w : Work) (r : W1c) (bits : BitVec 64) : Work := { w with setNow := (r, bits) :: w.setNow }

/-- The bits of a W1C register that the block has set in this control cycle. -/
def Work.nowSet (w : Work) (r : W1c) : BitVec 64 := w.setNow.foldl (fun m p => if p.1 = r then m ||| p.2 else m) 0

/-- What a write of ones leaves of a W1C register: a bit set in this control cycle stays (R17). -/
def Work.cleared (w : Work) (r : W1c) (cur ones : BitVec 64) : BitVec 64 := cur &&& ~~~(ones &&& ~~~w.nowSet r)

/-- Whether a bit stays so, and raises its interrupt again (R17). -/
def Work.again (w : Work) (r : W1c) (cur ones : BitVec 64) : Bool := cur &&& ones &&& w.nowSet r != 0

/-- Raise a vector again for a bit that stays. -/
def Work.raiseAgain (w : Work) (r : W1c) (cur ones : BitVec 64) (v : Nat) : Work := if w.again r cur ones then w.raise v else w

/-! ### Error causes (R133, R146, R706) -/

/-- The cause bits of SLC_ERR_CAUSE and ADM_AQ_ERR. -/
inductive Cause where
  | completionBlocked
  | doorbellRange
  | contextKilled
  | fenced
  | overflowFull
  | enableFailed
  deriving DecidableEq, Repr

/-- The bit of a cause. -/
def Cause.bit : Cause → Nat
  | .completionBlocked => 0
  | .doorbellRange => 1
  | .contextKilled => 2
  | .fenced => 3
  | .overflowFull => 4
  | .enableFailed => 5

/-- Set a cause of slice `s` with its status; a bit that was 0 sends the error vector (R146). -/
def setCause (s : Nat) (c : Cause) (st : Status) (w : Work) : Work :=
  let was := (w.slice s).cause.getLsbD c.bit
  let w := (w.updSlice s fun x => { x with cause := setBit x.cause c.bit, lastStatus := st }).sets (.cause s) (setBit 0 c.bit)
  if was then w else w.raise (vecError s)

/-- Set a cause of the admin queue (R706). -/
def setAdminCause (c : Cause) (st : Status) (w : Work) : Work :=
  let was := w.admin.causes.getLsbD c.bit
  let w := { w with admin := { w.admin with causes := setBit w.admin.causes c.bit, lastStatus := st } }.sets .adminCause (setBit 0 c.bit)
  if was then w else w.raise (vecAdmin 1)

/-- A queue raises a cause: ERRQ of its slice, then the cause; the admin queue has no ERRQ (R706). -/
def queueCause (qk : Nat) (c : Cause) (st : Status) (w : Work) : Work :=
  match sliceOf qk with
  | some s => setCause s c st ((w.updSlice s fun x => { x with errq := setBit x.errq (qk % 64) }).sets (.errq s) (setBit 0 (qk % 64)))
  | none => setAdminCause c st w

/-- Raise a queue's pending bit; a bit that was 0 sends the completion vector, admin vector 0 for the admin queue
(R146, R706). -/
def raisePend (qk : Nat) (w : Work) : Work :=
  match sliceOf qk with
  | some s =>
    let was := (w.slice s).cqPend.getLsbD (qk % 64)
    let w := (w.updSlice s fun x => { x with cqPend := setBit x.cqPend (qk % 64) }).sets (.cqPend s) (setBit 0 (qk % 64))
    if was then w else w.raise (vecCompletion s)
  | none =>
    let was := w.admin.pend
    let w := { w with admin := { w.admin with pend := true } }.sets .adminPend 1
    if was then w else w.raise (vecAdmin 0)

/-! ### Counts -/

/-- Add to an event count of a slice (R413): 0 to 3 KILN_STARVE by cause, then NAN, INF, CLIPPED, ESC_GROUPS,
ESC_DENIED and CLIP_GUARD. -/
def countEvent (s k n : Nat) (w : Work) : Work :=
  w.updSlice s fun x => { x with counts := tblUpd 0 x.counts k fun c => c + BitVec.ofNat 64 n }

/-- The next free value of a run (R158, R182, R611): its number, and the state with the counter advanced.
[DESIGN CHOICE, log entry 54] -/
def Work.draw (w : Work) : Nat × Work := (w.fresh, { w with fresh := w.fresh + 1 })

/-- Record a domain reset in ADM_RESET_STATUS (R595). -/
def recordReset (domain index : Nat) (st : Status) (w : Work) : Work :=
  w.updCap fun c => { c with lastStatus := st, lastDomain := BitVec.ofNat 8 domain, lastIndex := BitVec.ofNat 8 index }

end Sys2Proof.Machine
end

