-- ==== Sys2Proof/Machine/Ops.lean ====
section
/-! DEFINITION. The named operations over the parts that commands share: requests on the memory port with the dirty logs
they mark (R68 to R78, R599, R600), messages to other chips (R489 to R494, R501), contexts and their records
(R154, R155, R160), and resident slots. `e` is the block as it stood when the command began: operations read its
clock, its dictionary, its view and its ports, and change the shared state `w`. -/

namespace Sys2Proof.Machine

/-! ### Time -/

/-- ADM_TIME_NS (R34). [DESIGN CHOICE, log entry 50] -/
def timeNs (e : Block) : Nat := e.clk.cycle * 1000000 / e.dct.cclkKhz

/-- Control cycles as nanoseconds (R22). [DESIGN CHOICE, log entry 50] -/
def cyclesToNs (d : Dict) (n : Nat) : Nat := n * 1000000 / d.cclkKhz

/-- Beat length in nanoseconds (R257). -/
def beatNs (e : Block) : Nat := 250 * e.clk.quarters.toNat

/-! ### Slice states -/

/-- Whether the block may issue a request with the slice's PASID (R119, R592). -/
def Slice.pasidOpen (x : Slice) : Bool := !(x.state == .off) && !(x.state == .fenced)

/-- Whether the slice is FROZEN and quiescent, so that the block issues nothing for it (R607). -/
def Slice.quiet (x : Slice) : Bool := x.state == .frozen && x.quiescent

/-- Whether slice `s` releases work (R271): ACTIVE or DRAINING. -/
def Slice.runs (x : Slice) : Bool := x.state == .active || x.state == .draining

/-! ### Dirty logs (R599 to R601) -/

/-- The units of `size` bytes that bytes `a` to `a + n - 1` touch. -/
def unitsOf (a n size : Nat) : List Nat :=
  if n = 0 then [] else (List.range ((a + n - 1) / size + 1 - a / size)).map fun i => a / size + i

/-- Mark the host log for a write of `n` bytes at `a` (R599). [DESIGN CHOICE, log entry 31] -/
def DirtyLog.markHost (l : DirtyLog) (a n : Nat) : DirtyLog :=
  if !l.on then l
  else (unitsOf a n 4096).foldl (fun (l : DirtyLog) u =>
    if l.base ≤ u * 4096 ∧ u * 4096 < l.base + l.len then
      { l with bits := tblSet false l.bits (u - l.base / 4096) true }
    else { l with outside := true }) l

/-- Mark the device log for a write of `n` bytes at local address `a` of a window at `wbase` of `wsize` bytes (R600).
[DESIGN CHOICE, log entry 31] -/
def DirtyLog.markDev (l : DirtyLog) (wbase wsize a n : Nat) : DirtyLog :=
  if !l.on then l
  else (unitsOf a n 0x200000).foldl (fun (l : DirtyLog) u =>
    if wbase ≤ u * 0x200000 ∧ u * 0x200000 < wbase + wsize then
      { l with bits := tblSet false l.bits (u - wbase / 0x200000) true }
    else l) l

/-! ### Requests -/

/-- A transfer not yet issued. -/
def newReq (op : MemOp) (dev : Bool) (addr : Nat) (len : Nat) (data : List Byte) (why : Purpose) : Req :=
  { tag := 0, op := op, dev := dev, addr := BitVec.ofNat 64 addr, pasid := 0, slice := none, owner := none, len := len,
    data := data, amo := 0, sig := none, why := why, parts := [], dead := false, answer := none }

/-- The pieces of `n` bytes at `a` that no request may join (R70), one for each 256-byte window: how many bytes come before
the piece, and its length. -/
def pieces256 (a n : Nat) : List (Nat × Nat) :=
  (List.range (max 1 ((a + n + 255) / 256 - a / 256))).map fun i =>
    let lo := max a ((a / 256 + i) * 256)
    (lo - a, min (a + n) ((a / 256 + i + 1) * 256) - lo)

/-- The requests of a transfer (R70), with tags from `tag`, held or not. -/
def Req.cut (r : Req) (tag : Nat) (held : Bool) : List Part :=
  (pieces256 r.addr.toNat r.len).mapIdx fun i p =>
    { tag := tag + i, addr := r.addr + BitVec.ofNat 64 p.1, len := p.2, off := p.1, held := held }

/-- MEMc_REQ_OP (R68). -/
def MemOp.code : MemOp → BitVec 2
  | .read => 0
  | .write => 1
  | .signalledWrite => 2
  | .amo => 3

/-- MEMc_REQ_SIG: chip, slice, fence index and value. -/
def FenceUpd.bits (u : FenceUpd) : BitVec 92 := u.chip ++ BitVec.ofNat 6 u.slice ++ BitVec.ofNat 16 u.fence ++ u.value

/-- The first byte of a request in its 256-byte window. -/
def Part.lane (p : Part) : Nat := p.addr.toNat % 256

/-- A quotient rounded up. -/
def ceilDiv (a b : Nat) : Nat := (a + b - 1) / b

/-- The 32-byte units that a request covers (R68): it begins at a unit and takes one at least.
[DESIGN CHOICE, log entry 9] -/
def Part.units (p : Part) : Nat := max 1 (ceilDiv (p.addr.toNat % 32 + p.len) 32)

/-- The byte address that a request carries: the unit it begins at, or the 8 bytes of an AMO (R75). -/
def Part.wireAddr (op : MemOp) (p : Part) : BitVec 64 :=
  if op = .amo then p.addr else BitVec.ofNat 64 (p.addr.toNat / 32 * 32)

/-- WD_DATA (R70): byte `k` of the window at place `k`. -/
def Part.wdData (p : Part) (data : List Byte) : List Byte :=
  bytesAt (List.replicate p.lane 0 ++ bytesAt data p.off p.len) 0 256

/-- WD_BE: the bytes of the window that are written. -/
def Part.wdBe (p : Part) : BitVec 256 := BitVec.ofNat 256 ((2 ^ p.len - 1) * 2 ^ p.lane)

/-- What a request puts on its channels (R68, R70): the request, and the one WD beat of one that writes. An AMO's operand
goes the same way. [DESIGN CHOICE, log entry 9] -/
def Req.wire (r : Req) (p : Part) : List Output :=
  .memReq p.tag r.op.code (!r.dev) (p.wireAddr r.op) r.pasid (BitVec.ofNat 3 (p.units - 1)) r.amo
      ((r.sig.map FenceUpd.bits).getD 0) ::
    (if r.op = .read then [] else [.memData p.tag (p.wdData r.data) p.wdBe])

/-- Send a request, where nothing holds it (R64). -/
def Fabric.sendPart (r : Req) (f : Fabric) (p : Part) : Fabric :=
  if p.held then f else (r.wire p).foldl Fabric.emit f

/-- Whether a tag is in use on its channel (R71, R78): MEMc_REQ_TAG is its low 10 bits, and a request that is not yet answered,
or that timed out and whose late response has not come, keeps it. [DESIGN CHOICE, log entry 9] -/
def Fabric.tagUsed (f : Fabric) (t : Nat) : Bool :=
  let same (u : Nat) : Bool := u % 1024 == t % 1024 && chanOfTag u == chanOfTag t
  (f.reqs.any fun r => r.parts.any fun p => p.answer.isNone && same p.tag) || f.burntTags.any same

/-- The first of `n` tags in a row from `t` on, none of which is in use. -/
def Fabric.tagsFrom (f : Fabric) (n : Nat) : Nat → Nat → Nat
  | 0, t => t
  | fuel + 1, t => if (List.range n).any fun i => f.tagUsed (t + i) then f.tagsFrom n fuel (t + 1) else t

/-- The first of the `n` tags that the next transfer takes: no tag is outstanding twice on one channel (R71).
[DESIGN CHOICE, log entry 9] -/
def Fabric.tagsFor (f : Fabric) (n : Nat) : Nat := f.tagsFrom n 49152 f.nextTag

/-- Put a transfer on the memory request port: its requests go out. -/
def Fabric.put (r : Req) (f : Fabric) : Fabric :=
  r.parts.foldl (Fabric.sendPart r) { f with reqs := f.reqs ++ [r], nextTag := r.tag + r.parts.length }

/-- Whether a request changes memory. -/
def Req.writes (r : Req) : Bool := !(r.op == .read)

/-- Mark the logs that a request touches, before it goes out (R599 to R601). -/
def markDirty (e : Block) (r : Req) (w : Work) : Work :=
  match r.owner with
  | none => w
  | some s =>
    if !r.writes then w
    else if r.dev then
      if r.addr.toNat >>> 42 = ownChip e then
        let a := r.addr.toNat % 2 ^ 42
        w.updSlice s fun x => { x with devLog := x.devLog.markDev (e.dct.devBase s) (e.dct.devSize s) a r.len }
      else w
    else w.updSlice s fun x => { x with hostLog := x.hostLog.markHost r.addr.toNat r.len }

/-- Mark the logs for a request that goes out now: not for one that FN_BME holds (R64). -/
def markSent (e : Block) (held : Bool) (r : Req) (w : Work) : Work := if held then w else markDirty e r w

/-- Mark the logs for a request of the port that goes out later than its transfer was issued: one that FN_BME held (R64), or that is
retried (R77). -/
def markPart (e : Block) (r : Req) (p : Part) (w : Work) : Work := markSent e p.held { r with addr := p.addr, len := p.len } w

/-- Put a request out for slice `s`, or for the physical function where `s` is none: a host-space request of a slice
carries its PASID (R119), and every host-space request is held while bus mastering is off (R64). -/
def issueRaw (e : Block) (s : Option Nat) (r : Req) (w : Work) : Work :=
  let pasid := match s with
    | some n => if r.dev then 0 else (w.slice n).pasid
    | none => 0
  let tag := w.fab.tagsFor (pieces256 r.addr.toNat r.len).length
  let held : Bool := !r.dev && !w.fab.bme
  let r := { r with
    tag := tag, slice := (if r.dev then none else s), owner := s, pasid := pasid, parts := r.cut tag held }
  (markSent e held r w).updFab (Fabric.put r)

/-- Whether the block may issue a request for slice `s` (R119, R592, R607). -/
def mayIssue (w : Work) (s : Option Nat) (dev : Bool) : Bool :=
  match s with
  | some n => (dev || (w.slice n).pasidOpen) && !(w.slice n).quiet
  | none => true

/-- Issue a request for slice `s`, where the block may. [DESIGN CHOICE, log entry 9] -/
def issue (e : Block) (s : Option Nat) (r : Req) (w : Work) : Work :=
  if mayIssue w s r.dev then issueRaw e s r w else w

/-- The device address of a local address on chip `c` (R69). -/
def devAddr (c a : Nat) : Nat := c * 2 ^ 42 + a % 2 ^ 42

/-- An address in a space: a local device address of this chip, or a host address. -/
def spaceAddr (e : Block) (dev : Bool) (a : Nat) : Nat := if dev then devAddr (ownChip e) a else a

/-- Read `len` bytes for slice `s` (or the physical function). -/
def readFor (e : Block) (s : Option Nat) (dev : Bool) (a len : Nat) (why : Purpose) (w : Work) : Work :=
  issue e s (newReq .read dev (spaceAddr e dev a) len [] why) w

/-- Write bytes for slice `s` (or the physical function). -/
def writeFor (e : Block) (s : Option Nat) (dev : Bool) (a : Nat) (data : List Byte) (why : Purpose) (w : Work) : Work :=
  issue e s (newReq .write dev (spaceAddr e dev a) data.length data why) w

/-- The outstanding transfer with a tag. -/
def Work.req (w : Work) (tag : Nat) : Option Req := w.fab.reqs.find? fun r => r.tag == tag

/-- Take a request out. -/
def Work.dropReq (w : Work) (tag : Nat) : Work :=
  w.updFab fun f => { f with reqs := f.reqs.filter fun r => !(r.tag == tag) }

/-- The transfer that a request of some tag belongs to, with the request. -/
def Work.part (w : Work) (tag : Nat) : Option (Req × Part) :=
  w.fab.reqs.findSome? fun r => (r.parts.find? fun p => p.tag == tag).map fun p => (r, p)

/-- Change a request of a transfer. -/
def Req.updPart (r : Req) (tag : Nat) (g : Part → Part) : Req :=
  { r with parts := r.parts.map fun p => if p.tag = tag then g p else p }

/-- Change the request with a tag. -/
def Work.updPart (w : Work) (tag : Nat) (g : Part → Part) : Work :=
  w.updFab fun f => { f with reqs := f.reqs.map fun r => r.updPart tag g }

/-- The outcome of a transfer, once every request of it is answered: the first failure in address order, or the bytes
that its requests gave. [DESIGN CHOICE, log entry 9] -/
def Req.outcome (r : Req) : Option (Status × List Byte) :=
  if r.parts.all fun p => p.answer.isSome then
    let answers := r.parts.filterMap Part.answer
    match answers.find? fun a => a.1 != St.ok with
    | some a => some (a.1, [])
    | none => some (St.ok, answers.flatMap Prod.snd)
  else none

/-- Whether a request has not been put on a channel: it waits for FN_BME, or for its page request to be sent (R64, R77). -/
def Fabric.unsent (f : Fabric) (p : Part) : Bool :=
  p.answer.isNone && (p.held || (p.paging && !f.groups.any fun g => g.tag == p.tag))

/-- Whether a request is still to go out, for the first time or again after its page request (R64, R77). -/
def Part.waits (p : Part) : Bool := p.answer.isNone && (p.held || p.paging)

/-- A request that is never sent counts as answered. -/
def Part.abandon (p : Part) : Part := { p with held := false, paging := false, answer := some (St.pasidRevoked, []) }

/-- What a slice has not sent is never sent, and what waits for a page request is not sent again (R119, R592): such a request
counts as answered, and a transfer all of whose requests are answered is gone. The group of a page request that has been sent
stays until its response (R593). -/
def Fabric.dropUnsent (s : Nat) (f : Fabric) : Fabric :=
  let drop (r : Req) : Option Req :=
    if r.slice = some s ∧ r.parts.any Part.waits then
      let r' := { r with parts := r.parts.map fun p => (if p.waits then p.abandon else p) }
      if r'.outcome.isSome then none else some r'
    else some r
  { f with reqs := f.reqs.filterMap drop }

/-- Change the transfer with a tag. -/
def Work.updReq (w : Work) (tag : Nat) (g : Req → Req) : Work :=
  w.updFab fun f => { f with reqs := f.reqs.map fun r => if r.tag = tag then g r else r }

/-- The command whose work a request is, where it is one command's. -/
def Purpose.cmd : Purpose → Option Nat
  | .queueDesc id => some id
  | .packet id => some id
  | .patchList id => some id
  | .advanceList id => some id
  | .chainNext id => some id
  | .chainSkip id => some id
  | .createWrite id => some id
  | .mapWrite id => some id
  | .mirrorWrite id => some id
  | .header _ id => some id
  | .queryWrite id => some id
  | .queryRead id => some id
  | .copyRead id => some id
  | .copyWrite id _ => some id
  | .imageWrite id => some id
  | .mapWord id => some id
  | .imageRead id => some id
  | .restoreWrite id => some id
  | _ => none

/-- Requests whose answers no one takes any more: one that is answered is gone, the answer of another is discarded. -/
def Fabric.orphan (sel : Purpose → Bool) (f : Fabric) : Fabric :=
  { f with reqs := f.reqs.filterMap fun r =>
      if sel r.why then (if r.answer.isSome then none else some { r with dead := true }) else some r }

/-- Whether a request saves or loads slot `k`. -/
def Purpose.ofSlot (k : Nat) : Purpose → Bool
  | .slotSave j => j == k
  | .slotRecord j => j == k
  | .slotArea j => j == k
  | _ => false

/-- The requests of a command that are not yet answered. -/
def Work.reqsOf (w : Work) (id : Nat) : List Req :=
  w.fab.reqs.filter fun r => r.why.cmd == some id && r.answer.isNone && !r.dead

/-- The slice whose fences, watches or contexts something that waits for the end of the cycle changes. -/
def Late.slice : Late → Option Nat
  | .mark s _ _ _ => some s
  | .markAll s _ => some s
  | .resolve s _ => some s
  | .dropWatches s _ _ => some s
  | .teardown s _ => some s
  | _ => none

/-- Something waits for the end of the control cycle. -/
def Work.later (w : Work) (x : Late) : Work := { w with late := w.late ++ [x] }

/-- What was left for the end of the control cycle does not come to pass. [DESIGN CHOICE, log entry 5] -/
def withdrawLate (x : Late) (w : Work) : Work := { w with late := w.late.filter fun y => y != x }

/-! ### Messages to other chips (R489 to R494, R500, R501) -/

/-- A message of this chip to chip `d`: `payload` holds bytes 8 to 31. -/
def mkMsg (e : Block) (typ : BitVec 8) (d slice : Nat) (payload : List Byte) : Msg :=
  { typ := typ, bcast := false, dest := BitVec.ofNat 6 d, src := BitVec.ofNat 6 e.dct.chipNum, hops := 0,
    slice := BitVec.ofNat 6 slice, bseq := 0, payload := bytesAt payload 0 24 }

/-- Count a message dropped at output port `p` (R501, R513). -/
def MsgQueues.dropAt (m : MsgQueues) (p : Nat) : MsgQueues := { m with drops := tblUpd 0 m.drops p satInc }

/-- Hand a message created here to its route (R491, R492, R501); one for this chip is delivered here (R491). A SLEEP port queues
it (R507). A FENCE takes a credit, or waits for one (R500). No port is named for a FENCE without a route: the port in whose DROPS
it counts is free. [DESIGN CHOICE, log entry 20] -/
def sendMsg (e : Block) (m : Msg) (w : Work) : Work :=
  if m.dest.toNat = e.dct.chipNum then { w with msgs := { w.msgs with inbox := w.msgs.inbox ++ [(6, 0, m)] } }
  else match routeTo e m.dest.toNat with
  | none =>
    if m.typ = 0x10 then { w with msgs := w.msgs.dropAt (Config.freePort w.fresh m.dest.toNat % 6) }
    else { w with msgs := { w.msgs with rxDrop := w.msgs.rxDrop + 1 } }
  | some p =>
    if portUp e p || (tblGet {} e.lnk.ports p).state == .sleep then
      let free : Bool := decide (tblGet 0 w.msgs.credits p < e.dct.localCredits)
      let credits := if m.typ = 0x10 ∧ free then tblUpd 0 w.msgs.credits p (· + 1) else w.msgs.credits
      let q : Queued := { port := p, transit := false, msg := m, owed := m.typ == 0x10 && !free }
      { w with msgs := { w.msgs with out := w.msgs.out ++ [q], credits := credits } }
    else if m.typ = 0x10 then { w with msgs := w.msgs.dropAt p }
    else { w with msgs := { w.msgs with rxDrop := w.msgs.rxDrop + 1 } }

/-- Give back credits, one for each Tenon port listed (R288, R500). -/
def returnCredits (ps : List Nat) (w : Work) : Work :=
  { w with msgs := { w.msgs with credits := ps.foldl (fun m p => tblUpd 0 m p (· - 1)) w.msgs.credits } }

/-- Broadcast a message on every UP port (R493). -/
def sendBcast (e : Block) (typ : BitVec 8) (payload : List Byte) (w : Work) : Work :=
  let m := { mkMsg e typ 0 0 payload with bcast := true, bseq := w.msgs.bcastSeq }
  let out := ((List.range 6).filter fun p => portUp e p).map fun p => { port := p, transit := false, msg := m : Queued }
  { w with msgs := { w.msgs with out := w.msgs.out ++ out, bcastSeq := w.msgs.bcastSeq + 1 } }

/-- A NOTICE (R490): KIND, SUBJECT and REASON. -/
def sendNotice (e : Block) (kind subject : Nat) (reason : Status) (w : Work) : Work :=
  sendBcast e 0x02 (leBytes 1 kind ++ leBytes 1 subject ++ leBytes 2 reason.toNat ++ leBytes 4 0 ++
    leBytes 8 e.clk.beat.toNat) w

/-- A FENCE message for slice `s` of chip `d` (R490): a signal of `v`, or an error mark with status and target. -/
def sendFence (e : Block) (d s fence : Nat) (err : Option Status) (v : BitVec 64) (w : Work) : Work :=
  sendMsg e (mkMsg e 0x10 d s (leBytes 2 fence ++ leBytes 1 (if err.isSome then 1 else 0) ++ leBytes 1 0 ++
    leBytes 2 ((err.getD 0).toNat) ++ leBytes 2 0 ++ leBytes 8 v.toNat)) w

/-- A WATCH_NOTIFY to chip `d` (R490). -/
def sendWatchNotify (e : Block) (d s wid : Nat) (st : Status) (v : BitVec 64) (w : Work) : Work :=
  sendMsg e (mkMsg e 0x12 d s (leBytes 2 wid ++ leBytes 2 st.toNat ++ leBytes 4 0 ++ leBytes 8 v.toNat ++
    leBytes 8 e.clk.beat.toNat)) w

/-- A WATCH_DROP to chip `d` (R490). -/
def sendWatchDrop (e : Block) (d s wid : Nat) (st : Status) (w : Work) : Work :=
  sendMsg e (mkMsg e 0x13 d s (leBytes 2 wid ++ leBytes 2 st.toNat)) w

/-! ### Contexts and resident slots -/

/-- Context `c` of slice `s`. -/
def Work.ctx (w : Work) (s c : Nat) : Ctx := tblGet {} (w.slice s).ctxs c

/-- Change context `c` of slice `s`. -/
def Work.updCtx (w : Work) (s c : Nat) (f : Ctx → Ctx) : Work :=
  w.updSlice s fun x => { x with ctxs := tblUpd {} x.ctxs c f }

/-- Slot `k`. -/
def Work.slot (w : Work) (k : Nat) : Slot := tblGet {} w.slots k

/-- Change slot `k`. -/
def Work.updSlot (w : Work) (k : Nat) (f : Slot → Slot) : Work := { w with slots := tblUpd {} w.slots k f }

/-- The slot that holds a context, in any state (R277). -/
def Work.slotOf (w : Work) (s c : Nat) : Option Nat :=
  (w.slots.find? fun p => !(p.2.state == .free) && p.2.slice == s && p.2.ctx == c).map Prod.fst

/-- The slot in which a context is resident: not FREE, SAVING or LOADING (R277). -/
def Work.residentSlot (w : Work) (s c : Nat) : Option Nat :=
  (w.slots.find? fun p => p.2.slice == s && p.2.ctx == c &&
    (p.2.state == .runnable || p.2.state == .blocked || p.2.state == .idle)).map Prod.fst

/-- The slot in which a context is resident, its load, and local counter `i` (R318). -/
def Work.counterAt (w : Work) (s c i : Nat) : Option (Nat × Nat × BitVec 32) :=
  (w.residentSlot s c).map fun k => (k, (w.slot k).load, tblGet 0 (w.slot k).counters i)

/-- Whether a context is resident. -/
def Work.isResident (w : Work) (s c : Nat) : Bool := (w.residentSlot s c).isSome

/-- Bytes 0 to 31 of a context record (R154). -/
def ctxValues (x : Ctx) : List Byte :=
  leBytes 8 x.engineNs.toNat ++ leBytes 8 x.planerBytes.toNat ++ leBytes 8 x.memBytes.toNat ++ leBytes 8 x.updateBeat.toNat

/-- The address of a context's record (R153). -/
def ctxAddr (w : Work) (s c : Nat) : Nat := (w.slice s).ctxBase.toNat * 4096 + c * 64

/-- The address of a context's save area (R153). -/
def saveAddr (w : Work) (s c : Nat) : Nat := (w.slice s).saveBase.toNat * 4096 + c * 4096

/-- Write bytes 0 to 31 of a context record, with UPDATE_BEAT (R155). -/
def writeCtxValues (e : Block) (s c : Nat) (w : Work) : Work :=
  let w := w.updCtx s c fun x => { x with updateBeat := e.clk.beat }
  writeFor e (some s) false (ctxAddr w s c) (ctxValues (w.ctx s c)) (.ctxRecord s c) w

/-- BLOCK_FLAGS of a context (R154). -/
def Ctx.flags (x : Ctx) : Nat := (if x.saved then 1 else 0) + (if x.killed then 2 else 0)

/-- Write BLOCK_FLAGS of a context record (R154). -/
def writeCtxFlags (e : Block) (s c : Nat) (w : Work) : Work :=
  writeFor e (some s) false (ctxAddr w s c + 33) (leBytes 1 (w.ctx s c).flags) (.ctxRecord s c) w

/-- Write BLOCK_FLAGS and LAST_STATUS of a context record: the block sets LAST_STATUS at a teardown alone (R154, R160). -/
def writeCtxEnd (e : Block) (s c : Nat) (w : Work) : Work :=
  writeFor e (some s) false (ctxAddr w s c + 33) (leBytes 1 (w.ctx s c).flags ++ leBytes 2 (w.ctx s c).last.toNat)
    (.ctxRecord s c) w

/-- Add to a context's MEM_BYTES (R154), modulo 2^64. -/
def chargeMem (s c : Nat) (n : Int) (w : Work) : Work :=
  w.updCtx s c fun x => { x with memBytes := x.memBytes + BitVec.ofInt 64 n }

/-- Empty slot `k` (R159): its local counters are cleared with the context, and the context's wait for a slot begins (R278). The
answer to a save or a load that was under way is for no later one. -/
def freeSlot (k : Nat) (w : Work) : Work :=
  let x := w.slot k
  let w := if x.state == .saving || x.state == .loading then w.updFab (Fabric.orphan (Purpose.ofSlot k)) else w
  let w := if x.state == .free then w
    else { w.updCtx x.slice x.ctx fun c => { c with leftAt := w.nextOrder } with nextOrder := w.nextOrder + 1 }
  w.updSlot k fun x => { next := x.next }

/-! ### Rate limits (R265 to R267) -/

/-- The floor of a level (R265). -/
def levelFloor (limit burst : Nat) : Int := -((limit * (1 + burst) : Nat) : Int)

/-- Charge a level: a limit of 0 has no level; a charge beyond the floor is dropped (R265). -/
def chargeLevel (limit burst : Nat) (lvl : Int) (n : Nat) : Int :=
  if limit = 0 then lvl else max (lvl - (n : Int)) (min lvl (levelFloor limit burst))

/-- Charge one released command (R266). -/
def chargeCmd (e : Block) (s : Nat) (w : Work) : Work :=
  w.updSlice s fun x => { x with lvlCmd := chargeLevel (e.dct.cmdLimit s) (e.dct.burstBeats s) x.lvlCmd 1 }

/-- Charge Planer bytes to a slice's level and to a context's PLANER_BYTES (R154, R266). -/
def chargePlaner (e : Block) (s c n : Nat) (w : Work) : Work :=
  let w := w.updSlice s fun x => { x with lvlPlaner := chargeLevel (e.dct.planerLimit s) (e.dct.burstBeats s) x.lvlPlaner n }
  w.updCtx s c fun x => { x with planerBytes := x.planerBytes + BitVec.ofNat 64 n }

/-- Charge memory bytes to a slice's level (R266). -/
def chargeBytes (e : Block) (s n : Nat) (w : Work) : Work :=
  w.updSlice s fun x => { x with lvlMem := chargeLevel (e.dct.memLimit s) (e.dct.burstBeats s) x.lvlMem n }

/-- Whether a level holds work back (R267). -/
def levelShut (limit : Nat) (lvl : Int) : Bool := limit != 0 && decide (lvl ≤ 0)

end Sys2Proof.Machine
end

