-- ==== Sys2Proof/Machine/Operands.lean ====
section
/-! DEFINITION. The operand forms of commands: the header and the bodies of R161 to R203 and of the other chapters, the
checks 1 to 3 of R173 over them, the handles they name, and the checks 4, 5 and 7 (R173, R180, R231, R248, R358, R373,
R387, R405, R420). Checks 1 to 3 end in the one status BAD_COMMAND, so they are one test. -/

namespace Sys2Proof.Machine

/-! ### The header (R163) -/

/-- OPCODE. -/
def cOpcode (b : List Byte) : Nat := fieldAt b 0 1
/-- EXT_COUNT. -/
def cExt (b : List Byte) : Nat := bitsOf (fieldAt b 1 1) 1 0
/-- CHAIN. -/
def cChain (b : List Byte) : Bool := (fieldAt b 1 1).testBit 2
/-- WAIT. -/
def cWait (b : List Byte) : Bool := (fieldAt b 1 1).testBit 3
/-- SIGNAL. -/
def cSignal (b : List Byte) : Bool := (fieldAt b 1 1).testBit 4
/-- QUIET. -/
def cQuiet (b : List Byte) : Bool := (fieldAt b 1 1).testBit 5
/-- SIGNAL_FENCE. -/
def cSigFence (b : List Byte) : Nat := fieldAt b 2 2
/-- WAIT_FENCE. -/
def cWaitFence (b : List Byte) : Nat := fieldAt b 4 2
/-- TIMEOUT_BEATS. -/
def cTimeout (b : List Byte) : Nat := fieldAt b 6 2
/-- SIGNAL_VALUE. -/
def cSigValue (b : List Byte) : BitVec 64 := BitVec.ofNat 64 (fieldAt b 8 8)
/-- WAIT_VALUE. -/
def cWaitValue (b : List Byte) : BitVec 64 := BitVec.ofNat 64 (fieldAt b 16 8)
/-- CHAIN_PTR. -/
def cChainPtr (b : List Byte) : Nat := fieldAt b 56 8

/-- The opcodes of R176. -/
inductive Op where
  | nop
  | exec
  | copy
  | fill
  | tidy
  | semAcquire
  | semRelease
  | counterOp
  | watchAdd
  | watchCancel
  | barrierArrive
  | graph
  | graphLoad
  | relaunch
  | graphUnload
  | objCreate
  | objFree
  | streamCreate
  | streamAdvance
  | streamMap
  | queueCreate
  | queueDestroy
  | ctxLoad
  | ctxEvict
  | query
  | sliceFreeze
  | sliceResume
  | sliceSave
  | sliceRestore
  | dirtyLog
  | captureSet
  | domainReset
  | pasidRevoke
  deriving DecidableEq, Repr

/-- The opcode table of R176. -/
def opTable : List (Nat × Op) := [
  (0x00, .nop), (0x01, .exec), (0x02, .copy), (0x03, .fill), (0x04, .tidy),
  (0x10, .semAcquire), (0x11, .semRelease), (0x12, .counterOp), (0x13, .watchAdd), (0x14, .watchCancel),
  (0x18, .barrierArrive),
  (0x20, .graph), (0x21, .graphLoad), (0x22, .relaunch), (0x23, .graphUnload),
  (0x30, .objCreate), (0x31, .objFree), (0x32, .streamCreate), (0x33, .streamAdvance), (0x34, .streamMap),
  (0x40, .queueCreate), (0x41, .queueDestroy), (0x42, .ctxLoad), (0x43, .ctxEvict), (0x44, .query),
  (0x80, .sliceFreeze), (0x81, .sliceResume), (0x82, .sliceSave), (0x83, .sliceRestore), (0x84, .dirtyLog),
  (0x88, .captureSet), (0x89, .domainReset), (0x8A, .pasidRevoke)]

/-- The opcode of a number, none where R176 does not list it. -/
def opOf (n : Nat) : Option Op := (opTable.find? fun p => p.1 == n).map Prod.snd

/-- The opcode of a command. -/
def cOp (b : List Byte) : Option Op := opOf (cOpcode b)

/-! ### Where a command stands (R169, R170, R216, R217) -/

/-- Where a command was found: its slice (none on the admin queue), its queue's class, and whether it is a node. -/
structure Place where
  slice : Option Nat
  cls : Nat
  node : Bool
  deriving DecidableEq, Repr

/-- Opcodes that any queue of a slice accepts (R169). -/
def Op.anyClass : Op → Bool
  | .nop | .semAcquire | .semRelease | .counterOp => true
  | _ => false

/-- Opcodes of the CONTROL class alone. -/
def Op.control : Op → Bool
  | .watchAdd | .watchCancel | .barrierArrive | .graph | .graphLoad | .relaunch | .graphUnload | .objCreate | .objFree
  | .streamCreate | .streamAdvance | .streamMap | .queueCreate | .queueDestroy | .ctxLoad | .ctxEvict | .query => true
  | _ => false

/-- Opcodes of the admin queue (R217). -/
def Op.admin : Op → Bool
  | .sliceFreeze | .sliceResume | .sliceSave | .sliceRestore | .dirtyLog | .captureSet | .domainReset | .pasidRevoke
  | .query | .queueCreate | .queueDestroy | .nop => true
  | _ => false

/-- Opcodes allowed in a graph (R176). -/
def Op.inGraph : Op → Bool
  | .nop | .exec | .copy | .fill | .tidy | .semAcquire | .semRelease | .counterOp | .watchAdd | .watchCancel
  | .barrierArrive | .objCreate | .objFree | .streamCreate | .streamAdvance | .streamMap => true
  | _ => false

/-- Check 2 of R173. -/
def Place.accepts (p : Place) (o : Op) : Bool :=
  if p.node then o.inGraph
  else match p.slice with
    | none => o.admin
    | some _ =>
      o.anyClass || (p.cls == 0 && o.control) || (p.cls == 1 && o == .exec) ||
        (p.cls == 2 && (o == .copy || o == .fill)) || (p.cls == 3 && o == .tidy)

/-- The class of an opcode's engine, for the successor rule of R205 and the hand-over of R171: 1 the matrix fetchers, 2
the copy engine, 3 the joiner fetchers, 0 the front end. -/
def Op.engine : Op → Nat
  | .exec => 1
  | .copy | .fill => 2
  | .tidy => 3
  | _ => 0

/-! ### Reserved bytes (R14) -/

/-- Whether `n` bytes from `off` are zero. -/
def zeros (b : List Byte) (off n : Nat) : Bool := (bytesAt b off n).all (· == 0)

/-- Whether every byte from `lo` to `hi - 1` outside the named spans is zero. -/
def onlyNamed (b : List Byte) (lo hi : Nat) (named : List (Nat × Nat)) : Bool :=
  ((List.range (hi - lo)).map (lo + ·)).all fun i =>
    named.any (fun p => p.1 ≤ i && i < p.1 + p.2) || b.getD i 0 == 0

/-- A well-formed pointer (R168): reserved bits zero; a device address is local. -/
def ptrOk (v : Nat) : Bool := bitsOf v 5 1 == 0 && (v % 2 == 0 || bitsOf v 63 42 == 0)

/-- The space of a pointer: device memory. -/
def ptrDev (v : Nat) : Bool := v.testBit 0

/-- The address of a pointer. -/
def ptrAddr (v : Nat) : Nat := v / 64 * 64

/-- The header's reserved fields and pointer (R163, R164, R168). -/
def headerOk (b : List Byte) : Bool :=
  bitsOf (fieldAt b 1 1) 7 6 == 0 &&
  (cWait b || (zeros b 4 2 && zeros b 16 8)) &&
  (cSignal b || (zeros b 2 2 && zeros b 8 8)) &&
  (if cChain b then ptrOk (cChainPtr b) else zeros b 56 8)

/-! ### Bodies -/

/-- The EXT_COUNT that a command's opcode requires (R176, R177, R200, R229, R243, R249, R596). -/
def extOk (o : Op) (b : List Byte) : Bool :=
  let x := cExt b
  match o with
  | .exec => x == 1 || x == 2
  | .relaunch =>
    if fieldAt b 32 8 = 0 then (fieldAt b 26 2 > 8) || x == ceilDiv (fieldAt b 26 2) 4 else x == 0
  | .objCreate =>
    let f := fieldAt b 48 1
    x == (if f == 3 || f == 4 || (fieldAt b 49 1).testBit 0 then 1 else 0)
  | .streamCreate =>
    let f := fieldAt b 48 1
    x == (if f == 3 || f == 4 then 1 else 0)
  | .streamMap => (fieldAt b 32 2 > 16) || x == ceilDiv (fieldAt b 32 2) 8
  | .dirtyLog => x == (if fieldAt b 24 1 = 1 then 1 else 0)
  | _ => x == 0

/-- One EXEC operand slot. -/
structure Slot16 where
  handle : Nat
  offset : Nat
  elems : Nat
  rot : Nat
  rotSize : Nat
  reserved : Nat
  stride : Nat
  deriving DecidableEq, Repr

/-- Operand slot `k` of an EXEC (R177): a slot of an extension that is not present is unused. -/
def execSlot (b : List Byte) (k : Nat) : Slot16 :=
  let off := 64 + 64 * (k / 4) + 16 * (k % 4)
  let w := fieldAt b (off + 8) 4
  { handle := fieldAt b off 4, offset := fieldAt b (off + 4) 4, elems := bitsOf w 23 0, rot := bitsOf w 25 24,
    rotSize := bitsOf w 27 26, reserved := bitsOf w 31 28, stride := fieldAt b (off + 12) 4 }

/-- The used slots of an EXEC, with their numbers. -/
def execSlots (b : List Byte) : List (Nat × Slot16) :=
  ((List.range 8).map fun k => (k, execSlot b k)).filter fun p => p.2.elems != 0

/-- TILE_COUNT. -/
def tileCount (b : List Byte) : Nat := fieldAt b 52 2
/-- RESULT_KIB. -/
def resultKib (b : List Byte) : Nat := fieldAt b 54 2
/-- RESULT_HANDLE. -/
def resultHandle (b : List Byte) : Nat := fieldAt b 40 4
/-- RESULT_OFFSET. -/
def resultOffset (b : List Byte) : Nat := fieldAt b 44 4
/-- RESULT_STRIDE. -/
def resultStride (b : List Byte) : Nat := fieldAt b 48 4

/-- The EXEC body (R177, R178). -/
def execOk (b : List Byte) : Bool :=
  tileCount b ≥ 1 && resultKib b ≥ 1 && !(execSlots b).isEmpty &&
  (List.range 8).all fun k =>
    let s := execSlot b k
    s.reserved == 0 && (s.elems != 0 || s == { handle := 0, offset := 0, elems := 0, rot := 0, rotSize := 0, reserved := 0, stride := 0 })

/-- A positive, finite FP32 scale (R229). -/
def scaleOk (v : Nat) : Bool := v < 0x7F800000 && v != 0

/-- A finite BF16 value (R358). -/
def bf16Finite (v : Nat) : Bool := bitsOf v 14 7 != 0xFF

/-- The entries of a codebook field: eight for C3L, four for C2L. -/
def codebookOf (b : List Byte) (fmt : Nat) : List (BitVec 16) :=
  (List.range (if fmt = 3 then 8 else if fmt = 4 then 4 else 0)).map fun i => BitVec.ofNat 16 (fieldAt b (64 + 2 * i) 2)

/-- FORMAT, CLASS and ROT_SIZE against R230. -/
def formatOk (fmt cls rot : Nat) (comp : Bool) : Bool :=
  fmt ≤ 7 && cls ≤ 2 && rot ≤ 2 && (cls == 1 || rot == 0) &&
  (if fmt == 0 || fmt ≥ 6 then cls == 0 && !comp else cls != 0)

/-- The extension of OBJ_CREATE and STREAM_CREATE (R229). -/
def objExtOk (b : List Byte) (fmt : Nat) (comp : Bool) : Bool :=
  cExt b == 0 ||
  (onlyNamed b 64 128 ((if fmt = 3 then [(64, 16)] else if fmt = 4 then [(64, 8)] else []) ++ (if comp then [(80, 8)] else [])) &&
   (codebookOf b fmt).all (fun v => bf16Finite v.toNat) &&
   (!comp || (fieldAt b 80 8 != 0 && fieldAt b 80 8 % 4096 == 0)))

/-- The body of OBJ_CREATE (R229, R230). -/
def objCreateOk (b : List Byte) : Bool :=
  let fl := fieldAt b 49 1
  let fmt := fieldAt b 48 1
  let comp := fl.testBit 0
  ptrOk (fieldAt b 24 8) && bitsOf (fieldAt b 24 8) 7 6 == 0 &&
  fieldAt b 32 8 % 256 == 0 && 256 ≤ fieldAt b 32 8 && fieldAt b 32 8 ≤ 2 ^ 40 &&
  ptrOk (fieldAt b 40 8) && fieldAt b 40 8 != 0 &&
  bitsOf fl 7 5 == 0 && formatOk fmt (bitsOf fl 2 1) (bitsOf fl 4 3) comp &&
  !(fieldAt b 50 1).testBit 6 && zeros b 51 1 && scaleOk (fieldAt b 52 4) && objExtOk b fmt comp

/-- The body of STREAM_CREATE (R243). -/
def streamCreateOk (b : List Byte) : Bool :=
  let fl := fieldAt b 49 1
  let fmt := fieldAt b 48 1
  ptrOk (fieldAt b 24 8) && bitsOf (fieldAt b 24 8) 7 6 == 0 && ptrDev (fieldAt b 24 8) &&
  fieldAt b 32 8 % 256 == 0 && 256 ≤ fieldAt b 32 8 && fieldAt b 32 8 ≤ 1048576 &&
  ptrOk (fieldAt b 40 8) && fieldAt b 40 8 != 0 &&
  1 ≤ fmt && fmt ≤ 5 && bitsOf fl 7 5 == 0 && !fl.testBit 0 && formatOk fmt (bitsOf fl 2 1) (bitsOf fl 4 3) false &&
  fieldAt b 50 1 ≤ 12 && zeros b 51 1 && scaleOk (fieldAt b 52 4) && objExtOk b fmt false

/-- A page entry of STREAM_MAP (R246, R249). -/
def pageEntryOk (v : Nat) : Bool := bitsOf v 63 42 == 0 && bitsOf v 15 1 == 0 && v.testBit 0

/-- The body of STREAM_MAP (R249). -/
def streamMapOk (b : List Byte) : Bool :=
  fieldAt b 32 2 ≤ 16 && onlyNamed b 24 56 [(24, 10)] &&
  ((List.range (fieldAt b 32 2)).all fun i => pageEntryOk (fieldAt b (64 + 8 * i) 8)) &&
  zeros b (64 + 8 * fieldAt b 32 2) (64 * cExt b - 8 * fieldAt b 32 2)

/-- The body of STREAM_ADVANCE (R253). -/
def streamAdvanceOk (b : List Byte) : Bool :=
  onlyNamed b 24 56 [(24, 10), (40, 8)] && ptrOk (fieldAt b 40 8) &&
  (if fieldAt b 40 8 = 0 then fieldAt b 32 2 == 0 && 1 ≤ fieldAt b 28 4 && fieldAt b 28 4 ≤ 2 ^ 31
   else zeros b 24 8 && 1 ≤ fieldAt b 32 2 && fieldAt b 32 2 ≤ 4096)

/-- The body of RELAUNCH (R183, R200): inline slots beyond PATCH_COUNT are zero. -/
def relaunchOk (b : List Byte) : Bool :=
  let n := fieldAt b 26 2
  onlyNamed b 24 56 [(24, 1), (26, 2), (32, 8)] && fieldAt b 24 1 ≤ 63 && ptrOk (fieldAt b 32 8) &&
  (if fieldAt b 32 8 = 0 then n ≤ 8 && zeros b (64 + 16 * n) (64 * cExt b - 16 * n) else n ≤ 1024)

/-- The body of TIDY (R419). -/
def tidyOk (b : List Byte) : Bool :=
  let pages := fieldAt b 40 1
  onlyNamed b 24 56 [(24, 18), (48, 8)] && fieldAt b 28 4 % 64 == 0 &&
  2 ≤ pages && pages ≤ 44 && fieldAt b 32 4 % 64 == 0 && 64 ≤ fieldAt b 32 4 && fieldAt b 32 4 + 4096 ≤ pages * 4096 &&
  fieldAt b 36 4 % 2 == 0 && fieldAt b 36 4 < fieldAt b 32 4 && bitsOf (fieldAt b 41 1) 7 1 == 0

/-- The body of COUNTER_OP against the semaphore pool (R318). -/
def counterOpOk (sems : Nat) (b : List Byte) : Bool :=
  onlyNamed b 24 56 [(24, 8)] && fieldAt b 26 1 ≤ 1 && fieldAt b 27 1 ≤ 3 &&
  (if fieldAt b 26 1 = 0 then fieldAt b 24 2 < 64 else fieldAt b 24 2 < sems && fieldAt b 27 1 != 3)

/-- The body of WATCH_ADD against the fence pool (R324). The fence of a REMOTE watch is one of another chip's pool. -/
def watchAddOk (fences : Nat) (b : List Byte) : Bool :=
  let kind := fieldAt b 26 1
  let fl := fieldAt b 27 1
  let remote := fl.testBit 1
  onlyNamed b 24 56 [(24, 5), (30, 24)] && kind ≤ 1 && bitsOf fl 7 2 == 0 && !(kind == 1 && remote) &&
  (remote || fieldAt b 24 2 < fences) && fieldAt b 28 1 ≤ 63 &&
  (kind == 1 || remote || zeros b 28 1) && (kind == 1 || zeros b 30 2) && (kind == 0 || zeros b 32 8) &&
  ptrOk (fieldAt b 40 8) && (kind == 1 || fieldAt b 40 8 != 0) && fieldAt b 52 2 ≤ 1023

/-- The body of DIRTY_LOG against the device window (R596, R597). -/
def dirtyLogOk (d : Dict) (b : List Byte) : Bool :=
  let op := fieldAt b 24 1
  let which := fieldAt b 26 1
  let host := which.testBit 0
  let dev := which.testBit 1
  let s := fieldAt b 25 1
  let m2 := 0x200000
  let v1 := fieldAt b 32 8
  let v2 := fieldAt b 40 8
  let v3 := fieldAt b 48 8
  let x := fieldAt b 64 8
  onlyNamed b 24 56 [(24, 3), (32, 24)] && 1 ≤ op && op ≤ 3 && s ≤ 63 && 1 ≤ which && which ≤ 3 &&
  (match op with
   | 1 =>
     onlyNamed b 64 128 [(64, 8)] &&
     (if host then v1 % m2 == 0 && v2 % m2 == 0 && m2 ≤ v2 && v2 ≤ 2 ^ 42 && v3 % 64 == 0 && bitsOf v3 63 42 == 0
      else v1 == 0 && v2 == 0 && v3 == 0) &&
     (if dev then x % 64 == 0 && bitsOf x 63 42 == 0 && d.devBase s % m2 == 0 && d.devSize s % m2 == 0 else x == 0)
   | 2 =>
     (if host then ptrOk v1 && !ptrDev v1 else v1 == 0) && (if dev then ptrOk v2 && !ptrDev v2 else v2 == 0) && v3 == 0
   | _ => v1 == 0 && v2 == 0 && v3 == 0)

/-- The range of INDEX of a reset domain (R569). -/
def domainCount : Nat → Nat
  | 1 => 16
  | 4 => 6
  | 5 => 64
  | 2 => 1
  | 3 => 1
  | 6 => 1
  | 7 => 1
  | _ => 0

/-- The body of DOMAIN_RESET (R571). -/
def domainResetOk (b : List Byte) : Bool :=
  let dom := fieldAt b 24 1
  onlyNamed b 24 56 [(24, 4)] && fieldAt b 25 1 < domainCount dom &&
  (if dom = 1 then 1 ≤ fieldAt b 26 1 && fieldAt b 26 1 ≤ 3 else fieldAt b 26 1 == 0) && bitsOf (fieldAt b 27 1) 7 1 == 0

/-- The slice that a command acts on where its body names one (byte `off`): its own on a slice queue, the named one on
the admin queue (R185, R186). -/
def targetSlice (p : Option Nat) (b : List Byte) (off : Nat) : Nat :=
  match p with
  | some s => s
  | none => bitsOf (fieldAt b off 1) 5 0

/-- CONTEXT of a body (R183): 12 bits, below 2^CTX_LOG2 of a slice. -/
def contextOk (b : List Byte) (x : Slice) : Bool := fieldAt b 24 2 < 2 ^ 12 && fieldAt b 24 2 < 2 ^ x.ctxLog2.toNat

/-- Checks 1 and 3 of R173 over the body of an opcode. -/
def bodyOk (e : Block) (w : Work) (p : Place) (o : Op) (b : List Byte) : Bool :=
  let x := match p.slice with
    | some s => w.slice s
    | none => {}
  let sliceByte := p.slice.isNone || zeros b 26 1
  match o with
  | .nop => zeros b 24 32
  | .exec => execOk b
  | .copy => 1 ≤ fieldAt b 48 8 && fieldAt b 48 8 ≤ 2 ^ 40
  | .fill => zeros b 28 4 && 1 ≤ fieldAt b 40 8 && fieldAt b 40 8 ≤ 2 ^ 40
  | .tidy => tidyOk b
  | .semAcquire | .semRelease =>
    onlyNamed b 24 56 [(24, 2), (28, 4)] && fieldAt b 24 2 < x.semCount && fieldAt b 28 4 != 0
  | .counterOp => counterOpOk x.semCount b
  | .watchAdd => watchAddOk x.fenceCount b
  | .watchCancel => onlyNamed b 24 56 [(52, 2)] && fieldAt b 52 2 ≤ 1023
  | .barrierArrive =>
    onlyNamed b 24 56 [(24, 1), (26, 2), (32, 8)] && 1 ≤ fieldAt b 26 2 && fieldAt b 26 2 ≤ 1024 &&
    1 ≤ fieldAt b 32 8 && fieldAt b 32 8 ≤ 2 ^ 64 - 2
  | .graph => onlyNamed b 24 56 [(24, 8)] && ptrOk (fieldAt b 24 8)
  | .graphLoad => onlyNamed b 24 56 [(24, 9)] && ptrOk (fieldAt b 24 8) && fieldAt b 32 1 ≤ 63
  | .relaunch => relaunchOk b
  | .graphUnload => onlyNamed b 24 56 [(24, 1)] && fieldAt b 24 1 ≤ 63
  | .objCreate => objCreateOk b
  | .objFree => onlyNamed b 24 56 [(24, 4)]
  | .streamCreate => streamCreateOk b
  | .streamAdvance => streamAdvanceOk b
  | .streamMap => streamMapOk b
  | .queueCreate =>
    onlyNamed b 24 56 [(24, 1), (26, 1), (32, 8)] && fieldAt b 24 1 ≤ 63 && fieldAt b 26 1 ≤ 63 && sliceByte &&
    ptrOk (fieldAt b 32 8)
  | .queueDestroy => onlyNamed b 24 56 [(24, 1), (26, 1)] && fieldAt b 24 1 ≤ 63 && fieldAt b 26 1 ≤ 63 && sliceByte
  | .ctxLoad | .ctxEvict => onlyNamed b 24 56 [(24, 2)] && contextOk b x
  | .query =>
    onlyNamed b 24 56 [(24, 3), (32, 8)] && fieldAt b 26 1 ≤ 63 && sliceByte && ptrOk (fieldAt b 32 8) &&
    contextOk b (w.slice (targetSlice p.slice b 26))
  | .sliceFreeze | .sliceResume | .pasidRevoke => onlyNamed b 24 56 [(24, 1)] && fieldAt b 24 1 ≤ 63
  | .sliceSave =>
    onlyNamed b 24 56 [(24, 1), (32, 16)] && fieldAt b 24 1 ≤ 63 && ptrOk (fieldAt b 32 8) && !ptrDev (fieldAt b 32 8) &&
    256 ≤ fieldAt b 40 8
  | .sliceRestore =>
    onlyNamed b 24 56 [(24, 1), (32, 8)] && fieldAt b 24 1 ≤ 63 && ptrOk (fieldAt b 32 8) && !ptrDev (fieldAt b 32 8)
  | .dirtyLog => dirtyLogOk e.dct b
  | .captureSet =>
    onlyNamed b 24 56 [(24, 11)] && ptrOk (fieldAt b 24 8) && bitsOf (fieldAt b 24 8) 15 6 == 0 &&
    !ptrDev (fieldAt b 24 8) && fieldAt b 32 2 ≤ 256 && bitsOf (fieldAt b 34 1) 7 1 == 0
  | .domainReset => domainResetOk b

/-- Checks 1 to 3 of R173 for a command whose entries are all read. -/
def formOk (e : Block) (w : Work) (p : Place) (b : List Byte) : Bool :=
  match cOp b with
  | none => false
  | some o =>
    let pool := match p.slice with
      | some s => (w.slice s).fenceCount
      | none => 0
    cExt b ≤ 2 && extOk o b && headerOk b && p.accepts o && !(p.node && cChain b) &&
    (!cWait b || cWaitFence b < pool) && (!cSignal b || cSigFence b < pool) && bodyOk e w p o b

/-! ### Handles (R218 to R222, R238) -/

/-- The object table entry at an index. -/
def Work.obj (w : Work) (i : Nat) : Obj := tblGet {} w.objs i

/-- Change an object table entry. -/
def Work.updObj (w : Work) (i : Nat) (f : Obj → Obj) : Work := { w with objs := tblUpd {} w.objs i f }

/-- INDEX of a handle (R218). -/
def hIndex (h : Nat) : Nat := h % 2 ^ 24

/-- GEN of a handle. -/
def hGen (h : Nat) : Nat := h / 2 ^ 24

/-- The handle of the object at an index. -/
def handleOf (i : Nat) (o : Obj) : Nat := o.gen * 2 ^ 24 + i

/-- Whether a handle passes R221 for slice `s`. -/
def handleLive (w : Work) (s h : Nat) : Bool :=
  let o := w.obj (hIndex h)
  hIndex h != 0 && o.live && !o.pend && o.slice == s && o.gen == hGen h

/-- The kinds of object that a handle field accepts (R238, R420). -/
inductive Field where
  | operand
  | result
  | copySrc
  | copyDst
  | stream
  | free
  | program
  deriving DecidableEq, Repr

/-- Whether an object is of a kind that a field accepts. -/
def Field.takes (f : Field) (o : Obj) : Bool :=
  match f with
  | .operand => o.stream || !o.remote
  | .result => o.stream || (!o.remote && !o.comp)
  | .copySrc => !o.stream
  | .copyDst => !o.stream && !o.comp
  | .stream => o.stream
  | .free => true
  | .program => !o.stream && !o.remote && o.fmt == 0

/-- The status of check 4 for one handle field (R221, R222). -/
def handleStatus (w : Work) (s : Nat) (f : Field) (h : Nat) : Status :=
  if !handleLive w s h then St.objStale
  else if f.takes (w.obj (hIndex h)) then St.ok else St.objKind

/-- The handle fields of a command, in order. -/
def handleFields (o : Op) (b : List Byte) : List (Field × Nat) :=
  match o with
  | .exec => (execSlots b).map (fun p => (Field.operand, p.2.handle)) ++ [(Field.result, resultHandle b)]
  | .copy => [(.copySrc, fieldAt b 24 4), (.copyDst, fieldAt b 28 4)]
  | .fill => [(.copyDst, fieldAt b 24 4)]
  | .tidy => [(.program, fieldAt b 24 4)]
  | .streamAdvance => if fieldAt b 40 8 = 0 then [(.stream, fieldAt b 24 4)] else []
  | .streamMap => [(.stream, fieldAt b 24 4)]
  | .objFree => [(.free, fieldAt b 24 4)]
  | _ => []

/-- Check 4 of R173: the first handle that fails decides. -/
def checkHandles (w : Work) (s : Nat) (o : Op) (b : List Byte) : Status :=
  ((handleFields o b).map fun p => handleStatus w s p.1 p.2).find? (fun st => st != St.ok) |>.getD St.ok

/-- The distinct object indices to which a command takes references (R233): OBJ_FREE takes none. -/
def refsOf (o : Op) (b : List Byte) : List Nat :=
  if o == .objFree then [] else ((handleFields o b).map fun p => hIndex p.2).dedup

/-! ### Extents (R248, R349, R386, R387, R394, R405) -/

/-- Whether a format is a code format (R230). -/
def isCode (fmt : Nat) : Bool := 1 ≤ fmt && fmt ≤ 5

/-- Bytes of a normal group (R349). -/
def groupBytes : Nat → Nat
  | 1 => 17
  | 2 => 17
  | 3 => 13
  | 4 => 9
  | 5 => 8
  | _ => 0

/-- Groups in a full line of normal groups (R349). -/
def groupsPerLine : Nat → Nat
  | 1 => 15
  | 2 => 15
  | 3 => 19
  | 4 => 28
  | 5 => 32
  | _ => 1

/-- Bytes of the lines that `n` elements of a code format fill as normal groups. -/
def lineBytes (fmt n : Nat) : Nat := 256 * ceilDiv (n / 32) (groupsPerLine fmt)

/-- The length of an object's code stream (R386). -/
def streamLen (o : Obj) : Nat :=
  if o.stream then o.pages.length * 65536 else if o.comp then o.codeLen else o.size

/-- Whether a port is in service (R258). -/
def Port.inService (p : Port) : Bool := p.state == .inService

/-- The ports in service. -/
def servingPorts (w : Work) : List Nat := (List.range 16).filter fun p => (w.port p).inService

/-- Bytes of an operand element in a port's format for a RAW object (R394). -/
def rawElemBytes (opdFmt : Nat) : Nat := if opdFmt = 0 then 2 else 1

/-- Bytes that an operand of `n` elements covers in an object: lines of a code format, else the bytes of its format; a
RAW element takes the port's operand size. -/
def operandBytes (o : Obj) (opdFmt n : Nat) : Nat :=
  if isCode o.fmt then lineBytes o.fmt n
  else if o.fmt = 6 then 2 * n
  else if o.fmt = 7 then 4 * n
  else rawElemBytes opdFmt * n

/-- The largest operand format size over ports in service (the paragraph after R405). -/
def widestOpd (w : Work) : Nat := if (servingPorts w).any (fun p => (w.port p).opdFmt == 0) then 0 else 1

/-- Result elements of a tile: FP32 or BF16 elements in RESULT_KIB (R403). -/
def resultElems (bf16 : Bool) (kib : Nat) : Nat := if bf16 then kib * 512 else kib * 256

/-- Whether some port in service returns BF16. -/
def anyBf16 (w : Work) : Bool := (servingPorts w).any fun p => (w.port p).bf16

/-- Bytes that a tile's results fill in the result object as normal groups, or as converted bytes (R405, R367). -/
def resultBytes (o : Obj) (bf16 : Bool) (kib : Nat) : Nat :=
  let n := resultElems bf16 kib
  if isCode o.fmt then lineBytes o.fmt n
  else if o.fmt = 6 then 2 * n
  else if o.fmt = 7 then 4 * n
  else kib * 1024

/-- The result window of tile `t` (R405): first byte and length, cut at the end of the code stream. -/
def resultWindow (o : Obj) (b : List Byte) (t : Nat) : Nat × Nat :=
  let start := (resultOffset b + t * resultStride b) * 256
  let stop := if resultStride b = 0 then streamLen o else min (streamLen o) (start + resultStride b * 256)
  (start, stop - start)

/-- ELEMS of a code-format operand is a multiple of 32 (R350), tested once its handle has passed check 4. -/
def elemsOk (w : Work) (b : List Byte) : Bool :=
  (execSlots b).all fun p => !isCode (w.obj (hIndex p.2.handle)).fmt || p.2.elems % 32 == 0

/-- Check 5 of an EXEC (R248, R387, R405): the last tile reaches furthest. -/
def execExtentOk (w : Work) (b : List Byte) : Bool :=
  let last := tileCount b - 1
  ((execSlots b).all fun p =>
    let o := w.obj (hIndex p.2.handle)
    (p.2.offset + last * p.2.stride) * 256 + operandBytes o (widestOpd w) p.2.elems ≤ streamLen o) &&
  (let o := w.obj (hIndex (resultHandle b))
   (resultWindow o b 0).1 + resultBytes o (anyBf16 w) (resultKib b) ≤ streamLen o &&
   resultBytes o (anyBf16 w) (resultKib b) ≤ (resultWindow o b 0).2 &&
   resultBytes o (anyBf16 w) (resultKib b) ≤ (resultWindow o b last).2)

/-- Whether a range of local device memory lies in a slice's window (R231). -/
def inWindow (d : Dict) (s a n : Nat) : Bool := d.devBase s ≤ a && a + n ≤ d.devBase s + d.devSize s

/-- Whether a range lies in the shared window of chip `c` (R231, R518). -/
def inShared (d : Dict) (c a n : Nat) : Bool := d.sharedBase c ≤ a && a + n ≤ d.sharedBase c + d.sharedSize c

/-- Check 5 of OBJ_CREATE (R231). -/
def objRangeOk (e : Block) (s : Nat) (b : List Byte) : Bool :=
  let base := fieldAt b 24 8
  let size := fieldAt b 32 8
  let pl := fieldAt b 50 1
  if pl.testBit 7 then ptrDev base && e.frm.joined && inShared e.dct (bitsOf pl 5 0) (ptrAddr base) size
  else !ptrDev base || inWindow e.dct s (ptrAddr base) size

/-- Check 5 of R173. -/
def extentOk (e : Block) (w : Work) (s : Nat) (o : Op) (b : List Byte) : Bool :=
  match o with
  | .exec => execExtentOk w b
  | .copy =>
    fieldAt b 32 8 + fieldAt b 48 8 ≤ (w.obj (hIndex (fieldAt b 24 4))).size &&
    fieldAt b 40 8 + fieldAt b 48 8 ≤ (w.obj (hIndex (fieldAt b 28 4))).size
  | .fill => fieldAt b 32 8 + fieldAt b 40 8 ≤ (w.obj (hIndex (fieldAt b 24 4))).size
  | .tidy => fieldAt b 28 4 + fieldAt b 32 4 ≤ (w.obj (hIndex (fieldAt b 24 4))).size
  | .objCreate => objRangeOk e s b
  | .streamCreate => inWindow e.dct s (ptrAddr (fieldAt b 24 8)) (fieldAt b 32 8)
  | _ => true

/-- Checks 4 and 5 of R173, with the tests of check 3 that depend on an object between them. -/
def checkObjects (e : Block) (w : Work) (p : Place) (b : List Byte) : Status :=
  match p.slice, cOp b with
  | some s, some o =>
    let h := checkHandles w s o b
    if h != St.ok then h
    else if o == .exec && !elemsOk w b then St.badCommand
    else if extentOk e w s o b then St.ok else St.objRange
  | _, _ => St.ok

/-- Checks 1 to 5 of R173. -/
def checkCommand (e : Block) (w : Work) (p : Place) (b : List Byte) : Status :=
  if formOk e w p b then checkObjects e w p b else St.badCommand

/-! ### Check 7 (R180, R358, R373) -/

/-- Bytes rounded up to whole 4 KiB pages. -/
def toPages (n : Nat) : Nat := ceilDiv n 4096

/-- The nominal size of an operand in the Kiln (R394). -/
def nominalBytes (o : Obj) (opdFmt n : Nat) : Nat :=
  if isCode o.fmt then n / 32 * groupBytes o.fmt
  else if o.fmt = 6 then 2 * n
  else if o.fmt = 7 then 4 * n
  else rawElemBytes opdFmt * n

/-- The pages of one slot's reservation (R394). -/
def slotPages (d : Dict) (o : Obj) (opdFmt n : Nat) : Nat :=
  let nom := nominalBytes o opdFmt n
  toPages (nom + ceilDiv (nom * d.escHeadroom) 1000)

/-- The footprint of a tile in pages (R394). -/
def footprintPages (d : Dict) (w : Work) (opdFmt : Nat) (b : List Byte) : Nat :=
  ((execSlots b).map fun p => slotPages d (w.obj (hIndex p.2.handle)) opdFmt p.2.elems).sum + toPages (resultKib b * 1024)

/-- Pages of a port's allocation. -/
def Port.pages (p : Port) : Nat := p.kilnMib * 256

/-- The elements of a rotation block. -/
def rotElems (r : Nat) : Nat := 32 * 2 ^ r

/-- Check 7 of R173 for an EXEC: some port in service can hold a tile, the result codebook has a zero entry, and every
slot's rotation is one its elements and its object allow. -/
def execReleaseOk (d : Dict) (w : Work) (b : List Byte) : Bool :=
  (servingPorts w).any (fun p => footprintPages d w (w.port p).opdFmt b ≤ (w.port p).pages) &&
  (let o := w.obj (hIndex (resultHandle b))
   !(o.fmt == 3 || o.fmt == 4) || o.book.any (fun v => bitsOf v.toNat 14 0 == 0)) &&
  (execSlots b).all fun p =>
    p.2.rot != 3 && p.2.rotSize != 3 &&
    (p.2.rot == 0 || (p.2.elems % rotElems p.2.rotSize == 0 && (w.obj (hIndex p.2.handle)).fmt != 0))

end Sys2Proof.Machine
end

