-- ==== Sys2Proof/Machine/Ends.lean ====
section
/-! DEFINITION. Fences, watches, references, completion records and the ending of commands: the shared operations by which
work of one command reaches others (R128 to R132, R147 to R152, R167, R174, R194 to R196, R207, R233 to R237, R300 to
R307, R314, R317, R325 to R331, R334 to R338). -/

namespace Sys2Proof.Machine

/-! ### Commands by id -/

/-- The command in flight with an id. -/
def Work.cmd (w : Work) (id : Nat) : Option Cmd := w.cmds.find? fun c => c.id == id

/-- Change a command in flight. -/
def Work.updCmd (w : Work) (id : Nat) (f : Cmd → Cmd) : Work :=
  { w with cmds := w.cmds.map fun c => if c.id = id then f c else c }

/-- Change every command in flight. -/
def Work.mapCmds (w : Work) (f : Cmd → Cmd) : Work := { w with cmds := w.cmds.map f }

/-- Take a command out. -/
def Work.dropCmd (w : Work) (id : Nat) : Work := { w with cmds := w.cmds.filter fun c => !(c.id == id) }

/-- A command is to end with a status; the first status stands. A node whose predecessors have not all completed ends
because an ancestor does, and produces no record (R196). -/
def Cmd.endWith (st : Status) (c : Cmd) : Cmd :=
  { c with endStatus := some (c.endStatus.getD st), quietEnd := c.quietEnd || c.phase == .blocked }

/-- End a command with a status. -/
def endCmd (id : Nat) (st : Status) (w : Work) : Work := w.updCmd id (Cmd.endWith st)

/-- The opcode of a command in flight. -/
def Cmd.op (c : Cmd) : Option Op := cOp c.bytes

/-- The run of an entry. -/
def Work.run (w : Work) (entry : Nat) : Option Run := w.runs.find? fun r => r.entry == entry

/-- Change a run. -/
def Work.updRun (w : Work) (entry : Nat) (f : Run → Run) : Work :=
  { w with runs := w.runs.map fun r => if r.entry = entry then f r else r }

/-! ### Priorities (R273, R274, R290) -/

/-- The highest priority lent to a context, 0 where none is (R290). -/
def lentPriority (w : Work) (s c : Nat) : Nat :=
  (w.lends.filter fun l => l.live && l.slice == s && l.ctx == c).foldl (fun m l => max m l.priority) 0

/-- The queue priority of a command, capped at its slice's MAX_PRIORITY (R273). -/
def queuePriority (w : Work) (c : Cmd) : Nat :=
  match c.slice with
  | some s => min c.priority (w.slice s).maxPrio
  | none => c.priority

/-- The effective priority of a command (R274). -/
def effPriority (w : Work) (c : Cmd) : Nat :=
  match c.slice with
  | some s => max (queuePriority w c) (lentPriority w s c.ctx)
  | none => c.priority

/-! ### Fences (R300 to R307) -/

/-- The largest fence value in service (R305). -/
def fenceMax : Nat := 2 ^ 64 - 2

/-- An error mark (R303): the fence after it, and whether it was stale. -/
def Fence.mark (f : Fence) (st : Status) (t : BitVec 64) : Fence × Bool :=
  if t ≤ f.value then (f, true)
  else if f.err = 0 then ({ f with err := st, errTop := t }, false)
  else ({ f with errTop := if f.errTop < t then t else f.errTop }, false)

/-- Clear an error that the value has reached (R302). -/
def Fence.lift (f : Fence) : Fence := if f.err ≠ 0 ∧ f.errTop ≤ f.value then { f with err := 0, errTop := 0 } else f

/-- The outcome of a fence operation: the fence, whether it counts as stale, whether it saturated. -/
structure FenceOut where
  fence : Fence
  stale : Bool
  saturated : Bool
  deriving DecidableEq, Repr

/-- A saturating operation (R305). -/
def Fence.saturate (f : Fence) : FenceOut :=
  { fence := (f.mark St.fenceSaturated (BitVec.allOnes 64)).1, stale := false, saturated := true }

/-- A signal of `v` (R302, R305). -/
def Fence.signal (f : Fence) (v : BitVec 64) : FenceOut :=
  if v = BitVec.allOnes 64 then f.saturate
  else if f.value < v then { fence := ({ f with value := v }).lift, stale := false, saturated := false }
  else { fence := f.lift, stale := true, saturated := false }

/-- An add of `d` (R302, R305): one that brings VALUE to or above ERR_TOP clears the error, as a signal does.
[DESIGN CHOICE, log entry 65] -/
def Fence.add (f : Fence) (d : BitVec 64) : FenceOut :=
  if d = 0 then { fence := f, stale := true, saturated := false }
  else if f.value.toNat + d.toNat > fenceMax then f.saturate
  else { fence := ({ f with value := f.value + d }).lift, stale := false, saturated := false }

/-- Whether a wait for `v` is resolved, and how (R304). -/
def Fence.resolve (f : Fence) (v : BitVec 64) : Option Status :=
  if v ≤ f.value then some St.ok
  else if f.err ≠ 0 ∧ v ≤ f.errTop then some f.err
  else none

/-- Fence `i` of slice `s`. -/
def Work.fence (w : Work) (s i : Nat) : Fence := tblGet {} (w.slice s).fences i

/-! ### Watches (R322 to R333) -/

/-- Watch slots in use in a slice (R322). -/
def slotsUsed (w : Work) (s : Nat) : Nat :=
  (w.cmds.filter fun c => c.slice == some s && c.slotTaken).length + (w.slice s).watches.length +
    (w.slice s).remoteWaits.length

/-- Whether a watch slot is free. -/
def slotFree (w : Work) (s : Nat) : Bool := slotsUsed w s < (w.slice s).watchCount

/-- The 32 bytes of the record of a watch that fired or ended at a beat (R327). -/
def watchBytes (x : Watch) (st : Status) (v beat : BitVec 64) : List Byte :=
  leBytes 4 x.cookie.toNat ++ leBytes 2 x.wid ++ leBytes 2 st.toNat ++ leBytes 8 v.toNat ++ leBytes 8 beat.toNat ++
    leBytes 7 0 ++ leBytes 1 1

/-- A watch record is dropped (R327): counted, and the vector raised if IRQ is set. [DESIGN CHOICE, log entry 26] -/
def dropWatchRecord (s : Nat) (irq : Bool) (w : Work) : Work :=
  let w := w.updSlice s fun x => { x with watchDrops := x.watchDrops + 1 }
  if irq then w.raise (vecWatch s) else w

/-- Write the record of a watch that fired or ended at a beat (R327): none where NOTIFY_PTR is zero. -/
def writeWatchAt (e : Block) (s : Nat) (x : Watch) (st : Status) (v beat : BitVec 64) (w : Work) : Work :=
  if x.ptr = 0 then w
  else
    let dev := ptrDev x.ptr.toNat
    if !mayIssue w (some s) dev then dropWatchRecord s x.irq w
    else writeFor e (some s) dev (ptrAddr x.ptr.toNat) (watchBytes x st v beat) (.watchRecord s x.irq) w

/-- Write the record of a watch that fires or ends now. -/
def writeWatchRecord (e : Block) (s : Nat) (x : Watch) (st : Status) (v : BitVec 64) (w : Work) : Work :=
  writeWatchAt e s x st v e.clk.beat w

/-- Remove a watch. -/
def removeWatch (s wid : Nat) (w : Work) : Work :=
  w.updSlice s fun x => { x with watches := x.watches.filter fun y => !(y.wid == wid) }

/-- A watch ends or fires (R326, R331, R333, R340): it is removed and its record written. While its slice is FROZEN and
quiescent, a NOTIFY watch that fires is held as fired (R607). -/
def fireWatch (e : Block) (s : Nat) (x : Watch) (st : Status) (v : BitVec 64) (w : Work) : Work :=
  if (w.slice s).state == .frozen && (w.slice s).quiescent then
    w.updSlice s fun y => { y with watches := y.watches.map fun z => if z.wid = x.wid then { z with fired := some (st, v, e.clk.beat) } else z }
  else writeWatchRecord e s x st v (removeWatch s x.wid w)

/-- Whether a wait for `v` is resolved, and how: before the end of the cycle only with OK, as a signal of the cycle comes before its
error marks (R307). -/
def Fence.answer (f : Fence) (done : Bool) (v : BitVec 64) : Option Status :=
  if done then f.resolve v else if v ≤ f.value then some St.ok else none

/-- After an operation on fence `i`: FORWARD watches send, NOTIFY watches and remote waits fire (R307, R326, R329, R330),
and the registered waits of commands are resolved (R304); a suspended command is looked at again when its slice
resumes (R605). `done` says that the signals of the cycle have all been applied. -/
def fenceChanged (e : Block) (done : Bool) (s i : Nat) (old : Fence) (w : Work) : Work :=
  let f := w.fence s i
  let w := (w.slice s).watches.foldl (fun w x =>
    if x.fence ≠ i ∨ x.remote ∨ x.fired.isSome then w
    else if x.forward then
      let w := if old.value ≠ f.value then sendFence e x.chip s x.target none f.value w else w
      if f.err ≠ 0 ∧ (old.err = 0 ∨ old.errTop ≠ f.errTop) then sendFence e x.chip s x.target (some f.err) f.errTop w else w
    else match f.answer done x.value with
      | some st => fireWatch e s x st f.value w
      | none => w) w
  let w := (w.slice s).remoteWaits.foldl (fun w x =>
    if x.fence ≠ i then w
    else match f.answer done x.value with
      | some st =>
        sendWatchNotify e x.src s x.wid st f.value
          (w.updSlice s fun y => { y with remoteWaits := y.remoteWaits.filter fun z => !(z == x) })
      | none => w) w
  w.mapCmds fun c =>
      if c.slice = some s ∧ c.phase = .fetched ∧ c.slotTaken ∧ ¬c.waitDone ∧ ¬c.suspended ∧ cWaitFence c.bytes = i then
        match f.answer done (cWaitValue c.bytes) with
        | some st =>
          if st = St.ok then { c with waitDone := true, slotTaken := false } else (Cmd.endWith st c)
        | none => c
      else c

/-- Put the outcome of a fence operation in place (R302, R307). -/
def putOutcome (e : Block) (done : Bool) (s i : Nat) (o : FenceOut) (w : Work) : Work :=
  let old := w.fence s i
  let w := w.updSlice s fun x =>
    { x with fences := tblSet {} x.fences i o.fence, stale := if o.stale then x.stale + 1 else x.stale }
  if o.fence = old then w else fenceChanged e done s i old w

/-- A signal or an add takes effect at once; the error of one that saturates meets the waits at the end of the cycle (R305, R307).
[DESIGN CHOICE, log entry 5] -/
def putFence (e : Block) (s i : Nat) (o : FenceOut) (w : Work) : Work :=
  let w := putOutcome e false s i o w
  if o.saturated then w.later (.resolve s i) else w

/-- Signal fence `i` of slice `s` (R302). -/
def signalFence (e : Block) (s i : Nat) (v : BitVec 64) (w : Work) : Work := putFence e s i ((w.fence s i).signal v) w

/-- An error mark for fence `i` of slice `s`: it is applied at the end of the control cycle, behind every signal and add (R307). -/
def markFence (s i : Nat) (st : Status) (t : Option (BitVec 64)) (w : Work) : Work := w.later (.mark s i st t)

/-- Apply an error mark (R303). -/
def applyMark (e : Block) (s i : Nat) (st : Status) (t : Option (BitVec 64)) (w : Work) : Work :=
  let m := (w.fence s i).mark st (t.getD ((w.fence s i).value + 1))
  putOutcome e true s i { fence := m.1, stale := m.2, saturated := false } w

/-- Look at the waits on a fence against the result of the cycle (R307). -/
def resolveFence (e : Block) (s i : Nat) (w : Work) : Work := fenceChanged e true s i (w.fence s i) w

/-! ### Declared fences (R188, R192, R303) -/

/-- SLOT_COUNT of a packet. -/
def pSlots (b : List Byte) : Nat := fieldAt b 4 2

/-- The fences that a packet declares (R188). -/
def packetDecl (b : List Byte) : List Nat := (List.range (min 24 (fieldAt b 8 2))).map fun i => fieldAt b (16 + 2 * i) 2

/-- The nodes in a packet's slots, each with its slot number (R189): as many as the slots hold whole. -/
def nodesFrom (b : List Byte) : Nat → Nat → List (Nat × List Byte)
  | 0, _ => []
  | fuel + 1, k =>
    let x := cExt (bytesAt b (64 + 64 * k) 64)
    let n := if x = 3 then 1 else 1 + x
    if k + n ≤ pSlots b then (k, bytesAt b (64 + 64 * k) (64 * n)) :: nodesFrom b fuel (k + n) else []

/-- The nodes of a packet. -/
def nodesOf (b : List Byte) : List (Nat × List Byte) := nodesFrom b (pSlots b) 0

/-- The target of a declared fence's error mark (R303): the highest SIGNAL_VALUE among the nodes that name it, none where none does. -/
def declTarget (i : Nat) (ns : List (Nat × List Byte)) : Option (BitVec 64) :=
  let vs := (ns.filter fun p => cSignal p.2 && cSigFence p.2 == i).map fun p => cSigValue p.2
  if vs.isEmpty then none else some (vs.foldl (fun m v => if m < v then v else m) 0)

/-- The declared fences of a packet below the pool's size carry a status (R192). -/
def markDeclared (s : Nat) (b : List Byte) (st : Status) (w : Work) : Work :=
  let fs := (packetDecl b).dedup.filter fun i => decide (i < (w.slice s).fenceCount)
  fs.foldl (fun w i => markFence s i st (declTarget i (nodesOf b)) w) w

/-- A run fails before any node starts (R192). -/
def failRun (c : Cmd) (b : List Byte) (st : Status) (w : Work) : Work :=
  endCmd c.id st (match c.slice with
    | some s => markDeclared s b st w
    | none => w)

/-! ### The deadlock walk (R334 to R338) -/

/-- The entity of a command: its run's entry for a node, else itself. -/
def Cmd.entity (c : Cmd) : Nat := c.parent.getD c.id

/-- The fences that an entity declares (R334). -/
def declares (w : Work) (c : Cmd) : List Nat :=
  (if cSignal c.bytes then [cSigFence c.bytes] else []) ++ (match w.run c.id with
    | some r => r.decl
    | none => [])

/-- Whether a command has a registered fence wait that is unmet. -/
def Cmd.fenceWaits (c : Cmd) : Bool := c.phase == .fetched && c.slotTaken && !c.waitDone && c.endStatus.isNone

/-- The commands of an entity: itself where it has not started a run, its nodes. -/
def entityCmds (w : Work) (id : Nat) : List Cmd := w.cmds.filter fun c => c.id == id || c.parent == some id

/-- Whether a command is running, staged, ready or released to an engine (R335): one that waits on a fence, by its edges, on a
semaphore or on a counter is not. -/
def Cmd.canRun (c : Cmd) : Bool :=
  match c.phase with
  | .partBase => false
  | .blocked => false
  | .fetched => !cWait c.bytes || c.waitDone
  | _ => !(c.waiting == .sem || c.waiting == .counter)

/-- Whether an entity is blocked (R335): nothing of it can proceed and some registered fence wait of it is unmet. -/
def entityBlocked (w : Work) (id : Nat) : Bool :=
  let cs := entityCmds w id
  let hasRun := (w.run id).isSome
  cs.any Cmd.fenceWaits && cs.all fun c => !c.canRun || (hasRun && c.id == id)

/-- The fences that an entity waits on. -/
def entityWaits (w : Work) (id : Nat) : List Nat :=
  ((entityCmds w id).filter Cmd.fenceWaits).map fun c => cWaitFence c.bytes

/-- The pending entities of a slice in fetch order (R334). -/
def entities (w : Work) (s : Nat) : List Cmd :=
  w.cmds.filter fun c => c.slice == some s && c.parent.isNone && c.endStatus.isNone && !(c.phase == .partBase)

/-- The state of the walk: budget left, fences seen, the next list of fences with the path of entities that led there,
and the path found. -/
structure Walk where
  budget : Nat
  seen : List Nat
  next : List (Nat × List Nat)
  found : Option (List Nat)
  stop : Bool
  deriving DecidableEq, Repr

/-- One entity at one fence of the walk (R336). -/
def walkEntity (w : Work) (target : Nat) (path : List Nat) (k : Walk) (c : Cmd) : Walk :=
  if k.stop then k
  else if k.budget = 0 then { k with stop := true }
  else
    let k := { k with budget := k.budget - 1 }
    if c.id = target then { k with found := some (path ++ [c.id]), stop := true }
    else if !entityBlocked w c.id then k
    else (entityWaits w c.id).foldl (fun (k : Walk) h =>
      if k.seen.contains h then k
      else { k with seen := h :: k.seen, next := k.next ++ [(h, path ++ [c.id])] }) k

/-- One depth of the walk: its fences in ascending order. -/
def walkLevel (w : Work) (s target : Nat) (cur : List (Nat × List Nat)) (k : Walk) : Walk :=
  let sorted := cur.isort fun a b => a.1 ≤ b.1
  sorted.foldl (fun k g => ((entities w s).filter fun c => (declares w c).contains g.1).foldl (walkEntity w target g.2) k)
    { k with next := [] }

/-- The walk of R336: `depth` levels. -/
def walkFrom (w : Work) (s target : Nat) : Nat → List (Nat × List Nat) → Walk → Option (List Nat)
  | 0, _, _ => none
  | d + 1, cur, k =>
    let k := walkLevel w s target cur k
    if k.stop then k.found else if k.next.isEmpty then none else walkFrom w s target d k.next k

/-- The path from an entity back to itself that the walk finds, none where it returns 0 (R336, R338). -/
def deadlockWalk (w : Work) (s target fence depth budget : Nat) : Option (List Nat) :=
  walkFrom w s target depth [(fence, [])] { budget := budget, seen := [fence], next := [], found := none, stop := false }

/-! ### References and reclaim (R233 to R237) -/

/-- Take one reference to each object named. -/
def takeRefs (is : List Nat) (w : Work) : Work :=
  is.foldl (fun w i => w.updObj i fun o => { o with refs := o.refs + 1 }) w

/-- What an object counts in its context's MEM_BYTES (R154, R237). -/
def objCharge (o : Obj) : Nat := if o.stream then o.size + o.pages.length * 65536 else o.size

/-- The 16 bytes of a mirror entry (R637). -/
def mirrorBytes (new old applied : Nat) : List Byte := leBytes 4 new ++ leBytes 4 old ++ leBytes 4 applied ++ leBytes 4 0

/-- Reclaim an object (R237): its charge leaves its context, its index and descriptor go back, its mirror entry is
written, and the OBJ_FREE that marked it completes. -/
def reclaim (e : Block) (i : Nat) (w : Work) : Work :=
  let o := w.obj i
  let s := o.slice
  let w := chargeMem s o.ctx (-(objCharge o : Int)) w
  let w := w.updSlice s fun x => { x with freeIdx := x.freeIdx ++ [i] }
  let w := if o.stream then { w with streamFree := w.streamFree ++ [o.desc] } else w
  let w := if o.stream && e.dct.posMirror s != 0 then
      writeFor e (some s) false (e.dct.posMirror s + 16 * o.desc)
        (mirrorBytes 0xFFFFFFFF 0xFFFFFFFF (w.slice s).applied.toNat) .mirrorFree w
    else w
  let w := w.updObj i fun o => { gen := o.gen, cached := o.cached }
  match o.freer with
  | some id => endCmd id St.ok w
  | none => w

/-- The generation after one (R220). -/
def nextGen (g : Nat) : Nat := if g ≥ 255 then 1 else g + 1

/-- Release a command's references; an object that is free-pending with none left is reclaimed (R234, R237). -/
def dropRefs (e : Block) (is : List Nat) (w : Work) : Work :=
  is.foldl (fun w i =>
    let w := w.updObj i fun o => { o with refs := o.refs - 1 }
    if (w.obj i).pend && (w.obj i).refs == 0 then reclaim e i w else w) w

/-! ### Completion records (R128 to R132, R147 to R152) -/

/-- The record's bytes (R128, R129): record number `n` of a ring of 2^`log2` records. -/
def recBytes (r : Rec) (n log2 : Nat) (deferred : Bool) : List Byte :=
  leBytes 4 r.sqIndex.toNat ++ leBytes 2 r.node.toNat ++ leBytes 2 r.status.toNat ++ leBytes 8 r.fenceValue.toNat ++
    leBytes 2 r.fence.toNat ++ leBytes 2 (r.context % 4096) ++ leBytes 1 (r.queue % 64) ++ leBytes 1 (if deferred then 1 else 0) ++
    leBytes 2 0 ++ leBytes 4 r.beatLo.toNat ++ leBytes 3 0 ++ leBytes 1 (if (n >>> log2) % 2 = 0 then 0x80 else 0)

/-- Records that a queue's slice, or the admin queue, holds in its overflow. -/
def overflowUsed (w : Work) (qk : Nat) : Nat :=
  (w.queues.filter fun p => sliceOf p.1 == sliceOf qk).foldl (fun n p => n + p.2.held.length) 0

/-- A record enters the overflow, behind all that it holds (R148). -/
def enterOverflow (qk : Nat) (r : Rec) (w : Work) : Work :=
  { w with nextOrder := w.nextOrder + 1 }.updQueue qk fun q => { q with held := q.held ++ [{ r with place := w.nextOrder }] }

/-- A record goes to the overflow, or finds it full and is kept with the in-flight state (R147, R149). -/
def toOverflow (qk : Nat) (r : Rec) (w : Work) : Work :=
  if (w.queue qk).kept.isEmpty && overflowUsed w qk < 256 then enterOverflow qk r w
  else queueCause qk .overflowFull St.completionBlocked (w.updQueue qk fun q => { q with kept := q.kept ++ [r] })

/-- Kept records move into the overflow as it empties. -/
def refillOverflow (qk : Nat) (w : Work) : Work :=
  (w.queues.filter fun p => sliceOf p.1 == sliceOf qk && !p.2.kept.isEmpty).foldl (fun w p =>
    match (w.queue p.1).kept with
    | r :: rest => if overflowUsed w qk < 256 then enterOverflow p.1 r (w.updQueue p.1 fun q => { q with kept := rest }) else w
    | [] => w) w

/-- Whether a completion ring is full (R132). -/
def Queue.ringFull (q : Queue) : Bool := (q.cqTail - q.cqHead).toNat ≥ 2 ^ q.desc.cqLog2

/-- Whether the block may write for a queue. [DESIGN CHOICE, log entry 11] -/
def mayWrite (w : Work) (qk : Nat) (dev : Bool) : Bool := mayIssue w (sliceOf qk) dev

/-- Issue the write of a record at CQ_TAIL (R130). [DESIGN CHOICE, log entry 11] -/
def startRecord (e : Block) (qk : Nat) (r : Rec) (deferred : Bool) (w : Work) : Work :=
  let q := w.queue qk
  let n := q.cqTail.toNat
  let a := q.desc.cqBase.toNat + n % 2 ^ q.desc.cqLog2 * 32
  writeFor e (sliceOf qk) q.desc.cqDev a (recBytes r n q.desc.cqLog2 deferred) (.record qk deferred)
    (w.updQueue qk fun q => { q with recBusy := some r })

/-- Serve the records that are due, oldest first: behind held records and on a full ring they go to the overflow
(R132, R148); one write is in flight at a time. -/
def serveDue (e : Block) (qk : Nat) : Nat → Work → Work
  | 0, w => w
  | fuel + 1, w =>
    let q := w.queue qk
    match q.due with
    | [] => w
    | r :: rest =>
      if !mayWrite w qk q.desc.cqDev then w
      else if !q.held.isEmpty || !q.kept.isEmpty then
        serveDue e qk fuel (toOverflow qk r (w.updQueue qk fun q => { q with due := rest }))
      else if q.recBusy.isSome then w
      else
        let w := w.updQueue qk fun q => { q with due := rest }
        if q.ringFull then serveDue e qk fuel (toOverflow qk r w) else startRecord e qk r false w

/-- A record is produced (R131). -/
def produceRecord (e : Block) (qk : Nat) (r : Rec) (w : Work) : Work :=
  let w := w.updQueue qk fun q => { q with due := q.due ++ [r] }
  serveDue e qk ((w.queue qk).due.length + 1) w

/-- A record's fixed parts for a queue. -/
def newRec (e : Block) (w : Work) (qk : Nat) (pos : BitVec 32) (node : BitVec 16) (st : Status) : Rec :=
  { sqIndex := pos, node := node, status := st, fenceValue := 0, fence := 0xFFFF, context := (w.queue qk).desc.context,
    queue := qk % 64, beatLo := BitVec.ofNat 32 e.clk.beat.toNat }

/-! ### HEAD and the drain (R124, R126, R140) -/

/-- Advance HEAD over finished positions (R124). -/
def advanceHead : Nat → Queue → Queue
  | 0, q => q
  | fuel + 1, q =>
    if q.finished.contains q.head.toNat ∧ q.head ≠ q.fetch then
      advanceHead fuel { q with head := q.head + 1, finished := q.finished.erase q.head.toNat, stDirty := true }
    else q

/-- The block has finished with `n` positions from `pos` (R126). -/
def finishPos (qk : Nat) (pos : BitVec 32) (n : Nat) (w : Work) : Work :=
  w.updQueue qk fun q =>
    let q := { q with finished := q.finished ++ (List.range n).map fun i => (pos + BitVec.ofNat 32 i).toNat }
    advanceHead (q.finished.length + 1) q

/-- The unread positions of a draining queue each take a record, and the queue halts, once every fetched entry has ended
(R140). `skip` positions belong to a base already read; those past the drain limit are read after RESUME as new entries. -/
def drainCheck (e : Block) (qk : Nat) (w : Work) : Work :=
  let q := w.queue qk
  match q.state, q.drain with
  | .draining, some lim =>
    if q.head = q.fetch then
      let n := (lim - q.fetch).toNat
      let n := if n < 2 ^ 31 then n else 0
      let w := ((List.range n).drop q.skip).foldl (fun w i =>
        produceRecord e qk (newRec e w qk (q.fetch + BitVec.ofNat 32 i) 0xFFFF St.contextKilled) w) w
      w.updQueue qk fun q => { q with
        state := .halted, drain := none, stDirty := true,
        fetch := q.fetch + BitVec.ofNat 32 n, head := q.fetch + BitVec.ofNat 32 n, readNext := q.fetch + BitVec.ofNat 32 n,
        skip := 0, finished := [] }
    else w
  | _, _ => w

/-! ### Ending a command -/

/-- Whether an expander lane waits for an answer on behalf of a command. -/
def laneWaits (w : Work) (id : Nat) : Bool :=
  w.pln.lanes.any fun p => match p.2 with
    | some u => u.cmd == id && w.fab.reqs.any fun r => r.why == .lane p.1 && r.answer.isNone && !r.dead
    | none => false

/-- Whether a command's stopped work goes on: a tile of it runs, is offered or commits, a request of it is not answered,
or its program is still on a core (R560, R562). -/
def cmdBusy (w : Work) (c : Cmd) : Bool :=
  (w.tiles.any fun t => t.cmd == c.id && (t.state == .offered || t.state == .running || t.state == .committing)) ||
    !(w.reqsOf c.id).isEmpty || laneWaits w c.id || (w.jnr.progs.any fun p => p.cmd == c.id)

/-- A command's SIGNAL_FENCE index, where SIGNAL is 1 and the index lies in its slice's pool (R165). -/
def sigOf (w : Work) (c : Cmd) : Option (Nat × Nat) :=
  match c.slice with
  | some s => if cSignal c.bytes && cSigFence c.bytes < (w.slice s).fenceCount then some (s, cSigFence c.bytes) else none
  | none => none

/-- The fence update of a command's end (R167, R305): the status after it, and FENCE and FENCE_VALUE of its record
(R128, R306). -/
def signalEnd (e : Block) (c : Cmd) (st : Status) (w : Work) : Work × Status × BitVec 16 × BitVec 64 :=
  match sigOf w c with
  | none => (w, st, 0xFFFF, 0)
  | some (s, i) =>
    let v := cSigValue c.bytes
    let ix := BitVec.ofNat 16 i
    if st = St.ok then
      if c.sigDone then (w, st, ix, v)
      else
        let o := (w.fence s i).signal v
        let w := putFence e s i o w
        if o.saturated then (w, St.fenceSaturated, ix, (w.fence s i).value) else (w, st, ix, v)
    else
      let w := markFence s i st (some v) w
      (w, st, ix, (w.fence s i).value)

/-- NODE of a command's record: its index in a run, its position in a chain, else 0xFFFF (R128, R207). The record of a GRAPH or
RELAUNCH that is part of a chain, for which R195 names 0xFFFF, carries its position too.
[DESIGN CHOICE, log entry 64] -/
def Cmd.recNode (c : Cmd) : BitVec 16 :=
  match c.chainPos with
  | some k => BitVec.ofNat 16 k
  | none => if c.parent.isNone && cChain c.bytes then 0 else c.node

/-- Whether a command writes a record at its end (R163, R174, R196, R207): nodes only on a failure of their own. -/
def wantsRecord (c : Cmd) (st : Status) : Bool :=
  if c.quietEnd then false
  else if c.parent.isSome then st != St.ok
  else if c.chainPos.isSome && !cChain c.bytes then true
  else st != St.ok || !cQuiet c.bytes

/-- A node has ended (R193, R194): its successors become live or end with its status; the run ends with its last node
(R195). Where DEADLOCK ends a run of which no node was released, or the walk named such a run, the declared fences carry it too
(R192, R337). [DEDUCED, log entry 51] -/
def nodeEnded (c : Cmd) (entry : Nat) (st : Status) (beats : Nat → Nat) (w : Work) : Work :=
  let n := c.node.toNat
  let w := w.updRun entry fun r => { r with
    nodes := r.nodes.set n (if st = St.ok then .ok else .failed),
    first := if st = St.ok then r.first else some (r.first.getD st) }
  match w.run entry with
  | none => w
  | some r =>
    let succ := (r.edges.filter fun p => p.1 == n).map Prod.snd
    let ready (m : Nat) : Bool := (r.edges.filter fun p => p.2 == m).all fun p => r.nodes.getD p.1 .waiting == .ok
    let w := w.mapCmds fun d =>
      if d.parent = some entry ∧ d.node.toNat ∈ succ ∧ d.endStatus.isNone ∧ d.phase = .blocked then
        if st ≠ St.ok then { d.endWith st with quietEnd := true }
        else if ready d.node.toNat then { d with phase := .fetched, timer := some (beats d.node.toNat) }
        else d
      else d
    if r.nodes.all fun x => x == .ok || x == .failed then
      let w := match c.slice with
        | some s => if (r.named ∨ r.first = some St.deadlock) ∧ !r.started then markDeclared s r.image St.deadlock w else w
        | none => w
      endCmd entry (r.first.getD St.ok) { w with runs := w.runs.filter fun r => !(r.entry == entry) }
    else w

/-- An EXEC that failed a guard has otherwise completed with OK: a CLIP_GUARD event is counted (R411). -/
def countGuard (c : Cmd) (s : Nat) (w : Work) : Work := if c.guard then countEvent s 9 1 w else w

/-- The timeout of a command in beats (R210): its own, or its queue's. -/
def timeoutOf (w : Work) (qk : Nat) (b : List Byte) : Nat :=
  if cTimeout b ≠ 0 then cTimeout b
  else
    let t := (w.queue qk).desc.timeoutBeats
    if t = 0 then 250 else t

/-- Whether a command's slice is FROZEN. -/
def Cmd.frozen (w : Work) (c : Cmd) : Bool :=
  match c.slice with
  | some s => (w.slice s).state == .frozen
  | none => false

/-- Start the read of a chain's successor (R204), or, in a chain that has failed, of the next command whose fence is to
carry the status (R208). The entry holds the pointer. A FROZEN slice fetches nothing (R606): the read waits for SLICE_RESUME. -/
def readSuccessor (e : Block) (c : Cmd) (ptr : Nat) (skip : Bool) (w : Work) : Work :=
  let w := w.updCmd c.id fun d => { d with aux := [], auxNat := ptr }
  if c.frozen w then w
  else readFor e c.slice (ptrDev ptr) (ptrAddr ptr) 64 (if skip then .chainSkip c.id else .chainNext c.id) w

/-- Whether a command is an entry whose successor is still to be read. -/
def Cmd.atSuccessor (c : Cmd) : Bool := c.bytes.isEmpty && c.chainPos.isSome && c.endStatus.isNone

/-- The reads of successors that waited while a slice was FROZEN start (R608). -/
def readHeldSuccessors (e : Block) (s : Nat) (w : Work) : Work :=
  (w.cmds.filter fun c => c.slice == some s && c.atSuccessor).foldl (fun w c =>
    if (w.reqsOf c.id).isEmpty then readSuccessor e c c.auxNat (c.phase == .stopping) w else w) w

/-- The entry of a command ends: HEAD may pass its positions (R126, R207). -/
def entryEnded (e : Block) (c : Cmd) (w : Work) : Work :=
  drainCheck e c.qk (finishPos c.qk c.sqIndex c.span (w.dropCmd c.id))

/-- Whether a command goes on to a successor in its chain (R204): it ended with OK and names one. -/
def chainsOn (c : Cmd) (st : Status) : Bool := c.parent.isNone && cChain c.bytes && st == St.ok

/-- A BARRIER_ARRIVE has ended (R540): one that ends with a status other than OK and STEP_BROKEN is noted for the Truss. -/
def noteArrival (c : Cmd) (st : Status) (w : Work) : Work :=
  match c.slice with
  | some s =>
    if c.op = some .barrierArrive ∧ st ≠ St.ok ∧ st ≠ St.stepBroken then
      { w with barEnds := w.barEnds ++ [(s, fieldAt c.bytes 24 1, fieldAt c.bytes 32 8, st)] }
    else w
  | none => w

/-- Finalise a command that has ended: references, fence, record, and then its run, its chain or its entry. While the
successor of a chained command is read, the entry stands for no command (R334): it holds the pointer alone. -/
def finalize (e : Block) (c : Cmd) (st0 : Status) (w : Work) : Work :=
  let w := returnCredits c.credits (dropRefs e c.refs w)
  let w := noteArrival c st0 (w.updCmd c.id fun d => { d with refs := [], slotTaken := false, credits := [] })
  let (w, st, fence, fval) := signalEnd e c st0 w
  let w := if wantsRecord c st then
      produceRecord e c.qk { newRec e w c.qk c.sqIndex c.recNode st with fence := fence, fenceValue := fval, context := c.ctx } w
    else w
  match c.parent with
  | some entry =>
    let w := w.dropCmd c.id
    nodeEnded c entry st (fun n =>
      match (w.cmds.find? fun d => d.parent == some entry && d.node.toNat == n) with
      | some d => timeoutOf w d.qk d.bytes
      | none => 0) w
  | none =>
    if cChain c.bytes && ptrOk (cChainPtr c.bytes) &&
        mayWrite w c.qk (ptrDev (cChainPtr c.bytes)) then
      if st == St.ok then
        let w := w.updCmd c.id fun d => { d with
          chainPos := some (c.chainPos.getD 0 + 1), bytes := [], phase := .running, waiting := .none, timer := none,
          waitDone := false, slotTaken := false, sigDone := false, endStatus := none, badStatus := 0, tilesDone := [],
          bytesDone := 0, writesLeft := 0, codes := 0, clipped := 0, escs := 0, aux := [], auxNat := cChainPtr c.bytes, marks := [], unpaid := [] }
        if c.chainPos.getD 0 + 1 ≥ e.dct.chainLimit then
          -- R206: a successor beyond the limit ends the chain
          entryEnded e c (produceRecord e c.qk
            { newRec e w c.qk c.sqIndex (BitVec.ofNat 16 (c.chainPos.getD 0 + 1)) St.badCommand with context := c.ctx } w)
        else readSuccessor e c (cChainPtr c.bytes) false w
      else
        let w := w.updCmd c.id fun d => { d with
          chainPos := some (c.chainPos.getD 0 + 1), bytes := [], phase := .stopping, waiting := .none, timer := none,
          endStatus := none, badStatus := st, slotTaken := false, quietEnd := true, aux := [] }
        if c.chainPos.getD 0 + 1 ≥ e.dct.chainLimit then entryEnded e c w
        else readSuccessor e c (cChainPtr c.bytes) true w
    else entryEnded e c w

/-- A base whose extension entries are missing ends with a status; its extension positions take no record of their own
(R118, R140, R217, R705). -/
def endPartBase (st : Status) (c : Cmd) (w : Work) : Work :=
  let n := c.bytes.length / 64
  let w := w.updQueue c.qk fun q => { q with skip := c.span - n }
  w.updCmd c.id fun d => { d.endWith st with span := n }

/-! ### Waits that the shared state resolves -/

/-- Units that a semaphore's holders hold (R312). -/
def Sem.held (m : Sem) : Nat := m.holders.foldl (fun n p => n + p.2) 0

/-- Units that a context holds. -/
def Sem.holding (m : Sem) (c : Nat) : Nat := ((m.holders.find? fun p => p.1 == c).map Prod.snd).getD 0

/-- Set a context's holding; a record that reaches 0 is freed (R315). -/
def Sem.setHolding (m : Sem) (c n : Nat) : Sem :=
  let rest := m.holders.filter fun p => !(p.1 == c)
  if n = 0 then { m with holders := rest }
  else if m.holders.any (fun p => p.1 == c) then
    { m with holders := m.holders.map fun p => if p.1 = c then (c, n) else p }
  else { m with holders := m.holders ++ [(c, n)] }

/-- Semaphore `i` of slice `s`. -/
def Work.sem (w : Work) (s i : Nat) : Sem := tblGet {} (w.slice s).sems i

/-- Change a semaphore. -/
def Work.updSem (w : Work) (s i : Nat) (f : Sem → Sem) : Work :=
  w.updSlice s fun x => { x with sems := tblUpd {} x.sems i f }

/-- SEM of a command's body. -/
def semIndex (b : List Byte) : Nat := fieldAt b 24 2

/-- COUNT of a command's body. -/
def semUnits (b : List Byte) : Nat := fieldAt b 28 4

/-- Whether `n` units can go to a context (R314). -/
def Sem.grants (m : Sem) (c n : Nat) : Bool :=
  m.held + n ≤ m.cap.toNat && (m.holders.any (fun p => p.1 == c) || m.holders.length < 16)

/-- Whether acquire `a` stands before acquire `b` (R314). -/
def standsBefore (w : Work) (a b : Cmd) : Bool :=
  effPriority w b < effPriority w a || (effPriority w a == effPriority w b && a.relOrder ≤ b.relOrder)

/-- Whether an acquire waits on the same semaphore as another. -/
def sameSem (a b : Cmd) : Bool := a.slice == b.slice && semIndex a.bytes == semIndex b.bytes

/-- Whether a command is an acquire that waits. -/
def Cmd.acquiring (c : Cmd) : Bool := c.waiting == .sem && c.endStatus.isNone && !c.suspended

/-- Whether an acquire stands first on its semaphore and its units are free. [DESIGN CHOICE, log entry 13] -/
def acquireFits (w : Work) (c : Cmd) : Bool :=
  c.acquiring && (w.cmds.all fun d => !(d.acquiring && sameSem c d) || standsBefore w c d || d.id == c.id) &&
    (match c.slice with
     | some s => (w.sem s (semIndex c.bytes)).grants c.ctx (semUnits c.bytes) && !(w.ctx s c.ctx).stopped
     | none => false)

/-- Whether a semaphore may yet be force-released in this control cycle: a holder's teardown is under way (R342).
[DESIGN CHOICE, log entry 13] -/
def Work.mayForce (w : Work) (s i : Nat) : Bool := w.cap.teardowns.any fun t => t.slice == s && (w.sem s i).holding t.ctx != 0

/-- Whether an acquire is granted at once: a grant that may meet a force-release waits for the end of the control cycle (R342).
[DESIGN CHOICE, log entry 13] -/
def acquireReady (w : Work) (c : Cmd) : Bool :=
  acquireFits w c && !c.slice.any fun s => w.mayForce s (semIndex c.bytes)

/-- Grant an acquire (R314, R317). -/
def grantAcquire (c : Cmd) (w : Work) : Work :=
  match c.slice with
  | none => w
  | some s =>
    let i := semIndex c.bytes
    if (w.sem s i).abandoned then
      endCmd c.id St.semAbandoned (w.updSem s i fun m => { m with abandoned := false })
    else
      endCmd c.id St.ok (w.updSem s i fun m => m.setHolding c.ctx (m.holding c.ctx + semUnits c.bytes))

/-- The local counter that a COUNTER_OP names (R318, R321). -/
def counterOf (w : Work) (c : Cmd) : BitVec 32 :=
  match c.slice with
  | some s =>
    match w.slotOf s c.ctx with
    | some k => tblGet 0 (w.slot k).counters (fieldAt c.bytes 24 2)
    | none => 0
  | none => 0

/-- The slice that a queue command or QUERY acts on (R185, R186). -/
def actsOn (c : Cmd) : Nat := targetSlice c.slice c.bytes 26

/-- The queue that a queue command names. -/
def namedQueue (c : Cmd) : Nat := qkey (actsOn c) (bitsOf (fieldAt c.bytes 24 1) 5 0)

/-- Whether the block has written all that it had to write for a queue: its records are written or held, and no write of
its status block is out (R131). -/
def Queue.written (q : Queue) : Bool := q.due.isEmpty && q.recBusy.isNone && !q.stBusy

/-- Whether a waiting WAIT_GE, CTX_LOAD, CTX_EVICT or QUEUE_DESTROY has what it waits for (R184, R319, R321). -/
def waitMet (w : Work) (c : Cmd) : Bool :=
  match c.waiting, c.slice with
  | .queue, _ => (w.queue (namedQueue c)).written
  | .counter, some s => w.isResident s c.ctx && decide (fieldAt c.bytes 28 4 ≤ (counterOf w c).toNat)
  | .slot, some s =>
    if c.op == some .ctxLoad then w.isResident s (fieldAt c.bytes 24 2)
    else (w.slotOf s (fieldAt c.bytes 24 2)).isNone
  | _, _ => false

/-- A wait is over: the command ends; a QUEUE_DESTROY first removes its queue (R184). A record whose write failed while the
command waited is held in the overflow, and is discarded with the queue. [DESIGN CHOICE, log entry 21] -/
def endWait (c : Cmd) (w : Work) : Work :=
  endCmd c.id St.ok (if c.waiting = .queue then { w with queues := tblDel w.queues (namedQueue c) } else w)

/-- The next command whose wait the shared state has met. [DESIGN CHOICE, log entry 13] -/
def readyWait (w : Work) : Option Cmd := w.cmds.find? fun c => c.endStatus.isNone && waitMet w c

/-- The next acquire to be granted. -/
def readyAcquire (w : Work) : Option Cmd := w.cmds.find? fun c => acquireReady w c

/-- Acquires that have waited for the force-releases of the cycle are granted (R342). -/
def grantsLate : Nat → Work → Work
  | 0, w => w
  | fuel + 1, w =>
    match w.cmds.find? fun c => acquireFits w c with
    | some c => grantsLate fuel (grantAcquire c w)
    | none => w

/-- The next command to finalise: one that has ended and whose stopped work is over. [DESIGN CHOICE, log entry 13] -/
def readyEnd (w : Work) : Option Cmd :=
  w.cmds.find? fun c => c.endStatus.isSome && !(c.phase == .stopping && cmdBusy w c) &&
    !(match c.slice with
      | some s => (w.slice s).quiet
      | none => false)

/-- Finalise the commands that have ended, and no more. -/
def settleEnds (e : Block) : Nat → Work → Work
  | 0, w => w
  | fuel + 1, w =>
    match readyEnd w with
    | some c => settleEnds e fuel (finalize e c (c.endStatus.getD St.ok) w)
    | none => w

/-- Let what has been decided take effect, one command after another: endings first, then acquires, then waits. -/
def settle (e : Block) : Nat → Work → Work
  | 0, w => w
  | fuel + 1, w =>
    match readyEnd w with
    | some c => settle e fuel (finalize e c (c.endStatus.getD St.ok) w)
    | none =>
      match readyAcquire w with
      | some c => settle e fuel (grantAcquire c w)
      | none =>
        match readyWait w with
        | some c => settle e fuel (endWait c w)
        | none => w

/-- Enough turns for every command to be resolved and to end. -/
def settleFuel (w : Work) : Nat := 3 * w.cmds.length + 4

end Sys2Proof.Machine
end

