-- ==== Sys2Proof/Machine/Faults.lean ====
section
/-! DEFINITION. Faults: stopping a command's work, tearing a context down, capturing state, and revoking a PASID
(R557 to R564, R583 to R594). -/

namespace Sys2Proof.Machine

/-! ### Tiles and engine ports -/

/-- Change every tile. -/
def Work.mapTiles (w : Work) (f : Tile → Tile) : Work := { w with tiles := w.tiles.map f }

/-- The tile that runs on a port. -/
def runningTile (w : Work) (p : Nat) : Option Tile := w.tiles.find? fun t => t.port == p && t.state == .running

/-- The tile that is offered on a port. -/
def offeredTile (w : Work) (p : Nat) : Option Tile := w.tiles.find? fun t => t.port == p && t.state == .offered

/-- Whether two tiles are one. -/
def sameTile (a : Tile) (cmd index : Nat) : Bool := a.cmd == cmd && a.index == index

/-- Raise ENGn_KILL for the running tile (R90), whose operand delivery stops (R414) but for the beat that stands on ENGn_OPD (R50);
where a kill is in progress its reason becomes the later one, which does not replay. -/
def killPort (p : Nat) (why : KillWhy) (w : Work) : Work :=
  w.updPort p fun x => { x with kill := true, killWhy := some why, killFresh := x.killFresh || !x.kill, opd := x.opd.take 1 }

/-- Whether slot `k` feeds the same operand to every tile (R397). -/
def slotShared (c : Cmd) (k : Nat) : Bool := (execSlot c.bytes k).stride == 0

/-- A unit whose tile has gone: another tile of the port that shares its copy takes it over, or its output is discarded
(R392, R397). -/
def orphanUnit (w : Work) (u : LaneUnit) : LaneUnit :=
  let heir := w.tiles.find? fun x => x.cmd == u.cmd && x.port == u.port && x.state == .staging
  match w.cmd u.cmd, heir with
  | some c, some x => if slotShared c u.slot then { u with tile := x.index } else { u with discard := true }
  | _, _ => { u with discard := true }

/-- Discard the outputs of lanes that stage a tile which is no longer bound (R392). -/
def discardUnits (cmd index : Nat) (w : Work) : Work :=
  let lanes := w.pln.lanes.map fun p =>
    (p.1, p.2.map fun u => if u.cmd = cmd ∧ u.tile = index ∧ !u.discard then orphanUnit w u else u)
  { w with pln := { w.pln with lanes := lanes } }

/-- A tile of a command returns to ready: it is the last to have done so (R270). -/
def backToReady (cmd index : Nat) (w : Work) : Work :=
  { w.updCmd cmd (fun c => { c with readyAt := tblSet 0 c.readyAt index w.nextOrder }) with nextOrder := w.nextOrder + 1 }

/-- Unstage a tile that has not started (R270): its operands and reservations go, and it returns to ready. -/
def unstage (cmd index : Nat) (w : Work) : Work :=
  let keep := w.tiles.filter fun t => !(sameTile t cmd index && (t.state == .staging || t.state == .staged))
  discardUnits cmd index (backToReady cmd index { w with tiles := keep })

/-- Unstage every tile of a command that has not started. -/
def unstageCmd (id : Nat) (w : Work) : Work :=
  (w.tiles.filter fun t => t.cmd == id && (t.state == .staging || t.state == .staged)).foldl
    (fun w t => unstage t.cmd t.index w) w

/-- Raise a kill on every port that runs a tile of a command. -/
def killCmdTiles (id : Nat) (why : KillWhy) (w : Work) : Work :=
  (w.tiles.filter fun t => t.cmd == id && t.state == .running).foldl (fun w t => killPort t.port why w) w

/-- The image that a program leaves in its pages (R422). -/
def imageOf (w : Work) (p : Prog) : List KeptImage :=
  match w.cmd p.cmd with
  | some c => if p.loading then [] else
      [{ handle := BitVec.ofNat 32 (fieldAt c.bytes 24 4), offset := fieldAt c.bytes 28 4, len := fieldAt c.bytes 32 4,
         firstPage := p.firstPage, pages := p.pages }]
  | none => []

/-- Remove a program from its core (R437, R562): it stays listed as gone until its last access is answered. The core keeps
its image (R422), remembers its context (R565), and runs its next program (R429). -/
def removeProgram (pid : Nat) (w : Work) : Work :=
  match w.jnr.progs.find? fun p => p.pid == pid && !p.gone with
  | none => w
  | some x =>
    let busy := w.fab.reqs.any fun r => r.why == .program pid && r.answer.isNone && !r.dead
    let progs :=
      if busy then w.jnr.progs.map fun p => if p.pid = pid then { p with gone := true, current := false } else p
      else w.jnr.progs.filter fun p => !(p.pid == pid)
    let next := (progs.find? fun p => p.core == x.core && !p.gone && !p.suspect).map Prog.pid
    let progs := if x.current then progs.map fun p => if some p.pid = next then { p with current := true } else p else progs
    let cores := tblUpd {} w.jnr.cores x.core fun k =>
      { k with kept := k.kept ++ imageOf w x, left := k.left ++ [(x.slice, x.ctx, 2)] }
    { w with jnr := { w.jnr with progs := progs, cores := cores } }

/-- Remove the programs of a command. -/
def removeCmdPrograms (id : Nat) (w : Work) : Work :=
  (w.jnr.progs.filter fun p => p.cmd == id).foldl (fun w p => removeProgram p.pid w) w

/-- GRAPH_ID of a GRAPH_LOAD. -/
def loadId (c : Cmd) : Nat := fieldAt c.bytes 32 1

/-- Take a resident graph out. -/
def dropResident (s g : Nat) (w : Work) : Work :=
  w.updSlice s fun x => { x with graphs := x.graphs.filter fun r => !(r.gid == g) }

/-- A GRAPH_LOAD that fails while its packet is read: its GRAPH_ID stops being resident at once (R198). -/
def dropLoading (id : Nat) (w : Work) : Work :=
  match w.cmd id with
  | some c =>
    match c.slice with
    | some s => if c.op = some .graphLoad ∧ c.phase = .running ∧ c.endStatus.isNone then dropResident s (loadId c) w else w
    | none => w
  | none => w

/-- Stop a command's work (R560): kill, unstage, remove its program, give up a load. The copy engine issues nothing more for a
command that is stopping. -/
def stopWork (id : Nat) (why : KillWhy) (w : Work) : Work :=
  dropLoading id (removeCmdPrograms id (killCmdTiles id why (unstageCmd id w)))

/-- Whether a command's work has been stopped (R560, R562): what still comes for it is of no use. -/
def workStopped (w : Work) (c : Cmd) : Bool :=
  c.endStatus.isSome || c.phase == .stopping || c.slice.any fun s => (w.ctx s c.ctx).stopped

/-! ### Register values that a capture also holds (R296) -/

/-- PORT_STATE of R296. -/
def PortSt.code : PortSt → Nat
  | .absent => 0
  | .inService => 1
  | .softReset => 2
  | .hardReset => 3
  | .retired => 4

/-- QSTATE of R138. -/
def QState.code : QState → Nat
  | .absent => 0
  | .active => 1
  | .blocked => 2
  | .draining => 3
  | .halted => 4

/-- STATE of R116. -/
def SliceSt.code : SliceSt → Nat
  | .off => 0
  | .active => 1
  | .draining => 2
  | .frozen => 3
  | .fenced => 4

/-- Tiles staged on a port and not started. -/
def stagedTiles (w : Work) (p : Nat) : List Tile :=
  w.tiles.filter fun t => t.port == p && (t.state == .staged || t.state == .offered)

/-- ADM_PORT_STATE (R296). -/
def portStateWord (w : Work) (p : Nat) : Nat :=
  let x := w.port p
  let run := runningTile w p
  let cmd := run.bind fun t => w.cmd t.cmd
  (x.primary.getD 0) <<< 58 + (if x.primary.isSome then 1 else 0) <<< 57 +
  ((run.map fun t => t.tileId.toNat).getD 0) <<< 48 + ((cmd.bind Cmd.slice).getD 0) <<< 42 +
  ((cmd.map Cmd.ctx).getD 0) <<< 30 + ((cmd.map (effPriority w)).getD 0) <<< 27 + (if run.isSome then 1 else 0) <<< 26 +
  (if x.overrun then 1 else 0) <<< 25 + (if x.kill then 1 else 0) <<< 24 + x.state.code <<< 20 + x.kilnMib <<< 8 +
  min 255 (stagedTiles w p).length

/-! ### Capture (R583 to R590) -/

/-- Queues bound to the contexts that a capture concerns (R590). -/
def captureQueues (w : Work) (ev : Event) : List Nat :=
  let of (s c : Nat) : List Nat :=
    (w.queues.filter fun p => p.2.state != .absent && sliceOf p.1 == some s && p.2.desc.context == c).map Prod.fst
  let onPorts (ps : List Nat) : List Nat :=
    ((w.tiles.filter fun t => ps.contains t.port && (t.state == .running || t.state == .staged || t.state == .offered)).filterMap
        fun t => w.cmd t.cmd).flatMap fun c =>
      match c.slice with
      | some s => of s c.ctx
      | none => []
  let susp := ev.suspects.flatMap fun x => of x.1 x.2.1
  let main := match ev.concern with
    | .context s c => of s c
    | .portOnly p => onPorts [p]
    | .allPorts => onPorts (List.range 16)
    | .sliceAll s => (w.queues.filter fun p => p.2.state != .absent && sliceOf p.1 == some s).map Prod.fst
    | .cores => []
    | .link => []
    | .block => (w.queues.filter fun p => p.2.state != .absent && p.2.cached).map Prod.fst
  (main ++ susp).dedup.isort fun a b => a ≤ b

/-- A queue entry (R589). -/
def queueEntry (w : Work) (qk : Nat) : List Byte :=
  let q := w.queue qk
  leBytes 1 ((sliceOf qk).getD 0xFF) ++ leBytes 1 (qk % 64) ++ leBytes 1 (q.state.code + q.desc.priority * 16) ++
  leBytes 1 q.desc.cls ++ leBytes 2 q.desc.context ++ leBytes 2 (q.fetch - q.head).toNat ++ leBytes 4 q.fetch.toNat ++
  leBytes 4 q.head.toNat ++ leBytes 4 q.tail.toNat ++ leBytes 4 q.cqTail.toNat ++ leBytes 4 q.cqHead.toNat ++
  leBytes 2 q.held.length ++ leBytes 2 0

/-- Fences that pending entities of queues declare or wait on (R590). -/
def captureFences (w : Work) (qs : List Nat) : List (Nat × Nat) :=
  ((w.cmds.filter fun c => qs.contains c.qk).flatMap fun c =>
    match c.slice with
    | some s => ((if c.parent.isNone then declares w c else []) ++ (if c.fenceWaits then [cWaitFence c.bytes] else [])).map fun i => (s, i)
    | none => []).dedup.isort fun a b => a.1 < b.1 || (a.1 == b.1 && a.2 ≤ b.2)

/-- A fence entry (R589). -/
def fenceEntry (w : Work) (p : Nat × Nat) : List Byte :=
  let f := w.fence p.1 p.2
  let waits := (w.cmds.filter fun c => c.slice == some p.1 && c.fenceWaits && cWaitFence c.bytes == p.2).length
  let decl := ((entities w p.1).filter fun c => (declares w c).contains p.2).length
  leBytes 1 p.1 ++ leBytes 1 0 ++ leBytes 2 p.2 ++ leBytes 2 f.err.toNat ++ leBytes 2 (min 0xFFFF waits) ++
  leBytes 8 f.value.toNat ++ leBytes 8 f.errTop.toNat ++ leBytes 2 (min 0xFFFF decl) ++ leBytes 6 0

/-- Semaphores that contexts of queues hold or wait on (R590). -/
def captureSems (w : Work) (qs : List Nat) : List (Nat × Nat) :=
  let ctxs := (qs.filterMap fun qk => (sliceOf qk).map fun s => (s, (w.queue qk).desc.context)).dedup
  (ctxs.flatMap fun sc =>
    ((w.slice sc.1).sems.filter fun m => m.2.holders.any fun h => h.1 == sc.2).map (fun m => (sc.1, m.1)) ++
    ((w.cmds.filter fun c => c.acquiring && c.slice == some sc.1 && c.ctx == sc.2).map fun c => (sc.1, semIndex c.bytes))).dedup.isort
      fun a b => a.1 < b.1 || (a.1 == b.1 && a.2 ≤ b.2)

/-- A semaphore entry (R589). -/
def semEntry (w : Work) (p : Nat × Nat) : List Byte :=
  let m := w.sem p.1 p.2
  let waits := (w.cmds.filter fun c => c.acquiring && c.slice == some p.1 && semIndex c.bytes == p.2).length
  leBytes 1 p.1 ++ leBytes 1 (if m.abandoned then 1 else 0) ++ leBytes 2 p.2 ++ leBytes 4 m.cap.toNat ++ leBytes 4 m.held ++
  leBytes 2 waits ++ leBytes 1 m.holders.length ++ leBytes 1 0 ++
  bytesAt ((m.holders.take 4).flatMap fun h => leBytes 4 (h.1 % 4096 + min 0xFFFFF h.2 * 4096)) 0 16

/-- What a port's dequantizer delivers now (R589): the slot, and the elements of it that the engine has not accepted. -/
def opdLeft (x : Port) : Nat × Nat :=
  match x.opd with
  | [] => (0, 0)
  | o :: _ => (o.slot, ((x.opd.filter fun y => y.slot == o.slot && y.tileId == o.tileId).map OpdBeat.count).sum)

/-- A port entry (R589). ENGn_TS_READY is low while an offer stands, and at other times is the engine's: a free value. -/
def portEntry (e : Block) (w : Work) (p : Nat) : List Byte :=
  let x := w.port p
  let run := runningTile w p
  let cmd := run.bind fun t => w.cmd t.cmd
  let bit (b : Bool) (n : Nat) : Nat := if b then 2 ^ n else 0
  leBytes 8 (portStateWord w p) ++ leBytes 4 ((cmd.map fun c => c.sqIndex.toNat).getD 0) ++
  leBytes 2 ((cmd.map fun c => c.node.toNat).getD 0) ++ leBytes 1 ((cmd.map fun c => c.qk % 64).getD 0) ++
  leBytes 1 x.lastFlt.toNat ++ leBytes 4 ((run.map Tile.index).getD 0) ++
  leBytes 4 ((run.map fun t => min 0xFFFFFFFF (e.clk.cycle - t.startCycle)).getD 0) ++
  leBytes 1 (bit x.kill 0 + bit x.killAck 1 + bit x.srst 2 + bit x.srstAck 3 + bit x.hrstN 4 + bit x.idle 5 +
    bit (offeredTile w p).isSome 6 + bit ((offeredTile w p).isNone && Config.freeReady (w.fresh + p)) 7) ++
  leBytes 1 (opdLeft x).1 ++ leBytes 4 (opdLeft x).2 ++ leBytes 2 ((run.map fun t => min 0xFFFF t.beats).getD 0) ++ leBytes 32 0

/-- The programs on a core that are not removed. -/
def corePrograms (w : Work) (k : Nat) : List Prog := w.jnr.progs.filter fun p => p.core == k && !p.gone

/-- A core entry (R589): the machine trap cause and PC are not visible outside the core and are given as free values. -/
def coreEntry (w : Work) (n k : Nat) : List Byte :=
  let c := tblGet {} w.jnr.cores k
  let st := if !c.inService then 4 else if c.replay then 3 else if c.restarting then 2 else if c.up then 0 else 1
  leBytes 1 st ++ leBytes 1 (corePrograms w k).length ++ leBytes 2 0 ++
  (List.range 12).map (fun i => if c.up then 0 else Config.freeByte n (16 * k + i)) ++
  bytesAt (((corePrograms w k).take 8).flatMap fun p =>
    leBytes 4 (p.ctx + p.slice * 4096 + (if p.suspect then 2 ^ 18 else 0) + 2 ^ 31)) 0 32 ++ leBytes 16 0

/-- The ports that a capture concerns (R590). -/
def capturePorts (w : Work) (ev : Event) : List Nat :=
  match ev.concern with
  | .portOnly p => [p]
  | .allPorts => List.range 16
  | .block => List.range 16
  | .context s c =>
    (w.tiles.filter fun t => match w.cmd t.cmd with
      | some d => d.slice == some s && d.ctx == c
      | none => false).map Tile.port |>.dedup
  | _ => []

/-- Whether a capture fills the core section (R590). -/
def captureCores (ev : Event) : Bool := ev.concern == .cores || ev.domain == 3

/-- The ENTRY field of a capture (R588). -/
def entryWord (w : Work) (id : Option Nat) : BitVec 64 :=
  match id.bind w.cmd with
  | some c => BitVec.ofNat 64 (c.sqIndex.toNat + (c.qk % 64) * 2 ^ 32 + c.node.toNat * 2 ^ 48)
  | none => 0

/-- Take the snapshot of an event (R585, R588 to R590). -/
def snapshot (e : Block) (ev : Event) (seq : Nat) (late : Bool) (w : Work) : Snap :=
  let qs := captureQueues w ev
  let fs := captureFences w qs
  let ms := captureSems w qs
  let ps := capturePorts w ev
  let cs := if captureCores ev then List.range 32 else []
  { seq := seq, beat := e.clk.beat, timeNs := BitVec.ofNat 64 (timeNs e), trigger := ev.trigger, domain := ev.domain,
    index := ev.index, rung := ev.rung, slice := ev.slice, ctx := ev.ctx, entry := entryWord w ev.cmd,
    cycleMap := ev.cycleMap, added := 0, suspects := ev.suspects, late := late,
    ports := ps.foldl (fun m p => setBit m p) 0, cores := cs.foldl (fun m k => setBit m k) 0,
    queues := min 256 qs.length, fences := min 1024 fs.length, sems := min 512 ms.length,
    trunc := (if qs.length > 256 then 2 else 0) + (if fs.length > 1024 then 4 else 0) + (if ms.length > 512 then 8 else 0),
    body := ps.map (fun p => (256 + 64 * p, portEntry e w p)) ++ cs.map (fun k => (1280 + 64 * k, coreEntry w w.fresh k)) ++
      [(4096, (qs.take 256).flatMap (queueEntry w)), (12288, (fs.take 1024).flatMap (fenceEntry w)),
       (45056, (ms.take 512).flatMap (semEntry w))] }

/-- Whether capture is on and its ring has room (R586). -/
def Capture.open (c : Capture) : Bool := c.records != 0 && (c.tail - c.head).toNat < c.records

/-- An event takes a SEQ number and its snapshot, waits for the busy buffer, or is dropped (R584 to R586). -/
def captureEvent (e : Block) (ev : Event) (w : Work) : Work :=
  let seq := w.cap.seq + 1
  let w := w.updCap fun c => { c with seq := seq, taken := BitVec.ofNat 32 seq }
  if !w.cap.open then w.updCap fun c => { c with dropped := satInc c.dropped }
  else if w.cap.busy.isSome then
    w.updCap fun c => { c with waiting := c.waiting ++ [{ seq := seq, beat := e.clk.beat, timeNs := BitVec.ofNat 64 (timeNs e), event := ev }] }
  else
    let sn := snapshot e ev seq false w
    { w with fresh := w.fresh + 1 }.updCap fun c => { c with busy := some sn, written := false }

/-- A later fault or teardown of the event with a SEQ adds to its capture, until the record is written (R563, R584). -/
def captureAdd (seq : Nat) (w : Work) : Work :=
  w.updCap fun c => { c with
    busy := c.busy.map fun s => if s.seq = seq then { s with added := satInc s.added } else s
    waiting := c.waiting.map fun x => if x.seq = seq then { x with added := satInc x.added } else x }

/-- The ladder of an event has reached a rung (R588). -/
def captureRung (seq rung : Nat) (w : Work) : Work :=
  w.updCap fun c => { c with
    busy := c.busy.map fun s => if s.seq = seq then { s with rung := max s.rung rung } else s
    waiting := c.waiting.map fun x =>
      if x.seq = seq then { x with event := { x.event with rung := max x.event.rung rung } } else x }

/-- The event of a teardown takes the fault that sets its status (R594). -/
def captureCause (seq : Nat) (st : Status) (id : Nat) (w : Work) : Work :=
  let entry := entryWord w (some id)
  w.updCap fun c => { c with
    busy := c.busy.map fun s => if s.seq = seq then { s with trigger := st, entry := entry } else s
    waiting := c.waiting.map fun x =>
      if x.seq = seq then { x with event := { x.event with trigger := st, cmd := some id } } else x }

/-! ### Tearing a context down (R557 to R564, R340) -/

/-- A context of a command: its slice and number. -/
def Cmd.of (c : Cmd) (s ctx : Nat) : Bool := c.slice == some s && c.ctx == ctx

/-- Whether a teardown of a context runs. -/
def tearing (w : Work) (s c : Nat) : Bool := w.cap.teardowns.any fun t => t.slice == s && t.ctx == c

/-- Stop the work of every command of a context (R562 steps 1 to 4). -/
def stopContext (s c : Nat) (why : KillWhy) (w : Work) : Work :=
  let w := w.updCtx s c fun x => { x with stopped := true }
  (w.cmds.filter fun d => d.of s c).foldl (fun w d => stopWork d.id why w) w

/-- The SEQ of the capture that a teardown's event takes: a new one, or that of the event which causes it (R584). -/
def teardownEvent (e : Block) (covered : Option Nat) (ev : Event) (w : Work) : Work :=
  let w := match covered with
    | some q => captureAdd q w
    | none => captureEvent e ev w
  match ev.ctx with
  | some c => w.updCtx ev.slice c fun x => { x with event := covered.getD w.cap.seq }
  | none => w

/-- The place of a fault among those that name one context in one control cycle (R594): a port's come first, by number, then
the others by their order in R557. -/
def faultRank (port : Option Nat) (st : Status) : Nat :=
  match port with
  | some p => p
  | none =>
    if st = St.cmdTimeout then 16 else if st = St.dmaFault then 17 else if st = St.tidyFault then 18
    else if st = St.suspectConfirmed then 19 else if st = St.semLendExpired then 20 else 21

/-- Start the teardown of a context (R562): `covered` is the SEQ of an event already captured that causes it (R584). A fault that
names a context being torn down or KILLED, or one of a FENCED slice, changes nothing more and is counted (R563, R594).
[DESIGN CHOICE, log entry 5] -/
def startTeardown (e : Block) (s c : Nat) (st others : Status) (covered : Option Nat) (w : Work) : Work :=
  if (w.slice s).state == .off then w
  else if (w.slice s).state == .fenced then captureAdd (w.slice s).event w
  else if tearing w s c || (w.ctx s c).killed then captureAdd (w.ctx s c).event w
  else
    let w := stopContext s c .teardown w
    let w := w.updCap fun k => { k with teardowns := k.teardowns ++
      [{ slice := s, ctx := c, status := st, cmd := none, others := others, rank := some (faultRank none st) }] }
    teardownEvent e covered { trigger := st, slice := s, ctx := some c, concern := .context s c } w

/-- The bit of TEARDOWN_MASK that governs a fault's status (R559): none for a fault that always tears down. -/
def maskBit (st : Status) : Option Nat :=
  if st = St.cmdTimeout then some 0
  else if st = St.dmaFault then some 1
  else if st = St.tidyFault then some 2
  else none

/-- The command whose failure tears its context down is stopped (R560, R562): it ends with the teardown. -/
def failedBy (id : Nat) (st : Status) (w : Work) : Work :=
  let w := stopWork id .teardown w
  if (w.run id).isSome then w.updCmd id fun d => { d with timer := none }
  else w.updCmd id fun d => { d with phase := .stopping, badStatus := st, waiting := .none }

/-- A second fault names a context whose teardown has begun in the same control cycle (R594): where it comes before the first it
sets the status, and the first command ends with the context's others. -/
def outrank (t : Teardown) (id : Nat) (st : Status) (rank : Nat) (covered : Option Nat) (w : Work) : Work :=
  let w := w.updCap fun k => { k with teardowns := k.teardowns.map fun x =>
    if x.slice = t.slice ∧ x.ctx = t.ctx then { x with status := st, cmd := some id, others := St.ownerReset, rank := some rank } else x }
  let w := w.mapCmds fun d => if some d.id = t.cmd then { d with badStatus := 0 } else d
  let w := failedBy id st w
  match covered with
  | some q => captureAdd q (w.updCtx t.slice t.ctx fun x => { x with event := q })
  | none => captureCause (w.ctx t.slice t.ctx).event st id w

/-- A fault names a context that is being torn down or KILLED (R563, R594). -/
def laterFault (s c id : Nat) (st : Status) (rank : Nat) (covered : Option Nat) (w : Work) : Work :=
  match w.cap.teardowns.find? fun t => t.slice == s && t.ctx == c with
  | some t =>
    if t.rank.any fun r => decide (rank < r) then outrank t id st rank covered w else captureAdd (w.ctx s c).event w
  | none => captureAdd (w.ctx s c).event w

/-- A fault ends a command (R557 to R559): its work is stopped; where its context is torn down it ends with the teardown,
else once its work has ended. A command of the admin queue belongs to no context. `covered` is the SEQ of the event where it
has been captured (R584), `port` the engine port of a port's fault. -/
def faultWith (covered port : Option Nat) (e : Block) (id : Nat) (st : Status) (cycleMap : BitVec 64) (w : Work) : Work :=
  match w.cmd id with
  | none => w
  | some c =>
    match c.slice with
    | none =>
      if c.endStatus.isSome then w
      else (stopWork id .teardown w).updCmd id fun d => { d.endWith st with phase := .stopping }
    | some s =>
      if (w.slice s).state = .fenced ∧ c.endStatus.isSome then captureAdd (w.slice s).event w
      else if c.endStatus.isSome then (if (w.ctx s c.ctx).killed then captureAdd (w.ctx s c.ctx).event w else w)
      else
        let masked : Bool := match maskBit st with
          | some b => !(e.dct.teardownMask s).testBit b
          | none => false
        if st = St.pasidRevoked ∨ masked ∨ (w.slice s).state = .fenced then
          -- a run that ends with its entry ends by its nodes (R211, R195)
          let ids : List Nat := if (w.run id).isSome then
              (w.cmds.filter fun d => d.parent == some id && d.endStatus.isNone).map Cmd.id
            else [id]
          ids.foldl (fun (w : Work) i => (stopWork i .timeout w).updCmd i fun d =>
            { d.endWith st with phase := .stopping, waiting := .none }) (w.updCmd id fun d => { d with timer := none })
        else if tearing w s c.ctx ∨ (w.ctx s c.ctx).killed then laterFault s c.ctx id st (faultRank port st) covered w
        else
          let w := stopContext s c.ctx .teardown (failedBy id st w)
          let w := w.updCap fun k => { k with teardowns := k.teardowns ++
            [{ slice := s, ctx := c.ctx, status := st, cmd := some id, others := St.ownerReset, rank := some (faultRank port st) }] }
          teardownEvent e covered { trigger := st, slice := s, ctx := some c.ctx, cmd := some id, cycleMap := cycleMap,
                                    concern := .context s c.ctx } w

/-- A fault ends a command, and is captured. -/
def faultCmd (e : Block) (id : Nat) (st : Status) (cycleMap : BitVec 64) (w : Work) : Work := faultWith none none e id st cycleMap w

/-- Whether an entity has started (R340): it, or the entry of the run it belongs to, has been released; a chained
command whose head has been released has started. -/
def cmdStarted (w : Work) (c : Cmd) : Bool :=
  c.phase == .released || c.phase == .running || c.phase == .stopping || c.parent.isSome || (w.run c.id).isSome ||
    (c.chainPos.getD 0 != 0)

/-- Whether nothing of a context's commands is left running or unanswered (R562 step 5). -/
def contextQuiet (w : Work) (s c : Nat) : Bool := (w.cmds.filter fun d => d.of s c).all fun d => !cmdBusy w d

/-- Force-release a context's semaphore units (R340 step 2). -/
def forceRelease (s c : Nat) (w : Work) : Work :=
  ((w.slice s).sems.filter fun m => m.2.holders.any fun h => h.1 == c).foldl (fun w m =>
    w.updSem s m.1 fun x => { x.setHolding c 0 with abandoned := true }) w

/-- Remove watches with records of a status (R327, R331, R333, R340 step 3, R341, R497): a REMOTE one is dropped on its chip. -/
def dropWatches (e : Block) (s : Nat) (sel : Watch → Bool) (st : Status) (w : Work) : Work :=
  ((w.slice s).watches.filter sel).foldl (fun w x =>
    let v := if x.remote then 0 else (w.fence s x.fence).value
    let w := if x.remote then sendWatchDrop e x.chip s x.wid st w else w
    writeWatchRecord e s x st v (removeWatch s x.wid w)) w

/-- Whether a watch is one of another chip that this chip no longer reaches (R331). [DEDUCED, log entry 61] -/
def cutOff (e : Block) (x : Watch) : Bool := (x.forward || x.remote) && (!e.frm.joined || !reachable e x.chip)

/-- The FORWARD and REMOTE watches of a chip that the link has declared lost end with PEER_LOST (R331).
[DEDUCED, log entry 61] -/
def losePeers (e : Block) (w : Work) : Work :=
  (w.slices.map Prod.fst).foldl (fun w s => dropWatches e s (cutOff e) St.peerLost w) w

/-- Drain the queues bound to a context (R140). [DESIGN CHOICE, log entry 21] -/
def drainQueues (e : Block) (s c : Nat) (w : Work) : Work :=
  (w.queues.filter fun p => sliceOf p.1 == some s && p.2.desc.context == c &&
      (p.2.state == .active || p.2.state == .blocked || p.2.state == .halted)).foldl (fun w p =>
    drainCheck e p.1 (w.updQueue p.1 fun q => { q with state := .draining, drain := some q.tail, stDirty := true })) w

/-- Free the slot of a context without a save of its save area; bytes 0 to 31 of the record are written (R155, R562). For a
context whose record has not been read they hold what the block has counted itself. [DESIGN CHOICE, log entry 59] -/
def leaveSlot (e : Block) (s c : Nat) (w : Work) : Work :=
  match w.slotOf s c with
  | some k => freeSlot k (writeCtxValues e s c w)
  | none => w

/-- Complete a teardown (R562 step 5, R160, R340, R140): the commands of the context end, and their fences are marked, before
its units are released and its watches removed (R340, R342). [DESIGN CHOICE, log entry 26] -/
def completeTeardown (e : Block) (t : Teardown) (w : Work) : Work :=
  let s := t.slice
  let c := t.ctx
  let w : Work := match t.cmd with
    | some id =>
      let ids : List Nat := if (w.run id).isSome then
          (w.cmds.filter fun d => d.parent == some id && d.endStatus.isNone).map Cmd.id
        else [id]
      let w := ids.foldl (fun (w : Work) i => endCmd i t.status w) w
      settleEnds e (settleFuel w) w
    | none => w
  let w := (w.cmds.filter fun d => d.of s c && d.phase == .partBase && d.endStatus.isNone).foldl
    (fun w d => endPartBase St.contextKilled d w) w
  let w := w.mapCmds fun d =>
    if !d.of s c || d.endStatus.isSome || (w.run d.id).isSome then d
    else if d.phase == .stopping && d.badStatus != 0 then d
    else if cmdStarted w d then { d.endWith t.others with waiting := .none }
    else { d.endWith St.contextKilled with waiting := .none }
  let w := settleEnds e (settleFuel w) w
  let w := forceRelease s c w
  let w := w.later (.dropWatches s c t.others)
  let w := w.updCtx s c fun x => { x with killed := true, saved := false, last := t.status, known := true, stopped := false }
  let w := setCause s .contextKilled St.contextKilled w
  let w := leaveSlot e s c w
  let w := writeCtxEnd e s c w
  let w := drainQueues e s c w
  let w := w.updCap fun k => { k with teardowns := k.teardowns.filter fun x => !(x == t) }
  { w with lends := w.lends.filter fun l => !(l.slice == s && l.ctx == c) }

/-! ### Revoking a PASID (R591 to R593, R341) -/

/-- Error-mark every fence of a slice and end its watches (R341, R497): those that fire end with the status itself, a FORWARD
watch sends the mark first. A wait of another chip is answered by a WATCH_DROP with the status. -/
def markAllFences (e : Block) (s : Nat) (st : Status) (w : Work) : Work :=
  let w := (w.slice s).remoteWaits.foldl (fun w x => sendWatchDrop e x.src s x.wid st w) w
  let w := w.updSlice s fun x => { x with remoteWaits := [] }
  let w := dropWatches e s (fun x => !x.forward) st w
  let w := (List.range (w.slice s).fenceCount).foldl (fun w i => applyMark e s i st (some (BitVec.allOnes 64)) w) w
  dropWatches e s (fun _ => true) st w

/-- Revoke the PASID of a slice (R592): `cmd` is the PASID_REVOKE that asked for it, none for a response.
[DESIGN CHOICE, log entry 26] -/
def revokeSlice (e : Block) (s : Nat) (w : Work) : Work :=
  if (w.slice s).state == .off || (w.slice s).state == .fenced then w
  else
    let w := captureEvent e { trigger := St.pasidRevoked, domain := 5, index := s, slice := s, concern := .sliceAll s } w
    let w := w.updSlice s fun x => { x with
      state := .fenced, quiescent := false, event := w.cap.seq, hostLog := { x.hostLog with on := false }, devLog := { x.devLog with on := false } }
    let w := { w with fenced := setBit w.fenced s }
    let w := setCause s .fenced St.pasidRevoked w
    let w := w.raise (vecAdmin 4)
    let w := w.updFab (Fabric.dropUnsent s)
    let w := (w.cmds.filter fun c => c.slice == some s).foldl (fun w c => stopWork c.id .revoke w) w
    let torn (c : Cmd) : Bool := w.cap.teardowns.any fun t => t.slice == s && t.ctx == c.ctx
    let w := w.mapCmds fun c =>
      if c.slice = some s ∧ c.endStatus.isNone ∧ !torn c ∧ cmdStarted w c ∧ (w.run c.id).isNone then
        { c.endWith St.pasidRevoked with phase := .stopping, waiting := .none }
      else if c.slice.isNone && (c.op == some .sliceFreeze || c.op == some .sliceSave) && c.phase == .running &&
          bitsOf (fieldAt c.bytes 24 1) 5 0 == s then
        { c.endWith St.pasidRevoked with waiting := .none, phase := .stopping }
      else c
    let w := w.updSlice s fun x => { x with ctxs := x.ctxs.map fun p => (p.1, { p.2 with stopped := true }) }
    let w := (w.slots.filter fun p => p.2.slice == s && p.2.state != .free).foldl (fun w p => freeSlot p.1 w) w
    w.later (.markAll s St.pasidRevoked)

end Sys2Proof.Machine
end

