-- ==== Sys2Proof/Machine/NumFmt.lean ====
section
/-! DEFINITION. The Planer's numbers (R344 to R374, R406, R407): exact values, the formats that hold them, rounding toward
zero, rotation, and the parsing and writing of groups of 32 elements. -/

namespace Sys2Proof.Machine

/-! ### Exact values (R345) -/

/-- An exact value: `num` × 2^`exp`, divided by the square root of two where `root` says so, as only a rotation of 32 or
128 elements makes it (R370). [DEDUCED, log entry 22] -/
structure Val where
  num : Int
  exp : Int
  root : Bool
  deriving DecidableEq, Repr

/-- An element as a float format holds it: a finite value, a NaN, or an infinity by its sign. -/
inductive Elem where
  | fin (v : Val)
  | nan
  | inf (neg : Bool)
  deriving DecidableEq, Repr

/-- Zero. -/
def Val.zero : Val := { num := 0, exp := 0, root := false }

/-- A magnitude: `n` × 2^`e`. -/
structure Mag where
  n : Nat
  e : Int
  deriving DecidableEq, Repr

/-- Shift a natural number by a signed count, dropping what falls below one. -/
def shiftBy (n : Nat) (k : Int) : Nat := if 0 ≤ k then n <<< k.toNat else n >>> (-k).toNat

/-- The product of magnitudes. -/
def Mag.mul (a b : Mag) : Mag := { n := a.n * b.n, e := a.e + b.e }

/-- The square of a magnitude. -/
def Mag.sq (a : Mag) : Mag := a.mul a

/-- Whether one magnitude is at most another, exactly. -/
def Mag.le (a b : Mag) : Bool :=
  if b.e ≤ a.e then decide (a.n <<< (a.e - b.e).toNat ≤ b.n) else decide (a.n ≤ b.n <<< (b.e - a.e).toNat)

/-- The square of a value's magnitude, which is exact with or without the root. -/
def Val.sq (v : Val) : Mag := { n := v.num.natAbs * v.num.natAbs, e := 2 * v.exp - (if v.root then 1 else 0) }

/-- Whether a value's magnitude is at most `m`. -/
def Val.leMag (v : Val) (m : Mag) : Bool := v.sq.le m.sq

/-- The integer square root below 2^`bits`, one bit after another. -/
def isqrtFrom : Nat → Nat → Nat → Nat
  | 0, _, r => r
  | b + 1, n, r => isqrtFrom b n (if (r + 2 ^ b) * (r + 2 ^ b) ≤ n then r + 2 ^ b else r)

/-- The integer square root. -/
def isqrt (n : Nat) : Nat := isqrtFrom (Nat.log2 n / 2 + 1) n 0

/-- The magnitude of a value in units of 2^`q`, rounded down. -/
def Val.units (v : Val) (q : Int) : Nat :=
  if v.root then isqrt (shiftBy (v.num.natAbs * v.num.natAbs) (2 * (v.exp - q) - 1)) else shiftBy v.num.natAbs (v.exp - q)

/-- The exponent of the power of two at or below a value's magnitude; the value is not zero. -/
def Val.log2 (v : Val) : Int := ((Nat.log2 v.sq.n : Int) + v.sq.e) / 2

/-! ### Float formats -/

/-- A float format: exponent bits, fraction bits, bias, the code of its largest finite value. -/
structure Flt where
  ebits : Nat
  fbits : Nat
  bias : Nat
  top : Nat
  deriving DecidableEq, Repr

/-- BF16. -/
def fltBf16 : Flt := { ebits := 8, fbits := 7, bias := 127, top := 0x7F7F }
/-- FP32. -/
def fltFp32 : Flt := { ebits := 8, fbits := 23, bias := 127, top := 0x7F7FFFFF }
/-- FP8 E4M3. -/
def fltE4m3 : Flt := { ebits := 4, fbits := 3, bias := 7, top := 0x7E }
/-- FP8 E5M2. -/
def fltE5m2 : Flt := { ebits := 5, fbits := 2, bias := 15, top := 0x7B }

/-- The port format of OPD_FMT (R402). -/
def portFlt (opdFmt : Nat) : Flt := if opdFmt = 0 then fltBf16 else if opdFmt = 1 then fltE4m3 else fltE5m2

/-- The sign bit of a format. -/
def Flt.sign (f : Flt) : Nat := 2 ^ (f.ebits + f.fbits)

/-- The finite value of a code. -/
def Flt.value (f : Flt) (c : Nat) : Val :=
  let m := c % 2 ^ f.fbits
  let x := c / 2 ^ f.fbits % 2 ^ f.ebits
  let n : Int := if x = 0 then m else m + 2 ^ f.fbits
  { num := if c / f.sign % 2 = 1 then -n else n, exp := (if x = 0 then 1 else (x : Int)) - f.bias - f.fbits, root := false }

/-- An element of BF16 or FP32 bits. -/
def Flt.elem (f : Flt) (c : Nat) : Elem :=
  if c / 2 ^ f.fbits % 2 ^ f.ebits = 2 ^ f.ebits - 1 then
    if c % 2 ^ f.fbits = 0 then .inf (c / f.sign % 2 == 1) else .nan
  else .fin (f.value c)

/-- Round a value once toward zero (R345, R360): too large a value becomes the largest finite one, and a zero +0.
[DEDUCED, log entry 22] -/
def Flt.round (f : Flt) (v : Val) : Nat :=
  if v.num = 0 then 0
  else
    let emin : Int := 1 - f.bias
    let x := if v.log2 < emin then emin else v.log2
    let k := v.units (x - f.fbits)
    let code := if k < 2 ^ f.fbits then k else k + ((x + f.bias).toNat - 1) * 2 ^ f.fbits
    if code = 0 then 0 else (if v.num < 0 then f.sign else 0) + min code f.top

/-- The largest finite value of a format, with a sign (R363). -/
def Flt.largest (f : Flt) (neg : Bool) : Val :=
  let v := f.value f.top
  if neg then { v with num := -v.num } else v

/-! ### Codes (R353 to R357) -/

/-- TENSOR_SCALE as a magnitude. -/
def scaleMag (t : BitVec 32) : Mag :=
  let v := fltFp32.value t.toNat
  { n := v.num.natAbs, e := v.exp }

/-- Twice the values of the C4F codes 0 to 7. -/
def c4fTwice : List Nat := [0, 1, 2, 3, 4, 6, 8, 12]

/-- The element value of an integer code of `bits` bits in two's complement. -/
def twos (bits c : Nat) : Int := if c < 2 ^ (bits - 1) then c else (c : Int) - 2 ^ bits

/-- The element value of a code of a normal group, as a value (R353 to R356). -/
def codeValue (fmt : Nat) (book : List (BitVec 16)) (c : Nat) : Val :=
  match fmt with
  | 1 => let n : Int := c4fTwice.getD (c % 8) 0
         { num := if c ≥ 8 then -n else n, exp := -1, root := false }
  | 2 => { num := twos 4 c, exp := 0, root := false }
  | 5 => { num := if c = 1 then 1 else if c = 2 then -1 else 0, exp := 0, root := false }
  | _ => fltBf16.value (book.getD c 0).toNat

/-- Whether a format's escape groups are C8F (else C8I). -/
def escF (fmt : Nat) : Bool := fmt == 1 || fmt == 3 || fmt == 4

/-- The element of an escape code (R357). -/
def escElem (fmt c : Nat) : Elem :=
  if escF fmt then if c % 128 = 127 then .nan else .fin (fltE4m3.value c)
  else .fin { num := twos 8 c, exp := 0, root := false }

/-- The value of an element: its code's value × 2^(E - 127) × T (R344). -/
def scaled (e : Nat) (t : Mag) (v : Val) : Val :=
  { v with num := v.num * t.n, exp := v.exp + t.e + (e : Int) - 127 }

/-- The 32 codes of a normal group's payload (R353, R355, R356). -/
def payloadCodes (fmt : Nat) (p : List Byte) : List Nat :=
  let w := leNat p
  match fmt with
  | 3 => (List.range 32).map fun i => w / 8 ^ i % 8
  | 4 => (List.range 32).map fun i => w / 4 ^ i % 4
  | 5 => (List.range 32).map fun i => (p.getD (i / 5) 0).toNat / 3 ^ (i % 5) % 3
  | _ => (List.range 32).map fun i => w / 16 ^ i % 16

/-- Whether a payload is well formed (R356, R359). -/
def payloadOk (fmt : Nat) (p : List Byte) : Bool :=
  fmt != 5 || (p.all (fun b => b.toNat ≤ 242) && decide ((p.getD 6 0).toNat ≤ 8))

/-- The elements of a group as the Kiln holds it (R344, R347, R351). -/
def groupElems (fmt : Nat) (t : BitVec 32) (book : List (BitVec 16)) (g : List Byte) : List Elem :=
  let m := scaleMag t
  let h := (g.getD 0 0).toNat
  if h = 0xFF then
    (List.range 32).map fun i =>
      match escElem fmt (g.getD (2 + i) 0).toNat with
      | .fin v => .fin (scaled (g.getD 1 0).toNat m v)
      | x => x
  else (payloadCodes fmt (g.drop 1)).map fun c => .fin (scaled h m (codeValue fmt book c))

/-- Split groups that lie back to back (R351). -/
def splitGroups (fmt : Nat) : Nat → List Byte → List (List Byte)
  | 0, _ => []
  | n + 1, b =>
    let k := if b.getD 0 0 = 0xFF then 34 else groupBytes fmt
    b.take k :: splitGroups fmt n (b.drop k)

/-! ### Lines (R346 to R348, R359) -/

/-- What a parse of lines gives: groups found, or the failure of R359. -/
structure Parsed where
  groups : List (List Byte)
  bad : Bool
  deriving DecidableEq, Repr

/-- Parse the groups of one line, at most `left` of them (R347, R348). -/
def parseLine (fmt : Nat) : Nat → Nat → List Byte → Parsed
  | 0, _, _ => { groups := [], bad := false }
  | _, 0, _ => { groups := [], bad := false }
  | fuel + 1, left + 1, b =>
    match b with
    | [] => { groups := [], bad := false }
    | h :: rest =>
      if h = 0xFE then { groups := [], bad := rest.any fun x => x != 0xFE }
      else
        let k := if h = 0xFF then 34 else groupBytes fmt
        let ok : Bool := if h = 0xFF then (rest.getD 0 0).toNat ≤ 0xFD else payloadOk fmt (rest.take (k - 1))
        if b.length < k || !ok then { groups := [], bad := true }
        else
          let r := parseLine fmt fuel left (b.drop k)
          { r with groups := b.take k :: r.groups }

/-- Parse whole lines in order until `left` groups are found (R388): the groups, the groups still to find. -/
def parseLines (fmt : Nat) : Nat → Nat → List Byte → Parsed × Nat
  | 0, left, _ => ({ groups := [], bad := false }, left)
  | n + 1, left, b =>
    if left = 0 then ({ groups := [], bad := false }, 0)
    else
      let p := parseLine fmt 64 left (b.take 256)
      if p.bad then (p, left)
      else
        let r := parseLines fmt n (left - p.groups.length) (b.drop 256)
        ({ r.1 with groups := p.groups ++ r.1.groups }, r.2)

/-! ### Rotation (R370, R371) -/

/-- Bit `j` of the sign pattern: the state of the shift register after each step. -/
def signPattern : Nat → Nat → List Bool
  | 0, _ => []
  | n + 1, s => (s % 2 == 1) :: signPattern n ((s * 2 + (if s.testBit 6 != s.testBit 5 then 1 else 0)) % 128)

/-- Whether d_j is -1. -/
def signNeg : List Bool := signPattern 128 1

/-- Whether h(i, j) is -1: the parity of the bits that i and j share. -/
def hadNeg (i j : Nat) : Bool := (List.range 7).foldl (fun p k => p != (i.testBit k && j.testBit k)) false

/-- An Int negated on a condition. -/
def negIf (b : Bool) (x : Int) : Int := if b then -x else x

/-- The smallest exponent of values. -/
def minExp (xs : List Val) : Int :=
  match xs with
  | [] => 0
  | x :: r => r.foldl (fun m v => min m v.exp) x.exp

/-- Rotate one block of n values (R371): forward, or inverse. -/
def rotateBlock (inverse : Bool) (xs : List Val) : List Val :=
  let n := xs.length
  let e := minExp xs
  let ns := xs.map fun v => v.num * 2 ^ (v.exp - e).toNat
  let idx := List.range n
  (idx.map fun i =>
    let s := ((idx.zip ns).map fun p =>
      if inverse then negIf (hadNeg p.1 i) p.2 else negIf (hadNeg i p.1 != signNeg.getD p.1 false) p.2).foldl (· + ·) 0
    let s := if inverse then negIf (signNeg.getD i false) s else s
    { num := s, exp := e - (if n = 32 then 2 else 3), root := n != 64 })

/-- Rotate consecutive blocks of `n` values. [DEDUCED, log entry 22] -/
def rotateAll (inverse : Bool) (n : Nat) : Nat → List Val → List Val
  | 0, xs => xs
  | fuel + 1, xs => if xs.isEmpty then [] else rotateBlock inverse (xs.take n) ++ rotateAll inverse n fuel (xs.drop n)

/-! ### Delivery (R360 to R363, R373) -/

/-- Scrub and saturate towards a destination (R362, R363). -/
def scrub (f : Flt) : Elem → Val
  | .fin v => v
  | .nan => Val.zero
  | .inf neg => f.largest neg

/-- NaNs among elements. -/
def nanCount (xs : List Elem) : Nat := (xs.filter fun x => x == .nan).length

/-- Infinities among elements. -/
def infCount (xs : List Elem) : Nat := (xs.filter fun x => x == .inf true || x == .inf false).length

/-- Deliver elements in a port format, rotated as a slot asks (R360, R361, R373). -/
def deliver (f : Flt) (rot rotSize : Nat) (xs : List Elem) : List Nat :=
  let vs := xs.map (scrub f)
  let vs := if rot = 0 then vs else rotateAll (rot == 2) (rotElems rotSize) (vs.length + 1) vs
  vs.map f.round

/-- The elements that a staged operand of a code format, BF16 or FP32 holds. -/
def operandElems (o : Obj) (n : Nat) (b : List Byte) : List Elem :=
  if isCode o.fmt then (splitGroups o.fmt (n / 32) b).flatMap (groupElems o.fmt o.scale o.book)
  else if o.fmt = 6 then (List.range n).map fun i => fltBf16.elem (fieldAt b (2 * i) 2)
  else (List.range n).map fun i => fltFp32.elem (fieldAt b (4 * i) 4)

/-! ### Requantization (R365, R366, R407) -/

/-- The codes of a format with the magnitudes they may be written with, for values of a sign, in code order. -/
def writable (fmt : Nat) (esc : Bool) (book : List (BitVec 16)) (neg : Bool) : List (Nat × Mag) :=
  if esc then
    if escF fmt then (List.range 127).map fun c =>
      let v := fltE4m3.value c
      (if neg && c != 0 then c + 128 else c, { n := v.num.natAbs, e := v.exp })
    else (List.range 128).map fun c => (if neg && c != 0 then 256 - c else c, { n := c, e := 0 })
  else match fmt with
    | 1 => (List.range 8).map fun c => (if neg && c != 0 then c + 8 else c, { n := c4fTwice.getD c 0, e := -1 })
    | 2 => (List.range 8).map fun c => (if neg && c != 0 then 16 - c else c, { n := c, e := 0 })
    | 5 => [(0, { n := 0, e := 0 }), (if neg then 2 else 1, { n := 1, e := 0 })]
    | _ => ((List.range book.length).map fun c => (c, fltBf16.value (book.getD c 0).toNat)).filterMap fun p =>
        if p.2.num = 0 ∨ (decide (p.2.num < 0)) = neg then some (p.1, { n := p.2.num.natAbs, e := p.2.exp }) else none

/-- The bound b of a format for a sign: its largest writable magnitude. -/
def boundOf (cs : List (Nat × Mag)) : Mag :=
  cs.foldl (fun m c => if c.2.le m then m else c.2) { n := 0, e := 0 }

/-- 2^(E - 127) × T as a magnitude. -/
def unitMag (e : Nat) (t : Mag) : Mag := { t with e := t.e + (e : Int) - 127 }

/-- The code of a value (R365): the largest writable magnitude at or below it, the lowest code among equals. -/
def codeOf (cs : List (Nat × Mag)) (u : Mag) (v : Val) : Nat :=
  let ok := cs.filter fun c => (c.2.mul u).sq.le v.sq
  ((ok.foldl (fun (best : Option (Nat × Mag)) c =>
    match best with
    | none => some c
    | some b => if c.2.le b.2 then some b else some c) none).map Prod.fst).getD 0

/-- The smallest e at or above `e` with |x| ≤ b × T × 2^(e - 127), within a few steps. -/
def climb (v : Val) (bt : Mag) : Nat → Int → Int
  | 0, e => e
  | n + 1, e => if v.leMag { bt with e := bt.e + e - 127 } then e else climb v bt n (e + 1)

/-- The smallest integer e with |x| ≤ b × T × 2^(e - 127), where x and b are not zero. -/
def leastScale (v : Val) (bt : Mag) : Int :=
  climb v bt 4 ((v.log2 - ((Nat.log2 bt.n : Int) + bt.e)) + 126)

/-- An integer brought into 0 to 253. -/
def clampScale (e : Int) : Nat := if e < 0 then 0 else min 253 e.toNat

/-- A group after R406: what the Planer writes, and what it counts. -/
structure Written where
  bytes : List Byte
  clipped : Nat
  escaped : Bool
  denied : Bool
  deriving DecidableEq, Repr

/-- The payload of codes (R353, R355, R356). -/
def payloadOf (fmt : Nat) (cs : List Nat) : List Byte :=
  match fmt with
  | 3 => leBytes 12 (cs.foldr (fun c m => c + 8 * m) 0)
  | 4 => leBytes 8 (cs.foldr (fun c m => c + 4 * m) 0)
  | 5 => (List.range 7).map fun k => BitVec.ofNat 8 (((cs.drop (5 * k)).take 5).foldr (fun c m => c + 3 * m) 0)
  | _ => leBytes 16 (cs.foldr (fun c m => c + 16 * m) 0)

/-- The code of one element after scrubbing: an infinity takes the code of the bound (R363). -/
def elemCode (pos neg : List (Nat × Mag)) (u : Mag) : Elem → Nat
  | .fin v => codeOf (if v.num < 0 then neg else pos) u v
  | .inf s => codeOf (if s then neg else pos) { n := 1, e := 0 }
      { num := (boundOf (if s then neg else pos)).n, exp := (boundOf (if s then neg else pos)).e, root := false }
  | .nan => codeOf pos u Val.zero

/-- The finite, non-zero values of a group. -/
def finiteVals (xs : List Elem) : List Val :=
  xs.filterMap fun x => match x with
    | .fin v => if v.num = 0 then none else some v
    | _ => none

/-- Write one group of 32 elements (R407): `fits` says whether an escape group fits (R408). [DEDUCED, log entry 22] -/
def writeGroup (fmt : Nat) (t : BitVec 32) (book : List (BitVec 16)) (rank escClip : Nat) (fits : Bool) (xs : List Elem) : Written :=
  let tm := scaleMag t
  let pos := writable fmt false book false
  let neg := writable fmt false book true
  let bnd (v : Val) : Mag := boundOf (if v.num < 0 then neg else pos)
  let vs := finiteVals xs
  let barred := (vs.filter fun v => (bnd v).n == 0).length
  let loads := (vs.filter fun v => (bnd v).n != 0).map fun v => leastScale v ((bnd v).mul tm)
  let sorted := loads.isort fun a b => b ≤ a
  let e := if loads.isEmpty then 0 else clampScale (sorted.getD (min rank loads.length - 1) 0)
  let beyond := (vs.filter fun v => (bnd v).n != 0 && !v.leMag ((bnd v).mul (unitMag e tm))).length
  if escClip < barred + beyond && fits then
    let be : Mag := if escF fmt then { n := 448, e := 0 } else { n := 127, e := 0 }
    let ee := clampScale (vs.foldl (fun m v => max m (leastScale v (be.mul tm))) 0)
    let u := unitMag ee tm
    { bytes := BitVec.ofNat 8 0xFF :: BitVec.ofNat 8 ee ::
        xs.map (fun x => BitVec.ofNat 8 (elemCode (writable fmt true book false) (writable fmt true book true) u x)),
      clipped := (vs.filter fun v => !v.leMag (be.mul u)).length, escaped := true, denied := false }
  else
    { bytes := BitVec.ofNat 8 e :: payloadOf fmt (xs.map (elemCode pos neg (unitMag e tm))),
      clipped := barred + beyond, escaped := false, denied := decide (escClip < barred + beyond) }

/-- The bits of an element that a FORMAT BF16 or FP32 object receives (R367). [DEDUCED, log entry 22] -/
def convertElem (toFp32 : Bool) (resBf16 : Bool) (bits : Nat) : Nat :=
  let src := if resBf16 then fltBf16 else fltFp32
  let dst := if toFp32 then fltFp32 else fltBf16
  match src.elem bits with
  | .nan => 0
  | .inf neg => (if neg then dst.sign else 0) + dst.top
  | .fin v => if toFp32 then (if resBf16 then bits * 65536 else bits) else dst.round v

end Sys2Proof.Machine
end

