-- ==== Sys2Proof/Machine/Rosrek.lean ====
section
/-! DEFINITION. The Rosrek container (R375 to R384): its checks, its canonical codes, and the decoding of a block. -/

namespace Sys2Proof.Machine

/-! ### Header and index (R376, R379, R382) -/

/-- TABLE_COUNT. -/
def rTables (h : List Byte) : Nat := fieldAt h 5 1
/-- BLOCK_COUNT. -/
def rBlocks (h : List Byte) : Nat := fieldAt h 8 4
/-- TABLES_OFFSET. -/
def rTablesAt (h : List Byte) : Nat := fieldAt h 16 8
/-- INDEX_OFFSET. -/
def rIndexAt (h : List Byte) : Nat := fieldAt h 24 8

/-- Whether a header is well formed for a code stream of `codeLen` bytes in a container of `size` bytes (R376, R382). -/
def headerFits (h : List Byte) (codeLen size : Nat) : Bool :=
  fieldAt h 0 4 == 0x4B525352 && fieldAt h 4 1 == 0x10 && 1 ≤ rTables h && rTables h ≤ 16 && zeros h 6 2 &&
  codeLen == rBlocks h * 4096 && zeros h 12 4 && rTablesAt h % 64 == 0 && rIndexAt h % 64 == 0 && zeros h 32 32 &&
  rTablesAt h + 128 * rTables h ≤ size && rIndexAt h + 8 * rBlocks h ≤ size

/-- DATA_OFFSET of an index entry. -/
def iOffset (x : Nat) : Nat := bitsOf x 39 0
/-- LENGTH. -/
def iLength (x : Nat) : Nat := bitsOf x 51 40
/-- TABLE. -/
def iTable (x : Nat) : Nat := bitsOf x 55 52
/-- CODED. -/
def iCoded (x : Nat) : Bool := x.testBit 56

/-- The bytes that a block's data takes (R380). -/
def iBytes (x : Nat) : Nat := if iCoded x then iLength x else 4096

/-- Whether an index entry is well formed (R379, R382). -/
def entryFits (x tables size : Nat) : Bool :=
  bitsOf x 63 57 == 0 && iOffset x % 32 == 0 &&
  (if iCoded x then 544 ≤ iLength x && iLength x ≤ 3840 && iTable x < tables else iLength x == 0 && iTable x == 0) &&
  iOffset x + iBytes x ≤ size

/-! ### Code tables (R377, R378) -/

/-- The code lengths of the 256 symbols of a table. -/
def codeLengths (t : List Byte) : List Nat :=
  (List.range 256).map fun s => let b := (t.getD (s / 2) 0).toNat; if s % 2 = 0 then b % 16 else b / 16

/-- Whether a table is well formed (R377). -/
def tableFits (t : List Byte) : Bool :=
  let ls := codeLengths t
  ls.all (fun l => l ≤ 12) && ls.any (fun l => l != 0) &&
    ((ls.filter fun l => l != 0).map fun l => 2 ^ (12 - l)).sum ≤ 4096

/-- The symbols of a table by length, each length's symbols in ascending order (R378): entry `l` for length `l`. -/
def symbolsBy (t : List Byte) : List (List Nat) :=
  let ls := codeLengths t
  (List.range 13).map fun l => (List.range 256).filter fun s => l != 0 && ls.getD s 0 == l

/-! ### Decoding (R380, R381, R384) -/

/-- The bits of a stave, most significant bit of each byte first (R381). -/
def staveBits (b : List Byte) : List Bool := b.flatMap fun x => (List.range 8).map fun i => x.getLsbD (7 - i)

/-- Decode one symbol (R384): `code` and `first` at the current length, the symbols of this and longer lengths. -/
def decodeSymbol (code first : Nat) : List (List Nat) → List Bool → Option (Nat × List Bool)
  | [], _ => none
  | _, [] => none
  | syms :: longer, b :: bs =>
    let code := 2 * code + (if b then 1 else 0)
    match syms[code - first]? with
    | some s => if first ≤ code then some (s, bs) else none
    | none => decodeSymbol code (2 * (first + syms.length)) longer bs

/-- Decode `n` symbols of a stave. -/
def decodeStave (by1 : List (List Nat)) : Nat → List Bool → Option (List Nat × List Bool)
  | 0, bs => some ([], bs)
  | n + 1, bs =>
    match decodeSymbol 0 0 by1 bs with
    | none => none
    | some (s, rest) => (decodeStave by1 n rest).map fun r => (s :: r.1, r.2)

/-- Decode staves one after another, each of 256 symbols, from their lengths. -/
def decodeStaves (by1 : List (List Nat)) : List Nat → List Byte → Option (List Byte)
  | [], _ => some []
  | n :: ns, b =>
    match decodeStave by1 256 (staveBits (b.take n)) with
    | none => none
    | some (ss, rest) =>
      if b.length < n || 8 ≤ rest.length || rest.any id then none
      else (decodeStaves by1 ns (b.drop n)).map fun r => ss.map (BitVec.ofNat 8) ++ r

/-- Decode a coded block of LENGTH bytes with a table (R380, R384): none where it is ill-formed. -/
def decodeBlock (t : List Byte) (len : Nat) (b : List Byte) : Option (List Byte) :=
  let sls := (List.range 16).map fun k => fieldAt b (2 * k) 2
  if 32 + sls.sum != len then none else decodeStaves ((symbolsBy t).drop 1) sls (b.drop 32)

end Sys2Proof.Machine
end

