-- ==== Sys2Proof/Machine/Kiln.lean ====
section
/-! DEFINITION. The Kiln and the expander: reservations of pages (R394 to R397), the units that lanes take, read and write
(R386 to R392), and the failures of staging (R359, R382, R387, R395). -/

namespace Sys2Proof.Machine

/-! ### Objects and requests -/

/-- A request on bytes of a plain object (R69, R218): device bytes of the object's chip, or host bytes. -/
def objReq (e : Block) (o : Obj) (op : MemOp) (off len : Nat) (data : List Byte) (why : Purpose) : Req :=
  newReq op o.dev (if o.dev then devAddr (if o.remote then o.chip else ownChip e) (o.base + off) else o.base + off) len data why

/-- The address of byte `off` of a stream's page space, where `entry` is the entry of its page in the list region (R246). -/
def pageAddr (e : Block) (entry off : Nat) : Nat := devAddr (ownChip e) (entry / 65536 * 65536 + off % 65536)

/-- A write to bytes of an object's code stream that lie in one page of a stream (R246).
[DESIGN CHOICE, log entry 33] -/
def streamReq (e : Block) (o : Obj) (op : MemOp) (off len : Nat) (data : List Byte) (why : Purpose) : Req :=
  if o.stream then
    newReq op true (pageAddr e (o.pages.getD (off / 65536) 0) off) len data why
  else objReq e o op off len data why

/-- Whether the memory level holds a slice's requests back (R267). -/
def memShut (e : Block) (w : Work) (s : Nat) : Bool := levelShut (e.dct.memLimit s) (w.slice s).lvlMem

/-- Whether the Planer level holds a slice's staging back (R267). -/
def planerShut (e : Block) (w : Work) (s : Nat) : Bool := levelShut (e.dct.planerLimit s) (w.slice s).lvlPlaner

/-- The fence update of a command's last write (R73, R74): none where SIGNAL is 0. [DEDUCED, log entry 14] -/
def fenceUpd (e : Block) (w : Work) (c : Cmd) : Option FenceUpd :=
  (sigOf w c).map fun p => { chip := BitVec.ofNat 6 (ownChip e), slice := p.1, fence := p.2, value := cSigValue c.bytes }

/-- The mark that a command has sent its last write as a signalled write, in `auxNat` (R42, R182). -/
abbrev sigSent : Nat := 1

/-- The object of operand slot `k` of an EXEC. -/
def slotObj (w : Work) (c : Cmd) (k : Nat) : Obj := w.obj (hIndex (execSlot c.bytes k).handle)

/-- Where a tile's operand in slot `k` starts in its code stream (R179). -/
def slotStart (c : Cmd) (t k : Nat) : Nat := ((execSlot c.bytes k).offset + t * (execSlot c.bytes k).stride) * 256

/-- What a slot stages in all: groups of a code format, else bytes (R350, R394). -/
def slotWants (o : Obj) (opdFmt n : Nat) : Nat := if isCode o.fmt then n / 32 else operandBytes o opdFmt n

/-! ### Pages (R393 to R397) -/

/-- The tiles bound to a port. -/
def tilesOn (w : Work) (p : Nat) : List Tile := w.tiles.filter fun t => t.port == p

/-- Pages of a tile's result area. -/
def resPages (c : Cmd) : Nat := toPages (resultKib c.bytes * 1024)

/-- The pages that a tile's slots reserve, those of shared copies apart. -/
def privatePages (c : Cmd) (t : Tile) : Nat :=
  (t.slots.zipIdx.map fun p => if slotShared c p.2 then 0 else p.1.pages).sum

/-- A tile's footprint with its extensions (R394, R395). -/
def tilePages (c : Cmd) (t : Tile) : Nat := (t.slots.map SlotData.pages).sum + resPages c

/-- The shared copies on a port: command, slot, pages (R397). -/
def sharedCopies (w : Work) (p : Nat) : List (Nat × Nat × Nat) :=
  ((tilesOn w p).flatMap fun t =>
    match w.cmd t.cmd with
    | none => []
    | some c => (t.slots.zipIdx.filter fun q => slotShared c q.2 && q.1.pages != 0).map fun q => (t.cmd, q.2, q.1.pages)).dedup

/-- Pages reserved on a port. -/
def usedPages (w : Work) (p : Nat) : Nat :=
  ((tilesOn w p).map fun t => match w.cmd t.cmd with
    | none => 0
    | some c => resPages c + privatePages c t).sum + ((sharedCopies w p).map fun x => x.2.2).sum

/-- Pages of a port's allocation that nothing reserves. -/
def freePages (w : Work) (p : Nat) : Nat := (w.port p).pages - usedPages w p

/-- The effective priority of a tile (R274). -/
def tilePriority (w : Work) (t : Tile) : Nat := ((w.cmd t.cmd).map (effPriority w)).getD 0

/-- The tiles that a tile of priority `prio` may unstage on a port, newest first (R270). -/
def victims (w : Work) (p prio : Nat) : List Tile :=
  ((tilesOn w p).filter fun t => (t.state == .staging || t.state == .staged) && tilePriority w t < prio).reverse

/-- Free `need` pages on a port by unstaging tiles in order; none where that would not suffice (R270, R395). -/
def makeRoom (p need : Nat) : List Tile → Work → Option Work
  | [], w => if need ≤ freePages w p then some w else none
  | t :: ts, w => if need ≤ freePages w p then some w else makeRoom p need ts (unstage t.cmd t.index w)

/-! ### Failures of staging -/

/-- Take back the offers of a command's tiles: none of them starts (R359). -/
def withdrawCmd (id : Nat) (w : Work) : Work :=
  { w with tiles := w.tiles.filter fun t => !(t.cmd == id && t.state == .offered) }

/-- A command ends with a status that staging has met (R359, R382, R387, R395): its tiles that have not started do not start
and are unstaged, and those that have started run on and commit. [DEDUCED, log entry 23] -/
def failExec (id : Nat) (st : Status) (w : Work) : Work :=
  match w.cmd id with
  | some c => if c.endStatus.isSome then w
      else (withdrawCmd id (unstageCmd id w)).updCmd id fun d => { d.endWith st with phase := .stopping, waiting := .none }
  | none => w

/-! ### Lanes -/

/-- The unit on a lane. -/
def laneUnit (w : Work) (l : Nat) : Option LaneUnit := tblGet none w.pln.lanes l

/-- Put a unit on a lane, or take it off. -/
def setLane (w : Work) (l : Nat) (u : Option LaneUnit) : Work :=
  { w with pln := { w.pln with lanes := tblSet none w.pln.lanes l u } }

/-- The request of a lane. -/
def laneReq (w : Work) (l : Nat) : Option Req := w.fab.reqs.find? fun r => r.why == .lane l && !r.dead

/-- A lane gives its unit up. -/
def freeLane (l : Nat) (w : Work) : Work :=
  let w := match laneReq w l with
    | some r => if r.answer.isSome then w.dropReq r.tag else w
    | none => w
  setLane w l none

/-- A unit fails: where its output is discarded anyway, nothing more comes of it. -/
def laneFail (l : Nat) (st : Status) (w : Work) : Work :=
  match laneUnit w l with
  | none => w
  | some u => if u.discard then freeLane l w else failExec u.cmd st (freeLane l w)

/-- A read of a lane, charged to its slice (R266). -/
def laneRead (e : Block) (c : Cmd) (r : Req) (w : Work) : Work :=
  match c.slice with
  | some s => chargeBytes e s r.len (issue e (some s) r w)
  | none => w

/-- The 64-byte header of a container that a command has checked (R383). -/
def headerOf (w : Work) (id obj : Nat) : Option (List Byte) :=
  (w.pln.headers.find? fun h => h.1 == id && h.2.1 == obj).map fun h => h.2.2

/-- A lane's unit moves to a stage and reads `len` bytes of its container. -/
def laneStage (e : Block) (l : Nat) (u : LaneUnit) (c : Cmd) (o : Obj) (st : LaneStage) (off len : Nat) (w : Work) : Work :=
  laneRead e c (objReq e o .read off len [] (.lane l)) (setLane w l (some { u with stage := st, len := len }))

/-- A block of a container begins: its index entry is read (R379). -/
def beginBlock (e : Block) (l : Nat) (u : LaneUnit) (c : Cmd) (o : Obj) (h : List Byte) (w : Work) : Work :=
  laneStage e l u c o .index (rIndexAt h + 8 * (u.pos / 4096)) 8 w

/-- The handle under which the table cache knows a unit's object. -/
def unitHandle (c : Cmd) (u : LaneUnit) : Nat := (execSlot c.bytes u.slot).handle

/-- A code table in the cache (R391). -/
def cachedTable (w : Work) (h n : Nat) : Option (List Byte) :=
  (w.pln.tables.find? fun t => t.1 == h && t.2.1 == n).map fun t => t.2.2

/-- A table is used, or loaded: it becomes the most recent of 64 (R391). -/
def touchTable (h n : Nat) (b : List Byte) (w : Work) : Work :=
  let rest := w.pln.tables.filter fun t => !(t.1 == h && t.2.1 == n)
  { w with pln := { w.pln with tables := ((h, n, b) :: rest).take 64 } }

/-- The data of a block is read (R380). -/
def readBlock (e : Block) (l : Nat) (u : LaneUnit) (c : Cmd) (o : Obj) (w : Work) : Work :=
  laneStage e l u c o .data (iOffset u.entry) (iBytes u.entry) w

/-- An index entry has been read: a coded block needs its table (R379, R391). -/
def indexRead (e : Block) (l : Nat) (u : LaneUnit) (c : Cmd) (o : Obj) (h : List Byte) (x : Nat) (w : Work) : Work :=
  if !entryFits x (rTables h) o.size then laneFail l St.rosrekFormat w
  else
    let u := { u with entry := x }
    if !iCoded x then readBlock e l u c o w
    else match cachedTable w (unitHandle c u) (iTable x) with
      | some t => readBlock e l { u with table := t } c o (touchTable (unitHandle c u) (iTable x) t w)
      | none => laneStage e l u c o .table (rTablesAt h + 128 * iTable x) 128 w

/-- The next bytes of a unit of a code stream that is not compressed are read, in a stream through the entry of their page. -/
def readSpan (e : Block) (l : Nat) (u : LaneUnit) (c : Cmd) (o : Obj) (n : Nat) (w : Work) : Work :=
  let from0 := u.pos + u.got.length
  let r := if o.stream then newReq .read true (pageAddr e u.entry from0) n [] (.lane l) else objReq e o .read from0 n [] (.lane l)
  laneRead e c r (setLane w l (some { u with stage := .data, len := u.got.length + n }))

/-- A page entry, a header or an index entry that a lane asked for arrives (R383, R386). -/
def laneProceeds (e : Block) (l : Nat) (data : List Byte) (w : Work) : Work :=
  match laneUnit w l with
  | none => w
  | some u =>
    match w.cmd u.cmd with
    | none => freeLane l w
    | some c =>
      let o := slotObj w c u.slot
      let obj := hIndex (unitHandle c u)
      match u.stage with
      | .page => readSpan e l { u with entry := fieldAt data 0 8 } c o u.len w
      | .header =>
        let b := bytesAt data 0 64
        if !headerFits b o.codeLen o.size then laneFail l St.rosrekFormat w
        else
          let new := if (headerOf w u.cmd obj).isSome then [] else [(u.cmd, obj, b)]
          beginBlock e l u c o b { w with pln := { w.pln with headers := w.pln.headers ++ new } }
      | .index =>
        match headerOf w u.cmd obj with
        | some h => indexRead e l u c o h (fieldAt data 0 8) w
        | none => freeLane l w
      | _ => w

/-- Whether a lane's answer is read by a row of its own: TABLE_LOAD or EXPANDER_UNIT_DONE. -/
def laneHolds (w : Work) (l : Nat) : Bool :=
  match laneUnit w l with
  | some u => u.stage == .table || u.stage == .data
  | none => false

/-- The read of a lane has failed (R557): its command fails with the status of the response. -/
def laneFault (e : Block) (l : Nat) (st : Status) (w : Work) : Work :=
  match laneUnit w l with
  | none => w
  | some u => if u.discard then freeLane l w else faultCmd e u.cmd st 0 (freeLane l w)

/-! ### The units that lanes take (R390, R392) -/

/-- Whether a unit stages slot `k` of a tile, or the copy that the slot shares. -/
def LaneUnit.stages (u : LaneUnit) (t : Tile) (c : Cmd) (k : Nat) : Bool :=
  !u.discard && u.cmd == t.cmd && u.slot == k && u.port == t.port && (u.tile == t.index || slotShared c k)

/-- The units on lanes that stage a slot of a tile. -/
def slotUnits (w : Work) (t : Tile) (c : Cmd) (k : Nat) : List LaneUnit :=
  w.pln.lanes.filterMap fun p => p.2.filter fun u => u.stages t c k

/-- The groups that `n` bytes of lines hold at the most, or their bytes. -/
def unitRoom (o : Obj) (n : Nat) : Nat := if isCode o.fmt then n / 256 * groupsPerLine o.fmt else n

/-- What a unit can hold at the most: a lane reads on in its block or span while the slot lacks groups (R390).
[DESIGN CHOICE, log entry 33] -/
def unitMost (o : Obj) (u : LaneUnit) : Nat :=
  if isCode o.fmt then unitRoom o (min (4096 - u.pos % 4096) (streamLen o - u.pos)) else u.len

/-- The groups or bytes of a slot that the units before cannot hold, neither those on lanes nor those finished: what lies beyond them
is needed for certain (R388). [DESIGN CHOICE, log entry 33] -/
def slotLacks (w : Work) (t : Tile) (c : Cmd) (k : Nat) : Nat :=
  let d := t.slots.getD k {}
  d.left - ((slotUnits w t c k).map (unitMost (slotObj w c k))).sum - (d.ahead.map DoneUnit.found).sum

/-- Whether a lane is reading the header of a container for a command: the first that stages from it does (R383).
[DESIGN CHOICE, log entry 33] -/
def headerOut (w : Work) (c : Cmd) (k : Nat) : Bool :=
  (slotObj w c k).comp && w.pln.lanes.any fun p => p.2.any fun u =>
    u.stage == .header && u.cmd == c.id && hIndex (execSlot c.bytes u.slot).handle == hIndex (execSlot c.bytes k).handle

/-- Whether the block may stage tiles of a command (R36, R267, R279, R562, R582). -/
def mayStage (e : Block) (w : Work) (c : Cmd) : Bool :=
  !w.pln.inReset && !w.pln.engineDomain && c.phase == .running && c.endStatus.isNone && !c.suspended &&
  (match c.slice with
   | some s => (w.slice s).runs && !(w.ctx s c.ctx).stopped && !planerShut e w s
   | none => false)

/-- The first slot of a tile that has a unit to be taken. -/
def openSlot (w : Work) (t : Tile) (c : Cmd) : Option Nat :=
  (t.slots.zipIdx.find? fun p => slotLacks w t c p.2 != 0 && !headerOut w c p.2).map Prod.snd

/-- The next unit: of the tile of highest effective priority, then of the port that least recently received one, then of
the tile that began staging first (R392). -/
def nextUnit (e : Block) (w : Work) : Option (Tile × Cmd × Nat) :=
  w.tiles.foldl (fun (best : Option (Tile × Cmd × Nat)) t =>
    if t.state != .staging then best
    else match w.cmd t.cmd with
      | none => best
      | some c =>
        if !mayStage e w c || (c.slice.any fun s => memShut e w s) then best
        else match openSlot w t c, best with
          | none, _ => best
          | some k, none => some (t, c, k)
          | some k, some b =>
            let p := effPriority w c
            let q := effPriority w b.2.1
            if q < p || (q == p && (w.port t.port).lastUnit < (w.port b.1.port).lastUnit) then some (t, c, k) else best) none

/-- The bytes that a unit at byte `pos` of a code stream reads for `need` groups or bytes that the slot lacks (R388, R390). -/
def unitLen (o : Obj) (need pos : Nat) : Nat :=
  let span := 4096 - pos % 4096
  if isCode o.fmt then min span (min (256 * ceilDiv need (groupsPerLine o.fmt)) (streamLen o - pos)) else min span need

/-- A slot as every tile that has it sees it: the tile's own, or the copy that the command's tiles on the port share. -/
def updSlotData (t : Tile) (c : Cmd) (k : Nat) (f : SlotData → SlotData) (w : Work) : Work :=
  w.mapTiles fun x =>
    if x.cmd == t.cmd && x.port == t.port && x.state == .staging && (x.index == t.index || slotShared c k) then
      { x with slots := x.slots.set k (f (x.slots.getD k {})) }
    else x

/-- A free lane takes a unit (R390, R392). -/
def takeUnit (e : Block) (l : Nat) (t : Tile) (c : Cmd) (k : Nat) (w : Work) : Work :=
  let o := slotObj w c k
  let d := t.slots.getD k {}
  let need := slotLacks w t c k
  if streamLen o ≤ d.pos then failExec c.id St.objRange w
  else
    let n := if o.comp then 4096 - d.pos % 4096 else unitLen o need d.pos
    let u : LaneUnit := {
      cmd := c.id, tile := t.index, port := t.port, slot := k, pos := d.pos, len := n, discard := false, stage := .data,
      entry := 0, want := min need (unitRoom o n + 1), table := [], got := [] }
    let w := { w.updPort t.port (fun p => { p with lastUnit := w.nextOrder }) with nextOrder := w.nextOrder + 1 }
    let w := updSlotData t c k (fun d => { d with pos := d.pos + n }) w
    if o.comp then
      match headerOf w c.id (hIndex (unitHandle c u)) with
      | some h => beginBlock e l u c o h w
      | none => laneStage e l u c o .header 0 64 w
    else if o.stream then
      laneRead e c (newReq .read true (devAddr (ownChip e) (o.base + 64 + 8 * (d.pos / 65536))) 8 [] (.lane l))
        (setLane w l (some { u with stage := .page }))
    else readSpan e l u c o n w

/-- A lane that holds no unit. -/
def freeLaneOf (w : Work) : Option Nat := (List.range 96).find? fun l => (laneUnit w l).isNone

/-- Free lanes take units, one after another. -/
def feedLanes (e : Block) : Nat → Work → Work
  | 0, w => w
  | n + 1, w =>
    match nextUnit e w, freeLaneOf w with
    | some (t, c, k), some l => feedLanes e n (takeUnit e l t c k w)
    | _, _ => w

/-- Lanes whose request has been withdrawn (R592) give their units up, and the checked headers of commands that have gone
are forgotten. -/
def sweepLanes (w : Work) : Work :=
  let w := (w.pln.lanes.filter fun p => p.2.isSome && (laneReq w p.1).isNone).foldl (fun w p => setLane w p.1 none) w
  { w with pln := { w.pln with headers := w.pln.headers.filter fun h => (w.cmd h.1).isSome } }

/-! ### What a unit yields (R359, R384, R388, R389) -/

/-- What a unit gives: bytes for the Kiln, and the groups or bytes that it holds of those asked of it. -/
structure UnitOut where
  bytes : List Byte
  found : Nat
  deriving DecidableEq, Repr

/-- Up to `want` groups of the lines of a unit of a code format. -/
def codeUnit (o : Obj) (want : Nat) (lines : List Byte) : Status × UnitOut :=
  let r := parseLines o.fmt (lines.length / 256) want lines
  (if r.1.bad then St.planerFormat else St.ok, { bytes := r.1.groups.flatten, found := want - r.2 })

/-- The output of a unit whose bytes have been read, for up to `want` groups. -/
def unitOutput (o : Obj) (u : LaneUnit) (want : Nat) (data : List Byte) : Status × UnitOut :=
  if o.comp then
    let block := if iCoded u.entry then decodeBlock u.table u.len (bytesAt data 0 u.len) else some (bytesAt data 0 4096)
    match block with
    | none => (St.rosrekFormat, { bytes := [], found := 0 })
    | some b => codeUnit o want (b.drop (u.pos % 4096))
  else
    let b := u.got ++ bytesAt data 0 (u.len - u.got.length)
    if isCode o.fmt then codeUnit o want b else (St.ok, { bytes := b, found := b.length })

/-- The byte of the code stream that follows a unit. -/
def unitEnd (o : Obj) (u : LaneUnit) : Nat := if o.comp then (u.pos / 4096 + 1) * 4096 else u.pos + u.len

/-- Whether more of a unit's span may be needed than its bytes: it is not compressed, and it ends before its span does. -/
def unitOpen (o : Obj) (u : LaneUnit) : Bool :=
  !o.comp && isCode o.fmt && decide (unitEnd o u % 4096 ≠ 0) && decide (unitEnd o u < streamLen o)

/-- Whether a tile takes the output of a unit: its own tile, and, for a copy that tiles share, every tile of the command on
the port. -/
def takesUnit (c : Cmd) (u : LaneUnit) (t : Tile) : Bool :=
  t.cmd == u.cmd && t.port == u.port && t.state == .staging && (t.index == u.tile || slotShared c u.slot)

/-- A tile whose slots lack nothing is staged. -/
def Tile.settled (t : Tile) : Tile :=
  if t.state = .staging ∧ t.slots.all (fun d => d.left == 0) then { t with state := .staged } else t

/-- Charge bytes that the expander has written (R266, R414). -/
def chargeUnit (e : Block) (c : Cmd) (n : Nat) (w : Work) : Work :=
  match c.slice with
  | some s => chargePlaner e s c.ctx n w
  | none => w

/-- Units that have been finished join the slot in code-stream order (R351). -/
def joinUnits : Nat → SlotData → SlotData
  | 0, d => d
  | n + 1, d =>
    match d.ahead.find? fun x => x.pos == d.at0 with
    | some x => joinUnits n { d with
        bytes := d.bytes ++ x.bytes, at0 := x.next, left := d.left - x.found, ahead := d.ahead.erase x }
    | none => d

/-- A slot with one more unit finished, and the pages that it then takes. -/
def SlotData.finish (d : SlotData) (x : DoneUnit) : SlotData :=
  let d := joinUnits (d.ahead.length + 1) { d with ahead := d.ahead ++ [x] }
  { d with pages := max d.pages (toPages (d.bytes.length + (d.ahead.map fun y => y.bytes.length).sum)) }

/-- Write a unit's output into the Kiln, extending the reservation where it must grow (R395): while no page is to be had
the unit stays on its lane. -/
def storeUnit (e : Block) (l : Nat) (u : LaneUnit) (c : Cmd) (t : Tile) (out : UnitOut) (w : Work) : Work :=
  let o := slotObj w c u.slot
  let d := t.slots.getD u.slot {}
  let new := d.finish { pos := u.pos, next := unitEnd o u, found := out.found, bytes := out.bytes }
  let need := new.pages - d.pages
  if (w.port u.port).pages < tilePages c t + need then laneFail l St.kilnFit w
  else match makeRoom u.port need (victims w u.port (effPriority w c)) w with
    | none => w
    | some w =>
      let w := chargeUnit e c out.bytes.length (freeLane l w)
      let w := w.mapTiles fun x => if takesUnit c u x then ({ x with slots := x.slots.set u.slot new } : Tile).settled else x
      if new.left != 0 && decide (streamLen o ≤ new.at0) then failExec c.id St.objRange w else w

/-- The first unit in code-stream order lacks groups that further lines of its span may hold: it reads on (R390).
[DESIGN CHOICE, log entry 33] -/
def extendUnit (e : Block) (l : Nat) (u : LaneUnit) (c : Cmd) (t : Tile) (lack : Nat) (data : List Byte) (w : Work) : Work :=
  let o := slotObj w c u.slot
  let at1 := unitEnd o u
  let n := unitLen o lack at1
  let w := match laneReq w l with
    | some r => w.dropReq r.tag
    | none => w
  let u := { u with got := u.got ++ bytesAt data 0 (u.len - u.got.length), want := u.want + lack }
  readSpan e l u c o n (updSlotData t c u.slot (fun d => { d with pos := at1 + n }) w)

/-- Whether the units before one decide how much of it the slot needs: the operand may end in it, or its span goes on beyond
the bytes read. -/
def unitTail (o : Obj) (u : LaneUnit) : Bool :=
  isCode o.fmt && (unitOpen o u || decide (u.want ≤ unitRoom o (unitEnd o u - u.pos)))

/-- The groups or bytes to be found in a unit whose bytes are there: all that the slot lacks of the first in code-stream order. One
beyond which the operand goes on is parsed to the ends of its lines (R359). -/
def unitWant (o : Obj) (d : SlotData) (u : LaneUnit) : Nat :=
  if d.at0 == u.pos && isCode o.fmt then d.left else unitRoom o (unitEnd o u - u.pos) + 1

/-- A unit whose bytes are there is finished for a tile (R390): one in which the operand may end waits for the units before it.
[DESIGN CHOICE, log entry 33] -/
def finishFor (e : Block) (l : Nat) (u : LaneUnit) (c : Cmd) (t : Tile) (data : List Byte) (w : Work) : Work :=
  let o := slotObj w c u.slot
  let d := t.slots.getD u.slot {}
  if unitTail o u && !(d.at0 == u.pos) then w
  else
    let r := unitOutput o u (unitWant o d u) data
    if r.1 ≠ St.ok then laneFail l r.1 w
    else if unitOpen o u && r.2.found < d.left then extendUnit e l u c t (d.left - r.2.found) data w
    else storeUnit e l u c t r.2 w

/-- A lane finishes a unit (R390): a failure of the container outweighs one of the format (R414). -/
def finishUnit (e : Block) (l : Nat) (w : Work) : Work :=
  match laneUnit w l, (laneReq w l).bind Req.answer with
  | some u, some (_, data) =>
    if u.stage != .data then w
    else match w.cmd u.cmd with
      | none => freeLane l w
      | some c =>
        match (if u.discard then none else w.tiles.find? fun t => takesUnit c u t) with
        | some t => finishFor e l u c t data w
        | none => chargeUnit e c (unitOutput (slotObj w c u.slot) u u.want data).2.bytes.length (freeLane l w)
  | _, _ => w

/-- A code table arrives (R383, R391): the unit goes on to its block. -/
def finishTable (e : Block) (l : Nat) (w : Work) : Work :=
  match laneUnit w l, (laneReq w l).bind Req.answer with
  | some u, some (_, data) =>
    if u.stage != .table then w
    else match w.cmd u.cmd with
      | none => freeLane l w
      | some c =>
        let t := bytesAt data 0 128
        if !tableFits t then laneFail l St.rosrekFormat w
        else
          let w := match laneReq w l with
            | some r => w.dropReq r.tag
            | none => w
          readBlock e l { u with table := t } c (slotObj w c u.slot) (touchTable (unitHandle c u) (iTable u.entry) t w)
  | _, _ => w

/-! ### Binding (R269, R270, R394, R395) -/

/-- The reservation of a tile's slot: the copy that tiles of its command on the port already share, or a new one. -/
def slotAt (d : Dict) (w : Work) (c : Cmd) (p t k : Nat) : SlotData :=
  let s := execSlot c.bytes k
  let o := slotObj w c k
  let f := (w.port p).opdFmt
  let mate := (tilesOn w p).find? fun x => x.cmd == c.id && !x.slots.isEmpty
  if s.elems = 0 then {}
  else match slotShared c k, mate with
    | true, some x => x.slots.getD k {}
    | _, _ => {
        at0 := slotStart c t k, pos := slotStart c t k, left := slotWants o f s.elems, pages := slotPages d o f s.elems }

/-- The pages that a tile needs beside the copies that it shares. -/
def newPages (w : Work) (c : Cmd) (p : Nat) (slots : List SlotData) : Nat :=
  let mate := (tilesOn w p).any fun x => x.cmd == c.id && !x.slots.isEmpty
  (slots.zipIdx.map fun q => if mate && slotShared c q.2 then 0 else q.1.pages).sum + resPages c

/-- A tile that is bound and has not started. -/
def Tile.unstarted (t : Tile) : Bool := t.state == .staging || t.state == .staged || t.state == .offered

/-- The staged bytes of tiles: a copy that tiles of a command share counts once (R397). -/
def bytesStaged (w : Work) (ts : List Tile) : Nat :=
  (ts.flatMap fun t => match w.cmd t.cmd with
    | some c => t.slots.zipIdx.map fun q => (t.cmd, (if slotShared c q.2 then none else some t.index : Option Nat), q.2, q.1.bytes.length)
    | none => []).dedup.foldl (fun n x => n + x.2.2.2) 0

/-- Bytes staged on a port for tiles that have not started. -/
def portStaged (w : Work) (p : Nat) : Nat := bytesStaged w ((tilesOn w p).filter Tile.unstarted)

/-- The queue priority of the tile that runs on a port; 0 where none runs. -/
def runningPriority (w : Work) (p : Nat) : Nat :=
  match runningTile w p with
  | some t => ((w.cmd t.cmd).map (queuePriority w)).getD 0
  | none => 0

/-- The effective priority of the tile that runs on a port (R274); 0 where none runs. [DESIGN CHOICE, log entry 70] -/
def runningEffective (w : Work) (p : Nat) : Nat := ((runningTile w p).map (tilePriority w)).getD 0

/-- The best of ports by a measure, the lower number among equals. -/
def leastPort (m : Nat → Nat) (ps : List Nat) : Option Nat :=
  ps.foldl (fun (best : Option Nat) p => match best with
    | none => some p
    | some b => if m p < m b then some p else some b) none

/-- The port to which a tile of a command is bound (R269). -/
def bindPort (d : Dict) (w : Work) (c : Cmd) (s : Nat) : Option Nat :=
  let fit := (servingPorts w).filter fun p => footprintPages d w (w.port p).opdFmt c.bytes ≤ (w.port p).pages
  let first := fit.filter fun p => (w.port p).primary == some s
  let second := fit.filter fun p => (w.port p).grants.contains s
  if queuePriority w c = 7 then
    let near := fit.filter fun p => (w.port p).primary == some s || (w.port p).grants.contains s
    leastPort (runningEffective w) (if near.isEmpty then fit else near)
  else leastPort (portStaged w) (if !first.isEmpty then first else if !second.isEmpty then second else fit)

/-- Whether a context is resident and stays so: no snapshot has chosen its slot for eviction (R279). -/
def staysResident (w : Work) (s c : Nat) : Bool :=
  match w.residentSlot s c with
  | some k => !(w.slot k).chosen && !(w.slot k).evict
  | none => false

/-- Whether tile `t` of a command is ready (R261). -/
def tileReady (w : Work) (c : Cmd) (t : Nat) : Bool :=
  decide (t < tileCount c.bytes) && !c.tilesDone.contains t && !(w.tiles.any fun x => sameTile x c.id t)

/-- When a tile became ready (R270): at its command's release, or when it last returned to ready. -/
def readyKey (c : Cmd) (t : Nat) : Nat := tblGet c.relOrder c.readyAt t * 65536 + t

/-- Where a tile of a command can be bound now: its port, its slots, and the state with the tiles unstaged that make room for it
(R269, R270, R395). -/
def bindPlace (e : Block) (w : Work) (c : Cmd) (t : Nat) : Option (Nat × List SlotData × Work) :=
  match c.slice with
  | none => none
  | some s =>
    if c.op != some .exec || !mayStage e w c || !tileReady w c t || !staysResident w s c.ctx then none
    else (bindPort e.dct w c s).bind fun p =>
      let slots := (List.range 8).map (slotAt e.dct w c p t)
      (makeRoom p (newPages w c p slots) (victims w p (effPriority w c)) w).map fun v => (p, slots, v)

/-- The ready tile of a command that became ready first. -/
def firstReady (w : Work) (c : Cmd) : Option Nat :=
  leastPort (readyKey c) ((List.range (tileCount c.bytes)).filter (tileReady w c))

/-- Whether some ready tile is bound to a port before tile `t` of a command (R270): one of higher priority, or one of the same that
became ready first. -/
def boundAfter (e : Block) (w : Work) (c : Cmd) (t p : Nat) : Bool :=
  w.cmds.any fun d => (d.op == some .exec && mayStage e w d) && (firstReady w d).any fun u =>
    (decide (effPriority w c < effPriority w d) || (effPriority w c == effPriority w d && decide (readyKey d u < readyKey c t))) &&
      (bindPlace e w d u).any fun x => x.1 == p

/-- Bind a ready tile to a port and reserve its footprint; while the port cannot hold it, it waits (R269, R270, R395). The tiles
of a port are bound in descending priority, then in the order in which they became ready.
[DESIGN CHOICE, log entry 23] -/
def bindTile (e : Block) (id t : Nat) (w : Work) : Work :=
  match w.cmd id with
  | none => w
  | some c =>
    if e.pwr.state != .ps0 || e.pwr.transition.isSome then w
    else match bindPlace e w c t with
      | none => w
      | some (p, slots, v) =>
        if boundAfter e w c t p then w
        else
          let x : Tile := {
            cmd := id, index := t, port := p, state := .staging, tileId := 0, order := readyKey c t, slots := slots,
            result := [], credits := [], grace := false, startCycle := 0, beats := 0 }
          { v with tiles := v.tiles ++ [x.settled] }

end Sys2Proof.Machine
end

