-- ==== Sys2Proof/Machine/Commit.lean ====
section
/-! DEFINITION. The result conditioner: the conversion of a tile's results (R403 to R408, R410), the commit lanes and their
writes (R40 to R42, R73, R404, R409), and the guards (R411). -/

namespace Sys2Proof.Machine

/-! ### Conversion (R403 to R408) -/

/-- The bits of result element `i` of a tile. -/
def resultElem (r : Tbl Byte) (bf16 : Bool) (i : Nat) : Nat :=
  let n := if bf16 then 2 else 4
  leNat ((List.range n).map fun j => tblGet 0 r (n * i + j))

/-- What a conversion gives: the bytes to write, and what it counts (R410, R413); `groups` tells where each group begins and what
it counts once written. -/
structure Converted where
  bytes : List Byte
  denied : Nat := 0
  nan : Nat := 0
  inf : Nat := 0
  amax : Nat := 0
  groups : List (Nat × CodeCount) := []
  deriving DecidableEq, Repr

/-- Add two counts. -/
def CodeCount.add (a b : CodeCount) : CodeCount :=
  { codes := a.codes + b.codes, clipped := a.clipped + b.clipped, escs := a.escs + b.escs }

/-- What groups count in all. -/
def groupsCount (gs : List (Nat × CodeCount)) : CodeCount := gs.foldl (fun n g => n.add g.2) {}

/-- The groups whose first byte is one of `n` from byte `at0`, by their place from there. -/
def groupsIn (gs : List (Nat × CodeCount)) (at0 n : Nat) : List (Nat × CodeCount) :=
  (gs.filter fun g => decide (at0 ≤ g.1 ∧ g.1 < at0 + n)).map fun g => (g.1 - at0, g.2)

/-- The end of the lines that `r` groups of `g` bytes fill from byte `pos` (R346, R349). -/
def linesEnd (pos r g : Nat) : Nat :=
  let here := (256 - pos % 256) / g
  if r ≤ here then ceilDiv (pos + r * g) 256 * 256 else (pos / 256 + 1) * 256 + 256 * ceilDiv (r - here) (256 / g)

/-- Where a group of `k` bytes is placed from byte `pos`: no group crosses a line (R346). -/
def placeGroup (pos k : Nat) : Nat := if pos % 256 + k ≤ 256 then pos else (pos / 256 + 1) * 256

/-- Whether an escape group fits a window with every remaining group at its normal size (R408). -/
def escapeFits (pos rest g window : Nat) : Bool := linesEnd (placeGroup pos 34 + 34) rest g ≤ window

/-- Add a group to the bytes written so far, padding the line that it does not fit (R348, R409). -/
def addGroup (out g : List Byte) : List Byte :=
  out ++ List.replicate (placeGroup out.length g.length - out.length) 0xFE ++ g

/-- Pad the last line (R348). -/
def padLine (out : List Byte) : List Byte := out ++ List.replicate (ceilDiv out.length 256 * 256 - out.length) 0xFE

/-- The larger of two FP32 magnitudes in bits, the second of an element that may be a NaN or an infinity (R410). -/
def amaxOf (m : Nat) : Elem → Nat
  | .fin v => max m (fltFp32.round { v with num := (v.num.natAbs : Int) })
  | _ => m

/-- Write groups one after another (R407, R408). [DESIGN CHOICE, log entry 33] -/
def writeGroups (o : Obj) (rank escClip window : Nat) : List (List Elem) → Converted → Converted
  | [], a => { a with bytes := padLine a.bytes }
  | xs :: rest, a =>
    let fits := escapeFits a.bytes.length rest.length (groupBytes o.fmt) window
    let g := writeGroup o.fmt o.scale o.book rank escClip fits xs
    writeGroups o rank escClip window rest { a with
      bytes := addGroup a.bytes g.bytes,
      groups := a.groups ++ [(placeGroup a.bytes.length g.bytes.length,
        { codes := 32, clipped := g.clipped, escs := if g.escaped then 1 else 0 })],
      denied := a.denied + (if g.denied then 1 else 0), amax := xs.foldl amaxOf a.amax }

/-- Cut a list into groups of 32. -/
def groups32 {α : Type} (n : Nat) (xs : List α) : List (List α) := (List.range n).map fun i => (xs.drop (32 * i)).take 32

/-- Elements as the scale is chosen for them: scrubbed, and, for class ROTATION, saturated to FP32 and rotated (R406). -/
def conditioned (o : Obj) (xs : List Elem) : List Elem :=
  if o.cls = 1 then (rotateAll false (rotElems o.rotSize) (xs.length + 1) (xs.map (scrub fltFp32))).map Elem.fin
  else xs.map fun x => match x with
    | .nan => .fin Val.zero
    | y => y

/-- Convert a tile's results for an object, within a window (R403, R406, R407, R367). -/
def convertTile (o : Obj) (rank escClip window : Nat) (bf16 : Bool) (kib : Nat) (r : Tbl Byte) : Converted :=
  let n := resultElems bf16 kib
  let bits := (List.range n).map (resultElem r bf16)
  let xs := bits.map fun b => (if bf16 then fltBf16 else fltFp32).elem b
  if isCode o.fmt then
    let c := writeGroups o rank escClip window (groups32 (n / 32) (conditioned o xs)) { bytes := [] }
    { c with nan := nanCount xs, inf := infCount xs }
  else if o.fmt = 0 then { bytes := (List.range (kib * 1024)).map (tblGet 0 r) }
  else
    let k := if o.fmt = 7 then 4 else 2
    { bytes := bits.flatMap fun b => leBytes k (convertElem (o.fmt == 7) bf16 b), nan := nanCount xs, inf := infCount xs }

/-! ### Counts (R410, R411, R413) -/

/-- Count NaNs and infinities of an object of slice `s` (R364). -/
def countSpecials (s i nan inf : Nat) (w : Work) : Work :=
  let w := w.updObj i fun o => { o with guards := { o.guards with nan := satAdd o.guards.nan nan, inf := satAdd o.guards.inf inf } }
  countEvent s 5 inf (countEvent s 4 nan w)

/-- Count a conversion (R410): the NaNs and infinities that it has met, its denied escalations and its largest magnitude. -/
def countMet (s i : Nat) (v : Converted) (w : Work) : Work :=
  let w := countSpecials s i v.nan v.inf w
  let w := w.updObj i fun o => { o with guards := { o.guards with
    escDenied := satAdd o.guards.escDenied v.denied, amax := BitVec.ofNat 32 (max o.guards.amax.toNat v.amax) } }
  countEvent s 8 v.denied w

/-- Count codes that have been written (R410). [DEDUCED, log entry 14; DESIGN CHOICE, log entry 33] -/
def countWritten (s i : Nat) (n : CodeCount) (w : Work) : Work :=
  let w := w.updObj i fun o => { o with guards := { o.guards with
    codes := o.guards.codes + BitVec.ofNat 64 n.codes, clipped := satAdd o.guards.clipped n.clipped,
    escGroups := satAdd o.guards.escGroups n.escs } }
  countEvent s 7 n.escs (countEvent s 6 n.clipped w)

/-- Whether totals fail a guard of a slice (R411). [DEDUCED, log entry 14] -/
def guardFails (d : Dict) (s : Nat) (n : CodeCount) : Bool :=
  (d.guardClipPpm s != 0 && d.guardClipPpm s * n.codes < n.clipped * 1000000) ||
  (d.guardEscPpm s != 0 && d.guardEscPpm s * (n.codes / 32) < n.escs * 1000000)

/-- The totals of a command's commits so far (R411). -/
def Cmd.totals (c : Cmd) : CodeCount := { codes := c.codes, clipped := c.clipped, escs := c.escs }

/-! ### Commit lanes (R404, R409) -/

/-- The commit on a lane. -/
def commitJob (w : Work) (l : Nat) : Option CommitJob := tblGet none w.pln.commits l

/-- Put a commit on a lane, or take it off. -/
def setCommit (w : Work) (l : Nat) (j : Option CommitJob) : Work :=
  { w with pln := { w.pln with commits := tblSet none w.pln.commits l j } }

/-- Whether a request is a commit lane's. -/
def Purpose.ofCommit (l : Nat) : Purpose → Bool
  | .commit k _ _ _ => k == l
  | _ => false

/-- Whether a request of a commit lane is unanswered. -/
def commitBusy (w : Work) (l : Nat) : Bool := w.fab.reqs.any fun r => r.why.ofCommit l && !r.dead

/-- The tile of a commit. -/
def commitTile (w : Work) (cmd index : Nat) : Option Tile := w.tiles.find? fun t => sameTile t cmd index && t.state == .committing

/-- The writes of bytes at a byte of a code stream, one for each page of a stream that they touch. -/
def pieces (o : Obj) (n : Nat) : Nat → Nat → List Byte → List (Nat × List Byte)
  | 0, _, _ => []
  | fuel + 1, at0, bs =>
    if bs.isEmpty then []
    else
      let k := if o.stream then 65536 - at0 % 65536 else n
      (at0, bs.take k) :: pieces o n fuel (at0 + k) (bs.drop k)

/-- A write of a commit, charged to its slice (R266); it carries what its groups count once they are written (R410). -/
def commitWrite (e : Block) (l : Nat) (o : Obj) (s : Nat) (c : Cmd) (at0 : Nat) (bs : List Byte) (gs : List (Nat × CodeCount))
    (upd : Option FenceUpd) (w : Work) : Work :=
  let why : Purpose := .commit l s (hIndex (resultHandle c.bytes)) (groupsIn gs at0 bs.length)
  let r := streamReq e o (if upd.isSome then .signalledWrite else .write) at0 bs.length bs why
  chargePlaner e s c.ctx bs.length (chargeBytes e s bs.length (issue e (some s) { r with sig := upd } w))

/-- A lane takes a commit: the results are converted and every write but the last 256 bytes goes out (R73, R409). Of a
command that is no longer there nothing is written. -/
def takeCommit (e : Block) (l cmd index port : Nat) (w : Work) : Work :=
  match w.cmd cmd, commitTile w cmd index with
  | some c, some t =>
    match c.slice with
    | none => w
    | some s =>
      let i := hIndex (resultHandle c.bytes)
      let o := w.obj i
      let win := resultWindow o c.bytes index
      let v := convertTile o (e.dct.scaleRank s) (e.dct.escClip s) win.2 (w.port port).bf16 (resultKib c.bytes) t.result
      let bs := v.bytes.take win.2
      let cut := bs.length - 256
      let w := countMet s i v w
      if !mayIssue w (some s) (o.dev || o.stream) then
        setCommit w l (some {
          cmd := cmd, tile := index, port := port, lastAt := 0, lastBytes := [], writesLeft := 0, lastSent := false,
          done := false, failed := some St.pasidRevoked })
      else
        let ps := pieces o bs.length (bs.length / 65536 + 2) win.1 (bs.take cut)
        let gs := v.groups.map fun g => (win.1 + g.1, g.2)
        let w := ps.foldl (fun w p => commitWrite e l o s c p.1 p.2 gs none w) w
        setCommit w l (some {
          cmd := cmd, tile := index, port := port, lastAt := win.1 + cut, lastBytes := bs.drop cut,
          writesLeft := ps.length, lastSent := false, done := false, failed := none,
          groups := gs, counts := groupsCount gs })
  | _, _ => { w with tiles := w.tiles.filter fun t => !sameTile t cmd index }

/-- Whether a command still completes by its commits: it has not ended, and its context is not stopped (R560, R562, R594). -/
def completes (w : Work) (c : Cmd) (s : Nat) : Bool :=
  c.phase == .running && c.endStatus.isNone && !(w.ctx s c.ctx).stopped

/-- Other commits of a command whose last write is out. -/
def lastsOut (w : Work) (l cmd : Nat) : Nat :=
  (w.pln.commits.filter fun p => p.1 != l && (match p.2 with
    | some j => j.cmd == cmd && j.lastSent && j.failed.isNone
    | none => false)).length

/-- Issue the last write of a commit once every other write of it has received its OK response (R73): that of the
command's last tile carries the fence update (R40, R42), unless the command ends with CLIP_GUARD (R411).
[DEDUCED, log entry 14] -/
def sendLast (e : Block) (l : Nat) (j : CommitJob) (c : Cmd) (s : Nat) (w : Work) : Work :=
  let o := w.obj (hIndex (resultHandle c.bytes))
  let more := tileCount c.bytes - 1 - c.tilesDone.length - lastsOut w l j.cmd
  let sent := some { j with lastSent := true }
  if !completes w c s || 0 < more then commitWrite e l o s c j.lastAt j.lastBytes j.groups none (setCommit w l sent)
  else if 0 < lastsOut w l j.cmd then w
  else
    let bad := guardFails e.dct s (c.totals.add j.counts)
    let w := w.updCmd c.id fun d => { d with guard := bad }
    if bad && e.dct.guardAction s == 1 then
      commitWrite e l o s c j.lastAt j.lastBytes j.groups none
        ((setCommit w l sent).updCmd c.id fun d => { d with badStatus := St.clipGuard })
    else commitWrite e l o s c j.lastAt j.lastBytes j.groups (fenceUpd e w c)
      ((setCommit w l sent).updCmd c.id fun d => { d with auxNat := sigSent })

/-- A commit lane that may issue its last write does. -/
def advanceCommit (e : Block) (l : Nat) (w : Work) : Work :=
  match commitJob w l with
  | none => w
  | some j =>
    if j.lastSent || j.writesLeft != 0 || j.failed.isSome then w
    else match w.cmd j.cmd with
      | none => w
      | some c => match c.slice with
        | some s => if mayIssue w (some s) ((w.obj (hIndex (resultHandle c.bytes))).dev || (w.obj (hIndex (resultHandle c.bytes))).stream)
            then sendLast e l j c s w else setCommit w l (some { j with failed := some St.pasidRevoked })
        | none => w

/-- The next commit in the order of tile end, those of one command on one port one after another (R41, R404). -/
def nextCommit (w : Work) : Option (Nat × Nat × Nat) :=
  w.pln.commitQ.find? fun q => !(w.pln.commits.any fun p => match p.2 with
    | some j => j.cmd == q.1 && j.port == q.2.2
    | none => false)

/-- Free commit lanes take commits. -/
def feedCommits (e : Block) : Nat → Work → Work
  | 0, w => w
  | n + 1, w =>
    if w.pln.inReset || w.pln.engineDomain then w
    else match nextCommit w, (List.range 8).find? fun l => (commitJob w l).isNone with
      | some q, some l =>
        let w := { w with pln := { w.pln with commitQ := w.pln.commitQ.erase q } }
        feedCommits e n (takeCommit e l q.1 q.2.1 q.2.2 w)
      | _, _ => w

/-- Feed the lanes of the Planer: commits, their last writes, and units. -/
def feedPlaner (e : Block) (w : Work) : Work :=
  let w := feedCommits e (w.pln.commitQ.length + 1) w
  let w := (List.range 8).foldl (fun w l => advanceCommit e l w) w
  feedLanes e 96 (sweepLanes w)

/-- The write of a commit is answered (R404): a failed one ends the commit, and its command fails (R557). -/
def commitAnswered (e : Block) (l : Nat) (st : Status) (w : Work) : Work :=
  match commitJob w l with
  | none => w
  | some j =>
    if st ≠ St.ok then
      faultCmd e j.cmd st 0 (setCommit w l (some { j with failed := some (j.failed.getD st) }))
    else if j.lastSent then setCommit w l (some { j with done := true })
    else setCommit w l (some { j with writesLeft := j.writesLeft - 1 })

/-- A request of a commit has been written: its codes count, whatever becomes of the commit (R410). -/
def partWritten (r : Req) (p : Part) (st : Status) (w : Work) : Work :=
  match r.why with
  | .commit _ s i gs => if st = St.ok then countWritten s i (groupsCount (groupsIn gs p.off p.len)) w else w
  | _ => w

/-- A tile leaves its port with its pages and credits (R288, R396); where it has not committed it is ready again. -/
def dropTile (cmd index : Nat) (w : Work) : Work :=
  let w := (w.tiles.filter fun t => sameTile t cmd index).foldl (fun w t => returnCredits t.credits w) w
  backToReady cmd index { w with tiles := w.tiles.filter fun t => !sameTile t cmd index }

/-- Whether a commit is over: nothing of it is unanswered, and it has been written, has failed, or can go no further.
[DEDUCED, log entry 14] -/
def commitOver (w : Work) (l : Nat) (j : CommitJob) : Bool :=
  !commitBusy w l && (j.done || j.failed.isSome || (w.cmd j.cmd).isNone || j.writesLeft != 0)

/-- A tile has committed: the command completes with its last one (R42): at once where it signals nothing, else when its
signalled write is applied (R309), until when the tile's credits stay reserved (R288). -/
def tileCommitted (cmd index : Nat) (n : CodeCount) (credits : List Nat) (w : Work) : Work :=
  let w := w.updCmd cmd fun c => { c with
    tilesDone := c.tilesDone ++ [index], codes := c.codes + n.codes, clipped := c.clipped + n.clipped, escs := c.escs + n.escs }
  match w.cmd cmd with
  | none => returnCredits credits w
  | some c =>
    match c.slice with
    | none => returnCredits credits w
    | some s =>
      if !completes w c s || c.tilesDone.length < tileCount c.bytes then returnCredits credits w
      else if c.badStatus = St.clipGuard then endCmd cmd St.clipGuard (countGuard c s (returnCredits credits w))
      else if (sigOf w c).isSome then w.updCmd cmd fun c => { c with credits := credits }
      else endCmd cmd St.ok (countGuard c s (returnCredits credits w))

/-- A commit lane is done with its commit (R404). [DESIGN CHOICE, log entry 23] -/
def finishCommit (l : Nat) (w : Work) : Work :=
  match commitJob w l with
  | none => w
  | some j =>
    if !commitOver w l j then w
    else
      let w := setCommit w l none
      let credits := (commitTile w j.cmd j.tile).elim [] Tile.credits
      if j.done && j.failed.isNone then
        tileCommitted j.cmd j.tile j.counts credits { w with tiles := w.tiles.filter fun t => !sameTile t j.cmd j.tile }
      else dropTile j.cmd j.tile w

end Sys2Proof.Machine
end

