-- ==== Sys2Proof/Machine/SliceOps.lean ====
section
/-! DEFINITION. A slice leaving OFF and entering it: the tables written at the first (R220), the queue of free indices
(R225), pools latched, and everything released at OFF (R118, R239). -/

namespace Sys2Proof.Machine

/-- The descriptors of the stream table (R242). -/
def streamDescs : Nat := 16384

/-- The stream table's descriptors are all free before the first is taken (R242). -/
def streamsUp (w : Work) : Work :=
  if w.streamUp then w else { w with streamUp := true, streamFree := List.range streamDescs }

/-- The object and stream tables come up once after a full block reset, as the first slice leaves OFF (R220): every entry free
at generation 1, and all of them still to be written. [DESIGN CHOICE, log entry 58] -/
def tablesUp (e : Block) (w : Work) : Work :=
  if w.tableUp then w
  else { streamsUp w with
    tableUp := true, tableBase := e.dct.objTableBase, tableEntries := e.dct.objTableEntries, objs := [],
    fillLeft := (e.dct.objTableEntries + streamDescs) / 4 }

/-- Write the next 256 bytes of the object and stream tables (R220, R242): the layout of an entry is private to the block, so
its bytes are free. [DESIGN CHOICE, log entry 58] -/
def fillTables (e : Block) (w : Work) : Work :=
  if w.fillLeft = 0 then w
  else
    let d := w.draw
    let at0 := w.tableBase + 64 * (w.tableEntries + streamDescs) - 256 * w.fillLeft
    writeFor e none true at0 ((List.range 256).map (Config.freeByte d.1)) .tableFill { d.2 with fillLeft := w.fillLeft - 1 }

/-- The indices of a slice's range, in ascending order (R224): INDEX 0 belongs to no slice. -/
def sliceIndices (d : Dict) (s : Nat) : List Nat :=
  ((List.range (d.objCount s)).map fun i => d.objFirst s + i).filter fun i => i != 0

/-- ENABLE takes slice `s` from OFF to ACTIVE (R117, R225): its pools take their sizes (R297). -/
def sliceOn (e : Block) (s : Nat) (w : Work) : Work :=
  let w := tablesUp e w
  w.updSlice s fun x => { x with
    state := .active, freeIdx := sliceIndices e.dct s, fenceCount := e.dct.fenceCount s, semCount := e.dct.semCount s, stale := 0,
    watchCount := e.dct.watchCount s, fences := [], sems := [], watches := [], remoteWaits := [], graphs := [], ctxs := [],
    lvlCmd := (e.dct.cmdLimit s : Int), lvlPlaner := (e.dct.planerLimit s : Int), lvlMem := (e.dct.memLimit s : Int),
    maxPrio := e.dct.maxPriority s, deficit := 0, used := 0, quiescent := false, offDue := false, applied := 0 }

/-- The objects of a slice go back to its free indices (R239): each live one raises its generation first (R236). -/
def reclaimAll (e : Block) (s : Nat) (w : Work) : Work :=
  (w.objs.filter fun p => (p.2.live || p.2.pend) && p.2.slice == s).foldl (fun w p =>
    let w := if p.2.pend then w else w.updObj p.1 fun o => { o with gen := nextGen o.gen, pend := true, live := false }
    reclaim e p.1 (w.updObj p.1 fun o => { o with refs := 0, freer := none })) w

/-- The contexts of a slice leave their slots: bytes 0 to 31 of their records are written (R155). For a context whose record has
not been read they hold what the block has counted itself. [DESIGN CHOICE, log entry 59] -/
def leaveSlots (e : Block) (s : Nat) (w : Work) : Work :=
  (w.slots.filter fun p => p.2.slice == s && p.2.state != .free).foldl (fun w p =>
    freeSlot p.1 (writeCtxValues e s p.2.ctx w)) w

/-- The queue of a request that reads its entries or writes its records or its status block. -/
def Purpose.queue : Purpose → Option Nat
  | .sqRead qk _ _ => some qk
  | .statusBlock qk _ => some qk
  | .record qk _ => some qk
  | .queueLoad qk => some qk
  | _ => none

/-- Whether a request reads the flags of a context record of slice `s`. -/
def Purpose.flagsOf (s : Nat) : Purpose → Bool
  | .ctxFlags n _ => n == s
  | _ => false

/-- Requests of queues that are gone are answered to no one: a later queue of the same number takes none of them (R131,
R143). -/
def Fabric.orphanQueues (sel : Nat → Bool) (f : Fabric) : Fabric := f.orphan fun y => y.queue.any sel

/-- Slice `s` enters OFF (R118, R239, R603): its objects are reclaimed, its queues, contexts, graphs, fences, semaphores and
watches go, records still held are discarded, its requests that have not gone out never do (R119), and nothing of its commands
stays: what of them still runs, which only a DISABLE of a FROZEN slice that is not quiescent or of a FENCED one can find, is
killed and leaves no result. [DESIGN CHOICE, log entry 21; DESIGN CHOICE, log entry 28] -/
def sliceOff (e : Block) (s : Nat) (w : Work) : Work :=
  let w := (w.cmds.filter fun c => c.slice == some s).foldl (fun w c => stopWork c.id .teardown w) w
  let w := reclaimAll e s w
  let w := { w with
    cmds := w.cmds.filter fun c => !(c.slice == some s),
    runs := w.runs.filter fun r => !((w.cmd r.entry).bind Cmd.slice == some s),
    queues := w.queues.filter fun p => !(sliceOf p.1 == some s),
    lends := w.lends.filter fun l => !(l.slice == s), late := w.late.filter fun x => !(x.slice == some s),
    fenced := clrBit w.fenced s }
  let w := w.updFab fun f => ((f.dropUnsent s).orphan (Purpose.flagsOf s)).orphanQueues fun qk => sliceOf qk == some s
  let w := (w.slots.filter fun p => p.2.slice == s && p.2.state != .free).foldl (fun w p => freeSlot p.1 w) w
  let w := w.updCap fun c => { c with teardowns := c.teardowns.filter fun t => !(t.slice == s) }
  -- R497: waits of other chips end; the spec names no status for a slice that enters OFF, so it is free
  let st : Status := (Config.freeWord w.fresh).setWidth 16
  let w := { w with fresh := w.fresh + 1 }
  let w := (w.slice s).remoteWaits.foldl (fun w x => sendWatchDrop e x.src s x.wid st w) w
  w.updSlice s fun x => { x with
    state := .off, fences := [], sems := [], stale := 0, watches := [], remoteWaits := [], freeIdx := [], graphs := [], ctxs := [],
    hostLog := { x.hostLog with on := false }, devLog := { x.devLog with on := false }, quiescent := false,
    revoking := false, offDue := false }

end Sys2Proof.Machine
end

