-- ==== Sys2Proof/Machine/Slots.lean ====
section
/-! DEFINITION. Resident slots and lends: saving and loading a context (R156 to R159, R277, R279), and the end of a lend
(R290). -/

namespace Sys2Proof.Machine

/-- Bytes under the private pattern: applied twice, the bytes themselves (R158, R611). [DESIGN CHOICE, log entry 16] -/
def hide (bs : List Byte) : List Byte := bs.zipIdx.map fun p => p.1 ^^^ Config.privateMask p.2

/-- A save area (R158): 4,092 bytes of the slot's state, whose layout is private to the block and which the rules never
read back, so they are free, and their check value. [DESIGN CHOICE, log entry 16] -/
def saveArea (n : Nat) : List Byte :=
  let body := (List.range 4092).map (Config.freeByte n)
  hide (body ++ leBytes 4 (crc32 body).toNat)

/-- Whether a save area passes its check. [DESIGN CHOICE, log entry 16] -/
def saveAreaOk (b : List Byte) : Bool :=
  let b := hide b
  fieldAt b 4092 4 == (crc32 (b.take 4092)).toNat

/-- Whether a tile of a context is offered or runs (R279): a commit goes on without the slot (R259). -/
def ctxTilesBusy (w : Work) (s c : Nat) : Bool :=
  w.tiles.any fun t => (t.state == .offered || t.state == .running) &&
    (match w.cmd t.cmd with
     | some d => d.slice == some s && d.ctx == c
     | none => false)

/-- Whether a slot's context is resident (R277). -/
def SlotSt.resident (x : SlotSt) : Bool := x == .runnable || x == .blocked || x == .idle

/-- The save of an evicted slot begins (R158, R279). [DESIGN CHOICE, log entry 25] -/
def beginSlotSave (e : Block) (k : Nat) (w : Work) : Work :=
  let x := w.slot k
  let d := w.draw
  let w := d.2.updSlot k fun x => { x with state := .saving, evict := false, beats := 0 }
  writeFor e (some x.slice) false (saveAddr w x.slice x.ctx) (saveArea d.1) (.slotSave k) w

/-- The saves of evicted slots whose tiles have ended begin (R279). [DESIGN CHOICE, log entry 25] -/
def evictReady (e : Block) (w : Work) : Work :=
  (w.slots.filter fun p => p.2.evict && p.2.state.resident && !ctxTilesBusy w p.2.slice p.2.ctx).foldl
    (fun w p => beginSlotSave e p.1 w) w

/-- Whether a context may load: its slice releases work, it is not stopped, and no slot holds it. -/
def mayLoad (w : Work) (s c : Nat) : Bool :=
  (w.slice s).runs && !(w.ctx s c).stopped && (w.slotOf s c).isNone

/-- The load of a slot's next context begins (R156): the slot is LOADING and the record is read. A context that may no
longer load gives the slot up. [DESIGN CHOICE, log entry 25] -/
def beginSlotLoad (e : Block) (k : Nat) (w : Work) : Work :=
  match (w.slot k).next with
  | some (s, c) =>
    if mayLoad w s c then
      let w := { w with nextOrder := w.nextOrder + 1 }.updSlot k fun _ =>
        { state := .loading, slice := s, ctx := c, loadedBeat := e.clk.beat, load := w.nextOrder }
      readFor e (some s) false (ctxAddr w s c) 64 (.slotRecord k) w
    else w.updSlot k fun _ => {}
  | none => w

/-- The highest queue priority among a context's released commands (R274, R290), without what is lent to it. -/
def ownPriority (w : Work) (s c : Nat) : Nat :=
  (w.cmds.filter fun d => d.of s c && (d.phase == .released || d.phase == .running || d.phase == .stopping)).foldl
    (fun m d => max m (queuePriority w d)) 0

/-- Whether an acquire of higher priority waits on a semaphore that the borrower holds (R290). -/
def lendNeeded (w : Work) (l : Lend) : Bool :=
  (w.sem l.slice l.sem).holding l.ctx != 0 &&
  w.cmds.any fun c => c.acquiring && c.slice == some l.slice && semIndex c.bytes == l.sem &&
    decide (ownPriority w l.slice l.ctx < effPriority w c)

/-- Lends that are no longer needed end (R290). -/
def endLends (w : Work) : Work := { w with lends := w.lends.filter (lendNeeded w) }

/-! ### The answers (R156 to R158) -/

/-- The request of a slot that has been answered. -/
def slotAnswer (w : Work) (k : Nat) (why : Purpose) : Option (Req × Status × List Byte) :=
  (w.fab.reqs.find? fun r => r.why == why && r.answer.isSome && r.owner == some (w.slot k).slice).bind fun r => r.answer.map fun a => (r, a.1, a.2)

/-- A slot whose context has left it: its next context loads (R279). -/
def slotLeft (e : Block) (k : Nat) (w : Work) : Work := beginSlotLoad e k (freeSlot k w)

/-- The write of a save area is answered (R155, R158). [DESIGN CHOICE, log entry 25] -/
def slotSaved (e : Block) (k : Nat) (w : Work) : Work :=
  match slotAnswer w k (.slotSave k) with
  | none => w
  | some (r, st, _) =>
    let x := w.slot k
    let w := w.dropReq r.tag
    if x.state != .saving then w
    else if st = St.ok then
      let w := w.updCtx x.slice x.ctx fun y => { y with saved := true }
      slotLeft e k (writeCtxFlags e x.slice x.ctx (writeCtxValues e x.slice x.ctx w))
    else if st = St.pasidRevoked then w
    else
      let w := slotLeft e k (writeCtxValues e x.slice x.ctx w)
      startTeardown e x.slice x.ctx St.dmaFault St.ownerReset none w

/-- A loaded context becomes resident (R279). -/
def becomeResident (k : Nat) (w : Work) : Work := w.updSlot k fun x => { x with state := .idle, beats := 0 }

/-- A load fails: its context is torn down, and leaves its slot with the teardown (R155, R158); where no teardown follows, the
slot returns to FREE at once. -/
def slotLoadFails (e : Block) (s c : Nat) (st : Status) (w : Work) : Work :=
  let w := startTeardown e s c st St.ownerReset none w
  if tearing w s c then w else leaveSlot e s c w

/-- What a context record gives the block (R154): ENGINE_NS and PLANER_BYTES go on from its values, and KILLED and LAST_STATUS
are taken, where the block does not hold them yet; SAVED is its own; MEM_BYTES stays as the block counts it.
[DESIGN CHOICE, log entry 59] -/
def Ctx.fromRecord (y : Ctx) (b : List Byte) : Ctx :=
  { y with
    engineNs := if y.counted then y.engineNs else y.engineNs + BitVec.ofNat 64 (fieldAt b 0 8)
    planerBytes := if y.counted then y.planerBytes else y.planerBytes + BitVec.ofNat 64 (fieldAt b 8 8)
    saved := (fieldAt b 33 1).testBit 0
    killed := if y.known then y.killed else (fieldAt b 33 1).testBit 1
    last := if y.known then y.last else BitVec.ofNat 16 (fieldAt b 34 2)
    known := true, counted := true }

/-- A context record has been read (R156 to R158). [DESIGN CHOICE, log entry 59] -/
def recordRead (e : Block) (k : Nat) (b : List Byte) (w : Work) : Work :=
  let x := w.slot k
  let s := x.slice
  let c := x.ctx
  let w := w.updCtx s c fun y => y.fromRecord b
  if !(fieldAt b 32 1).testBit 0 then slotLoadFails e s c St.badCommand w
  else if (fieldAt b 33 1).testBit 0 then readFor e (some s) false (saveAddr w s c) 4096 (.slotArea k) w
  else becomeResident k w

/-- A read of a load is answered (R156 to R158). [DESIGN CHOICE, log entry 25] -/
def slotLoaded (e : Block) (k : Nat) (w : Work) : Work :=
  let x := w.slot k
  match slotAnswer w k (.slotRecord k) with
  | some (r, st, b) =>
    let w := w.dropReq r.tag
    if x.state != .loading || st == St.pasidRevoked then w
    else if st = St.ok then recordRead e k b w
    else slotLoadFails e x.slice x.ctx St.dmaFault w
  | none =>
    match slotAnswer w k (.slotArea k) with
    | none => w
    | some (r, st, b) =>
      let w := w.dropReq r.tag
      if x.state != .loading || st == St.pasidRevoked then w
      else if st = St.ok && saveAreaOk b then becomeResident k w
      else slotLoadFails e x.slice x.ctx St.contextKilled w

end Sys2Proof.Machine
end

