-- ==== Sys2Proof/Machine/Image.lean ====
section
/-! DEFINITION. The slice image (R610, R611): its header and directory as the spec lays them down, and the entries of its
sections in a layout private to the block, kept under the free pattern of Config (log entry 16). What an entry of its given size
cannot hold follows the entries of its section (log entry 30). -/

namespace Sys2Proof.Machine

/-- The packed bytes of fields, each a width and a value. -/
def packF (fs : List (Nat × Nat)) : List Byte := fs.flatMap fun f => leBytes f.1 f.2

/-- Bytes padded with zeroes, or cut, to a length. -/
def padTo (n : Nat) (bs : List Byte) : List Byte := bytesAt bs 0 n

/-- A Bool as a number. -/
def bN (b : Bool) : Nat := if b then 1 else 0

/-- Flags as the bits of a number, lowest first. -/
def bitsN : List Bool → Nat
  | [] => 0
  | b :: bs => bN b + 2 * bitsN bs

/-- Round up to a multiple of 64. -/
def up64 (n : Nat) : Nat := ceilDiv n 64 * 64

/-! ### Queues and held records -/

/-- QSTATE of a number. -/
def qstateOf : Nat → QState
  | 1 => .active
  | 2 => .blocked
  | 3 => .draining
  | 4 => .halted
  | _ => .absent

/-- A queue's entry of 128 bytes. -/
def queueImage (n : Nat) (q : Queue) : List Byte :=
  let d := q.desc
  let fin := q.finished.foldl (fun m p => m ||| 2 ^ ((p + 2 ^ 32 - q.head.toNat) % 2 ^ 32 % 256)) 0
  padTo 128 (packF [(1, n), (1, q.state.code), (1, d.priority), (1, d.cls), (2, d.context), (2, d.timeoutBeats),
    (1, d.coalCount), (1, d.coalBeats), (2, d.maxInflight), (1, d.sqLog2), (1, d.cqLog2),
    (1, bitsN [d.sqDev, d.cqDev, d.statusDev, d.irqEn, q.stFailed, q.lateTail.isSome, q.lateHead.isSome, q.drain.isSome]),
    (1, q.dbRefused.toNat), (8, d.sqBase.toNat), (8, d.cqBase.toNat), (8, d.statusBase.toNat), (4, q.tail.toNat),
    (4, q.fetch.toNat), (4, q.head.toNat), (4, q.cqTail.toNat), (4, q.cqHead.toNat), (4, (q.lateTail.getD 0).toNat),
    (4, (q.lateHead.getD 0).toNat), (4, (q.drain.getD 0).toNat), (4, q.readNext.toNat), (2, q.skip), (2, q.sinceRecs),
    (2, match q.sinceBeats with
        | some n => n + 1
        | none => 0), (32, fin)])

/-- The queue of an entry, its device addresses moved by `mv`. -/
def queueOfImage (mv : Nat → Nat) (b : List Byte) : Nat × Queue :=
  let fl := fieldAt b 14 1
  let a (bit off : Nat) : BitVec 64 := BitVec.ofNat 64 (if fl.testBit bit then mv (fieldAt b off 8) else fieldAt b off 8)
  let p (off : Nat) : BitVec 32 := BitVec.ofNat 32 (fieldAt b off 4)
  let head := fieldAt b 48 4
  (fieldAt b 0 1,
   { state := qstateOf (fieldAt b 1 1),
     desc := {
       sqBase := a 0 16, cqBase := a 1 24, statusBase := a 2 32, sqLog2 := fieldAt b 12 1, cqLog2 := fieldAt b 13 1,
       sqDev := fl.testBit 0, cqDev := fl.testBit 1, statusDev := fl.testBit 2, irqEn := fl.testBit 3,
       priority := fieldAt b 2 1, cls := fieldAt b 3 1, context := fieldAt b 4 2, timeoutBeats := fieldAt b 6 2,
       coalCount := fieldAt b 8 1, coalBeats := fieldAt b 9 1, maxInflight := fieldAt b 10 2 },
     tail := p 40, fetch := p 44, head := p 48, cqTail := p 52, cqHead := p 56,
     dbRefused := BitVec.ofNat 8 (fieldAt b 15 1), lateTail := if fl.testBit 5 then some (p 60) else none,
     lateHead := if fl.testBit 6 then some (p 64) else none, drain := if fl.testBit 7 then some (p 68) else none,
     readNext := p 72, skip := fieldAt b 76 2, sinceRecs := fieldAt b 78 2,
     sinceBeats := if fieldAt b 80 2 = 0 then none else some (fieldAt b 80 2 - 1), stFailed := fl.testBit 4, stDirty := true,
     shownFetch := p 72,
     finished := ((List.range 256).filter fun i => (fieldAt b 82 32).testBit i).map fun i => (head + i) % 2 ^ 32 })

/-- A held record's entry of 32 bytes. -/
def heldImage (r : Rec) (kept : Bool) : List Byte :=
  padTo 32 (packF [(4, r.sqIndex.toNat), (2, r.node.toNat), (2, r.status.toNat), (8, r.fenceValue.toNat), (2, r.fence.toNat),
    (2, r.context), (1, r.queue), (4, r.beatLo.toNat), (1, bN kept)])

/-- The record of an entry, and whether it was kept beside a full overflow. -/
def heldOfImage (b : List Byte) : Rec × Bool :=
  ({ sqIndex := BitVec.ofNat 32 (fieldAt b 0 4), node := BitVec.ofNat 16 (fieldAt b 4 2),
     status := BitVec.ofNat 16 (fieldAt b 6 2), fenceValue := BitVec.ofNat 64 (fieldAt b 8 8),
     fence := BitVec.ofNat 16 (fieldAt b 16 2), context := fieldAt b 18 2, queue := fieldAt b 20 1,
     beatLo := BitVec.ofNat 32 (fieldAt b 21 4) }, fieldAt b 25 1 == 1)

/-! ### Fences, semaphores and watches -/

/-- A fence's entry of 32 bytes. -/
def fenceImage (f : Fence) : List Byte := padTo 32 (packF [(8, f.value.toNat), (8, f.errTop.toNat), (2, f.err.toNat)])

/-- The fence of an entry. -/
def fenceOfImage (b : List Byte) : Fence :=
  { value := BitVec.ofNat 64 (fieldAt b 0 8), errTop := BitVec.ofNat 64 (fieldAt b 8 8), err := BitVec.ofNat 16 (fieldAt b 16 2) }

/-- A semaphore's entry of 160 bytes: its holder records, and from byte 102 its waiting acquires, by their places among the suspended
commands: their number and the first 28. [DEDUCED, log entry 30] -/
def semImage (m : Sem) (waits : List Nat) : List Byte :=
  padTo 160 (padTo 102 (packF ([(4, m.cap.toNat), (1, bN m.abandoned), (1, m.holders.length)] ++
    m.holders.flatMap fun h => [(2, h.1), (4, h.2)])) ++ packF ((2, waits.length) :: waits.map fun k => (2, k)))

/-- The semaphore of an entry. -/
def semOfImage (b : List Byte) : Sem :=
  { cap := BitVec.ofNat 32 (fieldAt b 0 4), abandoned := fieldAt b 4 1 == 1,
    holders := (List.range (fieldAt b 5 1)).map fun i => (fieldAt b (6 + 6 * i) 2, fieldAt b (8 + 6 * i) 4) }

/-- A watch's entry of 64 bytes. -/
def watchImage (x : Watch) : List Byte :=
  padTo 64 (packF [(1, bitsN [x.forward, x.irq, x.remote, x.fired.isSome]), (1, x.chip), (2, x.wid), (2, x.ctx), (2, x.fence),
    (2, x.target), (2, ((x.fired.map Prod.fst).getD 0).toNat), (4, x.cookie.toNat), (8, x.value.toNat), (8, x.ptr.toNat),
    (8, (x.fired.getD (0, 0, 0)).2.1.toNat), (8, (x.fired.getD (0, 0, 0)).2.2.toNat)])

/-- The entry of a wait that another chip registered. -/
def remoteImage (x : RemoteWait) : List Byte :=
  padTo 64 (packF [(1, 16), (1, x.src), (2, x.wid), (2, 0), (2, x.fence), (2, 0), (2, 0), (4, 0), (8, x.value.toNat)])

/-- Whether an entry is a wait of another chip. -/
def isRemoteImage (b : List Byte) : Bool := (fieldAt b 0 1).testBit 4

/-- The watch of an entry. -/
def watchOfImage (b : List Byte) : Watch :=
  let fl := fieldAt b 0 1
  { wid := fieldAt b 2 2, ctx := fieldAt b 4 2, fence := fieldAt b 6 2, forward := fl.testBit 0, irq := fl.testBit 1,
    remote := fl.testBit 2, chip := fieldAt b 1 1, target := fieldAt b 8 2, value := BitVec.ofNat 64 (fieldAt b 16 8),
    ptr := BitVec.ofNat 64 (fieldAt b 24 8), cookie := BitVec.ofNat 32 (fieldAt b 12 4),
    fired := if fl.testBit 3 then some (BitVec.ofNat 16 (fieldAt b 10 2), BitVec.ofNat 64 (fieldAt b 32 8),
      BitVec.ofNat 64 (fieldAt b 40 8)) else none }

/-- The other chip's wait of an entry. -/
def remoteOfImage (b : List Byte) : RemoteWait :=
  { src := fieldAt b 1 1, wid := fieldAt b 2 2, fence := fieldAt b 6 2, value := BitVec.ofNat 64 (fieldAt b 16 8) }

/-! ### Objects and streams -/

/-- What the image holds of an object: its entry of 32 bytes, then the 64 bytes of its codebook, code length and guard counts;
`freer` is the place of its OBJ_FREE among the suspended commands, counted from 1. [DEDUCED, log entry 30] -/
def objImage (o : Obj) (freer : Nat) : List Byte :=
  let g := o.guards
  padTo 96 (packF ([(1, o.gen), (1, bitsN [o.live, o.pend, o.dev, o.comp, o.remote, o.stream, o.faulted, o.hdrSeen]),
    (2, o.ctx), (1, o.fmt), (1, o.cls + 4 * o.rotSize), (1, o.chip), (1, o.tpp), (8, o.base), (8, o.size),
    (4, o.scale.toNat), (4, freer), (1, o.book.length), (1, o.own), (6, o.codeLen)] ++ (o.book.map fun v => (2, v.toNat)) ++
    (List.replicate (8 - o.book.length) (2, 0)) ++
    [(8, g.codes.toNat), (4, g.clipped.toNat), (4, g.escGroups.toNat), (4, g.escDenied.toNat), (4, g.nan.toNat),
     (4, g.inf.toNat), (4, g.amax.toNat)]))

/-- The object of an entry and its 64 bytes, for slice `s`, with the place of its OBJ_FREE. -/
def objOfImage (s : Nat) (mv : Nat → Nat) (b : List Byte) : Obj × Nat :=
  let fl := fieldAt b 1 1
  let w (off : Nat) : BitVec 32 := BitVec.ofNat 32 (fieldAt b off 4)
  let base := fieldAt b 8 8
  ({ gen := fieldAt b 0 1, own := fieldAt b 33 1, live := fl.testBit 0, pend := fl.testBit 1, slice := s, ctx := fieldAt b 2 2, dev := fl.testBit 2,
     base := if fl.testBit 2 && !fl.testBit 4 then mv base else base, size := fieldAt b 16 8, fmt := fieldAt b 4 1,
     comp := fl.testBit 3, cls := fieldAt b 5 1 % 4, rotSize := fieldAt b 5 1 / 4, chip := fieldAt b 6 1,
     remote := fl.testBit 4, scale := w 24,
     book := (List.range (fieldAt b 32 1)).map fun i => BitVec.ofNat 16 (fieldAt b (40 + 2 * i) 2), codeLen := fieldAt b 34 6,
     stream := fl.testBit 5, tpp := fieldAt b 7 1, faulted := fl.testBit 6, hdrSeen := fl.testBit 7,
     guards := { codes := BitVec.ofNat 64 (fieldAt b 56 8), clipped := w 64, escGroups := w 68, escDenied := w 72, nan := w 76,
                 inf := w 80, amax := w 84 } }, fieldAt b 28 4)

/-- A stream's entry of 64 bytes. -/
def streamImage (i : Nat) (o : Obj) : List Byte :=
  padTo 64 (packF [(4, o.own * 2 ^ 24 + i), (2, o.desc), (4, o.tok), (4, o.pages.length), (1, bN o.faulted)])

/-- A stream's page addresses (R614), eight to 64 bytes. [DESIGN CHOICE, log entry 16; DEDUCED, log entry 30] -/
def pagesImage (o : Obj) : List Byte := padTo (64 * ceilDiv o.pages.length 8) (o.pages.flatMap fun a => leBytes 8 a)

/-- A stream read back: its index, token position and pages. -/
structure StreamIm where
  index : Nat
  tok : Nat
  pages : List Nat
  deriving DecidableEq, Repr

/-- The streams of `n` entries; their pages stand one after another in `pages`. -/
def streamsOf (mv : Nat → Nat) : Nat → List Byte → List Byte → List StreamIm
  | 0, _, _ => []
  | n + 1, b, pages =>
    let k := fieldAt b 10 4
    { index := hIndex (fieldAt b 0 4), tok := fieldAt b 6 4, pages := (List.range k).map fun i => mv (fieldAt pages (8 * i) 8) } ::
      streamsOf mv n (b.drop 64) (pages.drop (64 * ceilDiv k 8))

/-! ### Resident graphs -/

/-- A resident graph: a 64-byte start and its copy. -/
def graphImage (r : Resident) : List Byte :=
  padTo 64 (packF [(1, r.gid), (1, bN r.loading), (4, r.image.length)]) ++ padTo (up64 r.image.length) r.image

/-- The graphs of a section. -/
def graphsOf : Nat → List Byte → List Resident
  | 0, _ => []
  | fuel + 1, b =>
    if b.isEmpty then []
    else
      let n := fieldAt b 2 4
      { gid := fieldAt b 0 1, image := bytesAt b 64 n, loading := fieldAt b 1 1 == 1 } :: graphsOf fuel (b.drop (64 + up64 n))

/-! ### Suspended commands -/

/-- The number of a phase. -/
def Phase.code : Phase → Nat
  | .partBase => 0
  | .fetched => 1
  | .blocked => 2
  | .released => 3
  | .running => 4
  | .stopping => 5

/-- The phase of a number. -/
def phaseOf : Nat → Phase
  | 0 => .partBase
  | 1 => .fetched
  | 2 => .blocked
  | 3 => .released
  | 5 => .stopping
  | _ => .running

/-- The number of what a command waits for. -/
def Waiting.code : Waiting → Nat
  | .none => 0
  | .sem => 1
  | .counter => 2
  | .table => 3
  | .turn => 4
  | .barrier => 5
  | .reclaim => 6
  | .quiesce => 7
  | .slot => 8
  | .revoke => 9
  | .domain => 10
  | .run => 11
  | .queue => 12

/-- What a number says a command waits for. -/
def waitingOf : Nat → Waiting
  | 1 => .sem
  | 2 => .counter
  | 3 => .table
  | 4 => .turn
  | 5 => .barrier
  | 6 => .reclaim
  | 7 => .quiesce
  | 8 => .slot
  | 9 => .revoke
  | 10 => .domain
  | 11 => .run
  | 12 => .queue
  | _ => .none

/-- An optional number, counted from 1. -/
def optN (n : Option Nat) : Nat :=
  match n with
  | some k => k + 1
  | none => 0

/-- The number back. -/
def nOpt (n : Nat) : Option Nat := if n = 0 then none else some (n - 1)

/-- The tile map of an EXEC: a bit for each committed tile. -/
def tileMap (c : Cmd) : List Byte :=
  if c.op = some .exec then
    leBytes (64 * ceilDiv (tileCount c.bytes) 512) (c.tilesDone.foldl (fun m t => m ||| 2 ^ t) 0)
  else []

/-- The state of a node as a number. -/
def NodeSt.code : NodeSt → Nat
  | .waiting => 0
  | .live => 1
  | .ok => 2
  | .failed => 3

/-- The state of a number. -/
def nodeStOf : Nat → NodeSt
  | 1 => .live
  | 2 => .ok
  | 3 => .failed
  | _ => .waiting

/-- The entries of 256 bytes that carry a run on: its node states, its first failure and its packet. -/
def runImage (r : Run) : List Byte :=
  padTo 256 (packF [(4, r.image.length), (2, r.nodes.length), (2, (r.first.getD 0).toNat), (1, bN r.first.isSome),
    (1, optN r.graphId), (1, bN r.started)] ++ leBytes 64 (r.nodes.foldr (fun x m => x.code + 4 * m) 0)) ++
    padTo (256 * ceilDiv r.image.length 256) r.image

/-- A suspended command's entry of 256 bytes and its map; `place` gives a command's place in the section, `runs` says that it is the
entry of a run. In an entry whose successor has not been read its pointer stands for the bytes done. -/
def cmdImage (place : Nat → Option Nat) (runs : Bool) (c : Cmd) : List Byte :=
  padTo 192 c.bytes ++
  padTo 64 (packF [(1, c.qk % 64), (1, c.span), (2, c.node.toNat), (4, c.sqIndex.toNat), (2, c.ctx),
    (1, c.phase.code + 16 * c.waiting.code), (1, c.priority), (3, optN c.timer), (2, optN (c.parent.bind place)),
    (3, optN c.chainPos), (1, bitsN [c.slotTaken, c.waitDone, c.sigDone, c.quietEnd, runs, !c.refs.isEmpty]),
    (1, c.bytes.length / 64), (8, if c.bytes.isEmpty then c.auxNat else c.bytesDone - c.aux.length), (2, c.badStatus.toNat), (8, c.codes), (8, c.clipped), (8, c.escs), (2, c.relOrder)]) ++
  tileMap c

/-- A suspended command read back, with the place of its parent; `runs` says that it is the entry of a run. -/
structure CmdIm where
  cmd : Cmd
  parent : Option Nat
  runs : Bool
  deriving DecidableEq, Repr

/-- The edges of a packet (R189, R190). -/
def packetEdges (b : List Byte) : List (Nat × Nat) :=
  (List.range (fieldAt b 6 2)).map fun i =>
    (fieldAt b (64 + 64 * fieldAt b 4 2 + 4 * i) 2, fieldAt b (66 + 64 * fieldAt b 4 2 + 4 * i) 2)

/-- The run of an entry, from its place in the section. [DESIGN CHOICE, log entry 16] -/
def runOfImage (id : Nat) (b : List Byte) : Run :=
  let image := bytesAt b 256 (fieldAt b 0 4)
  let states := fieldAt b 11 64
  { entry := id, image := image, edges := packetEdges image,
    nodes := (List.range (fieldAt b 4 2)).map fun i => nodeStOf (states / 4 ^ i % 4), decl := packetDecl image,
    first := if fieldAt b 8 1 = 1 then some (BitVec.ofNat 16 (fieldAt b 6 2)) else none,
    started := fieldAt b 10 1 == 1, graphId := nOpt (fieldAt b 9 1) }

/-- The runs of the entries that have one, in their order. -/
def runsOf : List CmdIm → List Byte → List Run
  | [], _ => []
  | x :: rest, b =>
    if x.runs then runOfImage x.cmd.id b :: runsOf rest (b.drop (256 + 256 * ceilDiv (fieldAt b 0 4) 256)) else runsOf rest b

/-- The commands of a section, numbered from `id`, and what follows them. -/
def cmdsOf (s : Nat) : Nat → Nat → List Byte → List CmdIm × List Byte
  | 0, _, b => ([], b)
  | fuel + 1, id, b =>
    let t (off n : Nat) : Nat := fieldAt b (192 + off) n
    let fl := t 20 1
    let bytes := bytesAt b 0 (64 * t 21 1)
    let exec := cOp bytes = some .exec
    let maps := if exec then 64 * ceilDiv (tileCount bytes) 512 else 0
    let done := if exec then (List.range (tileCount bytes)).filter fun i => (fieldAt b 256 maps).testBit i else []
    let c : Cmd := {
      id := id, qk := s * 64 + t 0 1 % 64, slice := some s, ctx := t 8 2, sqIndex := BitVec.ofNat 32 (t 4 4), span := t 1 1,
      node := BitVec.ofNat 16 (t 2 2), bytes := bytes, parent := none, chainPos := nOpt (t 17 3),
      phase := phaseOf (t 10 1 % 16), waiting := waitingOf (t 10 1 / 16), timer := nOpt (t 12 3), priority := t 11 1,
      order := id, relOrder := t 56 2, relSlot := if phaseOf (t 10 1 % 16) = .released then some (64, 0, 0) else none,
      refs := if fl.testBit 5 then (match cOp bytes with
        | some o => refsOf o bytes
        | none => []) else [],
      slotTaken := fl.testBit 0, waitDone := fl.testBit 1, sigDone := fl.testBit 2, quietEnd := fl.testBit 3,
      badStatus := BitVec.ofNat 16 (t 30 2), endStatus := none, suspended := true, tilesDone := done,
      bytesDone := if bytes.isEmpty then 0 else t 22 8, writesLeft := 0, codes := t 32 8, clipped := t 40 8, escs := t 48 8, aux := [],
      auxNat := if bytes.isEmpty then t 22 8 else 0 }
    let rest := cmdsOf s fuel (id + 1) (b.drop (256 + maps))
    ({ cmd := c, parent := nOpt (t 15 2), runs := fl.testBit 4 } :: rest.1, rest.2)

/-! ### The image -/

/-- A section: its bytes and its entry count. -/
abbrev Section := List Byte × Nat

/-- The nine sections of slice `s` (R611). -/
def sections (e : Block) (s : Nat) (w : Work) : List Section :=
  let x := w.slice s
  let qs := w.queues.filter fun p => sliceOf p.1 == some s && p.2.state != .absent
  let held := (qs.flatMap fun p => p.2.held).isort fun a b => a.place ≤ b.place
  let kept := qs.flatMap fun p => p.2.kept
  let cmds := w.cmds.filter fun c => c.slice == some s
  let place (id : Nat) : Option Nat := cmds.findIdx? fun c => c.id == id
  let ixs := (List.range (e.dct.objCount s)).map fun i => e.dct.objFirst s + i
  let freer (o : Obj) : Nat := optN (o.freer.bind place)
  let objs := ixs.map fun i => objImage (w.obj i) (freer (w.obj i))
  let streams := (ixs.filter fun i => (w.obj i).stream && (w.obj i).slice == s).map fun i => (i, w.obj i)
  let waits (i : Nat) : List Nat := ((cmds.filter fun c => c.waiting == .sem && semIndex c.bytes == i).isort (standsBefore w)).filterMap
    fun c => place c.id
  let rank (c : Cmd) : Nat := (cmds.filter fun d => d.relOrder < c.relOrder).length
  [(qs.flatMap fun p => queueImage (p.1 % 64) p.2, qs.length),
   ((held.flatMap fun r => heldImage r false) ++ kept.flatMap fun r => heldImage r true, held.length),
   ((List.range x.fenceCount).flatMap fun i => fenceImage (w.fence s i), x.fenceCount),
   ((List.range x.semCount).flatMap fun i => semImage (w.sem s i) (waits i), x.semCount),
   ((x.watches.flatMap watchImage) ++ x.remoteWaits.flatMap remoteImage, x.watches.length + x.remoteWaits.length),
   ((objs.flatMap fun b => b.take 32) ++ (objs.flatMap fun b => b.drop 32) ++ x.freeIdx.flatMap fun i => leBytes 4 i, ixs.length),
   ((streams.flatMap fun p => streamImage p.1 p.2) ++ padTo 64 (leBytes 4 x.applied.toNat) ++ streams.flatMap fun p => pagesImage p.2,
     streams.length),
   (x.graphs.flatMap graphImage, x.graphs.length),
   ((cmds.flatMap fun c => cmdImage place (w.run c.id).isSome { c with relOrder := rank c }) ++
     (cmds.filterMap fun c => w.run c.id).flatMap runImage, cmds.length)]

/-- Lay sections out from byte `off`, each 64-byte aligned: directory entries and bytes. [DEDUCED, log entry 30] -/
def layOut : Nat → List Section → List Byte × List Byte
  | _, [] => ([], [])
  | off, (b, n) :: rest =>
    let r := layOut (off + up64 b.length) rest
    (leBytes 4 off ++ leBytes 4 n ++ r.1, hide (padTo (up64 b.length) b) ++ r.2)

/-- Overwrite bytes 12 to 15, the CRC. [DEDUCED, log entry 30] -/
def setCrc (b : List Byte) (c : List Byte) : List Byte := b.take 12 ++ c ++ b.drop 16

/-- The image of slice `s` (R610), its CRC in place. [DESIGN CHOICE, log entry 16; DEDUCED, log entry 30] -/
def imageBytes (e : Block) (s : Nat) (w : Work) : List Byte :=
  let x := w.slice s
  let (dir, body) := layOut 256 (sections e s w)
  let head := packF [(4, 0x4D494C53), (2, 0x0001), (2, 0x0203), (2, 0x0104), (2, 0), (4, 0), (8, 256 + body.length),
    (8, e.clk.beat.toNat), (1, x.ctxLog2.toNat), (1, 0), (2, x.fenceCount), (2, x.semCount), (2, x.watchCount),
    (4, e.dct.objFirst s), (4, e.dct.objCount s), (8, e.dct.devBase s), (8, e.dct.devSize s)]
  let b := padTo 128 head ++ padTo 128 dir ++ body
  setCrc b (leBytes 4 (crc32 b).toNat)

/-- The section of a directory entry, in the block's own bytes: the section's length is what the next used one leaves. -/
def sectionOf (b : List Byte) (k len : Nat) : List Byte := hide (bytesAt b (fieldAt b (128 + 8 * k) 4) len)

/-- The entry count of a directory entry. -/
def sectionCount (b : List Byte) (k : Nat) : Nat := fieldAt b (132 + 8 * k) 4

/-- The span of a section of entries of no one size: up to the next section, or the end of the image. -/
def sectionSpan (b : List Byte) (k : Nat) : Nat :=
  (if k = 8 then fieldAt b 16 8 else fieldAt b (128 + 8 * (k + 1)) 4) - fieldAt b (128 + 8 * k) 4

/-- Cut bytes into entries of `n`. -/
def chunks (n : Nat) (b : List Byte) (count : Nat) : List (List Byte) := (List.range count).map fun i => bytesAt b (n * i) n

/-- Begin the writes of a SLICE_SAVE at its save cycle (R609, R612): the whole image but its CRC, or the header alone
where the buffer is too small. [DEDUCED, log entry 30] -/
def beginSave (e : Block) (c : Cmd) (s : Nat) (w : Work) : Work :=
  let b := imageBytes e s w
  let ptr := ptrAddr (fieldAt c.bytes 32 8)
  if fieldAt c.bytes 40 8 < b.length then
    writeFor e none false ptr (b.take 256) (.imageWrite c.id)
      (w.updCmd c.id fun d => { d with waiting := .none, writesLeft := 1, auxNat := 2 })
  else
    let w := w.updCmd c.id fun d => { d with waiting := .none, writesLeft := 2, auxNat := 1, aux := bytesAt b 12 4 }
    let w := writeFor e none false ptr (b.take 12) (.imageWrite c.id) w
    writeFor e none false (ptr + 16) (b.drop 16) (.imageWrite c.id) w

end Sys2Proof.Machine
end

