-- ==== Sys2Proof/Machine/Turn.lean ====
section
/-! DEFINITION. What follows every change of the shared state in the same control cycle: commands that are decided end,
slices that have come to rest become quiescent (R606), a slice whose DISABLE waited for a save enters OFF (R616), and the
slots show what their contexts do (R277). Before them the lanes of the Planer take what waits for them (R392, R404). -/

namespace Sys2Proof.Machine

/-- The slice that an admin command names in bits [5:0] of byte 24. -/
def bodySlice (b : List Byte) : Nat := bitsOf (fieldAt b 24 1) 5 0

/-- Whether nothing of slice `s` runs and nothing of it is unanswered (R606). -/
def atRest (w : Work) (s : Nat) : Bool :=
  (w.tiles.all fun t => !((w.cmd t.cmd).bind Cmd.slice == some s)) &&
  (w.jnr.progs.all fun p => !(p.slice == s)) &&
  (w.slots.all fun p => p.2.state == .free || !(p.2.slice == s)) &&
  (w.fab.reqs.all fun r => !(r.owner == some s)) &&
  (w.cap.teardowns.all fun t => !(t.slice == s)) && (w.late.all fun x => !(x.slice == some s)) &&
  (w.cmds.all fun c => !(c.slice == some s && c.waiting == .table)) &&
  (w.queues.all fun p => !(sliceOf p.1 == some s) ||
    (p.2.due.isEmpty && p.2.recBusy.isNone && !p.2.stBusy && (!p.2.stDirty || p.2.stFailed)))

/-- A FROZEN slice that has come to rest is quiescent: its SLICE_FREEZE ends and a SLICE_SAVE that waits begins
(R606, R609). -/
def quiesce (s : Nat) (w : Work) : Work :=
  if (w.slice s).state == .frozen && !(w.slice s).quiescent && atRest w s then
    let w := w.updSlice s fun x => { x with quiescent := true }
    (w.cmds.filter fun c => c.waiting == .quiesce && c.endStatus.isNone && bodySlice c.bytes == s).foldl (fun w c =>
      if c.op == some .sliceSave then (w.updCmd c.id fun d => { d with waiting := .none }).later (.save c.id)
      else endCmd c.id St.ok w) w
  else w

/-- The save cycle of a SLICE_SAVE (R609): every fence operation of the cycle is in the image (R616). -/
def saveLate (e : Block) (id : Nat) (w : Work) : Work :=
  match w.cmd id with
  | none => w
  | some c =>
    let s := bodySlice c.bytes
    if c.endStatus.isNone && (w.slice s).quiescent && (w.slice s).state == .frozen then beginSave e c s w else w

/-- Whether a SLICE_SAVE of slice `s` has not ended. -/
def saving (w : Work) (s : Nat) : Bool := w.cmds.any fun c => c.op == some .sliceSave && c.slice.isNone &&
  (c.phase == .running || c.phase == .stopping) && bodySlice c.bytes == s

/-- A slice whose DISABLE met a SLICE_SAVE enters OFF once the save has ended (R616). [DEDUCED, log entry 30] -/
def offLate (e : Block) (s : Nat) (w : Work) : Work :=
  if (w.slice s).offDue && !saving w s then sliceOff e s (leaveSlots e s w) else w

/-- Whether a command has been released and has not ended. -/
def Cmd.isReleased (c : Cmd) : Bool := c.phase == .released || c.phase == .running || c.phase == .stopping

/-- Whether a released command can proceed: it waits on no semaphore, counter, barrier, turn or run (R277). -/
def Cmd.proceeds (c : Cmd) : Bool :=
  c.isReleased && !(c.waiting == .sem || c.waiting == .counter || c.waiting == .barrier || c.waiting == .run || c.waiting == .turn)

/-- The state of a resident context by its commands (R277). -/
def residency (w : Work) (s c : Nat) : SlotSt :=
  let cs := w.cmds.filter fun d => d.of s c
  if cs.any Cmd.proceeds then .runnable else if cs.isEmpty then .idle else .blocked

/-- The priority of a context: the highest effective priority among its released commands (R274). -/
def ctxPriority (w : Work) (s c : Nat) : Nat :=
  (w.cmds.filter fun d => d.of s c && d.isReleased).foldl (fun m d => max m (effPriority w d)) 0

/-- Bring a slot's priority, and a resident one's state, up to date (R274, R277, R296). -/
def refreshSlot (w : Work) (x : Slot) : Slot :=
  if x.state == .runnable || x.state == .blocked || x.state == .idle then
    let st := residency w x.slice x.ctx
    { x with state := st, priority := ctxPriority w x.slice x.ctx, beats := if st = x.state then x.beats else 0 }
  else if x.state == .saving || x.state == .loading then { x with priority := ctxPriority w x.slice x.ctx }
  else x

/-- Bring every slot up to date. -/
def refreshSlots (w : Work) : Work := { w with slots := w.slots.map fun p => (p.1, refreshSlot w p.2) }

/-- What follows a change of the shared state. -/
def afterWork (e : Block) (w : Work) : Work :=
  let w := feedPlaner e w
  let w := settle e (settleFuel w) w
  let ss := w.slices.map Prod.fst
  let w := ss.foldl (fun w s => quiesce s w) w
  let w := settle e (settleFuel w) (endLends w)
  refreshSlots (evictReady e (ss.foldl (fun w s => offLate e s w) w))

/-- The block after a change of any of its parts. -/
def Block.after (b : Block) : Block := { b with work := afterWork b b.work }

/-- Whether the parts on the control clock stand still: the block is frozen by a power failure (R631), or in PS3 (R617). -/
def Block.still (b : Block) : Bool := b.pwr.frozen || b.pwr.state == .ps3

/-- A command's effect on the shared state: nothing while the block stands still.
[DESIGN CHOICE, log entry 3; DESIGN CHOICE, log entry 15] -/
def State.onWork (s : State) (f : Block → Work → Work) : State :=
  s.on fun b => if b.still then b else { b with work := afterWork b (f b b.work) }

/-- A command's effect on the block: nothing while the block stands still. -/
def State.onAll (s : State) (f : Block → Block) : State :=
  s.on fun b => if b.still then b else (f b).after

/-- An effect on what the always-on domain holds, in PS3 too: nothing while the block is frozen (R631). R631's list does not
name the I3C target (R97, R99): what it does then is the model's choice. [DESIGN CHOICE, log entry 15] -/
def State.onAon (s : State) (f : Block → Block) : State :=
  s.on fun b => if b.pwr.frozen then b else f b

end Sys2Proof.Machine
end

