-- ==== Sys2Proof/Machine/Sync.lean ====
section
/-! DEFINITION. The sync unit's commands: SYN_OP_CTL (R343), semaphores (R314, R315), counters (R319), watches (R324 to
R333), SIGIN (R309) and the FENCE and WATCH messages (R496, R497). -/

namespace Sys2Proof.Machine

/-- Run `f` on a command that has been released for its opcode and neither ended nor been suspended; a row that finds no
such command leaves the shared state (log entry 3). [DESIGN CHOICE, log entry 3; DESIGN CHOICE, log entry 12] -/
def runCmd (o : Op) (id : Nat) (f : Cmd → Work → Work) (w : Work) : Work :=
  match w.cmd id with
  | some c => if c.phase == .released && c.op == some o && c.endStatus.isNone && !c.suspended then f c w else w
  | none => w

/-- The first message of a type that has arrived for this chip and has not been taken: its port, its arrival time and
itself, and the state without it. [DESIGN CHOICE, log entry 20] -/
def takeMsg (typ : BitVec 8) (w : Work) : Option ((Nat × Nat × Msg) × Work) :=
  match w.msgs.inbox.find? fun x => x.2.2.typ == typ with
  | some x => some (x, { w with msgs := { w.msgs with inbox := w.msgs.inbox.erase x } })
  | none => none

/-- Run `f` on the first message of a type. [DESIGN CHOICE, log entry 3; DESIGN CHOICE, log entry 20] -/
def onMsg (typ : BitVec 8) (f : Msg → Work → Work) (w : Work) : Work :=
  match takeMsg typ w with
  | some (x, w) => f x.2.2 w
  | none => w

/-- A field of a message's payload, by its byte in the message. -/
def Msg.field (m : Msg) (byte n : Nat) : Nat := fieldAt m.payload (byte - 8) n

/-! ### SYN_OP_CTL (R343) -/

/-- Record the status of an operation. -/
def opStatus (st : Status) (w : Work) : Work := { w with sync := { w.sync with opStatus := st } }

/-- Run an operation on index `i` of slice `s` whose pool has `n` entries. -/
def synOp (s i n : Nat) (f : Work → Work) (w : Work) : Work :=
  if (w.slice s).state == .off then opStatus St.stateReject w
  else if n ≤ i then opStatus St.badCommand w
  else f w

/-- FENCE_SIGNAL through SYN_OP_CTL (R302, R305, R343). -/
def synSignal (s i : Nat) (e : Block) (w : Work) : Work :=
  synOp s i (w.slice s).fenceCount (fun w =>
    let o := (w.fence s i).signal w.sync.opValue
    let w := putFence e s i o w
    let w := { w with sync := { w.sync with rdA := (w.fence s i).value } }
    opStatus (if o.saturated then St.fenceSaturated else St.ok) w) w

/-- FENCE_ADD through SYN_OP_CTL (R302, R305, R343). [DESIGN CHOICE, log entry 29] -/
def synAdd (s i : Nat) (e : Block) (w : Work) : Work :=
  synOp s i (w.slice s).fenceCount (fun w =>
    let o := (w.fence s i).add w.sync.opValue
    opStatus (if o.saturated then St.fenceSaturated else St.ok) (putFence e s i o w)) w

/-- FENCE_READ through SYN_OP_CTL (R343). -/
def synRead (s i : Nat) (w : Work) : Work :=
  synOp s i (w.slice s).fenceCount (fun w =>
    let f := w.fence s i
    { w with sync := { w.sync with
        opStatus := St.ok, errStatus := f.err, rdA := f.value, rdB := if f.err = 0 then 0 else f.errTop } }) w

/-- SEM_READ through SYN_OP_CTL (R343). -/
def synSemRead (s i : Nat) (w : Work) : Work :=
  synOp s i (w.slice s).semCount (fun w =>
    let m := w.sem s i
    { w with sync := { w.sync with
        opStatus := St.ok, rdA := BitVec.ofNat 64 (m.cap.toNat * 2 ^ 32 + m.held % 2 ^ 32),
        rdB := BitVec.ofNat 64 ((if m.abandoned then 1 else 0) + 16 * m.holders.length) } }) w

/-- FENCE_SIGNAL. -/
def execFenceSignal (slice index : Nat) (s : State) : Host.Outcome State Fault Refusal :=
  .next (s.onWork (synSignal slice index))

/-- FENCE_ADD. -/
def execFenceAdd (slice index : Nat) (s : State) : Host.Outcome State Fault Refusal :=
  .next (s.onWork (synAdd slice index))

/-- FENCE_READ. -/
def execFenceRead (slice index : Nat) (s : State) : Host.Outcome State Fault Refusal :=
  .next (s.onWork fun _ w => synRead slice index w)

/-- SEM_READ. -/
def execSemRead (slice index : Nat) (s : State) : Host.Outcome State Fault Refusal :=
  .next (s.onWork fun _ w => synSemRead slice index w)

/-! ### Semaphores (R314, R315) -/

/-- A command begins to wait (R314, R319): it has the watch slot that its release took where it had to wait (R322). `settle` ends the
wait. -/
def beginWait (now : Bool) (c : Cmd) (w : Work) : Work := w.updCmd c.id fun _ => { c with slotTaken := c.slotTaken || !now }

/-- SEM_ACQUIRE (R314): it is granted at once where it stands first and its units are free, else it begins to wait. -/
def acquireBegin (c : Cmd) (w : Work) : Work :=
  let c := { c with phase := .running, waiting := .sem, relOrder := w.nextOrder }
  let w := { w with nextOrder := w.nextOrder + 1 }
  if acquireReady w c then grantAcquire c w else beginWait false c w

/-- SEM_RELEASE (R315). -/
def releaseUnits (c : Cmd) (w : Work) : Work :=
  match c.slice with
  | none => w
  | some s =>
    let i := semIndex c.bytes
    let held := (w.sem s i).holding c.ctx
    if held < semUnits c.bytes then endCmd c.id St.stateReject w
    else endCmd c.id St.ok (w.updSem s i fun m => m.setHolding c.ctx (held - semUnits c.bytes))

/-- SEM_ACQUIRE. -/
def execSemAcquire (id : Nat) (s : State) : Host.Outcome State Fault Refusal :=
  .next (s.onWork fun _ w => runCmd .semAcquire id acquireBegin w)

/-- SEM_RELEASE. -/
def execSemRelease (id : Nat) (s : State) : Host.Outcome State Fault Refusal :=
  .next (s.onWork fun _ w => runCmd .semRelease id releaseUnits w)

/-! ### COUNTER_OP (R318 to R321) -/

/-- The largest counter. -/
def counterMax : Nat := 2 ^ 32 - 1

/-- Whether two COUNTER_OPs name one counter or one CAPACITY. -/
def sameCounter (a b : Cmd) : Bool :=
  a.slice == b.slice && fieldAt a.bytes 24 2 == fieldAt b.bytes 24 2 && fieldAt a.bytes 26 1 == fieldAt b.bytes 26 1 &&
    (fieldAt a.bytes 26 1 == 1 || a.ctx == b.ctx)

/-- Whether a COUNTER_OP that was released earlier on the same counter has still to act (R342). -/
def counterLater (w : Work) (c : Cmd) : Bool :=
  w.cmds.any fun d => d.op == some .counterOp && d.phase == .released && d.endStatus.isNone && fieldAt d.bytes 27 1 != 3 &&
    decide (d.relOrder < c.relOrder) && sameCounter d c

/-- Change what a COUNTER_OP names, and end it: a semaphore's CAPACITY, or a counter of the slot that its context held as it
was released (R321). Where that context has left the slot since, the counter it changed has been cleared, and only its
status is left. Operations on one counter act in the order of release (R342). -/
def counterApply (op : Nat) (f : Nat → Nat × Status) (c : Cmd) (w : Work) : Work :=
  match c.slice with
  | none => w
  | some s =>
    let i := fieldAt c.bytes 24 2
    if fieldAt c.bytes 27 1 ≠ op || counterLater w c then w
    else if fieldAt c.bytes 26 1 = 1 then
      let r := f (w.sem s i).cap.toNat
      endCmd c.id r.2 (w.updSem s i fun m => { m with cap := BitVec.ofNat 32 r.1 })
    else match c.relSlot with
      | none => w
      | some (k, load, v) =>
        if w.residentSlot s c.ctx = some k ∧ (w.slot k).load = load then
          let r := f (tblGet 0 (w.slot k).counters i).toNat
          endCmd c.id r.2 (w.updSlot k fun x => { x with counters := tblSet 0 x.counters i (BitVec.ofNat 32 r.1) })
        else endCmd c.id (f v.toNat).2 w

/-- VALUE of a COUNTER_OP. -/
def counterValue (c : Cmd) : Nat := fieldAt c.bytes 28 4

/-- ADD (R319): the new value and the command's status. -/
def counterAdd (v x : Nat) : Nat × Status :=
  if x + v > counterMax then (counterMax, St.counterSaturated) else (x + v, St.ok)

/-- SUB (R319). -/
def counterSub (v x : Nat) : Nat × Status := if v > x then (0, St.counterSaturated) else (x - v, St.ok)

/-- WAIT_GE (R319). -/
def counterWait (c : Cmd) (w : Work) : Work :=
  if fieldAt c.bytes 27 1 ≠ 3 then w
  else
    let c := { c with phase := .running, waiting := .counter }
    beginWait (waitMet w c) c w

/-- COUNTER_OP with OP SET. -/
def execCounterOpSet (id : Nat) (s : State) : Host.Outcome State Fault Refusal :=
  .next (s.onWork fun _ w => runCmd .counterOp id (fun c => counterApply 0 (fun _ => (counterValue c, St.ok)) c) w)

/-- COUNTER_OP with OP ADD. -/
def execCounterOpAdd (id : Nat) (s : State) : Host.Outcome State Fault Refusal :=
  .next (s.onWork fun _ w => runCmd .counterOp id (fun c => counterApply 1 (counterAdd (counterValue c)) c) w)

/-- COUNTER_OP with OP SUB. -/
def execCounterOpSub (id : Nat) (s : State) : Host.Outcome State Fault Refusal :=
  .next (s.onWork fun _ w => runCmd .counterOp id (fun c => counterApply 2 (counterSub (counterValue c)) c) w)

/-- COUNTER_OP with OP WAIT_GE. -/
def execCounterOpWaitGe (id : Nat) (s : State) : Host.Outcome State Fault Refusal :=
  .next (s.onWork fun _ w => runCmd .counterOp id counterWait w)

/-! ### Watches (R324 to R333) -/

/-- The watch that a WATCH_ADD names (R324). -/
def watchOf (c : Cmd) : Watch :=
  let b := c.bytes
  { wid := fieldAt b 52 2, ctx := c.ctx, fence := fieldAt b 24 2, forward := fieldAt b 26 1 == 1,
    irq := (fieldAt b 27 1).testBit 0, remote := (fieldAt b 27 1).testBit 1, chip := bitsOf (fieldAt b 28 1) 5 0,
    target := fieldAt b 30 2, value := BitVec.ofNat 64 (fieldAt b 32 8), ptr := BitVec.ofNat 64 (fieldAt b 40 8),
    cookie := BitVec.ofNat 32 (fieldAt b 48 4), fired := none }

/-- A WATCH_REG to the chip of a REMOTE watch (R330, R490). -/
def sendWatchReg (e : Block) (s : Nat) (x : Watch) (w : Work) : Work :=
  sendMsg e (mkMsg e 0x11 x.chip s (leBytes 2 x.fence ++ leBytes 2 x.wid ++ leBytes 4 0 ++ leBytes 8 x.value.toNat)) w

/-- A watch is registered: a FORWARD sends the fence as it stands (R329), a REMOTE registers on its chip (R330), a NOTIFY
whose condition holds fires at once (R325). -/
def registerWatch (e : Block) (s : Nat) (x : Watch) (w : Work) : Work :=
  let f := w.fence s x.fence
  if (x.forward || x.remote) && (!e.frm.joined || !reachable e x.chip) then
    -- R331
    writeWatchRecord e s x St.peerLost (if x.remote then 0 else f.value) w
  else
    let w := w.updSlice s fun y => { y with watches := y.watches ++ [x] }
    if x.forward then
      let w := sendFence e x.chip s x.target none f.value w
      if f.err ≠ 0 then sendFence e x.chip s x.target (some f.err) f.errTop w else w
    else if x.remote then sendWatchReg e s x w
    else if x.value ≤ f.value then fireWatch e s x St.ok f.value w
    else if f.err = 0 then w else w.later (.resolve s x.fence)

/-- WATCH_ADD (R325). -/
def watchBegin (e : Block) (c : Cmd) (w : Work) : Work :=
  match c.slice with
  | none => w
  | some s =>
    let x := watchOf c
    if (w.slice s).watches.any fun y => y.wid == x.wid then endCmd c.id St.stateReject w
    else if !slotFree w s then endCmd c.id St.watchFull w
    else endCmd c.id St.ok (registerWatch e s x w)

/-- WATCH_CANCEL (R333, R497). -/
def watchEnd (e : Block) (c : Cmd) (w : Work) : Work :=
  match c.slice with
  | none => w
  | some s =>
    let wid := fieldAt c.bytes 52 2
    match (w.slice s).watches.find? fun y => y.wid == wid with
    | none => endCmd c.id St.stateReject w
    | some _ => endCmd c.id St.ok (dropWatches e s (fun y => y.wid == wid) St.watchCancelled w)

/-- WATCH_ADD. -/
def execWatchAdd (id : Nat) (s : State) : Host.Outcome State Fault Refusal :=
  .next (s.onWork fun e w => runCmd .watchAdd id (watchBegin e) w)

/-- WATCH_CANCEL. -/
def execWatchCancel (id : Nat) (s : State) : Host.Outcome State Fault Refusal :=
  .next (s.onWork fun e w => runCmd .watchCancel id (watchEnd e) w)

/-! ### SIGIN and messages (R309, R496, R497) -/

/-- Count an update that names no fence in service (R309, R496). -/
def countDropped (w : Work) : Work := { w with sync := { w.sync with dropped := w.sync.dropped + 1 } }

/-- Whether a fence of a slice is in service. -/
def fenceServed (w : Work) (s i : Nat) : Bool := !((w.slice s).state == .off) && i < (w.slice s).fenceCount

/-- Whether a command waits for a SIGIN update of its own to be applied (R234). -/
def awaitsSigin (w : Work) (c : Cmd) (s i : Nat) (v : BitVec 64) : Bool :=
  (c.op == some .exec || c.op == some .copy || c.op == some .fill) && c.phase == .running && c.endStatus.isNone &&
    c.auxNat == sigSent && sigOf w c == some (s, i) && cSigValue c.bytes == v

/-- SIGIN (R309): the update is applied as a signal, and the command whose last signalled write carried it ends (R234,
R305). [DEDUCED, log entry 14] -/
def siginApply (s i : Nat) (v : BitVec 64) (e : Block) (w : Work) : Work :=
  if !fenceServed w s i then countDropped w
  else
    let o := (w.fence s i).signal v
    let w := putFence e s i o w
    match w.cmds.find? fun c => awaitsSigin w c s i v with
    | some c => (if o.saturated then w else countGuard c s w).updCmd c.id fun d => { d.endWith (if o.saturated then St.fenceSaturated else St.ok) with sigDone := true }
    | none => w

/-- SIGIN_UPDATE. -/
def execSiginUpdate (slice fence : Nat) (value : BitVec 64) (s : State) : Host.Outcome State Fault Refusal :=
  .next (s.onWork (siginApply slice fence value))

/-- A FENCE message (R496). -/
def fenceMsg (e : Block) (m : Msg) (w : Work) : Work :=
  let s := m.slice.toNat
  let i := m.field 8 2
  let v := BitVec.ofNat 64 (m.field 16 8)
  if !fenceServed w s i then countDropped w
  else if (m.field 10 1).testBit 0 then markFence s i (BitVec.ofNat 16 (m.field 12 2)) (some v) w
  else signalFence e s i v w

/-- A WATCH_REG message (R330, R497, R607): where its slice is OFF or its fence none of the pool, the wait ends at once
with a WATCH_DROP whose status the spec does not name. [DESIGN CHOICE, log entry 28] -/
def watchRegMsg (e : Block) (m : Msg) (w : Work) : Work :=
  let s := m.slice.toNat
  let i := m.field 8 2
  let wid := m.field 10 2
  let v := BitVec.ofNat 64 (m.field 16 8)
  let src := m.src.toNat
  let f := w.fence s i
  if (w.slice s).state == .fenced then sendWatchDrop e src s wid St.pasidRevoked w
  else if (w.slice s).quiet then sendWatchNotify e src s wid St.sliceFrozen f.value w
  else if (w.slice s).state == .off || (w.slice s).fenceCount ≤ i then
    let d := w.draw
    sendWatchDrop e src s wid ((Config.freeWord d.1).setWidth 16) d.2
  else if !slotFree w s then sendWatchNotify e src s wid St.watchFull f.value w
  else if v ≤ f.value then sendWatchNotify e src s wid St.ok f.value w
  else
    let w := w.updSlice s fun x => { x with remoteWaits := x.remoteWaits ++ [{ src := src, wid := wid, fence := i, value := v }] }
    if f.err = 0 then w else w.later (.resolve s i)

/-- The REMOTE watch of slice `s` that chip `d` holds for us under an id. -/
def remoteWatch (w : Work) (s wid d : Nat) : Option Watch :=
  (w.slice s).watches.find? fun x => x.remote && x.wid == wid && x.chip == d && x.fired.isNone

/-- A WATCH_NOTIFY message (R330). -/
def watchNotifyMsg (e : Block) (m : Msg) (w : Work) : Work :=
  let s := m.slice.toNat
  match remoteWatch w s (m.field 8 2) m.src.toNat with
  | some x => fireWatch e s x (BitVec.ofNat 16 (m.field 10 2)) (BitVec.ofNat 64 (m.field 16 8)) w
  | none => w

/-- A WATCH_DROP message (R497): it cancels a wait that its sender registered here; where there is none it ends the watch
that this chip registered there, with VALUE zero (R327). -/
def watchDropMsg (e : Block) (m : Msg) (w : Work) : Work :=
  let s := m.slice.toNat
  let wid := m.field 8 2
  let src := m.src.toNat
  if (w.slice s).remoteWaits.any fun x => x.src == src && x.wid == wid then
    w.updSlice s fun y => { y with remoteWaits := y.remoteWaits.filter fun x => !(x.src == src && x.wid == wid) }
  else match remoteWatch w s wid src with
    | some x => fireWatch e s x (BitVec.ofNat 16 (m.field 10 2)) 0 w
    | none => w

/-- FENCE_MESSAGE. -/
def execFenceMessage (s : State) : Host.Outcome State Fault Refusal :=
  .next (s.onWork fun e w => onMsg 0x10 (fenceMsg e) w)

/-- WATCH_REG. -/
def execWatchReg (s : State) : Host.Outcome State Fault Refusal :=
  .next (s.onWork fun e w => onMsg 0x11 (watchRegMsg e) w)

/-- WATCH_NOTIFY. -/
def execWatchNotify (s : State) : Host.Outcome State Fault Refusal :=
  .next (s.onWork fun e w => onMsg 0x12 (watchNotifyMsg e) w)

/-- WATCH_DROP. -/
def execWatchDrop (s : State) : Host.Outcome State Fault Refusal :=
  .next (s.onWork fun e w => onMsg 0x13 (watchDropMsg e) w)

end Sys2Proof.Machine
end

