-- ==== Sys2Proof/Machine/Tiles.lean ====
section
/-! DEFINITION. Tiles on engine ports: EXEC, binding and staging, the offer and the start, results, the endings of tiles,
kills and overruns (R36 to R45, R80 to R90, R176 to R180, R269 to R288, R398), and the entry into a port's ladder (R574). -/

namespace Sys2Proof.Machine

/-! ### EXEC, staging and commits -/

/-- EXEC is handed to the matrix fetchers (R171, R176, R180): a port must be populated and not retired, and check 7 of R173
must pass. -/
def execRelease (e : Block) (c : Cmd) (w : Work) : Work :=
  if !((List.range 16).any fun p => (w.port p).present && (w.port p).state != .retired) then endCmd c.id St.stateReject w
  else if !execReleaseOk e.dct w c.bytes then endCmd c.id St.badCommand w
  else w.updCmd c.id fun d => { d with phase := .running, tilesDone := [], codes := 0, clipped := 0, escs := 0 }

/-- EXEC. -/
def execExecTiles (id : Nat) (s : State) : Host.Outcome State Fault Refusal :=
  .next (s.onWork fun e w => runCmd .exec id (execRelease e) w)

/-- TILE_BIND. [DESIGN CHOICE, log entry 23] -/
def execTileBind (id tile : Nat) (s : State) : Host.Outcome State Fault Refusal := .next (s.onWork fun e w => bindTile e id tile w)

/-- EXPANDER_UNIT_DONE. -/
def execExpanderUnitDone (lane : Nat) (s : State) : Host.Outcome State Fault Refusal :=
  .next (s.onWork fun e w => finishUnit e lane w)

/-- TABLE_LOAD. -/
def execTableLoad (lane : Nat) (s : State) : Host.Outcome State Fault Refusal :=
  .next (s.onWork fun e w => finishTable e lane w)

/-- COMMIT_DONE. -/
def execCommitDone (lane : Nat) (s : State) : Host.Outcome State Fault Refusal :=
  .next (s.onWork fun _ w => finishCommit lane w)

/-! ### The offer (R80, R83, R271, R272, R288) -/

/-- The Tenon ports on which a tile reserves a credit at its start (R288, R332, R501): one for each FORWARD watch on its command's
SIGNAL_FENCE whose route is UP. -/
def creditPorts (e : Block) (w : Work) (c : Cmd) : List Nat :=
  match sigOf w c with
  | none => []
  | some (s, i) =>
    ((w.slice s).watches.filter fun x => x.forward && x.fence == i && x.fired.isNone).filterMap fun x =>
      (routeTo e x.chip).bind fun p => if portUp e p then some p else none

/-- Whether the credits of a tile are available (R288, R500). [DESIGN CHOICE, log entry 23] -/
def creditsFree (e : Block) (w : Work) (ps : List Nat) : Bool :=
  ps.all fun p => tblGet 0 w.msgs.credits p + (ps.filter (· == p)).length ≤ e.dct.localCredits

/-- Whether a staged tile qualifies on its port, the port being free apart (R271, R279). -/
def qualifies (e : Block) (w : Work) (t : Tile) : Bool :=
  t.state == .staged &&
  (match w.cmd t.cmd with
   | none => false
   | some c => match c.slice with
     | none => false
     | some s =>
       c.phase == .running && c.endStatus.isNone && !c.suspended && (w.slice s).runs && !(w.ctx s c.ctx).stopped &&
         staysResident w s c.ctx && (w.port t.port).grants.contains s && creditsFree e w (creditPorts e w c))

/-- Where a slice stands in a grant list. -/
def grantRank (w : Work) (t : Tile) : Nat :=
  match (w.cmd t.cmd).bind Cmd.slice with
  | some s => (w.port t.port).grants.findIdx (· == s)
  | none => (w.port t.port).grants.length

/-- The tile that R272 chooses among tiles of a port. -/
def chooseTile (w : Work) (ts : List Tile) : Option Tile :=
  ts.foldl (fun (best : Option Tile) t => match best with
    | none => some t
    | some b =>
      let p := tilePriority w t
      let q := tilePriority w b
      if q < p || (q == p && (grantRank w t < grantRank w b || (grantRank w t == grantRank w b && t.order < b.order))) then some t
      else some b) none

/-- Whether a port may be offered a tile (R83, R271): in service, with no tile offered or running, no operand beat to be
accepted, no kill or soft reset, and their acknowledgements low. -/
def portFree (w : Work) (p : Nat) : Bool :=
  let x := w.port p
  x.inService && x.opd.isEmpty && !w.pln.inReset && !w.pln.engineDomain && !x.kill && !x.killAck && !x.srst && !x.srstAck &&
    (runningTile w p).isNone && (offeredTile w p).isNone

/-- The tile descriptor (R80). -/
def tileDesc (c : Cmd) (t : Tile) (tileId : BitVec 8) : BitVec 512 :=
  BitVec.ofNat 512 (tileId.toNat + (c.ctx % 4096) * 2 ^ 8 + (c.slice.getD 0 % 64) * 2 ^ 20 + t.index * 2 ^ 32 +
    resultKib c.bytes * 2 ^ 64 + (((List.range 8).map fun k => (execSlot c.bytes k).elems * 2 ^ (128 + 32 * k)).sum) +
    fieldAt c.bytes 24 16 * 2 ^ 384)

/-- Change one tile. -/
def updTile (t : Tile) (f : Tile → Tile) (w : Work) : Work := w.mapTiles fun x => if sameTile x t.cmd t.index then f x else x

/-- Offer the tile that R272 chooses: it takes the port's next number (R80, R83). -/
def offerTile (e : Block) (p : Nat) (w : Work) : Work :=
  if !portFree w p then w
  else match chooseTile w ((tilesOn w p).filter (qualifies e w)) with
    | none => w
    | some t => match w.cmd t.cmd with
      | none => w
      | some c =>
        let n := (w.port p).nextTile
        let w := updTile t (fun x => { x with state := .offered, tileId := n }) w
        (w.updPort p fun x => { x with nextTile := n + 1 }).emit (.tileDesc p (tileDesc c t n))

/-- TILE_OFFER. -/
def execTileOffer (port : Nat) (s : State) : Host.Outcome State Fault Refusal :=
  .next (s.onWork fun e w => offerTile e port w)

/-! ### The start (R83, R84, R87, R361, R364, R373) -/

/-- The elements of a RAW operand, unchanged (R361). -/
def rawElems (opdFmt n : Nat) (b : List Byte) : List Nat :=
  let k := rawElemBytes opdFmt
  (List.range n).map fun i => fieldAt b (k * i) k

/-- How many elements a dequantizer converts in a cycle (R399), for each stretch of an operand of one rate: the stretch's elements
and the rate. -/
def convertRates (o : Obj) (n : Nat) (b : List Byte) : List (Nat × Nat) :=
  if isCode o.fmt then
    let rate (g : List Byte) : Nat := if g.getD 0 0 = 0xFF then 256 else if o.fmt = 4 || o.fmt = 5 then 1024 else 512
    ((splitGroups o.fmt (n / 32) b).splitBy fun x y => rate x == rate y).map fun gs => (32 * gs.length, rate (gs.getD 0 []))
  else [(n, if o.fmt = 0 then 512 else 256)]

/-- The element counts of an operand's beats: each carries the elements converted in one cycle (R400). No beat takes elements of two
rates. [DESIGN CHOICE, log entry 23] -/
def beatSizes (rates : List (Nat × Nat)) : List Nat :=
  rates.flatMap fun r => (List.range (ceilDiv r.1 r.2)).map fun i => min r.2 (r.1 - i * r.2)

/-- Elements of `k` bytes packed from bit 0 (R84). -/
def packElems (k : Nat) (xs : List Nat) : BitVec 16384 := BitVec.ofNat 16384 (xs.zipIdx.map fun x => x.1 % 2 ^ (8 * k) * 2 ^ (8 * k * x.2)).sum

/-- The beats of a slot: `xs` are the delivered elements, `es` the elements as their operand holds them. -/
def slotBeats (mk : Nat → BitVec 16384 → Bool → Nat → Nat → OpdBeat) (k : Nat) : List Nat → List Nat → List Elem → List OpdBeat
  | [], _, _ => []
  | n :: ns, xs, es =>
    mk n (packElems k (xs.take n)) ns.isEmpty (nanCount (es.take n)) (infCount (es.take n)) ::
      slotBeats mk k ns (xs.drop n) (es.drop n)

/-- The beats in which the dequantizer delivers slot `k` of a tile (R84, R361, R364, R373, R400). -/
def deliverSlot (w : Work) (p s : Nat) (c : Cmd) (t : Tile) (k : Nat) : List OpdBeat :=
  let x := execSlot c.bytes k
  if x.elems = 0 then []
  else
    let o := slotObj w c k
    let f := (w.port p).opdFmt
    let b := (t.slots.getD k {}).bytes
    let es := if o.fmt = 0 then [] else operandElems o x.elems b
    let xs := if o.fmt = 0 then rawElems f x.elems b else deliver (portFlt f) x.rot x.rotSize es
    slotBeats (fun n d last nan inf => {
        tileId := t.tileId, slot := k, count := n, data := d, last := last, slice := s, obj := hIndex x.handle, nan := nan, inf := inf })
      (rawElemBytes f) (beatSizes (convertRates o x.elems b)) xs es

/-- The engine accepts a port's next operand beat (R84). -/
def acceptBeat (p : Nat) (w : Work) : Work :=
  match (w.port p).opd with
  | [] => w
  | x :: rest =>
    (countSpecials x.slice x.obj x.nan x.inf (w.updPort p fun y => { y with opd := rest })).emit
      (.operandBeat p x.tileId x.slot x.count x.data x.last)

/-- Why a tile that the engine takes is killed at once: its context is stopped or its command has ended (R560, R562), or its
operands have failed or been lost while its offer stood (R50, R398, R578).
[DESIGN CHOICE, log entry 5; DESIGN CHOICE, log entry 24] -/
def startKill (w : Work) (t : Tile) : Option KillWhy :=
  match w.cmd t.cmd with
  | none => some .teardown
  | some c => match c.slice with
    | none => some .teardown
    | some s =>
      if c.endStatus.isSome || c.phase != .running then some .timeout
      else if (w.ctx s c.ctx).stopped then some .teardown
      else if w.pln.inReset then some .planerReset
      else if t.bad then some .kilnError
      else none

/-- The engine takes the offered tile, where its credits are there (R288): they are reserved, its result area is zeroed, and the
dequantizer begins with its operands. A port in reset starts none (R582). [DESIGN CHOICE, log entry 23] -/
def startTile (e : Block) (p : Nat) (w : Work) : Work :=
  match offeredTile w p with
  | none => w
  | some t =>
    let ps := ((w.cmd t.cmd).map (creditPorts e w)).getD []
    if !(w.port p).inService || w.pln.engineDomain || !creditsFree e w ps then w
    else
      let w := updTile t (fun x => { x with
        state := .running, result := [], startCycle := e.clk.cycle, grace := false, beats := 0, credits := ps }) w
      let w := { w with msgs := { w.msgs with credits := ps.foldl (fun m q => tblUpd 0 m q (· + 1)) w.msgs.credits } }
      let w := w.updPort p fun x => { x with overrun := false }
      match startKill w t with
      | some why => killPort p why w
      | none => match w.cmd t.cmd with
        | some c => w.updPort p fun x => { x with opd := (List.range 8).flatMap fun k => deliverSlot w p (c.slice.getD 0) c t k }
        | none => w

/-- TILE_START. -/
def execTileStart (port : Nat) (s : State) : Host.Outcome State Fault Refusal :=
  .next (s.onWork fun e w => startTile e port w)

/-! ### The ladder (R569, R573 to R576, R595) -/

/-- The highest rung of a port's ladder is kept, and shown by the capture that the ladder's event took (R584, R588). -/
def noteRung (p rung : Nat) (w : Work) : Work :=
  let w := w.updPort p fun x => { x with lastRung := BitVec.ofNat 4 rung, ladder := x.ladder.map fun l => { l with rung := rung } }
  captureRung (((w.port p).ladder.map Ladder.seq).getD 0) rung w

/-- The rung at which a port stands; 0 outside a ladder. -/
def rungOf (w : Work) (p : Nat) : Nat := ((w.port p).ladder.map Ladder.rung).getD 0

/-- The ports that an engine domain reset takes: those present and not retired, but for ports that are being retired (R577). -/
def resetDomainPorts (w : Work) : List Nat :=
  (List.range 16).filter fun p => (w.port p).present && (w.port p).state != .retired && rungOf w p < 3

/-- The engine domain enters reset (R577 steps 1 and 2): ISO_EN_PLN and ISO_EN_ENGn rise, and ENGn_HRST_N falls; a ladder that
runs, or a rung that waited for a tile to end, goes on as the domain's hard reset (R572).
[DESIGN CHOICE, log entry 48] -/
def beginEngineDomain (w : Work) : Work :=
  let w := { w with pln := { w.pln with engineDomain := true, inReset := true } }.updSwitch .pln fun x => { x with iso := true }
  (resetDomainPorts w).foldl (fun w p => (w.updSwitch (.eng p) fun x => { x with iso := true }).updPort p fun x => { x with
    state := .hardReset, srst := false, kill := false, killWhy := none, killFresh := false, done := none, fault := none,
    overKill := false, overrun := false, opd := [], due := none,
    ladder := (x.ladder.map fun l => { l with rung := max l.rung 2 }).or (x.due.bind fun d => d.2.2.1.map fun id =>
      { rung := 2, named := d.1, status := d.2.1, cmd := some id, seq := d.2.2.2 }),
    hrstN := false, hrstWait := 0, idle := false }) w

/-- The control cycles for which a hard reset holds ENGn_HRST_N low (R92). -/
def hrstCycles : Nat := 64

/-- A control cycle of ENGn_HRST_N low passes; it rises after the last (R92). -/
def Port.resetPasses (x : Port) : Port :=
  if x.hrstWait ≤ 1 then { x with hrstWait := 0, hrstN := true } else { x with hrstWait := x.hrstWait - 1 }

/-- Rung 3 (R573): ISO_EN_ENGn is up, and PSW_EN_ENGn falls. -/
def beginRetire (p : Nat) (w : Work) : Work :=
  (noteRung p 3 w).updSwitch (.eng p) fun x => { x with iso := true, on := false }

/-- A port's rung begins (R92, R573, R575): the second rung goes on to the third at once where it starts too often. -/
def startRung (e : Block) (p rung : Nat) (w : Work) : Work :=
  let w := noteRung p rung w
  if rung = 1 then
    w.updPort p fun x => { x with state := .softReset, srst := true, soft := satInc x.soft }
  else if rung = 2 then
    let w := w.updPort p fun x => { x with
      state := .hardReset, srst := false, hrstN := false, hrstWait := hrstCycles, idle := false, hard := satInc x.hard }
    if e.dct.retireAfter ≤ (w.port p).hard.toNat then beginRetire p w
    else (w.updSwitch (.eng p) fun x => { x with iso := true }).emit (.hardReset p)
  else if rung = 3 then
    beginRetire p (w.updPort p fun x => { x with state := .hardReset, srst := false, idle := false })
  else beginEngineDomain w

/-- Tiles bound to a port that have not started return to ready (R295, R574). -/
def unbindPort (p : Nat) (w : Work) : Work :=
  ((tilesOn w p).filter fun t => t.state == .staging || t.state == .staged || t.state == .offered).foldl
    (fun w t => discardUnits t.cmd t.index (dropTile t.cmd t.index w)) w

/-- The event of an entry into a port's ladder: the port, and the context that the fault names (R584, R590). -/
def ladderEvent (p rung : Nat) (st : Status) (ctx : Option (Nat × Nat × Nat)) : Event :=
  { trigger := st, domain := 1, index := p, rung := rung, slice := (ctx.map Prod.fst).getD 0xFF,
    ctx := ctx.map fun x => x.2.1, cmd := ctx.map fun x => x.2.2,
    concern := match ctx with
      | some x => .context x.1 x.2.1
      | none => .portOnly p }

/-- A port enters its ladder (R574, R595): tiles bound to the port return to ready, and the rung begins. `dcmd` is the
DOMAIN_RESET that asks for it, `seq` the SEQ of the event's capture. -/
def enterLadder (e : Block) (p rung : Nat) (st : Status) (dcmd : Option Nat) (seq : Nat) (w : Work) : Work :=
  let w := recordReset 1 p st w
  let w := unbindPort p w
  let w := w.updPort p fun x => { x with
    kill := false, killAck := false, killWhy := none, killFresh := false, done := none, fault := none, overKill := false, opd := [],
    due := none, overrun := false,
    ladder := some { rung := rung, named := if dcmd.isSome then rung else 0, status := st, cmd := dcmd, seq := seq } }
  startRung e p rung w

/-- The context of a command, for an event. -/
def cmdContext (w : Work) (id : Nat) : Option (Nat × Nat × Nat) :=
  (w.cmd id).bind fun c => c.slice.map fun s => (s, c.ctx, id)

/-- Count a hang on a port (R595). -/
def countHang (p : Nat) (w : Work) : Work := w.updPort p fun x => { x with hung := satInc x.hung }

/-- Count a fault or an overrun on a port (R595). -/
def countFault (p : Nat) (w : Work) : Work := w.updPort p fun x => { x with faults := satInc x.faults }

/-! ### Tile time (R154, R259, R283) -/

/-- Charge a tile's time: to its context's ENGINE_NS, and to the deficit of slice `payer`. -/
def chargeTile (e : Block) (t : Tile) (cycles : Nat) (payer : Option Nat) (w : Work) : Work :=
  let ns := cyclesToNs e.dct cycles
  let w := match cmdContext w t.cmd with
    | some x => w.updCtx x.1 x.2.1 fun y => { y with engineNs := y.engineNs + BitVec.ofNat 64 ns }
    | none => w
  match payer with
  | some s => w.updSlice s fun x => { x with used := x.used + ns }
  | none => w

/-- The slice of a tile. -/
def tileSlice (w : Work) (t : Tile) : Option Nat := (cmdContext w t.cmd).map Prod.fst

/-- The slice that pays for a tile: none for a replay after a reset of the engine domain or of the Planer (R577). -/
def payer (w : Work) (t : Tile) : Option Nat :=
  match w.cmd t.cmd with
  | some c => if c.unpaid.contains t.index then none else c.slice
  | none => none

/-- A tile is replayed, and charged to no slice, after a reset of the engine domain or of the Planer (R577): what its tile done
has charged goes back. [DESIGN CHOICE, log entry 48] -/
def unpay (t : Tile) (w : Work) : Work :=
  let w := match payer w t with
    | some s => w.updSlice s fun x => { x with
        used := x.used - t.ran, deficit := if t.ran ≤ x.used then x.deficit else x.deficit + ((t.ran - x.used : Nat) : Int) }
    | none => w
  w.updCmd t.cmd fun c => { c with unpaid := if c.unpaid.contains t.index then c.unpaid else c.unpaid ++ [t.index] }

/-- Control cycles since a tile's start, where the end is not an event of the engine's. [DESIGN CHOICE, log entry 7] -/
def sinceStart (e : Block) (t : Tile) : Nat := e.clk.cycle - t.startCycle

/-! ### Results and endings (R38 to R45, R87 to R90) -/

/-- Count a protocol error of a port (R89); the inputs of a port that is absent or in reset are ignored (R81, R582). -/
def protoErr (p : Nat) (w : Work) : Work :=
  if (w.port p).inService then w.updPort p fun x => { x with protoErrs := x.protoErrs + 1 } else w

/-- The running tile of a port that an engine's event names; none on a port that is in reset (R582). -/
def namedTile (w : Work) (p : Nat) (id : BitVec 8) : Option Tile :=
  (runningTile w p).filter fun t => t.tileId == id && (w.port p).inService

/-- Whether the events of a port's engine are discarded: ENGn_KILL rose in an earlier cycle (R90). -/
def killOld (w : Work) (p : Nat) : Bool := (w.port p).kill && !(w.port p).killFresh

/-- An engine's fault on the running tile, or a result beat beyond its area (R88), is sampled: the end of the control cycle settles
it (R45). The first of a cycle stands. -/
def sampleFault (p : Nat) (code : BitVec 8) (cycles : Nat) (w : Work) : Work :=
  w.updPort p fun x => { x with fault := some (x.fault.getD (code, cycles)) }

/-- A result beat (R87 to R89). A beat that names another tile than the running one, or that no tile start precedes, counts as one
after tile done does; while a kill of an earlier cycle has its tile the beat is discarded (R90).
[DEDUCED, log entry 24] -/
def resultBeatOp (e : Block) (p : Nat) (id : BitVec 8) (offset : BitVec 16) (mask : BitVec 128) (data : List Byte) (w : Work) : Work :=
  match namedTile w p id with
  | none => if killOld w p && (runningTile w p).isSome then w else protoErr p w
  | some t =>
    if killOld w p then w
    else if (w.port p).done.isSome then protoErr p w
    else match w.cmd t.cmd with
      | none => w
      | some c =>
        if resultKib c.bytes ≤ offset.toNat then sampleFault p 0xFF (sinceStart e t) w
        else updTile t (fun x => { x with
          beats := x.beats + 1,
          result := (data.zipIdx.take 1024).foldl (fun (r : Tbl Byte) b =>
            if mask.getLsbD (b.2 / 8) then tblSet 0 r (offset.toNat * 1024 + b.2) b.1 else r) x.result }) w

/-- RESULT_BEAT. -/
def execResultBeat (port : Nat) (tileId : BitVec 8) (offset : BitVec 16) (mask : BitVec 128) (data : List Byte) (s : State) :
    Host.Outcome State Fault Refusal :=
  .next (s.onWork fun e w => resultBeatOp e port tileId offset mask data w)

/-- Tile done (R40, R45, R89) is sampled: the end of the control cycle settles it, and the tile runs no longer for its engine.
[DESIGN CHOICE, log entry 5; DESIGN CHOICE, log entry 23] -/
def tileDoneOp (p : Nat) (id : BitVec 8) (cycles : Nat) (w : Work) : Work :=
  match namedTile w p id with
  | none => if killOld w p && (runningTile w p).isSome then w else protoErr p w
  | some _ =>
    if killOld w p then w
    else if (w.port p).done.isSome then protoErr p w
    else w.updPort p fun x => { x with done := some cycles }

/-- TILE_DONE. -/
def execTileDone (port : Nat) (tileId : BitVec 8) (cycles : Nat) (s : State) : Host.Outcome State Fault Refusal :=
  .next (s.onWork fun _ w => tileDoneOp port tileId cycles w)

/-- An engine fault (R45, R89, R557) is sampled. A fault of the running tile in a later cycle than its kill is discarded and counts
nowhere, as its beats and its tile done are (R90); one on a port whose ladder runs is counted in that ladder's capture (R594).
[DESIGN CHOICE, log entry 24] -/
def engineFaultOp (p : Nat) (id : BitVec 8) (code : BitVec 8) (cycles : Nat) (w : Work) : Work :=
  match namedTile w p id with
  | none =>
    match (w.port p).ladder with
    | some l => captureAdd l.seq w
    | none => protoErr p w
  | some _ => if killOld w p then w else sampleFault p code cycles w

/-- ENGINE_FAULT. -/
def execEngineFault (port : Nat) (tileId : BitVec 8) (code : BitVec 8) (cycles : Nat) (s : State) :
    Host.Outcome State Fault Refusal :=
  .next (s.onWork fun _ w => engineFaultOp port tileId code cycles w)

/-! ### What the end of a control cycle makes of a tile (R45, R287, R414, R594) -/

/-- The running tile ends in fault (R43, R557, R558): it is dropped, its command fails, and the port enters rung 1. -/
def faultTile (e : Block) (p : Nat) (t : Tile) (code : BitVec 8) (cycles : Nat) (w : Work) : Work :=
  let w := (countFault p w).updPort p fun x => { x with lastFlt := code }
  let w := chargeTile e t cycles (payer w t) w
  let w := captureEvent e (ladderEvent p 1 St.engineFault (cmdContext w t.cmd)) w
  let q := w.cap.seq
  let w := enterLadder e p 1 St.engineFault none q (dropTile t.cmd t.index w)
  faultWith (some q) (some p) e t.cmd St.engineFault 0 w

/-- A fault of the running tile in the cycle in which ENGn_KILL rose (R45): the kill holds, and the fault counts on the port
alone. -/
def faultUnderKill (p : Nat) (code : BitVec 8) (w : Work) : Work :=
  (countFault p w).updPort p fun x => { x with lastFlt := code }

/-- The running tile has ended (R40): it goes to commit, and its operand pages are freed (R396). Operand beats that the engine has
not taken still stand (R83, R400). -/
def tileCommits (e : Block) (p : Nat) (t : Tile) (cycles : Nat) (w : Work) : Work :=
  let pays := payer w t
  let w := chargeTile e t cycles pays w
  let w := updTile t (fun x => { x with
    state := .committing, slots := [], doneBeat := e.clk.beat.toNat, ran := if pays.isSome then cyclesToNs e.dct cycles else 0 }) w
  let w := w.updPort p fun x => { x with overrun := false, killWhy := none }
  { w with pln := { w.pln with commitQ := w.pln.commitQ ++ [(t.cmd, t.index, p)] } }

/-- A tile that was killed for its overrun did not end in the same cycle (R287, R557): its command fails, and rung 1 follows the
kill. -/
def overrunFault (e : Block) (p : Nat) (t : Tile) (w : Work) : Work :=
  let w := (countFault p w).updPort p fun x => { x with due := some (1, St.tileOverrun, none, 0) }
  faultWith none (some p) e t.cmd St.tileOverrun 0 w

/-- The endings that were sampled on a port in a control cycle meet at its end (R45, R414): a fault holds over tile done, and a
kill over a fault; tile done holds over a kill, but for one by a double-bit error. -/
def endPort (e : Block) (p : Nat) (w : Work) : Work :=
  let x := w.port p
  let w := w.updPort p fun y => { y with done := none, fault := none, overKill := false }
  match runningTile w p with
  | none => w
  | some t =>
    let late (w : Work) : Work := if x.overKill then overrunFault e p t w else w
    match x.fault, x.done with
    | some f, _ => if x.kill then late (faultUnderKill p f.1 w) else faultTile e p t f.1 f.2 w
    | none, some n => if x.killWhy == some .kilnError then late w else tileCommits e p t n w
    | none, none => late w

/-- The endings of every port, in the order of their numbers (R594). -/
def endPorts (e : Block) (w : Work) : Work :=
  (w.ports.filter fun p => p.2.done.isSome || p.2.fault.isSome || p.2.overKill).foldl (fun w p => endPort e p.1 w) w

/-- A port whose tile has ended enters the rung that a fault or a DOMAIN_RESET, which took its own capture, left due (R557,
R574). -/
def dueRung (e : Block) (p : Nat) (w : Work) : Work :=
  match (w.port p).due with
  | some (rung, st, some id, q) => enterLadder e p rung st (some id) q w
  | some (rung, st, none, _) =>
    let w := captureEvent e (ladderEvent p rung st none) w
    enterLadder e p rung st none w.cap.seq w
  | none => w

/-! ### Kills (R90, R282 to R285) -/

/-- The kills for pre-emption and the double-bit errors of a command's tile (R284, R398). -/
def tileMarks (w : Work) (id t : Nat) : Nat × Nat := ((w.cmd id).map fun c => tblGet (0, 0) c.marks t).getD (0, 0)

/-- Change a tile's marks. [DESIGN CHOICE, log entry 24] -/
def updMarks (id t : Nat) (f : Nat × Nat → Nat × Nat) (w : Work) : Work :=
  w.updCmd id fun c => { c with marks := tblUpd (0, 0) c.marks t f }

/-- The priority-7 tile for which a port would be pre-empted (R275, R282). -/
def urgentTile (e : Block) (w : Work) (p : Nat) : Option Tile :=
  chooseTile w ((tilesOn w p).filter fun t => qualifies e w t && ((w.cmd t.cmd).map (queuePriority w)) == some 7)

/-- Kill the running tile for a priority-7 tile (R282). -/
def preempt (e : Block) (p : Nat) (w : Work) : Work :=
  match urgentTile e w p, runningTile w p with
  | some u, some t =>
    if (w.port p).inService && !(w.port p).kill && !w.pln.inReset && runningPriority w p < 7 &&
        (tileMarks w t.cmd t.index).1 < e.dct.killProtect then
      killPort p (.preempt ((tileSlice w u).getD 0)) w
    else w
  | _, _ => w

/-- PREEMPT_KILL. -/
def execPreemptKill (port : Nat) (s : State) : Host.Outcome State Fault Refusal :=
  .next (s.onWork fun e w => preempt e port w)

/-- Whether a tile killed for pre-emption keeps its operands for the replay (R283, R295). -/
def keepsStaged (w : Work) (t : Tile) : Bool :=
  match w.cmd t.cmd with
  | none => false
  | some c => match c.slice with
    | none => false
    | some s => c.phase == .running && c.endStatus.isNone && !c.suspended && (w.slice s).runs && !(w.ctx s c.ctx).stopped &&
        staysResident w s c.ctx

/-- A killed tile ends (R43, R45, R283, R284, R396): its reason decides what is charged and whether its operands stay. -/
def endKilled (e : Block) (t : Tile) (why : KillWhy) (cycles : Nat) (w : Work) : Work :=
  match why with
  | .preempt s7 =>
    let w := updMarks t.cmd t.index (fun m => (m.1 + 1, m.2)) (chargeTile e t cycles (some s7) w)
    if keepsStaged w t then
      let w := backToReady t.cmd t.index (returnCredits t.credits w)
      updTile t (fun x => { x with
        state := .staged, result := [], credits := [], grace := false, beats := 0,
        order := ((w.cmd t.cmd).map fun c => readyKey c t.index).getD 0 }) w
    else dropTile t.cmd t.index w
  | .planerReset => unpay t (dropTile t.cmd t.index (chargeTile e t cycles none w))
  | _ => dropTile t.cmd t.index (chargeTile e t cycles (payer w t) w)

/-- ENGn_KILL_ACK rises (R90): the killed tile ends, ENGn_KILL falls, and a rung that was due begins; the acknowledgement falls at
the end of the control cycle. [DESIGN CHOICE, log entry 24] -/
def killAckOp (e : Block) (p cycles : Nat) (w : Work) : Work :=
  if !(w.port p).kill then w
  else
    let w := endPort e p w
    let x := w.port p
    let w := match runningTile w p with
      | some t => endKilled e t (x.killWhy.getD .teardown) cycles w
      | none => w
    let w := w.updPort p fun y => { y with kill := false, killAck := true, killWhy := none, killFresh := false, overrun := false }
    dueRung e p w

/-- KILL_ACK. -/
def execKillAck (port : Nat) (cycles : Nat) (s : State) : Host.Outcome State Fault Refusal :=
  .next (s.onWork fun e w => killAckOp e port cycles w)

/-- The DOMAIN_RESET whose rung waits for a port's tile to end. -/
def dueCmd (w : Work) (p : Nat) : Option Nat := (w.port p).due.bind fun d => d.2.2.1

/-- No KILL_ACK in time (R557, R574): the running tile is declared ended and its command fails with ENGINE_HUNG; after a
kill that tile done outran no context is named. [DESIGN CHOICE, log entry 24] -/
def killHung (e : Block) (p : Nat) (w : Work) : Work :=
  if !(w.port p).kill then w
  else match runningTile w p with
    | none =>
      let w := captureEvent e (ladderEvent p 1 St.engineHung none) (countHang p w)
      enterLadder e p 1 St.engineHung (dueCmd w p) w.cap.seq w
    | some t =>
      let w := chargeTile e t (sinceStart e t) (payer w t) (countHang p w)
      let w := captureEvent e (ladderEvent p 1 St.engineHung (cmdContext w t.cmd)) w
      let q := w.cap.seq
      let w := enterLadder e p 1 St.engineHung (dueCmd w p) q (dropTile t.cmd t.index w)
      faultWith (some q) (some p) e t.cmd St.engineHung 0 w

/-- The 256 cycles of a kill have run out: an acknowledgement in the same control cycle holds (R594), so that the port is not hung
before the cycle ends. -/
def killAckLate (p : Nat) (w : Work) : Work := if (w.port p).kill then w.later (.hung p) else w

/-- KILL_ACK_TIMEOUT. [DESIGN CHOICE, log entry 7] -/
def execKillAckTimeout (port : Nat) (s : State) : Host.Outcome State Fault Refusal :=
  .next (s.onWork fun _ w => killAckLate port w)

/-- A tile has stayed offered too long (R83, R557, R574): it returns to ready. -/
def offerHung (e : Block) (p : Nat) (w : Work) : Work :=
  match offeredTile w p with
  | none => w
  | some _ =>
    let w := captureEvent e (ladderEvent p 1 St.engineHung none) (countHang p w)
    enterLadder e p 1 St.engineHung none w.cap.seq w

/-- TILE_OFFER_TIMEOUT. [DESIGN CHOICE, log entry 7] -/
def execTileOfferTimeout (port : Nat) (s : State) : Host.Outcome State Fault Refusal :=
  .next (s.onWork fun e w => offerHung e port w)

/-! ### Overrun (R286, R287) -/

/-- The running tile has not ended half a beat after its start (R286). -/
def overrunHalf (p : Nat) (w : Work) : Work :=
  match runningTile w p with
  | none => w
  | some t =>
    if t.grace || (w.port p).done.isSome then w
    else (updTile t (fun x => { x with grace := true }) w).updPort p fun x => { x with overrun := true, overruns := x.overruns + 1 }

/-- TILE_OVERRUN_HALF. -/
def execTileOverrunHalf (port : Nat) (s : State) : Host.Outcome State Fault Refusal :=
  .next (s.onWork fun _ w => overrunHalf port w)

/-- The running tile has not ended a full beat after its start (R287, R557): it is killed, and fails unless it ends in the same
control cycle (R45). [DESIGN CHOICE, log entry 24] -/
def overrunKill (p : Nat) (w : Work) : Work :=
  match runningTile w p with
  | none => w
  | some t =>
    if !t.grace || (w.port p).kill then w
    else (killPort p .overrun w).updPort p fun x => { x with overKill := true }

/-- TILE_OVERRUN_KILL. -/
def execTileOverrunKill (port : Nat) (s : State) : Host.Outcome State Fault Refusal :=
  .next (s.onWork fun _ w => overrunKill port w)

/-! ### Kiln errors (R398) -/

/-- Requests of a commit lane whose answers are to be discarded. -/
def deadenCommit (l : Nat) (w : Work) : Work :=
  w.updFab fun f => { f with reqs := f.reqs.map fun r => if r.why.ofCommit l then { r with dead := true } else r }

/-- Abandon the commit of a tile (R398, R577): where its last write is not yet out, the tile returns to ready. -/
def abandonCommit (t : Tile) (w : Work) : Work :=
  let w := { w with pln := { w.pln with commitQ := w.pln.commitQ.filter fun q => !(q.1 == t.cmd && q.2.1 == t.index) } }
  match w.pln.commits.find? fun p => match p.2 with
    | some j => j.cmd == t.cmd && j.tile == t.index
    | none => false with
  | some p => dropTile t.cmd t.index (setCommit (deadenCommit p.1 w) p.1 none)
  | none => dropTile t.cmd t.index w

/-- Whether the last write of a tile's commit is out. -/
def lastWritten (w : Work) (t : Tile) : Bool :=
  w.pln.commits.any fun p => match p.2 with
    | some j => j.cmd == t.cmd && j.tile == t.index && j.lastSent
    | none => false

/-- Stage a slot again from its first byte (R398), for its tile and for every tile that shares the copy: units of it on lanes come
to nothing. The offer of a tile stands (R50): where the engine takes it, the tile is killed and replayed.
[DEDUCED, log entry 23] -/
def restage (c : Cmd) (t : Tile) (k : Nat) (w : Work) : Work :=
  let o := slotObj w c k
  let want := slotWants o (w.port t.port).opdFmt (execSlot c.bytes k).elems
  let lanes := w.pln.lanes.map fun p => (p.1, p.2.map fun u => if u.stages t c k then { u with discard := true } else u)
  { w with pln := { w.pln with lanes := lanes } }.mapTiles fun x =>
    if x.cmd == t.cmd && x.port == t.port && (x.index == t.index || slotShared c k) && x.unstarted then
      let d : SlotData := {
        at0 := slotStart c x.index k, pos := slotStart c x.index k, left := want, pages := (x.slots.getD k {}).pages }
      if x.state == TileSt.offered then { x with bad := true } else { x with state := .staging, slots := x.slots.set k d }
    else x

/-- A double-bit error in a tile's words (R398). -/
def doubleError (t : Tile) (place : EccPlace) (w : Work) : Work :=
  match w.cmd t.cmd with
  | none => w
  | some c =>
    let again := (tileMarks w t.cmd t.index).2 != 0
    let w := updMarks t.cmd t.index (fun m => (m.1, m.2 + 1)) w
    match t.state, place with
    | .committing, .result =>
      if lastWritten w t then w
      else
        let w := abandonCommit t w
        if again then failExec t.cmd St.kilnEcc w else w
    | .running, _ =>
      let w := match (w.port t.port).killWhy with
        | none => killPort t.port .kilnError w
        | some (.preempt _) => killPort t.port .kilnError w
        | some _ => w
      if again then failExec t.cmd St.kilnEcc w else w
    | _, .operand k => if !t.unstarted then w else if again then failExec t.cmd St.kilnEcc w else restage c t k w
    | _, _ => w

/-- An error of a Kiln word (R398): `n` counts the tiles of the port in the order in which they were bound.
[DESIGN CHOICE, log entry 24] -/
def kilnError (p n : Nat) (place : EccPlace) (double : Bool) (w : Work) : Work :=
  if !double then { w with pln := { w.pln with corrected := satInc w.pln.corrected } }
  else
    let w := { w with pln := { w.pln with uncorrected := satInc w.pln.uncorrected } }
    match (tilesOn w p)[n]? with
    | some t => doubleError t place w
    | none => w

/-- KILN_ECC_ERROR. -/
def execKilnEccError (port tile : Nat) (place : EccPlace) (double : Bool) (s : State) : Host.Outcome State Fault Refusal :=
  .next (s.onWork fun _ w => kilnError port tile place double w)

end Sys2Proof.Machine
end

