-- ==== Sys2Proof/Machine/Ladder.lean ====
section
/-! DEFINITION. The rungs of an engine port's reset and its retirement (R573 to R576), the engine domain reset (R577), and
the Planer's reset and watchdog (R578). -/

namespace Sys2Proof.Machine

/-! ### A port returns or is retired (R572, R573, R576, R595) -/

/-- A DOMAIN_RESET that waits for its domain ends (R572): with OK where the reset went no higher than it named. -/
def endReset (id : Option Nat) (ok : Bool) (w : Work) : Work :=
  match id with
  | some i => endCmd i (if ok then St.ok else St.resetDomain) w
  | none => w

/-- A port's reset is over: where it was a ladder its DOMAIN_RESET ends, and admin vector 4 is sent. -/
def endLadder (p : Nat) (st : PortSt) (w : Work) : Work :=
  let l := (w.port p).ladder
  let w := w.updPort p fun x => { x with state := st, ladder := none, srst := false, kill := false }
  let w := match l with
    | some l => endReset l.cmd (decide (l.rung ≤ l.named)) w
    | none => w
  if l.isSome || st == .retired then w.raise (vecAdmin 4) else w

/-- A matrix port is populated and not retired (R176). -/
def matrixLeft (w : Work) : Bool := (List.range 16).any fun p => (w.port p).present && (w.port p).state != .retired

/-- A port is retired (R576): with the last one every released EXEC that has not ended ends with RESET_DOMAIN. -/
def retirePort (p : Nat) (w : Work) : Work :=
  let w := endLadder p .retired (unbindPort p w)
  if matrixLeft w then w
  else (w.cmds.filter fun c => c.op == some .exec && c.endStatus.isNone && (c.phase == .released || c.phase == .running)).foldl
    (fun w c => failExec c.id St.resetDomain w) w

/-- ENGn_SRST_ACK rises (R91, R573): rung 1 has succeeded. [DESIGN CHOICE, log entry 24] -/
def softAck (p : Nat) (w : Work) : Work :=
  if (w.port p).state == .softReset then endLadder p .inService (w.updPort p fun x => { x with idle := true, srstAck := true }) else w

/-- SOFT_RESET_ACK. -/
def execSoftResetAck (port : Nat) (s : State) : Host.Outcome State Fault Refusal :=
  .next (s.onWork fun _ w => softAck port w)

/-- Rung 1 has failed (R573). -/
def softLate (e : Block) (p : Nat) (w : Work) : Work := if (w.port p).state == .softReset then startRung e p 2 w else w

/-- SOFT_RESET_TIMEOUT. -/
def execSoftResetTimeout (port : Nat) (s : State) : Host.Outcome State Fault Refusal :=
  .next (s.onWork fun e w => softLate e port w)

/-- Whether a port's engine has had its hard reset, by a rung, at a start or at an exit from PS2, and has not yet shown
ENGn_IDLE (R92, R573, R622, R648). -/
def awaitsIdle (w : Work) (p : Nat) : Bool :=
  (w.port p).state == .hardReset && (w.port p).hrstN && !w.pln.engineDomain &&
    match (w.port p).ladder with
    | some l => l.rung == 2
    | none => true

/-- Rung 2 has failed (R573), or the hard reset of a start (R648) or of an exit from PS2 (R622). -/
def hardLate (e : Block) (p : Nat) (w : Work) : Work :=
  if awaitsIdle w p then
    startRung e p 3 (w.updPort p fun x => { x with
      ladder := some (x.ladder.getD { rung := 3, named := 0, status := St.engineHung, cmd := none }) })
  else w

/-- HRST_WAIT_TIMEOUT. -/
def execHrstWaitTimeout (port : Nat) (s : State) : Host.Outcome State Fault Refusal :=
  .next (s.onWork fun e w => hardLate e port w)

/-! ### The engine domain (R577) -/

/-- The ports of the engine domain that are still in its reset. -/
def domainPorts (w : Work) : List Nat := (List.range 16).filter fun p => (w.port p).state == .hardReset

/-- The engine domain reset is over: its DOMAIN_RESET ends, and admin vector 4 is sent. -/
def endDomain (w : Work) : Work :=
  let w := endReset w.pln.engCmd true (endReset w.pln.plnCmd false w)
  { w with pln := { w.pln with engineDomain := false, inReset := false, engCmd := none, plnCmd := none } }.raise (vecAdmin 4)

/-- The engine domain returns once the Kiln is ready and every port has returned or is retired. -/
def checkDomain (w : Work) : Work :=
  if w.pln.engineDomain && !w.pln.inReset && (domainPorts w).isEmpty then endDomain w else w

/-- The engine domain enters reset (R577 step 1), with a capture where no earlier one, whose SEQ is `covered`, covers it (R584). -/
def startDomain (e : Block) (st : Status) (id : Option Nat) (covered : Option Nat) (noCapture : Bool) (w : Work) : Work :=
  if w.pln.engineDomain then w
  else
    let w := match covered with
      | some q => captureAdd q w
      | none => if noCapture then w else captureEvent e { trigger := st, domain := 6, concern := .allPorts } w
    let w := recordReset 6 0 st w
    let w := beginEngineDomain w
    { w with pln := { w.pln with engCmd := id } }

/-- Take every tile off the ports and lanes (R577, R582): tiles that have started and whose commit has not had its last
write answered are replayed, and charged to no slice. A commit whose last write has been answered stands. -/
def returnTiles (e : Block) (w : Work) : Work :=
  let done (t : Tile) : Bool := w.pln.commits.any fun p => match p.2 with
    | some j => j.cmd == t.cmd && j.tile == t.index && j.done
    | none => false
  (w.tiles.filter fun t => !done t).foldl (fun w t =>
    match t.state with
    | .running => unpay t (dropTile t.cmd t.index (chargeTile e t (sinceStart e t) none w))
    | .committing => abandonCommit t (unpay t w)
    | _ => discardUnits t.cmd t.index (dropTile t.cmd t.index w)) w

/-- Requests of the lanes whose answers are to be discarded (R582). -/
def deadenLanes (w : Work) : Work :=
  let w := w.updFab fun f => { f with reqs := f.reqs.filterMap fun r => match r.why with
    | .lane _ => if r.answer.isSome then none else some { r with dead := true }
    | _ => some r }
  { w with pln := { w.pln with lanes := [] } }

/-- The engine domain reset runs to the point where the Kiln is ready (R577 steps 2 to 4): the hard reset of its ports ends,
every tile not committed returns to ready, and ISO_EN_PLN falls. -/
def runDomain (e : Block) (w : Work) : Work :=
  if !(w.pln.engineDomain && w.pln.inReset) then w
  else
    let w := deadenLanes (returnTiles e w)
    let w := (resetDomainPorts w).foldl (fun w p => (w.updPort p fun x => { x with hrstN := true }).emit (.hardReset p)) w
    checkDomain ({ w with pln := { w.pln with inReset := false } }.updSwitch .pln fun x => { x with iso := false })

/-- ENGINE_DOMAIN_RESET. -/
def execEngineDomainReset (s : State) : Host.Outcome State Fault Refusal := .next (s.onWork fun e w => runDomain e w)

/-- ENGn_IDLE rises: ISO_EN_ENGn falls, and the port returns to service (R92 steps 4 and 5). -/
def portIdle (p : Nat) (w : Work) : Work :=
  endLadder p .inService ((w.updPort p fun x => { x with idle := true }).updSwitch (.eng p) fun x => { x with iso := false })

/-- ENGn_IDLE rises after a hard reset (R92, R573, R577): the port returns to service. -/
def engineIdleOp (p : Nat) (w : Work) : Work :=
  if (w.port p).state != .hardReset then w
  else if w.pln.engineDomain then
    if w.pln.inReset || 3 ≤ rungOf w p then w
    else checkDomain (portIdle p w)
  else if awaitsIdle w p then portIdle p w
  else w

/-- ENGINE_IDLE. -/
def execEngineIdle (port : Nat) (s : State) : Host.Outcome State Fault Refusal :=
  .next (s.onWork fun _ w => engineIdleOp port w)

/-- PSW_ACK_ENGn falls (R573, R576): the port is retired. -/
def pswFell (p : Nat) (w : Work) : Work :=
  if rungOf w p = 3 || rungOf w p = 4 then checkDomain (retirePort p (w.updSwitch (.eng p) fun x => { x with ack := false })) else w

/-- PSW_ACK_FALL. -/
def execPswAckFall (port : Nat) (s : State) : Host.Outcome State Fault Refusal :=
  .next (s.onWork fun _ w => pswFell port w)

/-- Rung 3 has failed (R573): the engine domain is reset. -/
def retireLate (e : Block) (p : Nat) (w : Work) : Work :=
  if rungOf w p = 3 then startDomain e St.engineHung none (((w.port p).ladder.map Ladder.seq).or (some 0)) false (noteRung p 4 w) else w

/-- RETIRE_WAIT_TIMEOUT. -/
def execRetireWaitTimeout (port : Nat) (s : State) : Host.Outcome State Fault Refusal :=
  .next (s.onWork fun e w => retireLate e port w)

/-- A block reset is due (R573 rung 5, R581). -/
def dueBlockReset (w : Work) : Work := w.updCap fun c => { c with blockReset := true }

/-- ENGDOM_WAIT_US has passed (R577, R578): a Planer whose Kiln is not ready takes the engine domain into reset; an engine
domain whose Kiln is not ready, or whose first port is still powered, resets the block; else the ports that show no
ENGn_IDLE are retired and switched off, untimed. -/
def domainLate (e : Block) (w : Work) : Work :=
  if !w.pln.engineDomain then
    if w.pln.inReset then startDomain e w.cap.lastStatus none (some w.pln.event) false w else w
  else if w.pln.inReset || ((List.range 16).any fun p => rungOf w p == 4) then dueBlockReset w
  else checkDomain ((domainPorts w).foldl (fun w p => retirePort p (w.updSwitch (.eng p) fun x => { x with on := false })) w)

/-- ENGDOM_WAIT_TIMEOUT. -/
def execEngdomWaitTimeout (s : State) : Host.Outcome State Fault Refusal := .next (s.onWork domainLate)

/-! ### The Planer (R578) -/

/-- What the Kiln holds of tiles that have not started is lost (R577, R578): those that are staging or staged return to ready, and an
offer stands (R50) with nothing behind it. [DESIGN CHOICE, log entry 23; DESIGN CHOICE, log entry 48] -/
def loseStaged (w : Work) : Work :=
  let w := (w.tiles.filter fun t => t.state == .staging || t.state == .staged).foldl (fun w t =>
    discardUnits t.cmd t.index (dropTile t.cmd t.index w)) w
  w.mapTiles fun t => if t.state = .offered then { t with bad := true } else t

/-- The Planer's reset starts (R578): every running tile is killed and is replayed, and commits are abandoned. -/
def startPlaner (e : Block) (st : Status) (id : Option Nat) (noCapture : Bool) (w : Work) : Work :=
  if w.pln.inReset || w.pln.engineDomain then w
  else
    let w := if noCapture then w else captureEvent e { trigger := st, domain := 2, concern := .allPorts } w
    let q := if noCapture then 0 else w.cap.seq
    let w := recordReset 2 0 st w
    let w := { w with pln := { w.pln with inReset := true, plnCmd := id, event := q } }.updSwitch .pln fun x => { x with iso := true }
    let w := (w.tiles.filter fun t => t.state == .running).foldl (fun w t =>
      let w := w.updPort t.port fun x => { x with done := none }
      match (w.port t.port).killWhy with
      | none => killPort t.port .planerReset w
      | some (.preempt _) => killPort t.port .planerReset w
      | some _ => w) w
    let done (t : Tile) : Bool := w.pln.commits.any fun p => match p.2 with
      | some j => j.cmd == t.cmd && j.tile == t.index && j.done
      | none => false
    let w := (w.tiles.filter fun t => t.state == .committing && !done t).foldl (fun w t => abandonCommit t (unpay t w)) w
    deadenLanes (loseStaged w)

/-- The status of a Planer stall: R557 gives it none, so it is free. -/
def stallStatus (w : Work) : Status × Work :=
  let d := w.draw
  ((Config.freeWord d.1).setWidth 16, d.2)

/-- Whether a unit of the Planer holds work and waits on no memory response and no ENGn_OPD_READY (R578): an expander lane whose read
is answered, or a commit lane with nothing unanswered. A port's dequantizer holds its next beat VALID while it has one, and so waits
on READY. -/
def planerWorks (w : Work) : Bool :=
  (w.pln.lanes.any fun p => p.2.isSome && !(laneReq w p.1).any fun r => r.answer.isNone) ||
    w.pln.commits.any fun p => p.2.isSome && !commitBusy w p.1

/-- A unit of the Planer has made no progress for PLANER_WD_US (R578). -/
def planerStall (e : Block) (w : Work) : Work :=
  if !planerWorks w || w.pln.inReset then w
  else
    let d := stallStatus w
    startPlaner e d.1 none false d.2

/-- PLANER_WATCHDOG. -/
def execPlanerWatchdog (s : State) : Host.Outcome State Fault Refusal := .next (s.onWork planerStall)

/-- The Planer's reset ends once every kill has been acknowledged (R577 step 4, R578). -/
def planerReady (w : Work) : Work :=
  if w.pln.inReset && !w.pln.engineDomain && w.tiles.all fun t => t.state != .running then
    let w := endReset w.pln.plnCmd true w
    ({ w with pln := { w.pln with inReset := false, plnCmd := none } }.updSwitch .pln fun x => { x with iso := false }).raise (vecAdmin 4)
  else w

end Sys2Proof.Machine
end

