-- ==== Sys2Proof/Machine/Capture.lean ====
section
/-! DEFINITION. State capture (R583 to R589), the end of a teardown (R562), and the revocation of a PASID (R591 to R593). -/

namespace Sys2Proof.Machine

/-! ### The record (R587 to R589) -/

/-- FLAGS of a capture record (R588). -/
def capFlags (x : Snap) : Nat := x.trunc + (if x.late then 16 else 0)

/-- A suspect's entry: context, slice, held and replayed. -/
def suspectEntry (x : Nat × Nat × Bool) : List Byte :=
  leBytes 4 (x.2.1 % 4096 + x.1 % 64 * 4096 + (if x.2.2 then 2 ^ 18 else 0) + 2 ^ 31)

/-- Bytes 0 to 254 of the header (R588). -/
def capHeader (x : Snap) : List Byte :=
  leBytes 4 0x52414350 ++ leBytes 2 1 ++ leBytes 2 (capFlags x) ++ leBytes 8 x.seq ++ leBytes 8 x.beat.toNat ++
  leBytes 8 x.timeNs.toNat ++ leBytes 2 x.trigger.toNat ++ leBytes 1 x.domain ++ leBytes 1 x.index ++ leBytes 1 x.rung ++
  leBytes 1 x.slice ++ leBytes 2 (match x.ctx with
    | some c => c % 4096 + 2 ^ 15
    | none => 0) ++
  leBytes 8 x.entry.toNat ++ leBytes 8 x.cycleMap.toNat ++ leBytes 2 x.queues ++ leBytes 2 x.fences ++ leBytes 2 x.sems ++
  leBytes 2 x.added.toNat ++ leBytes 4 x.ports.toNat ++ leBytes 4 x.cores.toNat ++
  bytesAt ((x.suspects.take 32).flatMap suspectEntry) 0 128 ++ leBytes 55 0

/-- A section of a record from an offset, padded to where the next begins. -/
def sectionAt (x : Snap) (off len : Nat) : List Byte :=
  bytesAt ((x.body.find? fun p => p.1 == off).map Prod.snd |>.getD []) 0 len

/-- The record of 65,536 bytes, its byte 255 apart (R589). -/
def capRecord (x : Snap) : List Byte :=
  capHeader x ++ [0] ++ ((List.range 16).flatMap fun p => sectionAt x (256 + 64 * p) 64) ++
  ((List.range 32).flatMap fun k => sectionAt x (1280 + 64 * k) 64) ++ leBytes 768 0 ++ sectionAt x 4096 8192 ++
  sectionAt x 12288 32768 ++ sectionAt x 45056 20480

/-- The address of the record that TAIL names (R587). -/
def capAddr (c : Capture) : Nat := c.buf.toNat / 65536 * 65536 + 65536 * (c.tail.toNat % c.records)

/-- The buffer frees: the first event that waits takes its snapshot, late (R586). -/
def nextCapture (e : Block) (w : Work) : Work :=
  match w.cap.waiting with
  | [] => w.updCap fun c => { c with busy := none, written := false }
  | x :: rest =>
    let sn : Snap := { snapshot e x.event x.seq true w with beat := x.beat, timeNs := x.timeNs, added := x.added }
    { w with fresh := w.fresh + 1 }.updCap fun c => { c with busy := some sn, written := false, waiting := rest }

/-- The snapshot is complete: every byte of its record but the last goes out (R585, R587). A record for which capture has
no room is dropped. -/
def snapshotDone (e : Block) (w : Work) : Work :=
  match w.cap.busy with
  | none => w
  | some x =>
    if w.cap.written then w
    else if !w.cap.open then nextCapture e (w.updCap fun c => { c with dropped := satInc c.dropped })
    else writeFor e none false (capAddr w.cap) (capRecord x) .capture (w.updCap fun c => { c with written := true })

/-- A write of a record is answered (R587): DONE follows every other write; after it TAIL rises. -/
def captureAnswered (e : Block) (len : Nat) (st : Status) (w : Work) : Work :=
  if w.cap.busy.isNone then w
  else if st ≠ St.ok then nextCapture e (w.updCap fun c => { c with dropped := satInc c.dropped })
  else if len ≠ 1 then writeFor e none false (capAddr w.cap + 255) [1] .capture w
  else
    let irq := w.cap.irq
    let w := nextCapture e (w.updCap fun c => { c with tail := c.tail + 1 })
    if irq then w.raise (vecAdmin 3) else w

/-- CAPTURE_SNAPSHOT_DONE. -/
def execCaptureSnapshotDone (s : State) : Host.Outcome State Fault Refusal := .next (s.onWork snapshotDone)

/-- CAPTURE_WAIT_US has passed for the event that has waited longest (R586): it is dropped. A block reset that waits for
the record waits no longer (R581). -/
def captureLate (w : Work) : Work :=
  let w := if w.cap.blockReset then w.updCap fun c => { c with busy := none, written := false } else w
  match w.cap.waiting with
  | [] => w
  | _ :: rest => w.updCap fun c => { c with waiting := rest, dropped := satInc c.dropped }

/-- CAPTURE_WAIT_TIMEOUT. -/
def execCaptureWaitTimeout (s : State) : Host.Outcome State Fault Refusal := .next (s.onWork fun _ w => captureLate w)

/-- CAPTURE_SET (R176, R583). -/
def captureSetOp (c : Cmd) (w : Work) : Work :=
  if w.cap.busy.isSome || !w.cap.waiting.isEmpty then endCmd c.id St.stateReject w
  else
    let w := w.updCap fun k => { k with
      buf := BitVec.ofNat 64 (ptrAddr (fieldAt c.bytes 24 8)), records := fieldAt c.bytes 32 2,
      irq := (fieldAt c.bytes 34 1).testBit 0, head := 0, tail := 0 }
    endCmd c.id St.ok w

/-- CAPTURE_SET. -/
def execCaptureSet (id : Nat) (s : State) : Host.Outcome State Fault Refusal :=
  .next (s.onWork fun _ w => runCmd .captureSet id captureSetOp w)

/-- A write of ADM_CAP_PTRS.HEAD (R595): one that would pass TAIL is discarded. -/
def capHead (v : BitVec 32) (w : Work) : Work :=
  w.updCap fun c => if v - c.head ≤ c.tail - c.head then { c with head := v } else c

/-- CAP_HEAD_WRITE. -/
def execCapHeadWrite (value : BitVec 32) (s : State) : Host.Outcome State Fault Refusal :=
  .next (s.onWork fun _ w => capHead value w)

/-! ### The end of a teardown (R562 step 5) -/

/-- Whether a slot's load or save is in flight for a context. -/
def slotReads (w : Work) (s c : Nat) : Bool :=
  w.slots.any fun p => p.2.slice == s && p.2.ctx == c && p.2.state != .free &&
    w.fab.reqs.any fun r => (r.why == .slotRecord p.1 || r.why == .slotArea p.1 || r.why == .slotSave p.1) && r.answer.isNone && !r.dead

/-- Whether a command is a DOMAIN_RESET that waits for domain `k` with index `i` to return (R572). -/
def Cmd.awaits (c : Cmd) (k i : Nat) : Bool :=
  c.op == some .domainReset && c.waiting == .domain && c.endStatus.isNone && fieldAt c.bytes 24 1 == k && fieldAt c.bytes 25 1 == i

/-- The DOMAIN_RESETs of a domain that has returned end, and admin vector 4 is sent (R572, R595). -/
def domainReturns (k i : Nat) (w : Work) : Work :=
  if w.cmds.any fun c => c.awaits k i then
    (w.mapCmds fun c => if c.awaits k i then c.endWith St.ok else c).raise (vecAdmin 4)
  else w

/-- A DOMAIN_RESET of a slice ends with its last teardown (R572, R580). -/
def sliceReturns (s : Nat) (w : Work) : Work :=
  if w.cap.teardowns.any fun t => t.slice == s then w else domainReturns 5 s w

/-- The teardown of a context completes once nothing of it is left running or unanswered. -/
def teardownOver (e : Block) (s c : Nat) (w : Work) : Work :=
  match w.cap.teardowns.find? fun t => t.slice == s && t.ctx == c with
  | none => w
  | some t => if contextQuiet w s c && !slotReads w s c then sliceReturns s (completeTeardown e t w) else w

/-- TEARDOWN_COMPLETE: it takes effect behind every SEM_RELEASE and before the grants of its control cycle (R342). -/
def execTeardownComplete (slice context : Nat) (s : State) : Host.Outcome State Fault Refusal :=
  .next (s.onWork fun _ w => w.later (.teardown slice context))

/-! ### PASID_REVOKE (R591 to R593) -/

/-- PASID_REVOKE (R176, R592). -/
def pasidRevokeOp (e : Block) (c : Cmd) (w : Work) : Work :=
  let s := bodySlice c.bytes
  if (w.slice s).state == .off || (w.slice s).state == .fenced then endCmd c.id St.stateReject w
  else
    let w := revokeSlice e s (w.updCmd c.id fun d => { d with phase := .running, waiting := .revoke })
    w.updSlice s fun x => { x with revoking := true }

/-- PASID_REVOKE. -/
def execPasidRevoke (id : Nat) (s : State) : Host.Outcome State Fault Refusal :=
  .next (s.onWork fun e w => runCmd .pasidRevoke id (pasidRevokeOp e) w)

/-- Whether every host request and page request group of a slice has been answered or has failed (R593). -/
def revokeOver (w : Work) (s : Nat) : Bool :=
  (w.fab.reqs.all fun r => r.slice != some s || r.answer.isSome) && w.fab.groups.all fun g => g.slice != s || g.burnt

/-- PASID_REVOKE completes (R593). -/
def revokeEnds (s : Nat) (w : Work) : Work :=
  if (w.slice s).revoking && revokeOver w s then
    let w := w.updSlice s fun x => { x with revoking := false }
    w.mapCmds fun c =>
      if c.op = some .pasidRevoke ∧ c.waiting = .revoke ∧ c.endStatus.isNone ∧ bodySlice c.bytes = s then c.endWith St.ok else c
  else w

/-- PASID_REVOKE_COMPLETE. -/
def execPasidRevokeComplete (slice : Nat) (s : State) : Host.Outcome State Fault Refusal :=
  .next (s.onWork fun _ w => revokeEnds slice w)

end Sys2Proof.Machine
end

