-- ==== Sys2Proof/Machine/Queues.lean ====
section
/-! DEFINITION. Slices and queues: SLC_CTL (R117, R118), the doorbells (R133 to R135), QUEUE_RESUME and QUEUE_RETRY (R141,
R150), status blocks (R142 to R144), completion records and their interrupts (R146 to R151), the queue cache (R137), and the
admin queue's registers (R214 to R217). -/

namespace Sys2Proof.Machine

/-! ### Queue descriptors (R121, R122) -/

/-- The descriptor in 64 bytes (R121). -/
def descOf (b : List Byte) : QDesc :=
  let w := fieldAt b 24 8
  { sqBase := BitVec.ofNat 64 (fieldAt b 0 8), cqBase := BitVec.ofNat 64 (fieldAt b 8 8),
    statusBase := BitVec.ofNat 64 (fieldAt b 16 8), sqLog2 := bitsOf w 4 0, cqLog2 := bitsOf w 12 8, sqDev := w.testBit 16,
    cqDev := w.testBit 17, statusDev := w.testBit 18, irqEn := w.testBit 19, priority := bitsOf w 26 24,
    cls := bitsOf w 31 28, context := bitsOf w 43 32, timeoutBeats := bitsOf w 63 48, coalCount := bitsOf (fieldAt b 32 8) 7 0,
    coalBeats := bitsOf (fieldAt b 32 8) 15 8, maxInflight := bitsOf (fieldAt b 32 8) 24 16 }

/-- Whether the fields and reserved bits of a descriptor satisfy R121 for a slice of 2^`ctxLog2` contexts (R122). -/
def descOk (ctxLog2 : Nat) (b : List Byte) : Bool :=
  let d := descOf b
  let w := fieldAt b 24 8
  let addr (v : BitVec 64) (al : Nat) (dev : Bool) : Bool := v.toNat % al == 0 && (!dev || bitsOf v.toNat 63 42 == 0)
  addr d.sqBase 4096 d.sqDev && addr d.cqBase 4096 d.cqDev && addr d.statusBase 64 d.statusDev &&
  4 ≤ d.sqLog2 && d.sqLog2 ≤ 16 && 4 ≤ d.cqLog2 && d.cqLog2 ≤ 16 &&
  bitsOf w 7 5 == 0 && bitsOf w 15 13 == 0 && bitsOf w 23 20 == 0 && !w.testBit 27 && bitsOf w 47 44 == 0 &&
  d.cls ≤ 3 && d.context < 2 ^ ctxLog2 && 1 ≤ d.maxInflight && d.maxInflight ≤ 256 &&
  bitsOf (fieldAt b 32 8) 63 25 == 0 && zeros b 40 24

/-- Queues of slices that take an entry of the queue cache (R137). -/
def cachedQueues (w : Work) : Nat :=
  (w.queues.filter fun p => p.1 != adminKey && p.2.state != .absent && (p.2.cached || p.2.loading)).length

/-- A new queue: its positions are 0 (R124). -/
def newQueue (d : QDesc) : Queue := { state := .active, desc := d, stDirty := true }

/-- The bytes of a queue table entry: 1 MiB holds 4,096 of them (R137). -/
def queueEntryLen : Nat := 256

/-- The local address of a queue's entry in the queue table (R137). [DESIGN CHOICE, log entry 58] -/
def queueEntryAddr (e : Block) (qk : Nat) : Nat := e.dct.queueTableBase + queueEntryLen * qk

/-- Whether a queue stays in the cache: it has entries in flight or records held (R137). -/
def Queue.stays (q : Queue) : Bool := q.fetch != q.head || !q.held.isEmpty || !q.kept.isEmpty

/-- Whether a queue may leave the cache: nothing of it is in flight or held (R137). -/
def Queue.idle (q : Queue) : Bool :=
  q.cached && q.state != .absent && !q.stays && q.due.isEmpty && q.recBusy.isNone && !q.stBusy && !q.closing

/-- A queue leaves the cache: its state goes to the queue table, in a layout that the spec leaves to the block, and entries
that it has still to fetch keep its bit in the pending map set (R137). [DESIGN CHOICE, log entry 58] -/
def uncacheQueue (e : Block) (qk : Nat) (w : Work) : Work :=
  let d := w.draw
  writeFor e none true (queueEntryAddr e qk) ((List.range queueEntryLen).map (Config.freeByte d.1)) (.queueStore qk)
    (d.2.updQueue qk fun q => { q with cached := false, dbPending := q.dbPending || q.fetch != q.tail })

/-- The idle queue, other than `qk`, whose entry of the cache is given up, where there is one.
[DESIGN CHOICE, log entry 32] -/
def idleQueue (qk n : Nat) (w : Work) : Option Nat :=
  let idle := w.queues.filter fun p => p.1 != adminKey && p.1 != qk && p.2.idle
  (idle[Config.freeChoice n % idle.length]?).map Prod.fst

/-- A queue has come to be, and stands in the cache (R137): where that is too many, an idle queue leaves it for one that must
stay there, and another is itself in the queue table from the start. [DESIGN CHOICE, log entry 58] -/
def placeQueue (e : Block) (qk : Nat) (w : Work) : Work :=
  if cachedQueues w ≤ 1024 then w
  else
    let d := w.draw
    let v := if (w.queue qk).stays then idleQueue qk d.1 w else none
    uncacheQueue e (v.getD qk) d.2

/-- A queue of a slice comes to be (R186, R614). -/
def addQueue (e : Block) (qk : Nat) (q : Queue) (w : Work) : Work :=
  placeQueue e qk { w with queues := tblSet {} w.queues qk q }

/-! ### Completion records (R146 to R151) -/

/-- Coalescing after a record has been written (R146). -/
def coalesce (qk : Nat) (w : Work) : Work :=
  let q := w.queue qk
  if !q.desc.irqEn then w
  else
    let n := q.sinceRecs + 1
    if max 1 q.desc.coalCount ≤ n then raisePend qk (w.updQueue qk fun q => { q with sinceRecs := 0, sinceBeats := none })
    else w.updQueue qk fun q => { q with sinceRecs := n, sinceBeats := some (q.sinceBeats.getD 0) }

/-- A blocked queue with nothing held and its status block written returns to ACTIVE (R151). -/
def unblock (qk : Nat) (w : Work) : Work :=
  w.updQueue qk fun q =>
    if q.state = .blocked ∧ q.held.isEmpty ∧ q.kept.isEmpty ∧ ¬q.stFailed then { q with state := .active, stDirty := true } else q

/-- Start the write of a queue's oldest held record, where its ring has room (R150). Kept records (R149) are not retried
themselves: they enter the overflow as it empties. [DESIGN CHOICE, log entry 57] -/
def retryRecords (e : Block) (qk : Nat) (w : Work) : Work :=
  let q := w.queue qk
  match q.held with
  | r :: _ => if q.recBusy.isSome || q.ringFull || !mayWrite w qk q.desc.cqDev then w else startRecord e qk r true w
  | [] => w

/-- RETRY (R150, R151): held records, and a status block whose last write failed. -/
def retryQueue (e : Block) (qk : Nat) (w : Work) : Work :=
  retryRecords e qk (w.updQueue qk fun q => if q.stFailed then { q with stDirty := true } else q)

/-- The state and causes of a queue whose record or status block could not be written (R144, R147). -/
def blockQueue (qk : Nat) (w : Work) : Work :=
  queueCause qk .completionBlocked St.completionBlocked
    (w.updQueue qk fun q => if q.state = .active then { q with state := .blocked, stDirty := true } else q)

/-- Serve a queue's records after a write has ended. -/
def serveRecords (e : Block) (qk : Nat) (w : Work) : Work := serveDue e qk ((w.queue qk).due.length + 1) w

/-- A record has been written (R124, R146, R150, R151). -/
def recordWritten (e : Block) (qk : Nat) (deferred : Bool) (w : Work) : Work :=
  let w := w.updQueue qk fun q => { q with
    cqTail := q.cqTail + 1, stDirty := true, recBusy := none, held := if deferred then q.held.drop 1 else q.held }
  let w := coalesce qk w
  let w := if deferred then retryRecords e qk (refillOverflow qk w) else w
  serveRecords e qk (unblock qk w)

/-- A record could not be written (R147, R150): PASID_INVALID revokes the slice and puts nothing in the overflow (R76). -/
def recordFailed (e : Block) (qk : Nat) (deferred : Bool) (r : Rec) (st : Status) (w : Work) : Work :=
  let w := w.updQueue qk fun q => { q with recBusy := none }
  if st = St.pasidRevoked then w
  else serveRecords e qk (blockQueue qk (if deferred then w else toOverflow qk r w))

/-- Act on the answer to a record write (R147). -/
def recordAnswered (e : Block) (tag : Nat) (w : Work) : Work :=
  match w.req tag with
  | none => w
  | some r =>
    match r.why, r.answer with
    | .record qk deferred, some (st, _) =>
      let w := w.dropReq tag
      match (w.queue qk).recBusy with
      | none => w
      | some x => if st = St.ok then recordWritten e qk deferred w else recordFailed e qk deferred x st w
    | _, _ => w

/-- COMPLETION_RECORD_WRITE. -/
def execCompletionRecordWrite (tag : Nat) (s : State) : Host.Outcome State Fault Refusal :=
  .next (s.onWork fun e w => recordAnswered e tag w)

/-- The pending bit is raised COAL_BEATS edges after a record (R146). -/
def coalesceLate (qk : Nat) (w : Work) : Work :=
  let q := w.queue qk
  match q.sinceBeats with
  | some n =>
    if q.desc.irqEn && q.desc.coalBeats != 0 && q.desc.coalBeats ≤ n then
      raisePend qk (w.updQueue qk fun q => { q with sinceRecs := 0, sinceBeats := none })
    else w
  | none => w

/-- COALESCE_TIMEOUT. -/
def execCoalesceTimeout (slice queue : Nat) (s : State) : Host.Outcome State Fault Refusal :=
  .next (s.onWork fun _ w => coalesceLate (qkey slice queue) w)

/-! ### Status blocks and entry reads (R136, R142 to R144) -/

/-- The 16 bytes of a status block (R142). -/
def statusBytes (q : Queue) : List Byte :=
  leBytes 4 q.fetch.toNat ++ leBytes 4 q.head.toNat ++ leBytes 4 q.cqTail.toNat ++ leBytes 1 q.state.code ++ leBytes 3 0

/-- Write a queue's status block, where something of it has changed (R142). [DESIGN CHOICE, log entry 6] -/
def writeStatus (e : Block) (qk : Nat) (w : Work) : Work :=
  let q := w.queue qk
  if q.state == .absent || !q.stDirty || q.stBusy || !mayWrite w qk q.desc.statusDev then w
  else
    writeFor e (sliceOf qk) q.desc.statusDev q.desc.statusBase.toNat (statusBytes q) (.statusBlock qk q.fetch)
      (w.updQueue qk fun q => { q with stDirty := false, stBusy := true })

/-- STATUS_BLOCK_WRITE. [DESIGN CHOICE, log entry 6] -/
def execStatusBlockWrite (slice queue : Nat) (s : State) : Host.Outcome State Fault Refusal :=
  .next (s.onWork fun e w => writeStatus e (qkey slice queue) w)

/-- Issue the reads of entries that a status block has shown, a window of 256 bytes at a time (R136, R143).
[DESIGN CHOICE, log entry 9; DESIGN CHOICE, log entry 10] -/
def issueReads (e : Block) (qk : Nat) : Nat → Work → Work
  | 0, w => w
  | fuel + 1, w =>
    let q := w.queue qk
    let left := (q.shownFetch - q.readNext).toNat
    if left = 0 || 2 ^ 31 ≤ left then w
    else
      let slot := q.readNext.toNat % 2 ^ q.desc.sqLog2
      let n := min (4 - slot % 4) left
      let w := readFor e (sliceOf qk) q.desc.sqDev (q.desc.sqBase.toNat + 64 * slot) (64 * n) (.sqRead qk q.readNext.toNat n) w
      issueReads e qk fuel (w.updQueue qk fun q => { q with readNext := q.readNext + BitVec.ofNat 32 n })

/-- Whether the admin queue is enabled and its descriptor has been read (R215, R217). -/
def adminServing (w : Work) : Bool := w.admin.enable && !w.fab.reqs.any fun r => r.why == .adminDesc && !r.dead

/-- Whether entries of a queue may be read: its slice is ACTIVE (R116, R118, R605), the admin queue enabled (R217). -/
def mayRead (w : Work) (qk : Nat) : Bool :=
  match sliceOf qk with
  | some s => (w.slice s).state == .active
  | none => adminServing w

/-- Read what a status block has shown (R143, R144). -/
def readShown (e : Block) (qk : Nat) (w : Work) : Work :=
  if mayRead w qk && !(w.queue qk).stFailed then issueReads e qk 256 w else w

/-- The answer to a status block write (R143, R144, R151). [DESIGN CHOICE, log entry 10] -/
def statusAnswered (e : Block) (qk : Nat) (fetch : BitVec 32) (st : Status) (w : Work) : Work :=
  let w := w.updQueue qk fun q => { q with stBusy := false }
  if (w.queue qk).state == .absent then w
  else if st = St.ok then
    let w := w.updQueue qk fun q =>
      { q with stFailed := false, shownFetch := if (fetch - q.shownFetch).toNat < 2 ^ 31 then fetch else q.shownFetch }
    readShown e qk (unblock qk w)
  else if st = St.pasidRevoked then w
  else blockQueue qk (w.updQueue qk fun q => { q with stFailed := true })

/-! ### Fetching (R136, R139, R217) -/

/-- Whether a queue may fetch (R139, R217). -/
def mayFetch (w : Work) (qk : Nat) : Bool :=
  let q := w.queue qk
  (match sliceOf qk with
   | some s => (w.slice s).state == .active && !(w.ctx s q.desc.context).stopped
   | none => adminServing w) &&
  (q.state == .active || (q.state == .blocked && !q.stFailed)) && q.fetch != q.tail &&
  (q.fetch - q.head).toNat < q.desc.maxInflight && q.kept.isEmpty && (qk == adminKey || q.cached) && !q.closing

/-- How many entries a fetch takes: 8 at most, in two windows at most, within TAIL and MAX_INFLIGHT (R125, R136). -/
def fetchCount (q : Queue) : Nat :=
  min (min (8 - q.fetch.toNat % 4) (q.tail - q.fetch).toNat) (q.desc.maxInflight - (q.fetch - q.head).toNat)

/-- A fetch commits to read entries: FETCH passes them (R124, R136).
[DESIGN CHOICE, log entry 9; DESIGN CHOICE, log entry 10] -/
def startFetch (qk : Nat) (w : Work) : Work :=
  if mayFetch w qk then
    w.updQueue qk fun q =>
      let q := { q with fetch := q.fetch + BitVec.ofNat 32 (fetchCount q), stDirty := true }
      advanceHead (q.finished.length + 1) q
  else w

/-- QUEUE_FETCH. -/
def execQueueFetch (slice queue : Nat) (s : State) : Host.Outcome State Fault Refusal :=
  .next (s.onWork fun _ w => startFetch (qkey slice queue) w)

/-- Start the load of a queue with a pending doorbell into the queue cache: an entry is free, or an idle queue gives its own
up (R137). [DESIGN CHOICE, log entry 32; DESIGN CHOICE, log entry 58] -/
def loadQueue (e : Block) (qk : Nat) (w : Work) : Work :=
  let q := w.queue qk
  if q.state == .absent || q.cached || q.loading || !q.dbPending then w
  else
    let take (w : Work) : Work :=
      readFor e none true (queueEntryAddr e qk) queueEntryLen (.queueLoad qk) (w.updQueue qk fun q => { q with loading := true })
    if cachedQueues w < 1024 then take w
    else
      let d := w.draw
      match idleQueue qk d.1 w with
      | some v => take (uncacheQueue e v d.2)
      | none => w

/-- The queue table entry of a queue has been read (R137): the queue is in the cache, and its bit of the pending map clears.
A read that fails leaves the bit, so that the load is tried again. [DESIGN CHOICE, log entry 58] -/
def queueLoaded (qk : Nat) (st : Status) (w : Work) : Work :=
  w.updQueue qk fun q =>
    if q.state = .absent ∨ !q.loading then q
    else if st = St.ok then { q with loading := false, cached := true, dbPending := false }
    else { q with loading := false }

/-- QUEUE_CACHE_LOAD. -/
def execQueueCacheLoad (slice queue : Nat) (s : State) : Host.Outcome State Fault Refusal :=
  .next (s.onWork fun e w => loadQueue e (qkey slice queue) w)

/-! ### Doorbells (R134, R135, R137) -/

/-- A doorbell write is refused (R134, R706). -/
def refuseDoorbell (qk : Nat) (w : Work) : Work :=
  queueCause qk .doorbellRange St.doorbellRange (w.updQueue qk fun q => { q with dbRefused := satInc q.dbRefused })

/-- A new TAIL (R134). -/
def applyTail (qk : Nat) (v : BitVec 32) (w : Work) : Work :=
  let q := w.queue qk
  if (v - q.tail).toNat > 2 ^ q.desc.sqLog2 ∨ (v - q.head).toNat > 2 ^ q.desc.sqLog2 then refuseDoorbell qk w
  else w.updQueue qk fun q => { q with tail := v, dbPending := q.dbPending || !q.cached }

/-- A new CQ_HEAD (R134, R150). -/
def applyHead (e : Block) (qk : Nat) (v : BitVec 32) (w : Work) : Work :=
  let q := w.queue qk
  if (v - q.cqHead).toNat > (q.cqTail - q.cqHead).toNat then refuseDoorbell qk w
  else retryRecords e qk (w.updQueue qk fun q => { q with cqHead := v, dbPending := q.dbPending || !q.cached })

/-- Whether a slice's doorbells are latched (R116, R135). -/
def latches (x : Slice) : Bool := x.state == .draining || x.state == .frozen

/-- Whether a doorbell write reaches a queue (R135): the queue exists and the slice is neither OFF nor FENCED. A write to
SLC_Q_CTL needs the queue alone. -/
def reaches (w : Work) (qk : Nat) : Bool :=
  (w.queue qk).state != .absent && (match sliceOf qk with
    | some s => (w.slice s).pasidOpen
    | none => true)

/-- Whether a queue's doorbells are latched. -/
def latched (w : Work) (qk : Nat) : Bool :=
  match sliceOf qk with
  | some s => latches (w.slice s)
  | none => false

/-- A write to a submission doorbell (R134, R135). -/
def sqDoorbellOp (qk : Nat) (v : BitVec 32) (w : Work) : Work :=
  if !reaches w qk then w
  else if latched w qk then w.updQueue qk fun q => { q with lateTail := some v }
  else applyTail qk v w

/-- A write to a completion doorbell (R134, R135). -/
def cqDoorbellOp (e : Block) (qk : Nat) (v : BitVec 32) (w : Work) : Work :=
  if !reaches w qk then w
  else if latched w qk then w.updQueue qk fun q => { q with lateHead := some v }
  else applyHead e qk v w

/-- Act on the latched values of a queue (R135, R608). -/
def applyLate (e : Block) (qk : Nat) (w : Work) : Work :=
  let q := w.queue qk
  let w := w.updQueue qk fun q => { q with lateTail := none, lateHead := none }
  let w := match q.lateTail with
    | some v => applyTail qk v w
    | none => w
  match q.lateHead with
  | some v => applyHead e qk v w
  | none => w

/-- SQ_DOORBELL. -/
def execSqDoorbell (slice queue : Nat) (value : BitVec 32) (s : State) : Host.Outcome State Fault Refusal :=
  .next (s.onWork fun _ w => if slice < 64 then sqDoorbellOp (qkey slice queue) value w else w)

/-- CQ_DOORBELL. -/
def execCqDoorbell (slice queue : Nat) (value : BitVec 32) (s : State) : Host.Outcome State Fault Refusal :=
  .next (s.onWork fun e w => if slice < 64 then cqDoorbellOp e (qkey slice queue) value w else w)

/-- ADM_AQ_SQ_DB (R216). -/
def execAdminSqDoorbell (value : BitVec 32) (s : State) : Host.Outcome State Fault Refusal :=
  .next (s.onWork fun _ w => sqDoorbellOp adminKey value w)

/-- ADM_AQ_CQ_DB (R216). -/
def execAdminCqDoorbell (value : BitVec 32) (s : State) : Host.Outcome State Fault Refusal :=
  .next (s.onWork fun e w => cqDoorbellOp e adminKey value w)

/-- A context's KILLED flag clears (R141): where the block does not hold the record's flags yet, as after a restore, it reads them
first, so that its write changes no other. [DESIGN CHOICE, log entry 59] -/
def clearKilled (e : Block) (s c : Nat) (w : Work) : Work :=
  if (w.ctx s c).known then writeCtxFlags e s c (w.updCtx s c fun x => { x with killed := false })
  else readFor e (some s) false (ctxAddr w s c + 33) 3 (.ctxFlags s c) (w.updCtx s c fun x => { x with killed := false })

/-- The flags and LAST_STATUS of a context record have been read: KILLED clears in it. -/
def flagsRead (e : Block) (s c : Nat) (st : Status) (b : List Byte) (w : Work) : Work :=
  if st ≠ St.ok ∨ (w.ctx s c).known then w
  else
    writeCtxFlags e s c (w.updCtx s c fun x => { x with
      saved := (fieldAt b 0 1).testBit 0, killed := false, last := BitVec.ofNat 16 (fieldAt b 1 2), known := true })

/-- RESUME (R141): the queue returns to service and its context's KILLED flag clears. -/
def resumeQueue (e : Block) (qk : Nat) (w : Work) : Work :=
  let q := w.queue qk
  if q.state != .halted then w
  else
    let back := if q.held.isEmpty && q.kept.isEmpty && !q.stFailed then QState.active else .blocked
    let w := w.updQueue qk fun q => { q with state := back, stDirty := true, shownFetch := q.readNext }
    match sliceOf qk with
    | some s => clearKilled e s q.desc.context w
    | none => w

/-- QUEUE_RESUME. -/
def execQueueResume (slice queue : Nat) (s : State) : Host.Outcome State Fault Refusal :=
  .next (s.onWork fun e w => if slice < 64 then resumeQueue e (qkey slice queue) w else w)

/-- QUEUE_RETRY. -/
def execQueueRetry (slice queue : Nat) (s : State) : Host.Outcome State Fault Refusal :=
  .next (s.onWork fun e w =>
    if slice < 64 && (w.queue (qkey slice queue)).state != .absent then retryQueue e (qkey slice queue) w else w)

/-! ### The admin queue (R214 to R217) -/

/-- ENABLE rises: the descriptor is read and all five positions become 0 (R215). -/
def adminEnable (e : Block) (w : Work) : Work :=
  if w.admin.enable then w
  else
    let w := w.updQueue adminKey fun q => { q with
      tail := 0, fetch := 0, head := 0, cqTail := 0, cqHead := 0, shownFetch := 0, readNext := 0, finished := [] }
    readFor e none false w.admin.descAddr.toNat 64 .adminDesc { w with admin := { w.admin with enable := true } }

/-- ENABLE clears with ENABLE_FAILED (R215, R706). -/
def adminRefuse (st : Status) (w : Work) : Work :=
  setAdminCause .enableFailed st { w with admin := { w.admin with enable := false } }

/-- The admin descriptor's answer (R215): the queue is new, and what the one before it still had to write is dropped. Commands of
the queue before it that are in flight end against the new one: their records go to its ring, their positions to its finished
ones. [DESIGN CHOICE, log entry 21] -/
def adminDescAnswered (st : Status) (b : List Byte) (w : Work) : Work :=
  if !w.admin.enable then w
  else if st ≠ St.ok then adminRefuse st w
  else
    let d := descOf b
    if descOk 12 b && d.cls == 0 && !d.sqDev && !d.cqDev && !d.statusDev && d.context == 0 then
      { w.updFab (fun f => f.orphanQueues (· == adminKey)) with queues := tblSet {} w.queues adminKey (newQueue d) }
    else adminRefuse St.badCommand w

/-- The bases that lack extension entries end with STATE_REJECT (R118, R217). [DESIGN CHOICE, log entry 21] -/
def rejectPartBases (sel : Cmd → Bool) (w : Work) : Work :=
  (w.cmds.filter fun c => c.phase == .partBase && c.endStatus.isNone && sel c).foldl
    (fun w c => endPartBase St.stateReject c w) w

/-- ENABLE falls (R217). -/
def adminDisable (w : Work) : Work :=
  if w.admin.enable then
    let w := w.updFab fun f => { f with reqs := f.reqs.map fun r => if r.why = .adminDesc then { r with dead := true } else r }
    rejectPartBases (fun c => c.qk == adminKey) { w with admin := { w.admin with enable := false } }
  else w

/-- ADMIN_QUEUE_ENABLE. -/
def execAdminQueueEnable (s : State) : Host.Outcome State Fault Refusal :=
  .next (s.onWork adminEnable)

/-- ADMIN_QUEUE_DISABLE. -/
def execAdminQueueDisable (s : State) : Host.Outcome State Fault Refusal :=
  .next (s.onWork fun _ w => adminDisable w)

/-! ### SLC_CTL (R117, R118) -/

/-- Record the status of a write to SLC_CTL. -/
def ctlStatus (s : Nat) (st : Status) (w : Work) : Work := w.updSlice s fun x => { x with ctlStatus := st }

/-- Whether a slice's PASID is bound to no other slice that is not OFF (R117). -/
def pasidFree (w : Work) (s : Nat) : Bool :=
  w.slices.all fun p => p.1 == s || p.2.state == .off || p.2.pasid != (w.slice s).pasid

/-- ENABLE (R117). -/
def enableSlice (e : Block) (s : Nat) (w : Work) : Work :=
  let x := w.slice s
  if x.state == .off && x.ctxLog2.toNat ≤ 12 && pasidFree w s then ctlStatus s St.ok ((sliceOn e s w).later (.leftOff s))
  else ctlStatus s St.stateReject w

/-- DISABLE (R117, R118, R616). -/
def disableSlice (e : Block) (s : Nat) (w : Work) : Work :=
  match (w.slice s).state with
  | .active =>
    ctlStatus s St.ok (rejectPartBases (fun c => c.slice == some s) (w.updSlice s fun x => { x with state := .draining }))
  | .frozen =>
    let w := ctlStatus s St.ok w
    if saving w s then w.updSlice s fun x => { x with offDue := true } else sliceOff e s (leaveSlots e s w)
  | .fenced => ctlStatus s St.ok (sliceOff e s w)
  | _ => ctlStatus s St.stateReject w

/-- Whether a DRAINING slice has drained (R118): nothing fetched is left and its records are written or held. It waits for no
teardown of a context without commands, of which the slice's entering OFF then leaves nothing.
[DESIGN CHOICE, log entry 21; DESIGN CHOICE, log entry 28] -/
def drained (w : Work) (s : Nat) : Bool :=
  (w.slice s).state == .draining && (w.cmds.all fun c => !(c.slice == some s)) &&
  (w.queues.all fun p => !(sliceOf p.1 == some s) || (p.2.due.isEmpty && p.2.recBusy.isNone)) &&
  (w.fab.reqs.all fun r => match r.why with
    | .sqRead qk _ _ => !(sliceOf qk == some s)
    | _ => true)

/-- Whether a request with a slice's PASID is outstanding: none is issued once the slice is OFF (R119). -/
def pasidBusy (w : Work) (s : Nat) : Bool := w.fab.reqs.any fun r => r.slice == some s

/-- A drained slice enters OFF (R118): its contexts leave their slots first (R155), and the writes that this takes are
answered before it is OFF. -/
def drainSlice (e : Block) (s : Nat) (w : Work) : Work :=
  if drained w s then
    let w := leaveSlots e s w
    if pasidBusy w s then w else sliceOff e s w
  else w

/-- SLICE_ENABLE. -/
def execSliceEnable (slice : Nat) (s : State) : Host.Outcome State Fault Refusal :=
  .next (s.onWork fun e w => if slice < 64 then enableSlice e slice w else w)

/-- SLICE_DISABLE. -/
def execSliceDisable (slice : Nat) (s : State) : Host.Outcome State Fault Refusal :=
  .next (s.onWork fun e w => if slice < 64 then disableSlice e slice w else w)

/-- SLICE_DRAINED. -/
def execSliceDrained (slice : Nat) (s : State) : Host.Outcome State Fault Refusal :=
  .next (s.onWork fun e w => drainSlice e slice w)

end Sys2Proof.Machine
end

