-- ==== Sys2Proof/Machine/Progs.lean ====
section
/-! DEFINITION. Tidy programs and joiner cores: dispatch (R294, R421 to R423), the ends of a program (R430, R435), suspects
and their replay (R565 to R568), and what a cluster reset does to them (R438, R445). -/

namespace Sys2Proof.Machine

/-! ### Cores and programs -/

/-- Core `k`. -/
def Work.jcore (w : Work) (k : Nat) : JCore := tblGet {} w.jnr.cores k

/-- Change core `k`. -/
def Work.updCore (w : Work) (k : Nat) (f : JCore → JCore) : Work :=
  { w with jnr := { w.jnr with cores := tblUpd {} w.jnr.cores k f } }

/-- The program with a number that is still on its core. -/
def Work.prog (w : Work) (pid : Nat) : Option Prog := w.jnr.progs.find? fun p => p.pid == pid && !p.gone

/-- Change a program. -/
def Work.updProg (w : Work) (pid : Nat) (f : Prog → Prog) : Work :=
  { w with jnr := { w.jnr with progs := w.jnr.progs.map fun p => if p.pid = pid then f p else p } }

/-- Whether the cluster runs its firmware (R445). -/
def jnrRuns (w : Work) : Bool := w.jnr.state == .running

/-- CORES_UP (R446): cores that run the firmware and have no core fault. -/
def coresUp (w : Work) : BitVec 32 :=
  if jnrRuns w then (List.range 32).foldl (fun m k => if (w.jcore k).up then setBit m k else m) 0 else 0

/-- The bytes of a TIDY's image: handle, offset, length (R419). -/
def tidyImage (c : Cmd) : Nat × Nat × Nat := (fieldAt c.bytes 24 4, fieldAt c.bytes 28 4, fieldAt c.bytes 32 4)

/-- LOCAL_PAGES. -/
def tidyPages (c : Cmd) : Nat := fieldAt c.bytes 40 1

/-- Whether pages of a core lie in its program memory and hold no program. -/
def pagesFree (w : Work) (k first n : Nat) : Bool :=
  first + n ≤ 44 && (corePrograms w k).all fun p => p.firstPage + p.pages ≤ first || first + n ≤ p.firstPage

/-- The lowest run of `n` free pages of a core. -/
def firstRun (w : Work) (k n : Nat) : Option Nat := (List.range 45).find? fun i => pagesFree w k i n

/-- The kept image of a TIDY on a core, whose pages the program can take again (R422). -/
def keptFor (w : Work) (k : Nat) (c : Cmd) : Option KeptImage :=
  if (fieldAt c.bytes 41 1).testBit 0 then none
  else (w.jcore k).kept.find? fun x => x.handle.toNat == (tidyImage c).1 && x.offset == (tidyImage c).2.1 &&
    x.len == (tidyImage c).2.2 && pagesFree w k x.firstPage (tidyPages c)

/-- Whether a core is free for a TIDY (R421, R566, R567, R568). -/
def coreFree (d : Dict) (w : Work) (k : Nat) (c : Cmd) : Bool :=
  let x := w.jcore k
  x.up && x.inService && !x.restarting && !x.replay && (corePrograms w k).length < d.tidySlots && (firstRun w k (tidyPages c)).isSome

/-- The core that a TIDY is given (R421). -/
def coreFor (d : Dict) (w : Work) (c : Cmd) : Option Nat :=
  let free := (List.range 32).filter fun k => coreFree d w k c
  match free.find? fun k => (keptFor w k c).isSome with
  | some k => some k
  | none => leastPort (fun k => (corePrograms w k).length) free

/-! ### Local memory and registers (R416, R417, R423) -/

/-- `n` bytes of core `k`'s local memory from `a`. -/
def localRead (w : Work) (k a n : Nat) : List Byte := (List.range n).map fun i => tblGet 0 w.jnr.mem (k * 2 ^ 18 + a + i)

/-- Write bytes into core `k`'s local memory from `a`. -/
def localWrite (k a : Nat) (d : List Byte) (w : Work) : Work :=
  { w with jnr := { w.jnr with mem := d.zipIdx.foldl (fun m p => tblSet 0 m (k * 2 ^ 18 + a + p.2) p.1) w.jnr.mem } }

/-- Where a program's window lies in its core's local memory (R417). -/
def Prog.base (p : Prog) : Nat := 0x14000 + p.firstPage * 4096

/-- The core address of a program's info block: the last 64 bytes of its window (R423, R424). -/
def infoAddr (pages : Nat) : Nat := 0x100000 + pages * 4096 - 64

/-- `n` free bytes of a draw, as a number. -/
def freeField (d off n : Nat) : Nat := leNat ((List.range n).map fun i => Config.freeByte d (off + i))

/-- The control and status registers of user mode that a program can write (R416): fflags, frm, fcsr, vstart, vxsat, vxrm, vcsr, vl and
vtype. [DESIGN CHOICE, log entry 35] -/
def userCsrs : List Nat := [1, 2, 3, 8, 9, 10, 15, 0xC20, 0xC21]

/-- The registers with which a program starts (R423): a0, a1 and sp as said, x0 zero, and every other register free.
[DESIGN CHOICE, log entry 35] -/
def entryHart (d : Nat) (c : Cmd) : Hart :=
  let info := BitVec.ofNat 64 (infoAddr (tidyPages c))
  let x (i : Nat) : BitVec 64 :=
    if i = 0 then 0 else if i = 2 ∨ i = 11 then info else if i = 10 then BitVec.ofNat 64 (fieldAt c.bytes 48 8)
    else BitVec.ofNat 64 (freeField d (8 * i) 8)
  { pc := BitVec.ofNat 64 (0x100000 + fieldAt c.bytes 36 4), user := true
    x := (List.range 32).foldl (fun t i => tblSet 0 t i (x i)) []
    f := (List.range 32).foldl (fun t i => tblSet 0 t i (BitVec.ofNat 64 (freeField d (256 + 8 * i) 8))) []
    v := (List.range 32).foldl (fun t i => tblSet 0 t i (BitVec.ofNat 512 (freeField d (512 + 64 * i) 64))) []
    csr := userCsrs.foldl (fun t i => tblSet 0 t i (BitVec.ofNat 64 (freeField d (2560 + 8 * i) 8))) [] }

/-- The info block (R423). -/
def infoBlock (e : Block) (c : Cmd) (core : Nat) : List Byte :=
  leBytes 8 (fieldAt c.bytes 48 8) ++ leBytes 8 e.clk.beat.toNat ++ leBytes 4 c.sqIndex.toNat ++ leBytes 2 c.recNode.toNat ++
  leBytes 2 (c.ctx % 4096) ++ leBytes 1 (c.slice.getD 0) ++ leBytes 1 (c.qk % 64) ++ leBytes 1 core ++ leBytes 1 (tidyPages c) ++
  leBytes 4 (tidyImage c).1 ++ leBytes 32 0

/-- Read a program's image into its pages (R423). [DESIGN CHOICE, log entry 69] -/
def readImage (e : Block) (c : Cmd) (pid : Nat) (w : Work) : Work :=
  let i := tidyImage c
  issue e c.slice (objReq e (w.obj (hIndex i.1)) .read i.2.1 i.2.2 [] (.program pid)) w

/-- Write a program's info block into its window (R423). -/
def writeInfo (e : Block) (c : Cmd) (p : Prog) (w : Work) : Work :=
  localWrite p.core (p.base + p.pages * 4096 - 64) (infoBlock e c p.core) w

/-- A TIDY starts on a core (R421 to R423). [DESIGN CHOICE, log entry 35] -/
def startProgram (e : Block) (c : Cmd) (s k : Nat) (w : Work) : Work :=
  let kept := keptFor w k c
  let first := match kept with
    | some x => x.firstPage
    | none => (firstRun w k (tidyPages c)).getD 0
  let pid := w.jnr.nextPid
  let d := w.draw
  let w := d.2
  let p : Prog := {
    pid := pid, cmd := c.id, slice := s, ctx := c.ctx, core := k, firstPage := first, pages := tidyPages c,
    hart := entryHart d.1 c, syncValue := 0, syncStatus := St.ok, storesOut := 0, exitA0 := none, loading := kept.isNone,
    fencing := false, suspect := false, replaying := false,
    current := !((corePrograms w k).any fun q => q.current), gone := false, lastLoad := none, reserved := none }
  let w := w.updCore k fun x => { x with
    kept := x.kept.filter fun y => y.firstPage + y.pages ≤ first || first + tidyPages c ≤ y.firstPage }
  let w := writeInfo e c p { w with jnr := { w.jnr with progs := w.jnr.progs ++ [p], nextPid := pid + 1 } }
  if kept.isNone then readImage e c pid w else w

/-- Whether a TIDY is runnable and not yet on a core (R294, R421, R438, R562). -/
def tidyRunnable (w : Work) (c : Cmd) : Bool :=
  c.op == some .tidy && c.phase == .running && c.endStatus.isNone && !c.suspended && !(w.jnr.progs.any fun p => p.cmd == c.id) &&
  (match c.slice with
   | some s => (w.slice s).runs && !(w.ctx s c.ctx).stopped
   | none => false)

/-- The order of dispatch (R294). -/
def tidyOrder (w : Work) : List Cmd :=
  let def0 (c : Cmd) : Int := (c.slice.map fun s => (w.slice s).deficit).getD 0
  (w.cmds.filter (tidyRunnable w)).isort fun a b =>
    effPriority w b < effPriority w a || (effPriority w a == effPriority w b &&
      (def0 b < def0 a || (def0 a == def0 b && a.relOrder ≤ b.relOrder)))

/-- Dispatch at a beat edge (R33 step 4, R294). -/
def dispatchTidies (e : Block) (w : Work) : Work :=
  if !jnrRuns w then w
  else (tidyOrder w).foldl (fun w c =>
    match c.slice, coreFor e.dct w c with
    | some s, some k => startProgram e c s k w
    | _, _ => w) w

/-! ### The ends of a program (R430, R435) -/

/-- A program is over: it leaves its core, and its TIDY ends. -/
def endProgram (p : Prog) (st : Status) (w : Work) : Work := endCmd p.cmd st (removeProgram p.pid w)

/-- Whether a failed answer waits to trap a program. -/
def Prog.failing (p : Prog) : Bool :=
  match p.lastLoad with
  | some (st, _) => st != St.ok
  | none => false

/-- An EXIT takes effect once every store of the program has been answered (R430). -/
def finishExit (pid : Nat) (w : Work) : Work :=
  match w.prog pid with
  | none => w
  | some p => match p.exitA0 with
    | some a => if p.storesOut = 0 ∧ !p.failing then endProgram p (if a = 0 then St.ok else St.tidyExit) w else w
    | none => w

/-- A program traps (R435): it leaves its core, and its TIDY fails. -/
def trapProgram (e : Block) (pid : Nat) (st : Status) (w : Work) : Work :=
  match w.prog pid with
  | none => w
  | some p => faultCmd e p.cmd st 0 (removeProgram pid w)

/-- An access of a program, or the read of its image, is answered (R430, R431, R435). -/
def programAnswered (e : Block) (pid : Nat) (write : Bool) (st : Status) (data : List Byte) (w : Work) : Work :=
  match w.jnr.progs.find? fun p => p.pid == pid with
  | none => w
  | some p =>
    if p.gone then
      if w.fab.reqs.any fun r => r.why == .program pid && r.answer.isNone then w
      else { w with jnr := { w.jnr with progs := w.jnr.progs.filter fun q => !(q.pid == pid) } }
    else if p.loading then
      if st = St.ok then localWrite p.core p.base data (w.updProg pid fun q => { q with loading := false }) else trapProgram e pid st w
    else if write then
      finishExit pid (w.updProg pid fun q => { q with
        storesOut := q.storesOut - 1, fencing := q.fencing && q.storesOut != 1,
        lastLoad := if st = St.ok then q.lastLoad else some (st, []) })
    else w.updProg pid fun q => { q with lastLoad := if q.failing then q.lastLoad else some (st, data) }

/-! ### The cluster is reset (R438, R445) -/

/-- What a core keeps when the cluster stops: the counts of its faults. [DEDUCED, log entry 36] -/
def JCore.stopped (x : JCore) : JCore := { faults := x.faults, confirmed := x.confirmed, unattrib := x.unattrib }

/-- Every core stops. -/
def stopCores (t : Tbl JCore) : Tbl JCore := (t.map fun p => (p.1, p.2.stopped)).filter fun p => p.2 != {}

/-- The cluster is reset: every program ends, and every TIDY released and not yet ended ends with RESET_DOMAIN. The
mailbox unit's part is the block's. -/
def resetCluster (cause : ClusterCause) (w : Work) : Work :=
  let w := w.updFab fun f => { f with reqs := f.reqs.map fun r => match r.why with
    | .program _ => { r with dead := true }
    | .bootRead _ => { r with dead := true }
    | _ => r }
  let w := { w with jnr := { w.jnr with state := .reset, progs := [], cores := stopCores w.jnr.cores, fwVersion := 0, cause := cause, boxDue := true } }
  w.mapCmds fun c =>
    if c.op = some .tidy ∧ (c.phase = .released ∨ c.phase = .running ∨ c.phase = .stopping) then
      { c.endWith St.resetDomain with phase := .stopping, waiting := .none }
    else c

/-- The cluster is reset by the faults of its cores, in a domain reset that their captures cover (R566, R568, R584, R595). -/
def resetJoiner (w : Work) : Work := resetCluster .domainReset (recordReset 3 0 St.suspectConfirmed w)

/-- A cluster reset that is no domain reset, with its own capture (R445, R584). R588 gives that capture no TRIGGER, so it
is free. -/
def resetByHost (e : Block) (cause : ClusterCause) (w : Work) : Work :=
  let d := w.draw
  resetCluster cause (captureEvent e { trigger := (Config.freeWord d.1).setWidth 16, domain := 3, concern := .cores } d.2)

/-! ### Images (R439, R443) -/

/-- The codes of R443. -/
abbrev cReady : Nat := 1
/-- LOADING. -/
abbrev cLoading : Nat := 2
/-- LOADED. -/
abbrev cLoaded : Nat := 3
/-- BAD_HEADER. -/
abbrev cBadHeader : Nat := 0x10
/-- BAD_CRC. -/
abbrev cBadCrc : Nat := 0x11
/-- BAD_RELEASE. -/
abbrev cBadRelease : Nat := 0x12
/-- READ_FAILED. -/
abbrev cReadFailed : Nat := 0x13
/-- START_FAILED. -/
abbrev cStartFailed : Nat := 0x14

/-- The check of an image against R439: LOADED, or the code of the breach. [DESIGN CHOICE, log entry 36] -/
def imageCheck (b : List Byte) : Nat :=
  let len := fieldAt b 8 4
  let entry := fieldAt b 12 4
  if fieldAt b 0 4 ≠ 0x46524E4A ∨ fieldAt b 4 2 ≠ 1 ∨ len % 64 ≠ 0 ∨ len < 128 ∨ 65536 < len ∨ entry % 2 ≠ 0 ∨ len ≤ entry ∨
      (bytesAt b 24 40).any (fun x => x != 0) then cBadHeader
  else if fieldAt b 6 2 ≠ 0x0203 then cBadRelease
  else if (crc32 (patchBytes (bytesAt b 0 len) 20 [0, 0, 0, 0])).toNat ≠ fieldAt b 20 4 then cBadCrc
  else cLoaded

/-- The registers with which a core enters the firmware (R439): the image region begins at address 0 of the core.
[DESIGN CHOICE, log entry 35] -/
def firmwareHart (image : List Byte) : Hart := { pc := BitVec.ofNat 64 (fieldAt image 12 4) }

/-! ### Suspects (R565 to R568) -/

/-- Whether a core in service other than `k` is left. -/
def otherCores (w : Work) (k : Nat) : Bool := (List.range 32).any fun j => j != k && (w.jcore j).inService

/-- A core leaves service (R568), or, with the last, the cluster is reset. -/
def coreLeaves (k : Nat) (w : Work) : Work :=
  if otherCores w k then
    (w.updCore k fun x => { x with inService := false, up := false, restarting := false, replay := false }).raise (vecAdmin 4)
  else resetJoiner w

/-- The replays of a core are over (R568): a fault after which none ended by a core fault is unattributed. -/
def endReplay (k : Nat) (w : Work) : Work :=
  let x := w.jcore k
  let w := w.updCore k fun x => { x with
    replay := false, replayFault := false, unattrib := if x.replayFault then x.unattrib else satInc x.unattrib }
  if !x.replayFault && 3 ≤ (w.jcore k).unattrib.toNat then coreLeaves k w else w

/-- The next held suspect of a core is replayed, alone and from ENTRY (R567); with none left the replays are over. -/
def nextReplay (e : Block) (k : Nat) (w : Work) : Work :=
  if !(w.jcore k).replay || (w.jcore k).restarting || (corePrograms w k).any (fun p => p.replaying) then w
  else match (corePrograms w k).find? fun p => p.suspect with
    | none => endReplay k w
    | some p =>
      match w.cmd p.cmd with
      | none => removeProgram p.pid w
      | some c =>
        let d := w.draw
        readImage e c p.pid (writeInfo e c p (d.2.updProg p.pid fun q => { q with
          replaying := true, suspect := false, current := true, loading := true, fencing := false, exitA0 := none, storesOut := 0,
          syncValue := 0, syncStatus := St.ok, lastLoad := none, reserved := none, hart := entryHart d.1 c }))

/-- Replays go on, on every core. -/
def replayCores (e : Block) (w : Work) : Work :=
  (w.jnr.cores.filter fun p => p.2.replay).foldl (fun w p => nextReplay e p.1 w) w

/-- The suspects that a capture of a core fault records: contexts that had a program on the core in the beat of the fault or
in the beat before, the held ones marked (R565, R588). -/
def suspectsOf (w : Work) (k : Nat) : List (Nat × Nat × Bool) :=
  let held := ((corePrograms w k).map fun p => (p.slice, p.ctx, true)).dedup
  held ++ ((w.jcore k).left.map fun x => (x.1, x.2.1, false)).dedup.filter fun x => !held.contains (x.1, x.2.1, true)

/-- Whether a core executes code: in the boot ROM core 0 alone does, then every core that self-test has not taken out (R441). -/
def coreExecutes (e : Block) (w : Work) (k : Nat) : Bool :=
  match w.jnr.state with
  | .running => (w.jcore k).up || (w.jcore k).restarting
  | .starting => !e.st.bistCores.getLsbD k
  | .reset => false
  | _ => k == 0

/-- The accesses of a core's programs, and the reads of their images, are answered to no one (R565, R567). -/
def deadenCore (k : Nat) (w : Work) : Work :=
  let of (y : Purpose) : Bool := match y with
    | .program pid => w.jnr.progs.any fun p => p.pid == pid && p.core == k && !p.gone
    | _ => false
  w.updFab (Fabric.orphan of)

/-- A core fault (R436, R565, R567): the core stops; a program that was being replayed is the confirmed suspect, and every
other program on the core is held. A fault during the restart resets the cluster (R566), with its own capture (R584).
[DESIGN CHOICE, log entry 26] -/
def coreFaultOp (e : Block) (k : Nat) (cause : CoreFaultCause) (w : Work) : Work :=
  let x := w.jcore k
  if !coreExecutes e w k || (cause == .beatNotAcknowledged && decide (x.events < 2)) then w
  else
    let w := w.updCore k fun y => { y with faults := satInc y.faults }
    let guilty := (corePrograms w k).find? fun p => p.replaying
    let w := captureEvent e
      { trigger := St.suspectConfirmed, slice := ((guilty.map Prog.slice).getD 0xFF), ctx := guilty.map Prog.ctx,
        cmd := guilty.map Prog.cmd, suspects := suspectsOf w k, concern := .cores } w
    if x.restarting then resetJoiner w
    else
      let q := w.cap.seq
      let w := deadenCore k w
      let w := w.updCore k fun y => { y with
        event := q, up := false, restarting := true, events := 0, kept := [], replayFault := y.replayFault || guilty.isSome,
        confirmed := if guilty.isSome then satInc y.confirmed else y.confirmed }
      let w := (corePrograms w k).foldl (fun w p => w.updProg p.pid fun q => { q with suspect := true, current := false, exitA0 := none }) w
      match guilty with
      | some p => faultWith (some q) none e p.cmd St.suspectConfirmed 0 (removeProgram p.pid w)
      | none => w

/-- The bytes that a core's image region is copied from (R566): core 0's, or, for core 0, those of the lowest core that is up.
With none up nothing can be copied, and the check fails. [DEDUCED, log entry 36] -/
def imageSource (w : Work) (k : Nat) : List Byte :=
  if k ≠ 0 then w.jnr.image
  else match (List.range 32).find? fun j => (coresUp w).getLsbD j with
    | some j => tblGet [] w.jnr.copies j
    | none => []

/-- The image region of core `k` holds a copy (R439). -/
def copyImage (k : Nat) (image : List Byte) (j : Joiner) : Joiner :=
  if k = 0 then { j with image := image } else { j with copies := tblSet [] j.copies k image }

/-- A core's restart is done (R566, R567): with a good copy of the image it replays its suspects, else the cluster is
reset. `intact` says that the copy came over without error. -/
def coreRestarted (k : Nat) (intact : Bool) (w : Work) : Work :=
  let image := imageSource w k
  if !(w.jcore k).restarting then w
  else if !intact || imageCheck image != cLoaded then resetJoiner w
  else
    { w with jnr := copyImage k image w.jnr }.updCore k fun x => { x with
      up := jnrRuns w, restarting := false, replay := true, kept := [], hart := firmwareHart image }

end Sys2Proof.Machine
end

