-- ==== Sys2Proof/Machine/Boxes.lean ====
section
/-! DEFINITION. The mailbox unit and the boot ROM's part of it: identities and bindings (R447 to R450, R453), rings, clears,
masks and words (R455 to R457), the change of mode (R451), locks (R459 to R461), and the retained image (R439, R441,
R443). -/

namespace Sys2Proof.Machine

/-! ### Parts of the block -/

/-- Change the shared state of the block. -/
def Block.updWork (b : Block) (f : Work → Work) : Block := { b with work := f b.work }

/-- Change the mailbox unit. -/
def Block.updMbx (b : Block) (f : Mailboxes → Mailboxes) : Block := { b with mbx := f b.mbx }

/-- Mailbox channel `c`. -/
def Block.chan (b : Block) (c : Nat) : Channel := tblGet {} b.mbx.chans c

/-- Change mailbox channel `c`. -/
def Block.updChan (b : Block) (c : Nat) (f : Channel → Channel) : Block :=
  b.updMbx fun m => { m with chans := tblUpd {} m.chans c f }

/-- Change the joiner cluster. -/
def Block.updJnr (b : Block) (f : Joiner → Joiner) : Block := b.updWork fun w => { w with jnr := f w.jnr }

/-! ### Identities (R447 to R453) -/

/-- The bound identity of a channel in the current mode (R450). -/
def boundMid (b : Block) (c : Nat) : Nat :=
  if b.mbx.maint then b.dct.mbxBind c / 256 else b.dct.mbxBind c % 256

/-- Whether an identity may use the cluster end of a channel (R453). -/
def clusterAccepts (b : Block) (mid : Nat) (c : Nat) : Bool :=
  mid == 3 || (0x10 ≤ mid && mid ≤ 0x2F) ||
    (0x80 ≤ mid && mid ≤ 0xBF && boundMid b c == mid - 0x40 && !b.mbx.maint)

/-- Whether an identity may use an end of a channel (R452, R453). -/
def endAccepts (b : Block) (mid : Nat) (c : Nat) (clusterEnd : Bool) : Bool :=
  if clusterEnd then clusterAccepts b mid c else boundMid b c == mid

/-- Count a refused access (R452, R460). -/
def countRefused (b : Block) : Block := b.updMbx fun m => { m with refused := m.refused + 1 }

/-- An access to an end of a channel (R452, R453): a refused one at a peer end is counted. -/
def onEnd (mid : BitVec 8) (c : Nat) (clusterEnd : Bool) (f : Block → Block) (b : Block) : Block :=
  if 64 ≤ c then b
  else if endAccepts b mid.toNat c clusterEnd then f b
  else if clusterEnd then b
  else countRefused b

/-! ### Interrupts and timeouts (R456, R457) -/

/-- The interrupt of the peer end of a channel. -/
def peerInterrupt (c : Nat) (b : Block) : Block :=
  let m := boundMid b c
  if m = 0 then b.updWork fun w => w.raise (vecAdmin 2)
  else if m = 1 then b.updWork fun w => w.emit .ibi
  else if 0x40 ≤ m ∧ m ≤ 0x7F then b.updWork fun w => w.raise (vecMailbox (m - 0x40))
  else b

/-- The cluster mailbox interrupt (R456): on core 0 in the boot ROM, else on the core to which the firmware routes the channel,
which is its own affair. [DESIGN CHOICE, log entry 36] -/
def clusterInterrupt (c : Nat) (w : Work) : Work :=
  if w.jnr.state == .starting || jnrRuns w then
    let d := w.draw
    d.2.emit (.clusterIrq c (Config.freeChoice d.1 % 32))
  else w.emit (.clusterIrq c 0)

/-- The interrupt of an end of a channel. -/
def endInterrupt (c : Nat) (clusterEnd : Bool) (b : Block) : Block :=
  if clusterEnd then b.updWork (clusterInterrupt c) else peerInterrupt c b

/-- Whether the end that would receive a ring cannot answer (R457): `byCluster` says which end rings. -/
def cannotAnswer (b : Block) (c : Nat) (byCluster : Bool) : Bool :=
  if byCluster then
    let m := boundMid b c
    m == 0xFF || (0x40 ≤ m && m ≤ 0x7F && (b.work.slice (m - 0x40)).state != .active)
  else
    match b.work.jnr.state with
    | .running => false
    | .recoveryWait => c != 0
    | _ => true

/-- The TIMEOUT bits of an end. -/
def Channel.timeout (x : Channel) (clusterEnd : Bool) : BitVec 16 := if clusterEnd then x.timeoutCluster else x.timeoutPeer

/-- TIMEOUT bits of the ringing end become set (R456, R457). One that stands already is set once more for a clear in this control
cycle (R17). -/
def setTimeouts (c : Nat) (byCluster : Bool) (bits : BitVec 16) (b : Block) : Block :=
  let new := bits &&& ~~~((b.chan c).timeout byCluster)
  let b := b.updWork fun w => w.sets (.timeout c byCluster) (bits.setWidth 64)
  if new = 0 then b
  else
    endInterrupt c byCluster (b.updChan c fun x =>
      if byCluster then { x with timeoutCluster := x.timeoutCluster ||| new } else { x with timeoutPeer := x.timeoutPeer ||| new })

/-! ### Changes of mode (R451) -/

/-- A change of mode: every channel returns to its reset value, with every mask bit set (R451).
[DESIGN CHOICE, log entry 36] -/
def setMode (maint : Bool) (b : Block) : Block :=
  if b.mbx.maint = maint then b else b.updMbx fun m => { m with maint := maint, chans := [] }

/-- Whether an identity is the boot ROM's or the firmware's. -/
def clusterMid (mid : Nat) : Bool := mid == 3 || (0x10 ≤ mid && mid ≤ 0x2F)

/-- A cluster reset reaches the mailbox unit (R451, R461). -/
def boxReset (b : Block) : Block :=
  if b.work.jnr.boxDue then
    ((setMode true b).updMbx fun m => { m with locks := m.locks.filter fun p =>
      match p.2 with
      | some o => !clusterMid o.toNat
      | none => false }).updJnr fun j => { j with boxDue := false }
  else b

/-! ### Rings, clears, masks and words (R454 to R456) -/

/-- An end's 16 bits as they stand in the doorbell register: TO_CLUSTER below, TO_PEER above (R454). -/
def halfOf (toPeer : Bool) (bits : BitVec 16) : BitVec 32 := if toPeer then bits.setWidth 32 <<< 16 else bits.setWidth 32

/-- Bits of a channel that a ring sets (R455): those not set already. -/
def newBits (b : Block) (c : Nat) (byCluster : Bool) (bits : BitVec 16) : BitVec 32 := halfOf byCluster bits &&& ~~~(b.chan c).db

/-- The bits of a ring become set (R456, R457). [DESIGN CHOICE, log entry 36] -/
def setBits (mid : BitVec 8) (c : Nat) (byCluster : Bool) (bits : BitVec 16) (b : Block) : Block :=
  let x := b.chan c
  let new := newBits b c byCluster bits
  let b := b.updChan c fun x =>
    if byCluster then { x with db := x.db ||| new, ringToPeer := mid } else { x with db := x.db ||| new, ringToCluster := mid }
  let b := if new &&& ~~~x.mask = 0 then b else endInterrupt c (!byCluster) b
  if cannotAnswer b c byCluster then
    setTimeouts c byCluster ((if byCluster then new >>> 16 else new).setWidth 16) b
  else b

/-- Whether a ring resets the cluster: bit 0 on channel 0, in NORMAL mode (R445). -/
def resetsCluster (b : Block) (c : Nat) (byCluster : Bool) (bits : BitVec 16) : Bool :=
  !b.mbx.maint && c == 0 && !byCluster && (newBits b c byCluster bits).getLsbD 0

/-- A ring (R445, R455 to R457): bits that are set already change nothing, but a clear of one in the same control cycle leaves it
set. -/
def ringBits (mid : BitVec 8) (c : Nat) (byCluster : Bool) (bits : BitVec 16) (b : Block) : Block :=
  let b := b.updWork fun w => w.sets (.doorbell c) ((halfOf byCluster bits).setWidth 64)
  if newBits b c byCluster bits = 0 then b
  else
    let x := setBits mid c byCluster bits b
    if resetsCluster b c byCluster bits then boxReset (x.updWork (resetByHost x .recoveryRing)) else x

/-- The boot ROM or the firmware takes a received bit, some time after its ring. -/
def takeBits (c : Nat) (bits : BitVec 16) (b : Block) : Block :=
  b.updChan c fun x => { x with db := x.db &&& ~~~(halfOf false bits) }

/-- A clear of received bits (R454, R455): one that was rung in the same control cycle stays, and raises its interrupt again. -/
def clearBits (c : Nat) (clusterEnd : Bool) (bits : BitVec 16) (b : Block) : Block :=
  let x := b.chan c
  let ones := (halfOf (!clusterEnd) bits).setWidth 64
  let cur := x.db.setWidth 64
  let v := b.updChan c fun x => { x with db := (b.work.cleared (.doorbell c) cur ones).setWidth 32 }
  if b.work.again (.doorbell c) (cur &&& ~~~(x.mask.setWidth 64)) ones then endInterrupt c clusterEnd v else v

/-- A write of an end's mask (R454, R456): a mask bit cleared while its bit is set raises the interrupt. -/
def writeMask (c : Nat) (clusterEnd : Bool) (bits : BitVec 16) (b : Block) : Block :=
  let x := b.chan c
  let own := halfOf (!clusterEnd) 0xFFFF
  let mask := (x.mask &&& ~~~own) ||| halfOf (!clusterEnd) bits
  let b := b.updChan c fun x => { x with mask := mask }
  if x.db &&& own &&& x.mask &&& ~~~mask = 0 then b else endInterrupt c clusterEnd b

/-- A write of an end's outgoing word (R454). -/
def writeWord (mid : BitVec 8) (c : Nat) (clusterEnd : Bool) (word : BitVec 64) (b : Block) : Block :=
  b.updChan c fun x =>
    if clusterEnd then { x with clusterWord := word, msgToPeer := mid } else { x with peerWord := word, msgToCluster := mid }

/-- Clear TIMEOUT bits of an end (R454). -/
def clearTimeouts (c : Nat) (clusterEnd : Bool) (bits : BitVec 16) (b : Block) : Block :=
  let cur := ((b.chan c).timeout clusterEnd).setWidth 64
  let new : BitVec 16 := (b.work.cleared (.timeout c clusterEnd) cur (bits.setWidth 64)).setWidth 16
  let v := b.updChan c fun x => if clusterEnd then { x with timeoutCluster := new } else { x with timeoutPeer := new }
  if b.work.again (.timeout c clusterEnd) cur (bits.setWidth 64) then endInterrupt c clusterEnd v else v

/-! ### Locks (R459 to R461) -/

/-- Lock `i`. -/
def Block.lock (b : Block) (i : Nat) : Option (BitVec 8) := tblGet none b.mbx.locks i

/-- Set lock `i`. -/
def Block.setLock (b : Block) (i : Nat) (o : Option (BitVec 8)) : Block :=
  b.updMbx fun m => { m with locks := tblSet none m.locks i o }

/-- What a read of lock `i` returns (R459, R460). -/
def lockWord (b : Block) (i : Nat) : BitVec 64 :=
  match b.lock i with
  | some o => BitVec.ofNat 64 (256 + o.toNat)
  | none => 0

/-- Whether an identity has access to the locks (R459). -/
def lockAccess (mid : Nat) : Bool := mid ≤ 3 || clusterMid mid

/-- A read of a lock by an identity that has access (R459, R460): a free lock becomes the reader's.
[DEDUCED, log entry 19] -/
def readLock (mid : BitVec 8) (i : Nat) (b : Block) : Block :=
  if (b.lock i).isNone && i < 64 && lockAccess mid.toNat then b.setLock i (some mid) else b

/-- A write of a lock (R460). [DEDUCED, log entry 19] -/
def writeLock (mid : BitVec 8) (i : Nat) (v : BitVec 64) (b : Block) : Block :=
  if b.lock i = some mid ∧ v = 0 then b.setLock i none else countRefused b

/-! ### The boot ROM (R439, R441, R443) -/

/-- The boot ROM writes its outgoing message on channel 0 (R443). -/
def bootWord (code : Nat) (b : Block) : Block :=
  let b := b.updJnr fun j => { j with lastCode := BitVec.ofNat 16 code }
  let j := b.work.jnr
  writeWord 3 0 true (BitVec.ofNat 64 (code + 2 ^ 16 * j.attempts.toNat + 2 ^ 32 * j.fwVersion.toNat)) b

/-- The boot ROM writes its message and rings bit 16 (R441, R443). -/
def bootRing (code : Nat) (b : Block) : Block := ringBits 3 0 true 1 (bootWord code b)

/-- The boot ROM enters RECOVERY_WAIT and rings a code (R441). -/
def bootWaits (code : Nat) (b : Block) : Block := bootRing code (b.updJnr fun j => { j with state := .recoveryWait })

/-- The boot ROM releases the cores: each holds the image and enters it in machine mode (R439, R441). -/
def startCluster (j : Joiner) : Joiner :=
  { j with
    state := .starting, attempts := 0, fwVersion := BitVec.ofNat 32 (fieldAt j.image 16 4),
    copies := (List.range 31).map fun k => (k + 1, j.image),
    cores := (List.range 32).foldl (fun t k => tblUpd {} t k fun x => { x with hart := firmwareHart j.image }) j.cores }

/-- The image region of core 0 has been checked (R441, R442): a good image starts the cluster; a bad one is lost. -/
def bootCheck (b : Block) : Block :=
  let code := imageCheck b.work.jnr.image
  if code = cLoaded then bootRing cLoaded (b.updJnr startCluster)
  else bootWaits code (b.updJnr fun j => { j with image := [], fwVersion := 0 })

end Sys2Proof.Machine
end

