-- ==== Sys2Proof/Machine/Lanes.lean ====
section
/-! DEFINITION. What a Tenon port puts on its two lanes: the blocks of the link (R464, R466, R471, R476), the 64b/66b code
and the scrambler of each lane (R96, R462, R463). -/

namespace Sys2Proof.Machine

/-! ### The scrambler 1 + x^39 + x^58 (R96, R463) -/

/-- One bit scrambled: `st` holds the last 58 bits sent, the latest in bit 0. -/
def scrambleBit (st : BitVec 58) (d : Bool) : Bool × BitVec 58 :=
  let o := d ^^ st.getLsbD 38 ^^ st.getLsbD 57
  (o, st <<< 1 ||| BitVec.ofNat 58 o.toNat)

/-- One bit descrambled: `st` holds the last 58 bits received. -/
def descrambleBit (st : BitVec 58) (o : Bool) : Bool × BitVec 58 :=
  (o ^^ st.getLsbD 38 ^^ st.getLsbD 57, st <<< 1 ||| BitVec.ofNat 58 o.toNat)

/-- Bits in the order in which they are sent, through `f`. -/
def mapBits (f : BitVec 58 → Bool → Bool × BitVec 58) : BitVec 58 → List Bool → List Bool × BitVec 58
  | st, [] => ([], st)
  | st, d :: ds =>
    let r := f st d
    let rs := mapBits f r.2 ds
    (r.1 :: rs.1, rs.2)

/-- The bits of a payload in the order in which they are sent (R462). -/
def payloadBits (p : BitVec 64) : List Bool := (List.range 64).map fun i => p.getLsbD i

/-- The payload of bits in the order in which they are sent. -/
def bitsPayload (bs : List Bool) : BitVec 64 := BitVec.ofNat 64 (bs.foldr (fun b n => 2 * n + b.toNat) 0)

/-- A payload scrambled, and the scrambler after it (R463). -/
def scramble (st : BitVec 58) (p : BitVec 64) : BitVec 64 × BitVec 58 :=
  let r := mapBits scrambleBit st (payloadBits p)
  (bitsPayload r.1, r.2)

/-- A payload descrambled, and the descrambler after it (R463). -/
def descramble (st : BitVec 58) (p : BitVec 64) : BitVec 64 × BitVec 58 :=
  let r := mapBits descrambleBit st (payloadBits p)
  (bitsPayload r.1, r.2)

/-! ### Blocks (R464, R466, R471, R476) -/

/-- A block before it is scrambled: whether it is a control block, and its 8 payload bytes. -/
structure LaneBlock where
  control : Bool
  payload : BitVec 64
  deriving DecidableEq, Repr

/-- The sync header in its place in a 66-bit block (R96): a data block's bits are 0 and 1 in the order sent, a control block's 1
and 0. [PRESUMED, log entry 63] -/
def LaneBlock.sync (b : LaneBlock) : BitVec 2 := if b.control then 1 else 2

/-- A block of 66 bits (R462), bit 0 sent first, and the scrambler after it. -/
def LaneBlock.code (st : BitVec 58) (b : LaneBlock) : BitVec 66 × BitVec 58 :=
  let r := scramble st b.payload
  (r.1 ++ b.sync, r.2)

/-- The block in 66 received bits, and the descrambler after it; none where the sync header is neither 01 nor 10 (R464). -/
def LaneBlock.decode (st : BitVec 58) (x : BitVec 66) : Option LaneBlock × BitVec 58 :=
  let r := descramble st (x.extractLsb' 2 64)
  let s := x.extractLsb' 0 2
  (if s = 1 then some { control := true, payload := r.1 } else if s = 2 then some { control := false, payload := r.1 } else none, r.2)

/-- A control block of a type, with bytes 1 to 7. -/
def controlBlock (type : Nat) (bytes : List Byte) : LaneBlock :=
  { control := true, payload := BitVec.ofNat 64 (fieldAt (leBytes 1 type ++ bytes) 0 8) }

/-- The IDLE block. -/
def idleBlock : LaneBlock := controlBlock 0x1E []

/-- Bytes 1 to 7 of the SOF block (R476). -/
def sofBytes (seq : BitVec 8) (flits : Nat) : List Byte := leBytes 1 seq.toNat ++ leBytes 1 (flits - 1) ++ leBytes 5 0

/-- The blocks of a frame (R476). -/
def frameBlocks (seq : BitVec 8) (flits : List Byte) (crc : BitVec 32) : List LaneBlock :=
  controlBlock 0x2D (sofBytes seq (flits.length / 64)) ::
    ((List.range (flits.length / 8)).map fun i => { control := false, payload := BitVec.ofNat 64 (fieldAt flits (8 * i) 8) }) ++
    [controlBlock 0x87 (leBytes 4 crc.toNat)]

/-- The ACK block (R476). -/
def ackBlk (seq : BitVec 8) (nak sleep valid : Bool) (credits : Nat) : LaneBlock :=
  controlBlock 0x4B (leBytes 1 seq.toNat ++ leBytes 1 (nak.toNat + 2 * sleep.toNat + 4 * valid.toNat) ++ leBytes 1 credits)

/-- The PING block (R471). -/
def pingBlk (tag : BitVec 8) (echo : Bool) (turn : BitVec 16) : LaneBlock :=
  controlBlock 0x78 (leBytes 1 tag.toNat ++ leBytes 1 echo.toNat ++ leBytes 2 turn.toNat)

/-- The TRAIN block (R466). -/
def trainBlk (k : TrainBlk) : LaneBlock :=
  controlBlock 0x66 (leBytes 1 (k.chip.toNat + 64 * k.chipValid.toNat) ++
    leBytes 1 (k.port.toNat + 8 * (k.lane % 2) + 16 * k.seen.toNat + 32 * k.done.toNat) ++ leBytes 2 k.counter.toNat ++
    leBytes 1 k.rev.toNat)

/-- The port and the blocks of an output that leaves on a Tenon port; the wake pattern bypasses the code (R463). -/
def Output.blocks : Output → Option (Nat × List LaneBlock)
  | .frame p seq flits crc => some (p, frameBlocks seq flits crc)
  | .ack p seq nak sleep valid credits => some (p, [ackBlk seq nak sleep valid credits])
  | .ping p tag echo turn => some (p, [pingBlk tag echo turn])
  | _ => none

/-! ### The lanes of a port (R462) -/

/-- The coder of a lane. -/
def Coder.lane (c : Coder) (lane : Nat) : LaneCoder := if lane = 0 then c.lane0 else c.lane1

/-- Change the coder of a lane. -/
def Coder.updLane (c : Coder) (lane : Nat) (f : LaneCoder → LaneCoder) : Coder :=
  if lane = 0 then { c with lane0 := f c.lane0 } else { c with lane1 := f c.lane1 }

/-- Full words leave the bits that wait: at most `n` of them. -/
def LaneCoder.flush : Nat → LaneCoder → LaneCoder
  | 0, x => x
  | n + 1, x =>
    if 32 ≤ x.fill then
      LaneCoder.flush n { x with words := BitVec.ofNat 32 x.acc :: x.words, acc := x.acc / 2 ^ 32, fill := x.fill - 32 }
    else x

/-- The 66 bits of a block fill TX_DATA from bit 0 onward, with no regard to word boundaries (R462).
[PRESUMED, log entry 63] -/
def LaneCoder.push (x : LaneCoder) (b : BitVec 66) : LaneCoder :=
  LaneCoder.flush 3 { x with acc := x.acc + b.toNat * 2 ^ x.fill, fill := x.fill + 66 }

/-- A port sends a block on the lane whose turn it is (R462). -/
def Coder.send (c : Coder) (b : LaneBlock) : Coder :=
  let r := b.code (c.lane c.next).tx
  { c.updLane c.next fun x => { x.push r.1 with tx := r.2 } with next := 1 - c.next, sent := (c.next, r.1) :: c.sent }

/-- The words of the wake pattern (R509), the latest first. -/
def wakeWords : List (BitVec 32) := (List.replicate 32 (List.replicate 4 0 ++ List.replicate 4 0xFFFFFFFF)).flatten

/-- The wake pattern goes out on both lanes, past coding and scrambling (R463, R509). -/
def Coder.wake (c : Coder) : Coder :=
  let put (x : LaneCoder) : LaneCoder := { x with acc := 0, fill := 0, words := wakeWords ++ x.words }
  { c with lane0 := put c.lane0, lane1 := put c.lane1 }

/-- A port receives a block on a lane: its descrambler has seen the bits that the sender's scrambler made of it. -/
def Coder.receive (c : Coder) (lane : Nat) (b : LaneBlock) : Coder :=
  { c.updLane lane fun x => { x with rx := (scramble x.rx b.payload).2 } with rxNext := 1 - lane }

/-- The descrambler after 64 payload bits as they are received. -/
def rxAfter (p : BitVec 64) : BitVec 58 := bitsPayload ((payloadBits p).reverse.take 58) |>.setWidth 58

/-- A lane receives the 66 bits of a block. -/
def Coder.receiveRaw (c : Coder) (lane : Nat) (x : BitVec 66) : Coder :=
  { c.updLane lane fun y => { y with rx := rxAfter (x.extractLsb' 2 64) } with rxNext := 1 - lane }

/-- Whether the sync header of 66 bits is valid (R465). -/
def syncValid (x : BitVec 66) : Bool := x.extractLsb' 0 2 == 1 || x.extractLsb' 0 2 == 2

/-- The block types of R464. -/
def knownBlock (t : Nat) : Bool := [0x1E, 0x2D, 0x4B, 0x66, 0x78, 0x87].contains t

/-- Whether a receiver discards a block (R464): its sync header is neither 01 nor 10, or it is a control block of unknown type. -/
def badBlock (rx : BitVec 58) (x : BitVec 66) : Bool :=
  match (LaneBlock.decode rx x).1 with
  | some b => b.control && !knownBlock (b.payload.toNat % 256)
  | none => true

/-- Change the coder of Tenon port `p`. -/
def Block.updCoder (b : Block) (p : Nat) (f : Coder → Coder) : Block :=
  { b with lnk := { b.lnk with coders := tblUpd {} b.lnk.coders p f } }

/-- Put something on an output port of the block; what leaves on a Tenon port goes out block by block. -/
def Block.emit (b : Block) (o : Output) : Block :=
  let b := b.updWork fun w => w.emit o
  match o with
  | .wakePattern p => b.updCoder p Coder.wake
  | _ => match o.blocks with
    | some (p, bs) => b.updCoder p fun c => bs.foldl Coder.send c
    | none => b

/-! ### Block lock (R465) -/

/-- A lane receives a sync header: 64 valid ones in a row give it block lock, 16 invalid ones in any 64 take it. -/
def Lane.header (l : Lane) (valid : Bool) : Lane :=
  let l := { l with good := if valid then min 64 (l.good + 1) else 0, bad := l.bad <<< 1 ||| BitVec.ofNat 64 (!valid).toNat }
  if l.blockLock then
    if !valid && decide (16 ≤ ((List.range 64).filter fun i => l.bad.getLsbD i).length) then
      { l with blockLock := false, good := 0, bad := 0 }
    else l
  else if l.rxLock && decide (64 ≤ l.good) then { l with blockLock := true, bad := 0 }
  else l

/-- A lane of a port. -/
def LinkPort.lane (x : LinkPort) (lane : Nat) : Lane := if lane = 0 then x.lane0 else x.lane1

/-- Change a lane. -/
def LinkPort.updLane (x : LinkPort) (lane : Nat) (f : Lane → Lane) : LinkPort :=
  if lane = 0 then { x with lane0 := f x.lane0 } else { x with lane1 := f x.lane1 }

/-- Tenon port `p`. -/
def Block.lport (b : Block) (p : Nat) : LinkPort := tblGet {} b.lnk.ports p

/-- Change Tenon port `p`. -/
def Block.updLport (b : Block) (p : Nat) (f : LinkPort → LinkPort) : Block :=
  { b with lnk := { b.lnk with ports := tblUpd {} b.lnk.ports p f } }

/-- One block has been received on a lane of port `p`. -/
def Block.receivedOn (b : Block) (p lane : Nat) (x : LaneBlock) : Block :=
  (b.updCoder p fun c => c.receive lane x).updLport p fun y => y.updLane lane fun l => l.header true

/-- Blocks have been received on port `p`, from the lane whose turn it is on. -/
def Block.received (b : Block) (p : Nat) (bs : List LaneBlock) : Block :=
  if p < 6 then bs.foldl (fun b x => b.receivedOn p (tblGet {} b.lnk.coders p).rxNext x) b else b

/-- A TRAIN block has been received on the lane that it names. -/
def Block.receivedTrain (b : Block) (p : Nat) (k : TrainBlk) : Block :=
  if p < 6 then b.receivedOn p (k.lane % 2) (trainBlk k) else b

/-- Whether port `p` delivers `n` blocks that come next (R465): the lanes on which they come hold block lock. -/
def Block.delivers (b : Block) (p n : Nat) : Bool :=
  let x := b.lport p
  if n ≤ 1 then (x.lane (tblGet {} b.lnk.coders p).rxNext).blockLock else x.lane0.blockLock && x.lane1.blockLock

end Sys2Proof.Machine
end

