-- ==== Sys2Proof/Machine/Pump.lean ====
section
/-! DEFINITION. Sending over the Tenon ports: the layout of messages and frames (R476, R477, R489), and the frames that a
port sends as messages wait for it (R478, R494, R500). -/

namespace Sys2Proof.Machine

/-- Now, in units of 0.25 ns. [DESIGN CHOICE, log entry 50] -/
def Block.now (b : Block) : Nat := b.clk.cycle * 4000000 / b.dct.cclkKhz

/-! ### Messages and frames -/

/-- The 32 bytes of a message (R489). -/
def Msg.bytes (m : Msg) : List Byte :=
  leBytes 1 m.typ.toNat ++ leBytes 1 (if m.bcast then 1 else 0) ++ leBytes 1 m.dest.toNat ++ leBytes 1 m.src.toNat ++
    leBytes 1 m.hops.toNat ++ leBytes 1 m.slice.toNat ++ leBytes 2 m.bseq.toNat ++ bytesAt m.payload 0 24

/-- The message in 32 bytes. -/
def msgOf (b : List Byte) : Msg :=
  { typ := BitVec.ofNat 8 (fieldAt b 0 1), bcast := (fieldAt b 1 1).testBit 0, dest := BitVec.ofNat 6 (fieldAt b 2 1),
    src := BitVec.ofNat 6 (fieldAt b 3 1), hops := BitVec.ofNat 8 (fieldAt b 4 1), slice := BitVec.ofNat 6 (fieldAt b 5 1),
    bseq := BitVec.ofNat 16 (fieldAt b 6 2), payload := bytesAt b 8 24 }

/-- The CRC of a frame (R476). -/
def frameCrc (seq : BitVec 8) (flits : List Byte) : BitVec 32 := crc32 (sofBytes seq (flits.length / 64) ++ flits)

/-- Send a frame of some bytes on port `p` (R476, R478). -/
def sendFrame (p : Nat) (count : Nat) (flits : List Byte) (b : Block) : Block :=
  let s := (b.lport p).nextSeq
  (b.updLport p fun x => { x with
    nextSeq := s + 1, unacked := x.unacked ++ [{ seq := s, flits := flits, count := count, resent := false }] }).emit
    (.frame p s flits (frameCrc s flits))

/-- The flits of up to 8 messages; a slot that carries nothing holds NULL (R477). -/
def flitsOf (ms : List Msg) : List Byte := bytesAt (ms.flatMap Msg.bytes) 0 (64 * max 1 (ceilDiv ms.length 2))

/-- Whether a port may send one more frame (R478). -/
def LinkPort.window (x : LinkPort) : Bool := decide (x.unacked.length < min 64 x.partnerCredits)

/-- The class of a message in the order of sending (R494). -/
def msgClass (typ : BitVec 8) : Nat :=
  if typ = 0x01 then 0
  else if typ = 0x02 then 1
  else if typ = 0x20 ∨ typ = 0x21 then 2
  else if typ = 0x10 ∨ typ = 0x11 ∨ typ = 0x12 ∨ typ = 0x13 then 3
  else 4

/-- Whether a message takes a place in the reserve of its port (R500): this chip created it, and it is no FENCE. -/
def Queued.reserved (x : Queued) : Bool := !x.transit && x.msg.typ != 0x10

/-- The messages of a port's queues that hold what R500 asks of them: of those of the reserve the first `n`, and no FENCE that
waits for a credit. -/
def entered : Nat → List Queued → List Queued
  | _, [] => []
  | n, x :: xs =>
    if x.owed || (x.reserved && n == 0) then entered n xs
    else x :: entered (if x.reserved then n - 1 else n) xs

/-- The messages that are for port `p`, in the order of R494. -/
def portQueue (w : Work) (p : Nat) : List Queued :=
  let q := w.msgs.out.filter fun x => x.port == p
  (List.range 5).flatMap fun k => q.filter fun x => msgClass x.msg.typ == k

/-- The messages that port `p` may send, in the order in which it sends them (R494, R500). -/
def readyQueue (w : Work) (p : Nat) : List Queued :=
  let q := entered 64 (w.msgs.out.filter fun x => x.port == p)
  (List.range 5).flatMap fun k => q.filter fun x => msgClass x.msg.typ == k

/-- The credits that messages of this chip give back (R500). -/
def localFences (q : List Queued) : Nat := (q.filter fun x => !x.transit && x.msg.typ == 0x10 && !x.owed).length

/-- Replace the messages that wait for port `p`; those that left give their credits back (R500). -/
def setQueue (p : Nat) (gone rest : List Queued) (w : Work) : Work :=
  { w with msgs := { w.msgs with
    out := (w.msgs.out.filter fun x => x.port != p) ++ rest, credits := tblUpd 0 w.msgs.credits p (· - localFences gone) } }

/-- The first `n` FENCEs of port `p` that wait for a credit have one (R500). [DESIGN CHOICE, log entry 20] -/
def payOwed (p : Nat) : Nat → List Queued → List Queued
  | _, [] => []
  | n, x :: xs => if x.port == p && x.owed && n != 0 then { x with owed := false } :: payOwed p (n - 1) xs else x :: payOwed p n xs

/-- Credits of port `p` that are free go to the FENCEs that wait for them (R500). -/
def takeCredits (e : Block) (p : Nat) (w : Work) : Work :=
  let owed := (w.msgs.out.filter fun x => x.port == p && x.owed).length
  let n := min owed (e.dct.localCredits - tblGet 0 w.msgs.credits p)
  if n = 0 then w
  else { w with msgs := { w.msgs with out := payOwed p n w.msgs.out, credits := tblUpd 0 w.msgs.credits p (· + n) } }

/-- A message as its frame's SOF enters TX_DATA at `now`: a BEAT says how far its edge is (R502, R503).
[DESIGN CHOICE, log entry 47] -/
def Queued.sentAt (now : Nat) (x : Queued) : Msg :=
  match x.edgeAt with
  | some t => { x.msg with payload := x.msg.payload.take 8 ++ leBytes 4 (t - now) ++ x.msg.payload.drop 12 }
  | none => x.msg

/-- The frames that port `p` sends now (R478). -/
def pumpPort (p : Nat) : Nat → Block → Block
  | 0, b => b
  | fuel + 1, b =>
    let b := b.updWork (takeCredits b p)
    let q := (readyQueue b.work p).take 8
    if (b.lport p).state == .up && (b.lport p).window && !q.isEmpty then
      let rest := q.foldl List.erase (b.work.msgs.out.filter fun x => x.port == p)
      let b := b.updWork (setQueue p q rest)
      pumpPort p fuel (sendFrame p q.length (flitsOf (q.map (Queued.sentAt b.now))) b)
    else b

/-- Every port sends what waits for it. -/
def pump (b : Block) : Block := (List.range 6).foldl (fun b p => pumpPort p b.work.msgs.out.length b) b

end Sys2Proof.Machine
end

