-- ==== Sys2Proof/Machine/Reset.lean ====
section
/-! DEFINITION. The full block reset and what a start keeps from before it (R644 to R647, R655, R656), and the notice that
goes ahead of it (R499). -/

namespace Sys2Proof.Machine

/-- The engine ports after a full block reset: those present wait for their hard reset, but for the ones that self-test
has retired (R81, R649, R651). -/
def resetPorts (st : Start) : Tbl Port :=
  ((List.range 16).filter fun p => st.present.getLsbD p).map fun p =>
    (p, { present := true, bf16 := st.bf16.getLsbD p, state := if st.bistPorts.getLsbD p then .retired else .hardReset })

/-- The shared state after a full block reset: input pins stand, tags are not used again, a warm start keeps the
retained image (R646), and the domain of the Tenon ports, whose lane layer lives on (R647), stays switched as it is. -/
def resetWork (warm : Bool) (st : Start) (w : Work) : Work :=
  { fab := { bme := w.fab.bme, msixEn := w.fab.msixEn, msixFmask := w.fab.msixFmask, clkOk := w.fab.clkOk,
             wakeReq := w.fab.wakeReq, flrBusy := w.fab.flrBusy, nextTag := w.fab.nextTag, out := w.fab.out }
    ports := resetPorts st
    sw := tblSet {} [] (domainKey .tnl) (w.switch .tnl)
    jnr := { image := if warm then w.jnr.image else [], cause := if warm then .warmStart else .coldStart }
    nextId := w.nextId
    fresh := w.fresh }

/-- The lane layer of a port over a full block reset (R647); a forced cold start discards it (R656). -/
def resetLport (warm : Bool) (x : LinkPort) : LinkPort :=
  if warm then { lane0 := x.lane0, lane1 := x.lane1, deskew := x.deskew, hop := x.hop, txIdle := x.txIdle, pd := x.pd, rstN := x.rstN }
  else { lane0 := { rxLock := x.lane0.rxLock }, lane1 := { rxLock := x.lane1.rxLock } }

/-- The power controller over a full block reset: the retention SRAM keeps what it holds. -/
def resetPower (x : Power) : Power :=
  { pwrfailLow := x.pwrfailLow, retention := x.retention, retDict := x.retDict, restView := x.restView }

/-- The start that follows a full block reset (R644 to R646): `warm` says which kind. -/
def resetStart (warm : Bool) (cause : Nat) (x : Start) : Start :=
  if warm then
    { x with step := 1, warm := true, cause := BitVec.ofNat 4 cause, done := false, halted := false, dictDefaulted := false,
             fromRetention := false, fwRetained := false, hostWait := 0, elapsedUs := 0, bar0 := false, loaded := false,
             fuseTries := 0 }
  else { lastFail := x.lastFail, cause := BitVec.ofNat 4 cause, inPor := false, present := x.present, bf16 := x.bf16 }

/-- A full block reset, followed by a start (R646). [DESIGN CHOICE, log entry 37] -/
def fullReset (warm : Bool) (cause : Nat) (b : Block) : Block :=
  let st := resetStart warm cause b.st
  { clk := {}
    work := resetWork warm st b.work
    mbx := {}
    lnk := { ports := (b.lnk.ports.map fun x => (x.1, resetLport warm x.2)).filter fun x => x.2 != {}, coders := if warm then b.lnk.coders else [] }
    frm := {}
    pwr := resetPower b.pwr
    st := st
    dct := {}
    mgmt := {} }

/-- A warm start has failed (R655, R656). -/
def countFail (st : Status) (b : Block) : Block :=
  { b with st := { b.st with lastFail := st, warmFails := if 3 ≤ b.st.warmFails.toNat then 3 else b.st.warmFails + 1 } }

/-- A full block reset whose start is warm where one can be (R645, R656). [DESIGN CHOICE, log entry 37] -/
def restart (cause : Nat) (b : Block) : Block :=
  if 3 ≤ b.st.warmFails.toNat then fullReset false 6 b
  else fullReset b.st.everDone cause b

/-- Whether a start can complete (R648, R651). [DESIGN CHOICE, log entry 37] -/
def mayComplete (b : Block) : Bool :=
  b.st.step == 7 && b.st.loaded && b.work.jnr.state == .running && !b.st.done && !b.st.halted && !b.st.inPor

/-- A source of R644 requests a reset: a start that completes in the same control cycle counts as completed (R661), and a warm start
that has not completed fails (R655). [DESIGN CHOICE, log entry 37] -/
def requestReset (cause : Nat) (b : Block) : Block :=
  restart cause (
    if mayComplete b then { b with st := { b.st with everDone := true, warmFails := 0 } }
    else if b.st.warm && !b.st.done then countFail St.resetDomain b
    else b)

/-- A warm start fails of itself: a full block reset follows (R655). -/
def startFails (st : Status) (b : Block) : Block := restart 7 (countFail st b)

/-- The notice that goes ahead of a reset, on every UP port (R499). The spec gives it no REASON, so that is free.
[DESIGN CHOICE, log entry 37] -/
def resetNotice (b : Block) : Block :=
  let d := b.work.draw
  pump { b with work := sendNotice b 1 (b.dct.chipNum % 64) ((Config.freeWord d.1).setWidth 16) d.2 }

end Sys2Proof.Machine
end

