-- ==== Sys2Proof/Machine/Joiner.lean ====
section
/-! DEFINITION. The joiner cluster: TIDY (R421), what a program does (R424 to R435), core faults (R565 to R567), and the
cluster's resets and starts (R438 to R445). -/

namespace Sys2Proof.Machine

/-- A command's effect on the block whose cluster reset, if it makes one, reaches the mailbox unit at once (R451). -/
def State.onBoxes (s : State) (f : Block → Block) : State := s.onAll fun b => boxReset (f b)

/-! ### TIDY -/

/-- TIDY (R294, R421, R445): it waits for dispatch at a beat edge. -/
def tidyOp (c : Cmd) (w : Work) : Work :=
  if jnrRuns w then w.updCmd c.id fun d => { d with phase := .running } else endCmd c.id St.stateReject w

/-- TIDY. -/
def execTidy (id : Nat) (s : State) : Host.Outcome State Fault Refusal :=
  .next (s.onWork fun _ w => runCmd .tidy id tidyOp w)

/-! ### A program's own steps (R428 to R431) -/

/-- Whether an access of a program that returns a value is unanswered: it stalls the core. -/
def loadOut (w : Work) (pid : Nat) : Bool :=
  w.fab.reqs.any fun r => r.why == .program pid && r.answer.isNone && !r.writes || r.why == .program pid && r.op == .amo

/-- Whether a program can execute its next instruction. -/
def progRuns (w : Work) (p : Prog) : Bool :=
  p.current && !p.loading && !p.suspect && !p.fencing && p.exitA0.isNone && !p.failing && !loadOut w p.pid && jnrRuns w &&
    (w.jcore p.core).up && !((w.jcore p.core).replay && !p.replaying)

/-- Run `f` on a program that can execute. -/
def onProg (pid : Nat) (f : Prog → Work → Work) (w : Work) : Work :=
  match w.prog pid with
  | some p => if progRuns w p then f p w else w
  | none => w

/-- The program of a core that runs after `p`: the next in their order, round (R429). -/
def nextProg (w : Work) (p : Prog) : Nat :=
  let ps := ((corePrograms w p.core).filter fun q => !q.suspect).map Prog.pid
  match ps.dropWhile fun x => x != p.pid with
  | _ :: x :: _ => x
  | _ => ps.headD p.pid

/-- The core goes on with its next program (R428, R429). -/
def switchProg (p : Prog) (w : Work) : Work :=
  let n := nextProg w p
  (w.updProg p.pid fun q => { q with current := false }).updProg n fun q => { q with current := true }

/-- EXIT (R430). -/
def exitProg (a0 : BitVec 64) (p : Prog) (w : Work) : Work :=
  finishExit p.pid (w.updProg p.pid fun q => { q with exitA0 := some a0 })

/-- ECALL_EXIT. [DESIGN CHOICE, log entry 35] -/
def execEcallExit (program : Nat) (a0 : BitVec 64) (s : State) : Host.Outcome State Fault Refusal :=
  .next (s.onWork fun _ w => onProg program (exitProg a0) w)

/-- ECALL_YIELD. -/
def execEcallYield (program : Nat) (s : State) : Host.Outcome State Fault Refusal :=
  .next (s.onWork fun _ w => onProg program switchProg w)

/-- TIDY_SLICE_EXPIRY (R429). -/
def execTidySliceExpiry (program : Nat) (s : State) : Host.Outcome State Fault Refusal :=
  .next (s.onWork fun _ w => onProg program switchProg w)

/-- FENCE W,O (R431). -/
def fenceProg (p : Prog) (w : Work) : Work := w.updProg p.pid fun q => { q with fencing := q.storesOut != 0 }

/-- PROGRAM_FENCE. -/
def execProgramFence (program : Nat) (s : State) : Host.Outcome State Fault Refusal :=
  .next (s.onWork fun _ w => onProg program fenceProg w)

/-! ### Traps (R435) -/

/-- A trap of a program: one for a failed answer has the status of that answer. -/
def trapOp (e : Block) (pid : Nat) (cause : TrapCause) (w : Work) : Work :=
  match w.prog pid with
  | none => w
  | some p =>
    let failed := p.lastLoad.map Prod.fst
    match cause with
    | .other => onProg pid (fun p w => trapProgram e p.pid St.tidyFault w) w
    | .dma => if failed = some St.dmaFault then trapProgram e pid St.dmaFault w else w
    | .pasid => if failed = some St.pasidRevoked then trapProgram e pid St.pasidRevoked w else w

/-- PROGRAM_TRAP. -/
def execProgramTrap (program : Nat) (cause : TrapCause) (s : State) : Host.Outcome State Fault Refusal :=
  .next (s.onWork fun e w => trapOp e program cause w)

/-! ### The user page (R432 to R434) -/

/-- The bytes that a load of a program gives without a request. -/
def loadBytes (p : Prog) (bs : List Byte) (w : Work) : Work := w.updProg p.pid fun q => { q with lastLoad := some (St.ok, bs) }

/-- The result of a load that the block answers itself. -/
def loadResult (p : Prog) (v : BitVec 64) (w : Work) : Work := loadBytes p (leBytes 8 v.toNat) w

/-- A sync operation through the user page (R302, R433). -/
def juSync (e : Block) (p : Prog) (op fence : Nat) (w : Work) : Work :=
  let s := p.slice
  if (w.slice s).fenceCount ≤ fence ∨ (op ≠ 1 ∧ op ≠ 2) then w.updProg p.pid fun q => { q with syncStatus := St.badCommand }
  else
    let o := if op = 1 then (w.fence s fence).signal p.syncValue else (w.fence s fence).add p.syncValue
    (putFence e s fence o w).updProg p.pid fun q => { q with
      syncStatus := if o.saturated then St.fenceSaturated else St.ok }

/-- JU_SYNC_SIGNAL. -/
def execJuSyncSignal (program : Nat) (fence : BitVec 16) (s : State) : Host.Outcome State Fault Refusal :=
  .next (s.onWork fun e w => onProg program (fun p w => juSync e p 1 fence.toNat w) w)

/-- JU_SYNC_ADD. -/
def execJuSyncAdd (program : Nat) (fence : BitVec 16) (s : State) : Host.Outcome State Fault Refusal :=
  .next (s.onWork fun e w => onProg program (fun p w => juSync e p 2 fence.toNat w) w)

/-- A doorbell of the program's slice (R434). -/
def juDoorbell (e : Block) (p : Prog) (word : BitVec 64) (w : Work) : Work :=
  let qk := qkey p.slice (bitsOf word.toNat 37 32)
  let v := word.setWidth 32
  if word.getLsbD 38 then cqDoorbellOp e qk v w else sqDoorbellOp qk v w

/-- JU_DOORBELL. -/
def execJuDoorbell (program : Nat) (word : BitVec 64) (s : State) : Host.Outcome State Fault Refusal :=
  .next (s.onWork fun e w => onProg program (fun p w => juDoorbell e p word w) w)

/-- A load from a register of the user page (R432). [DESIGN CHOICE, log entry 36] -/
def userLoad (e : Block) (p : Prog) (off : Nat) : BitVec 64 :=
  if off = 0 then p.syncValue
  else if off = 0x10 then p.syncStatus.setWidth 64
  else if off = 0x20 then e.clk.beat
  else if off = 0x28 then BitVec.ofNat 64 (timeNs e)
  else 0

/-- A store to a register of the user page (R432). -/
def userStore (e : Block) (p : Prog) (off : Nat) (v : BitVec 64) (w : Work) : Work :=
  if off = 0 then w.updProg p.pid fun q => { q with syncValue := v }
  else if off = 8 then juSync e p (bitsOf v.toNat 3 0) (bitsOf v.toNat 31 16) w
  else if off = 0x18 then juDoorbell e p v w
  else w

/-! ### Mailbox ends (R454) -/

/-- A read of a register of a channel's end (R454). -/
def endRead (b : Block) (c : Nat) (clusterEnd : Bool) (off : Nat) : BitVec 64 :=
  let x := b.chan c
  if off = 0 then x.db.setWidth 64
  else if off = 8 then x.mask.setWidth 64
  else if off = 0x10 then (if clusterEnd then x.clusterWord else x.peerWord)
  else if off = 0x18 then (if clusterEnd then x.peerWord else x.clusterWord)
  else if off = 0x20 then
    BitVec.ofNat 64 (2 ^ 56 * (if clusterEnd then x.ringToCluster else x.ringToPeer).toNat +
      2 ^ 48 * (if clusterEnd then x.msgToCluster else x.msgToPeer).toNat + 2 ^ 40 * boundMid b c +
      2 ^ 39 * (if b.mbx.maint then 1 else 0) + (x.timeout clusterEnd).toNat)
  else 0

/-- A write of a register of a channel's end by an identity that it accepts (R454 to R456). -/
def endWrite (mid : BitVec 8) (c : Nat) (clusterEnd : Bool) (off : Nat) (v : BitVec 64) (b : Block) : Block :=
  let lo : BitVec 16 := v.setWidth 16
  let hi : BitVec 16 := (v >>> 16).setWidth 16
  if off = 0 then
    if clusterEnd then ringBits mid c true hi (clearBits c true lo b) else ringBits mid c false lo (clearBits c false hi b)
  else if off = 8 then writeMask c clusterEnd (if clusterEnd then lo else hi) b
  else if off = 0x10 then writeWord mid c clusterEnd v b
  else if off = 0x20 then clearTimeouts c clusterEnd lo b
  else b

/-! ### Loads and stores (R424 to R427) -/

/-- Whether bytes `a` to `a + n - 1` of device space lie where a program of slice `s` may reach (R425). -/
def deviceOpen (e : Block) (s a n : Nat) : Bool :=
  let chip := a / 2 ^ 42
  let loc := a % 2 ^ 42
  if chip = ownChip e then
    decide (e.dct.devBase s ≤ loc ∧ loc + n ≤ e.dct.devBase s + e.dct.devSize s)
  else
    e.frm.viewed && inF e chip &&
      decide (e.dct.sharedBase chip ≤ loc ∧ loc + n ≤ e.dct.sharedBase chip + e.dct.sharedSize chip)

/-- Whether a scalar access is naturally aligned (R426): a longer one is a vector's. -/
def aligned (a n : Nat) : Bool := n > 8 || a % n == 0

/-- Issue an access of a program; it is charged to the slice's memory level (R266, R427). -/
def programReq (e : Block) (p : Prog) (r : Req) (w : Work) : Work :=
  let w := issue e (some p.slice) r (chargeBytes e p.slice r.len w)
  w.updProg p.pid fun q => { q with
    storesOut := if r.op = .write then q.storesOut + 1 else q.storesOut, lastLoad := if r.op = .write then q.lastLoad else none }

/-- What a user-mode access reaches (R424): of the program's pages, the offset in its window. -/
inductive Reach where
  | own (off : Nat)
  | page (off : Nat)
  | device (a : Nat)
  | host (h : Nat)
  | nothing
  deriving DecidableEq, Repr

/-- The target of an access of `n` bytes at `a` by a program with `pages` pages. -/
def reachOf (pages a n : Nat) : Reach :=
  if 0x100000 ≤ a ∧ a + n ≤ 0x100000 + pages * 4096 then .own (a - 0x100000)
  else if 0x20000000 ≤ a ∧ a + n ≤ 0x20002000 then .page (a - 0x20000000)
  else if 2 ^ 62 ≤ a ∧ a + n ≤ 2 ^ 62 + 2 ^ 48 then .device (a - 2 ^ 62)
  else if 2 ^ 63 ≤ a ∧ a + n ≤ 2 ^ 64 then .host (a - 2 ^ 63)
  else .nothing

/-- A load or store of a program to memory (R425, R426, R427). -/
def memoryAccess (e : Block) (p : Prog) (dev : Bool) (a n : Nat) (store : Option (List Byte)) (w : Work) : Work :=
  match store with
  | some d => programReq e p (newReq .write dev a n (bytesAt d 0 n) (.program p.pid)) w
  | none => programReq e p (newReq .read dev a n [] (.program p.pid)) w

/-- A load or store of a program in its own pages (R424). -/
def ownAccess (p : Prog) (off n : Nat) (store : Option (List Byte)) (w : Work) : Work :=
  match store with
  | some d => localWrite p.core (p.base + off) (bytesAt d 0 n) w
  | none => loadBytes p (localRead w p.core (p.base + off) n) w

/-- A load or store of a program (R424 to R427, R432, R453). -/
def accessOp (pid a n : Nat) (store : Option (List Byte)) (b : Block) : Block :=
  match b.work.prog pid with
  | none => b
  | some p =>
    if !progRuns b.work p || n = 0 then b
    else
      let fault (b : Block) : Block := b.updWork (trapProgram b pid St.tidyFault)
      match reachOf p.pages a n with
      | .own off => b.updWork (ownAccess p off n store)
      | .nothing => fault b
      | .device d =>
        if aligned d n && deviceOpen b p.slice d n then b.updWork (memoryAccess b p true d n store) else fault b
      | .host h => if aligned h n then b.updWork (memoryAccess b p false h n store) else fault b
      | .page off =>
        if n ≠ 8 ∨ off % 8 ≠ 0 then fault b
        else if off < 0x1000 then
          match store with
          | some d => b.updWork (userStore b p off (BitVec.ofNat 64 (fieldAt d 0 8)))
          | none => b.updWork (loadResult p (userLoad b p off))
        else
          let c := (off - 0x1000) / 64
          let mid : BitVec 8 := BitVec.ofNat 8 (0x80 + p.slice)
          if !clusterAccepts b mid.toNat c then fault b
          else match store with
            | some d => endWrite mid c true (off % 64) (BitVec.ofNat 64 (fieldAt d 0 8)) b
            | none => b.updWork (loadResult p (endRead b c true (off % 64)))

/-- PROGRAM_MEMORY_ACCESS. [DESIGN CHOICE, log entry 35] -/
def execProgramMemoryAccess (program : Nat) (address : BitVec 64) (size : Nat) (store : Option (List Byte)) (s : State) :
    Host.Outcome State Fault Refusal :=
  .next (s.onAll (accessOp program address.toNat size store))

/-- MEMc_REQ_AMO (R75). -/
def amoCode : AmoFn → BitVec 4
  | .swap => 0
  | .add => 1
  | .and => 2
  | .or => 3
  | .xor => 4
  | .min => 5
  | .max => 6
  | .minu => 7
  | .maxu => 8
  | .lr => 9
  | .sc => 10

/-- What an AMO leaves in memory (R75). -/
def amoResult {n : Nat} (fn : AmoFn) (old v : BitVec n) : BitVec n :=
  match fn with
  | .swap => v
  | .add => old + v
  | .and => old &&& v
  | .or => old ||| v
  | .xor => old ^^^ v
  | .min => if old.slt v then old else v
  | .max => if old.slt v then v else old
  | .minu => if old.ult v then old else v
  | .maxu => if old.ult v then v else old
  | .lr => old
  | .sc => v

/-- Set or drop the reservation of a program. -/
def reserve (p : Prog) (r : Option (Nat × Nat)) (w : Work) : Work := w.updProg p.pid fun q => { q with reserved := r }

/-- An atomic instruction on `n` bytes of a program's own pages (R426): the old value is its result; an SC gives 0 where it
stores and 1 where its program holds no reservation of those bytes. [DESIGN CHOICE, log entry 35] -/
def ownAmo (fn : AmoFn) (off n : Nat) (v : BitVec 64) (p : Prog) (w : Work) : Work :=
  let a := p.base + off
  let old := localRead w p.core a n
  let new := leBytes n (amoResult fn (BitVec.ofNat (8 * n) (leNat old)) (BitVec.ofNat (8 * n) v.toNat)).toNat
  match fn with
  | .lr => reserve p (some (off, n)) (loadBytes p old w)
  | .sc =>
    if p.reserved = some (off, n) then reserve p none (loadResult p 0 (localWrite p.core a new w))
    else reserve p none (loadResult p 1 w)
  | _ => loadBytes p old (localWrite p.core a new w)

/-- The width of an atomic instruction in bytes. -/
def amoWidth : AmoOperand → Nat
  | .word _ => 4
  | .double _ => 8

/-- The value that an atomic instruction brings, in the low bits. -/
def amoValue : AmoOperand → BitVec 64
  | .word v => v.setWidth 64
  | .double v => v

/-- Whether the fabric performs an atomic instruction (R426): LR, SC and 32-bit AMOs work only in the program's pages. -/
def onFabric (fn : AmoFn) (v : AmoOperand) : Bool := amoWidth v == 8 && fn != .lr && fn != .sc

/-- An atomic instruction of a program (R75, R426), which the A extension wants naturally aligned (R416): any that is not allowed
where it goes traps. -/
def amoOp (e : Block) (a : Nat) (fn : AmoFn) (v : AmoOperand) (p : Prog) (w : Work) : Work :=
  let n := amoWidth v
  match reachOf p.pages a n with
  | .own off => if off % n = 0 then ownAmo fn off n (amoValue v) p w else trapProgram e p.pid St.tidyFault w
  | .device d =>
    if onFabric fn v ∧ d % 8 = 0 ∧ deviceOpen e p.slice d 8 then
      programReq e p { newReq .amo true d 8 (leBytes 8 (amoValue v).toNat) (.program p.pid) with amo := amoCode fn } w
    else trapProgram e p.pid St.tidyFault w
  | _ => trapProgram e p.pid St.tidyFault w

/-- PROGRAM_AMO. -/
def execProgramAmo (program : Nat) (address : BitVec 64) (fn : AmoFn) (operand : AmoOperand) (s : State) :
    Host.Outcome State Fault Refusal :=
  .next (s.onWork fun e w => onProg program (amoOp e address.toNat fn operand) w)

/-! ### Core faults (R565 to R567) -/

/-- CORE_FAULT. -/
def execCoreFault (core : Nat) (cause : CoreFaultCause) (s : State) : Host.Outcome State Fault Refusal :=
  .next (s.onBoxes fun b => b.updWork (coreFaultOp b core cause))

/-- CORE_RESTART_DONE. -/
def execCoreRestartDone (core : Nat) (imageGood : Bool) (s : State) : Host.Outcome State Fault Refusal :=
  .next (s.onBoxes fun b => b.updWork (coreRestarted core imageGood))

/-! ### Cluster resets and starts (R441 to R445, R451) -/

/-- RECOVER (R445). -/
def execRecover (s : State) : Host.Outcome State Fault Refusal :=
  .next (s.onBoxes fun b => b.updWork (resetByHost b .recover))

/-- RESTART (R445). -/
def execRestart (s : State) : Host.Outcome State Fault Refusal :=
  .next (s.onBoxes fun b => b.updWork (resetByHost b .restart))

/-- The host rings bit 0 on channel 0 in NORMAL mode (R445). -/
def recoveryRing (b : Block) : Block := if b.mbx.maint then b else ringBits 0 0 false 1 b

/-- RECOVERY_RING. -/
def execRecoveryRing (s : State) : Host.Outcome State Fault Refusal := .next (s.onAll recoveryRing)

/-- Whether the start has come to the step at which the boot ROM runs (R648, R651). -/
def bootMayRun (b : Block) (cause : ClusterCause) : Bool :=
  match cause with
  | .coldStart => b.st.step == 7
  | .warmStart => b.st.bar0
  | _ => true

/-- The boot ROM begins to check the image region of core 0 (R441, R446). -/
def bootChecks (b : Block) : Block := b.updJnr fun j => { j with state := .checking }

/-- Whether a cluster reset leads to the check of the retained image (R441, R445). -/
def keepsImage (cause : ClusterCause) : Bool := cause == .warmStart || cause == .restart || cause == .domainReset

/-- What the boot ROM does after a cluster reset (R441). -/
def bootRun (cause : ClusterCause) (b : Block) : Block :=
  if b.work.jnr.state != .reset || b.work.jnr.cause != cause || !bootMayRun b cause then b
  else if keepsImage cause then bootChecks b
  else bootWaits cReady b

/-- The check is over (R441, R442). A warm start has then kept its image (R662). [DESIGN CHOICE, log entry 36] -/
def bootProceeds (b : Block) : Block :=
  if b.work.jnr.state != .checking then b
  else
    let b := bootCheck b
    if b.work.jnr.cause == .warmStart && b.work.jnr.state == .starting then { b with st := { b.st with fwRetained := true } } else b

/-- CLUSTER_RESET. -/
def execClusterReset (cause : ClusterCause) (s : State) : Host.Outcome State Fault Refusal :=
  .next (s.onAll (bootRun cause))

/-- The boot ROM's region after a failed read of an image: what it holds is open. [DESIGN CHOICE, log entry 36] -/
def spoiltRegion (w : Work) : List Byte := (List.range 65536).map (Config.freeByte w.fresh)

/-- A read of `n` bytes of an image by the boot ROM, as the physical function without a PASID (R442). -/
def bootReads (a n : Nat) (rest : Bool) (b : Block) : Block :=
  b.updWork (issueRaw b none (newReq .read false a n [] (.bootRead rest)))

/-- The boot ROM takes an image (R442, R443): an address of zero asks for the check of the retained copy, any other for a read of
the header. [DESIGN CHOICE, log entry 36] -/
def bootTakes (b : Block) : Block :=
  let x := b.chan 0
  if b.work.jnr.state != .recoveryWait || !x.db.getLsbD 0 then b
  else
    let b := (takeBits 0 1 b).updJnr fun j => { j with attempts := satInc j.attempts }
    if x.peerWord = 0 then bootChecks b
    else bootReads x.peerWord.toNat 256 false (bootWord cLoading (b.updJnr fun j => { j with state := .loading, image := [], fwVersion := 0 }))

/-- A ring of bit 0 on channel 0 by an identity, one that is not set already (R455), and what the boot ROM then does for the bit
(R442). [DESIGN CHOICE, log entry 36] -/
def recoveryLoad (mid : BitVec 8) (b : Block) : Block := bootTakes (onEnd mid 0 false (ringBits mid 0 false 1) b)

/-- RECOVERY_LOAD. -/
def execRecoveryLoad (mid : BitVec 8) (s : State) : Host.Outcome State Fault Refusal := .next (s.onAll (recoveryLoad mid))

/-- A read of an image is answered (R442): the header says how much more there is; a failed read ends the load (R443).
[DESIGN CHOICE, log entry 36] -/
def bootAnswered (r : Req) (rest : Bool) (st : Status) (data : List Byte) (b : Block) : Block :=
  if b.work.jnr.state != .loading then b
  else if st ≠ St.ok then
    let b := bootWaits cReadFailed (b.updJnr fun j => { j with image := spoiltRegion b.work })
    b.updWork fun w => { w with fresh := w.fresh + 1 }
  else
    let b := b.updJnr fun j => { j with image := j.image ++ data }
    let len := fieldAt b.work.jnr.image 8 4
    if !rest && decide (256 < len ∧ len ≤ 65536) then bootReads (r.addr.toNat + 256) (len - 256) true b else bootChecks b

/-- The firmware enters NORMAL mode (R444, R451): the cluster runs, with every core that self-test has not taken out.
[DESIGN CHOICE, log entry 35] -/
def firmwareUp (b : Block) : Block :=
  if b.work.jnr.state != .starting then b
  else
    let b := setMode false b
    let cores := (List.range 32).foldl (fun (t : Tbl JCore) k =>
      let bad := b.st.bistCores.getLsbD k
      tblUpd {} t k fun x => { x with up := !bad && !x.restarting, inService := !bad }) b.work.jnr.cores
    let j := b.work.jnr
    let b := b.updJnr fun j => { j with state := .running, cores := cores, domainCmd := none }
    b.updWork fun w =>
      let w := match j.domainCmd with
        | some id => endCmd id St.ok w
        | none => w
      if j.cause = .domainReset then w.raise (vecAdmin 4) else w

/-- FIRMWARE_NORMAL. -/
def execFirmwareNormal (s : State) : Host.Outcome State Fault Refusal := .next (s.onAll firmwareUp)

/-- The firmware has not entered NORMAL mode in time (R444): the boot ROM rings START_FAILED, and a warm start that has not
completed fails (R655). -/
def firmwareLate (b : Block) : Block :=
  if b.work.jnr.state != .starting then b
  else
    let b := bootWaits cStartFailed (b.updJnr fun j => { j with cores := stopCores j.cores })
    if b.st.warm && !b.st.done then startFails St.startTimeout b else b

/-- FIRMWARE_START_TIMEOUT. -/
def execFirmwareStartTimeout (s : State) : Host.Outcome State Fault Refusal := .next (s.onAll firmwareLate)

end Sys2Proof.Machine
end

