-- ==== Sys2Proof/Machine/Truss.lean ====
section
/-! DEFINITION. The frame's view and its changes (R519 to R522, R529, R548, R552), and the Truss: arrivals, releases, breaks
and reopening (R531 to R542). -/

namespace Sys2Proof.Machine

/-- Change the frame. -/
def Block.updFrm (b : Block) (f : Frame → Frame) : Block := { b with frm := f b.frm }

/-- Barrier `i`. -/
def Block.bar (b : Block) (i : Nat) : Barrier := tblGet {} b.frm.barriers i

/-- Change barrier `i`. -/
def Block.updBar (b : Block) (i : Nat) (f : Barrier → Barrier) : Block :=
  b.updFrm fun x => { x with barriers := tblUpd {} x.barriers i f }

/-- Whether the chip is the manager, MINORITY or not. -/
def isMgr (b : Block) : Bool := b.frm.state == .manager || b.frm.state == .minority

/-- Whether the chip follows a manager. -/
def isWorker (b : Block) : Bool := b.frm.state == .following || b.frm.state == .member

/-- The chips of F. -/
def frameChips (b : Block) : List Nat := (List.range 64).filter (inF b)

/-- The barriers that a slice owns (R532). -/
def ownedBarriers (b : Block) : List Nat := (List.range 256).filter fun i => b.dct.barrierOwner i != 0xFF

/-- Whether the frame is settled in this chip's view (R531). -/
def settled (b : Block) : Bool :=
  b.frm.viewed && (List.range 64).all fun c => !inF b c || (inA b c && (treeNode b c).isSome)

/-! ### Releases and breaks (R537 to R542) -/

/-- End the local arrivals of barrier `i` (R535). -/
def endArrivals (i : Nat) (st : Status) (b : Block) : Block :=
  b.updWork fun w => (b.bar i).arrivals.foldl (fun w id => endCmd id st w) w

/-- The payload of a BARRIER_ARRIVE or BARRIER_RELEASE (R490). -/
def barPayload (i count : Nat) (st : Status) (gen : Nat) : List Byte :=
  leBytes 1 i ++ leBytes 1 0 ++ leBytes 2 count ++ leBytes 2 st.toNat ++ leBytes 2 0 ++ leBytes 8 gen

/-- Broadcast a BARRIER_RELEASE (R537, R539, R542). -/
def sendRelease (i count : Nat) (st : Status) (gen : BitVec 64) (b : Block) : Block :=
  b.updWork (sendBcast b 0x21 (barPayload i count st gen.toNat))

/-- A generation is released here: LAST rises, and its arrivals end with OK (R537, R538). -/
def releaseBar (i : Nat) (gen : BitVec 64) (b : Block) : Block :=
  (endArrivals i St.ok b).updBar i fun _ => { last := gen }

/-- A generation breaks here (R539, R541). -/
def breakBar (i : Nat) (st : Status) (src : Nat) (b : Block) : Block :=
  if (b.bar i).state == .broken then b
  else
    ((endArrivals i St.stepBroken b).updBar i fun x => { x with state := .broken, arrivals := [] }).updFrm fun x =>
      { x with breakStatus := st, breakSrc := BitVec.ofNat 6 src, breakBarrier := BitVec.ofNat 8 i }

/-- The manager breaks a generation (R539). -/
def mgrBreak (i : Nat) (st : Status) (src : Nat) (b : Block) : Block :=
  if (b.bar i).state == .broken then b
  else sendRelease i 0 St.stepBroken ((b.bar i).last + 1) (breakBar i st src b)

/-- The manager breaks every owned barrier (R539). -/
def mgrBreakAll (st : Status) (src : Nat) (b : Block) : Block :=
  (ownedBarriers b).foldl (fun b i => mgrBreak i st src b) b

/-- A barrier goes back to IDLE for the same generation (R542). -/
def reopenBar (i : Nat) (b : Block) : Block := b.updBar i fun x => { last := x.last }

/-- The manager reopens every broken barrier of a settled frame (R542). -/
def reopenAll (b : Block) : Block :=
  if b.frm.state == .manager && settled b then
    (b.frm.barriers.filter fun p => p.2.state == .broken).foldl (fun b p =>
      sendRelease p.1 0 St.ok ((b.bar p.1).last + 1) (reopenBar p.1 b)) b
  else b

/-- Whether a chip's subtree is complete (R536). -/
def subtreeDone (b : Block) (x : Barrier) : Bool :=
  x.state == .counting && x.loc == x.expect && (childPorts b).all fun c => tblGet 0 x.reports c.2 != 0

/-- Chips in a complete subtree. -/
def subtreeCount (b : Block) (x : Barrier) : Nat := 1 + ((childPorts b).map fun c => tblGet 0 x.reports c.2).sum

/-- Send a BARRIER_ARRIVE to the parent (R536, R540). -/
def sendUp (i count : Nat) (st : Status) (gen : BitVec 64) (b : Block) : Block :=
  match (treeNode b b.dct.chipNum).bind TreeNode.parent with
  | some (p, _) => b.updWork (sendMsg b (mkMsg b 0x20 p 0 (barPayload i count st gen.toNat)))
  | none => b

/-- A complete subtree goes up, or, at the manager, releases the generation (R536, R537). -/
def trussCheck (i : Nat) (b : Block) : Block :=
  let x := b.bar i
  if !subtreeDone b x then b
  else if isMgr b then
    if b.frm.state == .manager && settled b && subtreeCount b x == (frameChips b).length then
      sendRelease i (subtreeCount b x) St.ok (x.last + 1) (releaseBar i (x.last + 1) b)
    else b
  else if b.frm.state == .member && !x.sentUp then
    (sendUp i (subtreeCount b x) St.ok (x.last + 1) b).updBar i fun x => { x with sentUp := true }
  else b

/-- Every barrier that counts is looked at again at the end of the control cycle (R555). -/
def trussAll (b : Block) : Block :=
  (b.frm.barriers.filter fun p => p.2.state == .counting).foldl (fun b p => b.updWork fun w => w.later (.subtree p.1)) b

/-! ### Changes of the view (R519 to R522, R539, R548, R552) -/

/-- Mark, or unmark, port `p` of chip `c`. -/
def markPort (c p : Nat) (isDown : Bool) (b : Block) : Block := b.updFrm fun f => { f with
  down := tblUpd 0 f.down c fun m => if m.testBit p = isDown then m else if isDown then m + 2 ^ p else m - 2 ^ p }

/-- Mark, or unmark, the ports of two chips that face each other. -/
def markFacing (x y : Nat) (isDown : Bool) (b : Block) : Block :=
  (List.range 6).foldl (fun b p =>
    match farLink b.dct x p with
    | some (z, q) => if z = y then markPort y q isDown (markPort x p isDown b) else b
    | none => b) b

/-- Mark every port of a chip down. -/
def markChip (c : Nat) (b : Block) : Block :=
  b.updFrm fun f => { f with down := tblSet 0 f.down c 63 }

/-- The chips of A that the view shows unreachable leave it (R519). -/
def dropUnreachable (b : Block) : Block :=
  let reach := (treeFrom b b.dct.chipNum).map TreeNode.chip
  b.updFrm fun f => { f with admitted := (List.range 64).foldl (fun m c =>
    if m.getLsbD c && !(reach.contains c && inF b c) then clrBit m c else m) f.admitted }

/-- The pending chips with what is kept of each (R525, R529): those of F that are not in A. -/
def pendingNow (b : Block) : Tbl (Option Pending) :=
  ((List.range 64).filter (isPending b)).map fun c => (c, some ((tblGet none b.frm.pending c).getD {}))

/-- The manager counts what it reaches: it enters MINORITY below half of F, and leaves it at half (R539, R552). -/
def checkMinority (st : Status) (src : Nat) (b : Block) : Block :=
  if !isMgr b then b
  else
    let reach := (treeFrom b b.dct.chipNum).length
    if 2 * reach < (frameChips b).length then
      if b.frm.state == .minority then b else mgrBreakAll st src (b.updFrm fun f => { f with state := .minority })
    else b.updFrm fun f => { f with state := .manager }

/-- Whether the view shows the followed manager unreachable (R548). -/
def mgrUnreachable (b : Block) : Bool := (hops b b.dct.chipNum b.frm.mgr.toNat).isNone || !inF b b.frm.mgr.toNat

/-- A worker's view loses the manager (R541, R548). -/
def loseMgr (byNotice : Bool) (b : Block) : Block :=
  if isWorker b && !b.frm.mgrLost then
    { b with clk := { b.clk with src := 2 } }.updFrm fun f => { f with mgrLost := true, lossByNotice := byNotice, waitLost := true, lostMgr := b.frm.mgr }
  else if byNotice then b.updFrm fun f => { f with lossByNotice := true }
  else b

/-- What follows a change of the view, with its status and the chip concerned; `down` says that a port was marked down. -/
def viewChanged (down : Bool) (st : Status) (src : Nat) (old : BitVec 64) (b : Block) : Block :=
  let b := dropUnreachable b
  let b := { b with work := losePeers b b.work }
  let gone := old &&& ~~~b.frm.admitted
  let b := if old = b.frm.admitted then b else b.updFrm fun f => { f with lastCause := st }
  let b := b.updFrm fun f => { f with pending := (List.range 64).foldl (fun t c =>
    if gone.getLsbD c && inF b c then tblSet none t c (some {}) else t) f.pending }
  let b := if isMgr b && (down || gone != 0) then mgrBreakAll st src b else b
  let b := checkMinority st src b
  let b := if isWorker b && mgrUnreachable b then loseMgr false b else b
  trussAll b

/-- A port of this chip is lost (R519): it and the far port are marked down. [DESIGN CHOICE, log entry 41] -/
def frameLost (p : Nat) (st : Status) (b : Block) : Block :=
  if !b.frm.hasView then b
  else match farLink b.dct b.dct.chipNum p with
    | some (y, q) => viewChanged true st y b.frm.admitted (markPort y q true (markPort b.dct.chipNum p true b))
    | none => b

/-- A port of this chip has come up: a chip that follows a manager, or is one, tells the frame (R519).
[DESIGN CHOICE, log entry 41] -/
def framePortUp (p : Nat) (b : Block) : Block :=
  if !b.frm.hasView then b
  else if !b.frm.viewed then
    match farLink b.dct b.dct.chipNum p with
    | some (y, q) => markPort y q false (markPort b.dct.chipNum p false b)
    | none => b
  else
    let y := (b.lport p).nbrChip.toNat
    let b := viewChanged false St.ok y b.frm.admitted (markFacing b.dct.chipNum y false b)
    b.updWork (sendNotice b 3 y St.ok)

/-- The manager excludes a chip (R529). -/
def exclude (c : Nat) (b : Block) : Block :=
  let b := b.updWork (sendNotice b 2 c St.chipExcluded)
  let old := b.frm.admitted
  let b := b.updFrm fun f => { f with
    excl := setBit f.excl c, admitted := clrBit f.admitted c, lastCause := St.chipExcluded, pending := tblSet none f.pending c none }
  viewChanged false St.chipExcluded c old b

/-- The manager may exclude: it is not MINORITY, and the chip is pending (R529). -/
def mayExclude (b : Block) (c : Nat) : Bool := b.frm.state == .manager && isPending b c && c != b.dct.chipNum

/-- This chip is excluded (R519, R530): it leaves F and A and runs its own beat, and what it has registered with other chips ends
(R331). -/
def beExcluded (b : Block) : Block :=
  let me := b.dct.chipNum
  let b := { b with
    clk := { b.clk with src := 0, aligned := false }, lnk := { b.lnk with edges := [], missed := 0, placed := none } }.updFrm fun f =>
    { f with state := .excluded, lastCause := St.chipExcluded, admitted := clrBit f.admitted me, excl := setBit f.excl me,
             mgrLost := false, waitLost := false }
  { b with work := losePeers b b.work }

/-! ### NOTICE (R483, R519) -/

/-- The change of view that a NOTICE makes (R519). -/
def noticeView (kind subject src : Nat) (reason : Status) (b : Block) : Block :=
  let old := b.frm.admitted
  let fromMgr : Bool := b.frm.viewed && src == b.frm.mgr.toNat
  if kind = 1 ∧ src = subject then
    let b := (markChip subject b).updFrm fun f => { f with admitted := clrBit f.admitted subject }
    let b := viewChanged true reason subject old b
    if isWorker b && subject == b.frm.mgr.toNat then loseMgr true b else b
  else if kind = 2 ∧ reason = St.chipExcluded then
    if subject = b.dct.chipNum ∧ (fromMgr ∨ ¬b.frm.viewed) then beExcluded b
    else if !fromMgr then b
    else
      viewChanged false reason subject old (b.updFrm fun f => { f with
        excl := setBit f.excl subject, admitted := clrBit f.admitted subject, lastCause := reason, pending := tblSet none f.pending subject none })
  else if kind = 2 then viewChanged true reason subject old (markFacing src subject true b)
  else if kind = 3 ∧ reason = St.frameJoined then
    if fromMgr then
      viewChanged false reason subject old (b.updFrm fun f => { f with
        admitted := setBit f.admitted subject, lastCause := reason, pending := tblSet none f.pending subject none })
    else b
  else if kind = 3 then viewChanged false reason subject old (markFacing src subject false b)
  else b

/-! ### The commands of the Truss -/

/-- BARRIER_ARRIVE (R176, R535). [DEDUCED, log entry 53] -/
def arriveOp (id : Nat) (b : Block) : Block :=
  match b.work.cmd id with
  | none => b
  | some c =>
    if !(c.phase == .released && c.op == some .barrierArrive && c.endStatus.isNone && !c.suspended) then b
    else
      let i := fieldAt c.bytes 24 1
      let count := fieldAt c.bytes 26 2
      let x := b.bar i
      let reject (st : Status) : Block := b.updWork (endCmd id st)
      -- R176: legal when the block has joined a frame
      if !b.frm.joined then reject St.stateReject
      else if some (b.dct.barrierOwner i) ≠ c.slice then reject St.stateReject
      else if fieldAt c.bytes 32 8 ≠ x.last.toNat + 1 then reject St.stateReject
      else if x.state = .broken then reject St.stepBroken
      else if x.state = .counting ∧ (count ≠ x.expect ∨ x.loc = x.expect) then reject St.stateReject
      else
        let b := b.updWork fun w => w.updCmd id fun d => { d with phase := .running, waiting := .barrier }
        (b.updBar i fun x => { x with
          state := .counting, expect := count, loc := x.loc + 1, arrivals := x.arrivals ++ [id] }).updWork fun w => w.later (.subtree i)

/-- BARRIER_ARRIVE. [DEDUCED, log entry 53] -/
def execBarrierArrive (id : Nat) (s : State) : Host.Outcome State Fault Refusal := .next (s.onAll (arriveOp id))

/-- Arrivals that have ended with a status of R540 go towards the manager. [DESIGN CHOICE, log entry 41] -/
def sendBarEnds (b : Block) : Block :=
  let ends := b.work.barEnds
  let b := b.updWork fun w => { w with barEnds := [] }
  ends.foldl (fun b (x : Nat × Nat × Nat × Status) =>
    let i := x.2.1
    if b.dct.barrierOwner i = x.1 ∧ x.2.2.1 = (b.bar i).last.toNat + 1 then
      if isMgr b then mgrBreak i x.2.2.2 b.dct.chipNum b
      else if b.frm.state = .member then
        let d := b.work.draw
        sendUp i ((Config.freeWord d.1).toNat % 65536) x.2.2.2 ((b.bar i).last + 1) { b with work := d.2 }
      else b
    else b) b

/-- Run `f` on the first received message of a type. -/
def onMsgAll (typ : BitVec 8) (f : Nat → Nat → Msg → Block → Block) (b : Block) : Block :=
  match takeMsg typ b.work with
  | some (x, w) => f x.1 x.2.1 x.2.2 { b with work := w }
  | none => b

/-- Count a BARRIER_ARRIVE message discarded (R536). -/
def dropArrive (b : Block) : Block := b.updFrm fun f => { f with arriveDrops := satInc f.arriveDrops }

/-- A BARRIER_ARRIVE message (R536, R539, R540). A chip that has not joined yet has no LAST of its own: it forwards a status whatever
the generation. [DESIGN CHOICE, log entry 41] -/
def arriveMsg (m : Msg) (b : Block) : Block :=
  let i := m.field 8 1
  let st : Status := BitVec.ofNat 16 (m.field 12 2)
  let x := b.bar i
  let current : Bool := m.field 16 8 == x.last.toNat + 1 && x.state != .broken
  if !b.frm.viewed then dropArrive b
  else if st ≠ St.ok then
    if isMgr b then if current && b.dct.barrierOwner i != 0xFF then mgrBreak i st m.src.toNat b else dropArrive b
    else if current || b.frm.state == .following then sendUp i (m.field 10 2) st (BitVec.ofNat 64 (m.field 16 8)) b
    else dropArrive b
  else if !current then dropArrive b
  else trussCheck i (b.updBar i fun x => { x with reports := tblSet 0 x.reports m.src.toNat (m.field 10 2) })

/-- BARRIER_ARRIVE_MESSAGE: a break of the same control cycle is applied first (R555). -/
def execBarrierArriveMessage (s : State) : Host.Outcome State Fault Refusal :=
  .next (s.onAll (onMsgAll 0x20 fun _ _ m b => b.updWork fun w => w.later (.arrive m)))

/-- A BARRIER_RELEASE (R538, R539, R542). -/
def releaseMsg (m : Msg) (b : Block) : Block :=
  let i := m.field 8 1
  let st : Status := BitVec.ofNat 16 (m.field 12 2)
  let x := b.bar i
  if !isWorker b || m.field 16 8 != x.last.toNat + 1 then b
  else if st ≠ St.ok then breakBar i st m.src.toNat b
  else if m.field 10 2 = 0 then reopenBar i b
  else
    let b := if x.state = .broken then b.updFrm fun f => { f with diverged := satInc f.diverged } else b
    releaseBar i (x.last + 1) b

/-- BARRIER_RELEASE. -/
def execBarrierRelease (s : State) : Host.Outcome State Fault Refusal :=
  .next (s.onAll (onMsgAll 0x21 fun _ _ m b => releaseMsg m b))

/-- 2.25 µs have passed since the worker lost its manager (R541): its barriers break here, whatever chip it follows by then
(R547). -/
def lostWaitOver (b : Block) : Block :=
  if b.frm.waitLost then
    let b := b.updFrm fun f => { f with waitLost := false }
    (ownedBarriers b).foldl (fun b i => breakBar i b.frm.lastCause b.frm.lostMgr.toNat b) b
  else b

/-- MANAGER_LOST_WAIT. -/
def execManagerLostWait (s : State) : Host.Outcome State Fault Refusal := .next (s.onAll lostWaitOver)

/-- FRAME_CMD EXCLUDE (R514, R529): it names a pending chip. [DESIGN CHOICE, log entry 41] -/
def frameCmdExclude (c : Nat) (b : Block) : Block := if mayExclude b c then exclude c b else b

/-- FRAME_CMD_EXCLUDE. -/
def execFrameCmdExclude (chip : Nat) (s : State) : Host.Outcome State Fault Refusal := .next (s.onAll (frameCmdExclude chip))

/-- EXCLUDE_BEATS have passed for a pending chip (R529). -/
def excludeLate (c : Nat) (b : Block) : Block :=
  match tblGet none b.frm.pending c with
  | some x => if mayExclude b c && b.dct.excludeBeats ≤ x.beats then exclude c b else b
  | none => b

/-- EXCLUDE_TIMEOUT: an admission in the same control cycle holds (R555). -/
def execExcludeTimeout (chip : Nat) (s : State) : Host.Outcome State Fault Refusal := .next (s.onWork fun _ w => w.later (.exclude chip))

/-- Chip 0 founds a frame (R523): it is MINORITY if it reaches fewer than half of F (R552). -/
def foundFrame (b : Block) : Block :=
  if b.frm.state != .listening || b.dct.chipNum != 0 || b.frm.listened < b.dct.joinListen then b
  else
    let pend : Tbl (Option Pending) := ((List.range 64).filter fun c => inF b c && c != 0).map fun c => (c, some {})
    let b := { b with
      clk := { b.clk with src := 1, aligned := false }, dct := { b.dct with locked := true }, lnk := { b.lnk with placed := none } }
    checkMinority b.frm.lastCause 0 (b.updFrm fun f =>
      { f with state := .manager, epoch := 0, mgr := 0, mgrLost := false, admitted := 1, pending := pend, barriers := [] })

/-- FOUND_FRAME. -/
def execFoundFrame (s : State) : Host.Outcome State Fault Refusal := .next (s.onAll foundFrame)

end Sys2Proof.Machine
end

