-- ==== Sys2Proof/Machine/Link.lean ====
section
/-! DEFINITION. The Tenon ports: training (R465 to R470), hop latency (R471, R472), frames and their acknowledgement (R478 to
R484), port states (R485 to R488), the receipt and routing of messages (R490 to R494), and sleep and wake (R507 to R510). -/

namespace Sys2Proof.Machine

/-! ### Training (R467, R468) -/

/-- Drop what port `p` holds to send; it is counted in DROPS (R484), and credits return (R511). -/
def dropPort (p : Nat) (b : Block) : Block :=
  let q := portQueue b.work p
  let n := q.length + ((b.lport p).unacked.map SentFrame.count).sum
  (b.updWork fun w =>
    let w := setQueue p q [] w
    { w with msgs := { w.msgs with drops := tblUpd 0 w.msgs.drops p fun x => satAdd x n } }).updLport p fun x => { x with unacked := [] }

/-- What a port forgets as it begins to train: frame numbers start again from 0. -/
def LinkPort.fresh (x : LinkPort) : LinkPort := { x with
  lastTrain := none, lastCounter0 := none, lastCounter1 := none, trainRun := 0, seenRun := 0, doneRun := 0, counter := 0, pings := [],
  pinging := false, nextSeq := 0, unacked := [], rxSeq := none, nakSent := false, partnerAck := none, partnerCredits := 64,
  unclean := false, counted := false, cleanBeats := 0, waking := false, seen := false }

/-- The step of R467 at which a port whose front end runs stands by its locks. -/
def lockStep (x : LinkPort) : Nat :=
  if x.lane0.blockLock && x.lane1.blockLock then 4 else if x.lane0.rxLock && x.lane1.rxLock then 3 else 2

/-- A DOMAIN_RESET of Tenon port `p` ends (R572, R579): the port's logic is out of reset. -/
def portReturns (p : Nat) (w : Work) : Work := domainReturns 4 p w

/-- The control cycles of 1 µs, for which RST_N stays low (R467 step 1, R579). -/
def resetCycles (b : Block) : Nat := (b.dct.cclkKhz + 999) / 1000

/-- A port begins to train (R467 step 1): its lanes are powered and in reset, for 1 µs. -/
def startTrain (p : Nat) (b : Block) : Block :=
  (dropPort p (b.updWork (portReturns p))).updLport p fun x =>
    let x := x.fresh
    let x := { x with lane0 := { rxLock := x.lane0.rxLock }, lane1 := { rxLock := x.lane1.rxLock } }
    { x with state := .training, pd := false, txIdle := false, rstN := false, rstWait := resetCycles b, deskew := none, step := 1 }

/-- A control cycle of RST_N low passes; it rises after the last (R467 step 2, R579). -/
def LinkPort.resetPasses (x : LinkPort) : LinkPort :=
  if x.rstWait = 0 then x
  else if x.rstWait = 1 then
    { x with rstWait := 0, rstN := true, step := if x.state == .training && x.step == 1 then lockStep x else x.step }
  else { x with rstWait := x.rstWait - 1 }

/-- The short path of a warm start (R652): training starts at step 6 with the retained lane layer. -/
def shortTrain (p : Nat) (b : Block) : Block :=
  (dropPort p b).updLport p fun x =>
    { x.fresh with state := .training, pd := false, txIdle := false, rstN := true, rstWait := 0, step := 5 }

/-- Training fails (R468): the port holds its transmitter idle until it trains again. WAKE_WAIT_US runs on (R509).
[DESIGN CHOICE, log entry 39] -/
def failTrain (p : Nat) (sub : Nat) (b : Block) : Block :=
  b.updLport p fun x => { x.fresh with
    waking := x.waking, lastCause := St.trainFailed, subCause := BitVec.ofNat 4 sub, txIdle := true, step := 0 }

/-- A port declares its neighbour lost (R484, R488). -/
def loseNeighbour (p : Nat) (st : Status) (b : Block) : Block :=
  let x := b.lport p
  let flaps := satInc x.flaps
  let held : Bool := decide (b.dct.flapLimit ≤ flaps.toNat)
  let b := (dropPort p b).updLport p fun x => { x.fresh with
    state := if held then .disabled else .lost, lastCause := st, flaps := flaps }
  let b := if x.nbrValid then b.updWork (sendNotice b 2 x.nbrChip.toNat st) else b
  frameLost p st b

/-- Whether a port is in PROBATION or UP. -/
def LinkPort.inTouch (x : LinkPort) : Bool := x.state == .probation || x.state == .up

/-- Whether the Tenon ports are powered. -/
def tnlOn (b : Block) : Bool := !(b.work.switch .tnl).iso

/-- RETRAIN (R513). [DESIGN CHOICE, log entry 39] -/
def retrainOp (p : Nat) (b : Block) : Block := if p < 6 && tnlOn b then startTrain p b else b

/-- RETRAIN. -/
def execRetrain (port : Nat) (s : State) : Host.Outcome State Fault Refusal := .next (s.onAll (retrainOp port))

/-- DISABLE (R513). -/
def disablePort (p : Nat) (b : Block) : Block :=
  if p < 6 then (dropPort p (b.updWork (portReturns p))).updLport p fun x => { x.fresh with state := .disabled, txIdle := true, pd := true } else b

/-- PORT_DISABLE. -/
def execPortDisable (port : Nat) (s : State) : Host.Outcome State Fault Refusal := .next (s.onAll (disablePort port))

/-- The frame topology names the neighbour that port `p` must have (R469). -/
def expectedNeighbour (b : Block) (p : Nat) : Option (Nat × Nat) :=
  if b.dct.chipNum < 64 then farLink b.dct b.dct.chipNum p else none

/-- A port records its neighbour, and is MISWIRED where it is not the one expected (R469).
[DESIGN CHOICE, log entry 39] -/
def recordNeighbour (p : Nat) (k : TrainBlk) (b : Block) : Block :=
  let b := b.updLport p fun x => { x with nbrChip := k.chip, nbrPort := k.port, nbrValid := k.chipValid }
  match expectedNeighbour b p with
  | some (c, q) =>
    if k.chipValid ∧ k.chip.toNat = c ∧ k.port.toNat = q then b else b.updLport p fun x => { x with state := .miswired }
  | none => b

/-- Send the next PING of a measurement and record the time (R471): its tag is the number of the sample.
[DESIGN CHOICE, log entry 40] -/
def sendPing (p : Nat) (b : Block) : Block :=
  (b.updLport p fun x => { x with pingAt := b.now }).emit (.ping p (BitVec.ofNat 8 (b.lport p).pings.length) false 0)

/-- Begin a measurement of H (R471). -/
def startPings (p : Nat) (b : Block) : Block := sendPing p (b.updLport p fun x => { x with pings := [], pinging := true })

/-- Whether a TRAIN block follows the last one consistently (R467 step 6). -/
def consistent (x : LinkPort) (k : TrainBlk) : Bool :=
  x.lastTrain == some (k.chip, k.chipValid, k.port, k.rev) && k.counter == x.counter + 1

/-- A TRAIN block while the port trains, its lanes in block lock (R467 steps 5 to 7). -/
def trainStep (p : Nat) (k : TrainBlk) (b : Block) : Block :=
  if k.rev.toNat / 16 ≠ 1 then failTrain p 4 b
  else
    let b := b.updLport p fun x =>
      let run := if consistent x k then x.trainRun + 1 else 1
      { x with
        lastCounter0 := if k.lane = 0 then some k.counter else x.lastCounter0,
        lastCounter1 := if k.lane = 0 then x.lastCounter1 else some k.counter,
        trainRun := run, seen := x.seen || decide (16 ≤ run), lastTrain := some (k.chip, k.chipValid, k.port, k.rev), counter := k.counter,
        seenRun := if k.seen then x.seenRun + 1 else x.seenRun, doneRun := if k.done then x.doneRun + 1 else x.doneRun }
    let x := b.lport p
    let skew : Option Nat := match x.lastCounter0, x.lastCounter1 with
      | some c, some d => some (min (c - d).toNat (d - c).toNat)
      | _, _ => none
    match skew with
    | none => b
    | some n =>
      if x.step = 4 ∧ 16 < n then failTrain p 3 b
      else
        let b := if x.step = 4 then b.updLport p fun x => { x with step := 5, deskew := some n } else b
        let b := b.updLport p fun x => if x.step = 5 ∧ x.seen then { x with step := 6 } else x
        let x := b.lport p
        if x.step = 6 ∧ 16 ≤ x.seenRun ∧ 16 ≤ x.doneRun then
          let b := recordNeighbour p k (b.updLport p fun x => { x with step := 7, waking := false })
          if (b.lport p).state == .miswired then b else startPings p b
        else b

/-- A lock of a lane has changed: training goes on, and a beat in PROBATION is not clean (R467, R486). -/
def lockChanged (x : LinkPort) : LinkPort :=
  let good := x.lane0.rxLock && x.lane1.rxLock && x.lane0.blockLock && x.lane1.blockLock
  { x with
    unclean := x.unclean || (x.inTouch && !good),
    step := if x.state == .training && 2 ≤ x.step && x.step ≤ 4 then lockStep x else x.step }

/-- A received TRAIN block (R467, R470). -/
def trainBlock (p : Nat) (k : TrainBlk) (b : Block) : Block :=
  let x := b.lport p
  if 6 ≤ p then b
  else if x.inTouch then loseNeighbour p St.peerLost b
  else if x.state == .training && 4 ≤ x.step && x.step < 7 then trainStep p k b
  else b

/-- TRAIN_BLOCK. -/
def execTrainBlock (port : Nat) (block : TrainBlk) (s : State) : Host.Outcome State Fault Refusal :=
  .next (s.onAll fun b =>
    let r := b.receivedTrain port block
    if ((b.lport port).lane (block.lane % 2)).blockLock then trainBlock port block r else r.updLport port lockChanged)

/-- A step of training has not been reached in time (R468). -/
def trainLate (p : Nat) (b : Block) : Block :=
  let x := b.lport p
  if x.state != .training || x.step = 0 || 7 ≤ x.step then b
  else if x.step ≤ 2 then failTrain p 1 b
  else if x.step = 3 then failTrain p 2 b
  else failTrain p 5 b

/-- TRAIN_FAILED. -/
def execTrainFailed (port : Nat) (s : State) : Host.Outcome State Fault Refusal := .next (s.onAll (trainLate port))

/-- A port trains again after a failure or a loss (R468, R484). -/
def trainAgain (p : Nat) (b : Block) : Block :=
  let x := b.lport p
  if tnlOn b && (x.state == .lost || (x.state == .training && x.step == 0)) then
    (startTrain p b).updLport p fun y => { y with waking := x.waking }
  else b

/-- TRAIN_RETRY_TIMER. -/
def execTrainRetryTimer (port : Nat) (s : State) : Host.Outcome State Fault Refusal := .next (s.onAll (trainAgain port))

/-- RX_LOCK rises or falls (R465, R467): without it the lane has no block lock. -/
def rxLock (p lane : Nat) (level : Bool) (b : Block) : Block :=
  if 6 ≤ p then b
  else b.updLport p fun x =>
    lockChanged (x.updLane lane fun l => { l with
      rxLock := level, blockLock := l.blockLock && level, good := if level then l.good else 0, bad := if level then l.bad else 0 })

/-- RX_LOCK_CHANGE. -/
def execRxLockChange (port lane : Nat) (level : Bool) (s : State) : Host.Outcome State Fault Refusal :=
  .next (s.onAll (rxLock port lane level))

/-- A lane receives 66 bits (R463 to R465): its sync header counts for block lock, and while the lane holds it, a block with an
invalid header or of unknown type is discarded and counted. [PRESUMED, log entry 63] -/
def rawBlock (p lane : Nat) (b : Block) (x : BitVec 66) : Block :=
  let bad := badBlock ((tblGet {} b.lnk.coders p).lane lane).rx x
  (b.updCoder p fun c => c.receiveRaw lane x).updLport p fun y =>
    let y := if (y.lane lane).blockLock && bad then { y with crcErrors := satInc y.crcErrors } else y
    y.updLane lane fun l => l.header (syncValid x)

/-- Blocks come to a lane as they are received: block lock is gained or lost (R465). A block of known type does nothing more here:
its own row brings it. [PRESUMED, log entry 63] -/
def laneBlocks (p lane : Nat) (xs : List (BitVec 66)) (b : Block) : Block :=
  if 6 ≤ p then b else (xs.foldl (rawBlock p lane) b).updLport p lockChanged

/-- BLOCK_LOCK_CHANGE. [DESIGN CHOICE, log entry 63] -/
def execBlockLockChange (port lane : Nat) (blocks : List (BitVec 66)) (s : State) : Host.Outcome State Fault Refusal :=
  .next (s.onAll (laneBlocks port lane blocks))

/-- Blocks are received on port `p`, and their lanes hold block lock (R465): they have the effect `f`. -/
def whereLocked (p : Nat) (bs : List LaneBlock) (f : Block → Block) (b : Block) : Block :=
  let r := b.received p bs
  if b.delivers p bs.length then f r else r.updLport p lockChanged

/-! ### Hop latency (R471, R472) -/

/-- The mean of 16 samples of twice H, as H in units of 0.25 ns, and twice their spread.
[DESIGN CHOICE, log entry 40] -/
def meanSpread (xs : List Nat) : Nat × Nat :=
  (xs.sum / 32, xs.foldl max 0 - xs.foldl min (xs.headD 0))

/-- A measurement is complete (R468, R471, R472). [DESIGN CHOICE, log entry 40] -/
def measured (p : Nat) (b : Block) : Block :=
  let x := b.lport p
  let (h, sp2) := meanSpread x.pings
  let b := b.updLport p fun x => { x with pings := [], pinging := false, spread := BitVec.ofNat 16 (sp2 / 2), spread2 := sp2 }
  if x.state == .training then
    if 16 < sp2 then failTrain p 6 b
    else b.updLport p fun x => { x with hop := BitVec.ofNat 32 h, state := .probation, step := 8, cleanBeats := 0, unclean := true, ackAt := b.now }
  else if 8 < max h x.hop.toNat - min h x.hop.toNat then loseNeighbour p St.latencyShift b
  else b.updLport p fun x => { x with hop := BitVec.ofNat 32 h }

/-- A received PING (R471): it is answered after `delay`, at most 1 µs, which TURN says; or its answer, received at `arrival`, gives
a sample. Times are in units of 0.25 ns. [DESIGN CHOICE, log entry 40] -/
def pingBlock (p : Nat) (tag : BitVec 8) (echo : Bool) (turn : BitVec 16) (arrival delay : Nat) (b : Block) : Block :=
  let x := b.lport p
  if 6 ≤ p then b
  else if !echo then b.emit (.ping p tag true (BitVec.ofNat 16 (min delay 4000)))
  else if !x.pinging || tag.toNat ≠ x.pings.length then b
  else
    let b := b.updLport p fun x => { x with pings := x.pings ++ [arrival - x.pingAt - turn.toNat] }
    if (b.lport p).pings.length < 16 then sendPing p b else measured p b

/-- PING_BLOCK. [DESIGN CHOICE, log entry 40] -/
def execPingBlock (port : Nat) (tag : BitVec 8) (echo : Bool) (turn : BitVec 16) (arrival delay : Nat) (s : State) :
    Host.Outcome State Fault Refusal :=
  .next (s.onAll (whereLocked port [pingBlk tag echo turn] (pingBlock port tag echo turn arrival delay)))

/-- An UP port measures H again at edges that are multiples of 256 (R472). -/
def remeasure (p : Nat) (b : Block) : Block :=
  if (b.lport p).state == .up && b.clk.beat.toNat % 256 == 0 then startPings p b else b

/-- LATENCY_REMEASURE. -/
def execLatencyRemeasure (port : Nat) (s : State) : Host.Outcome State Fault Refusal := .next (s.onAll (remeasure port))

/-! ### The receipt of messages (R490 to R493) -/

/-- Count a message dropped on receipt (R490, R492). -/
def dropRx (b : Block) : Block := b.updWork fun w => { w with msgs := { w.msgs with rxDrop := w.msgs.rxDrop + 1 } }

/-- The message types of R490. -/
def knownType (t : BitVec 8) : Bool :=
  [0x00, 0x01, 0x02, 0x10, 0x11, 0x12, 0x13, 0x20, 0x21, 0x30, 0x31].contains t.toNat

/-- Deliver a message here. [DESIGN CHOICE, log entry 20] -/
def deliverMsg (p arrival : Nat) (m : Msg) (b : Block) : Block :=
  b.updWork fun w => { w with msgs := { w.msgs with inbox := w.msgs.inbox ++ [(p, arrival, m)] } }

/-- Queue a message in transit for port `p`. [DESIGN CHOICE, log entry 20] -/
def queueTransit (p : Nat) (m : Msg) (b : Block) : Block :=
  b.updWork fun w => { w with msgs := { w.msgs with out := w.msgs.out ++ [{ port := p, transit := true, msg := m }] } }

/-- Forward a unicast message (R491, R492). -/
def forwardMsg (m : Msg) (b : Block) : Block :=
  if 15 ≤ m.hops.toNat then dropRx b
  else match routeTo b m.dest.toNat with
    | none => dropRx b
    | some p =>
      if portUp b p || (b.lport p).state == .sleep then queueTransit p { m with hops := m.hops + 1 } b else dropRx b

/-- Whether a broadcast is newer than the last accepted from its chip (R493). -/
def newBcast (b : Block) (m : Msg) : Bool :=
  m.src.toNat != b.dct.chipNum && match tblGet none b.lnk.lastBseq m.src.toNat with
    | none => true
    | some n => 1 ≤ (m.bseq - n).toNat && (m.bseq - n).toNat ≤ 32767

/-- Set the last broadcast number of a chip. -/
def setBseq (c : Nat) (n : Option (BitVec 16)) (b : Block) : Block :=
  { b with lnk := { b.lnk with lastBseq := tblSet none b.lnk.lastBseq c n } }

/-- A broadcast is received (R493). -/
def bcastMsg (p arrival : Nat) (m : Msg) (b : Block) : Block :=
  if !newBcast b m then b
  else
    let b := setBseq m.src.toNat (some m.bseq) b
    let b := if m.typ = 0x02 then setBseq (bitsOf (m.field 9 1) 5 0) none b else b
    let b := deliverMsg p arrival m b
    ((List.range 6).filter fun q => q != p && portUp b q).foldl (fun b q =>
      if 15 ≤ m.hops.toNat then dropRx b else queueTransit q { m with hops := m.hops + 1 } b) b

/-- A message is received on port `p` (R490 to R493). Of copies of one broadcast that come in one control cycle, that of the lowest
port is accepted (R511), so that broadcasts are accepted at its end. [DESIGN CHOICE, log entry 20] -/
def receiveMsg (p arrival : Nat) (m : Msg) (b : Block) : Block :=
  if m.typ = 0 then b
  else if !knownType m.typ then dropRx b
  else if m.bcast then b.updWork fun w => w.later (.bcast p arrival m)
  else if m.dest.toNat = b.dct.chipNum then deliverMsg p arrival m b
  else forwardMsg m b

/-! ### Frames and acknowledgement (R478 to R484) -/

/-- Send an ACK block (R476, R480). -/
def sendAck (p : Nat) (nak sleep : Bool) (b : Block) : Block :=
  let x := b.lport p
  b.emit (.ack p (x.rxSeq.getD 0) nak sleep x.rxSeq.isSome x.rxCredits)

/-- A frame is discarded (R479): the first one after a given ACK_SEQ is answered with a NAK. -/
def discardFrame (p : Nat) (crcBad : Bool) (b : Block) : Block :=
  let first := !(b.lport p).nakSent
  let b := b.updLport p fun x => { x with
    crcErrors := satInc x.crcErrors, unclean := x.unclean || crcBad || first, nakSent := true,
    naks := if first then satInc x.naks else x.naks }
  if first then sendAck p true false b else b

/-- The number of the next frame that a receiver accepts: after training the first is 0.
[DESIGN CHOICE, log entry 39] -/
def nextRx (x : LinkPort) : BitVec 8 :=
  match x.rxSeq with
  | some n => n + 1
  | none => 0

/-- A received link frame (R479). [DESIGN CHOICE, log entry 39] -/
def linkFrame (p : Nat) (seq : BitVec 8) (flits : List Byte) (crc : BitVec 32) (arrival : Nat) (b : Block) : Block :=
  let x := b.lport p
  if 6 ≤ p || !x.inTouch then b
  else
    let shape : Bool := flits.length % 64 == 0 && 64 ≤ flits.length && flits.length ≤ 256
    let good : Bool := shape && frameCrc seq flits == crc
    if !good || seq != nextRx x then discardFrame p (!good) b
    else
      let b := b.updLport p fun x => { x with rxSeq := some seq, nakSent := false }
      if x.state == .up then
        ((List.range (flits.length / 32)).map fun i => msgOf (bytesAt flits (32 * i) 32)).foldl
          (fun b m => receiveMsg p arrival m b) b
      else b

/-- LINK_FRAME. -/
def execLinkFrame (port : Nat) (seq : BitVec 8) (flits : List Byte) (crc : BitVec 32) (arrival : Nat) (s : State) :
    Host.Outcome State Fault Refusal :=
  .next (s.onAll (whereLocked port (frameBlocks seq flits crc) (linkFrame port seq flits crc arrival)))

/-- Resend the frames from the first that `sel` picks, those not yet resent (R481). -/
def resendFrom (p : Nat) (sel : SentFrame → Bool) (b : Block) : Block :=
  let x := b.lport p
  let late := x.unacked.dropWhile fun f => !sel f
  let early := x.unacked.takeWhile fun f => !sel f
  let again := late.filter fun f => !f.resent
  let b := b.updLport p fun x => { x with
    unacked := early ++ late.map fun f => { f with resent := true },
    retries := satAdd x.retries again.length, unclean := x.unclean || !again.isEmpty }
  again.foldl (fun b f => b.emit (.frame p f.seq f.flits (frameCrc f.seq f.flits))) b

/-- The messages of frames that a port drops unacknowledged are counted in its DROPS (R507, R513).
[DESIGN CHOICE, log entry 39] -/
def dropUnacked (p : Nat) (b : Block) : Block :=
  let n := ((b.lport p).unacked.map SentFrame.count).sum
  b.updWork fun w => { w with msgs := { w.msgs with drops := tblUpd 0 w.msgs.drops p fun x => satAdd x n } }

/-- A port whose partner goes to sleep is SLEEP (R507). -/
def partnerSleeps (p : Nat) (b : Block) : Block :=
  (dropUnacked p b).updLport p fun x => { x.fresh with state := .sleep }

/-- A received ACK block (R478, R481, R507). [DESIGN CHOICE, log entry 39] -/
def ackBlock (p : Nat) (ackSeq : BitVec 8) (nak sleep ackValid : Bool) (credits : BitVec 7) (b : Block) : Block :=
  let x := b.lport p
  if 6 ≤ p || !x.inTouch then b
  else if sleep then partnerSleeps p b
  else
    let b := b.updLport p fun x => { x with
      ackAt := b.now, unclean := x.unclean || decide (4000 < b.now - x.ackAt), partnerCredits := credits.toNat, partnerAck := if ackValid then some ackSeq else x.partnerAck,
      unacked := if ackValid then x.unacked.filter fun f => (ackSeq - f.seq).toNat ≥ 128 else x.unacked }
    if nak then resendFrom p (fun _ => true) (b.updLport p fun x => { x with unclean := true }) else b

/-- ACK_BLOCK. -/
def execAckBlock (port : Nat) (ackSeq : BitVec 8) (nak sleep ackValid : Bool) (credits : BitVec 7) (s : State) :
    Host.Outcome State Fault Refusal :=
  .next (s.onAll (whereLocked port [ackBlk ackSeq nak sleep ackValid credits.toNat]
    (ackBlock port ackSeq nak sleep ackValid credits)))

/-- An ACK block is due (R480). -/
def ackDue (p : Nat) (b : Block) : Block := if (b.lport p).inTouch then sendAck p false false b else b

/-- ACK_SEND_TIMER. -/
def execAckSendTimer (port : Nat) (s : State) : Host.Outcome State Fault Refusal := .next (s.onAll (ackDue port))

/-- 2 µs have passed since a frame's EOF (R481). -/
def ackLate (p : Nat) (seq : BitVec 8) (b : Block) : Block :=
  let x := b.lport p
  if x.inTouch && x.unacked.any (fun f => f.seq == seq && !f.resent) then resendFrom p (fun f => f.seq == seq) b else b

/-- ACK_TIMEOUT: an ACK block of the same control cycle holds (R511). -/
def execAckTimeout (port : Nat) (seq : BitVec 8) (s : State) : Host.Outcome State Fault Refusal :=
  .next (s.onWork fun _ w => w.later (.ackTimeout port seq))

/-- 2 µs have passed since a resent frame's EOF (R482). -/
def resendLate (p : Nat) (seq : BitVec 8) (b : Block) : Block :=
  let x := b.lport p
  if x.inTouch && x.unacked.any (fun f => f.seq == seq && f.resent) then loseNeighbour p St.linkDeadline b else b

/-- RESEND_TIMEOUT: an ACK block of the same control cycle holds. -/
def execResendTimeout (port : Nat) (seq : BitVec 8) (s : State) : Host.Outcome State Fault Refusal :=
  .next (s.onWork fun _ w => w.later (.resendTimeout port seq))

/-- 4 µs without an ACK block (R483). -/
def silence (p : Nat) (b : Block) : Block := if (b.lport p).inTouch then loseNeighbour p St.peerLost b else b

/-- SILENCE_TIMEOUT: the expiry of a resent frame in the same control cycle comes first (R511). -/
def execSilenceTimeout (port : Nat) (s : State) : Host.Outcome State Fault Refusal := .next (s.onWork fun _ w => w.later (.silence port))

/-! ### PROBATION (R486, R487) -/

/-- A clean beat in PROBATION: the eighth takes the port to UP. [DESIGN CHOICE, log entry 39] -/
def cleanBeat (p : Nat) (b : Block) : Block :=
  let x := b.lport p
  let locked := x.lane0.rxLock && x.lane1.rxLock && x.lane0.blockLock && x.lane1.blockLock
  if x.state != .probation || x.unclean || x.counted || !locked || decide (4000 < b.now - x.ackAt) then b
  else if 7 ≤ x.cleanBeats.toNat then
    framePortUp p (b.updLport p fun x => { x with state := .up, cleanBeats := 0, counted := true })
  else b.updLport p fun x => { x with cleanBeats := x.cleanBeats + 1, counted := true }

/-- CLEAN_BEAT. -/
def execCleanBeat (port : Nat) (s : State) : Host.Outcome State Fault Refusal := .next (s.onAll (cleanBeat port))

/-- A beat ends: one that was not counted as clean sets the count back (R486). -/
def LinkPort.beatOver (x : LinkPort) : LinkPort :=
  if x.state == .probation then
    { x with cleanBeats := if x.counted && !x.unclean then x.cleanBeats else 0, counted := false, unclean := false }
  else { x with counted := false, unclean := false }

/-- A frame of NULL messages in PROBATION (R486). -/
def nullFrame (p : Nat) (b : Block) : Block :=
  let x := b.lport p
  if x.state == .probation && x.window then sendFrame p 0 (flitsOf []) b else b

/-- PROBATION_NULL_FRAME. -/
def execProbationNullFrame (port : Nat) (s : State) : Host.Outcome State Fault Refusal := .next (s.onAll (nullFrame port))

/-- Without the message that stands at place `n` among those in transit for port `p`. -/
def dropTransit (p : Nat) : Nat → List Queued → List Queued
  | _, [] => []
  | n, x :: xs =>
    if x.port == p && x.transit then (if n = 0 then xs else x :: dropTransit p (n - 1) xs) else x :: dropTransit p n xs

/-- A message in transit has waited 4 µs for its port (R494): `index` is its place among those in transit there. -/
def transitLate (p index : Nat) (b : Block) : Block :=
  if index < (b.work.msgs.out.filter fun x => x.port == p && x.transit).length then
    b.updWork fun w => { w with msgs := ({ w.msgs with out := dropTransit p index w.msgs.out }).dropAt p }
  else b

/-- TRANSIT_TIMEOUT. -/
def execTransitTimeout (port index : Nat) (s : State) : Host.Outcome State Fault Refusal :=
  .next (s.onAll (transitLate port index))

/-! ### NOTICE (R483, R519) -/

/-- A neighbour that announces its reset is lost at once (R483). -/
def neighbourResets (c : Nat) (b : Block) : Block :=
  (List.range 6).foldl (fun b p =>
    let x := b.lport p
    if x.nbrValid && x.nbrChip.toNat == c && x.inTouch then loseNeighbour p St.peerLost b else b) b

/-- A NOTICE (R483, R519). -/
def noticeMsg (m : Msg) (b : Block) : Block :=
  let kind := m.field 8 1
  let subject := bitsOf (m.field 9 1) 5 0
  let reason : Status := BitVec.ofNat 16 (m.field 10 2)
  let src := m.src.toNat
  let b := if kind = 1 ∧ src = subject then neighbourResets subject b else b
  if b.frm.hasView then noticeView kind subject src reason b else b

/-- NOTICE. -/
def execNoticeMessage (s : State) : Host.Outcome State Fault Refusal :=
  .next (s.onAll (onMsgAll 0x02 fun _ _ m b => noticeMsg m b))

/-! ### Sleep and wake (R507 to R510) -/

/-- A port goes to sleep (R507): it says so, and powers its lanes down. [DESIGN CHOICE, log entry 39] -/
def sleepPort (p : Nat) (b : Block) : Block :=
  let x := b.lport p
  let b := if x.inTouch then sendAck p false true b else b
  (if x.state == .disabled then b else dropUnacked p b).updLport p fun x =>
    if x.state == .disabled then x
    else { x.fresh with state := .sleep, txIdle := true, pd := true, rstN := false, deskew := none,
                        rstWait := 0, lane0 := { rxLock := x.lane0.rxLock }, lane1 := { rxLock := x.lane1.rxLock } }

/-- A port sends the wake pattern and then trains; what waits for it waits on (R509). -/
def wakePort (p : Nat) (b : Block) : Block :=
  let q := b.work.msgs.out.filter fun x => x.port == p
  let b := b.updWork fun w => { w with msgs := { w.msgs with out := w.msgs.out.filter fun x => x.port != p } }
  let b := (startTrain p (b.emit (.wakePattern p))).updLport p fun x => { x with waking := true }
  b.updWork fun w => { w with msgs := { w.msgs with out := w.msgs.out ++ q } }

/-- WAKE (R509, R513). -/
def wakeOp (p : Nat) (b : Block) : Block := if p < 6 && tnlOn b && (b.lport p).state == .sleep then wakePort p b else b

/-- WAKE. -/
def execWake (port : Nat) (s : State) : Host.Outcome State Fault Refusal := .next (s.onAll (wakeOp port))

/-- Training after a wake has not reached step 7 in time (R509). -/
def wakeLate (p : Nat) (b : Block) : Block :=
  let x := b.lport p
  if x.waking && x.state == .training && x.step < 7 then loseNeighbour p St.peerLost b else b

/-- WAKE_WAIT_TIMEOUT. -/
def execWakeWaitTimeout (port : Nat) (s : State) : Host.Outcome State Fault Refusal := .next (s.onAll (wakeLate port))

/-- A sleeping port with messages waiting, other than a BEAT, wakes its neighbour once the ports are powered (R509, R620). -/
def wakeWaiting (b : Block) : Block :=
  if !tnlOn b then b
  else (List.range 6).foldl (fun b p =>
    if (b.lport p).state == .sleep && (portQueue b.work p).any (fun q => q.msg.typ != 0x01) then wakePort p b else b) b

end Sys2Proof.Machine
end

