-- ==== Sys2Proof/Machine/Power.lean ====
section
/-! DEFINITION. Power states (R617 to R626), voltage requests (R627 to R630), power failure and the Sill record (R631 to
R643), and the domains' switches (R100 to R102). -/

namespace Sys2Proof.Machine

/-- Change the power controller. -/
def Block.updPwr (b : Block) (f : Power → Power) : Block := { b with pwr := f b.pwr }

/-! ### Domains (R100 to R102) -/

/-- PSW_EN of a domain rises (R102). -/
def pswOn (d : Domain) (b : Block) : Block := b.updWork fun w => w.updSwitch d fun x => { x with on := true }

/-- ISO_EN of a domain rises, and then its switch falls (R102). -/
def pswOff (d : Domain) (b : Block) : Block := b.updWork fun w => w.updSwitch d fun _ => {}

/-- Whether a domain is switched on and acknowledged. -/
def domainUp (b : Block) (d : Domain) : Bool := (b.work.switch d).on && (b.work.switch d).ack

/-- The engine ports that are populated and not retired. -/
def livePorts (b : Block) : List Nat :=
  (List.range 16).filter fun p => (b.work.port p).present && (b.work.port p).state != .retired

/-- The Planer and the engines are switched off (R621 steps 2 and 3, R632 steps 2 and 3): the Kiln's contents are lost. -/
def arithOff (b : Block) : Block :=
  let b := (livePorts b).foldl (fun b p => pswOff (.eng p) b) (pswOff .pln b)
  b.updWork fun w => { w with pln := { w.pln with tables := [], headers := [] } }

/-- The Tenon ports are switched off: the lane layer goes with them (R647). -/
def tnlOff (b : Block) : Block :=
  let b := pswOff .tnl b
  { b with lnk := { b.lnk with ports := b.lnk.ports.map fun p => (p.1, { p.2 with
      deskew := none, lane0 := { p.2.lane0 with blockLock := false }, lane1 := { p.2.lane1 with blockLock := false } }) } }

/-- The switched-on domains of the arithmetic side (R622 step 2). -/
def arithOn (b : Block) : Block :=
  let b := pswOn .tnl (pswOn .pln b)
  (livePorts b).foldl (fun b p =>
    (pswOn (.eng p) b).updWork fun w => w.updPort p fun x => { x with state := .hardReset, hrstN := false, idle := false }) b

/-! ### Voltage requests (R628, R629) -/

/-- The number of a power state. -/
def PowerSt.code : PowerSt → Nat
  | .ps0 => 0
  | .ps1 => 1
  | .ps2 => 2
  | .ps3 => 3

/-- The voltage at which a rail stands: the target that the regulator last acknowledged. -/
def railNow (x : Power) (rail : Nat) : BitVec 16 := if rail = 0 then x.target0 else x.target1

/-- The voltage request of a rail. -/
def railReq (x : Power) (rail : Nat) : Option VoltReq := if rail = 0 then x.volt0 else x.volt1

/-- Set the voltage request of a rail. -/
def setRailReq (rail : Nat) (r : Option VoltReq) (x : Power) : Power :=
  if rail = 0 then { x with volt0 := r } else { x with volt1 := r }

/-- The voltage that a state asks of a rail (R641): zero changes nothing from PS0. -/
def railTarget (b : Block) (st : PowerSt) (rail : Nat) : BitVec 16 :=
  let v := b.dct.voltMv st.code rail
  let v := if v = 0 then b.dct.voltMv 0 rail else v
  if v = 0 then railNow b.pwr rail else BitVec.ofNat 16 v

/-- Write a voltage over AVSBus. -/
def writeAvs (rail : Nat) (mv : BitVec 16) (b : Block) : Block := b.emit (.avs (b.dct.railNumber rail) mv)

/-- Ask the regulator for a rail's voltage in a state (R628). -/
def requestVolt (st : PowerSt) (rail : Nat) (b : Block) : Block :=
  let t := railTarget b st rail
  let now := railNow b.pwr rail
  if t = now then b
  else
    writeAvs rail t (b.updPwr (setRailReq rail (some { target := t, previous := now, retry := false, raising := now < t, failed := false })))

/-- Ask for both rails. -/
def requestVolts (st : PowerSt) (b : Block) : Block := requestVolt st 1 (requestVolt st 0 b)

/-- Whether no voltage request is under way. -/
def voltsDone (b : Block) : Bool := b.pwr.volt0.isNone && b.pwr.volt1.isNone

/-! ### The Sill record (R633 to R636) -/

/-- Whether a tile has ended with tile done and its commit has not had its last write answered (R633).
[DEDUCED, log entry 42] -/
def tileOpen (w : Work) (t : Tile) : Bool :=
  t.state == .committing && !(w.pln.commits.any fun p => match p.2 with
    | some j => j.cmd == t.cmd && j.tile == t.index && j.done
    | none => false)

/-- COMMIT_BEAT (R633, R661). [DEDUCED, log entry 42] -/
def commitBeat (b : Block) : Nat :=
  let openBeats := (b.work.tiles.filter (tileOpen b.work)).map Tile.doneBeat
  if !b.st.done then 0
  else match openBeats with
    | [] => b.clk.beat.toNat
    | x :: xs => xs.foldl min x - 1

/-- A slice's entry (R635). -/
def sillSlice (b : Block) (s : Nat) : List Byte :=
  let x := b.work.slice s
  if x.state == .off then leBytes 48 0
  else
    let ix (k : Nat) : Nat := let i := b.dct.sillFence s k; if i < x.fenceCount then i else 0xFFFF
    let fence (k : Nat) : Fence := if ix k = 0xFFFF then {} else b.work.fence s (ix k)
    leBytes 1 x.state.code ++ leBytes 3 0 ++ leBytes 4 x.applied.toNat ++
      ((List.range 3).flatMap fun k => leBytes 8 (fence k).value.toNat) ++ ((List.range 3).flatMap fun k => leBytes 2 (ix k)) ++
      ((List.range 3).flatMap fun k => leBytes 2 (fence k).err.toNat) ++ leBytes 4 0

/-- A word with a bit for each slice. -/
def sliceBits (p : Nat → Bool) : Nat := (List.range 64).foldl (fun m s => if p s then m + 2 ^ s else m) 0

/-- IN_FRAME of R634. -/
def inFrame (b : Block) : Bool := b.frm.viewed

/-- Bytes 0 to 4,091 of the record (R634). -/
def sillBody (b : Block) (seq : Nat) (reason : Status) (rest : Bool) : List Byte :=
  bytesAt (leBytes 4 0x4C4C4953 ++ leBytes 2 1 ++ leBytes 2 0x0203 ++ leBytes 8 seq ++ leBytes 2 reason.toNat ++
    leBytes 1 b.dct.chipNum ++ leBytes 1 ((if inFrame b then 1 else 0) + (if rest then 2 else 0)) ++ leBytes 2 b.frm.epoch.toNat ++
    leBytes 2 0 ++ leBytes 8 (commitBeat b) ++ leBytes 8 b.clk.beat.toNat ++ leBytes 8 (timeNs b) ++
    leBytes 8 (sliceBits fun s => (b.work.slice s).state != .off) ++ leBytes 8 (sliceBits fun s => b.dct.posMirror s != 0) ++
    leBytes 192 0 ++ ((List.range 64).flatMap fun s => sillSlice b s)) 0 4092

/-- The slot and the number of the next record (R636): `true` is slot B. -/
def nextSill (x : Power) : Bool × Nat :=
  match x.sillSlotA, x.sillSlotB with
  | none, none => (false, 1)
  | some a, none => (true, a.1.toNat + 1)
  | none, some c => (false, c.1.toNat + 1)
  | some a, some c => if c.1 < a.1 then (true, a.1.toNat + 1) else (false, c.1.toNat + 1)

/-- The mode of the store port (R107): the one that STORE_MODE and STORE_MHZ set, once they have been loaded. -/
def Block.storeMode (b : Block) : Option (Nat × Nat) :=
  if b.st.loaded then some (b.dct.at 0x6004 0 0, b.dct.at 0x6005 0 25) else none

/-- A read of the store in its mode (R107). -/
def Block.storeRead (b : Block) (a len : Nat) : Output :=
  .storeRead b.storeMode (if ((b.storeMode.map Prod.fst).getD 0) = 0 then some 0x03 else none) a len

/-- Begin the write of a record (R636). -/
def startSill (why : SillWhy) (reason : Status) (b : Block) : Block :=
  let n := nextSill b.pwr
  let body := sillBody b n.2 reason (decide (why = .rest))
  let bytes := body ++ leBytes 4 (crc32 body).toNat
  (b.updPwr fun x => { x with sillBusy := some (why, n.1, bytes) }).emit (.store b.storeMode (if n.1 then 0x1000 else 0) bytes)

/-! ### Transitions (R618 to R626) -/

/-- R620: in a frame, neither the manager nor the standby, and no child port. -/
def mayDrowse (b : Block) : Bool :=
  let s := b.frm.state
  let framed : Bool := s == .listening || b.frm.viewed
  !framed || (!isMgr b && b.dct.standbyChip != b.dct.chipNum && (!b.frm.viewed || (childPorts b).isEmpty))

/-- Whether a domain is in reset (R569). -/
def domainInReset (w : Work) : Bool :=
  w.pln.inReset || w.pln.engineDomain || w.jnr.state == .reset ||
    ((List.range 16).any fun p => (w.port p).state == .softReset || (w.port p).state == .hardReset) ||
    w.cmds.any fun c => c.op == some .domainReset && c.phase == .running

/-- The conditions of GO_PS2 (R619). -/
def mayPs2 (b : Block) : Bool :=
  !(b.work.cmds.any fun c => c.op == some .exec && c.isReleased) && b.work.tiles.isEmpty &&
    b.work.pln.commitQ.isEmpty && !(b.work.pln.commits.any fun p => p.2.isSome) && !domainInReset b.work &&
    b.work.cap.busy.isNone && mayDrowse b

/-- The conditions of GO_PS3 (R619, R649). -/
def mayPs3 (b : Block) : Bool :=
  mayPs2 b && (b.work.slices.all fun p => p.2.state == .off) && !b.work.admin.enable && !b.st.bistRetention

/-- A request of PWR_CTL is refused (R619). -/
def refusePower (b : Block) : Block := b.updPwr fun x => { x with lastStatus := St.stateReject }

/-- An entry is accepted (R619): it begins at the end of the control cycle (R643). [DESIGN CHOICE, log entry 44] -/
def acceptEntry (target : PowerSt) (b : Block) : Block :=
  b.updPwr fun x => { x with transition := some target, stage := 0, lastStatus := St.ok, wakeLate := none }

/-- An entry that was accepted in the control cycle begins (R621 steps 1 to 5): the Planer, the engines and the Tenon ports are
switched off. Where an EXEC has been released since, the request is refused (R643). [DESIGN CHOICE, log entry 44] -/
def entryBegins (b : Block) : Block :=
  if (b.pwr.transition != some .ps2 && b.pwr.transition != some .ps3) || b.pwr.stage != 0 then b
  else if b.work.cmds.any fun c => c.op == some .exec && c.isReleased then
    refusePower (b.updPwr fun x => { x with transition := none, wakeLate := none })
  else
    let b := arithOff b
    let b := tnlOff ((List.range 6).foldl (fun b p => sleepPort p b) b)
    requestVolts .ps2 (b.updPwr fun x => { x with stage := 1 })

/-- An exit begins (R622, R624), with the row of R625 that woke the block. -/
def beginExit (src : Nat) (b : Block) : Block :=
  let b := b.updPwr fun x => { x with transition := some .ps0, stage := 1, wakeSrc := BitVec.ofNat 8 src, wakeLate := none }
  if b.pwr.state = .ps3 then b.updWork fun w => w.updFab fun f => { f with clkReq := true }
  else requestVolts .ps0 b

/-- A wake source (R625, R626): during an entry it is kept for its end. [DESIGN CHOICE, log entry 44] -/
def wake (src : Nat) (b : Block) : Block :=
  match b.pwr.transition with
  | some .ps0 => b
  | some _ => b.updPwr fun x => { x with wakeLate := some (x.wakeLate.getD (BitVec.ofNat 8 src)) }
  | none => if b.pwr.state = .ps2 ∨ b.pwr.state = .ps3 then beginExit src b else b

/-- An entry has come to its end (R621 step 6, R626). -/
def entryOver (st : PowerSt) (b : Block) : Block :=
  let late := b.pwr.wakeLate
  let b := b.updPwr fun x => { x with state := st, transition := none, stage := 0, wakeLate := none }
  match late with
  | some src => beginExit src.toNat b
  | none => b

/-- The last steps before PS3 (R623 steps 2 to 4). -/
def restRetain (b : Block) : Block :=
  let b := b.updPwr fun x => { x with
    retention := some b.work.jnr.image, retDict := (b.dct.setPar 0x2001 0 b.clk.quarters.toNat).vals, restView := some (b.frm.admitted, b.frm.excl, b.frm.down), stage := 3 }
  requestVolts .ps3 (pswOff .ctl b)

/-- The ports that slept train, once the block is in PS0 again (R510, R622 step 5); one for which messages wait sends the wake
pattern first, and keeps them (R509). -/
def trainSlept (b : Block) : Block :=
  (List.range 6).foldl (fun b p =>
    if (b.lport p).state != .sleep then b
    else if (portQueue b.work p).any fun q => q.msg.typ != 0x01 then wakePort p b
    else startTrain p b) b

/-- A transition goes on as far as it can. -/
def powerAdvance (b : Block) : Block :=
  let x := b.pwr
  match x.transition with
  | none => b
  | some .ps1 => b
  | some .ps2 => if x.stage = 1 && voltsDone b then entryOver .ps2 b else b
  | some .ps3 =>
    if x.stage = 0 then b
    else if x.stage = 1 then
      if voltsDone b then
        if b.dct.sillCapable then startSill .rest St.ok (b.updPwr fun x => { x with stage := 2 }) else restRetain b
      else b
    else if x.stage = 2 then if x.sillBusy.isNone then restRetain b else b
    else if voltsDone b then
      entryOver .ps3 (b.updWork fun w => w.updFab fun f => { f with clkReq := false, clkOk := false })
    else b
  | some .ps0 =>
    if x.state = .ps3 then
      if x.stage = 1 then
        if b.work.fab.clkOk then requestVolts .ps0 (b.updPwr fun x => { x with stage := 2 }) else b
      else if x.stage = 2 then if voltsDone b then pswOn .ctl (b.updPwr fun x => { x with stage := 3 }) else b
      else b
    else if x.stage = 1 then
      if voltsDone b then arithOn (b.updPwr fun x => { x with stage := 2 }) else b
    else if domainUp b .pln && domainUp b .tnl && !((List.range 16).any fun p => (b.work.port p).state == .hardReset) then
      trainSlept (b.updPwr fun x => { x with state := .ps0, transition := none, stage := 0 })
    else b

/-- GO_PS0 (R619, R625): in PS0 and PS1 it changes nothing. -/
def goPs0 (b : Block) : Block :=
  if b.pwr.transition.isNone && (b.pwr.state == .ps0 || b.pwr.state == .ps1) then b
  else powerAdvance (wake 7 (b.updPwr fun x => { x with lastStatus := St.ok }))

/-- GO_PS0. -/
def execGoPs0 (s : State) : Host.Outcome State Fault Refusal := .next (s.onAll goPs0)

/-- GO_PS2 (R619). [DESIGN CHOICE, log entry 44] -/
def goPs2 (b : Block) : Block :=
  if b.pwr.transition.isSome || b.pwr.state == .ps2 || !mayPs2 b then refusePower b else acceptEntry .ps2 b

/-- GO_PS2. -/
def execGoPs2 (s : State) : Host.Outcome State Fault Refusal := .next (s.onAll goPs2)

/-- GO_PS3 (R619). [DESIGN CHOICE, log entry 44] -/
def goPs3 (b : Block) : Block :=
  if b.pwr.transition.isSome || !mayPs3 b then refusePower b else acceptEntry .ps3 b

/-- GO_PS3. -/
def execGoPs3 (s : State) : Host.Outcome State Fault Refusal := .next (s.onAll goPs3)

/-- A test record is written where the product has the store and no record is under way (R109, R642). [DESIGN CHOICE, log entry 44] -/
def startTest (b : Block) : Block :=
  if b.dct.sillCapable && b.pwr.sillBusy.isNone then startSill .test St.ok b else b

/-- PS1_IDLE_CYCLES have passed without work (R618). -/
def enterPs1 (b : Block) : Block :=
  let busy : Bool := (b.work.tiles.any fun t => t.state == .running || t.state == .offered || t.state == .staging) ||
    (b.work.pln.lanes.any fun p => p.2.isSome) || b.work.pln.commits.any fun p => p.2.isSome
  if b.pwr.state = .ps0 ∧ b.pwr.transition.isNone ∧ !busy then b.updPwr fun x => { x with state := .ps1 } else b

/-- PS1_IDLE_TIMEOUT. -/
def execPs1IdleTimeout (s : State) : Host.Outcome State Fault Refusal := .next (s.onAll enterPs1)

/-- A staging request in PS1 (R618). [DESIGN CHOICE, log entry 44] -/
def leavePs1 (b : Block) : Block := if b.pwr.state = .ps1 then b.updPwr fun x => { x with state := .ps0 } else b

/-- PS1_EXIT. -/
def execPs1Exit (s : State) : Host.Outcome State Fault Refusal := .next (s.onAll leavePs1)

/-- WAKE_AFTER_MS have passed since entry (R625). -/
def wakeAfter (b : Block) : Block := if b.dct.wakeAfterMs = 0 then b else powerAdvance (wake 8 b)

/-- WAKE_AFTER_TIMEOUT. -/
def execWakeAfterTimeout (s : State) : Host.Outcome State Fault Refusal := .next (s.onAon wakeAfter)

/-- The exit from PS3 ends in a full block reset with a warm start, once CTL is powered (R624). -/
def ps3Exit (b : Block) : Block :=
  if b.pwr.state = .ps3 ∧ b.pwr.transition = some .ps0 ∧ b.pwr.stage = 3 ∧ domainUp b .ctl then requestReset 4 b else b

/-- PS3_EXIT. -/
def execPs3Exit (s : State) : Host.Outcome State Fault Refusal := .next (s.onAon ps3Exit)

/-- What wakes a block in PS2 of itself (R625): work for the engines, or a message for a sleeping port. -/
def selfWake (b : Block) : Block :=
  if b.pwr.state != .ps2 && b.pwr.transition.isNone then b
  else if b.work.cmds.any fun c => c.op == some .exec && c.isReleased then wake 1 b
  else if (List.range 6).any fun p => (b.lport p).state == .sleep && (portQueue b.work p).any fun q => q.msg.typ != 0x01 then wake 4 b
  else b

/-- The wake detector of a lane counts the rising edges of a window of 10 ns (R508); the last 100 windows are 1 µs.
[DEDUCED, log entry 66] -/
def Lane.window (l : Lane) (n : Nat) : Lane :=
  { l with tone := if n = 1 ∨ n = 2 then l.tone + 1 else 0, windows := (n :: l.windows).take 100 }

/-- Whether the detector of a lane reports (R508): WAKE, or ACTIVITY by edges outside a tone that may still become a WAKE.
[DEDUCED, log entry 66] -/
def Lane.reports (l : Lane) : Bool := decide (16 ≤ l.tone) || decide (4 ≤ (l.windows.drop l.tone).sum)

/-- The detectors of both lanes through some windows, and whether either has reported. [DEDUCED, log entry 66] -/
def LinkPort.sense (x : LinkPort) : List (Nat × Nat) → LinkPort × Bool
  | [] => (x, false)
  | e :: es =>
    let y := { x with lane0 := x.lane0.window e.1, lane1 := x.lane1.window e.2 }
    let r := y.sense es
    (r.1, y.lane0.reports || y.lane1.reports || r.2)

/-- A report of a wake detector wakes the block and its port (R508, R510). -/
def wakeReport (p : Nat) (b : Block) : Block :=
  if b.pwr.state = .ps0 ∨ b.pwr.state = .ps1 then
    if b.pwr.transition.isNone && tnlOn b then startTrain p b else wake 3 b
  else powerAdvance (wake 3 b)

/-- The wake detectors of a sleeping port count the rising edges of RX_SIGRAW in windows, for lanes 0 and 1 (R508); at another port
they are not armed (R511). -/
def wakeDetect (p : Nat) (edges : List (Nat × Nat)) (b : Block) : Block :=
  if (b.lport p).state != .sleep then b
  else
    let r := (b.lport p).sense edges
    let b := b.updLport p fun _ => r.1
    if r.2 then wakeReport p b else b

/-- WAKE_DETECT. -/
def execWakeDetect (port : Nat) (edges : List (Nat × Nat)) (s : State) : Host.Outcome State Fault Refusal :=
  .next (s.onAon (wakeDetect port edges))

/-- FN_WAKE_REQ (R66, R625): ignored while CLK_REQ is 1. -/
def fnWake (b : Block) : Block :=
  if b.work.fab.clkReq then b
  else powerAdvance (wake 2 (b.updWork fun w => w.updFab fun f => { f with wakeReq := true }))

/-- FN_WAKE_REQ. -/
def execFnWakeReq (s : State) : Host.Outcome State Fault Refusal := .next (s.onAon fnWake)

/-! ### Voltages as they are read back (R628, R629) -/

/-- A rail is read back (R628). -/
def readback (rail : Nat) (mv : BitVec 16) (b : Block) : Block :=
  if 2 ≤ rail then b
  else
    let b := b.updPwr fun x => if rail = 0 then { x with read0 := mv } else { x with read1 := mv }
    match railReq b.pwr rail with
    | none => b
    | some r =>
      if !r.failed && max mv.toNat r.target.toNat - min mv.toNat r.target.toNat ≤ b.dct.voltTol then
        powerAdvance ((b.updPwr fun x =>
          let x := setRailReq rail none x
          if rail = 0 then { x with target0 := r.target } else { x with target1 := r.target }).updWork (withdrawLate (.voltage rail)))
      else b

/-- VOLTAGE_READBACK. -/
def execVoltageReadback (rail : Nat) (millivolts : BitVec 16) (s : State) : Host.Outcome State Fault Refusal :=
  .next (s.onAon (readback rail millivolts))

/-- A request is not acknowledged in 50 µs (R629): a failed raising is tried once more, unless a start goes on (R661). -/
def voltageLate (rail : Nat) (b : Block) : Block :=
  match railReq b.pwr rail with
  | none => b
  | some r =>
    if 2 ≤ rail || r.failed then b
    else
      let b := writeAvs rail r.previous b
      let b := b.updPwr fun x => { setRailReq rail none x with voltFail := true, lastStatus := St.voltageNack }
      let b := b.updWork fun w => (w.sets .power (setBit 0 9)).raise (vecAdmin 5)
      if !r.raising || !b.st.done then powerAdvance b
      else if !r.retry then b.updPwr (setRailReq rail (some { r with failed := true }))
      else b.updPwr fun x => { x with transition := none, stage := 0, volt0 := none, volt1 := none }

/-- VOLTAGE_TIMEOUT: an acknowledgement in the same control cycle holds (R643). [DESIGN CHOICE, log entry 5] -/
def execVoltageTimeout (rail : Nat) (s : State) : Host.Outcome State Fault Refusal :=
  .next (s.onAon fun b => b.updWork fun w => w.later (.voltage rail))

/-- 1 ms after a failed raising (R629). -/
def voltageAgain (rail : Nat) (b : Block) : Block :=
  match railReq b.pwr rail with
  | none => b
  | some r =>
    if 2 ≤ rail || !r.failed then b
    else writeAvs rail r.target (b.updPwr (setRailReq rail (some { r with failed := false, retry := true })))

/-- VOLTAGE_RETRY_TIMER. -/
def execVoltageRetryTimer (rail : Nat) (s : State) : Host.Outcome State Fault Refusal := .next (s.onAon (voltageAgain rail))

/-- PSW_ACK of a domain rises (R102): the domain is reset, and its isolation falls; an engine's stays up until it shows
ENGn_IDLE (R92, R622). -/
def pswAcked (d : Domain) (b : Block) : Block :=
  if !(b.work.switch d).on || (b.work.switch d).ack then b
  else
    let b := b.updWork fun w => w.updSwitch d fun x => { x with ack := true }
    match d with
    | .eng p =>
      if (b.work.port p).state == .hardReset then
        b.updWork fun w => (w.updPort p fun x => { x with hrstN := false, hrstWait := hrstCycles, idle := false }).emit (.hardReset p)
      else b
    | _ => b.updWork fun w => w.updSwitch d fun x => { x with iso := false }

/-- PSW_ACK. -/
def execPswAck (domain : Domain) (s : State) : Host.Outcome State Fault Refusal :=
  .next (s.onAon fun b => powerAdvance (pswAcked domain b))

/-- CLK_OK rises (R55). -/
def clkOkRose (b : Block) : Block := powerAdvance (b.updWork fun w => w.updFab fun f => { f with clkOk := true })

/-- CLK_OK_RISE. -/
def execClkOkRise (s : State) : Host.Outcome State Fault Refusal := .next (s.onAon clkOkRose)

/-! ### Power failure (R631, R632, R639, R640) -/

/-- CTL is switched off and the clocks are given up (R632 step 8). -/
def ctlOff (b : Block) : Block :=
  (pswOff .ctl b).updWork fun w => w.updFab fun f => { f with clkReq := false, clkOk := false }

/-- The freeze (R631, R632): where CTL is not powered nothing is written, and a transition stops where it stands (R640); a start goes
no further (R661). -/
def freeze (reason : Status) (b : Block) : Block :=
  if b.pwr.frozen || b.st.inPor then b
  else if !domainUp b .ctl && b.st.done then b.updPwr fun x => { x with transition := none, stage := 0, volt0 := none, volt1 := none }
  else
    let b := pump (b.updWork (sendNotice b 1 (b.dct.chipNum % 64) reason))
    let b := b.updPwr fun x => { x with
      frozen := true, freezeReason := reason, freezeBeat := b.clk.beat, transition := none, stage := 0, volt0 := none, volt1 := none }
    let b := if b.dct.sillCapable && b.st.loaded then startSill .freeze reason b else b
    let b := tnlOff (arithOff b)
    if b.pwr.sillBusy.any fun x => x.1 == .freeze then b else ctlOff b

/-- PWRFAIL_N has been high for 1 ms after a freeze (R639): a full block reset follows, once the record is written. -/
def pwrfailRose (b : Block) : Block :=
  if !b.pwr.pwrfailLow then b
  else
    let b := b.updPwr fun x => { x with pwrfailLow := false }
    if !b.pwr.frozen then b
    else if b.pwr.sillBusy.isSome then b.updPwr fun x => { x with sillWaits := true }
    else requestReset 5 b

/-- PWRFAIL_N_RISE. -/
def execPwrfailNRise (s : State) : Host.Outcome State Fault Refusal := .next (s.on pwrfailRose)

/-- The last byte of a Sill record is written (R632 steps 7 and 8, R636, R642). -/
def sillWritten (b : Block) : Block :=
  match b.pwr.sillBusy with
  | none => b
  | some (why, slotB, bytes) =>
    let entry : Option (BitVec 64 × List Byte) := some (BitVec.ofNat 64 (fieldAt bytes 8 8), bytes)
    let b := b.updPwr fun x => { x with
      sillBusy := none, sillDone := true, sillSlotA := if slotB then x.sillSlotA else entry,
      sillSlotB := if slotB then entry else x.sillSlotB }
    let b := b.updWork fun w => w.sets .power (setBit 0 10)
    match why with
    | .test => b.updWork fun w => w.raise (vecAdmin 5)
    | .rest => powerAdvance b
    | .freeze => if b.pwr.sillWaits then requestReset 5 (ctlOff b) else ctlOff b

/-- SILL_WRITE_DONE. -/
def execSillWriteDone (s : State) : Host.Outcome State Fault Refusal := .next (s.on sillWritten)

/-- The regulator's telemetry (R630): where the packet error check of a read fails, the value of the last poll stands (R103).
[DESIGN CHOICE, log entry 43] -/
def telemetry (vinMv ioutMa tempC : Option (BitVec 32)) (b : Block) : Block :=
  b.updPwr fun x => { x with vin := vinMv.getD x.vin, iout := ioutMa.getD x.iout, temp := tempC.getD x.temp }

/-- VR_TELEMETRY_POLL. -/
def execVrTelemetryPoll (vinMv ioutMa tempC : Option (BitVec 32)) (s : State) : Host.Outcome State Fault Refusal :=
  .next (s.onAon (telemetry vinMv ioutMa tempC))

end Sys2Proof.Machine
end

