-- ==== Sys2Proof/Machine/Values.lean ====
section
/-! DEFINITION. The values of the dictionary's parameters: the start registers and the identity (R658 to R662), what a read
of each parameter returns (R680 to R689), the ranges that span parameters (R671), and the persistent store (R677 to R679). -/

namespace Sys2Proof.Machine

/-! ### The start registers (R662) -/

/-- Time in whole microseconds, held at 32 bits (R662). -/
def sat32 (n : Nat) : Nat := min n (2 ^ 32 - 1)

/-- HOST_WAIT_US. -/
def hostWaitUs (b : Block) : Nat := sat32 (b.st.hostWait * 1000 / b.dct.cclkKhz)

/-- ELAPSED_US: to completion, or to now (R662). -/
def elapsedUs (b : Block) : Nat := if b.st.done then b.st.elapsedUs.toNat else sat32 (b.clk.cycle * 1000 / b.dct.cclkKhz)

/-- A bit as a number. -/
def bit (x : Bool) : Nat := if x then 1 else 0

/-- ADM_START_STATUS. -/
def startStatus (x : Start) : BitVec 64 := BitVec.ofNat 64
  (2 ^ 48 * x.lastFail.toNat + 2 ^ 40 * x.warmFails.toNat + 2 ^ 32 * x.step.toNat + 2 ^ 28 * bit x.warm + 2 ^ 24 * x.cause.toNat +
    2 ^ 23 * bit x.done + 2 ^ 22 * bit x.halted + 2 ^ 21 * bit x.dictDefaulted + 2 ^ 20 * bit x.fromRetention + 2 ^ 19 * bit x.fwRetained)

/-- ADM_START_TIME. -/
def startTime (b : Block) : BitVec 64 := BitVec.ofNat 64 (2 ^ 32 * hostWaitUs b + elapsedUs b)

/-- ADM_BIST. -/
def bistWord (x : Start) : BitVec 64 := BitVec.ofNat 64
  (2 ^ 48 * x.bistPorts.toNat + 2 ^ 34 * bit x.bistRetention + 2 ^ 33 * bit x.bistKiln + 2 ^ 32 * bit x.bistCtl + x.bistCores.toNat)

/-! ### Identity (R658 to R660) -/

/-- A text as bytes. -/
def textBytes (s : List Char) : List Byte := s.map fun c => BitVec.ofNat 8 c.toNat

/-- The alphabet of R659. -/
def lotAlphabet : List Char := "0123456789ABCDEFGHJKMNPQRSTVWXYZ".toList

/-- LOT_TEXT (R659). -/
def lotText (x : Start) : List Char :=
  (List.range 8).map fun k => lotAlphabet.getD (bitsOf x.lot.toNat (39 - 5 * k) (35 - 5 * k)) '0'

/-- A digit. -/
def digit (n : Nat) : Char := Char.ofNat (48 + n % 10)

/-- Decimal digits of a number below 1,000 without leading zeros. -/
def digits (n : Nat) : List Char :=
  (if n ≥ 100 then [digit (n / 100)] else []) ++ (if n ≥ 10 then [digit (n / 10)] else []) ++ [digit n]

/-- A die coordinate as a sign and digits (R660). -/
def signed (v : BitVec 8) : List Char := if v.toInt < 0 then '-' :: digits v.toInt.natAbs else '+' :: digits v.toNat

/-- DIE_NAME (R660). -/
def dieName (x : Start) : List Char :=
  lotText x ++ ['-', digit (x.wafer.toNat / 10), digit x.wafer.toNat, ':'] ++ signed x.dieX ++ [','] ++ signed x.dieY

/-! ### What a read returns (R667, R680 to R689) -/

/-- The dictionary with BEAT_QUARTERS at its value of ADM_BEAT_CFG, the same field (R681). -/
def Block.dictNow (b : Block) : Dict := b.dct.setPar 0x2001 0 b.clk.quarters.toNat

/-- The guard counts that tracker `k` of slice `s` publishes (R410): zeroes for a handle that fails R221. -/
def tracked (b : Block) (s k : Nat) : Guards :=
  let h := b.dct.trackHandle s k
  if handleLive b.work s h then (b.work.obj (hIndex h)).guards else {}

/-- Count `f` of a tracker (R684). -/
def guardCount (g : Guards) : Nat → Nat
  | 0 => g.codes.toNat
  | 1 => g.clipped.toNat
  | 2 => g.escGroups.toNat
  | 3 => g.escDenied.toNat
  | 4 => g.nan.toNat
  | 5 => g.inf.toNat
  | _ => g.amax.toNat

/-- The newer of the two Sill slots (R636). -/
def sillNewest (x : Power) : List Byte :=
  match x.sillSlotA, x.sillSlotB with
  | none, none => []
  | some a, none => a.2
  | none, some c => c.2
  | some a, some c => if c.1 < a.1 then a.2 else c.2

/-- The size of CTX_RECORDS of slice `s` (R688). -/
def ctxRecordsSize (b : Block) (s : Nat) : Nat := 32 * 2 ^ (b.work.slice s).ctxLog2.toNat

/-- The current size of a parameter: of a string its length (R664, R670). -/
def parSize (b : Block) (r : PRow) (i : Nat) : Nat :=
  if i = 0x1001 then 8
  else if i = 0x1007 then (dieName b.st).length
  else if 0x8040 ≤ i ∧ i < 0x8080 then ctxRecordsSize b (i - 0x8040)
  else r.ty.size

/-- The value of a scalar parameter as a number. -/
def parNat (b : Block) (i j : Nat) : Nat :=
  let x := b.st
  match i with
  | 0x1000 => x.lot.toNat
  | 0x1002 => x.wafer.toNat
  | 0x1003 => (x.dieX.signExtend 32).toNat
  | 0x1004 => (x.dieY.signExtend 32).toNat
  | 0x1005 => x.licensee.toNat
  | 0x1006 => x.integration.toNat
  | 0x1008 => bit x.fuseFault
  | 0x1013 => if b.work.jnr.state = .running then b.work.jnr.fwVersion.toNat else 0
  | 0x1014 => (startStatus x).toNat
  | 0x5016 => b.frm.hash.toNat
  | 0x7000 => b.work.objHits.toNat
  | 0x7001 => b.work.objMisses.toNat
  | 0x7002 => (b.work.slice j).watchDrops.toNat
  | 0x7010 => b.pwr.vin.toNat
  | 0x7011 => b.pwr.iout.toNat
  | 0x7012 => b.pwr.temp.toNat
  | 0x7013 => b.pwr.warnings.toNat
  | 0x7020 => b.dct.skipped.toNat
  | 0x7021 => b.dct.requests.toNat
  | 0x7022 => b.dct.discarded.toNat
  | _ =>
    if 0x4100 ≤ i ∧ i < 0x4140 ∧ 0x20 ≤ j then guardCount (tracked b (i - 0x4100) ((j - 0x20) / 8)) ((j - 0x20) % 8)
    else if 0x8000 ≤ i ∧ i < 0x8040 then (tblGet 0 (b.work.slice (i - 0x8000)).counts j).toNat
    else b.dictNow.par i j

/-- The bytes of a parameter, but for CTX_RECORDS. -/
def parBytes (b : Block) (r : PRow) (i j : Nat) : List Byte :=
  if i = 0x1001 then textBytes (lotText b.st)
  else if i = 0x1007 then textBytes (dieName b.st)
  else if i = 0x6008 then bytesAt b.dct.sillRecord 0 4096
  else leBytes r.ty.size (parNat b i j)

/-! ### Ranges (R671 order 6) -/

/-- A sum over the first `n` elements of an array parameter. -/
def sumTo (n : Nat) (f : Nat → Nat) : Nat := ((List.range n).map f).sum

/-- The rules that span parameters, over the dictionary as it would become (R242, R298, R393, R686). -/
def crossOk (present : BitVec 16) (d : Dict) (i : Nat) : Bool :=
  match i with
  | 0x3004 => sumTo 64 d.streamQuota ≤ 16384
  | 0x3006 => sumTo 64 d.fenceCount ≤ 65536
  | 0x3007 => sumTo 64 d.semCount ≤ 4096
  | 0x3008 => sumTo 64 d.watchCount ≤ 8192
  | 0x4001 => sumTo 16 (fun p => if present.getLsbD p then d.kilnMib p else 0) ≤ 64
  | 0x6004 => d.at 0x6005 0 25 ≤ if d.at 0x6004 0 0 = 0 then 50 else 200
  | 0x6005 => d.at 0x6005 0 25 ≤ if d.at 0x6004 0 0 = 0 then 50 else 200
  | _ => true

/-- Whether a value lies within the range of a parameter, the rules that span parameters included (R671 order 6). -/
def valueOk (present : BitVec 16) (d : Dict) (r : PRow) (i j v : Nat) : Bool :=
  decide (v < 256 ^ r.ty.size) && (r.ty != .bool || decide (v ≤ 1)) && r.range.admits v && crossOk present (d.setPar i j v) i

/-! ### The persistent store (R677 to R679) -/

/-- Where a half stands in the store. -/
def halfBase (second : Bool) : Nat := if second then 0x18000 else 0x10000

/-- The 32,768 bytes of a half. -/
def halfOfStore (store : List Byte) (second : Bool) : List Byte := bytesAt store (halfBase second) 32768

/-- A half with its CRC field taken as zero. -/
def withoutCrc (h : List Byte) (len : Nat) : List Byte := bytesAt h 0 28 ++ leBytes 4 0 ++ bytesAt h 32 (len - 32)

/-- The SEQ of a half, none where it is not valid (R678). -/
def halfSeq (h : List Byte) : Option (BitVec 32) :=
  let len := fieldAt h 12 4
  if fieldAt h 0 4 = 0x54434944 ∧ fieldAt h 4 2 = 1 ∧ 32 ≤ len ∧ len ≤ 32768 ∧
      (crc32 (withoutCrc h len)).toNat = fieldAt h 28 4 then some (BitVec.ofNat 32 (fieldAt h 8 4))
  else none

/-- Whether SEQ `a` is newer than `c` (R678). -/
def seqNewer (a c : BitVec 32) : Bool := let d := (a - c).toNat; decide (1 ≤ d ∧ d ≤ 2 ^ 31 - 1)

/-- The half that holds the newer valid record: true is half B (R678). -/
def newerHalf (a c : Option (BitVec 32)) : Option Bool :=
  match a, c with
  | none, none => none
  | some _, none => some false
  | none, some _ => some true
  | some x, some y => some (seqNewer y x)

/-- The values taken from the store, with the entries skipped. -/
structure Loaded where
  dct : Dict
  skipped : Nat

/-- One entry of a half (R679). -/
def loadEntry (present : BitVec 16) (i j ty v : Nat) (a : Loaded) : Loaded :=
  match paramRow i j with
  | some r =>
    if r.pers && r.ty.code == ty && valueOk present a.dct r i j v then { a with dct := a.dct.setPar i j v }
    else { a with skipped := a.skipped + 1 }
  | none => { a with skipped := a.skipped + 1 }

/-- The entries of a half in order: `n` of them, from a byte (R677). -/
def loadEntries (present : BitVec 16) (h : List Byte) : Nat → Nat → Loaded → Loaded
  | 0, _, a => a
  | n + 1, at0, a =>
    let len := fieldAt h (at0 + 4) 2
    let a := loadEntry present (fieldAt h at0 2) (fieldAt h (at0 + 2) 1) (fieldAt h (at0 + 3) 1) (fieldAt h (at0 + 8) len) a
    loadEntries present h n (at0 + 8 + ceilDiv len 8 * 8) a

/-- Every parameter at its default but for those of a half's entries (R653, R679). -/
def loadHalf (present : BitVec 16) (h : List Byte) (d : Dict) : Loaded :=
  loadEntries present h (fieldAt h 16 2) 32 { dct := { d with vals := [] }, skipped := 0 }

/-- The persistent parameters, with their rows, in ascending order (R678). -/
def persistent : List (PRow × Nat × Nat) :=
  (paramRows.filter PRow.pers).flatMap fun r =>
    (List.range r.count).flatMap fun i => (List.range r.subs).map fun j => (r, r.index + i, r.sub + j)

/-- One entry as SAVE writes it (R677). -/
def saveEntry (d : Dict) (x : PRow × Nat × Nat) : List Byte :=
  let n := x.1.ty.size
  leBytes 2 x.2.1 ++ leBytes 1 x.2.2 ++ leBytes 1 x.1.ty.code ++ leBytes 2 n ++ leBytes 2 0 ++
    bytesAt (leBytes n (d.par x.2.1 x.2.2)) 0 (ceilDiv n 8 * 8)

/-- The bytes that SAVE writes into a half (R677, R678). -/
def saveBytes (d : Dict) (seq : BitVec 32) : List Byte :=
  let es := persistent.flatMap (saveEntry d)
  let head := leBytes 4 0x54434944 ++ leBytes 2 1 ++ leBytes 2 0x0203 ++ leBytes 4 seq.toNat ++ leBytes 4 (32 + es.length) ++
    leBytes 2 persistent.length ++ leBytes 10 0
  head ++ leBytes 4 (crc32 (head ++ leBytes 4 0 ++ es)).toNat ++ es

/-- A Sill slot of the store as the block reads it (R634, R636): its SEQ and its bytes, none where it is not valid. -/
def sillSlotOf (store : List Byte) (second : Bool) : Option (BitVec 64 × List Byte) :=
  let r := bytesAt store (if second then 0x1000 else 0) 4096
  if fieldAt r 0 4 = 0x4C4C4953 ∧ fieldAt r 4 2 = 1 ∧ (crc32 (bytesAt r 0 4092)).toNat = fieldAt r 4092 4 then
    some (BitVec.ofNat 64 (fieldAt r 8 8), r)
  else none

end Sys2Proof.Machine
end

