-- ==== Sys2Proof/Machine/Start.lean ====
section
/-! DEFINITION. Start-up: reset pins (R56, R57, R65), the steps of a cold and of a warm start (R648 to R652), the dictionary
load (R653), the check of the frame parameters (R516 to R518), completion and failure (R654 to R657). -/

namespace Sys2Proof.Machine

/-- Change the start registers. -/
def Block.updStart (b : Block) (f : Start → Start) : Block := { b with st := f b.st }

/-! ### Steps that the block takes of itself -/

/-- FN_FLR_DONE, where a function level reset waits for it (R65, R650). -/
def flrDone (b : Block) : Block :=
  if b.work.fab.flrBusy then (b.updWork fun w => w.updFab fun f => { f with flrBusy := false }).emit .flrDone else b

/-- A read of the fuse word is asked for: FUSE_REQ is held until FUSE_ACK (R112). -/
def readFuse (b : Block) : Block := { b.emit .fuseReq with pins := { b.pins with fuseReq := true } }

/-- Step 2 (R648, R651): the domains are switched on, but for engines that are absent or retired. -/
def startDomains (b : Block) : Block :=
  (livePorts b).foldl (fun b p => pswOn (.eng p) b) (pswOn .pln (pswOn .tnl (pswOn .ctl b)))

/-- Whether step 2 has ended: the domains are on, and each engine is idle or retired. -/
def domainsReady (b : Block) : Bool :=
  domainUp b .ctl && domainUp b .tnl && domainUp b .pln && !((List.range 16).any fun p => (b.work.port p).state == .hardReset)

/-- The start goes on as far as it can (R648, R651). -/
def startAdvance (b : Block) : Block :=
  let x := b.st
  if x.inPor || x.done || x.halted then b
  else if x.step = 1 then
    if b.work.fab.clkOk then startDomains (b.updStart fun x => { x with step := 2 }) else b
  else if x.step = 2 then
    if domainsReady b then
      if x.warm then flrDone (b.updStart fun x => { x with step := 5, bar0 := true })
      else readFuse (b.updStart fun x => { x with step := 3 })
    else b
  else if x.step = 6 then if voltsDone b then b.updStart fun x => { x with step := 7 } else b
  else b

/-! ### Reset pins -/

/-- Power-on reset: everything the block holds is lost (R661); input pins stand. -/
def powerOnReset (b : Block) : Block :=
  { work := { fab := { bme := b.work.fab.bme, msixEn := b.work.fab.msixEn, msixFmask := b.work.fab.msixFmask,
                       clkOk := b.work.fab.clkOk, nextTag := b.work.fab.nextTag, out := b.work.fab.out }
              nextId := b.work.nextId, fresh := b.work.fresh }
    lnk := { ports := (b.lnk.ports.map fun x => (x.1, resetLport false x.2)).filter fun x => x.2 != {} } }

/-- PORST_N_FALL (R56, R661). -/
def execPorstNFall (s : State) : Host.Outcome State Fault Refusal := .next (s.on powerOnReset)

/-- PORST_N rises (R56, R81, R644): a cold start begins, with ENGn_PRESENT and ENGn_RES_FMT as sampled. -/
def porstRise (present bf16 : BitVec 16) (b : Block) : Block :=
  if b.st.inPor then
    startAdvance (fullReset false 0 (b.updStart fun x => { x with present := present, bf16 := bf16 &&& present }))
  else b

/-- PORST_N_RISE. -/
def execPorstNRise (present bf16 : BitVec 16) (s : State) : Host.Outcome State Fault Refusal :=
  .next (s.on (porstRise present bf16))

/-- A low pulse of SYSRST_N (R57): between 100 ns and 1 µs whether it acts is open.
[DESIGN CHOICE, log entry 37; DESIGN CHOICE, log entry 38] -/
def sysrstPulse (ns : Nat) (b : Block) : Block :=
  if b.st.inPor || decide (ns < 100) then b
  else if 1000 ≤ ns then startAdvance (requestReset 1 (resetNotice b))
  else
    let d := b.work.draw
    let b := { b with work := d.2 }
    if Config.freeChoice d.1 % 2 = 0 then b else startAdvance (requestReset 1 (resetNotice b))

/-- SYSRST_N_PULSE: a frozen block waits for PORST_N or R639 alone (R632). -/
def execSysrstNPulse (nanoseconds : Nat) (s : State) : Host.Outcome State Fault Refusal :=
  .next (s.onAon (sysrstPulse nanoseconds))

/-- FN_FLR_REQ (R65). [DESIGN CHOICE, log entry 37] -/
def flrReq (b : Block) : Block :=
  if b.st.inPor then b
  else startAdvance (requestReset 2 (resetNotice (b.updWork fun w => w.updFab fun f => { f with flrBusy := true })))

/-- FN_FLR_REQ. -/
def execFnFlrReq (s : State) : Host.Outcome State Fault Refusal := .next (s.onAon flrReq)

/-- WARM_START: a warm start goes on (R651). -/
def execWarmStart (s : State) : Host.Outcome State Fault Refusal :=
  .next (s.onAon fun b => if b.st.warm then startAdvance b else b)

/-! ### The fuse word (R111, R112) -/

/-- One bit of the CRC of R111. -/
def fuseBit (r : BitVec 16) : BitVec 16 := if r.getLsbD 15 then (r <<< 1) ^^^ 0x1021 else r <<< 1

/-- One byte of the CRC of R111. -/
def fuseByte (r : BitVec 16) (b : Byte) : BitVec 16 :=
  let r := r ^^^ (b.setWidth 16 <<< 8)
  fuseBit (fuseBit (fuseBit (fuseBit (fuseBit (fuseBit (fuseBit (fuseBit r)))))))

/-- CHECK over bytes 0 to 13 of the word (R111). -/
def fuseCrc (word : BitVec 128) : BitVec 16 := (leBytes 14 word.toNat).foldl fuseByte 0xFFFF

/-- The identity as the fuse word gives it (R110, R658). -/
def fuseFields (word : BitVec 128) (x : Start) : Start := { x with
  lot := word.extractLsb' 0 40, wafer := word.extractLsb' 40 5, dieX := word.extractLsb' 48 8, dieY := word.extractLsb' 56 8,
  licensee := word.extractLsb' 64 16, integration := word.extractLsb' 80 16 }

/-- The fuse word arrives (R112). -/
def fuseAck (word : BitVec 128) (b : Block) : Block :=
  if b.st.step != 3 || b.st.inPor then b
  else
    let b := { b with pins := { b.pins with fuseReq := false } }
    if fuseCrc word = word.extractLsb' 112 16 then b.updStart fun x => { fuseFields word x with step := 4 }
    else if b.st.fuseTries < 2 then readFuse (b.updStart fun x => { x with fuseTries := x.fuseTries + 1 })
    else b.updStart fun x => { fuseFields 0 x with fuseFault := true, fuseTries := 3, step := 4 }

/-- FUSE_ACK. -/
def execFuseAck (word : BitVec 128) (s : State) : Host.Outcome State Fault Refusal := .next (s.onAon (fuseAck word))

/-! ### Self-test (R649) -/

/-- A start halts (R657). -/
def haltStart (st : Status) (b : Block) : Block :=
  (b.updStart fun x => { x with halted := true, lastFail := st }).updWork fun w => w.raise (vecAdmin 6)

/-- Self-test has ended: what has failed is taken out, and every array is cleared. [DESIGN CHOICE, log entry 37] -/
def selfTest (ctl kiln retention : Bool) (cores : BitVec 32) (ports : BitVec 16) (b : Block) : Block :=
  if b.st.step != 4 || b.st.inPor || b.st.halted then b
  else
    let b := b.updStart fun x => { x with
      bistCtl := ctl, bistKiln := kiln, bistRetention := retention, bistCores := cores, bistPorts := ports, bar0 := !ctl }
    let b := b.updPwr fun x => { x with retention := none, retDict := [], restView := none }
    let b := if b.st.bar0 then flrDone b else b
    if ctl || kiln || cores.getLsbD 0 then haltStart St.bistFailed b
    else
      let bad := (List.range 16).filter fun p => ports.getLsbD p && (b.work.port p).present
      let b := bad.foldl (fun b p => (pswOff (.eng p) b).updWork fun w => w.updPort p fun x => { x with
        state := .retired, hrstN := false, idle := false }) b
      b.updStart fun x => { x with step := 5 }

/-- SELF_TEST_DONE. -/
def execSelfTestDone (ctl kiln retention : Bool) (cores : BitVec 32) (ports : BitVec 16) (s : State) :
    Host.Outcome State Fault Refusal :=
  .next (s.onAll (selfTest ctl kiln retention cores ports))

/-! ### The dictionary load (R653) -/

/-- The Sill slots are read and SILL_RECORD is published (R636, R648). -/
def readSill (store : List Byte) (b : Block) : Block :=
  let b := b.updPwr fun x => { x with sillSlotA := sillSlotOf store false, sillSlotB := sillSlotOf store true }
  { b with dct := { b.dct with sillRecord := sillNewest b.pwr } }

/-- The values come from the retention SRAM, with the frame view (R653). -/
def loadRetained (b : Block) : Block :=
  let b := { b with dct := { b.dct with vals := b.pwr.retDict } }.updStart fun x => { x with fromRetention := true }
  match b.pwr.restView with
  | some v => b.updFrm fun f => { f with admitted := v.1, excl := v.2.1, down := v.2.2 }
  | none => b

/-- The values come from the store (R653, R678, R679): with no valid half every parameter takes its default. -/
def loadStore (store : Option (List Byte)) (b : Block) : Block :=
  let half (second : Bool) : List Byte := halfOfStore (store.getD []) second
  let a := store.bind fun _ => halfSeq (half false)
  let c := store.bind fun _ => halfSeq (half true)
  let b := { b with dct := { b.dct with vals := [], halfA := a, halfB := c } }
  match newerHalf a c with
  | some second =>
    let l := loadHalf b.st.present (half second) b.dct
    { b with dct := { l.dct with skipped := BitVec.ofNat 32 l.skipped } }
  | none => b.updStart fun x => { x with lastFail := St.dictDefaulted, dictDefaulted := true }

/-- The persistent region of the store is read, but for an exit from PS3 (R107, R653). -/
def askStore (rest : Bool) (b : Block) : Block := if rest then b else b.emit (b.storeRead 0x10000 0x10000)

/-- The Sill slots are read (R648), in the mode that the parameters set, now that they are loaded (R107). -/
def askSill (b : Block) : Block := b.emit (b.storeRead 0 0x2000)

/-- The Tenon ports whose bit in PORT_ENABLE is 1 begin to train (R648, R652). -/
def trainPorts (b : Block) : Block :=
  (List.range 6).foldl (fun b p =>
    let x := b.lport p
    if b.dct.portEnable.testBit p then
      if b.st.warm && x.lane0.rxLock && x.lane1.rxLock && x.lane0.blockLock && x.lane1.blockLock && x.deskew.isSome then shortTrain p b
      else startTrain p b
    else b) b

/-- The dictionary load and the step after it (R648 steps 5 and 6, R651 steps 3 and 4, R653). -/
def dictLoad (store : Option (List Byte)) (b : Block) : Block :=
  if b.st.step != 5 || b.st.inPor || b.st.loaded || b.st.halted then b
  else
    let rest : Bool := b.st.warm && b.st.cause == 4 && b.pwr.restView.isSome
    let b := askStore rest b
    let b := if rest then loadRetained b else loadStore store b
    let b := readSill (store.getD []) (askSill (b.updStart fun x => { x with loaded := true, step := 6 }))
    let b := { b with clk := { b.clk with quarters := BitVec.ofNat 8 b.dct.beatQuarters }, dct := { b.dct with taken := b.dct.vals } }
    startAdvance (trainPorts (requestVolts .ps0 b))

/-- DICTIONARY_LOAD. -/
def execDictionaryLoad (store : Option (List Byte)) (s : State) : Host.Outcome State Fault Refusal :=
  .next (s.onAll (dictLoad store))

/-! ### The frame-join step (R516 to R518) -/

/-- The members of the frame. -/
def members (d : Dict) : List Nat := (List.range 64).filter fun c => d.frameMembers.testBit c

/-- Whether a link of TOPO is named from both of its ends (R516). -/
def linkOk (d : Dict) (c p : Nat) : Bool :=
  match farLink d c p with
  | none => true
  | some (y, q) => d.frameMembers.testBit y && y != c && decide (q ≤ 5) && farLink d y q == some (c, p)

/-- The members reached from a set over the links of TOPO, one hop further. -/
def reachStep (d : Dict) (xs : List Nat) : List Nat :=
  xs.foldl (fun acc c => (List.range 6).foldl (fun acc p =>
    match farLink d c p with
    | some (y, _) => if acc.contains y then acc else acc ++ [y]
    | none => acc) acc) xs

/-- The members within `n` hops of a chip. -/
def within (d : Dict) (c : Nat) : Nat → List Nat
  | 0 => [c]
  | n + 1 => reachStep d (within d c n)

/-- The checks of R516. -/
def frameOk (d : Dict) : Bool :=
  let ms := members d
  d.chipNum < 64 && d.frameMembers.testBit d.chipNum && d.frameMembers.testBit 0 &&
    (d.standbyChip == 0xFF || (d.standbyChip != 0 && d.standbyChip < 64 && d.frameMembers.testBit d.standbyChip)) &&
    (ms.all fun c => (List.range 6).all fun p => linkOk d c p) &&
    ((List.range 64).all fun c => (ms.contains c || d.topo c == 0) && bitsOf (d.topo c) 63 60 == 0) &&
    (ms.all fun c => let r := within d c 15; ms.all fun m => r.contains m) &&
    ((List.range 64).all fun c => d.sharedBase c % 65536 == 0 && d.sharedSize c % 65536 == 0 &&
      decide (d.sharedBase c + d.sharedSize c ≤ 2 ^ 42))

/-- FRAME_HASH (R518). -/
def frameHash (d : Dict) : BitVec 32 :=
  let words (f : Nat → Nat) : List Byte := (List.range 64).flatMap fun c => leBytes 8 (f c)
  crc32 (leBytes 8 d.frameMembers ++ leBytes 1 d.standbyChip ++ words d.topo ++ words d.sharedBase ++ words d.sharedSize)

/-- The state in which the frame-join step begins (R516, R517, R523): a check that fails makes the chip INVALID; one whose
FRAME_MEMBERS holds no bit but its own stands alone. [DESIGN CHOICE, log entry 37] -/
def joinState0 (d : Dict) : FrameSt :=
  if !frameOk d then .invalid
  else if (members d).all fun c => c == d.chipNum then .standalone
  else .listening

/-- The frame-join step begins. [DESIGN CHOICE, log entry 37] -/
def beginJoin (b : Block) : Block :=
  let st := joinState0 b.dct
  let b := b.updFrm fun f => { f with
    state := st, hash := frameHash b.dct, listened := 0, lastCause := if st = .invalid then St.topologyMismatch else f.lastCause }
  if st = .listening then b else { b with dct := { b.dct with locked := true } }

/-! ### Completion (R393, R402, R654) -/

/-- The allocation of a port in MiB (R393). -/
def kilnShare (d : Dict) (present : BitVec 16) (p : Nat) : Nat :=
  let ps := (List.range 16).filter fun q => present.getLsbD q
  let n := ps.length
  if d.kilnMode = 1 then d.kilnMib p
  else 64 / n + if (ps.takeWhile fun q => q != p).length < 64 % n then 1 else 0

/-- The ports take their allocations and operand formats. -/
def fixPorts (b : Block) : Block :=
  let ps := (List.range 16).filter fun p => b.st.present.getLsbD p
  ps.foldl (fun b p => b.updWork fun w => w.updPort p fun x => { x with
    kilnMib := kilnShare b.dct b.st.present p, opdFmt := b.dct.opdFmt p }) b

/-- A start completes (R654). -/
def startComplete (b : Block) : Block :=
  if !mayComplete b then b
  else
    let t := elapsedUs b
    let b := b.updStart fun x => { x with done := true, everDone := true, step := 0xFF, warmFails := 0, elapsedUs := BitVec.ofNat 32 t }
    beginJoin (fixPorts (b.updWork fun w => w.raise (vecAdmin 6)))

/-- START_COMPLETE. -/
def execStartComplete (s : State) : Host.Outcome State Fault Refusal := .next (s.onAll startComplete)

/-- A warm start has reached its budget (R655); a completion in the same cycle holds (R661). -/
def startLate (b : Block) : Block :=
  if b.st.warm && !b.st.done && !b.st.inPor && !mayComplete b then startAdvance (startFails St.startTimeout b) else b

/-- START_TIMEOUT. -/
def execStartTimeout (s : State) : Host.Outcome State Fault Refusal := .next (s.onAon startLate)

end Sys2Proof.Machine
end

