-- ==== Sys2Proof/Machine/Dict.lean ====
section
/-! DEFINITION. The parameter dictionary at work: requests and answers (R668 to R671), the three paths (R672 to R676), SAVE
(R678), requests carried over the link (R498, R525 to R528, R553, R554), and the I3C target's MCTP endpoint (R97, R98). -/

namespace Sys2Proof.Machine

/-! ### Requests (R668, R671) -/

/-- Change the dictionary. -/
def Block.updDct (b : Block) (f : Dict → Dict) : Block := { b with dct := f b.dct }

/-- A request body taken apart (R668); `size` is the length of the body as it came. -/
structure DictReq where
  op : Nat
  target : Nat
  index : Nat
  sub : Nat
  ty : Nat
  len : Nat
  off : Nat
  data : List Byte
  size : Nat
  deriving DecidableEq, Repr

/-- The request in a body. -/
def reqOf (bs : List Byte) : DictReq :=
  let len := fieldAt bs 6 2
  { op := fieldAt bs 0 1, target := fieldAt bs 1 1, index := fieldAt bs 2 2, sub := fieldAt bs 4 1, ty := fieldAt bs 5 1,
    len := len, off := fieldAt bs 8 4, data := if fieldAt bs 0 1 = 2 then bytesAt bs 12 len else [], size := bs.length }

/-- REMOTE. -/
def DictReq.remote (r : DictReq) : Bool := r.target.testBit 6

/-- CHIP. -/
def DictReq.chip (r : DictReq) : Nat := r.target % 64

/-- Whether a request goes on to another chip (R671). -/
def DictReq.away (r : DictReq) (b : Block) : Bool := r.remote && r.chip != b.dct.chipNum

/-- The identity of a path (R447, R673). -/
def pathMid : DictPath → Nat
  | .bar0 => 0
  | .mctp => 1
  | .tenon => 2

/-- The most request data and answer data of a path, and of a request to another chip (R673). -/
def pathLimits (p : DictPath) (away : Bool) : Nat × Nat := if p = .tenon || away then (2548, 2552) else (4096, 4096)

/-- Order 1 of R671. -/
def badRequest (b : Block) (p : DictPath) (r : DictReq) : Bool :=
  let lim := pathLimits p (r.away b)
  !(1 ≤ r.op && r.op ≤ 4) || r.target.testBit 7 ||
    (r.op == 4 && (r.remote || r.index != 0 || r.sub != 0 || r.ty != 0 || r.len != 0 || r.off != 0)) ||
    (r.op == 2 && (lim.1 < r.len || r.size < 12 + r.len)) || (r.op == 1 && lim.2 < r.len) || r.size < 12 ||
    (r.remote && (!isMgr b || p == .tenon))

/-- Order 4 of R671: TYPE, and LENGTH and OFFSET against R670. [DESIGN CHOICE, log entry 45] -/
def shapeOk (b : Block) (row : PRow) (r : DictReq) : Bool :=
  let n := parSize b row r.index
  (r.ty == row.ty.code || (r.ty == 0 && r.op != 2)) &&
    (if r.op = 1 then (if row.ty.isBytes then r.off ≤ n else r.off == 0 && n ≤ r.len)
     else if r.op = 2 then r.off == 0 && (match row.ty with
       | .str m => r.len ≤ m
       | t => r.len == t.size)
     else r.off == 0 && r.len == 0)

/-- Whether the lock point of an RWL parameter has passed (R115, R393, R665). -/
def locked (b : Block) (row : PRow) (j : Nat) : Bool :=
  match row.acc, row.lock with
  | .rwl, .join => b.dct.locked
  | .rwl, .slice => (b.work.slice j).state != .off
  | .rwl, .start => b.st.done
  | _, _ => false

/-- A state rule of a parameter's own (R514, R528). -/
def stateRule (b : Block) (i : Nat) : Bool :=
  if i = 0x501A then b.frm.state == .manager else if i = 0x501B then b.frm.state == .following else true

/-- What a halted start still answers (R657). -/
def haltServes (r : DictReq) : Bool := r.op == 1 && 0x1000 ≤ r.index && r.index < 0x2000

/-- Order 5 of R671. -/
def lockedOut (b : Block) (row : PRow) (r : DictReq) : Bool :=
  (r.op == 2 && (locked b row r.sub || !stateRule b r.index)) || (b.st.halted && !haltServes r)

/-- Order 6 of R671: FRAME_CMD names a command and a chip (R514, R529). -/
def outOfRange (b : Block) (row : PRow) (r : DictReq) : Bool :=
  let v := leNat r.data
  r.op == 2 &&
    (if r.index = 0x501A then
       v % 256 != 1 || bitsOf v 15 14 != 0 || bitsOf v 13 8 == b.dct.chipNum || !inF b (bitsOf v 13 8)
     else !row.ty.isBytes && !valueOk b.st.present b.dictNow row r.index r.sub v)

/-- Order 3 of R671. -/
def denied (p : DictPath) (row : PRow) (r : DictReq) : Bool :=
  (r.op == 1 && row.acc == .wo) || (r.op == 2 && (row.acc == .ro || (r.index == 0x501B && p != .tenon)))

/-- The checks of R671 in order, for a request served here. [DESIGN CHOICE, log entry 45] -/
def checkReq (b : Block) (p : DictPath) (r : DictReq) : Status :=
  if badRequest b p r then St.dictBadRequest
  else if r.op = 4 then if b.st.halted then St.lockedInState else St.ok
  else match paramRow r.index r.sub with
    | none => St.noSuchObject
    | some row =>
      if denied p row r then St.accessDenied
      else if !shapeOk b row r then St.typeMismatch
      else if lockedOut b row r then St.lockedInState
      else if outOfRange b row r then St.valueRange
      else St.ok

/-! ### Answers (R669, R674, R675, R676) -/

/-- The type code of the parameter that a request names (R669). -/
def typeCode (r : DictReq) : Nat := ((paramRow r.index r.sub).map fun row => row.ty.code).getD 0

/-- An answer body (R669). -/
def answerBytes (r : DictReq) (st : Status) (data : List Byte) : List Byte :=
  let data := if st = St.ok then data else []
  leBytes 1 (r.op % 128 + 128) ++ leBytes 1 (if r.op = 4 then 0 else typeCode r) ++ leBytes 2 st.toNat ++ leBytes 2 data.length ++
    leBytes 2 0 ++ data

/-- A body in segments of up to 20 bytes (R553, R676): the payloads of its messages. -/
def segments (tag : BitVec 16) (body : List Byte) : List (List Byte) :=
  let n := max 1 (ceilDiv body.length 20)
  (List.range n).map fun k =>
    let part := (body.drop (20 * k)).take 20
    leBytes 2 tag.toNat ++ leBytes 1 (k % 128 + if k + 1 = n then 128 else 0) ++ leBytes 1 part.length ++ part

/-- Send a body to a chip in DICT_REQ or DICT_RSP messages. -/
def sendSegments (typ : BitVec 8) (chip : Nat) (tag : BitVec 16) (body : List Byte) (b : Block) : Block :=
  b.updWork fun w => (segments tag body).foldl (fun w p => sendMsg b (mkMsg b typ chip 0 p) w) w

/-- The host's window takes an answer (R674). -/
def windowAnswer (body : List Byte) (b : Block) : Block :=
  let d := b.dct
  let buf := (body.zipIdx).foldl (fun t x => tblSet 0 t x.2 x.1) d.buf
  let b := b.updDct fun d => { d with buf := buf, busy := false, irq := false, lastStatus := BitVec.ofNat 16 (fieldAt body 2 2) }
  if d.irq then b.updWork fun w => w.raise (vecAdmin 7) else b

/-- The MCTP message that carries an answer (R675). [PRESUMED, log entry 46] -/
def mctpAnswer (b : Block) (body : List Byte) : List Byte :=
  let v := b.dct.vendorId
  leBytes 1 0x7E ++ leBytes 1 (v / 256) ++ leBytes 1 v ++ leBytes 1 0x81 ++ body

/-- An MCTP message leaves, and an in-band interrupt announces it (R97). -/
def sendMctp (dest tag : BitVec 8) (bytes : List Byte) (b : Block) : Block := (b.emit (.mctp dest tag bytes)).emit .ibi

/-- The answer to the request in service goes back on its path (R672). -/
def giveAnswer (x : Serving) (body : List Byte) (b : Block) : Block :=
  let b := b.updDct fun d => { d with serving := none, requests := d.requests + 1 }
  match x.path with
  | .bar0 => windowAnswer body b
  | .mctp => sendMctp x.eid (x.tag.setWidth 8) (mctpAnswer b body) b
  | .tenon => sendSegments 0x31 x.src x.tag body b

/-- Answer the request in service. -/
def answer (x : Serving) (st : Status) (data : List Byte) (b : Block) : Block :=
  giveAnswer x (answerBytes (reqOf x.body) st data) b

/-! ### READ and INFO (R670, R688, R689) -/

/-- The 16 bytes of INFO (R670). -/
def infoBytes (b : Block) (row : PRow) (i j : Nat) : List Byte :=
  let acc := match row.acc with
    | .ro => 0
    | .rw => 1
    | .rwl => 2
    | .wo => 3
  let size := if 0x8040 ≤ i ∧ i < 0x8080 then ctxRecordsSize b (i - 0x8040) else row.ty.size
  leBytes 1 row.ty.code ++ leBytes 1 acc ++ leBytes 1 (bit row.pers + 2 * bit (locked b row j)) ++ leBytes 1 0 ++
    leBytes 4 size ++ leBytes 8 (if row.ty.isBytes then 0 else row.dflt)

/-- The contexts that a read of CTX_RECORDS covers. -/
def coveredCtxs (off n : Nat) : List Nat := if n = 0 then [] else (List.range ((off + n - 1) / 32 + 1 - off / 32)).map (· + off / 32)

/-- The bytes of a read of CTX_RECORDS once every context has its 32 bytes. -/
def ctxData (parts : List (Nat × List Byte)) (off n : Nat) : List Byte :=
  let cs := coveredCtxs off n
  bytesAt (cs.flatMap fun c => bytesAt (((parts.find? fun p => p.1 == c).map Prod.snd).getD []) 0 32) (off % 32) n

/-- How many bytes a read of CTX_RECORDS returns (R670). -/
def ctxLen (b : Block) (r : DictReq) : Nat := min r.len (ctxRecordsSize b (r.index - 0x8040) - r.off)

/-- A read of CTX_RECORDS begins (R689): records of contexts that are not resident are read from host memory.
[DESIGN CHOICE, log entry 45] -/
def readCtxRecords (x : Serving) (r : DictReq) (b : Block) : Block :=
  let s := r.index - 0x8040
  let n := ctxLen b r
  let w := b.work
  let cs := coveredCtxs r.off n
  if !(w.slice s).pasidOpen then answer x St.ok (bytesAt [] 0 n) b
  else
    let far : List Nat := cs.filter fun c => !w.isResident s c && mayIssue w (some s) false
    let near := cs.filter fun c => !far.contains c
    let parts := near.map fun c => (c, ctxValues (w.ctx s c))
    if far.isEmpty then answer x St.ok (ctxData parts r.off n) b
    else
      let w := far.foldl (fun w c => readFor b (some s) false (ctxAddr w s c) 32 (.ctxDict c) w) w
      { b with work := w }.updDct fun d => { d with serving := some { x with parts := parts, left := far.length } }

/-- The answer to a read of a context record for CTX_RECORDS (R689). -/
def ctxDictAnswered (c : Nat) (st : Status) (data : List Byte) (b : Block) : Block :=
  match b.dct.serving with
  | none => b
  | some x =>
    let x := { x with parts := (c, data) :: x.parts, left := x.left - 1, failed := x.failed || st != St.ok }
    if x.left = 0 then
      let r := reqOf x.body
      if x.failed then answer x St.dmaFault [] b else answer x St.ok (ctxData x.parts r.off (ctxLen b r)) b
    else b.updDct fun d => { d with serving := some x }

/-- READ (R670). -/
def serveRead (x : Serving) (r : DictReq) (b : Block) : Block :=
  match paramRow r.index r.sub with
  | none => b
  | some row =>
    if 0x8040 ≤ r.index ∧ r.index < 0x8080 then readCtxRecords x r b
    else
      let v := parBytes b row r.index r.sub
      answer x St.ok (if row.ty.isBytes then (v.drop r.off).take r.len else v) b

/-! ### WRITE -/

/-- The joining chip adopts the view and the LAST values (R527, R528). -/
def adoptJoin (body : List Byte) (b : Block) : Block :=
  let down : Tbl Nat := (List.range 64).foldl (fun t c => tblSet 0 t c (fieldAt body (16 + c) 1 % 64)) []
  let bars : Tbl Barrier := (List.range 256).foldl (fun t i =>
    tblSet {} t i { last := BitVec.ofNat 64 (fieldAt body (80 + 8 * i) 8) }) []
  let b := b.updFrm fun f => { f with
    admitted := BitVec.ofNat 64 (fieldAt body 0 8), excl := BitVec.ofNat 64 (fieldAt body 8 8), down := down, barriers := bars,
    state := .member, mgrLost := false, lastCause := St.frameJoined }
  (b.updFrm fun f => { f with pending := pendingNow b }).updDct fun d => { d with locked := true }

/-- A JOIN_STATE write from the manager (R528). [DESIGN CHOICE, log entry 45] -/
def joinWrite (body : List Byte) (b : Block) : Block := if b.frm.state = .following then adoptJoin body b else b

/-- JOIN_STATE. -/
def execJoinState (body : List Byte) (s : State) : Host.Outcome State Fault Refusal := .next (s.onAll (joinWrite body))

/-- TRACK_CLEAR (R410): the counts of the object that the tracker names return to zero. -/
def trackClear (s k : Nat) (b : Block) : Block :=
  let h := b.dct.trackHandle s k
  if handleLive b.work s h then b.updWork fun w => w.updObj (hIndex h) fun o => { o with guards := {} } else b

/-- A slice that leaves OFF in the control cycle of a write to FENCE_COUNT, SEM_COUNT or WATCH_COUNT takes the written value (R297,
R690). [DESIGN CHOICE, log entry 5] -/
def takeSizes (i j : Nat) (b : Block) : Block :=
  if 0x3006 ≤ i ∧ i ≤ 0x3008 ∧ .leftOff j ∈ b.work.late then
    b.updWork fun w => w.updSlice j fun x => { x with
      fenceCount := b.dct.fenceCount j, semCount := b.dct.semCount j, watchCount := b.dct.watchCount j }
  else b

/-- The effect of a WRITE that has passed its checks (R667). -/
def writePar (i j : Nat) (data : List Byte) (b : Block) : Block :=
  let v := leNat data
  if i = 0x501A then frameCmdExclude (bitsOf v 13 8) b
  else if i = 0x501B then adoptJoin data b
  else if 0x4100 ≤ i ∧ i < 0x4140 ∧ 0x18 ≤ j ∧ j < 0x20 then if v = 1 then trackClear (i - 0x4100) (j - 0x18) b else b
  else if i = 0x2001 then { b with clk := { b.clk with quarters := BitVec.ofNat 8 v }, dct := b.dct.setPar i j v }
  else takeSizes i j { b with dct := b.dct.setPar i j v }

/-! ### SAVE (R678) -/

/-- The byte of a command in single-bit SPI (R678); the spec gives none in octal DTR. -/
def StoreOp.code (x : StoreOp) (mode : Option (Nat × Nat)) : Option (BitVec 8) :=
  if (mode.map Prod.fst).getD 0 ≠ 0 then none
  else match x with
    | .writeEnable => some 0x06
    | .sectorErase => some 0x20
    | .pageProgram => some 0x02
    | .readStatus => some 0x05

/-- A change of the store: write enable, the change, and read status until bit 0 is clear (R678). -/
def storeChange (mode : Option (Nat × Nat)) (op : StoreOp) (address : Nat) (bytes : List Byte) : List Output :=
  [.storeOp mode .writeEnable 0 [], .storeOp mode op address bytes, .storeOp mode .readStatus 0 []]

/-- The commands that write a half in ascending order, erased first in 4 KiB sectors where `erase` says so (R678). -/
def halfOps (mode : Option (Nat × Nat)) (erase : Bool) (base : Nat) (bytes : List Byte) : List Output :=
  (if erase then (List.range 8).flatMap fun k => storeChange mode .sectorErase (base + 4096 * k) [] else []) ++
    (List.range ((bytes.length + 255) / 256)).flatMap fun k =>
      storeChange mode .pageProgram (base + 256 * k) ((bytes.drop (256 * k)).take 256)

/-- The half that SAVE writes is erased first with STORE_ERASE = 1, and read back at the end (R678).
[DESIGN CHOICE, log entry 45] -/
def writeHalf (base : Nat) (bytes : List Byte) (b : Block) : Block :=
  let b := (halfOps b.storeMode (b.dct.at 0x6006 0 1 == 1) base bytes).foldl (fun b o => b.emit o) b
  b.emit (b.storeRead base 32768)

/-- The half that the next SAVE writes, `true` for B, and its SEQ (R678). -/
def nextHalf (d : Dict) : Bool × BitVec 32 :=
  match newerHalf d.halfA d.halfB with
  | some true => (false, d.halfB.getD 0 + 1)
  | some false => (true, d.halfA.getD 0 + 1)
  | none => (false, 1)

/-- What a half holds. -/
def setHalf (second : Bool) (seq : Option (BitVec 32)) (d : Dict) : Dict :=
  if second then { d with halfB := seq } else { d with halfA := seq }

/-- SAVE begins: the older half takes every persistent parameter, with the SEQ that follows, and is not valid until it has ended.
[DESIGN CHOICE, log entry 45] -/
def beginDictSave (x : Serving) (storeOk : Bool) (b : Block) : Block :=
  let n := nextHalf b.dct
  (writeHalf (halfBase n.1) (saveBytes b.dictNow n.2) b).updDct fun d =>
    { setHalf n.1 none d with serving := some { x with save := some (n.1, n.2, storeOk) } }

/-- Whether a SAVE is in progress. -/
def dictSaving (b : Block) : Bool := b.dct.serving.any fun x => x.save.isSome

/-- A SAVE ends at the end of the control cycle in which it began, unless the block has frozen (R678, R690); a SILL_TEST that waits
for it begins (R690). [DESIGN CHOICE, log entry 45] -/
def saveEnds (b : Block) : Block :=
  match b.dct.serving with
  | none => b
  | some x =>
    match x.save with
    | none => b
    | some (second, seq, ok) =>
      let b := b.updDct (setHalf second (if ok then some seq else none))
      let b := answer x (if ok then St.ok else St.storeFailed) [] b
      if b.pwr.testWaits then startTest (b.updPwr fun p => { p with testWaits := false }) else b

/-- SILL_TEST (R109, R642): it waits until a SAVE has ended (R690). [DESIGN CHOICE, log entry 44] -/
def sillTest (b : Block) : Block :=
  if dictSaving b then b.updPwr fun p => { p with testWaits := true } else startTest b

/-- SILL_TEST. -/
def execSillTest (s : State) : Host.Outcome State Fault Refusal := .next (s.onAll sillTest)

/-! ### Requests to other chips (R553, R554) -/

/-- The manager sends a request to another chip under a new tag. -/
def sendReq (chip : Nat) (why : FwdWhy) (body : List Byte) (b : Block) : Block :=
  let tag := b.frm.nextTag
  sendSegments 0x30 chip tag body (b.updFrm fun f => { f with
    nextTag := tag + 1, fwd := f.fwd ++ [{ tag := tag, chip := chip, why := why }] })

/-- Tags that may still be taken: up to 16 are outstanding (R554). -/
def tagsFree (b : Block) : Nat := 16 - b.frm.fwd.length

/-- A request goes on to its target with REMOTE cleared (R671). [DESIGN CHOICE, log entry 45] -/
def forwardReq (x : Serving) (r : DictReq) (b : Block) : Block :=
  let body := bytesAt x.body 0 (12 + if r.op = 2 then r.len else 0)
  sendReq r.chip .carried (patchBytes body 1 (leBytes 1 r.chip)) (b.updDct fun d => { d with serving := some x })

/-- The request that the manager carries ends without an answer (R498, R690). -/
def forwardLost (b : Block) : Block :=
  match b.dct.serving with
  | some x => answer x St.linkDeadline [] b
  | none => b

/-! ### Serving (R672) -/

/-- Whether a chip follows this manager, as far as it knows (R553): it is admitted, or has answered since it became pending.
[DESIGN CHOICE, log entry 45] -/
def follows (b : Block) (c : Nat) : Bool := inA b c || ((tblGet none b.frm.pending c).map Pending.follows).getD false

/-- Serve a request that has been taken. -/
def serve (x : Serving) (storeOk : Bool) (b : Block) : Block :=
  let r := reqOf x.body
  if r.away b && !badRequest b x.path r then
    if inF b r.chip && follows b r.chip then forwardReq x r b else answer x St.noSuchObject [] b
  else
    let st := checkReq b x.path r
    if st ≠ St.ok then answer x st [] b
    else if r.op = 1 then serveRead x r b
    else if r.op = 2 then answer x St.ok [] (writePar r.index r.sub r.data b)
    else if r.op = 3 then
      match paramRow r.index r.sub with
      | some row => answer x St.ok (infoBytes b row r.index r.sub) b
      | none => b
    else beginDictSave x storeOk b

/-- The request at the head of a path, with its place taken from the path (R673). -/
def headReq (b : Block) : DictPath → Option (Serving × Block)
  | .bar0 =>
    if b.dct.busy then
      some ({ path := .bar0, eid := 0, tag := 0, src := 0, body := (List.range (12 + 4096)).map fun i => tblGet 0 b.dct.buf i }, b)
    else none
  | .mctp =>
    match b.dct.waitMctp with
    | [] => none
    | x :: rest =>
      some ({ path := .mctp, eid := x.1, tag := x.2.1.setWidth 16, src := 0, body := x.2.2 }, b.updDct fun d => { d with waitMctp := rest })
  | .tenon =>
    match b.frm.reqIn with
    | [] => none
    | q :: _ =>
      if !q.whole then none
      else some ({ path := .tenon, eid := 0, tag := q.tag, src := q.src, body := q.body },
        b.updFrm fun f => { f with reqIn := f.reqIn.filter fun y => y != q })

/-- The order in which the paths are asked after the one served last (R672). -/
def pathsAfter : DictPath → List DictPath
  | .bar0 => [.mctp, .tenon, .bar0]
  | .mctp => [.tenon, .bar0, .mctp]
  | .tenon => [.bar0, .mctp, .tenon]

/-- The path whose turn it is. -/
def pathTurn (b : Block) : Option DictPath := (pathsAfter b.dct.lastPath).find? fun p => (headReq b p).isSome

/-- Whether the dictionary serves at all: its load has ended, or the start has halted (R657, R672). -/
def dictServes (b : Block) : Bool := b.dct.serving.isNone && (b.st.loaded || b.st.halted)

/-- Serve the request of an operation at the head of a path, at its turn (R672). -/
def servePath (p : DictPath) (takes : Nat → Bool) (storeOk : Bool) (b : Block) : Block :=
  if !dictServes b || pathTurn b != some p then b
  else match headReq b p with
    | none => b
    | some (x, b2) =>
      let r := reqOf x.body
      if !takes r.op || (r.away b && tagsFree b == 0) then b
      else serve x storeOk (b2.updDct fun d => { d with lastPath := p })

/-! ### Arrival over MCTP (R98, R675) -/

/-- A dictionary message arrives over I3C: one waits for each endpoint (R673). Before the load MCTP_VENDOR_ID is not known,
and no message is discarded for it (R657, R672). [PRESUMED, log entry 46] -/
def mctpArrives (source tag : BitVec 8) (m : List Byte) (b : Block) : Block :=
  let v := b.dct.vendorId
  let named : Bool := v != 0xFFFF && 256 * fieldAt m 1 1 + fieldAt m 2 1 == v
  if fieldAt m 0 1 ≠ 0x7E ∨ fieldAt m 3 1 ≠ 1 ∨ (b.st.loaded && !named) then b
  else if b.dct.waitMctp.any fun x => x.1 == source then b.updDct fun d => { d with discarded := satInc d.discarded }
  else b.updDct fun d => { d with waitMctp := d.waitMctp ++ [(source, tag, m.drop 4)] }

/-- A dictionary row (R672): a message that comes with it arrives first; in PS3 an I3C transaction wakes the block
(R625). -/
def dictRow (p : DictPath) (source tag : BitVec 8) (m : List Byte) (takes : Nat → Bool) (storeOk : Bool) (b : Block) : Block :=
  let b := if p = .mctp ∧ m ≠ [] then mctpArrives source tag m b else b
  servePath p takes storeOk b

/-- A command that a message over I3C may bring: in PS3 it only wakes the block (R625). [PRESUMED, log entry 46] -/
def State.onI3c (s : State) (wakes : Bool) (f : Block → Block) : State :=
  s.onAon fun b => if b.pwr.state = .ps3 then (if wakes then powerAdvance (wake 5 b) else b) else (f b).after

/-- DICT_READ: it serves a request of an unknown operation too. -/
def execDictRead (path : DictPath) (source tag : BitVec 8) (message : List Byte) (s : State) : Host.Outcome State Fault Refusal :=
  .next (s.onI3c (path == .mctp && !message.isEmpty) (dictRow path source tag message (fun o => !(2 ≤ o && o ≤ 4)) true))

/-- DICT_WRITE. -/
def execDictWrite (path : DictPath) (source tag : BitVec 8) (message : List Byte) (s : State) : Host.Outcome State Fault Refusal :=
  .next (s.onI3c (path == .mctp && !message.isEmpty) (dictRow path source tag message (fun o => o == 2) true))

/-- DICT_INFO. -/
def execDictInfo (path : DictPath) (source tag : BitVec 8) (message : List Byte) (s : State) : Host.Outcome State Fault Refusal :=
  .next (s.onI3c (path == .mctp && !message.isEmpty) (dictRow path source tag message (fun o => o == 3) true))

/-- DICT_SAVE: `storeOk` says that the store has taken the half and read back right. -/
def execDictSave (path : DictPath) (source tag : BitVec 8) (message : List Byte) (storeOk : Bool) (s : State) :
    Host.Outcome State Fault Refusal :=
  .next (s.onI3c (path == .mctp && !message.isEmpty) (dictRow path source tag message (fun o => o == 4) storeOk))

/-- GO (R674): discarded while BUSY is 1. -/
def dictGo (irq : Bool) (b : Block) : Block := if b.dct.busy then b else b.updDct fun d => { d with busy := true, irq := irq }

/-- DICT_GO. -/
def execDictGo (irq : Bool) (s : State) : Host.Outcome State Fault Refusal := .next (s.onAll (dictGo irq))

/-! ### DICT_REQ and DICT_RSP (R498, R553, R554) -/

/-- The fields of a segment: tag, number, whether it is the last, and its bytes (R490). -/
def segOf (m : Msg) : BitVec 16 × Nat × Bool × List Byte :=
  let x := fieldAt m.payload 2 1
  (BitVec.ofNat 16 (fieldAt m.payload 0 2), x % 128, x.testBit 7, bytesAt m.payload 4 (min 20 (fieldAt m.payload 3 1)))

/-- Whether a chip is the manager that this one follows (R498). [DESIGN CHOICE, log entry 45] -/
def followed (b : Block) (c : Nat) : Bool := isWorker b && c == b.frm.mgr.toNat

/-- A segment of a request of the manager (R554). -/
def takeSegment (src : Nat) (m : Msg) (b : Block) : Block :=
  let x := segOf m
  let mine (q : InReq) : Bool := q.tag == x.1 && q.src == src
  let fresh : InReq := { tag := x.1, src := src, nextSeg := 1, body := x.2.2.2, whole := x.2.2.1 }
  match b.frm.reqIn.find? mine with
  | none => if x.2.1 = 0 then b.updFrm fun f => { f with reqIn := f.reqIn ++ [fresh] } else b
  | some q =>
    if q.whole then if x.2.1 = 0 then b.updDct fun d => { d with discarded := satInc d.discarded } else b
    else
      let more (y : InReq) : InReq :=
        if mine y then { y with nextSeg := y.nextSeg + 1, body := y.body ++ x.2.2.2, whole := x.2.2.1 } else y
      let again : List InReq := if x.2.1 = 0 then [fresh] else []
      if x.2.1 = q.nextSeg then b.updFrm fun f => { f with reqIn := f.reqIn.map more }
      else b.updFrm fun f => { f with reqIn := (f.reqIn.filter fun y => !mine y) ++ again }

/-- A DICT_REQ message (R498): from any chip but the manager it is answered with ACCESS_DENIED. -/
def dictReqMsg (m : Msg) (b : Block) : Block :=
  let x := segOf m
  if followed b m.src.toNat then takeSegment m.src.toNat m b
  else if x.2.1 = 0 then
    sendSegments 0x31 m.src.toNat x.1
      (leBytes 1 (fieldAt x.2.2.2 0 1 % 128 + 128) ++ leBytes 1 0 ++ leBytes 2 St.accessDenied.toNat ++ leBytes 4 0) b
  else b

/-- DICT_REQ. -/
def execDictReq (s : State) : Host.Outcome State Fault Refusal := .next (s.onAll (onMsgAll 0x30 fun _ _ m b => dictReqMsg m b))

/-- Change what the manager keeps of a pending chip. -/
def updPending (c : Nat) (f : Pending → Pending) (b : Block) : Block :=
  b.updFrm fun x => { x with pending := tblUpd none x.pending c fun p => p.map f }

/-- The JOIN_STATE body for a chip (R527). -/
def joinBody (b : Block) (c : Nat) : List Byte :=
  leBytes 8 (setBit b.frm.admitted c).toNat ++ leBytes 8 b.frm.excl.toNat ++ (List.range 64).flatMap (fun k => leBytes 1 (tblGet 0 b.frm.down k)) ++
    (List.range 256).flatMap fun i => leBytes 8 (b.bar i).last.toNat

/-- A request body (R668). -/
def reqBody (op chip index ty len : Nat) (data : List Byte) : List Byte :=
  leBytes 1 op ++ leBytes 1 chip ++ leBytes 2 index ++ leBytes 1 0 ++ leBytes 1 ty ++ leBytes 2 len ++ leBytes 4 0 ++ data

/-- Both reads of a pending chip have matched: its JOIN_STATE is written (R525, R526). -/
def tryJoin (c : Nat) (b : Block) : Block :=
  match tblGet none b.frm.pending c with
  | some p =>
    if p.chipOk && p.hashOk && !p.joining && b.frm.state == .manager && tagsFree b != 0 then
      sendReq c .joinState (reqBody 2 c 0x501B 8 2128 (joinBody b c)) (updPending c (fun p => { p with joining := true }) b)
    else b
  | none => b

/-- An answer differs (R525): the chip is excluded at once. -/
def mismatch (c : Nat) (b : Block) : Block :=
  if mayExclude b c then (exclude c b).updFrm fun f => { f with lastCause := St.topologyMismatch } else b

/-- An answer to one of the manager's own reads (R525). -/
def readBack (c : Nat) (want : Nat) (size : Nat) (mark : Pending → Pending) (body : List Byte) (b : Block) : Block :=
  let st := fieldAt body 2 2
  let b := if st = St.accessDenied.toNat then b else updPending c (fun p => { p with follows := true }) b
  if st = St.accessDenied.toNat then b
  else if st = 0 ∧ fieldAt body 8 size = want then tryJoin c (updPending c mark b)
  else mismatch c b

/-- A pending chip has been admitted (R528). -/
def admitted (c : Nat) (b : Block) : Block :=
  if b.frm.state = .manager ∧ isPending b c then
    noticeView 3 c b.dct.chipNum St.frameJoined (b.updWork (sendNotice b 3 c St.frameJoined))
  else b

/-- A whole answer has come (R525, R528, R553). -/
def answered (x : Forwarded) (body : List Byte) (b : Block) : Block :=
  match x.why with
  | .carried =>
    match b.dct.serving with
    | some q => giveAnswer q body b
    | none => b
  | .chipNum => readBack x.chip x.chip 1 (fun p => { p with chipOk := true }) body b
  | .frameHash => readBack x.chip b.frm.hash.toNat 4 (fun p => { p with hashOk := true }) body b
  | .joinState => if fieldAt body 2 2 = 0 then admitted x.chip b else b

/-- A DICT_RSP message (R554): a gap leaves the request to its time limit (R498). -/
def dictRspMsg (m : Msg) (b : Block) : Block :=
  let s := segOf m
  match b.frm.fwd.find? fun x => x.tag == s.1 && x.chip == m.src.toNat with
  | none => b
  | some x =>
    let gap (y : Forwarded) : Forwarded := if y.tag = x.tag then { y with nextSeg := 128 } else y
    let more (y : Forwarded) : Forwarded :=
      if y.tag = x.tag then { y with nextSeg := y.nextSeg + 1, body := y.body ++ s.2.2.2 } else y
    if s.2.1 ≠ x.nextSeg then b.updFrm fun f => { f with fwd := f.fwd.map gap }
    else if s.2.2.1 then
      answered x (x.body ++ s.2.2.2) (b.updFrm fun f => { f with fwd := f.fwd.filter fun y => !(y.tag == x.tag) })
    else b.updFrm fun f => { f with fwd := f.fwd.map more }

/-- DICT_RSP. -/
def execDictRsp (s : State) : Host.Outcome State Fault Refusal := .next (s.onAll (onMsgAll 0x31 fun _ _ m b => dictRspMsg m b))

/-- 10 ms without a complete answer (R498). -/
def dictReqLate (tag : BitVec 16) (b : Block) : Block :=
  match b.frm.fwd.find? fun x => x.tag == tag with
  | none => b
  | some x =>
    let b := b.updFrm fun f => { f with fwd := f.fwd.filter fun y => !(y.tag == tag) }
    if x.why = .carried then forwardLost b else b

/-- DICT_REQ_TIMEOUT. -/
def execDictReqTimeout (tag : BitVec 16) (s : State) : Host.Outcome State Fault Refusal := .next (s.onAll (dictReqLate tag))

/-- The manager reads a pending chip (R525). -/
def readPending (c : Nat) (b : Block) : Block :=
  match tblGet none b.frm.pending c with
  | some p =>
    let due : Bool := match p.sinceRead with
      | none => true
      | some n => 16 ≤ n
    if due && isMgr b && (hops b b.dct.chipNum c).isSome && 2 ≤ tagsFree b then
      let b := updPending c (fun p => { p with sinceRead := some 0, chipOk := false, hashOk := false, joining := false }) b
      sendReq c .frameHash (reqBody 1 c 0x5016 4 4 []) (sendReq c .chipNum (reqBody 1 c 0x5010 2 1 []) b)
    else b
  | none => b

/-- The manager's role is lost to a newer manager (R551, R690): the request that it carries ends, and its own are dropped. -/
def dropForwards (b : Block) : Block :=
  let carried := b.frm.fwd.any fun x => x.why == .carried
  let b := b.updFrm fun f => { f with fwd := [] }
  if carried then forwardLost b else b

/-! ### The I3C target and its endpoint (R97, R98) -/

/-- An MCTP control response of DSP0236: the request's instance number with its request bit clear, the command, a
completion code and its data. [PRESUMED, log entry 46] -/
def ctlResponse (source tag header : BitVec 8) (cmd code : Nat) (data : List Byte) (b : Block) : Block :=
  sendMctp source tag (leBytes 1 0 ++ leBytes 1 (header.toNat % 32) ++ leBytes 1 cmd ++ leBytes 1 code ++ data) b

/-- Change the I3C target. -/
def Block.updMgmt (b : Block) (f : Mgmt → Mgmt) : Block := { b with mgmt := f b.mgmt }

/-- Set Endpoint ID: the identifiers 0x00 and 0xFF cannot be assigned. [PRESUMED, log entry 46] -/
def setEid (source tag header eid : BitVec 8) (b : Block) : Block :=
  if eid = 0 ∨ eid = 0xFF then ctlResponse source tag header 1 2 [] b
  else ctlResponse source tag header 1 0 (leBytes 1 0 ++ leBytes 1 eid.toNat ++ leBytes 1 0) (b.updMgmt fun m => { m with eid := eid })

/-- SET_ENDPOINT_ID. -/
def execSetEndpointId (source tag header eid : BitVec 8) (s : State) : Host.Outcome State Fault Refusal :=
  .next (s.onI3c true (setEid source tag header eid))

/-- Get Endpoint ID. -/
def getEid (source tag header : BitVec 8) (b : Block) : Block :=
  ctlResponse source tag header 2 0 (leBytes 1 b.mgmt.eid.toNat ++ leBytes 2 0) b

/-- GET_ENDPOINT_ID. -/
def execGetEndpointId (source tag header : BitVec 8) (s : State) : Host.Outcome State Fault Refusal :=
  .next (s.onI3c true (getEid source tag header))

/-- The message types that the block carries (R675). -/
def msgTypes (b : Block) : List Nat := if b.dct.vendorId = 0xFFFF then [0] else [0, 0x7E]

/-- Get MCTP Version Support: the version numbers are open, and so free. [PRESUMED, log entry 46] -/
def getVersions (source tag header msgType : BitVec 8) (b : Block) : Block :=
  if msgType = 0xFF ∨ (msgTypes b).contains msgType.toNat then
    let d := b.work.draw
    ctlResponse source tag header 4 0 (leBytes 1 1 ++ (List.range 4).map (Config.freeByte d.1)) { b with work := d.2 }
  else ctlResponse source tag header 4 0x80 [] b

/-- GET_MCTP_VERSION_SUPPORT. -/
def execGetMctpVersionSupport (source tag header msgType : BitVec 8) (s : State) : Host.Outcome State Fault Refusal :=
  .next (s.onI3c true (getVersions source tag header msgType))

/-- Get Message Type Support (R675). -/
def getTypes (source tag header : BitVec 8) (b : Block) : Block :=
  let ts := msgTypes b
  ctlResponse source tag header 5 0 (leBytes 1 ts.length ++ ts.flatMap (leBytes 1)) b

/-- GET_MESSAGE_TYPE_SUPPORT. -/
def execGetMessageTypeSupport (source tag header : BitVec 8) (s : State) : Host.Outcome State Fault Refusal :=
  .next (s.onI3c true (getTypes source tag header))

/-- The target takes a dynamic address (R97); it lies in the always-on domain (R99), and a transaction wakes a block in PS3
(R625). -/
def takeAddress (a : BitVec 7) (wakes : Bool) (b : Block) : Block :=
  let b := b.updMgmt fun m => { m with dynAddr := some a }
  if wakes && b.pwr.state == .ps3 then powerAdvance (wake 5 b) else b

/-- ENTDAA. -/
def execEntdaa (address : BitVec 7) (s : State) : Host.Outcome State Fault Refusal :=
  .next (s.onAon (takeAddress address false))

/-- SETDASA (R97): the target answers to its static address alone. -/
def setdasa (a : DasaAddress) (b : Block) : Block :=
  if a.static.toNat = b.dct.staticAddr then takeAddress a.dynamic true b else b

/-- SETDASA. -/
def execSetdasa (address : DasaAddress) (s : State) : Host.Outcome State Fault Refusal :=
  .next (s.onAon (setdasa address))

end Sys2Proof.Machine
end

