-- ==== Sys2Proof/Machine/Sched.lean ====
section
/-! DEFINITION. The scheduler's snapshot (R33 step 1, R257 to R264, R278, R279, R289), the expiry of timeouts and lends
(R212, R291, R338), and the answers that save and load contexts (R156 to R158). -/

namespace Sys2Proof.Machine

/-! ### Ready tiles and demand (R261) -/

/-- Ready tiles of a command: those of a released EXEC that has not ended which have not started. -/
def readyTiles (w : Work) (c : Cmd) : Nat :=
  if c.op == some .exec && c.phase == .running && c.endStatus.isNone then
    tileCount c.bytes - c.tilesDone.length -
      (w.tiles.filter fun t => t.cmd == c.id && (t.state == .running || t.state == .committing)).length
  else 0

/-- Ready tiles of the resident contexts of a slice. -/
def sliceTiles (w : Work) (s : Nat) : Nat :=
  ((w.cmds.filter fun c => c.slice == some s && w.isResident s c.ctx).map (readyTiles w)).sum

/-! ### Shares (R262) -/

/-- What a snapshot keeps of a slice with demand: its TENT and what it may still want. -/
structure Bid where
  slice : Nat
  tent : Int
  left : Nat
  count : Nat
  deriving DecidableEq, Repr

/-- The tie-breaker of R262: (s - rr) mod 64. -/
def rrDist (rr s : Nat) : Nat := (s + 64 - rr % 64) % 64

/-- Whether bid `a` goes before bid `b`: larger TENT, then smaller distance. -/
def Bid.beats (rr : Nat) (a b : Bid) : Bool :=
  b.tent < a.tent || (a.tent == b.tent && rrDist rr a.slice ≤ rrDist rr b.slice)

/-- The best of a list by an order. -/
def bestBy {α : Type} (better : α → α → Bool) : List α → Option α
  | [] => none
  | x :: xs => match bestBy better xs with
    | none => some x
    | some y => if better x y then some x else some y

/-- Change the bid of a slice. -/
def updBid (bs : List Bid) (s : Nat) (f : Bid → Bid) : List Bid := bs.map fun b => if b.slice = s then f b else b

/-- Hand out port-beats of length `b` (R262). -/
def handOut (rr : Nat) (b : Int) : Nat → List Bid → List Bid
  | 0, bs => bs
  | n + 1, bs =>
    match bestBy (Bid.beats rr) (bs.filter fun x => x.left != 0) with
    | none => bs
    | some x => handOut rr b n (updBid bs x.slice fun y => { y with count := y.count + 1, left := y.left - 1, tent := y.tent - b })

/-- The deficit of a slice at a snapshot, before its quantum: charged, and with no credit where it has no demand. -/
def chargedDeficit (x : Slice) (demand : Bool) : Int :=
  let d := x.deficit - (x.used : Int)
  if demand then d else min d 0

/-! ### Placement (R263, R264) -/

/-- Staged bytes of a slice's tiles on a port that have not started. -/
def stagedBytes (w : Work) (p s : Nat) : Nat :=
  bytesStaged w (w.tiles.filter fun t => t.port == p && t.unstarted && (w.cmd t.cmd).bind Cmd.slice == some s)

/-- Whether a slice has a tile staged on a port that has not started. -/
def hasStaged (w : Work) (p s : Nat) : Bool :=
  w.tiles.any fun t => t.port == p && (t.state == .staged || t.state == .offered) && (w.cmd t.cmd).bind Cmd.slice == some s

/-- Place one port with a slice that has count left. -/
def placePort (p s : Nat) (acc : List Bid × List (Nat × Nat)) : List Bid × List (Nat × Nat) :=
  (updBid acc.1 s fun b => { b with count := b.count - 1 }, acc.2 ++ [(p, s)])

/-- Ports not yet placed. -/
def unplaced (ports : List Nat) (acc : List Bid × List (Nat × Nat)) : List Nat :=
  ports.filter fun p => !(acc.2.any fun x => x.1 == p)

/-- The three passes of R263: ports with the slice that each goes to. -/
def placePorts (w : Work) (rr : Nat) (ports : List Nat) (bids : List Bid) : List (Nat × Nat) :=
  let open0 (acc : List Bid × List (Nat × Nat)) : List Bid := acc.1.filter fun b => b.count != 0
  let pass1 := ports.foldl (fun (acc : List Bid × List (Nat × Nat)) p =>
    match (w.port p).primary with
    | some s => if (open0 acc).any (fun b => b.slice == s) && hasStaged w p s then placePort p s acc else acc
    | none => acc) (bids, [])
  let pass2 := (unplaced ports pass1).foldl (fun (acc : List Bid × List (Nat × Nat)) p =>
    match bestBy (fun a b => stagedBytes w p b.slice < stagedBytes w p a.slice ||
        (stagedBytes w p a.slice == stagedBytes w p b.slice && Bid.beats rr a b))
        ((open0 acc).filter fun b => stagedBytes w p b.slice != 0) with
    | some b => placePort p b.slice acc
    | none => acc) pass1
  let pass3 := (unplaced ports pass2).foldl (fun (acc : List Bid × List (Nat × Nat)) p =>
    match bestBy (Bid.beats rr) (open0 acc) with
    | some b => placePort p b.slice acc
    | none => acc) pass2
  pass3.2

/-- Slices with a staged tile of queue priority 7 on a port (R275). -/
def staged7 (w : Work) (p : Nat) : List Nat :=
  ((w.tiles.filter fun t => t.port == p && (t.state == .staged || t.state == .offered)).filterMap fun t =>
    match w.cmd t.cmd with
    | some c => if queuePriority w c = 7 then c.slice else none
    | none => none).dedup

/-- The grant list of a port (R264). -/
def grantList (w : Work) (rr p : Nat) (primary : Option Nat) (bids : List Bid) : List Nat :=
  let backups := ((bids.filter fun b => decide (0 ≤ b.tent)).isort (Bid.beats rr)).map Bid.slice
  let l := primary.toList ++ backups.filter fun s => some s != primary
  l ++ (staged7 w p).filter fun s => !l.contains s

/-! ### Loads and evictions (R278 to R280) -/

/-- A context that asks for a slot: its priority, its slice's deficit, and when its wait began: with its oldest command, or when it
left its slot (R278). [DEDUCED, log entry 52] -/
structure Claim where
  slice : Nat
  ctx : Nat
  priority : Nat
  deficit : Int
  order : Nat
  deriving DecidableEq, Repr

/-- The priority lent to a context, a lend that this snapshot decided among them. -/
def lentTo (w : Work) (s c : Nat) : Nat :=
  (w.lends.filter fun l => l.slice == s && l.ctx == c).foldl (fun m l => max m l.priority) 0

/-- The contexts that wait to be loaded, in the order of R278: those with a fetched command, be it released before an
eviction (R339), those that a CTX_LOAD names (R280), and those with a lend (R289). [DEDUCED, log entry 52] -/
def claims (w : Work) : List Claim :=
  let byCmd := (w.cmds.filter fun c => c.endStatus.isNone && c.phase != .partBase && c.phase != .stopping).filterMap fun c =>
    c.slice.map fun s => (s, c.ctx, max (queuePriority w c) (lentTo w s c.ctx), max c.order (w.ctx s c.ctx).leftAt)
  let byLoad := (w.cmds.filter fun c => c.op == some .ctxLoad && c.waiting == .slot && c.endStatus.isNone).filterMap fun c =>
    c.slice.map fun s => (s, fieldAt c.bytes 24 2, 7, c.order)
  let byLend := w.lends.map fun l => (l.slice, l.ctx, lentTo w l.slice l.ctx, w.nextOrder)
  let all := (byCmd ++ byLoad ++ byLend).filter fun x => mayLoad w x.1 x.2.1 &&
    !(w.slots.any fun p => p.2.next == some (x.1, x.2.1))
  let keys := (all.map fun x => (x.1, x.2.1)).dedup
  let cs := keys.map fun k =>
    let mine := all.filter fun x => x.1 == k.1 && x.2.1 == k.2
    { slice := k.1, ctx := k.2, priority := mine.foldl (fun m x => max m x.2.2.1) 0, deficit := (w.slice k.1).deficit,
      order := mine.foldl (fun m x => min m x.2.2.2) w.nextOrder : Claim }
  cs.isort fun a b => b.priority < a.priority || (a.priority == b.priority &&
    (b.deficit < a.deficit || (a.deficit == b.deficit && a.order ≤ b.order)))

/-- Slots that a slice holds, or that a snapshot has given it. -/
def slotsHeld (w : Work) (s : Nat) : Nat :=
  (w.slots.filter fun p => (p.2.state != .free && p.2.slice == s) || (p.2.next.map Prod.fst) == some s).length

/-- A free slot that nothing waits for. -/
def freeSlots (w : Work) : List Nat :=
  (List.range 48).filter fun k => (w.slot k).state == .free && (w.slot k).next.isNone

/-- Slots that R278 may evict. -/
def evictable (w : Work) : List (Nat × Slot) :=
  w.slots.filter fun p => p.2.state.resident && !p.2.chosen && !p.2.evict

/-- The slot that R278 evicts for a context of a priority, none where no candidate exists. `beat` is the current beat.
[DESIGN CHOICE, log entry 32] -/
def evictFor (w : Work) (beat : BitVec 64) (prio : Nat) : Option Nat :=
  let cand := evictable w
  let idle := bestBy (fun (a b : Nat × Slot) => b.2.beats ≤ a.2.beats) (cand.filter fun p => p.2.state == .idle)
  let blocked := bestBy (fun (a b : Nat × Slot) => a.2.priority < b.2.priority ||
    (a.2.priority == b.2.priority && b.2.beats ≤ a.2.beats)) (cand.filter fun p => p.2.state == .blocked)
  let running := bestBy (fun (a b : Nat × Slot) => a.2.priority < b.2.priority ||
    (a.2.priority == b.2.priority && (w.slice a.2.slice).deficit ≤ (w.slice b.2.slice).deficit))
    (cand.filter fun p => p.2.state == .runnable && p.2.priority < prio && p.2.loadedBeat.toNat + 1 < beat.toNat)
  ((idle.or blocked).or running).map Prod.fst

/-- Unstage every tile of a context that has not started (R270, R279). -/
def unstageCtx (s c : Nat) (w : Work) : Work :=
  (w.cmds.filter fun d => d.of s c).foldl (fun w d => unstageCmd d.id w) w

/-- Choose a slot for eviction (R279). [DESIGN CHOICE, log entry 32] -/
def chooseSlot (k : Nat) (w : Work) : Work :=
  let x := w.slot k
  unstageCtx x.slice x.ctx (w.updSlot k fun y => { y with chosen := true })

/-- The slots whose eviction is asked for: of FROZEN slices (R606) and of contexts that a CTX_EVICT names (R184). -/
def evictAsked (w : Work) : List Nat :=
  ((evictable w).filter fun p => (w.slice p.2.slice).state == .frozen ||
    w.cmds.any fun c => c.op == some .ctxEvict && c.waiting == .slot && c.endStatus.isNone && !c.suspended &&
      c.slice == some p.2.slice && fieldAt c.bytes 24 2 == p.2.ctx).map Prod.fst

/-- What a snapshot has still to give: evictions and loads, 8 of each at one edge (R279). -/
structure SlotBudget where
  evictions : Nat
  loads : Nat
  deriving DecidableEq, Repr

/-- Serve one claim (R278). [DEDUCED, log entry 52] -/
def serveClaim (e : Block) (a : Work × SlotBudget) (x : Claim) : Work × SlotBudget :=
  let w := a.1
  if a.2.loads = 0 || slotsHeld w x.slice ≥ e.dct.maxSlots x.slice then a
  else
    let free := freeSlots w
    match free[Config.freeChoice w.fresh % free.length]? with
    | some k =>
      ({ w with fresh := w.fresh + 1 }.updSlot k fun y => { y with next := some (x.slice, x.ctx) },
        { a.2 with loads := a.2.loads - 1 })
    | none =>
      if a.2.evictions = 0 then a
      else match evictFor w e.clk.beat x.priority with
        | some k =>
          ((chooseSlot k w).updSlot k fun y => { y with next := some (x.slice, x.ctx) },
            { evictions := a.2.evictions - 1, loads := a.2.loads - 1 })
        | none => a

/-- The evictions and loads of a snapshot (R278, R279). -/
def planSlots (e : Block) (w : Work) : Work :=
  let asked := (evictAsked w).take 8
  let w := asked.foldl (fun w k => chooseSlot k w) w
  ((claims w).foldl (serveClaim e) (w, { evictions := 8 - asked.length, loads := 8 })).1

/-! ### Lends (R289) -/

/-- The priority of a context, what is lent to it included (R274). -/
def fullPriority (w : Work) (s c : Nat) : Nat := max (ownPriority w s c) (lentTo w s c)

/-- Lend the priority of one waiting acquire to the holders of its semaphore (R289). -/
def lendFor (w0 : Work) (c : Cmd) (w : Work) : Work :=
  match c.slice with
  | none => w
  | some s =>
    let i := semIndex c.bytes
    let pw := effPriority w0 c
    (w.sem s i).holders.foldl (fun w h =>
      if fullPriority w s h.1 < pw then
        { w with lends := w.lends ++ [{ slice := s, sem := i, ctx := h.1, priority := pw, beats := 0, live := false }] }
      else w) w

/-- The lends of a snapshot. -/
def planLends (w : Work) : Work := (w.cmds.filter Cmd.acquiring).foldl (fun v c => lendFor w c v) w

/-! ### The snapshot -/

/-- The parameters of R260 take effect (R260): the last values written govern. -/
def takeParams (e : Block) : Block := { e with dct := { e.dct with taken := e.dct.vals } }

/-- Every slice takes its MAX_PRIORITY. -/
def takeMaxPriority (e : Block) (w : Work) : Work :=
  w.slices.foldl (fun w p => w.updSlice p.1 fun x => { x with maxPrio := e.dct.maxPriority p.1 }) w

/-- The shares and grants of the next beat (R262 to R264). -/
def planGrants (e : Block) (w : Work) : Work :=
  let ports := servingPorts w
  let p := ports.length
  let b := beatNs e
  let rr := w.rr
  let demand := (w.slices.map Prod.fst).filter fun s => sliceTiles w s != 0
  let wsum := (demand.map e.dct.weight).sum
  let w := w.slices.foldl (fun w x => w.updSlice x.1 fun y =>
    let d := chargedDeficit y (demand.contains x.1)
    let d := if demand.contains x.1 then
        min (d + ((p * b * e.dct.weight x.1 / wsum : Nat) : Int)) ((p * b * e.dct.defCap : Nat) : Int)
      else d
    { y with deficit := d, used := 0 }) w
  let bids := demand.map fun s =>
    { slice := s, tent := (w.slice s).deficit, left := min p (sliceTiles w s), count := 0 : Bid }
  let bids := handOut rr (b : Int) p bids
  let placed := placePorts w rr ports bids
  let w := (List.range 16).foldl (fun w q => w.updPort q fun x =>
    let prim := (placed.find? fun y => y.1 == q).map Prod.snd
    if ports.contains q then { x with nextPrimary := prim, nextGrants := grantList w rr q prim bids }
    else { x with nextPrimary := none, nextGrants := [] }) w
  { w with rr := (rr + 1) % 64 }

/-- The snapshot before a beat edge (R33 step 1). -/
def takeSnapshot (b : Block) : Block :=
  let e := takeParams b
  let w := takeMaxPriority e e.work
  { e with work := planSlots e (planLends (planGrants e w)) }

/-- GRANT_SNAPSHOT. -/
def execGrantSnapshot (s : State) : Host.Outcome State Fault Refusal := .next (s.onAll takeSnapshot)

/-! ### Timeouts and lends that run out -/

/-- The queues of the entities on a path, as a map of queue numbers (R338). -/
def pathMap (w : Work) (path : List Nat) : BitVec 64 :=
  path.foldl (fun m id => match w.cmd id with
    | some c => setBit m (c.qk % 64)
    | none => m) 0

/-- Whether a command's fence wait is unmet (R322, R338), be it registered or without a watch slot. -/
def waitUnmet (w : Work) (s : Nat) (c : Cmd) : Bool :=
  c.phase == .fetched && cWait c.bytes && !c.waitDone && c.endStatus.isNone &&
    ((w.fence s (cWaitFence c.bytes)).resolve (cWaitValue c.bytes)).isNone

/-- The queues of the entities on the paths that the walk finds from the commands that a timeout ends: the command, and where it
is the entry of a run its nodes (R211, R338). -/
def timeoutMap (w : Work) (s id : Nat) : BitVec 64 :=
  (w.cmds.filter fun c => (c.id == id || c.parent == some id) && waitUnmet w s c).foldl (fun m c =>
    m ||| ((deadlockWalk w s c.entity (cWaitFence c.bytes) 64 4096).map (pathMap w)).getD 0) 0

/-- A command's timeout has run out (R212): it ends with CMD_TIMEOUT, unless its context is being torn down (R563). With an unmet
fence wait the walk runs once more (R338). -/
def timeoutCmd (e : Block) (id : Nat) (w : Work) : Work :=
  match w.cmd id with
  | none => w
  | some c =>
    if c.timer != some 0 || c.endStatus.isSome || c.suspended then w
    else match c.slice with
      | none => faultCmd e id St.cmdTimeout 0 w
      | some s =>
        if tearing w s c.ctx || (w.ctx s c.ctx).killed then faultCmd e id St.cmdTimeout 0 w
        else
          let m := timeoutMap w s id
          faultCmd e id St.cmdTimeout m ((w.updSlice s fun x => { x with cycleMap := x.cycleMap ||| m }).sets (.cycleMap s) m)

/-- A command's timeout has run out in this control cycle: what completes the command in the same cycle holds (R213, R438, R555), so
that the timeout takes effect at the cycle's end. -/
def commandTimeoutOp (id : Nat) (w : Work) : Work := w.later (.timeout id)

/-- COMMAND_TIMEOUT. [DESIGN CHOICE, log entry 7] -/
def execCommandTimeout (id : Nat) (s : State) : Host.Outcome State Fault Refusal :=
  .next (s.onWork fun _ w => commandTimeoutOp id w)

/-- Whether an acquire that waits needs a lend (R290) and does not time out at the edge at which the lend runs out (R295). -/
def lendStands (w : Work) (s i c : Nat) : Bool :=
  w.cmds.any fun d => d.acquiring && d.slice == some s && semIndex d.bytes == i && d.timer != some 0 &&
    decide (ownPriority w s c < effPriority w d)

/-- A lend has run out (R291): the holder's units of the semaphore are force-released and its context is torn down. Where every
acquire that needs it times out at the same edge, the lend ends and nothing is torn down (R295). -/
def lendOut (e : Block) (s i c : Nat) (w : Work) : Work :=
  if w.lends.any fun l => l.slice == s && l.sem == i && l.ctx == c && l.live && l.beats == 0 then
    if !lendStands w s i c then { w with lends := w.lends.filter fun l => !(l.slice == s && l.sem == i && l.ctx == c) }
    else
    let w := w.updSem s i fun m => { m.setHolding c 0 with abandoned := true }
    startTeardown e s c St.semLendExpired St.ownerReset none w
  else w

/-- A lend has run out in this control cycle: a SEM_RELEASE of the same cycle counts as made before (R292), and a timeout of the
acquire that waits ends it first (R295). -/
def lendExpiryOp (s i c : Nat) (w : Work) : Work := w.later (.lend s i c)

/-- LEND_EXPIRY. [DESIGN CHOICE, log entry 7] -/
def execLendExpiry (slice sem context : Nat) (s : State) : Host.Outcome State Fault Refusal :=
  .next (s.onWork fun _ w => lendExpiryOp slice sem context w)

/-- SLOT_SAVE_DONE. -/
def execSlotSaveDone (slot : Nat) (s : State) : Host.Outcome State Fault Refusal :=
  .next (s.onWork fun e w => slotSaved e slot w)

/-- SLOT_LOAD_DONE. -/
def execSlotLoadDone (slot : Nat) (s : State) : Host.Outcome State Fault Refusal :=
  .next (s.onWork fun e w => slotLoaded e slot w)

end Sys2Proof.Machine
end

