-- ==== Sys2Proof/Machine/Beat.lean ====
section
/-! DEFINITION. The beat: its edges (R26 to R33), the beat registers (R27, R35), BEAT messages (R502 to R505), and what the
frame does at an edge (R524, R525, R542, R549 to R551). -/

namespace Sys2Proof.Machine

/-- Change the clock. -/
def Block.updClk (b : Block) (f : Clock → Clock) : Block := { b with clk := f b.clk }

/-- Change the links. -/
def Block.updLnk (b : Block) (f : Links → Links) : Block := { b with lnk := f b.lnk }

/-! ### Beat registers -/

/-- A write of BEAT_QUARTERS (R27, R34): outside 4 to 128, or past its lock point, it is discarded (R16). -/
def writeQuarters (v : BitVec 8) (b : Block) : Block :=
  if 4 ≤ v.toNat ∧ v.toNat ≤ 128 ∧ ¬b.dct.locked then b.updClk fun c => { c with quarters := v } else b

/-- BEAT_QUARTERS_WRITE. -/
def execBeatQuartersWrite (value : BitVec 8) (s : State) : Host.Outcome State Fault Refusal :=
  .next (s.onAll (writeQuarters value))

/-! ### BEAT messages (R502, R503) -/

/-- A beat length in units of 0.25 ns (R26). -/
def beatUnits (b : Block) : Nat := 1000 * b.clk.quarters.toNat

/-- The payload of a BEAT (R490). [DESIGN CHOICE, log entry 47] -/
def beatPayload (b : Block) (edge lead depth : Nat) (pathOk : Bool) : List Byte :=
  leBytes 8 edge ++ leBytes 4 lead ++ leBytes 1 b.clk.quarters.toNat ++ leBytes 1 b.frm.mgr.toNat ++ leBytes 1 depth ++
    leBytes 1 (bit pathOk) ++ leBytes 2 b.frm.epoch.toNat

/-- Send a BEAT on every child port that does not sleep (R502, R503, R620), for an edge at a time: its LEAD is filled in as its frame
begins. -/
def sendBeats (edge t depth : Nat) (pathOk : Bool) (b : Block) : Block :=
  ((childPorts b).filter fun c => portUp b c.1).foldl (fun b c =>
    let q : Queued := { port := c.1, transit := false, msg := mkMsg b 0x01 c.2 0 (beatPayload b edge 0 depth pathOk), edgeAt := some t }
    b.updWork fun w => { w with msgs := { w.msgs with out := w.msgs.out ++ [q] } }) b

/-- The fields of a BEAT message (R490). -/
structure BeatMsg where
  edge : Nat
  lead : Nat
  quarters : BitVec 8
  mgr : BitVec 6
  depth : Nat
  pathOk : Bool
  epoch : BitVec 16
  deriving DecidableEq, Repr

/-- The BEAT in a message. -/
def beatOf (m : Msg) : BeatMsg :=
  let p := m.payload
  { edge := fieldAt p 0 8, lead := fieldAt p 8 4, quarters := BitVec.ofNat 8 (fieldAt p 12 1), mgr := BitVec.ofNat 6 (fieldAt p 13 1),
    depth := fieldAt p 14 1, pathOk := (fieldAt p 15 1).testBit 0, epoch := BitVec.ofNat 16 (fieldAt p 16 2) }

/-- Whether an epoch is newer (R551). -/
def epochNewer (new old : BitVec 16) : Bool := let d := (new - old).toNat; decide (1 ≤ d ∧ d ≤ 32767)

/-- The worker places the edge that a BEAT names, and sends the BEAT on (R503 to R505). One that comes in the control cycle of the
edge it names, or later, corrects nothing; in that cycle MISSED falls to 0 (R555). [DESIGN CHOICE, log entry 47] -/
def placeEdge (p arrival : Nat) (m : BeatMsg) (b : Block) : Block :=
  let t := arrival + m.lead - (b.lport p).hop.toNat
  let ahead : Bool := decide (b.now < t) && match b.lnk.placed with
    | some n => decide (n < m.edge)
    | none => true
  let met : Bool := m.edge == b.clk.beat.toNat && b.clk.phase == 0
  let b := b.updLnk fun l => { l with
    depth := BitVec.ofNat 4 m.depth, missed := if met then 0 else l.missed,
    edges := if ahead then (l.edges.filter fun y => y.1 != m.edge) ++ [(m.edge, t, m.pathOk && decide (m.depth ≤ 7))] else l.edges }
  sendBeats m.edge t (m.depth + 1) (m.pathOk && b.aligned) b

/-- The chip takes a manager (R524, R551): of another one than before, it has no edge and no request yet.
[DESIGN CHOICE, log entry 47] -/
def takeManager (m : BeatMsg) (b : Block) : Block :=
  let b := if m.mgr = b.frm.mgr ∧ m.epoch = b.frm.epoch then b
    else (b.updLnk fun l => { l with edges := [], placed := none }).updFrm fun f => { f with reqIn := [] }
  (b.updClk fun c => { c with src := 1 }).updFrm fun f => { f with mgr := m.mgr, epoch := m.epoch, mgrLost := false, lossByNotice := false }

/-- A manager that meets a newer one steps down (R551); what it has registered with other chips ends (R331). -/
def stepDown (b : Block) : Block :=
  let b := dropForwards b
  let b := (ownedBarriers b).foldl (fun b i => breakBar i b.frm.lastCause b.dct.chipNum b) b
  let b := b.updFrm fun f => { f with state := .following, admitted := clrBit f.admitted b.dct.chipNum }
  let b := b.updFrm fun f => { f with pending := pendingNow b }
  { b with work := losePeers b b.work }

/-- A BEAT message (R503, R524, R551). -/
def beatMsg (p arrival : Nat) (msg : Msg) (b : Block) : Block :=
  let m := beatOf msg
  if b.frm.state == .listening then
    if 4 ≤ m.quarters.toNat ∧ m.quarters.toNat ≤ 128 ∧ portUp b p then
      let b := takeManager m (b.updClk fun c => { c with quarters := m.quarters })
      placeEdge p arrival m (b.updFrm fun f => { f with state := .following })
    else b
  else if !b.frm.viewed then b
  else if epochNewer m.epoch b.frm.epoch then
    placeEdge p arrival m (takeManager m (if isMgr b then stepDown b else b))
  else if isWorker b && parentPort b == some p && m.mgr == b.frm.mgr && m.epoch == b.frm.epoch then
    placeEdge p arrival m (takeManager m b)
  else b

/-- BEAT_MESSAGE. -/
def execBeatMessage (s : State) : Host.Outcome State Fault Refusal := .next (s.onAll (onMsgAll 0x01 beatMsg))

/-! ### The edge: number and alignment (R30, R33 step 2, R504, R505) -/

/-- The edge that a worker has placed from a BEAT and that falls now: the one that comes next by number, or the first whose
time has come. [DESIGN CHOICE, log entry 47] -/
def placedEdge (b : Block) : Option (Nat × Nat × Bool) :=
  let next := b.lnk.edges.find? fun x => x.1 == b.clk.beat.toNat + 1
  next.or ((b.lnk.edges.filter fun x => x.2.1 ≤ b.now + 4).foldl (fun (best : Option (Nat × Nat × Bool)) x =>
    match best with
    | none => some x
    | some y => if x.2.1 < y.2.1 then some x else some y) none)

/-- The time of an edge that no BEAT has placed: one beat length after the one before. -/
def ownEdge (b : Block) : Nat := b.lnk.lastEdge + beatUnits b

/-- A time at the nearest control cycle (R504), in units of 0.25 ns. [DESIGN CHOICE, log entry 47] -/
def atCycle (b : Block) (t : Nat) : Nat := (t * b.dct.cclkKhz + 2000000) / 4000000 * 4000000 / b.dct.cclkKhz

/-- The beat number rises, and the phase starts again. -/
def edgeClock (b : Block) : Block :=
  let b := b.updClk fun c => { c with phase := 0 }
  match (if isWorker b then placedEdge b else none) with
  | some (n, at', ok) =>
    let t := atCycle b at'
    let err : Int := (t : Int) - (ownEdge b : Int)
    (b.updClk fun c => { c with beat := BitVec.ofNat 64 n, aligned := ok }).updLnk fun l => { l with
      missed := 0, lastErr := BitVec.ofInt 16 err, lastEdge := t, placed := some n, edges := l.edges.filter fun x => n < x.1 }
  | none =>
    let t := if isWorker b then ownEdge b else b.now
    let n := (b.clk.beat + 1).toNat
    (b.updClk fun c => { c with beat := c.beat + 1, aligned := false }).updLnk fun l => { l with
      placed := if isWorker b then l.placed.map fun _ => n else none
      missed := if isWorker b then satInc l.missed else 0, lastErr := 0, lastEdge := t }

/-! ### The edge: the frame (R502, R525, R542, R549, R550) -/

/-- Whether the standby takes over (R549). -/
def takesOver (b : Block) : Bool :=
  isWorker b && b.dct.standbyChip == b.dct.chipNum && b.frm.mgrLost && decide (3 ≤ b.lnk.missed.toNat) &&
    (decide ((frameChips b).length < 2 * (treeFrom b b.dct.chipNum).length) || b.frm.lossByNotice)

/-- The standby becomes the manager (R550), MINORITY if it reaches fewer than half of F (R552). Chips that it has held pending, the
old manager among them, stay so from when they became it (R529, R550). [DESIGN CHOICE, log entry 47] -/
def takeOver (b : Block) : Block :=
  let old := b.frm.mgr.toNat
  let me := b.dct.chipNum
  let b := (b.updClk fun c => { c with src := 1, aligned := false }).updLnk fun l => { l with edges := [], missed := 0, depth := 0, placed := none }
  let b := b.updFrm fun f => { f with
    state := .manager, mgr := BitVec.ofNat 6 me, epoch := f.epoch + 1, mgrLost := false, lossByNotice := false,
    admitted := setBit (clrBit f.admitted old) me, reqIn := [] }
  checkMinority b.frm.lastCause old (b.updFrm fun f => { f with pending := pendingNow b })

/-- One beat passes for every pending chip (R525, R529). -/
def agePending (f : Frame) : Frame :=
  { f with pending := f.pending.map fun p => (p.1, p.2.map fun x => { x with beats := x.beats + 1, sinceRead := x.sinceRead.map (· + 1) }) }

/-- What the manager does at an edge. -/
def managerEdge (b : Block) : Block :=
  let b := (b.frm.pending.map Prod.fst).foldl (fun b c => readPending c b) b
  let b := sendBeats (b.clk.beat.toNat + 2) (b.lnk.lastEdge + 2 * beatUnits b) 1 true b
  b.updWork fun w => w.later .reopen

/-- What the frame does at an edge. A takeover waits for the end of the control cycle, since a BEAT in it holds (R555). -/
def frameEdge (b : Block) : Block :=
  let b := if b.frm.state == .listening then b.updFrm fun f => { f with listened := f.listened + 1 } else b
  let b := if b.frm.viewed then b.updFrm agePending else b
  let b := if takesOver b then b.updWork (fun w => w.later .takeOver) else b
  if isMgr b then managerEdge b else b

/-- The standby takes over at an edge, unless a BEAT has come in its control cycle (R549, R555).
[DESIGN CHOICE, log entry 47] -/
def takeOverLate (b : Block) : Block := if takesOver b then managerEdge (takeOver b) else b

/-! ### The edge: grants, levels, timers, programs, contexts (R33 steps 2 to 6) -/

/-- A level restarts (R265). [DESIGN CHOICE, log entry 68] -/
def refill (limit burst : Nat) (lvl : Int) : Int :=
  if limit = 0 then lvl else min (lvl + limit) ((limit * (1 + burst) : Nat) : Int)

/-- The levels of every slice restart. -/
def refillLevels (d : Dict) (w : Work) : Work :=
  w.slices.foldl (fun w p =>
    if p.2.state == .off then w
    else w.updSlice p.1 fun x => { x with
      lvlCmd := refill (d.cmdLimit p.1) (d.burstBeats p.1) x.lvlCmd
      lvlPlaner := refill (d.planerLimit p.1) (d.burstBeats p.1) x.lvlPlaner
      lvlMem := refill (d.memLimit p.1) (d.burstBeats p.1) x.lvlMem }) w

/-- The grants take effect. -/
def takeGrants (w : Work) : Work :=
  (w.ports.map Prod.fst).foldl (fun w p => w.updPort p fun x => { x with primary := x.nextPrimary, grants := x.nextGrants }) w

/-- Whether a command's timer runs (R211, R565, R605): not of one suspended, stopped, or held as a suspect. -/
def timerRuns (w : Work) (c : Cmd) : Bool :=
  !c.suspended && c.endStatus.isNone && c.phase != .stopping &&
    !(w.jnr.progs.any fun p => p.cmd == c.id && p.suspect && !p.replaying)

/-- The remaining timeout of every started command falls by one (R33 step 3, R212). -/
def fallTimers (w : Work) : Work :=
  w.mapCmds fun c => if timerRuns w c then { c with timer := c.timer.map (· - 1) } else c

/-- One more beat for slots, coalescing counts and the contexts that a core fault may suspect (R146, R277, R565). -/
def ageBeats (w : Work) : Work :=
  let queue (q : Queue) : Queue := { q with sinceBeats := q.sinceBeats.map (· + 1) }
  let w : Work := (List.range 48).foldl (fun w k => w.updSlot k fun x => { x with beats := satInc x.beats })
    { w with queues := w.queues.map fun p => (p.1, queue p.2) }
  (w.jnr.cores.map Prod.fst).foldl (fun w k => w.updCore k fun x => { x with
    left := (x.left.map fun (y : Nat × Nat × Nat) => (y.1, y.2.1, y.2.2 - 1)).filter fun (y : Nat × Nat × Nat) => y.2.2 != 0 }) w

/-- The evictions and loads that the snapshot decided begin (R33 step 5, R279). -/
def beginSlots (e : Block) (w : Work) : Work :=
  let go (x : Slot) : Slot := if x.chosen then { x with chosen := false, evict := true } else x
  let w : Work := { w with slots := w.slots.map fun p => (p.1, go p.2) }
  (w.slots.filter fun p => p.2.state == .free && p.2.next.isSome).foldl (fun w p => beginSlotLoad e p.1 w) w

/-- Lends take effect, and those in effect lose a beat (R289). -/
def edgeLends (d : Dict) (w : Work) : Work :=
  { w with lends := w.lends.map fun l => if l.live then { l with beats := l.beats - 1 } else { l with live := true, beats := d.lendBeats } }

/-- At multiples of 256 (R33 step 6, R150): records of resident contexts are written, and what is held is retried. -/
def edge256 (e : Block) (w : Work) : Work :=
  let w := (w.slots.filter fun p => p.2.state.resident).foldl (fun w p => writeCtxValues e p.2.slice p.2.ctx w) w
  (w.queues.filter fun p => p.2.state != .absent).foldl (fun w p => retryQueue e p.1 w) w

/-- At multiples of 65,536: the counts of the window restart (R513, R568, R575). [DESIGN CHOICE, log entry 39] -/
def edge65536 (w : Work) : Work :=
  let w := (w.ports.map Prod.fst).foldl (fun w p => w.updPort p fun x => { x with hard := 0 }) w
  (w.jnr.cores.map Prod.fst).foldl (fun w k => w.updCore k fun x => { x with unattrib := 0 }) w

/-- Every joiner core that runs its firmware receives the beat event (R33 step 4). -/
def sendBeatEvent (w : Work) : Work :=
  let m := coresUp w
  if m = 0 then w
  else (List.range 32).foldl (fun w k => if m.getLsbD k then w.updCore k fun x => { x with events := min 2 (x.events + 1) } else w)
    (w.emit (.beatEvent m))

/-- What an edge does to the shared state (R33). -/
def edgeWork (e : Block) (w : Work) : Work :=
  let w := refillLevels e.dct (takeGrants w)
  let w := dispatchTidies e (sendBeatEvent (ageBeats (fallTimers w)))
  let w := edgeLends e.dct (beginSlots e w)
  let w := if e.clk.beat.toNat % 256 = 0 then edge256 e w else w
  if e.clk.beat.toNat % 65536 = 0 then edge65536 w else w

/-- What an edge does to the Tenon ports (R486, R513): FLAPS of a port that the flap limit holds stay (R488). -/
def edgeLinks (b : Block) : Block :=
  let flaps : Bool := b.clk.beat.toNat % 65536 == 0
  (List.range 6).foldl (fun b p => b.updLport p fun x =>
    let x := x.beatOver
    if flaps && x.state != .disabled then { x with flaps := 0 } else x) b

end Sys2Proof.Machine
end

