-- ==== Sys2Proof/Machine/Fetch.lean ====
section
/-! DEFINITION. From a submission entry to a released command: reading and checking (R161, R162, R173, R705), the object
table cache (R227), chains (R204 to R208), and release (R166, R172, R276, R322, R323, R336). -/

namespace Sys2Proof.Machine

/-! ### The object table cache (R227) -/

/-- The table entries that handles name (R227, R242): of each object its own entry, of a stream its descriptor's too, which
stands in the stream table behind the object table. -/
def entriesOf (w : Work) (hs : List Nat) : List Nat :=
  let is := (hs.map hIndex).dedup.filter fun i => i != 0 && decide (i < w.tableEntries)
  is ++ ((is.filter fun i => (w.obj i).live && (w.obj i).stream).map fun i => w.tableEntries + (w.obj i).desc)

/-- Whether a table entry is in the cache. -/
def entryCached (w : Work) (i : Nat) : Bool :=
  if i < w.tableEntries then (w.obj i).cached else tblGet false w.streamCached (i - w.tableEntries)

/-- Put a table entry into the cache, or take it out. -/
def setCached (i : Nat) (on : Bool) (w : Work) : Work :=
  if i < w.tableEntries then w.updObj i fun o => { o with cached := on }
  else { w with streamCached := tblSet false w.streamCached (i - w.tableEntries) on }

/-- The table entries that handles name and that are not cached. -/
def uncached (w : Work) (hs : List Nat) : List Nat := (entriesOf w hs).filter fun i => !entryCached w i

/-- Count a hit or a miss for each entry that handles name. -/
def countLookups (w : Work) (hs : List Nat) : Work :=
  let miss := (uncached w hs).length
  { w with objHits := w.objHits + BitVec.ofNat 64 ((entriesOf w hs).length - miss), objMisses := w.objMisses + BitVec.ofNat 64 miss }

/-- Read table entries that are not cached and not being read. -/
def readTable (e : Block) (is : List Nat) (w : Work) : Work :=
  is.foldl (fun w i =>
    if w.fab.reqs.any fun r => r.why == .objEntry i then w
    else readFor e none true (w.tableBase + 64 * i) 64 (.objEntry i) w) w

/-- The table entries in the cache. -/
def cachedEntries (w : Work) : List Nat :=
  (w.objs.filter fun p => p.2.cached).map Prod.fst ++ w.streamCached.map fun p => w.tableEntries + p.1

/-- An entry enters the cache of 8,192 entries (R227); where it is full another leaves it.
[DESIGN CHOICE, log entry 32] -/
def cacheEntry (i : Nat) (w : Work) : Work :=
  let held := cachedEntries w
  let w := if held.length < 8192 then w
    else
      let d := w.draw
      match held[Config.freeChoice d.1 % held.length]? with
      | some v => setCached v false d.2
      | none => w
  setCached i true w

/-! ### Checks at fetch (R173) -/

/-- Where a command was found (R169, R170). -/
def placeOf (w : Work) (c : Cmd) : Place := { slice := c.slice, cls := (w.queue c.qk).desc.cls, node := c.parent.isSome }

/-- The handles that a command's fields hold. -/
def handlesOf (b : List Byte) : List Nat :=
  match cOp b with
  | some o => (handleFields o b).map Prod.snd
  | none => []

/-- A command fails a check: it writes its record, also as a node that waits for predecessors (R174, R196). -/
def failCheck (id : Nat) (st : Status) (w : Work) : Work :=
  w.updCmd id fun d => { d.endWith st with quietEnd := d.quietEnd }

/-- Checks 4 and 5, and the taking of references (R173, R233), once every entry that the command names is cached. -/
def admitObjects (e : Block) (id : Nat) (w : Work) : Work :=
  match w.cmd id with
  | none => w
  | some c =>
    let hs := handlesOf c.bytes
    let miss := uncached w hs
    if !miss.isEmpty then readTable e miss (w.updCmd id fun d => { d with waiting := .table })
    else
      let w := w.updCmd id fun d => { d with waiting := .none }
      let st := checkObjects e w (placeOf w c) c.bytes
      if st ≠ St.ok then failCheck id st w
      else match cOp c.bytes with
        | some o =>
          let is := refsOf o c.bytes
          takeRefs is (w.updCmd id fun d => { d with refs := is })
        | none => w

/-- Checks 1 to 5 of a command whose entries have all been read; its timer starts (R211). -/
def admitCmd (e : Block) (id : Nat) (w : Work) : Work :=
  match w.cmd id with
  | none => w
  | some c =>
    let w := w.updCmd id fun d => { d with phase := .fetched, timer := some (timeoutOf w c.qk c.bytes) }
    if formOk e w (placeOf w c) c.bytes then admitObjects e id (countLookups w (handlesOf c.bytes))
    else failCheck id St.badCommand w

/-! ### Submission entries (R162, R705) -/

/-- A command whose base has been read at a position. -/
def newCmd (w : Work) (qk : Nat) (pos : BitVec 32) (b : List Byte) : Cmd :=
  let x := cExt b
  { id := w.nextId, qk := qk, slice := sliceOf qk, ctx := (w.queue qk).desc.context, sqIndex := pos,
    span := if x = 3 then 1 else 1 + x, node := 0xFFFF, bytes := b, parent := none, chainPos := none, phase := .partBase,
    waiting := .none, timer := none, priority := (w.queue qk).desc.priority, order := w.nextOrder, relOrder := 0, refs := [],
    slotTaken := false, waitDone := false, sigDone := false, quietEnd := false, badStatus := 0, endStatus := none,
    suspended := (match sliceOf qk with
      | some s => (w.slice s).state == .frozen
      | none => false),
    tilesDone := [], bytesDone := 0, writesLeft := 0, codes := 0, clipped := 0, escs := 0, aux := [], auxNat := 0 }

/-- The base of a queue that lacks extension entries. -/
def partBaseOf (w : Work) (qk : Nat) : Option Cmd :=
  w.cmds.find? fun c => c.qk == qk && c.phase == .partBase && c.endStatus.isNone

/-- A command is complete: it is checked, or ends unrun where its context is torn down (R140).
[DESIGN CHOICE, log entry 10] -/
def complete (e : Block) (c : Cmd) (w : Work) : Work :=
  if (w.queue c.qk).state == .draining then
    endCmd c.id St.contextKilled (w.updCmd c.id fun d => { d with phase := .fetched })
  else admitCmd e c.id w

/-- The block has finished with a position that an extension of a base that has ended takes: the last of them may let a queue
halt (R140). -/
def skipPos (e : Block) (qk : Nat) (pos : BitVec 32) (w : Work) : Work :=
  drainCheck e qk (finishPos qk pos 1 (w.updQueue qk fun q => { q with skip := q.skip - 1 }))

/-- One entry that has been read at a position (R161, R162). [DESIGN CHOICE, log entry 10] -/
def takeEntry (e : Block) (qk : Nat) (pos : BitVec 32) (b : List Byte) (w : Work) : Work :=
  let q := w.queue qk
  if q.skip ≠ 0 then skipPos e qk pos w
  else match partBaseOf w qk with
    | some c =>
      let c := { c with bytes := c.bytes ++ b }
      let w := w.updCmd c.id fun _ => c
      if c.bytes.length / 64 = c.span then complete e c w else w
    | none =>
      let c := newCmd w qk pos b
      let w := { w with cmds := w.cmds ++ [c], nextId := w.nextId + 1, nextOrder := w.nextOrder + 1 }
      if c.span = 1 then complete e c w else w

/-- One position that a failed read covered (R705): so it is while its queue drains too, where R140 names CONTEXT_KILLED for an
entry whose read has returned. [DESIGN CHOICE, log entry 21] -/
def failEntry (e : Block) (qk : Nat) (pos : BitVec 32) (st : Status) (w : Work) : Work :=
  let q := w.queue qk
  if q.skip ≠ 0 then skipPos e qk pos w
  else match partBaseOf w qk with
    | some c => skipPos e qk pos (endPartBase st c w)
    | none =>
      drainCheck e qk (finishPos qk pos 1 (produceRecord e qk (newRec e w qk pos 0xFFFF st) w))

/-- The first position of a submission read. -/
def sqFirst (qk : Nat) (r : Req) : Option Nat :=
  match r.why with
  | .sqRead k first _ => if k = qk then some first else none
  | _ => none

/-- Whether a read is the oldest of its queue that has not been taken: reads are taken in ring order. -/
def oldestRead (w : Work) (qk first : Nat) : Bool :=
  ((w.fab.reqs.filterMap (sqFirst qk)).head?.getD first) == first

/-- A base left without its extension entries in a slice that reads no more ends (R118, R217). -/
def rejectLate (qk : Nat) (w : Work) : Work :=
  match sliceOf qk with
  | some s => if (w.slice s).state == .draining then rejectPartBases (fun c => c.qk == qk) w else w
  | none => if w.admin.enable then w else rejectPartBases (fun c => c.qk == qk) w

/-- Whether a draining queue's incomplete base can never be completed: its remaining entries are not read (R140). -/
def drainLate (qk : Nat) (w : Work) : Work :=
  if (w.queue qk).state == .draining then
    match partBaseOf w qk with
    | some c => if (w.queue qk).readNext = c.sqIndex + BitVec.ofNat 32 (c.bytes.length / 64) then
        endPartBase St.contextKilled c w else w
    | none => w
  else w

/-- Take the answer of a submission read (R162, R705). -/
def entriesRead (e : Block) (tag : Nat) (w : Work) : Work :=
  match w.req tag with
  | none => w
  | some r =>
    match r.why, r.answer with
    | .sqRead qk first n, some (st, data) =>
      if !oldestRead w qk first then w
      else
        let w := w.dropReq tag
        if (w.queue qk).state == .absent || st == St.pasidRevoked then w
        else
          let w := (List.range n).foldl (fun w i =>
            let pos := BitVec.ofNat 32 (first + i)
            if st = St.ok then takeEntry e qk pos (bytesAt data (64 * i) 64) w else failEntry e qk pos st w) w
          drainLate qk (rejectLate qk w)
    | _, _ => w

/-- ENTRY_READ_RETURN. -/
def execEntryReadReturn (tag : Nat) (s : State) : Host.Outcome State Fault Refusal :=
  .next (s.onWork fun e w => entriesRead e tag w)

/-! ### Chains (R204 to R208) -/

/-- The successor of a chained command is complete: it becomes the command, takes its place in the order of fetching (R199), is
timed from its read and checked (R205, R211); in a FROZEN slice it is suspended (R605). -/
def chainAdmit (e : Block) (c : Cmd) (b : List Byte) (w : Work) : Work :=
  admitCmd e c.id ({ w with nextOrder := w.nextOrder + 1 }.updCmd c.id fun d =>
    { d with
      bytes := b, aux := [], auxNat := 0, phase := .fetched, node := 0xFFFF, order := w.nextOrder, suspended := c.frozen w })

/-- A chain ends because its successor could not be read: the record of that position carries the status (R207, R208). So it
is where the base was read and its extension was not: the record names no fence, and none is marked.
[DESIGN CHOICE, log entry 60] -/
def chainUnread (e : Block) (c : Cmd) (st : Status) (w : Work) : Work :=
  let w := produceRecord e c.qk { newRec e w c.qk c.sqIndex (BitVec.ofNat 16 (c.chainPos.getD 0)) st with context := c.ctx } w
  entryEnded e c w

/-- The answer to the read of a successor (R204). -/
def chainAnswered (e : Block) (id : Nat) (st : Status) (data : List Byte) (w : Work) : Work :=
  match w.cmd id with
  | none => w
  | some c =>
    if st ≠ St.ok then chainUnread e c st w
    else
      let b := c.aux ++ data
      let x := cExt b
      if b.length = 64 && (x == 1 || x == 2) then
        let ptr := c.auxNat
        if c.frozen w then w
        else readFor e c.slice (ptrDev ptr) (ptrAddr ptr + 64) (64 * x) (.chainNext id) (w.updCmd id fun d => { d with aux := b })
      else chainAdmit e c b w

/-- A successor of a chain that has failed: its fence carries the status, and the walk goes on (R208). -/
def chainSkipped (e : Block) (id : Nat) (st : Status) (b : List Byte) (w : Work) : Work :=
  match w.cmd id with
  | none => w
  | some c =>
    if st ≠ St.ok then entryEnded e c w
    else
      let w := match c.slice with
        | some s =>
          if cSignal b && cSigFence b < (w.slice s).fenceCount then markFence s (cSigFence b) c.badStatus (some (cSigValue b)) w else w
        | none => w
      let k := c.chainPos.getD 0 + 1
      let ptr := cChainPtr b
      if cChain b && ptrOk ptr && k < e.dct.chainLimit && mayWrite w c.qk (ptrDev ptr) then
        readSuccessor e c ptr true (w.updCmd id fun d => { d with chainPos := some k })
      else entryEnded e c w

/-! ### Release (R166, R172, R276, R322, R323) -/

/-- Whether an earlier entry of the same queue has not been released (R172). -/
def heldByOrder (w : Work) (c : Cmd) : Bool :=
  c.parent.isNone && c.chainPos.isNone && w.cmds.any fun d =>
    d.qk == c.qk && d.parent.isNone && d.chainPos.isNone && decide (d.order < c.order) &&
      (d.phase == .partBase || d.phase == .fetched)

/-- Whether a slice is in a reset by DOMAIN_RESET (R580, R582). -/
def sliceInReset (w : Work) (s : Nat) : Bool :=
  w.cmds.any fun c => c.op == some .domainReset && c.waiting == .domain && c.endStatus.isNone && fieldAt c.bytes 24 1 == 5 &&
    fieldAt c.bytes 25 1 == s

/-- Whether a slice's own state lets it release a command of a context (R116, R276, R562, R582). -/
def mayRelease (w : Work) (c : Cmd) : Bool :=
  match c.slice with
  | none => true
  | some s => (w.slice s).runs && w.isResident s c.ctx && !(w.ctx s c.ctx).stopped && !sliceInReset w s

/-- Whether the commands level holds a command back (R267). -/
def cmdShut (e : Block) (w : Work) (c : Cmd) : Bool :=
  match c.slice with
  | some s => levelShut (e.dct.cmdLimit s) (w.slice s).lvlCmd
  | none => false

/-- Whether a command will wait as it runs, and so takes a watch slot to be released (R322): an acquire that is not granted at
once, a WAIT_GE whose counter is too low. -/
def needsSlot (w : Work) (c : Cmd) : Bool :=
  match c.op with
  | some .semAcquire => !acquireReady w { c with waiting := .sem, relOrder := w.nextOrder }
  | some .counterOp => fieldAt c.bytes 27 1 == 3 && !waitMet w { c with waiting := .counter }
  | _ => false

/-- A SEM_ACQUIRE that is granted as it is released, or a WAIT_GE whose counter is high enough, does not wait: it is carried out
with its release (R314, R319). [DESIGN CHOICE, log entry 12] -/
def passWait (c : Cmd) (w : Work) : Work :=
  match c.op with
  | some .semAcquire => grantAcquire c w
  | some .counterOp => if fieldAt c.bytes 27 1 = 3 then endCmd c.id St.ok w else w
  | _ => w

/-- Release a command, charging its slice (R171, R266): one whose wait finds no watch slot holds in place (R322), and one that
need not wait is not held. A COUNTER_OP acts on the slot that its context holds now (R321).
[DESIGN CHOICE, log entry 12] -/
def doRelease (e : Block) (c : Cmd) (w : Work) : Work :=
  if mayRelease w c && !cmdShut e w c && (!needsSlot w c || c.slice.any (slotFree w)) then
    let waits := needsSlot w c
    let w := w.updCmd c.id fun d => { d with
      phase := .released, relOrder := w.nextOrder, waitDone := true, slotTaken := waits, waiting := .none,
      relSlot := c.slice.bind fun s => w.counterAt s c.ctx (fieldAt c.bytes 24 2) }
    let w := { w with nextOrder := w.nextOrder + 1 }
    let w := match c.parent with
      | some entry => w.updRun entry fun r => { r with started := true }
      | none => w
    let w := match c.slice with
      | some s => chargeCmd e s w
      | none => w
    if waits then w else passWait c w
  else w

/-- A wait is resolved with DEADLOCK (R336, R337): the command ends with it, and its run is named; the fences that a RELAUNCH
declares by its resident copy carry it. -/
def endDeadlock (c : Cmd) (s : Nat) (w : Work) : Work :=
  let w := match c.parent with
    | some entry => w.updRun entry fun r => { r with named := true }
    | none => w
  match (if c.op = some .relaunch then (w.slice s).graphs.find? fun r => r.gid == fieldAt c.bytes 24 1 else none) with
  | some r => failRun c r.image St.deadlock w
  | none => endCmd c.id St.deadlock w

/-- Register a command's fence wait and walk (R322, R323, R336). -/
def registerWait (w : Work) (c : Cmd) (s : Nat) : Work :=
  if c.slotTaken || !slotFree w s then w
  else
    let w := w.updCmd c.id fun d => { d with slotTaken := true }
    match deadlockWalk w s c.entity (cWaitFence c.bytes) 8 256 with
    | some _ => endDeadlock c s w
    | none => w

/-- Release a command once nothing holds it back. [DESIGN CHOICE, log entry 12] -/
def releaseCmd (e : Block) (id : Nat) (w : Work) : Work :=
  match w.cmd id with
  | none => w
  | some c =>
    if !(c.phase == .fetched) || c.endStatus.isSome || c.suspended || c.waiting == .table || heldByOrder w c then w
    else match c.slice with
      | none => doRelease e c w
      | some s =>
        if !cWait c.bytes || c.waitDone then doRelease e c w
        else match (w.fence s (cWaitFence c.bytes)).resolve (cWaitValue c.bytes) with
          | some st =>
            if st = St.ok then doRelease e c (w.updCmd id fun d => { d with waitDone := true, slotTaken := false })
            else w.later (.waited id)
          | none => registerWait w c s

/-- A command whose fence carried an error as its wait came up: against the result of the cycle the wait is over (R304, R307). -/
def waitedLate (id : Nat) (w : Work) : Work :=
  match w.cmd id with
  | none => w
  | some c =>
    if !(c.phase == .fetched) || c.endStatus.isSome || c.suspended then w
    else match c.slice.bind fun s => (w.fence s (cWaitFence c.bytes)).resolve (cWaitValue c.bytes) with
      | some st => if st = St.ok then w.updCmd id fun d => { d with waitDone := true } else endCmd id st w
      | none => w

/-- COMMAND_RELEASE. -/
def execCommandRelease (id : Nat) (s : State) : Host.Outcome State Fault Refusal :=
  .next (s.onWork fun e w => releaseCmd e id w)

end Sys2Proof.Machine
end

