-- ==== Sys2Proof/Machine/Graphs.lean ====
section
/-! DEFINITION. Graph packets, resident graphs and RELAUNCH (R187 to R203). -/

namespace Sys2Proof.Machine

/-! ### Packets (R187 to R191) -/

/-- NODE_COUNT. -/
def pNodes (b : List Byte) : Nat := fieldAt b 2 2
/-- EDGE_COUNT. -/
def pEdges (b : List Byte) : Nat := fieldAt b 6 2

/-- The length of a packet by its header (R187). -/
def packetLen (b : List Byte) : Nat := 64 + 64 * pSlots b + 64 * ceilDiv (pEdges b) 16

/-- Whether a header satisfies R188. -/
def packetHeadOk (b : List Byte) : Bool :=
  fieldAt b 0 1 == 0x14 && zeros b 1 1 && 1 ≤ pNodes b && pNodes b ≤ 256 && pNodes b ≤ pSlots b && pSlots b ≤ 768 &&
  pEdges b ≤ 4096 && fieldAt b 8 2 ≤ 24 && zeros b 10 6 && zeros b (16 + 2 * fieldAt b 8 2) (48 - 2 * fieldAt b 8 2)

/-- The slots that nodes fill. -/
def slotsFilled (ns : List (Nat × List Byte)) : Nat := (ns.map fun p => p.2.length / 64).sum

/-- Whether edges form no cycle among `n` nodes: nodes without predecessors are taken away, turn by turn. -/
def acyclic : Nat → List Nat → List (Nat × Nat) → Bool
  | 0, left, _ => left.isEmpty
  | fuel + 1, left, es =>
    let free := left.filter fun n => es.all fun p => p.2 != n
    if free.isEmpty then left.isEmpty
    else acyclic fuel (left.filter fun n => !free.contains n) (es.filter fun p => !free.contains p.1)

/-- Whether a node signals only declared fences (R191). -/
def nodeFenceOk (decl : List Nat) (b : List Byte) : Bool := !cSignal b || decl.contains (cSigFence b)

/-- Checks 1 to 3 of a node, and the fence rule of R191. -/
def nodeOk (e : Block) (w : Work) (s : Nat) (decl : List Nat) (b : List Byte) : Bool :=
  formOk e w { slice := some s, cls := 0, node := true } b && nodeFenceOk decl b

/-- Whether the bytes that pad the edge list are zero (R187, R14). [DEDUCED, log entry 51] -/
def edgePadOk (b : List Byte) : Bool :=
  zeros b (64 + 64 * pSlots b + 4 * pEdges b) (packetLen b - (64 + 64 * pSlots b + 4 * pEdges b))

/-- Whether a packet whose header has passed is accepted (R191). [DEDUCED, log entry 51] -/
def packetOk (e : Block) (w : Work) (s : Nat) (b : List Byte) : Bool :=
  let ns := nodesOf b
  let es := packetEdges b
  let decl := packetDecl b
  ns.length == pNodes b && slotsFilled ns == pSlots b && edgePadOk b &&
  (es.all fun p => p.1 < pNodes b && p.2 < pNodes b && p.1 != p.2) &&
  acyclic (pNodes b + 1) (List.range (pNodes b)) es &&
  (decl.all fun i => decide (i < (w.slice s).fenceCount)) && (ns.all fun p => nodeOk e w s decl p.2)

/-! ### Runs (R192 to R195, R203) -/

/-- A node of a run as a command (R193, R210, R211): one without predecessors is timed from the start of the run. -/
def nodeCmd (w : Work) (c : Cmd) (es : List (Nat × Nat)) (n : Nat) (b : List Byte) : Cmd :=
  let root := es.all fun p => p.2 != n
  { newCmd w c.qk c.sqIndex b with
    span := 0, ctx := c.ctx, node := BitVec.ofNat 16 n, parent := some c.id, phase := if root then .fetched else .blocked,
    timer := if root then some (timeoutOf w c.qk b) else none, priority := c.priority, suspended := c.suspended }

/-- Start a run of a packet (R193, R203): every node takes its references. -/
def startRun (e : Block) (c : Cmd) (b : List Byte) (gid : Option Nat) (w : Work) : Work :=
  let es := packetEdges b
  let ns := nodesOf b
  let run : Run := {
    entry := c.id, image := b, edges := es, nodes := ns.map fun _ => NodeSt.waiting, decl := packetDecl b, first := none,
    started := false, graphId := gid }
  let w := { w.updCmd c.id (fun d => { d with waiting := .run, phase := .running, aux := [] }) with runs := w.runs ++ [run] }
  let first := w.nextId
  let w := (ns.map Prod.snd).zipIdx.foldl (fun (w : Work) p =>
    { w with cmds := w.cmds ++ [nodeCmd w c es p.2 p.1], nextId := w.nextId + 1, nextOrder := w.nextOrder + 1 }) w
  (List.range ns.length).foldl (fun w i =>
    admitObjects e (first + i) (countLookups w (handlesOf ((w.cmd (first + i)).map Cmd.bytes |>.getD [])))) w

/-! ### Reading a packet (R193, R197, R198) -/

/-- Begin to read the packet at a pointer: its header first. -/
def readPacket (e : Block) (c : Cmd) (w : Work) : Work :=
  let ptr := fieldAt c.bytes 24 8
  readFor e c.slice (ptrDev ptr) (ptrAddr ptr) 64 (.packet c.id)
    (w.updCmd c.id fun d => { d with phase := .running, aux := [] })

/-- A GRAPH command (R193). -/
def graphBegin (e : Block) (c : Cmd) (w : Work) : Work := readPacket e c w

/-- A resident graph by number. -/
def resident (w : Work) (s g : Nat) : Option Resident := (w.slice s).graphs.find? fun r => r.gid == g

/-- Put a resident graph's copy in place. -/
def setResident (s g : Nat) (b : List Byte) (w : Work) : Work :=
  w.updSlice s fun x => { x with graphs := x.graphs.map fun r => if r.gid = g then { r with image := b, loading := false } else r }

/-- Whether a GRAPH_LOAD of a graph has been released before a command and has not begun: the GRAPH_ID counts as resident from
its release (R198). -/
def loadReleased (w : Work) (s g : Nat) (c : Cmd) : Bool :=
  w.cmds.any fun d => d.op == some .graphLoad && d.slice == some s && d.phase == .released && d.endStatus.isNone &&
    loadId d == g && decide (d.relOrder < c.relOrder)

/-- A GRAPH_LOAD (R198): its GRAPH_ID counts as resident from its release. -/
def graphLoadBegin (e : Block) (c : Cmd) (w : Work) : Work :=
  match c.slice with
  | none => w
  | some s =>
    if (resident w s (loadId c)).isSome || loadReleased w s (loadId c) c then endCmd c.id St.stateReject w
    else readPacket e c (w.updSlice s fun x => { x with graphs := x.graphs ++ [{ gid := loadId c, image := [], loading := true }] })

/-- A GRAPH_LOAD fails (R198). -/
def loadFails (c : Cmd) (s : Nat) (st : Status) (w : Work) : Work := endCmd c.id st (dropResident s (loadId c) w)

/-- The bytes of the store that resident graphs take (R198): one that is still loading takes none yet. -/
def storeUsed (w : Work) (s : Nat) : Nat := ((w.slice s).graphs.map fun r => r.image.length).sum

/-- The answer to a packet read (R192, R198): no fence is marked where the packet cannot be read, which is a data access failure
(R557). A packet that R191 accepts is
tested against the store as it then stands. -/
def packetAnswered (e : Block) (id : Nat) (st : Status) (data : List Byte) (w : Work) : Work :=
  match w.cmd id with
  | none => w
  | some c =>
    match c.slice with
    | none => w
    | some s =>
      let load := c.op == some .graphLoad
      let unread (st : Status) : Work := if load then loadFails c s st w else endCmd id st w
      if workStopped w c then w
      else if st ≠ St.ok then faultCmd e id st 0 w
      else if c.aux.isEmpty then
        if !packetHeadOk data then unread St.badCommand
        else
          let ptr := fieldAt c.bytes 24 8
          readFor e c.slice (ptrDev ptr) (ptrAddr ptr + 64) (packetLen data - 64) (.packet id)
            (w.updCmd id fun d => { d with aux := data })
      else
        let b := c.aux ++ data
        if !packetOk e w s b then (if load then loadFails c s St.badCommand w else failRun c b St.badCommand w)
        else if load then
          if storeUsed w s + b.length > e.dct.graphStoreKib s * 1024 then loadFails c s St.graphStoreFull w
          else endCmd id St.ok (setResident s (loadId c) b w)
        else startRun e c b none w

/-! ### RELAUNCH and GRAPH_UNLOAD (R198 to R202) -/

/-- GRAPH_ID of a RELAUNCH or GRAPH_UNLOAD. -/
def graphIdOf (c : Cmd) : Nat := fieldAt c.bytes 24 1

/-- Whether another use of the same graph stands before a RELAUNCH or GRAPH_UNLOAD (R199): a RELAUNCH fetched before it, a
RELAUNCH whose run is in progress, or a GRAPH_UNLOAD fetched before it that waits itself.
[DESIGN CHOICE, log entry 12] -/
def notItsTurn (w : Work) (s : Nat) (c : Cmd) : Bool :=
  w.cmds.any fun d => d.id != c.id && d.slice == some s && graphIdOf d == graphIdOf c &&
    ((d.op == some .relaunch && (decide (d.order < c.order) || d.phase == .running || d.phase == .stopping)) ||
      (d.op == some .graphUnload && d.phase == .released && decide (d.order < c.order)))

/-- Run `f` on a command's resident graph at its turn, and hold it before (R199). It is refused where the graph is not resident
as it is released, and again where it is not as its turn comes (R176). -/
def atTurn (c : Cmd) (f : Nat → Resident → Work → Work) (w : Work) : Work :=
  match c.slice with
  | none => w
  | some s =>
    let hold (w : Work) : Work := w.updCmd c.id fun d => { d with waiting := .turn }
    match resident w s (graphIdOf c) with
    | none =>
      if loadReleased w s (graphIdOf c) c || (c.waiting == .turn && notItsTurn w s c) then hold w
      else endCmd c.id St.stateReject w
    | some r => if r.loading || notItsTurn w s c then hold w else f s r w

/-- PATCH_COUNT. -/
def patchCount (c : Cmd) : Nat := fieldAt c.bytes 26 2

/-- Whether patch `p` is one that R201 admits on image `b`. -/
def patchOk (b : List Byte) (p : List Byte) : Bool :=
  let off := fieldAt p 0 4
  let n := fieldAt p 4 1
  (n == 4 || n == 8) && zeros p 5 3 && (n == 8 || zeros p 12 4) && off % n == 0 && 64 ≤ off && off + n ≤ 64 + 64 * pSlots b &&
  (nodesOf b).all fun q => off ≥ 64 + 64 * q.1 + 2 || off + n ≤ 64 + 64 * q.1

/-- Apply a patch (R202). -/
def applyPatch (b p : List Byte) : List Byte := patchBytes b (fieldAt p 0 4) (bytesAt p 8 (fieldAt p 4 1))

/-- Whether a patch touches a node. -/
def patchTouches (p : List Byte) (q : Nat × List Byte) : Bool :=
  let off := fieldAt p 0 4
  let lo := 64 + 64 * q.1
  decide (off < lo + q.2.length) && decide (lo < off + fieldAt p 4 1)

/-- Apply patches and start the run (R201, R202). -/
def runPatched (e : Block) (c : Cmd) (s : Nat) (r : Resident) (ps : List (List Byte)) (w : Work) : Work :=
  if !ps.all (patchOk r.image) then failRun c r.image St.patchRange w
  else
    let b := ps.foldl applyPatch r.image
    let w := setResident s r.gid b w
    let touched := (nodesOf b).filter fun q => ps.any fun p => patchTouches p q
    if touched.all fun q => nodeOk e w s (packetDecl b) q.2 then startRun e c b (some r.gid) w
    else failRun c b St.badCommand w

/-- A RELAUNCH at its turn (R200). -/
def relaunchRun (e : Block) (c : Cmd) (s : Nat) (r : Resident) (w : Work) : Work :=
  let ptr := fieldAt c.bytes 32 8
  let w := w.updCmd c.id fun d => { d with phase := .running, waiting := .none }
  if ptr = 0 then runPatched e c s r ((List.range (patchCount c)).map fun i => bytesAt c.bytes (64 + 16 * i) 16) w
  else if patchCount c = 0 then runPatched e c s r [] w
  else readFor e c.slice (ptrDev ptr) (ptrAddr ptr) (16 * patchCount c) (.patchList c.id) w

/-- The answer to a patch list's read (R192, R200). [DESIGN CHOICE, log entry 29] -/
def patchesAnswered (e : Block) (id : Nat) (st : Status) (data : List Byte) (w : Work) : Work :=
  match w.cmd id with
  | none => w
  | some c =>
    match c.slice with
    | none => w
    | some s =>
      match resident w s (graphIdOf c) with
      | none => endCmd id St.stateReject w
      | some r =>
        if workStopped w c then w
        else if st ≠ St.ok then faultCmd e id st 0 (markDeclared s r.image st w)
        else runPatched e c s r ((List.range (patchCount c)).map fun i => bytesAt data (16 * i) 16) w

/-- GRAPH. -/
def execGraph (id : Nat) (s : State) : Host.Outcome State Fault Refusal :=
  .next (s.onWork fun e w => runCmd .graph id (graphBegin e) w)

/-- GRAPH_LOAD. -/
def execGraphLoad (id : Nat) (s : State) : Host.Outcome State Fault Refusal :=
  .next (s.onWork fun e w => runCmd .graphLoad id (graphLoadBegin e) w)

/-- RELAUNCH. -/
def execRelaunch (id : Nat) (s : State) : Host.Outcome State Fault Refusal :=
  .next (s.onWork fun e w => runCmd .relaunch id (fun c => atTurn c (relaunchRun e c)) w)

/-- GRAPH_UNLOAD. -/
def execGraphUnload (id : Nat) (s : State) : Host.Outcome State Fault Refusal :=
  .next (s.onWork fun _ w => runCmd .graphUnload id (fun c =>
    atTurn c fun s r w => endCmd c.id St.ok (dropResident s r.gid w)) w)

end Sys2Proof.Machine
end

