-- ==== Sys2Proof/Machine/Objects.lean ====
section
/-! DEFINITION. Memory objects and streams (R225 to R237, R242 to R256, R637). -/

namespace Sys2Proof.Machine

/-! ### Creating (R229, R232, R243, R244) -/

/-- The object that an OBJ_CREATE describes (R229). -/
def plainObj (s ctx gen : Nat) (cached : Bool) (b : List Byte) : Obj :=
  let fl := fieldAt b 49 1
  let fmt := fieldAt b 48 1
  let pl := fieldAt b 50 1
  { gen := gen, own := gen, live := true, slice := s, ctx := ctx, dev := ptrDev (fieldAt b 24 8), base := ptrAddr (fieldAt b 24 8),
    size := fieldAt b 32 8, fmt := fmt, comp := fl.testBit 0, cls := bitsOf fl 2 1, rotSize := bitsOf fl 4 3,
    chip := bitsOf pl 5 0, remote := pl.testBit 7, scale := BitVec.ofNat 32 (fieldAt b 52 4), book := codebookOf b fmt,
    codeLen := if fl.testBit 0 then fieldAt b 80 8 else 0, cached := cached }

/-- The stream that a STREAM_CREATE describes, with its descriptor (R243). -/
def streamObj (s ctx gen desc : Nat) (cached : Bool) (b : List Byte) : Obj :=
  let fl := fieldAt b 49 1
  let fmt := fieldAt b 48 1
  { gen := gen, own := gen, live := true, slice := s, ctx := ctx, dev := true, base := ptrAddr (fieldAt b 24 8), size := fieldAt b 32 8,
    fmt := fmt, cls := bitsOf fl 2 1, rotSize := bitsOf fl 4 3, scale := BitVec.ofNat 32 (fieldAt b 52 4),
    book := codebookOf b fmt, stream := true, desc := desc, tpp := fieldAt b 50 1, cached := cached }

/-- Write the result of a creation at RESULT_PTR. -/
def writeResult (e : Block) (c : Cmd) (data : List Byte) (w : Work) : Work :=
  let ptr := fieldAt c.bytes 40 8
  writeFor e c.slice (ptrDev ptr) (ptrAddr ptr) (bytesAt data 0 32) (.createWrite c.id) w

/-- OBJ_CREATE (R226, R232). -/
def objCreateOp (e : Block) (c : Cmd) (w : Work) : Work :=
  match c.slice with
  | none => w
  | some s =>
    match (w.slice s).freeIdx with
    | [] => endCmd c.id St.objTableFull w
    | i :: rest =>
      let o := plainObj s c.ctx (w.obj i).gen (w.obj i).cached c.bytes
      let w := w.updSlice s fun x => { x with freeIdx := rest }
      let w := chargeMem s c.ctx (o.size : Int) (w.updObj i fun _ => o)
      let w := w.updCmd c.id fun d => { d with phase := .running, writesLeft := 1, auxNat := handleOf i o }
      writeResult e c (leBytes 4 (handleOf i o)) w

/-- The stream header (R245): HANDLE is the one the stream was created with. [DESIGN CHOICE, log entry 67] -/
def headerBytes (e : Block) (i : Nat) (o : Obj) : List Byte :=
  leBytes 4 o.tok ++ leBytes 4 o.pages.length ++ leBytes 1 (if o.faulted then 1 else 0) ++ leBytes 1 o.tpp ++
    leBytes 2 o.desc ++ leBytes 4 (o.own * 2 ^ 24 + i) ++ leBytes 8 e.clk.beat.toNat ++ leBytes 40 0

/-- Write a stream's header for a command. One write of a header is out at a time, so that the last one written is the one that
stays (R71, R247): a later one waits for it. [DEDUCED, log entry 62] -/
def writeHeader (e : Block) (s i id : Nat) (w : Work) : Work :=
  if (w.obj i).hdrBusy then w.updObj i fun o => { o with hdrDue := o.hdrDue ++ [id] }
  else writeFor e (some s) true (w.obj i).base (headerBytes e i (w.obj i)) (.header i id)
    (w.updObj i fun o => { o with hdrBusy := mayIssue w (some s) true })

/-- Whether a command still runs, so that a write of its own goes out. -/
def Work.goesOn (w : Work) (id : Nat) : Bool := (w.cmd id).any fun c => c.phase == .running && c.endStatus.isNone

/-- The header write of a stream is answered: the next one that waits goes out. [DEDUCED, log entry 62] -/
def headerFree (e : Block) (i : Nat) (w : Work) : Work :=
  let due := (w.obj i).hdrDue.filter w.goesOn
  match due with
  | id :: rest => writeHeader e (w.obj i).slice i id (w.updObj i fun o => { o with hdrBusy := false, hdrDue := rest })
  | [] => w.updObj i fun o => { o with hdrBusy := false, hdrDue := [] }

/-- Live streams of a slice (R242). -/
def liveStreams (w : Work) (s : Nat) : Nat :=
  (w.objs.filter fun p => p.2.stream && p.2.live && !p.2.pend && p.2.slice == s).length

/-- STREAM_CREATE (R226, R242, R244, R637). [DESIGN CHOICE, log entry 29] -/
def streamCreateOp (e : Block) (c : Cmd) (w : Work) : Work :=
  match c.slice with
  | none => w
  | some s =>
    match (w.slice s).freeIdx with
    | [] => endCmd c.id St.objTableFull w
    | i :: rest =>
      match w.streamFree with
      | [] => endCmd c.id St.streamTableFull w
      | d :: descs =>
        if liveStreams w s ≥ e.dct.streamQuota s then endCmd c.id St.streamTableFull w
        else
          let o := streamObj s c.ctx (w.obj i).gen d (w.obj i).cached c.bytes
          let w := { w.updSlice s (fun x => { x with freeIdx := rest }) with streamFree := descs }
          let w := chargeMem s c.ctx (o.size : Int) (w.updObj i fun _ => o)
          let mirror := e.dct.posMirror s
          let w := w.updCmd c.id fun k => { k with phase := .running, writesLeft := if mirror = 0 then 2 else 3, auxNat := handleOf i o }
          let w := writeHeader e s i c.id w
          let w := if mirror = 0 then w
            else writeFor e (some s) false (mirror + 16 * d) (mirrorBytes 0 0 (w.slice s).applied.toNat) (.createWrite c.id) w
          writeResult e c (leBytes 4 (handleOf i o) ++ leBytes 2 d) w

/-- Undo a creation (R232, R244): the generation rises, the index and descriptor go back and the charge is lifted. An object
whose handle is no longer valid has been freed already. -/
def undoCreate (c : Cmd) (s : Nat) (w : Work) : Work :=
  let i := hIndex c.auxNat
  let o := w.obj i
  if !handleLive w s c.auxNat then w
  else
    let w := chargeMem s c.ctx (-(objCharge o : Int)) w
    let w := if o.stream then { w with streamFree := w.streamFree ++ [o.desc] } else w
    let w := w.updObj i fun o => { gen := nextGen o.gen, cached := o.cached }
    w.updSlice s fun x => { x with freeIdx := x.freeIdx ++ [i] }

/-- One write of a running command is answered: the command ends with OK once none is left. -/
def writeDone (id : Nat) (w : Work) : Work :=
  let w := w.updCmd id fun d => { d with writesLeft := d.writesLeft - 1 }
  match w.cmd id with
  | some c => if c.writesLeft = 0 && c.phase == .running then endCmd id St.ok w else w
  | none => w

/-- The answer to a write of a creation (R232, R244, R557): the first that fails undoes it, whatever the command has ended with
by then. -/
def createAnswered (e : Block) (id : Nat) (st : Status) (w : Work) : Work :=
  match w.cmd id with
  | none => w
  | some c =>
    match c.slice with
    | none => w
    | some s =>
      if c.writesLeft = 0 then w
      else if st = St.ok then writeDone id w
      else
        let w := (undoCreate c s w).updCmd id fun d => { d with writesLeft := 0 }
        if c.endStatus.isSome || c.badStatus != 0 then w else faultCmd e id st 0 w

/-- OBJ_CREATE. -/
def execObjCreate (id : Nat) (s : State) : Host.Outcome State Fault Refusal :=
  .next (s.onWork fun e w => runCmd .objCreate id (objCreateOp e) w)

/-- STREAM_CREATE. -/
def execStreamCreate (id : Nat) (s : State) : Host.Outcome State Fault Refusal :=
  .next (s.onWork fun e w => runCmd .streamCreate id (streamCreateOp e) w)

/-! ### Freeing (R228, R236, R237) -/

/-- The table serves an OBJ_FREE (R228, R236): the object is marked and its generation rises; it is reclaimed once nothing refers
to it. -/
def objFreeLate (e : Block) (id : Nat) (w : Work) : Work :=
  match w.cmd id with
  | none => w
  | some c =>
    match c.slice, c.endStatus with
    | some s, none =>
      let h := fieldAt c.bytes 24 4
      let i := hIndex h
      if !handleLive w s h then endCmd c.id St.stateReject w
      else
        let w := w.updObj i fun o => { o with pend := true, gen := nextGen o.gen, freer := some c.id }
        let w := w.updCmd c.id fun d => { d with waiting := .reclaim, timer := none }
        if (w.obj i).refs = 0 then reclaim e i w else w
    | _, _ => w

/-- OBJ_FREE: the table serves it behind the handle checks and reference releases of the control cycle (R228).
[DESIGN CHOICE, log entry 5] -/
def objFreeOp (c : Cmd) (w : Work) : Work := (w.updCmd c.id fun d => { d with phase := .running }).later (.objFree c.id)

/-- OBJ_FREE. -/
def execObjFree (id : Nat) (s : State) : Host.Outcome State Fault Refusal :=
  .next (s.onWork fun _ w => runCmd .objFree id objFreeOp w)

/-! ### Mapping pages (R249 to R251) -/

/-- The page capacity of a stream (R243). -/
def capacity (o : Obj) : Nat := (o.size - 64) / 8

/-- The page addresses of a STREAM_MAP (R246). -/
def mapPages (b : List Byte) : List Nat :=
  (List.range (fieldAt b 32 2)).map fun i => fieldAt b (64 + 8 * i) 8 / 65536 * 65536

/-- Whether STREAM_MAP may act (R250). -/
def mapOk (d : Dict) (s : Nat) (o : Obj) (b : List Byte) : Bool :=
  let ix := fieldAt b 28 4
  let n := fieldAt b 32 2
  ix ≤ o.pages.length && ix + n ≤ capacity o && ((mapPages b).all fun a => inWindow d s a 65536) &&
    (o.pages.length ≤ ix || o.tok ≤ ix * 2 ^ o.tpp)

/-- The pages of a stream after STREAM_MAP (R250). -/
def pagesAfter (old : List Nat) (ix : Nat) (new : List Nat) : List Nat :=
  if new.isEmpty then old.take ix else old.take ix ++ new ++ old.drop (ix + new.length)

/-- The bytes of page entries (R246). -/
def pageBytes (ps : List Nat) : List Byte := ps.flatMap fun a => leBytes 8 (a + 1)

/-- STREAM_MAP (R250, R251). [DESIGN CHOICE, log entry 29] -/
def streamMapOp (e : Block) (c : Cmd) (w : Work) : Work :=
  match c.slice with
  | none => w
  | some s =>
    let i := hIndex (fieldAt c.bytes 24 4)
    let o := w.obj i
    let ix := fieldAt c.bytes 28 4
    if !mapOk e.dct s o c.bytes then endCmd c.id St.objRange w
    else
      let new := mapPages c.bytes
      let ps := pagesAfter o.pages ix new
      let w := w.updObj i fun o => { o with pages := ps }
      let w := chargeMem s o.ctx (((ps.length : Int) - (o.pages.length : Int)) * 65536) w
      let w := w.updCmd c.id fun d => { d with phase := .running, writesLeft := if new.isEmpty then 1 else 2 }
      let w := if new.isEmpty then w
        else writeFor e (some s) true (o.base + 64 + 8 * ix) (pageBytes new) (.mapWrite c.id) w
      writeHeader e s i c.id w

/-- The answer to a write that moves a command's data and ends it once all are answered (R251, R557). -/
def plainWriteAnswered (e : Block) (id : Nat) (st : Status) (w : Work) : Work :=
  if st = St.ok then writeDone id w else faultCmd e id st 0 w

/-- STREAM_MAP. -/
def execStreamMap (id : Nat) (s : State) : Host.Outcome State Fault Refusal :=
  .next (s.onWork fun e w => runCmd .streamMap id (streamMapOp e) w)

/-! ### Advancing (R253 to R256, R637) -/

/-- The entries of a STREAM_ADVANCE: handles and deltas. -/
def advanceEntries (b : List Byte) : List (Nat × Nat) :=
  (List.range (b.length / 8)).map fun i => (fieldAt b (8 * i) 4, fieldAt b (8 * i + 4) 4)

/-- The rows that entries add to the stream that a handle names (R254): entries with another generation name no stream. -/
def totalDelta (es : List (Nat × Nat)) (h : Nat) : Nat := ((es.filter fun p => p.1 == h).map Prod.snd).sum

/-- The status of one entry (R254): a single stream's handle was checked at fetch. -/
def entryStatus (w : Work) (s : Nat) (list : Bool) (es : List (Nat × Nat)) (p : Nat × Nat) : Status :=
  let i := hIndex p.1
  let o := w.obj i
  let h := if list then handleStatus w s .stream p.1 else St.ok
  let pos := o.tok + totalDelta es p.1
  if h ≠ St.ok then h
  else if o.faulted then St.stateReject
  else if p.2 = 0 ∨ p.2 > 2 ^ 31 then St.badCommand
  else if pos ≥ 2 ^ 32 - 1 then St.streamLimit
  else if pos > o.pages.length * 2 ^ o.tpp then St.objRange
  else St.ok

/-- Whether a STREAM_ADVANCE takes a list. -/
def advanceListed (c : Cmd) : Bool := fieldAt c.bytes 40 8 != 0

/-- The handles of the distinct streams of entries. -/
def advanceStreams (es : List (Nat × Nat)) : List Nat := (es.map Prod.fst).dedup

/-- Move every position in one control cycle (R256), then write each header. -/
def moveAll (e : Block) (c : Cmd) (s : Nat) (w : Work) : Work :=
  let es := advanceEntries c.aux
  let hs := advanceStreams es
  let w := hs.foldl (fun w h => w.updObj (hIndex h) fun o => { o with tok := o.tok + totalDelta es h }) w
  let w := w.updCmd c.id fun d => { d with auxNat := 2, writesLeft := hs.length }
  hs.foldl (fun w h => writeHeader e s (hIndex h) c.id w) w

/-- Check every entry, and move or end (R254, R255, R637). -/
def advanceCheck (e : Block) (c : Cmd) (s : Nat) (w : Work) : Work :=
  let es := advanceEntries c.aux
  let listed := advanceListed c
  let w := if listed then
      let is := (advanceStreams (es.filter fun p => handleLive w s p.1)).map hIndex
      takeRefs is (w.updCmd c.id fun d => { d with refs := is })
    else w
  let sts := es.map fun p => (p, entryStatus w s listed es p)
  match (sts.map Prod.snd).find? fun st => st != St.ok with
  | none =>
    let hs := advanceStreams es
    if e.dct.posMirror s = 0 then moveAll e c s w
    else
      let w := w.updCmd c.id fun d => { d with auxNat := 1, writesLeft := hs.length }
      hs.foldl (fun w h =>
        let o := w.obj (hIndex h)
        writeFor e (some s) false (e.dct.posMirror s + 16 * o.desc)
          (mirrorBytes (o.tok + totalDelta es h) o.tok ((w.slice s).applied + 1).toNat) (.mirrorWrite c.id) w) w
  | some st =>
    let bad := (sts.filter fun p => p.2 == St.streamLimit).map fun p => hIndex p.1.1
    let bad := bad.dedup
    if bad.isEmpty then endCmd c.id st w
    else
      let w := bad.foldl (fun w i => w.updObj i fun o => { o with faulted := true }) w
      let w := w.updCmd c.id fun d => { d with auxNat := 3, writesLeft := bad.length, badStatus := st }
      bad.foldl (fun w i => writeHeader e s i c.id w) w

/-- Go on once the table entries that a list names are cached (R227). -/
def advanceReady (e : Block) (c : Cmd) (s : Nat) (w : Work) : Work :=
  let miss := uncached w ((advanceEntries c.aux).map Prod.fst)
  if miss.isEmpty then advanceCheck e c s (w.updCmd c.id fun d => { d with waiting := .none })
  else readTable e miss (w.updCmd c.id fun d => { d with waiting := .table })

/-- Whether another STREAM_ADVANCE of a slice runs, where its mirror makes them run one at a time (R637). -/
def advanceBusy (e : Block) (w : Work) (c : Cmd) (s : Nat) : Bool :=
  e.dct.posMirror s != 0 && w.cmds.any fun d => d.id != c.id && d.slice == some s && d.op == some .streamAdvance &&
    (d.phase == .running || d.phase == .stopping)

/-- STREAM_ADVANCE (R253). -/
def streamAdvanceOp (e : Block) (c : Cmd) (w : Work) : Work :=
  match c.slice with
  | none => w
  | some s =>
    if advanceBusy e w c s then w
    else if advanceListed c then
      let ptr := fieldAt c.bytes 40 8
      readFor e (some s) (ptrDev ptr) (ptrAddr ptr) (8 * fieldAt c.bytes 32 2) (.advanceList c.id)
        (w.updCmd c.id fun d => { d with phase := .running, aux := [] })
    else
      let c := { c with phase := .running, aux := bytesAt c.bytes 24 8 }
      advanceCheck e c s (w.updCmd c.id fun _ => c)

/-- The answer to a list's read (R253). [DESIGN CHOICE, log entry 29] -/
def listAnswered (e : Block) (id : Nat) (st : Status) (data : List Byte) (w : Work) : Work :=
  match w.cmd id with
  | none => w
  | some c =>
    match c.slice with
    | none => w
    | some s =>
      if st ≠ St.ok then faultCmd e id st 0 w
      else
        let c := { c with aux := data }
        let w := w.updCmd id fun _ => c
        advanceReady e c s (countLookups w ((advanceEntries data).map Prod.fst))

/-- The answer to a mirror write (R637): once every one is written the positions move and APPLIED rises. -/
def mirrorAnswered (e : Block) (id : Nat) (st : Status) (w : Work) : Work :=
  if st ≠ St.ok then faultCmd e id st 0 w
  else
    let w := w.updCmd id fun d => { d with writesLeft := d.writesLeft - 1 }
    match w.cmd id with
    | none => w
    | some c =>
      match c.slice with
      | none => w
      | some s =>
        if c.writesLeft = 0 && c.phase == .running && c.auxNat == 1 then
          moveAll e c s (w.updSlice s fun x => { x with applied := x.applied + 1 })
        else w

/-- The answer to the header writes of a STREAM_ADVANCE (R255, R256). -/
def advanceAnswered (e : Block) (id : Nat) (st : Status) (w : Work) : Work :=
  if st ≠ St.ok then faultCmd e id st 0 w
  else match w.cmd id with
    | none => w
    | some c =>
      if c.auxNat = 3 then
        let w := w.updCmd id fun d => { d with writesLeft := d.writesLeft - 1 }
        if c.writesLeft ≤ 1 then endCmd id c.badStatus w else w
      else writeDone id w

/-- The answer to a write of a stream's header (R244, R251, R256): the command that it was for goes on, and the next write of
the header goes out. -/
def headerAnswered (e : Block) (i id : Nat) (st : Status) (w : Work) : Work :=
  let w := headerFree e i w
  match (w.cmd id).bind Cmd.op with
  | some .streamCreate => createAnswered e id st w
  | some .streamAdvance => advanceAnswered e id st w
  | _ => plainWriteAnswered e id st w

/-- STREAM_ADVANCE. -/
def execStreamAdvance (id : Nat) (s : State) : Host.Outcome State Fault Refusal :=
  .next (s.onWork fun e w => runCmd .streamAdvance id (streamAdvanceOp e) w)

/-! ### Table entries (R227) -/

/-- A command that waits for table entries goes on, where they are all cached now. -/
def tableRetry (e : Block) (id : Nat) (w : Work) : Work :=
  match w.cmd id with
  | none => w
  | some c =>
    if c.waiting != .table || c.endStatus.isSome then w
    else if c.phase == .running then
      match c.slice with
      | some s => advanceReady e c s w
      | none => w
    else admitObjects e id w

/-- Whether a waiting command needs the entry at an index. [DESIGN CHOICE, log entry 29] -/
def needsEntry (w : Work) (c : Cmd) (i : Nat) : Bool :=
  c.waiting == .table &&
    (entriesOf w (handlesOf c.bytes ++ (if c.phase == .running then (advanceEntries c.aux).map Prod.fst else []))).contains i

/-- An entry that was read arrives (R227): the commands that wait for it go on; after a failed read they end.
[DESIGN CHOICE, log entry 26] -/
def entryLoaded (e : Block) (i : Nat) (w : Work) : Work :=
  match w.fab.reqs.find? fun r => r.why == .objEntry i with
  | none => w
  | some r =>
    match r.answer with
    | none => w
    | some (st, _) =>
      let w := w.dropReq r.tag
      let ids := (w.cmds.filter fun c => needsEntry w c i).map Cmd.id
      if st = St.ok then ids.foldl (fun w id => tableRetry e id w) (cacheEntry i w)
      else ids.foldl (fun w id => faultCmd e id st 0 w) w

/-- OBJ_ENTRY_LOAD. -/
def execObjEntryLoad (index : Nat) (s : State) : Host.Outcome State Fault Refusal :=
  .next (s.onWork fun e w => entryLoaded e index w)

end Sys2Proof.Machine
end

