-- ==== Sys2Proof/Machine/Control.lean ====
section
/-! DEFINITION. NOP, and the queue and context commands with QUERY (R176, R184 to R186). -/

namespace Sys2Proof.Machine

/-- NOP. -/
def execNop (id : Nat) (s : State) : Host.Outcome State Fault Refusal :=
  .next (s.onWork fun _ w => runCmd .nop id (fun c => endCmd c.id St.ok) w)

/-- QUEUE_CREATE (R186): the descriptor is read. -/
def queueCreateOp (e : Block) (c : Cmd) (w : Work) : Work :=
  if (w.slice (actsOn c)).state != .active then endCmd c.id St.stateReject w
  else
    let ptr := fieldAt c.bytes 32 8
    readFor e c.slice (ptrDev ptr) (ptrAddr ptr) 64 (.queueDesc c.id) (w.updCmd c.id fun d => { d with phase := .running })

/-- The descriptor's answer (R122, R186): the slice's state is tested again. A failed read is a data access failure (R557). -/
def descAnswered (e : Block) (id : Nat) (st : Status) (b : List Byte) (w : Work) : Work :=
  match w.cmd id with
  | none => w
  | some c =>
    let s := actsOn c
    let qk := namedQueue c
    if workStopped w c then w
    else if st ≠ St.ok then faultCmd e id st 0 w
    else if (w.slice s).state != .active then endCmd id St.stateReject w
    else if !descOk (w.slice s).ctxLog2.toNat b || (w.queue qk).state != .absent then endCmd id St.badCommand w
    else endCmd id St.ok (addQueue e qk (newQueue (descOf b)) w)

/-- QUEUE_DESTROY (R176, R184): where writes for the queue are still to be made or answered, the command waits for them
(R131). -/
def queueDestroyOp (c : Cmd) (w : Work) : Work :=
  let qk := namedQueue c
  let q := w.queue qk
  if (w.slice (actsOn c)).state == .active && q.state != .absent && !q.closing && qk != c.qk && q.fetch == q.head &&
      q.held.isEmpty && q.kept.isEmpty then
    if q.written then endCmd c.id St.ok { w with queues := tblDel w.queues qk }
    else (w.updCmd c.id fun d => { d with phase := .running, waiting := .queue }).updQueue qk fun x => { x with closing := true }
  else endCmd c.id St.stateReject w

/-- The context that CTX_LOAD and CTX_EVICT name. -/
def namedCtx (c : Cmd) : Nat := fieldAt c.bytes 24 2

/-- CTX_LOAD (R176, R280): the command waits until its context is resident. -/
def ctxLoadOp (c : Cmd) (w : Work) : Work :=
  match c.slice with
  | none => w
  | some s =>
    if w.isResident s (namedCtx c) then endCmd c.id St.stateReject w
    else w.updCmd c.id fun d => { d with phase := .running, waiting := .slot }

/-- CTX_EVICT (R176, R184): the command waits until its context has left its slot. -/
def ctxEvictOp (c : Cmd) (w : Work) : Work :=
  match c.slice with
  | none => w
  | some s =>
    if w.isResident s (namedCtx c) && namedCtx c != c.ctx then
      w.updCmd c.id fun d => { d with phase := .running, waiting := .slot }
    else endCmd c.id St.stateReject w

/-- Write the 32 bytes of a QUERY (R185). -/
def queryResult (e : Block) (c : Cmd) (data : List Byte) (w : Work) : Work :=
  let ptr := fieldAt c.bytes 32 8
  writeFor e c.slice (ptrDev ptr) (ptrAddr ptr) (bytesAt data 0 32) (.queryWrite c.id)
    (w.updCmd c.id fun d => { d with phase := .running, writesLeft := 1 })

/-- QUERY (R185): live values of a resident context, zeroes of a slice that is OFF or FENCED, else the values last saved,
which the context's record holds. -/
def queryOp (e : Block) (c : Cmd) (w : Work) : Work :=
  let s := actsOn c
  let x := namedCtx c
  if !(w.slice s).pasidOpen then queryResult e c [] w
  else if w.isResident s x || !mayIssue w (some s) false then queryResult e c (ctxValues (w.ctx s x)) w
  else readFor e (some s) false (ctxAddr w s x) 32 (.queryRead c.id) (w.updCmd c.id fun d => { d with phase := .running })

/-- The answer to the read of a saved record: a failed access to a context record is no data access failure (R557), and ends the
command with its status alone. -/
def queryReadAnswered (e : Block) (id : Nat) (st : Status) (data : List Byte) (w : Work) : Work :=
  match w.cmd id with
  | none => w
  | some c => if workStopped w c then w else if st ≠ St.ok then endCmd id st w else queryResult e c data w

/-- QUEUE_CREATE. -/
def execQueueCreate (id : Nat) (s : State) : Host.Outcome State Fault Refusal :=
  .next (s.onWork fun e w => runCmd .queueCreate id (queueCreateOp e) w)

/-- QUEUE_DESTROY. -/
def execQueueDestroy (id : Nat) (s : State) : Host.Outcome State Fault Refusal :=
  .next (s.onWork fun _ w => runCmd .queueDestroy id queueDestroyOp w)

/-- CTX_LOAD. -/
def execCtxLoad (id : Nat) (s : State) : Host.Outcome State Fault Refusal :=
  .next (s.onWork fun _ w => runCmd .ctxLoad id ctxLoadOp w)

/-- CTX_EVICT. -/
def execCtxEvict (id : Nat) (s : State) : Host.Outcome State Fault Refusal :=
  .next (s.onWork fun _ w => runCmd .ctxEvict id ctxEvictOp w)

/-- QUERY. -/
def execQuery (id : Nat) (s : State) : Host.Outcome State Fault Refusal :=
  .next (s.onWork fun e w => runCmd .query id (queryOp e) w)

end Sys2Proof.Machine
end

