-- ==== Sys2Proof/Machine/Copy.lean ====
section
/-! DEFINITION. The copy engine: COPY, FILL and the rounds in which it serves slices (R181, R182, R293, R557). -/

namespace Sys2Proof.Machine

/-- LENGTH of a COPY or FILL. -/
def moveLen (c : Cmd) : Nat := if c.op == some .copy then fieldAt c.bytes 48 8 else fieldAt c.bytes 40 8

/-- Where a COPY or FILL writes: the object's index and the offset. -/
def moveDst (c : Cmd) : Nat × Nat :=
  if c.op == some .copy then (hIndex (fieldAt c.bytes 28 4), fieldAt c.bytes 40 8)
  else (hIndex (fieldAt c.bytes 24 4), fieldAt c.bytes 32 8)

/-- Where a COPY reads. -/
def moveSrc (c : Cmd) : Nat × Nat := (hIndex (fieldAt c.bytes 24 4), fieldAt c.bytes 32 8)

/-- Whether the source and the destination of a COPY overlap (R182): the destination's contents are then open. -/
def overlaps (w : Work) (c : Cmd) : Bool :=
  let a := w.obj (moveSrc c).1
  let b := w.obj (moveDst c).1
  let p := a.base + (moveSrc c).2
  let q := b.base + (moveDst c).2
  a.dev == b.dev && a.remote == b.remote && (!a.remote || a.chip == b.chip) && p < q + moveLen c && q < p + moveLen c

/-- A write of a command at byte `pos` of its range, charged to its slice (R266). -/
def putMove (e : Block) (c : Cmd) (s pos : Nat) (data : List Byte) (upd : Option FenceUpd) (last : Bool) (w : Work) : Work :=
  let d := moveDst c
  let r := objReq e (w.obj d.1) (if upd.isSome then .signalledWrite else .write) (d.2 + pos) data.length data (.copyWrite c.id last)
  chargeBytes e s data.length (issue e (some s) { r with sig := upd } w)

/-- The length of the last request of a range: what lies in its last 256-byte window. -/
def lastPiece (e : Block) (w : Work) (c : Cmd) (len : Nat) : Nat :=
  let d := moveDst c
  let a := (objReq e (w.obj d.1) .write (d.2 + moveLen c - 1) 1 [0] (.copyWrite c.id true)).addr.toNat
  min len (a % 256 + 1)

/-- Write `data` at byte `pos` of a command's range: the last request of the range is kept until every other write has
received its OK response (R73, R182). -/
def moveWrite (e : Block) (c : Cmd) (s pos : Nat) (data : List Byte) (w : Work) : Work :=
  if pos + data.length < moveLen c then putMove e c s pos data none false w
  else
    let k := data.length - lastPiece e w c data.length
    let w := if k = 0 then w else putMove e c s pos (data.take k) none false w
    w.updCmd c.id fun x => { x with aux := data.drop k }

/-- Whether a command of the copy engine still works: not ended, and its context not stopped (R560, R562). -/
def moving (w : Work) (c : Cmd) : Bool :=
  c.phase == .running && c.endStatus.isNone && (match c.slice with
    | some s => !(w.ctx s c.ctx).stopped
    | none => false)

/-- The reads of a COPY that wait to be written, and those not yet answered. -/
def copyReads (w : Work) (id : Nat) : List Req := w.fab.reqs.filter fun r => r.why == .copyRead id

/-- The byte of a COPY's range at which a read began. -/
def readPos (e : Block) (w : Work) (c : Cmd) (r : Req) : Nat :=
  let src := moveSrc c
  r.addr.toNat - (objReq e (w.obj src.1) .read src.2 0 [] (.copyRead c.id)).addr.toNat

/-- Issue the last write of a command's range, with its fence update, once nothing else of it is unanswered (R73, R182). -/
def finishMove (e : Block) (id : Nat) (w : Work) : Work :=
  match w.cmd id with
  | none => w
  | some c =>
    match c.slice with
    | none => w
    | some s =>
      if moving w c && !c.aux.isEmpty && (w.reqsOf id).isEmpty && (copyReads w id).isEmpty && !memShut e w s then
        let w := putMove e c s (moveLen c - c.aux.length) c.aux (fenceUpd e w c) true w
        w.updCmd id fun x => { x with auxNat := sigSent, aux := [] }
      else w

/-- How many of `n` bytes from address `a` the copy engine asks for now: whole requests of R70, none once the memory level has come to
0 (R267). [DESIGN CHOICE, log entry 32] -/
def memRoom (e : Block) (w : Work) (s a n : Nat) : Nat :=
  if e.dct.memLimit s = 0 then n else min n ((a + (w.slice s).lvlMem.toNat + 255) / 256 * 256 - a)

/-- The address of a byte of the range that a command writes. -/
def moveAddr (e : Block) (w : Work) (c : Cmd) (pos : Nat) : Nat :=
  (objReq e (w.obj (moveDst c).1) .write ((moveDst c).2 + pos) 1 [0] (.copyWrite c.id false)).addr.toNat

/-- Take the first `k` bytes of an answered read. -/
def Req.advance (r : Req) (k : Nat) : Req :=
  { r with addr := r.addr + BitVec.ofNat 64 k, len := r.len - k, answer := r.answer.map fun a => (a.1, a.2.drop k) }

/-- Write what a COPY has read. [DESIGN CHOICE, log entry 32] -/
def drainReads (e : Block) (id : Nat) : Nat → Work → Work
  | 0, w => finishMove e id w
  | fuel + 1, w =>
    match w.cmd id with
    | none => w
    | some c =>
      match c.slice with
      | none => w
      | some s =>
        match (copyReads w id).find? fun r => r.answer.isSome with
        | none => finishMove e id w
        | some r =>
          if memShut e w s then w
          else
            let pos := readPos e w c r
            let k := memRoom e w s (moveAddr e w c pos) r.len
            let data := bytesAt ((r.answer.map Prod.snd).getD []) 0 k
            let w := if k < r.len then w.updReq r.tag fun r => r.advance k else w.dropReq r.tag
            if !moving w c then drainReads e id fuel (w.dropReq r.tag)
            else if overlaps w c then
              let d := w.draw
              drainReads e id fuel (moveWrite e c s pos ((List.range k).map (Config.freeByte d.1)) d.2)
            else drainReads e id fuel (moveWrite e c s pos data w)

/-- The answer to a read of the copy engine (R182, R557). -/
def copyReadAnswered (e : Block) (tag : Nat) (id : Nat) (st : Status) (w : Work) : Work :=
  if st ≠ St.ok then faultCmd e id st 0 (w.dropReq tag)
  else
    match w.cmd id with
    | some c => if moving w c then drainReads e id ((copyReads w id).length + 1) w else w.dropReq tag
    | none => w.dropReq tag

/-- Whether a command has nothing left to be answered. -/
def allAnswered (w : Work) (id : Nat) : Bool := (w.reqsOf id).isEmpty

/-- The answer to a write of the copy engine (R182): without a fence update the last answer ends the command; with one the
update does (R234). The request itself has been taken out. -/
def copyWriteAnswered (e : Block) (id : Nat) (st : Status) (w : Work) : Work :=
  if st ≠ St.ok then faultCmd e id st 0 w
  else match w.cmd id with
    | none => w
    | some c =>
      if c.auxNat == sigSent && (sigOf w c).isNone && allAnswered w id && moving w c then endCmd id St.ok w
      else finishMove e id w

/-- The bytes that a FILL writes from byte `pos` of its range (R181). -/
def fillBytes (c : Cmd) (pos n : Nat) : List Byte :=
  (List.range n).map fun i => c.bytes.getD (48 + (pos + i) % 8) 0

/-- The largest transfer that the copy engine asks for at once: 64 KiB (R293, R606). -/
abbrev copyChunk : Nat := 65536

/-- Whether the copy engine can ask for more of a command. -/
def movable (e : Block) (w : Work) (s : Nat) (c : Cmd) : Bool :=
  moving w c && !c.suspended && !memShut e w s && decide (c.bytesDone < moveLen c)

/-- Move one command of a slice on, within `left` bytes, in requests for 64 KiB at the most; the bytes that remain. -/
def moveSome (e : Block) (id s : Nat) : Nat → Nat → Work → Work × Nat
  | 0, left, w => (w, left)
  | fuel + 1, left, w =>
    match w.cmd id with
    | none => (w, left)
    | some c =>
      if !movable e w s c || left == 0 then (w, left)
      else
        let copies : Bool := c.op == some .copy
        let src := moveSrc c
        let a := if copies then (objReq e (w.obj src.1) .read (src.2 + c.bytesDone) 1 [] (.copyRead id)).addr.toNat
          else moveAddr e w c c.bytesDone
        let n := memRoom e w s a (min left (min copyChunk (moveLen c - c.bytesDone)))
        let w := w.updCmd id fun d => { d with bytesDone := c.bytesDone + n }
        if copies then
          let r := objReq e (w.obj src.1) .read (src.2 + c.bytesDone) n [] (.copyRead id)
          moveSome e id s fuel (left - n) (chargeBytes e s n (issue e (some s) r w))
        else moveSome e id s fuel (left - n) (finishMove e id (moveWrite e c s c.bytesDone (fillBytes c c.bytesDone n) w))

/-- The commands that the copy engine serves for a slice, in its order (R293). -/
def moveOrder (w : Work) (s : Nat) : List Cmd :=
  (w.cmds.filter fun c => c.slice == some s && (c.op == some .copy || c.op == some .fill) && c.phase == .running).isort
    fun a b => standsBefore w a b

/-- Whether the copy engine has something to move for a slice. -/
def hasMoves (e : Block) (w : Work) (s : Nat) : Bool := (moveOrder w s).any (movable e w s)

/-- Whether the rotation over slices comes to slice `s` next (R293): it starts after the slice served last and passes over slices
with nothing to move. -/
def copyTurn (e : Block) (w : Work) (s : Nat) : Bool :=
  (List.range 64).all fun t => !hasMoves e w t || decide ((s + 63 - w.copyLast) % 64 ≤ (t + 63 - w.copyLast) % 64)

/-- The bytes of a slice's round (R293): 64 KiB × WEIGHT. -/
def roundBytes (e : Block) (s : Nat) : Nat := copyChunk * e.dct.weight s

/-- A slice's round (R293): what its COPYs have read is written, and where the rotation has come to it, it takes its share.
[DESIGN CHOICE, log entry 32] -/
def copyRoundOp (e : Block) (s : Nat) (w : Work) : Work :=
  let w := (moveOrder w s).foldl (fun w c => drainReads e c.id ((copyReads w c.id).length + 1) w) w
  if !hasMoves e w s || !copyTurn e w s then w
  else
    let w := ((moveOrder w s).foldl (fun (a : Work × Nat) c => moveSome e c.id s (e.dct.weight s) a.2 a.1) (w, roundBytes e s)).1
    { w with copyLast := s }

/-- COPY or FILL is handed to the copy engine (R171). -/
def moveBegin (c : Cmd) (w : Work) : Work := w.updCmd c.id fun d => { d with phase := .running, bytesDone := 0 }

/-- COPY. -/
def execCopy (id : Nat) (s : State) : Host.Outcome State Fault Refusal :=
  .next (s.onWork fun _ w => runCmd .copy id moveBegin w)

/-- FILL. -/
def execFill (id : Nat) (s : State) : Host.Outcome State Fault Refusal :=
  .next (s.onWork fun _ w => runCmd .fill id moveBegin w)

/-- COPY_ROUND. -/
def execCopyRound (slice : Nat) (s : State) : Host.Outcome State Fault Refusal :=
  .next (s.onWork fun e w => copyRoundOp e slice w)

end Sys2Proof.Machine
end

