-- ==== Sys2Proof/Machine/Domains.lean ====
section
/-! DEFINITION. DOMAIN_RESET (R569 to R572, R579 to R582): a reset of each domain at the command of the admin queue. A domain
that is already in reset rejects the command (R594). -/

namespace Sys2Proof.Machine

/-- The command waits for its domain to return (R572). -/
def awaitDomain (id : Nat) (w : Work) : Work := w.updCmd id fun d => { d with phase := .running, waiting := .domain }

/-- The capture of a DOMAIN_RESET, unless its FLAGS say NO_CAPTURE (R571, R584). -/
def domainCapture (e : Block) (c : Cmd) (concern : Concern) (w : Work) : Work :=
  if (fieldAt c.bytes 27 1).testBit 0 then w
  else
    let k := fieldAt c.bytes 24 1
    let i := fieldAt c.bytes 25 1
    let r := fieldAt c.bytes 26 1
    captureEvent e { trigger := St.resetDomain, domain := k, index := i, rung := r, slice := if k = 5 then i else 0xFF, concern := concern } w

/-- The SEQ of the capture that a DOMAIN_RESET has just taken, 0 where its FLAGS say NO_CAPTURE. -/
def domainSeq (c : Cmd) (w : Work) : Nat := if (fieldAt c.bytes 27 1).testBit 0 then 0 else w.cap.seq

/-- DOMAIN 0x1 (R573, R574): a soft reset waits for a running tile to be killed; at a harder one the tile is lost, and is
replayed. [DESIGN CHOICE, log entry 48] -/
def resetEngine (e : Block) (c : Cmd) (p rung : Nat) (w : Work) : Work :=
  match (w.port p).state with
  | .absent => endCmd c.id St.stateReject w
  | .retired => endCmd c.id St.stateReject w
  | .inService =>
    if (w.port p).due.isSome || w.pln.engineDomain then endCmd c.id St.stateReject w
    else
      let w := domainCapture e c (.portOnly p) (awaitDomain c.id w)
      let q := domainSeq c w
      match runningTile w p with
      | none => enterLadder e p rung St.resetDomain (some c.id) q w
      | some t =>
        if rung = 1 then
          let w := if (w.port p).kill then w else killPort p .portReset w
          w.updPort p fun x => { x with due := some (1, St.resetDomain, some c.id, q) }
        else
          let w := chargeTile e t (sinceStart e t) (payer w t) w
          enterLadder e p rung St.resetDomain (some c.id) q (dropTile t.cmd t.index w)
  | _ => endCmd c.id St.stateReject w

/-- Whether the joiner cluster is in a reset other than that of a start (R595). [DESIGN CHOICE, log entry 17] -/
def jnrInReset (w : Work) : Bool := w.jnr.state != .running && w.jnr.cause != .coldStart && w.jnr.cause != .warmStart

/-- DOMAIN 0x3 (R445, R438): the cluster starts again with the check of its retained image. -/
def resetJoinerDomain (e : Block) (c : Cmd) (w : Work) : Work :=
  if jnrInReset w then endCmd c.id St.stateReject w
  else
    let w := domainCapture e c .cores (awaitDomain c.id w)
    let w := resetCluster .domainReset (recordReset 3 0 St.resetDomain w)
    { w with jnr := { w.jnr with domainCmd := some c.id } }

/-- DOMAIN 0x4 (R579): the port's neighbour is declared lost, its lane resets fall for 1 µs, and the lane layer is reset (R647). The
command ends as the port trains again, or at once where the flap limit holds it. [DESIGN CHOICE, log entry 48] -/
def resetTenon (c : Cmd) (p : Nat) (b : Block) : Block :=
  if !b.dct.portEnable.testBit p || b.work.cmds.any (fun d => d.awaits 4 p) then b.updWork (endCmd c.id St.stateReject)
  else
    let b := b.updWork fun w => recordReset 4 p St.resetDomain (domainCapture b c .link (awaitDomain c.id w))
    let b := (loseNeighbour p St.resetDomain b).updLport p fun x => { x with
      rstN := false, rstWait := resetCycles b, deskew := none, lane0 := { rxLock := x.lane0.rxLock }, lane1 := { rxLock := x.lane1.rxLock },
      hop := 0 }
    let b := b.updCoder p fun c => { sent := c.sent, lane0 := { words := c.lane0.words }, lane1 := { words := c.lane1.words } }
    if (b.lport p).state == .lost then b else b.updWork (portReturns p)

/-- The contexts of a slice that R580 tears down: those with a fetched command, a resident slot or a registered watch. -/
def contextsInUse (w : Work) (s : Nat) : List Nat :=
  (((w.cmds.filter fun c => c.slice == some s).map Cmd.ctx) ++
    ((w.slots.filter fun p => p.2.slice == s && p.2.state != .free).map fun p => p.2.ctx) ++
    (w.slice s).watches.map Watch.ctx).dedup

/-- DOMAIN 0x5 (R580): every context in use is torn down with RESET_DOMAIN. [DESIGN CHOICE, log entry 48] -/
def resetSlice (e : Block) (c : Cmd) (s : Nat) (w : Work) : Work :=
  if (w.slice s).state == .off then endCmd c.id St.stateReject w
  else if sliceInReset w s then endCmd c.id St.stateReject w
  else
    let w := recordReset 5 s St.resetDomain (domainCapture e c (.sliceAll s) (awaitDomain c.id w))
    let q := domainSeq c w
    let w := (contextsInUse w s).foldl (fun w k => startTeardown e s k St.resetDomain St.resetDomain (some q) w) w
    sliceReturns s w

/-- DOMAIN 0x7 (R572, R581): the command's record is written, the capture is taken, and the reset falls due.
[DESIGN CHOICE, log entry 48] -/
def resetBlock (e : Block) (c : Cmd) (w : Work) : Work :=
  let w := recordReset 7 0 St.resetDomain (domainCapture e c .block (endCmd c.id St.ok w))
  (dueBlockReset w).updCap fun k => { k with recordFirst := true }

/-- DOMAIN_RESET, released and checked (R571). [DESIGN CHOICE, log entry 48] -/
def resetDomainOp (c : Cmd) (b : Block) : Block :=
  let i := fieldAt c.bytes 25 1
  let quiet : Bool := (fieldAt c.bytes 27 1).testBit 0
  match fieldAt c.bytes 24 1 with
  | 1 => b.updWork (resetEngine b c i (fieldAt c.bytes 26 1))
  | 2 => b.updWork fun w =>
    if w.pln.inReset || w.pln.engineDomain then endCmd c.id St.stateReject w else startPlaner b St.resetDomain (some c.id) quiet (awaitDomain c.id w)
  | 3 => b.updWork (resetJoinerDomain b c)
  | 4 => resetTenon c i b
  | 5 => b.updWork (resetSlice b c i)
  | 6 => b.updWork fun w =>
    if w.pln.engineDomain then endCmd c.id St.stateReject w else startDomain b St.resetDomain (some c.id) none quiet (awaitDomain c.id w)
  | 7 => b.updWork (resetBlock b c)
  | _ => b

/-- Run `f` on a released command where the whole block takes part. -/
def runBlock (o : Op) (id : Nat) (f : Cmd → Block → Block) (b : Block) : Block :=
  match b.work.cmd id with
  | some c => if c.phase == .released && c.op == some o && c.endStatus.isNone && !c.suspended then f c b else b
  | none => b

/-- DOMAIN_RESET. -/
def execDomainReset (id : Nat) (s : State) : Host.Outcome State Fault Refusal :=
  .next (s.onBoxes (runBlock .domainReset id resetDomainOp))

end Sys2Proof.Machine
end

