-- ==== Sys2Proof/Machine/Late.lean ====
section
/-! DEFINITION. What the end of a control cycle decides, where a rule gives what else falls in the cycle the first word: endings on
the engine ports (R45, R594), the link (R511), the frame and the Truss (R555), timeouts and lends (R213, R292, R295, R438), OBJ_FREE (R228), teardowns (R342), error marks and waits (R307), reads of locks
(R461), voltage requests (R643). Then the freeze cycle (R631) and the beat edge (R31), with each of which a control cycle begins. -/

namespace Sys2Proof.Machine

/-- When in the end of a cycle something is decided. [DESIGN CHOICE, log entry 5] -/
def Late.rank : Late → Nat
  | .hung _ => 0
  | .bcast _ _ _ => 1
  | .ackTimeout _ _ => 2
  | .resendTimeout _ _ => 3
  | .silence _ => 4
  | .takeOver => 5
  | .exclude _ => 6
  | .arrive _ => 7
  | .subtree _ => 8
  | .reopen => 9
  | .timeout _ => 10
  | .lend _ _ _ => 11
  | .objFree _ => 12
  | .teardown _ _ => 13
  | .mark _ _ _ _ => 14
  | .markAll _ _ => 14
  | .resolve _ _ => 15
  | .waited _ => 15
  | .dropWatches _ _ _ => 16
  | .save _ => 17
  | .lockRead _ _ _ => 18
  | .cpl _ _ _ => 18
  | .voltage _ => 19
  | .leftOff _ => 20

/-- What those of one rank are ordered by: broadcasts by port (R511), reads of locks by identity (R461). -/
def Late.order : Late → Nat
  | .bcast p _ _ => p
  | .lockRead mid _ _ => mid.toNat
  | _ => 0

/-- A read of a lock (R460, R461): its value goes to the reader. -/
def lockReadLate (mid : BitVec 8) (i : Nat) (tag : Option (BitVec 10)) (b : Block) : Block :=
  let v := lockWord b i
  (readLock mid i b).updWork fun w => w.emit (match tag with
    | some t => .cpl t v false
    | none => .lockValue mid i v)

/-- Decide one of them. [DESIGN CHOICE, log entry 5] -/
def decideLate (b : Block) : Late → Block
  | .hung p => b.updWork (killHung b p)
  | .bcast p arrival m => bcastMsg p arrival m b
  | .ackTimeout p seq => ackLate p seq b
  | .resendTimeout p seq => resendLate p seq b
  | .silence p => silence p b
  | .takeOver => takeOverLate b
  | .exclude c => excludeLate c b
  | .arrive m => arriveMsg m b
  | .subtree i => trussCheck i b
  | .reopen => reopenAll b
  | .timeout id => b.updWork (timeoutCmd b id)
  | .lend s i c => b.updWork (lendOut b s i c)
  | .objFree id => b.updWork (objFreeLate b id)
  | .teardown s c => b.updWork (teardownOver b s c)
  | .mark s i st t => b.updWork (applyMark b s i st t)
  | .markAll s st => b.updWork (markAllFences b s st)
  | .resolve s i => b.updWork (resolveFence b s i)
  | .waited id => b.updWork (waitedLate id)
  | .dropWatches s c st => b.updWork (dropWatches b s (fun x => x.ctx == c) st)
  | .save id => b.updWork (saveLate b id)
  | .lockRead mid i tag => lockReadLate mid i tag b
  | .cpl tag v ur => b.updWork fun w => w.emit (.cpl tag v ur)
  | .voltage rail => voltageLate rail b
  | .leftOff _ => b

/-- Decide those of one rank. -/
def decideRank (b : Block) (k : Nat) : Block :=
  let now := b.work.late.filter fun x => x.rank == k
  let b := b.updWork fun w => { w with late := w.late.filter fun x => x.rank != k }
  (now.isort fun x y => x.order ≤ y.order).foldl decideLate b

/-- What the end of a control cycle decides. Barrier arrivals that have ended go to the manager before and after it (R540). Grants
come behind the teardowns (R342). [DESIGN CHOICE, log entry 5] -/
def cycleOver (b : Block) : Block :=
  let b := sendBarEnds (b.updWork (endPorts b))
  let b := ((List.range 14).foldl decideRank b).updWork fun w => grantsLate w.cmds.length w
  sendBarEnds ((List.range 7).foldl (fun b k => decideRank b (14 + k)) b)

/-! ### The freeze cycle (R631, R643) -/

/-- The control cycle before ends as the freeze cycle begins: what was received in it counts, and what comes after does not
(R631, R643). [DESIGN CHOICE, log entry 5] -/
def lastCycle (b : Block) : Block := if b.still || b.st.inPor then b else (cycleOver b).after

/-- PWRFAIL_N has been sampled low (R105, R632). -/
def pwrfailFell (b : Block) : Block := freeze St.powerFail ((lastCycle b).updPwr fun x => { x with pwrfailLow := true })

/-- PWRFAIL_N_FALL. -/
def execPwrfailNFall (s : State) : Host.Outcome State Fault Refusal := .next (s.on pwrfailFell)

/-- SMBALERT# (R630): bits 15, 14 and 13 of STATUS_WORD are VOUT, IOUT and INPUT; PMB_ALERT_N wakes a block in PS3 (R625). A
word whose packet error check fails is not acted on (R103). [PRESUMED, log entry 43] -/
def pmbAlert (word : Option (BitVec 16)) (b : Block) : Block :=
  if b.pwr.state = .ps3 then powerAdvance (wake 6 b)
  else match word with
    | none => b
    | some v =>
      if v &&& 0xE000 ≠ 0 then freeze St.vrFault (lastCycle b)
      else if v = 0 then b
      else (b.updPwr fun x => { x with warnings := x.warnings + 1 }).updWork fun w => w.raise (vecAdmin 5)

/-- PMB_ALERT. -/
def execPmbAlert (statusWord : Option (BitVec 16)) (s : State) : Host.Outcome State Fault Refusal :=
  .next (s.onAon (pmbAlert statusWord))

/-! ### The beat edge -/

/-- Nothing is set in the cycle that begins (R17). -/
def staleBits (w : Work) : Work := { w with setNow := [] }

/-- Kills that rose in the cycle that ends are no longer fresh (R45, R90), acknowledgements fall, and a fault has no rank in the cycle
that begins (R594). -/
def staleKills (w : Work) : Work :=
  let w := (w.ports.filter fun p => p.2.killFresh || p.2.killAck || p.2.srstAck).foldl (fun w p =>
    w.updPort p.1 fun x => { x with killFresh := false, killAck := false, srstAck := false }) w
  w.updCap fun k => { k with teardowns := k.teardowns.map fun t => { t with rank := none } }

/-- A beat edge (R33). What the block has sampled before it belongs to the cycle, and to the beat, before (R31).
[DESIGN CHOICE, log entry 5; DESIGN CHOICE, log entry 47] -/
def beatEdge (b : Block) : Block :=
  let b := (cycleOver b).after
  let b := b.updWork fun w => staleBits (staleKills w)
  let b := edgeLinks (edgeClock b)
  let b := { b with work := edgeWork b b.work }
  frameEdge b

/-- BEAT_EDGE. -/
def execBeatEdge (s : State) : Host.Outcome State Fault Refusal := .next (s.onAll beatEdge)

end Sys2Proof.Machine
end

