-- ==== Sys2Proof/Machine/Mailbox.lean ====
section
/-! DEFINITION. Mailboxes and locks: accesses to the ends of a channel (R452 to R457), the firmware's services (R458), and
the lock registers (R459 to R461). -/

namespace Sys2Proof.Machine

/-- MAILBOX_RING. -/
def execMailboxRing (mid : BitVec 8) (channel : Nat) (clusterEnd : Bool) (bits : BitVec 16) (s : State) :
    Host.Outcome State Fault Refusal :=
  .next (s.onAll (onEnd mid channel clusterEnd (ringBits mid channel clusterEnd bits)))

/-- MAILBOX_CLEAR. -/
def execMailboxClear (mid : BitVec 8) (channel : Nat) (clusterEnd : Bool) (bits : BitVec 16) (s : State) :
    Host.Outcome State Fault Refusal :=
  .next (s.onAll (onEnd mid channel clusterEnd (clearBits channel clusterEnd bits)))

/-- MAILBOX_MASK_WRITE. -/
def execMailboxMaskWrite (mid : BitVec 8) (channel : Nat) (clusterEnd : Bool) (bits : BitVec 16) (s : State) :
    Host.Outcome State Fault Refusal :=
  .next (s.onAll (onEnd mid channel clusterEnd (writeMask channel clusterEnd bits)))

/-- MAILBOX_MSG_WRITE. -/
def execMailboxMsgWrite (mid : BitVec 8) (channel : Nat) (clusterEnd : Bool) (word : BitVec 64) (s : State) :
    Host.Outcome State Fault Refusal :=
  .next (s.onAll (onEnd mid channel clusterEnd (writeWord mid channel clusterEnd word)))

/-- MBX_TIMEOUT_US have passed since a bit was set (R457): bits 16 to 31 are the cluster end's rings. -/
def ringLate (c bit : Nat) (b : Block) : Block :=
  if (b.chan c).db.getLsbD bit && bit < 32 then
    if 16 ≤ bit then setTimeouts c true (BitVec.ofNat 16 (2 ^ (bit - 16))) b else setTimeouts c false (BitVec.ofNat 16 (2 ^ bit)) b
  else b

/-- MAILBOX_RING_TIMEOUT. [DESIGN CHOICE, log entry 7] -/
def execMailboxRingTimeout (channel bit : Nat) (s : State) : Host.Outcome State Fault Refusal :=
  .next (s.onAll (ringLate channel bit))

/-! ### The firmware's services (R458) -/

/-- The identity with which the firmware answers: the lowest core that runs. [DESIGN CHOICE, log entry 36] -/
def firmwareMid (b : Block) : BitVec 8 :=
  match (List.range 32).find? fun k => (b.work.jcore k).up with
  | some k => BitVec.ofNat 8 (0x10 + k)
  | none => 0x10

/-- Serve a request on a service channel: it is taken, and the reply goes out with a ring of bit 16. -/
def serveRequest (c : Nat) (reply : Block → BitVec 64) (b : Block) : Block :=
  let m := firmwareMid b
  ringBits m c true 1 (writeWord m c true (reply b) (takeBits c 1 b))

/-- Whether a service channel holds a request that the firmware can serve. -/
def serviceReady (b : Block) (c : Nat) : Bool :=
  1 ≤ c && c ≤ 3 && !b.mbx.maint && jnrRuns b.work && (b.chan c).db.getLsbD 0

/-- The reply to a request word that names neither VERSION nor CORE_MAP: PING's own word, and all ones for any other. -/
def pingReply (v : BitVec 64) : BitVec 64 := if v = 1 then v else BitVec.allOnes 64

/-- A request other than VERSION and CORE_MAP (R458). -/
def servePing (c : Nat) (b : Block) : Block :=
  let v := (b.chan c).peerWord
  if serviceReady b c && v != 2 && v != 3 then serveRequest c (fun _ => pingReply v) b else b

/-- A VERSION request. -/
def serveVersion (c : Nat) (b : Block) : Block :=
  if serviceReady b c && (b.chan c).peerWord == 2 then serveRequest c (fun b => b.work.jnr.fwVersion.setWidth 64) b else b

/-- A CORE_MAP request. -/
def serveCoreMap (c : Nat) (b : Block) : Block :=
  if serviceReady b c && (b.chan c).peerWord == 3 then serveRequest c (fun b => (coresUp b.work).setWidth 64) b else b

/-- PING. -/
def execPing (channel : Nat) (s : State) : Host.Outcome State Fault Refusal := .next (s.onAll (servePing channel))

/-- VERSION. -/
def execVersion (channel : Nat) (s : State) : Host.Outcome State Fault Refusal := .next (s.onAll (serveVersion channel))

/-- CORE_MAP. -/
def execCoreMap (channel : Nat) (s : State) : Host.Outcome State Fault Refusal := .next (s.onAll (serveCoreMap channel))

/-! ### Locks (R459 to R461) -/

/-- LOCK_READ: served at the end of the control cycle (R461). -/
def execLockRead (mid : BitVec 8) (lock : Nat) (s : State) : Host.Outcome State Fault Refusal :=
  .next (s.onAll fun b => if lock < 64 && lockAccess mid.toNat then b.updWork fun w => w.later (.lockRead mid lock none) else b)

/-- LOCK_RELEASE. -/
def execLockRelease (mid : BitVec 8) (lock : Nat) (value : BitVec 64) (s : State) : Host.Outcome State Fault Refusal :=
  .next (s.onAll fun b => if lock < 64 && lockAccess mid.toNat then writeLock mid lock value b else b)

/-- MBX_LOCK_FORCE. -/
def execMbxLockForce (lock : Nat) (s : State) : Host.Outcome State Fault Refusal :=
  .next (s.onAll fun b => if lock < 64 then b.setLock lock none else b)

end Sys2Proof.Machine
end

