-- ==== Sys2Proof/Machine/Migrate.lean ====
section
/-! DEFINITION. Slice migration: freezing and resuming (R605 to R608), SLICE_SAVE and SLICE_RESTORE (R609 to R614), and
dirty logging (R596 to R603). -/

namespace Sys2Proof.Machine

/-! ### Freezing and resuming (R605 to R608) -/

/-- SLICE_FREEZE (R605, R606): the slice enters FROZEN, its commands are suspended but for TIDYs whose programs run, and its staged
tiles are unstaged. `quiesce` ends the command. -/
def freezeOp (c : Cmd) (w : Work) : Work :=
  let s := bodySlice c.bytes
  if (w.slice s).state != .active then endCmd c.id St.stateReject w
  else
    let w := w.updSlice s fun x => { x with state := .frozen, quiescent := false }
    let w := w.mapCmds fun d =>
      if d.slice = some s ∧ d.endStatus.isNone ∧ ¬(d.op = some .tidy ∧ w.jnr.progs.any fun p => p.cmd == d.id) then
        { d with suspended := true, timer := if d.timer = some 0 then some 1 else d.timer } else d
    let w := (w.cmds.filter fun d => d.slice == some s).foldl (fun w d => unstageCmd d.id w) w
    w.updCmd c.id fun d => { d with phase := .running, waiting := .quiesce }

/-- The registered fence waits of a slice that resumes are resolved against the fences as they stand (R304, R608).
[DESIGN CHOICE, log entry 13] -/
def recheckWaits (s : Nat) (w : Work) : Work :=
  ((w.cmds.filter fun c => c.slice == some s && c.fenceWaits).map fun c => cWaitFence c.bytes).dedup.foldl (fun w i =>
    w.later (.resolve s i)) w

/-- The watch records held while a slice was FROZEN are written (R607, R608). -/
def writeHeldWatches (e : Block) (s : Nat) (w : Work) : Work :=
  (w.slice s).watches.foldl (fun w x =>
    match x.fired with
    | some (st, v, beat) => writeWatchAt e s x st v beat (removeWatch s x.wid w)
    | none => w) w

/-- SLICE_RESUME (R608): a SLICE_FREEZE or SLICE_SAVE of the slice that has not ended ends with STATE_REJECT. -/
def resumeOp (e : Block) (c : Cmd) (w : Work) : Work :=
  let s := bodySlice c.bytes
  if (w.slice s).state != .frozen then endCmd c.id St.stateReject w
  else
    let w := w.updSlice s fun x => { x with state := .active, quiescent := false }
    let w := w.mapCmds fun d =>
      if d.slice = some s then { d with suspended := false }
      else if d.slice.isNone && (d.op == some .sliceFreeze || d.op == some .sliceSave) && d.phase == .running &&
          bodySlice d.bytes == s then
        { d.endWith St.stateReject with waiting := .none, phase := .stopping }
      else d
    let w := readHeldSuccessors e s (recheckWaits s w)
    let w := (w.queues.filter fun p => sliceOf p.1 == some s).foldl (fun w p =>
      readShown e p.1 (serveRecords e p.1 (applyLate e p.1 w))) w
    endCmd c.id St.ok (writeHeldWatches e s w)

/-! ### Saving (R609 to R612) -/

/-- SLICE_SAVE (R609). -/
def saveOp (c : Cmd) (w : Work) : Work :=
  let s := bodySlice c.bytes
  if (w.slice s).state != .frozen then endCmd c.id St.stateReject w
  else
    let w := w.updCmd c.id fun d => { d with phase := .running }
    if (w.slice s).quiescent then w.later (.save c.id) else w.updCmd c.id fun d => { d with waiting := .quiesce }

/-! ### Dirty logging (R596 to R603) -/

/-- The bytes of a host map (R597). -/
def hostMapBytes (len : Nat) : Nat := len / 32768

/-- The bytes of the device map of a window of `size` bytes (R597). -/
def devMapBytes (size : Nat) : Nat := ceilDiv (size / 2 ^ 21) 512 * 64

/-- The selection of a DIRTY_LOG: the host log, the device log. -/
def logHost (c : Cmd) : Bool := (fieldAt c.bytes 26 1).testBit 0
/-- The device log. -/
def logDev (c : Cmd) : Bool := (fieldAt c.bytes 26 1).testBit 1
/-- The slice that a DIRTY_LOG names. -/
def logSlice (c : Cmd) : Nat := bitsOf (fieldAt c.bytes 25 1) 5 0
/-- The operation of a DIRTY_LOG. -/
def logOp (c : Cmd) : Nat := fieldAt c.bytes 24 1

/-- Whether every selected log is as `on` says (R598). -/
def logsAre (on : Bool) (c : Cmd) (w : Work) : Bool :=
  let x := w.slice (logSlice c)
  x.state != .off && (!logHost c || x.hostLog.on == on) && (!logDev c || x.devLog.on == on)

/-- Put a write of the physical function out for a command and count it. -/
def imageWriteFor (e : Block) (id : Nat) (dev : Bool) (a : Nat) (data : List Byte) (w : Work) : Work :=
  writeFor e none dev a data (.imageWrite id) (w.updCmd id fun d => { d with writesLeft := d.writesLeft + 1 })

/-- ENABLE (R598): the maps are zeroed; logging starts once they are. [DESIGN CHOICE, log entry 31] -/
def logEnable (e : Block) (c : Cmd) (w : Work) : Work :=
  if logOp c != 1 then w
  else if !logsAre false c w then endCmd c.id St.stateReject w
  else
    let w := w.updCmd c.id fun d => { d with phase := .running }
    let w := if logHost c then
        imageWriteFor e c.id true (fieldAt c.bytes 48 8) (List.replicate (hostMapBytes (fieldAt c.bytes 40 8)) 0) w
      else w
    if logDev c then
      imageWriteFor e c.id true (fieldAt c.bytes 64 8) (List.replicate (devMapBytes (e.dct.devSize (logSlice c))) 0) w
    else w

/-- The selected logs start (R598, R602). -/
def logsOn (c : Cmd) (w : Work) : Work :=
  w.updSlice (logSlice c) fun x =>
    let h : DirtyLog := { on := true, base := fieldAt c.bytes 32 8, len := fieldAt c.bytes 40 8, map := fieldAt c.bytes 48 8 }
    let d : DirtyLog := { on := true, map := fieldAt c.bytes 64 8 }
    { x with hostLog := if logHost c then h else x.hostLog, devLog := if logDev c then d else x.devLog }

/-- A word of the marks that the block holds. -/
def DirtyLog.word (l : DirtyLog) (k : Nat) : Nat := ((l.bits.filter fun p => p.1 / 64 == k).map fun p => 2 ^ (p.1 % 64)).sum

/-- A log whose marks of a word have gone to the map. -/
def DirtyLog.clearWord (l : DirtyLog) (k : Nat) : DirtyLog := { l with bits := l.bits.filter fun p => !(p.1 / 64 == k) }

/-- The words that a HARVEST takes, in ascending order, of the host map and then of the device map: whether of the host map, and
which. -/
def harvestWords (e : Block) (c : Cmd) (w : Work) : List (Bool × Nat) :=
  (if logHost c then (List.range (hostMapBytes (w.slice (logSlice c)).hostLog.len / 8)).map fun k => (true, k) else []) ++
    (if logDev c then (List.range (devMapBytes (e.dct.devSize (logSlice c)) / 8)).map fun k => (false, k) else [])

/-- The host or the device log of a slice. -/
def Slice.log (x : Slice) (host : Bool) : DirtyLog := if host then x.hostLog else x.devLog

/-- Change one of them. -/
def Slice.updLog (x : Slice) (host : Bool) (f : DirtyLog → DirtyLog) : Slice :=
  if host then { x with hostLog := f x.hostLog } else { x with devLog := f x.devLog }

/-- An AMO on a word of a map, for a HARVEST (R75, R602): 3 is OR, 0 SWAP. [DESIGN CHOICE, log entry 31] -/
def mapAmo (e : Block) (c : Cmd) (host : Bool) (k : Nat) (fn : BitVec 4) (v : Nat) (w : Work) : Work :=
  let l := (w.slice (logSlice c)).log host
  issueRaw e none { newReq .amo true (spaceAddr e true (l.map + 8 * k)) 8 (leBytes 8 v) (.mapWord c.id) with amo := fn } w

/-- R602 step 1: the marks of a log that the block holds are made visible in its map. [DESIGN CHOICE, log entry 31] -/
def flushLog (e : Block) (c : Cmd) (host : Bool) (w : Work) : Work :=
  let l := (w.slice (logSlice c)).log host
  ((l.bits.map fun p => p.1 / 64).dedup).foldl (fun w k =>
    mapAmo e c host k 3 (l.word k) ((w.updCmd c.id fun d => { d with writesLeft := d.writesLeft + 1 }).updSlice (logSlice c) fun x =>
      x.updLog host fun y => y.clearWord k)) w

/-- The bits set in some bytes. -/
def bitCount (b : List Byte) : Nat := (b.map fun v => ((List.range 8).filter fun i => v.getLsbD i).length).sum

/-- The summary of a harvest (R602), before its words. -/
def harvestBytes (l : DirtyLog) (host : Bool) (words : List Byte) : List Byte :=
  leBytes 8 (l.seq + 1) ++ leBytes 8 (bitCount words) ++ leBytes 1 (if host && l.outside then 1 else 0) ++ leBytes 47 0 ++ words

/-- R602 step 3, for one log: its summary and words go to the buffer. -/
def writeHarvest (e : Block) (c : Cmd) (host : Bool) (buf : Nat) (words : List Byte) (w : Work) : Work :=
  let l := (w.slice (logSlice c)).log host
  (imageWriteFor e c.id false (ptrAddr buf) (harvestBytes l host words) w).updSlice (logSlice c) fun x =>
    x.updLog host fun y => { y with outside := false, seq := y.seq + 1 }

/-- R602 steps 2 and 3: the next word is taken and cleared, a mark of it that the block still holds with it; after the last the buffers
are written. The words taken stand in the command. [DESIGN CHOICE, log entry 31] -/
def takeWord (e : Block) (id : Nat) (w : Work) : Work :=
  match w.cmd id with
  | none => w
  | some c =>
    let s := logSlice c
    match (harvestWords e c w)[c.aux.length / 8]? with
    | some (host, k) =>
      let v := ((w.slice s).log host).word k
      mapAmo e c host k 0 0 ((w.updCmd id fun d => { d with auxNat := 1, aux := d.aux ++ leBytes 8 v }).updSlice s fun x =>
        x.updLog host fun y => y.clearWord k)
    | none =>
      let n := if logHost c then hostMapBytes (w.slice s).hostLog.len else 0
      let w := w.updCmd id fun d => { d with auxNat := 2, aux := [] }
      let w := if logHost c then writeHarvest e c true (fieldAt c.bytes 32 8) (c.aux.take n) w else w
      if logDev c then writeHarvest e c false (fieldAt c.bytes 40 8) (c.aux.drop n) w else w

/-- A word of a map has been marked or taken (R602). -/
def mapWordAnswered (e : Block) (id : Nat) (st : Status) (data : List Byte) (w : Work) : Work :=
  match w.cmd id with
  | none => w
  | some c =>
    if c.endStatus.isSome then w
    else if st ≠ St.ok then faultCmd e id st 0 w
    else if c.auxNat = 1 then
      let n := c.aux.length - 8
      let v := fieldAt c.aux n 8 ||| fieldAt data 0 8
      takeWord e id (w.updCmd id fun d => { d with aux := c.aux.take n ++ leBytes 8 v })
    else
      let w := w.updCmd id fun d => { d with writesLeft := d.writesLeft - 1 }
      if c.writesLeft ≤ 1 then takeWord e id w else w

/-- HARVEST (R602). [DESIGN CHOICE, log entry 31] -/
def logHarvest (e : Block) (c : Cmd) (w : Work) : Work :=
  if logOp c != 2 then w
  else if !logsAre true c w then endCmd c.id St.stateReject w
  else
    let w := w.updCmd c.id fun d => { d with phase := .running, auxNat := 0, aux := [] }
    let w := if logHost c then flushLog e c true w else w
    let w := if logDev c then flushLog e c false w else w
    if ((w.cmd c.id).map Cmd.writesLeft).getD 0 = 0 then takeWord e c.id w else w

/-- DISABLE (R603). -/
def logDisable (c : Cmd) (w : Work) : Work :=
  if logOp c != 3 then w
  else if !logsAre true c w then endCmd c.id St.stateReject w
  else
    endCmd c.id St.ok (w.updSlice (logSlice c) fun x => { x with
      hostLog := if logHost c then { x.hostLog with on := false } else x.hostLog,
      devLog := if logDev c then { x.devLog with on := false } else x.devLog })

/-- The answer to a write of a save, of a harvest or of a map's zeroing (R598, R602, R612). -/
def imageWriteAnswered (e : Block) (id : Nat) (st : Status) (w : Work) : Work :=
  if st ≠ St.ok then faultCmd e id st 0 w
  else
    let w := w.updCmd id fun d => { d with writesLeft := d.writesLeft - 1 }
    match w.cmd id with
    | none => w
    | some c =>
      if c.writesLeft != 0 || c.endStatus.isSome then w
      else if c.op == some .dirtyLog then
        endCmd id St.ok (if logOp c = 1 && (w.slice (logSlice c)).state != .off then logsOn c w else w)
      else if c.auxNat = 2 then endCmd id St.imageSize w
      else if c.auxNat = 1 then
        let w := w.updCmd id fun d => { d with auxNat := 3, writesLeft := 1 }
        writeFor e none false (ptrAddr (fieldAt c.bytes 32 8) + 12) c.aux (.imageWrite id) w
      else endCmd id St.ok w

/-! ### Restoring (R613, R614) -/

/-- Whether a header's fixed fields are right and its length can be one (R610, R613). -/
def imageHeadOk (b : List Byte) : Bool :=
  fieldAt b 0 4 == 0x4D494C53 && fieldAt b 4 2 == 0x0001 && fieldAt b 6 2 == 0x0203 && fieldAt b 8 2 == 0x0104 &&
  256 ≤ fieldAt b 16 8 && fieldAt b 16 8 % 64 == 0

/-- The streams of an image. -/
def imageStreams (mv : Nat → Nat) (b : List Byte) : List StreamIm :=
  let n := sectionCount b 6
  let x := sectionOf b 6 (sectionSpan b 6)
  streamsOf mv n x (x.drop (64 * n + 64))

/-- The graphs of an image. -/
def imageGraphs (b : List Byte) : List Resident := graphsOf (sectionCount b 7) (sectionOf b 7 (sectionSpan b 7))

/-- Whether a slice's PASID is bound to no other slice that is not OFF (R117). -/
def pasidAlone (w : Work) (s : Nat) : Bool :=
  w.slices.all fun p => p.1 == s || p.2.state == .off || p.2.pasid != (w.slice s).pasid

/-- Free stream descriptors (R242). -/
def freeDescs (w : Work) : Nat := (streamsUp w).streamFree.length

/-- The checks of R613 on a whole image against slice `s`. [DEDUCED, log entry 30] -/
def imageOk (e : Block) (s : Nat) (b : List Byte) (w : Work) : Bool :=
  let d := e.dct
  let streams := imageStreams id b
  imageHeadOk b && b.length == fieldAt b 16 8 &&
  fieldAt b 12 4 == (crc32 (setCrc b [0, 0, 0, 0])).toNat &&
  fieldAt b 32 1 ≤ (w.slice s).ctxLog2.toNat && fieldAt b 34 2 ≤ d.fenceCount s && fieldAt b 36 2 ≤ d.semCount s &&
  fieldAt b 38 2 ≤ d.watchCount s && fieldAt b 40 4 == d.objFirst s && fieldAt b 44 4 == d.objCount s &&
  streams.length ≤ d.streamQuota s && streams.length ≤ freeDescs w &&
  ((imageGraphs b).map fun r => r.image.length).sum ≤ d.graphStoreKib s * 1024 &&
  fieldAt b 56 8 ≤ d.devSize s && d.devBase s % 0x200000 == 0 && pasidAlone w s

/-- The move of a local device address by D (R614 step 1). -/
def moveBy (e : Block) (s : Nat) (b : List Byte) (a : Nat) : Nat := a + e.dct.devBase s - fieldAt b 48 8

/-- The objects of an image, by index, with the places of their OBJ_FREEs. -/
def imageObjs (e : Block) (s : Nat) (b : List Byte) : List (Nat × Obj × Nat) :=
  let n := fieldAt b 44 4
  let x := sectionOf b 5 (96 * n)
  (List.range n).map fun i =>
    (e.dct.objFirst s + i, objOfImage s (moveBy e s b) (bytesAt x (32 * i) 32 ++ bytesAt x (32 * n + 64 * i) 64))

/-- The free indices of an image: INDEX 0 belongs to no slice, so the padding names none. -/
def imageFree (b : List Byte) : List Nat :=
  let n := fieldAt b 44 4
  let x := (sectionOf b 5 (sectionSpan b 5)).drop (96 * n)
  ((List.range (x.length / 4)).map fun i => fieldAt x (4 * i) 4).filter fun i => i != 0

/-- The objects of an image with their streams' positions, pages and new descriptors. -/
def restoredObjs (e : Block) (s : Nat) (b : List Byte) (descs : List Nat) : List (Nat × Obj × Nat) :=
  let streams := (imageStreams (moveBy e s b) b).zipIdx
  (imageObjs e s b).map fun p =>
    match streams.find? fun x => x.1.index == p.1 with
    | some x => (p.1, { p.2.1 with tok := x.1.tok, pages := x.1.pages, desc := descs.getD x.2 0 }, p.2.2)
    | none => p

/-- APPLIED as an image holds it (R637). -/
def imageApplied (b : List Byte) : Nat := 
  fieldAt (sectionOf b 6 (sectionSpan b 6)) (64 * sectionCount b 6) 4

/-- A write of a restore, with the target slice's PASID for host memory (R614). -/
def restoreWrite (e : Block) (id s : Nat) (dev : Bool) (a : Nat) (data : List Byte) (w : Work) : Work :=
  let r := newReq .write dev (spaceAddr e dev a) data.length data (.restoreWrite id)
  issueRaw e (some s) r (w.updCmd id fun d => { d with writesLeft := d.writesLeft + 1 })

/-- The whole mirror of a restored slice (R614 step 3). -/
def mirrorImage (objs : List (Nat × Obj × Nat)) (applied : Nat) : List Byte :=
  (List.range 16384).flatMap fun i =>
    match objs.find? fun p => p.2.1.stream && p.2.1.desc == i with
    | some p => mirrorBytes p.2.1.tok p.2.1.tok applied
    | none => mirrorBytes 0xFFFFFFFF 0xFFFFFFFF applied

/-- The descriptors that a restore has reserved: they stand after the image in the command's bytes. -/
def reservedDescs (c : Cmd) : List Nat :=
  let n := fieldAt c.aux 16 8
  (List.range ((c.aux.length - n) / 2)).map fun i => fieldAt c.aux (n + 2 * i) 2

/-- The image that a restore holds. -/
def heldImageBytes (c : Cmd) : List Byte := c.aux.take (fieldAt c.aux 16 8)

/-- Install a queue of an image. -/
def installQueue (e : Block) (s : Nat) (b q : List Byte) (w : Work) : Work :=
  let x := queueOfImage (moveBy e s b) q
  { w with queues := tblSet {} w.queues (s * 64 + x.1 % 64) x.2 }

/-- The queues of an image find their places in the cache or in the queue table (R137). -/
def placeQueues (e : Block) (s : Nat) (w : Work) : Work :=
  (w.queues.filter fun p => sliceOf p.1 == some s).foldl (fun w p => placeQueue e p.1 w) w

/-- Install a held record of an image, in the order of the overflow. -/
def installHeld (s : Nat) (b : List Byte) (w : Work) : Work :=
  let r := heldOfImage b
  { w with nextOrder := w.nextOrder + 1 }.updQueue (s * 64 + r.1.queue % 64) fun q =>
    if r.2 then { q with kept := q.kept ++ [r.1] } else { q with held := q.held ++ [{ r.1 with place := w.nextOrder }] }

/-- The records of an image: those of the overflow, then those kept beside it. -/
def imageHeld (b : List Byte) : List (List Byte) :=
  let n := sectionSpan b 1 / 32
  (chunks 32 (sectionOf b 1 (32 * n)) n).zipIdx.filterMap fun p =>
    if p.2 < sectionCount b 1 ∨ (heldOfImage p.1).2 then some p.1 else none

/-- Install the suspended commands of an image, with their runs and references. -/
def installCmds (s : Nat) (b : List Byte) (w : Work) : Work :=
  let base := w.nextId
  let (ims, rest) := cmdsOf s (sectionCount b 8) base (sectionOf b 8 (sectionSpan b 8))
  let o := w.nextOrder
  let cs := ims.map fun i => { i.cmd with
    parent := i.parent.map fun k => base + k, order := o + (i.cmd.id - base), relOrder := o + i.cmd.relOrder }
  let w := { w with
    cmds := w.cmds ++ cs, runs := w.runs ++ runsOf ims rest, nextId := base + cs.length,
    nextOrder := o + cs.length + 1 }
  cs.foldl (fun w c => takeRefs c.refs w) w

/-- Put a restored slice in place (R614 steps 2 to 4): nothing of it is resident, and it is FROZEN and at rest. -/
def install (e : Block) (s : Nat) (b : List Byte) (descs : List Nat) (w : Work) : Work :=
  let base := w.nextId
  let objs := restoredObjs e s b descs
  let sec (k n : Nat) : List (List Byte) := chunks n (sectionOf b k (n * sectionCount b k)) (sectionCount b k)
  let w := sliceOn e s w
  let w := (sec 0 128).foldl (fun w q => installQueue e s b q w) w
  let w := placeQueues e s ((imageHeld b).foldl (fun w r => installHeld s r w) w)
  let fences := (sec 2 32).zipIdx.foldl (fun t p => tblSet {} t p.2 (fenceOfImage p.1)) ([] : Tbl Fence)
  let sems := (sec 3 160).zipIdx.foldl (fun t p => tblSet {} t p.2 (semOfImage p.1)) ([] : Tbl Sem)
  let ws := sec 4 64
  let killed := (w.queues.filter fun p => sliceOf p.1 == some s && (p.2.state == .halted || p.2.state == .draining)).map fun p =>
    p.2.desc.context
  let w := w.updSlice s fun x => { x with
    state := .frozen, quiescent := true, fences := fences, sems := sems,
    watches := (ws.filter fun x => !isRemoteImage x).map watchOfImage, remoteWaits := (ws.filter isRemoteImage).map remoteOfImage,
    freeIdx := imageFree b, graphs := imageGraphs b, applied := BitVec.ofNat 32 (imageApplied b) }
  let w := killed.foldl (fun w c => w.updCtx s c fun y => { y with killed := true }) w
  let w := objs.foldl (fun w p =>
    let o := if p.2.2 = 0 then p.2.1 else { p.2.1 with freer := some (base + p.2.2 - 1) }
    let w := w.updObj p.1 fun _ => o
    if o.live || o.pend then chargeMem s o.ctx (objCharge o : Int) w else w) w
  installCmds s b w

/-- Finish a restore: every write has been answered. [DEDUCED, log entry 30] -/
def restoreDone (e : Block) (c : Cmd) (w : Work) : Work :=
  let s := bodySlice c.bytes
  if (w.slice s).state == .off && pasidAlone w s then
    endCmd c.id St.ok (install e s (heldImageBytes c) (reservedDescs c) w)
  else endCmd c.id St.stateReject { w with streamFree := w.streamFree ++ reservedDescs c }

/-- Begin the writes of a restore that has passed R613 (R614 steps 1 and 3). -/
def restoreBegin (e : Block) (c : Cmd) (s : Nat) (b : List Byte) (w : Work) : Work :=
  let w := streamsUp w
  let n := (imageStreams id b).length
  let descs := w.streamFree.take n
  let w := { w with streamFree := w.streamFree.drop n }
  let w := w.updCmd c.id fun d => { d with aux := b ++ descs.flatMap fun i => leBytes 2 i, auxNat := 2, writesLeft := 0 }
  let objs := restoredObjs e s b descs
  let w := (objs.filter fun p => p.2.1.stream).foldl (fun w p =>
    let o := p.2.1
    let w := restoreWrite e c.id s true o.base (headerBytes e p.1 o) w
    if o.pages.isEmpty then w else restoreWrite e c.id s true (o.base + 64) (pageBytes o.pages) w) w
  let w := if e.dct.posMirror s = 0 then w
    else restoreWrite e c.id s false (e.dct.posMirror s) (mirrorImage objs (imageApplied b)) w
  match w.cmd c.id with
  | some c => if c.writesLeft = 0 then restoreDone e c w else w
  | none => w

/-- SLICE_RESTORE (R613): the header is read first. -/
def restoreOp (e : Block) (c : Cmd) (w : Work) : Work :=
  if (w.slice (bodySlice c.bytes)).state != .off then endCmd c.id St.stateReject w
  else
    readFor e none false (ptrAddr (fieldAt c.bytes 32 8)) 256 (.imageRead c.id)
      (w.updCmd c.id fun d => { d with phase := .running, auxNat := 0 })

/-- The answer to a read of an image (R613). -/
def imageReadAnswered (e : Block) (id : Nat) (st : Status) (data : List Byte) (w : Work) : Work :=
  match w.cmd id with
  | none => w
  | some c =>
    let s := bodySlice c.bytes
    if st ≠ St.ok then faultCmd e id st 0 w
    else if c.endStatus.isSome then w
    else if c.auxNat = 0 then
      if imageHeadOk data then
        readFor e none false (ptrAddr (fieldAt c.bytes 32 8)) (fieldAt data 16 8) (.imageRead id)
          (w.updCmd id fun d => { d with auxNat := 1 })
      else endCmd id St.imageReject w
    else if imageOk e s data w then restoreBegin e c s data w
    else endCmd id St.imageReject w

/-- The answer to a write of a restore (R614): a failed one ends it with nothing installed. -/
def restoreWriteAnswered (e : Block) (id : Nat) (st : Status) (w : Work) : Work :=
  match w.cmd id with
  | none => w
  | some c =>
    let giveBack (w : Work) : Work :=
      { w with streamFree := w.streamFree ++ reservedDescs c }.updCmd id fun d => { d with auxNat := 3 }
    if c.endStatus.isSome then if c.auxNat = 2 then giveBack w else w
    else if st ≠ St.ok then (endCmd id St.dmaFault (giveBack w)).updCmd id fun d => { d with phase := .stopping }
    else
      let w := w.updCmd id fun d => { d with writesLeft := d.writesLeft - 1 }
      if c.writesLeft ≤ 1 then restoreDone e c w else w

/-! ### The commands -/

/-- SLICE_FREEZE. -/
def execSliceFreeze (id : Nat) (s : State) : Host.Outcome State Fault Refusal :=
  .next (s.onWork fun _ w => runCmd .sliceFreeze id freezeOp w)

/-- SLICE_RESUME. -/
def execSliceResume (id : Nat) (s : State) : Host.Outcome State Fault Refusal :=
  .next (s.onWork fun e w => runCmd .sliceResume id (resumeOp e) w)

/-- SLICE_SAVE. -/
def execSliceSave (id : Nat) (s : State) : Host.Outcome State Fault Refusal :=
  .next (s.onWork fun _ w => runCmd .sliceSave id saveOp w)

/-- SLICE_RESTORE. -/
def execSliceRestore (id : Nat) (s : State) : Host.Outcome State Fault Refusal :=
  .next (s.onWork fun e w => runCmd .sliceRestore id (restoreOp e) w)

/-- DIRTY_LOG ENABLE. -/
def execDirtyLogEnable (id : Nat) (s : State) : Host.Outcome State Fault Refusal :=
  .next (s.onWork fun e w => runCmd .dirtyLog id (logEnable e) w)

/-- DIRTY_LOG HARVEST. -/
def execDirtyLogHarvest (id : Nat) (s : State) : Host.Outcome State Fault Refusal :=
  .next (s.onWork fun e w => runCmd .dirtyLog id (logHarvest e) w)

/-- DIRTY_LOG DISABLE. -/
def execDirtyLogDisable (id : Nat) (s : State) : Host.Outcome State Fault Refusal :=
  .next (s.onWork fun _ w => runCmd .dirtyLog id logDisable w)

end Sys2Proof.Machine
end

