-- ==== Sys2Proof/Machine/Memory.lean ====
section
/-! DEFINITION. The memory request port and what the function port says to it: responses (R76, R78), page requests (R67, R77),
FN_BME (R64) and pending messages (R62). -/

namespace Sys2Proof.Machine

/-! ### Responses acted on (R76) -/

/-- The answer waits for the row that reads it. -/
def keepAnswer (r : Req) (st : Status) (data : List Byte) (w : Work) : Work :=
  w.updReq r.tag fun x => { x with answer := some (st, data) }

/-- The write of a watch record is answered (R327, R328). -/
def watchAnswered (s : Nat) (irq : Bool) (st : Status) (w : Work) : Work :=
  if st = St.ok then (if irq then w.raise (vecWatch s) else w) else dropWatchRecord s irq w

/-- A lane's read is answered (R383, R390, R557). -/
def laneAnswered (e : Block) (r : Req) (l : Nat) (st : Status) (data : List Byte) (w : Work) : Work :=
  if st ≠ St.ok then laneFault e l st (w.dropReq r.tag)
  else if laneHolds w l then keepAnswer r st data w
  else laneProceeds e l data (w.dropReq r.tag)

/-- Act on an answer by what its request was for. Answers that a row of the table reads wait for that row; a context record
whose write fails at an eviction or at a 256-beat edge, of which the spec says nothing, is dropped.
[DESIGN CHOICE, log entry 26] -/
def actOn (e : Block) (r : Req) (st : Status) (data : List Byte) (w : Work) : Work :=
  let v := w.dropReq r.tag
  match r.why with
  | .sqRead _ _ _ => keepAnswer r st data w
  | .record _ _ => keepAnswer r st data w
  | .slotSave _ => keepAnswer r st data w
  | .slotRecord _ => keepAnswer r st data w
  | .slotArea _ => keepAnswer r st data w
  | .objEntry _ => keepAnswer r st data w
  | .lane l => laneAnswered e r l st data w
  | .adminDesc => adminDescAnswered st data v
  | .queueDesc id => descAnswered e id st data v
  | .statusBlock qk f => statusAnswered e qk f st v
  | .packet id => packetAnswered e id st data v
  | .patchList id => patchesAnswered e id st data v
  | .advanceList id => listAnswered e id st data v
  | .chainNext id => chainAnswered e id st data v
  | .chainSkip id => chainSkipped e id st data v
  | .createWrite id => createAnswered e id st v
  | .mapWrite id => plainWriteAnswered e id st v
  | .mirrorWrite id => mirrorAnswered e id st v
  | .header i id => headerAnswered e i id st v
  | .mirrorFree => v
  | .queryWrite id => plainWriteAnswered e id st v
  | .queryRead id => queryReadAnswered e id st data v
  | .watchRecord s irq => watchAnswered s irq st v
  | .ctxRecord _ _ => v
  | .ctxFlags s c => flagsRead e s c st data v
  | .commit l _ _ _ => commitAnswered e l st v
  | .copyRead id => copyReadAnswered e r.tag id st (keepAnswer r st data w)
  | .copyWrite id _ => copyWriteAnswered e id st v
  | .program pid => programAnswered e pid (r.op == .write) st data v
  | .imageWrite id => imageWriteAnswered e id st v
  | .mapWord id => mapWordAnswered e id st data v
  | .imageRead id => imageReadAnswered e id st data v
  | .restoreWrite id => restoreWriteAnswered e id st v
  | .capture => captureAnswered e r.len st v
  | .queueLoad qk => queueLoaded qk st v
  | .queueStore _ => v
  | .tableFill => v
  | .ctxDict _ => v
  | .bootRead _ => v

/-- A request has ended with a status: what was for the dictionary or the boot ROM goes there, what is dead is discarded (R582). -/
def endReq (r : Req) (st : Status) (data : List Byte) (b : Block) : Block :=
  if r.dead then b.updWork fun w => w.dropReq r.tag
  else match r.why with
    | .ctxDict c => ctxDictAnswered c st data (b.updWork fun w => w.dropReq r.tag)
    | .bootRead rest => bootAnswered r rest st data (b.updWork fun w => w.dropReq r.tag)
    | _ => b.updWork (actOn b r st data)

/-! ### Page requests (R67, R77) -/

/-- The lowest group index that is not in use. -/
def freeGroup (w : Work) : Option Nat := (List.range 512).find? fun g => !w.fab.groups.any fun x => x.group == g

/-- Send the page request of a request that waits for one (R77). -/
def askPage (r : Req) (p : Part) (w : Work) : Work :=
  match freeGroup w, r.slice with
  | some g, some s =>
    if w.fab.bme && p.paging && w.fab.unsent p && (w.slice s).pasidOpen then
      (w.updFab fun f => { f with groups := f.groups ++ [{ group := g, tag := p.tag, slice := s, burnt := false }] }).emit
        (.pageReq g r.pasid (p.addr.extractLsb' 12 52) r.writes)
    else w
  | _, _ => w

/-- Send every page request that waits and can go. [DESIGN CHOICE, log entry 49] -/
def askPages (w : Work) : Work :=
  w.fab.reqs.foldl (fun w r => (r.parts.filter fun p => p.paging).foldl (fun w p => askPage r p w) w) w

/-- Whether a request was issued to host space with a slice's PASID (R76). -/
def Req.ofSlice (r : Req) : Bool := r.slice.isSome && !r.dev

/-- Whether a response to a request is due: it has been issued, and is not yet answered. -/
def Part.open (p : Part) : Bool := p.answer.isNone && !p.held && !p.paging

/-- The block's reading of a response code (R76). -/
def codeStatus (r : Req) (code : Nat) : Status :=
  if code = 0 then St.ok else if code = 5 ∧ r.ofSlice then St.pasidRevoked else St.dmaFault

/-- The bytes that a response's 256-byte window gives (R70): those that a read covers, and the old value of an AMO (R75).
[DESIGN CHOICE, log entry 9] -/
def responseData (r : Req) (p : Part) (data : List Byte) : List Byte :=
  match r.op with
  | .read => bytesAt data p.lane p.len
  | .amo => bytesAt data p.lane 8
  | _ => []

/-- A request is answered; a transfer whose last answer this is ends. -/
def endPart (tag : Nat) (st : Status) (data : List Byte) (b : Block) : Block :=
  let b := b.updWork fun w => w.updPart tag fun p => { p with held := false, paging := false, answer := some (st, data) }
  match b.work.part tag with
  | none => b
  | some (r, p) =>
    let b := b.updWork (partWritten r p st)
    match r.outcome with
    | some o => endReq r o.1 o.2 b
    | none => b

/-- A response arrives (R76 to R78, R591): the answer to a request that has timed out frees its tag and no more. -/
def takeResponse (tag code : Nat) (data : List Byte) (b : Block) : Block :=
  match b.work.part tag with
  | none => b.updWork fun w => w.updFab fun f => { f with burntTags := f.burntTags.filter fun t => !(t == tag) }
  | some (r, p) =>
    if p.answer.isSome then b.updWork fun w => w.updFab fun f => { f with burntTags := f.burntTags.filter fun t => !(t == tag) }
    else if !p.open then b
    else if code = 1 && r.ofSlice && !p.retried && !r.dead && (b.work.slice (r.slice.getD 0)).pasidOpen && Config.priEnabled then
      b.updWork fun w => askPages (w.updPart tag fun x => { x with paging := true })
    else
      let b := if code = 5 && r.ofSlice then b.updWork (revokeSlice b (r.slice.getD 0)) else b
      endPart tag (codeStatus r code) (responseData r p data) b

/-- MEMORY_RESPONSE. [DESIGN CHOICE, log entry 3; DESIGN CHOICE, log entry 8] -/
def execMemoryResponse (tag : Nat) (code : BitVec 3) (data : List Byte) (s : State) : Host.Outcome State Fault Refusal :=
  .next (s.onBoxes (takeResponse tag code.toNat data))

/-- No response in time (R78): the tag stays unused until the late response. -/
def responseLate (tag : Nat) (b : Block) : Block :=
  match b.work.part tag with
  | none => b
  | some (_, p) =>
    if !p.open then b
    else endPart tag St.dmaFault [] (b.updWork fun w => w.updFab fun f => { f with burntTags := f.burntTags ++ [tag] })

/-- MEMORY_RESPONSE_TIMEOUT. -/
def execMemoryResponseTimeout (tag : Nat) (s : State) : Host.Outcome State Fault Refusal := .next (s.onBoxes (responseLate tag))

/-- Issue a request again after its page request (R77): not where the slice's PASID has been revoked (R592).
[DESIGN CHOICE, log entry 49] -/
def retryPart (r : Req) (p : Part) (b : Block) : Block :=
  match r.slice with
  | some s =>
    if (b.work.slice s).pasidOpen then
      let p := { p with paging := false, retried := true, held := !b.work.fab.bme }
      b.updWork fun w => (markPart b r p (w.updPart p.tag fun _ => p)).updFab fun f => f.sendPart r p
    else endPart p.tag St.pasidRevoked [] b
  | none => b

/-- A page request group ends (R67, R77): the request is retried once, or fails. -/
def pageAnswered (tag : Nat) (ok : Bool) (b : Block) : Block :=
  match b.work.part tag with
  | none => b
  | some (r, p) =>
    if !p.paging then b
    else if ok then retryPart r p b
    else endPart tag St.dmaFault [] b

/-- A response to a page request group arrives: a late one only frees its index. -/
def groupAnswered (group : Nat) (ok : Bool) (b : Block) : Block :=
  match b.work.fab.groups.find? fun g => g.group == group with
  | none => b
  | some g =>
    let b := b.updWork fun w => w.updFab fun f => { f with groups := f.groups.filter fun x => !(x.group == group) }
    (if g.burnt then b else pageAnswered g.tag ok b).updWork askPages

/-- PAGE_REQUEST_RESPONSE. -/
def execPageRequestResponse (group : Nat) (code : BitVec 4) (s : State) : Host.Outcome State Fault Refusal :=
  .next (s.onBoxes (groupAnswered group (code == 0)))

/-- No response to a page request group in time (R67). -/
def groupLate (group : Nat) (b : Block) : Block :=
  match b.work.fab.groups.find? fun g => g.group == group && !g.burnt with
  | none => b
  | some g =>
    pageAnswered g.tag false (b.updWork fun w => w.updFab fun f => { f with
      groups := f.groups.map fun x => if x.group = group then { x with burnt := true } else x })

/-- PRI_TIMEOUT. -/
def execPriTimeout (group : Nat) (s : State) : Host.Outcome State Fault Refusal := .next (s.onBoxes (groupLate group))

/-! ### The pins of the function port (R62, R64) -/

/-- The requests that FN_BME held, as they go out. -/
def Fabric.heldParts (f : Fabric) : List (Req × Part) :=
  f.reqs.flatMap fun r => (r.parts.filter fun p => p.held).map fun p => (r, { p with held := false })

/-- The requests that FN_BME held go out, in the order of their transfers (R64). -/
def Fabric.unhold (f : Fabric) : Fabric :=
  f.heldParts.foldl (fun f x => f.sendPart x.1 x.2)
    { f with reqs := f.reqs.map fun r => { r with parts := r.parts.map fun p => { p with held := false } } }

/-- FN_BME, FN_MSIX_EN and FN_MSIX_FMASK take values (R62, R64): with FN_BME at 1 held requests go out, marked in their logs (R599).
[DESIGN CHOICE, log entry 49] -/
def setBme (e : Block) (value en fmask : Bool) (w : Work) : Work :=
  let w := if value then w.fab.heldParts.foldl (fun w x => markPart e x.1 x.2 w) w else w
  askPages (w.updFab fun f =>
    let f := { f with bme := value, msixEn := en, msixFmask := fmask }
    if value then f.unhold else f)

/-- FN_BME_CHANGE. -/
def execFnBmeChange (value msixEn msixFmask : Bool) (s : State) : Host.Outcome State Fault Refusal :=
  .next (s.onAon fun b => b.updWork (setBme b value msixEn msixFmask))

/-- MSIX_MESSAGE_SEND. -/
def execMsixMessageSend (vector : Nat) (s : State) : Host.Outcome State Fault Refusal :=
  .next (s.onWork fun _ w => w.updFab fun f => f.release vector)

end Sys2Proof.Machine
end

