-- ==== Sys2Proof/Machine/Regs.lean ====
section
/-! DEFINITION. The function port (R58, R60, R61, R650): what a read of each register of BAR0 and of the doorbell pages of BAR2
returns, what a write of each field does by its access code (R15, R16), and the latches of R35. -/

namespace Sys2Proof.Machine

/-! ### Reads of BAR0 -/

/-- ADM_BEAT_CFG (R34). -/
def beatCfg (b : Block) : Nat := 2 ^ 15 * bit b.aligned + 2 ^ 8 * b.clk.src.toNat + b.clk.quarters.toNat

/-- The beat registers (R34). -/
def beatReg (b : Block) (o : Nat) : Nat :=
  if o = 0x200 then b.clk.beat.toNat
  else if o = 0x208 then beatCfg b
  else if o = 0x210 then b.clk.phase.toNat
  else if o = 0x218 then timeNs b
  else 0

/-- The start registers (R662). -/
def startReg (b : Block) (o : Nat) : Nat :=
  if o = 0x100 then (startStatus b.st).toNat
  else if o = 0x108 then (startTime b).toNat
  else if o = 0x110 then (bistWord b.st).toNat
  else 0

/-- The admin queue's registers (R214, R706). -/
def adminReg (w : Work) (o : Nat) : Nat :=
  let q := w.queue adminKey
  if o = 0x300 then w.admin.descAddr.toNat
  else if o = 0x308 then bit w.admin.enable
  else if o = 0x320 then 2 ^ 32 * q.head.toNat + q.fetch.toNat
  else if o = 0x328 then bit w.admin.pend
  else if o = 0x330 then 2 ^ 48 * w.admin.lastStatus.toNat + w.admin.causes.toNat
  else 0

/-- STATE of ADM_JNR_STATE (R446). -/
def JnrSt.code : JnrSt → Nat
  | .reset => 0
  | .checking => 1
  | .recoveryWait => 2
  | .loading => 3
  | .starting => 4
  | .running => 5

/-- The joiner registers (R446). -/
def jnrReg (w : Work) (o : Nat) : Nat :=
  if o = 0x408 then 2 ^ 32 * (if jnrRuns w then w.jnr.fwVersion.toNat else 0) + (coresUp w).toNat
  else if o = 0x410 then 2 ^ 16 * w.jnr.lastCode.toNat + w.jnr.state.code
  else 0

/-- STATE of ADM_SLOT_STATE (R296). -/
def SlotSt.code : SlotSt → Nat
  | .free => 0
  | .runnable => 1
  | .blocked => 2
  | .idle => 3
  | .saving => 4
  | .loading => 5

/-- ADM_SLOT_STATE (R296): a FREE slot shows no context. [DESIGN CHOICE, log entry 17] -/
def slotStateWord (w : Work) (k : Nat) : Nat :=
  let x := w.slot k
  let lent : Bool := x.state != .free && w.lends.any fun l => l.live && l.slice == x.slice && l.ctx == x.ctx
  2 ^ 61 * x.state.code + 2 ^ 55 * x.slice + 2 ^ 43 * x.ctx + 2 ^ 40 * x.priority + 2 ^ 39 * bit lent + x.beats.toNat

/-- The scheduler's registers (R296). -/
def schedReg (w : Work) (o : Nat) : Nat :=
  if 0x800 ≤ o ∧ o < 0x880 then portStateWord w ((o - 0x800) / 8)
  else if 0x900 ≤ o ∧ o < 0xB00 then slotStateWord w ((o - 0x900) / 8)
  else if 0xC00 ≤ o ∧ o < 0xE00 then (BitVec.ofInt 64 (w.slice ((o - 0xC00) / 8)).deficit).toNat
  else 0

/-- The slice registers (R114). -/
def sliceReg (w : Work) (o : Nat) : Nat :=
  let x := w.slice ((o - 0x10000) / 0x100)
  let r := o % 0x100
  if r = 0 then x.pasid.toNat
  else if r = 8 then 4096 * x.ctxBase.toNat
  else if r = 0x10 then 4096 * x.saveBase.toNat
  else if r = 0x18 then x.ctxLog2.toNat
  else if r = 0x28 then 2 ^ 16 * x.state.code + x.ctlStatus.toNat
  else 0

/-- The sync registers (R343): an operation is over within its command, so BUSY reads 0.
[DESIGN CHOICE, log entry 17] -/
def syncReg (w : Work) (o : Nat) : Nat :=
  let x := w.sync
  if o = 0x20000 then x.opValue.toNat
  else if o = 0x20010 then 2 ^ 16 * x.errStatus.toNat + x.opStatus.toNat
  else if o = 0x20018 then x.rdA.toNat
  else if o = 0x20020 then x.rdB.toNat
  else if o = 0x20028 then x.dropped.toNat
  else if 0x21000 ≤ o ∧ o < 0x21200 then (w.slice ((o - 0x21000) / 8)).stale.toNat
  else if 0x21200 ≤ o ∧ o < 0x21400 then (w.slice ((o - 0x21200) / 8)).cycleMap.toNat
  else 0

/-- PLN_KILN (R415). -/
def kilnWord (w : Work) (p : Nat) : Nat :=
  let staging := ((tilesOn w p).filter fun t => t.state == .staging).length
  2 ^ 56 * (w.port p).kilnMib + 2 ^ 32 * (4 * usedPages w p) + 2 ^ 8 * min 255 staging + min 255 (sharedCopies w p).length

/-- The Planer's registers (R415). -/
def planerReg (w : Work) (o : Nat) : Nat :=
  if 0x30000 ≤ o ∧ o < 0x30080 then kilnWord w ((o - 0x30000) / 8)
  else if o = 0x30200 then 2 ^ 8 * w.pln.tables.length + (w.pln.lanes.filter fun p => p.2.isSome).length
  else if o = 0x30208 then 2 ^ 32 * w.pln.uncorrected.toNat + w.pln.corrected.toNat
  else if 0x31000 ≤ o ∧ o < 0x31200 then (tblGet 0 (w.port ((o - 0x31000) / 32)).starve ((o - 0x31000) / 8 % 4)).toNat
  else 0

/-- STATE of TNL_STATUS (R485). -/
def LinkSt.code : LinkSt → Nat
  | .disabled => 0
  | .training => 1
  | .probation => 2
  | .up => 3
  | .lost => 4
  | .sleep => 5
  | .miswired => 6

/-- The registers of a Tenon port (R513). -/
def linkPortReg (b : Block) (p r : Nat) : Nat :=
  let x := b.lport p
  if r = 8 then
    2 ^ 48 * x.lastCause.toNat + 2 ^ 40 * x.flaps.toNat + 2 ^ 32 * x.cleanBeats.toNat + 2 ^ 18 * x.nbrChip.toNat +
      2 ^ 15 * x.nbrPort.toNat + 2 ^ 14 * bit x.nbrValid + 2 ^ 8 * x.subCause.toNat + x.state.code
  else if r = 0x10 then 2 ^ 32 * x.spread.toNat + x.hop.toNat
  else if r = 0x18 then
    2 ^ 48 * x.retries.toNat + 2 ^ 32 * x.crcErrors.toNat + 2 ^ 16 * x.naks.toNat + (tblGet 0 b.work.msgs.drops p).toNat
  else 0

/-- FRAME_STATE (R556). -/
def FrameSt.code : FrameSt → Nat
  | .standalone => 0
  | .listening => 1
  | .following => 2
  | .member => 3
  | .manager => 4
  | .minority => 5
  | .excluded => 6
  | .invalid => 7

/-- TNL_FRAME (R556). -/
def frameWord (b : Block) : Nat :=
  let broken := (b.frm.barriers.filter fun p => p.2.state == .broken).length
  2 ^ 48 * b.frm.lastCause.toNat + 2 ^ 32 * b.frm.epoch.toNat + 2 ^ 26 * b.frm.mgr.toNat + 2 ^ 20 * (if b.dct.chipNum < 64 then b.dct.chipNum else 0) +
    2 ^ 12 * b.frm.state.code + 2 ^ 11 * bit (settled b) + 2 ^ 10 * bit b.frm.mgrLost + min 255 broken

/-- The link and frame registers (R513, R556). -/
def linkReg (b : Block) (o : Nat) : Nat :=
  if o < 0x50600 then linkPortReg b ((o - 0x50000) / 0x100) (o % 0x100)
  else if o = 0x50800 then
    2 ^ 16 * b.lnk.lastErr.toNat + 2 ^ 8 * b.lnk.missed.toNat + 2 ^ 4 * b.lnk.depth.toNat +
      (if isWorker b then parentPort b else none).getD 0xF
  else if o = 0x50808 then b.work.msgs.rxDrop.toNat
  else if o = 0x50900 then frameWord b
  else if o = 0x50908 then b.frm.admitted.toNat
  else if o = 0x50910 then b.frm.excl.toNat
  else if o = 0x50918 then ((List.range 64).foldl (fun (m : BitVec 64) c => if isPending b c then setBit m c else m) 0).toNat
  else if o = 0x50920 then
    2 ^ 48 * b.frm.breakStatus.toNat + 2 ^ 42 * b.frm.breakSrc.toNat + 2 ^ 34 * b.frm.breakBarrier.toNat +
      2 ^ 16 * b.frm.diverged.toNat + b.frm.arriveDrops.toNat
  else if 0x51000 ≤ o ∧ o < 0x51800 then (tblGet {} b.frm.barriers ((o - 0x51000) / 8)).last.toNat
  else 0

/-- The fault registers (R595). [DESIGN CHOICE, log entry 17] -/
def faultReg (w : Work) (o : Nat) : Nat :=
  if o = 0x60000 then 2 ^ 32 * w.cap.taken.toNat + 2 ^ 16 * w.cap.dropped.toNat + bit w.cap.busy.isSome
  else if o = 0x60008 then 2 ^ 32 * w.cap.head.toNat + w.cap.tail.toNat
  else if o = 0x60010 then
    2 ^ 48 * w.cap.lastStatus.toNat + 2 ^ 40 * w.cap.lastDomain.toNat + 2 ^ 32 * w.cap.lastIndex.toNat +
      2 ^ 6 * bit w.pln.engineDomain + 2 ^ 5 * bit w.pln.inReset + 2 ^ 4 * bit (jnrInReset w)
  else if o = 0x60018 then w.fenced.toNat
  else if 0x60100 ≤ o ∧ o < 0x60180 then
    let x := w.port ((o - 0x60100) / 8)
    2 ^ 48 * x.faults.toNat + 2 ^ 32 * x.hung.toNat + 2 ^ 16 * x.soft.toNat + 2 ^ 8 * x.hard.toNat + x.lastRung.toNat
  else if 0x60200 ≤ o ∧ o < 0x60300 then
    let k := (o - 0x60200) / 8
    let x := w.jcore k
    let held := ((corePrograms w k).filter fun p => p.suspect).length
    2 ^ 32 * x.faults.toNat + 2 ^ 16 * x.confirmed.toNat + 2 ^ 8 * x.unattrib.toNat + min 255 held
  else 0

/-- The power registers (R642): outside a transition TARGET reads as STATE. [DESIGN CHOICE, log entry 17] -/
def powerReg (x : Power) (o : Nat) : Nat :=
  if o = 0x70008 then
    2 ^ 48 * x.lastStatus.toNat + 2 ^ 40 * x.wakeSrc.toNat + 2 ^ 10 * bit x.sillDone + 2 ^ 9 * bit x.voltFail +
      2 ^ 8 * bit x.transition.isSome + 2 ^ 4 * (x.transition.getD x.state).code + x.state.code
  else if o = 0x70010 then 2 ^ 16 * x.target0.toNat + x.read0.toNat
  else if o = 0x70018 then 2 ^ 16 * x.target1.toNat + x.read1.toNat
  else 0

/-- The dictionary window (R674). -/
def dictReg (d : Dict) (o : Nat) : Nat :=
  if o = 0x80008 then 2 ^ 32 * d.discarded.toNat + 2 ^ 16 * d.lastStatus.toNat + bit d.busy
  else if 0x81000 ≤ o ∧ o < 0x83000 then leNat ((List.range 8).map fun i => tblGet 0 d.buf (o - 0x81000 + i))
  else 0

/-- The MSI-X table and its pending bits (R58, R62), in the layout of the PCIe specification.
[PRESUMED, log entry 18] -/
def msixReg (f : Fabric) (o : Nat) : Nat :=
  if 0xF0000 ≤ o ∧ o < 0xF0000 + 16 * 272 then
    let x := tblGet {} f.msix ((o - 0xF0000) / 16)
    if o % 16 = 0 then x.addr.toNat else x.data.toNat + 2 ^ 32 * bit x.masked
  else if 0xF8000 ≤ o ∧ o < 0xF8028 then f.pba.toNat / 2 ^ (8 * (o - 0xF8000)) % 2 ^ 64
  else 0

/-- What a 64-bit read at an aligned offset of BAR0 returns, the mailbox unit apart. Reserved offsets read zero. -/
def bar0Word (b : Block) (o : Nat) : BitVec 64 := BitVec.ofNat 64 (
  if o < 0x200 then startReg b o
  else if o < 0x300 then beatReg b o
  else if o < 0x400 then adminReg b.work o
  else if o < 0x800 then jnrReg b.work o
  else if o < 0x10000 then schedReg b.work o
  else if o < 0x14000 then sliceReg b.work o
  else if o < 0x20000 then 0
  else if o < 0x30000 then syncReg b.work o
  else if o < 0x40000 then planerReg b.work o
  else if o < 0x50000 then 0
  else if o < 0x60000 then linkReg b o
  else if o < 0x70000 then faultReg b.work o
  else if o < 0x80000 then powerReg b.pwr o
  else if o < 0xF0000 then dictReg b.dct o
  else msixReg b.work.fab o)

/-! ### The mailbox unit over the function port (R452, R459 to R461) -/

/-- A read of the mailbox unit by the host: a locked-out identity reads zero and is counted. A read of a lock is `lockRead`'s.
[DEDUCED, log entry 19] -/
def boxRead (o : Nat) (b : Block) : BitVec 64 × Block :=
  if o < 0x41000 then
    let c := (o - 0x40000) / 64
    if endAccepts b 0 c false then (endRead b c false (o % 64), b) else (0, countRefused b)
  else if o = 0x41208 then (b.mbx.refused, b)
  else (0, b)

/-! ### Reads of the doorbell pages (R133) -/

/-- A read of the doorbell page of slice `s`, its mailbox window apart. -/
def pageWord (w : Work) (s o : Nat) : BitVec 64 :=
  let x := w.slice s
  BitVec.ofNat 64 (
    if o < 0x1000 then
      let q := w.queue (qkey s (o / 0x40))
      if o % 0x40 = 0x10 then 2 ^ 32 * q.head.toNat + q.fetch.toNat
      else if o % 0x40 = 0x18 then
        if q.state == .absent then 0
        else 2 ^ 32 * q.cqTail.toNat + 2 ^ 24 * q.dbRefused.toNat + 2 ^ 16 * min 255 q.held.length + 2 ^ 12 * q.state.code +
          (q.fetch - q.head).toNat % 512
      else 0
    else if o = 0x1000 then x.cqPend.toNat
    else if o = 0x1008 then x.errq.toNat
    else if o = 0x1010 then 2 ^ 48 * x.lastStatus.toNat + x.cause.toNat
    else if o = 0x1018 then 2 ^ 16 * x.state.code + x.pasid.toNat % 2 ^ 16
    else 0)

/-- A read of a doorbell page by the guest of its slice. -/
def pageRead (s o : Nat) (b : Block) : BitVec 64 × Block :=
  if 0x8000 ≤ o ∧ o < 0x9000 then
    let c := (o - 0x8000) / 64
    if endAccepts b (0x40 + s) c false then (endRead b c false (o % 64), b) else (0, countRefused b)
  else (pageWord b.work s o, b)

/-- A 64-bit read at an aligned offset. -/
def regRead (bar2 : Bool) (o : Nat) (b : Block) : BitVec 64 × Block :=
  if bar2 then pageRead (o / 0x10000) (o % 0x10000) b
  else if 0x40000 ≤ o ∧ o < 0x50000 then boxRead o b
  else (bar0Word b o, b)

/-! ### The latches of R35 -/

/-- The registers to which the reads of R35 apply (R34, R296, R343, R415, R513, R556, R595, R662). -/
def latchable (o : Nat) : Bool :=
  (0x100 ≤ o && o < 0x118) || o == 0x200 || o == 0x218 || (0x800 ≤ o && o < 0xE00) || (0x20000 ≤ o && o < 0x40000) ||
    (0x50000 ≤ o && o < 0x70000)

/-- A 32-bit read of the low half of a register latches its high half (R35). -/
def latchHigh (o : Nat) (b : Block) : Block :=
  if latchable o && o % 8 == 0 then
    b.updClk fun c => { c with latches := tblSet none c.latches o (some ((bar0Word b o >>> 32).setWidth 32)) }
  else b

/-- LOW_HALF_READ_LATCH. -/
def execLowHalfReadLatch (offset : Nat) (s : State) : Host.Outcome State Fault Refusal := .next (s.onAll (latchHigh offset))

/-- What a 32-bit read returns: the high half of a latched register comes from its latch, once (R35). With nothing latched, and
after the latch has been read once, it is the high half as it stands: the spec does not say.
[DESIGN CHOICE, log entry 15] -/
def halfRead (bar2 : Bool) (o : Nat) (b : Block) : BitVec 64 × Block :=
  let a := o / 8 * 8
  if o % 8 = 0 then
    let r := regRead bar2 a (if bar2 then b else latchHigh a b)
    ((r.1.setWidth 32).setWidth 64, r.2)
  else match (if bar2 then none else tblGet none b.clk.latches a) with
    | some v => (v.setWidth 64, b.updClk fun c => { c with latches := tblSet none c.latches a none })
    | none =>
      let r := regRead bar2 a b
      (r.1 >>> 32, r.2)

/-! ### Writes of fields that have no row of their own (R15, R16) -/

/-- A write as it meets a register: the bits written, in place, and which halves they take in.
[DESIGN CHOICE, log entry 15] -/
structure Store where
  value : BitVec 64
  low : Bool
  high : Bool
  deriving DecidableEq, Repr

/-- The register with the written halves replaced. -/
def Store.into (x : Store) (cur : BitVec 64) : BitVec 64 :=
  let m : BitVec 64 := (if x.low then 0xFFFFFFFF else 0) ||| (if x.high then 0xFFFFFFFF00000000 else 0)
  (cur &&& ~~~m) ||| (x.value &&& m)

/-- The ones of a write to a W1C register. -/
def Store.ones (x : Store) : BitVec 64 := x.into 0

/-- The slice registers (R114, R115): locked while the slice is not OFF. [DESIGN CHOICE, log entry 5] -/
def writeSliceReg (o : Nat) (x : Store) (w : Work) : Work :=
  let s := (o - 0x10000) / 0x100
  let r := o % 0x100
  let v := x.into (BitVec.ofNat 64 (sliceReg w o))
  if (w.slice s).state != .off then w
  else if r = 0 then w.updSlice s fun y => { y with pasid := v.setWidth 20 }
  else if r = 8 then w.updSlice s fun y => { y with ctxBase := v.extractLsb' 12 52 }
  else if r = 0x10 then w.updSlice s fun y => { y with saveBase := v.extractLsb' 12 52 }
  else if r = 0x18 then w.updSlice s fun y => { y with ctxLog2 := v.setWidth 4 }
  else w

/-- ADM_AQ_DESC, locked while ENABLE is 1, and the W1C registers of the admin queue (R214, R706). -/
def writeAdminReg (o : Nat) (x : Store) (w : Work) : Work :=
  if o = 0x300 then
    if w.admin.enable then w
    else { w with admin := { w.admin with descAddr := x.into w.admin.descAddr &&& 0xFFFFFFFFFFFFFFC0 } }
  else if o = 0x328 then
    let cur : BitVec 64 := if w.admin.pend then 1 else 0
    { w with admin := { w.admin with pend := (w.cleared .adminPend cur x.ones).getLsbD 0 } }.raiseAgain .adminPend cur x.ones (vecAdmin 0)
  else if o = 0x330 then
    let cur := w.admin.causes.setWidth 64
    { w with admin := { w.admin with causes := (w.cleared .adminCause cur x.ones).setWidth 6 } }.raiseAgain .adminCause cur x.ones (vecAdmin 1)
  else w

/-- The MSI-X table. [PRESUMED, log entry 18] -/
def writeMsix (o : Nat) (x : Store) (w : Work) : Work :=
  if o < 0xF0000 + 16 * 272 then
    w.updFab fun f => { f with msix := tblUpd {} f.msix ((o - 0xF0000) / 16) fun y =>
      let v := x.into (BitVec.ofNat 64 (msixReg f o))
      if o % 16 = 0 then { y with addr := v &&& 0xFFFFFFFFFFFFFFFC } else { y with data := v.setWidth 32, masked := v.getLsbD 32 } }
  else w

/-- ADM_DICT_BUF (R674): discarded while BUSY is 1. -/
def writeDictBuf (o : Nat) (x : Store) (d : Dict) : Dict :=
  if d.busy then d
  else
    let v := x.into (BitVec.ofNat 64 (dictReg d o))
    { d with buf := (List.range 8).foldl (fun t i => tblSet 0 t (o - 0x81000 + i) ((v >>> (8 * i)).setWidth 8)) d.buf }

/-- The doorbell page's W1C registers (R133). -/
def writePageReg (s o : Nat) (x : Store) (w : Work) : Work :=
  if o = 0x1000 then
    let cur := (w.slice s).cqPend
    (w.updSlice s fun y => { y with cqPend := w.cleared (.cqPend s) cur x.ones }).raiseAgain (.cqPend s) cur x.ones (vecCompletion s)
  else if o = 0x1008 then w.updSlice s fun y => { y with errq := w.cleared (.errq s) y.errq x.ones }
  else if o = 0x1010 then
    let cur := (w.slice s).cause.setWidth 64
    (w.updSlice s fun y => { y with cause := (w.cleared (.cause s) cur x.ones).setWidth 5 }).raiseAgain (.cause s) cur x.ones (vecError s)
  else w

/-- SILL_DONE and VOLT_FAIL (R642). -/
def writePowerStatus (x : Store) (b : Block) : Block :=
  let cur := BitVec.ofNat 64 (2 ^ 10 * bit b.pwr.sillDone + 2 ^ 9 * bit b.pwr.voltFail)
  let new := b.work.cleared .power cur x.ones
  (b.updPwr fun y => { y with sillDone := new.getLsbD 10, voltFail := new.getLsbD 9 }).updWork fun w =>
    w.raiseAgain .power cur x.ones (vecAdmin 5)

/-- A write to a field of BAR0 that no row of its own names. Reserved and read-only fields keep their values. -/
def writeBar0 (o : Nat) (x : Store) (b : Block) : Block :=
  if 0x300 ≤ o ∧ o < 0x400 then b.updWork (writeAdminReg o x)
  else if 0x10000 ≤ o ∧ o < 0x14000 then b.updWork (writeSliceReg o x)
  else if o = 0x20000 then b.updWork fun w => { w with sync := { w.sync with opValue := x.into w.sync.opValue } }
  else if 0x21200 ≤ o ∧ o < 0x21400 then
    let s := (o - 0x21200) / 8
    b.updWork fun w => w.updSlice s fun y => { y with cycleMap := w.cleared (.cycleMap s) y.cycleMap x.ones }
  else if o = 0x70008 then writePowerStatus x b
  else if 0x81000 ≤ o ∧ o < 0x83000 then b.updDct (writeDictBuf o x)
  else if 0xF0000 ≤ o then b.updWork (writeMsix o x)
  else b

/-- A write to a field of a channel's registers under an identity (R447, R452, R454): `o` counts from the first channel's. -/
def endFieldWrite (mid : BitVec 8) (clusterEnd : Bool) (o : Nat) (x : Store) (b : Block) : Block :=
  if o % 64 = 0x20 then onEnd mid (o / 64) clusterEnd (clearTimeouts (o / 64) clusterEnd (x.ones.setWidth 16)) b else b

/-- A write to a register field with no row of its own. -/
def fieldWrite (bar2 : Bool) (o : Nat) (x : Store) (b : Block) : Block :=
  if bar2 then
    let s := o / 0x10000
    let r := o % 0x10000
    if 0x8000 ≤ r ∧ r < 0x9000 then endFieldWrite (BitVec.ofNat 8 (0x40 + s)) false (r - 0x8000) x b
    else b.updWork (writePageReg s r x)
  else if 0x40000 ≤ o ∧ o < 0x41000 then endFieldWrite 0 false (o - 0x40000) x b
  else writeBar0 o x b

/-- A write as an access of 8 bytes, or of the 4 bytes of a high half. -/
def storeOf (o : Nat) (v : BitVec 64) : Store :=
  if o % 8 = 0 then { value := v, low := true, high := true } else { value := v <<< 32, low := false, high := true }

/-- Whether an offset lies in a BAR: 1 MiB and 4 MiB (R58). -/
def inBar (bar2 : Bool) (o : Nat) : Bool := decide (o < if bar2 then 0x400000 else 0x100000)

/-- A write to a register field by a path. -/
def pathWrite (path : WritePath) (o : Nat) (v : BitVec 64) (b : Block) : Block :=
  match path with
  | .bar0 => if inBar false o then fieldWrite false (o / 8 * 8) (storeOf o v) b else b
  | .bar2 => if inBar true o then fieldWrite true (o / 8 * 8) (storeOf o v) b else b
  | .box mid clusterEnd => endFieldWrite mid clusterEnd (o / 8 * 8) (storeOf o v) b

/-- REGISTER_WRITE. -/
def execRegisterWrite (path : WritePath) (offset : Nat) (value : BitVec 64) (s : State) : Host.Outcome State Fault Refusal :=
  .next (s.onAll (pathWrite path offset value))

/-! ### Writes of fields that start an action -/

/-- SYN_OP_CTL (R343). -/
def synWrite (v : Nat) (e : Block) (w : Work) : Work :=
  let s := bitsOf v 13 8
  let i := bitsOf v 31 16
  match bitsOf v 3 0 with
  | 1 => synSignal s i e w
  | 2 => synAdd s i e w
  | 3 => synRead s i w
  | 4 => synSemRead s i w
  | _ => w

/-- TNL_CTL (R513). -/
def linkWrite (p v : Nat) (b : Block) : Block :=
  match v % 16 with
  | 1 => retrainOp p b
  | 2 => disablePort p b
  | 3 => wakeOp p b
  | _ => b

/-- PWR_CTL (R642). -/
def powerWrite (v : Nat) (b : Block) : Block :=
  match v % 16 with
  | 1 => goPs0 b
  | 2 => goPs2 b
  | 3 => goPs3 b
  | 8 => sillTest b
  | _ => b

/-- A write to a mailbox end over the function port (R454): a write of half a register leaves the other half.
[DEDUCED, log entry 19] -/
def boxWrite (mid : BitVec 8) (c o : Nat) (x : Store) (b : Block) : Block :=
  onEnd mid c false (fun b =>
    if o = 0x10 then endWrite mid c false o (x.into (endRead b c false o)) b
    else if x.low then endWrite mid c false o x.ones b
    else b) b

/-- The actions of BAR0 that bits [31:0] of a register start. -/
def actBar0 (o v : Nat) (b : Block) : Block :=
  let c : BitVec 32 := BitVec.ofNat 32 v
  if o = 0x208 then writeQuarters (BitVec.ofNat 8 v) b
  else if o = 0x308 then b.updWork (if v.testBit 0 then adminEnable b else adminDisable)
  else if o = 0x310 then b.updWork (sqDoorbellOp adminKey c)
  else if o = 0x318 then b.updWork (cqDoorbellOp b adminKey c)
  else if o = 0x400 then
    if v % 16 = 1 then b.updWork (resetByHost b .recover) else if v % 16 = 2 then b.updWork (resetByHost b .restart) else b
  else if 0x10000 ≤ o ∧ o < 0x14000 ∧ o % 0x100 = 0x20 then
    let s := (o - 0x10000) / 0x100
    if v % 16 = 1 then b.updWork (enableSlice b s) else if v % 16 = 2 then b.updWork (disableSlice b s) else b
  else if o = 0x20008 then b.updWork (synWrite v b)
  else if o = 0x41200 then b.setLock (v % 64) none
  else if 0x50000 ≤ o ∧ o < 0x50600 ∧ o % 0x100 = 0 then linkWrite ((o - 0x50000) / 0x100) v b
  else if o = 0x70000 then powerWrite v b
  else if o = 0x80000 then (if v.testBit 0 then dictGo (v.testBit 1) b else b)
  else b

/-- The actions of a doorbell page that bits [31:0] of a register start (R133). -/
def actPage (s o v : Nat) (b : Block) : Block :=
  let q := qkey s (o / 0x40)
  let c : BitVec 32 := BitVec.ofNat 32 v
  if 0x1000 ≤ o then b
  else if o % 0x40 = 0 then b.updWork (sqDoorbellOp q c)
  else if o % 0x40 = 8 then b.updWork (cqDoorbellOp b q c)
  else if o % 0x40 = 0x20 then
    let b := if v.testBit 1 then b.updWork (resumeQueue b q) else b
    if v.testBit 0 then b.updWork fun w => if (w.queue q).state != .absent then retryQueue b q w else w else b
  else b

/-- A write at an aligned offset: the mailbox unit's, an action's, or a field's. [DESIGN CHOICE, log entry 15] -/
def regWrite (bar2 : Bool) (o : Nat) (x : Store) (b : Block) : Block :=
  let v := x.ones.toNat % 2 ^ 32
  if bar2 then
    let s := o / 0x10000
    let r := o % 0x10000
    if 0x8000 ≤ r ∧ r < 0x9000 then boxWrite (BitVec.ofNat 8 (0x40 + s)) ((r - 0x8000) / 64) (r % 64) x b
    else
      let b := if x.low then actPage s r v b else b
      fieldWrite true o x b
  else if 0x40000 ≤ o ∧ o < 0x41000 then boxWrite 0 ((o - 0x40000) / 64) (o % 64) x b
  else if 0x41000 ≤ o ∧ o < 0x41200 then (if x.low then writeLock 0 ((o - 0x41000) / 8) x.ones b else countRefused b)
  else if o = 0x60008 then (if x.high then b.updWork (capHead ((x.ones >>> 32).setWidth 32)) else b)
  else
    let b := if x.low then actBar0 o v b else b
    fieldWrite false o x b

/-! ### FUNCTION_PORT_ACCESS (R60, R61, R650, R657) -/

/-- Whether an access has a size and an alignment that the block accepts (R60). -/
def accessForm (o size : Nat) : Bool := (size == 4 || size == 8) && o % size == 0

/-- Whether BAR0 and BAR2 serve an access now (R65, R582, R650): a halted start serves the registers of R662 alone (R657).
[DESIGN CHOICE, log entry 15] -/
def barServes (b : Block) (bar2 : Bool) (o : Nat) : Bool :=
  b.st.bar0 && !b.st.inPor && (!b.st.halted || (!bar2 && 0x100 ≤ o && o < 0x118))

/-- Whether something stands for the cycle's end that is a read of the function port. -/
def Late.ofPort : Late → Bool
  | .lockRead _ _ tag => tag.isSome
  | .cpl _ _ _ => true
  | _ => false

/-- A read completion (R61): behind one that waits for the end of the control cycle. [DESIGN CHOICE, log entry 15] -/
def completeRead (tag : BitVec 10) (v : BitVec 64) (ur : Bool) (b : Block) : Block := b.updWork fun w =>
  if w.late.any Late.ofPort then w.later (.cpl tag v ur) else w.emit (.cpl tag v ur)

/-- Whether a read on BAR0 takes in bits [31:0] of a lock: its high half reads zero and takes no lock.
[DEDUCED, log entry 19] -/
def readsLock (bar2 : Bool) (o : Nat) : Bool := !bar2 && 0x41000 ≤ o && o < 0x41200 && o % 8 == 0

/-- An accepted read: its completion carries the bytes at the low end. A read of a lock is served at the end of the control cycle
(R461). -/
def portRead (bar2 : Bool) (o size : Nat) (tag : BitVec 10) (b : Block) : Block :=
  if readsLock bar2 o then b.updWork fun w => w.later (.lockRead 0 ((o - 0x41000) / 8) (some tag))
  else
    let r := if size = 8 then regRead bar2 o b else halfRead bar2 o b
    completeRead tag r.1 false r.2

/-- An accepted write. -/
def portWrite (bar2 : Bool) (o size : Nat) (v : BitVec 64) (b : Block) : Block :=
  let x : Store := if size = 8 then { value := v, low := true, high := true }
    else if o % 8 = 0 then { value := v.setWidth 32 |>.setWidth 64, low := true, high := false }
    else { value := v <<< 32, low := false, high := true }
  regWrite bar2 (o / 8 * 8) x b

/-- FN_TGT_READY, FN_RSP_READY and SIGIN_READY (R50, R52, R66): high while the block takes what comes, low in power-on reset, in PS3
and in a block that is frozen. [DESIGN CHOICE, log entry 56] -/
def Block.ready (b : Block) : Bool := !b.st.inPor && !b.still

/-- ENGn_RES_READY (R50, R81): low at a port that is absent or out of service. [DESIGN CHOICE, log entry 56] -/
def Block.resReady (b : Block) : BitVec 16 :=
  BitVec.ofNat 16 (((List.range 16).filter fun p => b.ready && (b.work.port p).state == .inService).map (2 ^ ·)).sum

/-- An access on the function port. [DESIGN CHOICE, log entry 15] -/
def portAccess (bar2 write : Bool) (o size : Nat) (v : BitVec 64) (tag : BitVec 10) (b : Block) : Block :=
  if accessForm o size && barServes b bar2 o && inBar bar2 o then
    if write then portWrite bar2 o size v b else portRead bar2 o size tag b
  else if write || b.st.inPor then b
  else completeRead tag 0 true b

/-- FUNCTION_PORT_ACCESS. -/
def execFunctionPortAccess (bar2 write : Bool) (offset size : Nat) (data : BitVec 64) (tag : BitVec 10) (s : State) :
    Host.Outcome State Fault Refusal :=
  .next (s.onBoxes (portAccess bar2 write offset size data tag))

end Sys2Proof.Machine
end

