-- ==== Sys2Proof/Machine/Dispatch.lean ====
section
/-! DEFINITION. The meaning of a command: one arm for each constructor, each a direct call of one meaning. -/

namespace Sys2Proof.Machine

def exec (i : Instr) (s : State) : Host.Outcome State Fault Refusal :=
  match i with
  | .nop id => Sys2Proof.Machine.execNop id s
  | .execTiles id => Sys2Proof.Machine.execExecTiles id s
  | .copy id => Sys2Proof.Machine.execCopy id s
  | .fill id => Sys2Proof.Machine.execFill id s
  | .tidy id => Sys2Proof.Machine.execTidy id s
  | .semAcquire id => Sys2Proof.Machine.execSemAcquire id s
  | .semRelease id => Sys2Proof.Machine.execSemRelease id s
  | .counterOpSet id => Sys2Proof.Machine.execCounterOpSet id s
  | .counterOpAdd id => Sys2Proof.Machine.execCounterOpAdd id s
  | .counterOpSub id => Sys2Proof.Machine.execCounterOpSub id s
  | .counterOpWaitGe id => Sys2Proof.Machine.execCounterOpWaitGe id s
  | .watchAdd id => Sys2Proof.Machine.execWatchAdd id s
  | .watchCancel id => Sys2Proof.Machine.execWatchCancel id s
  | .barrierArrive id => Sys2Proof.Machine.execBarrierArrive id s
  | .graph id => Sys2Proof.Machine.execGraph id s
  | .graphLoad id => Sys2Proof.Machine.execGraphLoad id s
  | .relaunch id => Sys2Proof.Machine.execRelaunch id s
  | .graphUnload id => Sys2Proof.Machine.execGraphUnload id s
  | .objCreate id => Sys2Proof.Machine.execObjCreate id s
  | .objFree id => Sys2Proof.Machine.execObjFree id s
  | .streamCreate id => Sys2Proof.Machine.execStreamCreate id s
  | .streamAdvance id => Sys2Proof.Machine.execStreamAdvance id s
  | .streamMap id => Sys2Proof.Machine.execStreamMap id s
  | .queueCreate id => Sys2Proof.Machine.execQueueCreate id s
  | .queueDestroy id => Sys2Proof.Machine.execQueueDestroy id s
  | .ctxLoad id => Sys2Proof.Machine.execCtxLoad id s
  | .ctxEvict id => Sys2Proof.Machine.execCtxEvict id s
  | .query id => Sys2Proof.Machine.execQuery id s
  | .sliceFreeze id => Sys2Proof.Machine.execSliceFreeze id s
  | .sliceResume id => Sys2Proof.Machine.execSliceResume id s
  | .sliceSave id => Sys2Proof.Machine.execSliceSave id s
  | .sliceRestore id => Sys2Proof.Machine.execSliceRestore id s
  | .dirtyLogEnable id => Sys2Proof.Machine.execDirtyLogEnable id s
  | .dirtyLogHarvest id => Sys2Proof.Machine.execDirtyLogHarvest id s
  | .dirtyLogDisable id => Sys2Proof.Machine.execDirtyLogDisable id s
  | .captureSet id => Sys2Proof.Machine.execCaptureSet id s
  | .domainReset id => Sys2Proof.Machine.execDomainReset id s
  | .pasidRevoke id => Sys2Proof.Machine.execPasidRevoke id s
  | .sliceEnable slice => Sys2Proof.Machine.execSliceEnable slice s
  | .sliceDisable slice => Sys2Proof.Machine.execSliceDisable slice s
  | .sliceDrained slice => Sys2Proof.Machine.execSliceDrained slice s
  | .sqDoorbell slice queue value => Sys2Proof.Machine.execSqDoorbell slice queue value s
  | .cqDoorbell slice queue value => Sys2Proof.Machine.execCqDoorbell slice queue value s
  | .queueResume slice queue => Sys2Proof.Machine.execQueueResume slice queue s
  | .queueRetry slice queue => Sys2Proof.Machine.execQueueRetry slice queue s
  | .adminQueueEnable => Sys2Proof.Machine.execAdminQueueEnable s
  | .adminQueueDisable => Sys2Proof.Machine.execAdminQueueDisable s
  | .adminSqDoorbell value => Sys2Proof.Machine.execAdminSqDoorbell value s
  | .adminCqDoorbell value => Sys2Proof.Machine.execAdminCqDoorbell value s
  | .beatQuartersWrite value => Sys2Proof.Machine.execBeatQuartersWrite value s
  | .lowHalfReadLatch offset => Sys2Proof.Machine.execLowHalfReadLatch offset s
  | .fenceSignal slice index => Sys2Proof.Machine.execFenceSignal slice index s
  | .fenceAdd slice index => Sys2Proof.Machine.execFenceAdd slice index s
  | .fenceRead slice index => Sys2Proof.Machine.execFenceRead slice index s
  | .semRead slice index => Sys2Proof.Machine.execSemRead slice index s
  | .recover => Sys2Proof.Machine.execRecover s
  | .restart => Sys2Proof.Machine.execRestart s
  | .mailboxRing mid channel clusterEnd bits => Sys2Proof.Machine.execMailboxRing mid channel clusterEnd bits s
  | .mailboxClear mid channel clusterEnd bits => Sys2Proof.Machine.execMailboxClear mid channel clusterEnd bits s
  | .mailboxMaskWrite mid channel clusterEnd bits => Sys2Proof.Machine.execMailboxMaskWrite mid channel clusterEnd bits s
  | .mailboxMsgWrite mid channel clusterEnd word => Sys2Proof.Machine.execMailboxMsgWrite mid channel clusterEnd word s
  | .mailboxRingTimeout channel bit => Sys2Proof.Machine.execMailboxRingTimeout channel bit s
  | .recoveryLoad mid => Sys2Proof.Machine.execRecoveryLoad mid s
  | .recoveryRing => Sys2Proof.Machine.execRecoveryRing s
  | .ping channel => Sys2Proof.Machine.execPing channel s
  | .version channel => Sys2Proof.Machine.execVersion channel s
  | .coreMap channel => Sys2Proof.Machine.execCoreMap channel s
  | .lockRead mid lock => Sys2Proof.Machine.execLockRead mid lock s
  | .lockRelease mid lock value => Sys2Proof.Machine.execLockRelease mid lock value s
  | .mbxLockForce lock => Sys2Proof.Machine.execMbxLockForce lock s
  | .retrain port => Sys2Proof.Machine.execRetrain port s
  | .portDisable port => Sys2Proof.Machine.execPortDisable port s
  | .wake port => Sys2Proof.Machine.execWake port s
  | .capHeadWrite value => Sys2Proof.Machine.execCapHeadWrite value s
  | .goPs0 => Sys2Proof.Machine.execGoPs0 s
  | .goPs2 => Sys2Proof.Machine.execGoPs2 s
  | .goPs3 => Sys2Proof.Machine.execGoPs3 s
  | .sillTest => Sys2Proof.Machine.execSillTest s
  | .dictGo irq => Sys2Proof.Machine.execDictGo irq s
  | .registerWrite path offset value => Sys2Proof.Machine.execRegisterWrite path offset value s
  | .dictRead path source tag message => Sys2Proof.Machine.execDictRead path source tag message s
  | .dictWrite path source tag message => Sys2Proof.Machine.execDictWrite path source tag message s
  | .dictInfo path source tag message => Sys2Proof.Machine.execDictInfo path source tag message s
  | .dictSave path source tag message storeOk => Sys2Proof.Machine.execDictSave path source tag message storeOk s
  | .setEndpointId source tag header eid => Sys2Proof.Machine.execSetEndpointId source tag header eid s
  | .getEndpointId source tag header => Sys2Proof.Machine.execGetEndpointId source tag header s
  | .getMctpVersionSupport source tag header msgType => Sys2Proof.Machine.execGetMctpVersionSupport source tag header msgType s
  | .getMessageTypeSupport source tag header => Sys2Proof.Machine.execGetMessageTypeSupport source tag header s
  | .entdaa address => Sys2Proof.Machine.execEntdaa address s
  | .setdasa address => Sys2Proof.Machine.execSetdasa address s
  | .ecallExit program a0 => Sys2Proof.Machine.execEcallExit program a0 s
  | .ecallYield program => Sys2Proof.Machine.execEcallYield program s
  | .programTrap program cause => Sys2Proof.Machine.execProgramTrap program cause s
  | .programFence program => Sys2Proof.Machine.execProgramFence program s
  | .programMemoryAccess program address size store => Sys2Proof.Machine.execProgramMemoryAccess program address size store s
  | .programAmo program address fn operand => Sys2Proof.Machine.execProgramAmo program address fn operand s
  | .juSyncSignal program fence => Sys2Proof.Machine.execJuSyncSignal program fence s
  | .juSyncAdd program fence => Sys2Proof.Machine.execJuSyncAdd program fence s
  | .juDoorbell program word => Sys2Proof.Machine.execJuDoorbell program word s
  | .tidySliceExpiry program => Sys2Proof.Machine.execTidySliceExpiry program s
  | .coreFault core cause => Sys2Proof.Machine.execCoreFault core cause s
  | .coreRestartDone core imageGood => Sys2Proof.Machine.execCoreRestartDone core imageGood s
  | .firmwareNormal => Sys2Proof.Machine.execFirmwareNormal s
  | .firmwareStartTimeout => Sys2Proof.Machine.execFirmwareStartTimeout s
  | .clusterReset cause => Sys2Proof.Machine.execClusterReset cause s
  | .porstNRise present bf16 => Sys2Proof.Machine.execPorstNRise present bf16 s
  | .sysrstNPulse nanoseconds => Sys2Proof.Machine.execSysrstNPulse nanoseconds s
  | .fnFlrReq => Sys2Proof.Machine.execFnFlrReq s
  | .fnWakeReq => Sys2Proof.Machine.execFnWakeReq s
  | .fnBmeChange value msixEn msixFmask => Sys2Proof.Machine.execFnBmeChange value msixEn msixFmask s
  | .msixMessageSend vector => Sys2Proof.Machine.execMsixMessageSend vector s
  | .functionPortAccess bar2 write offset size data tag => Sys2Proof.Machine.execFunctionPortAccess bar2 write offset size data tag s
  | .pageRequestResponse group code => Sys2Proof.Machine.execPageRequestResponse group code s
  | .priTimeout group => Sys2Proof.Machine.execPriTimeout group s
  | .memoryResponse tag code data => Sys2Proof.Machine.execMemoryResponse tag code data s
  | .memoryResponseTimeout tag => Sys2Proof.Machine.execMemoryResponseTimeout tag s
  | .siginUpdate slice fence value => Sys2Proof.Machine.execSiginUpdate slice fence value s
  | .queueFetch slice queue => Sys2Proof.Machine.execQueueFetch slice queue s
  | .entryReadReturn tag => Sys2Proof.Machine.execEntryReadReturn tag s
  | .commandRelease id => Sys2Proof.Machine.execCommandRelease id s
  | .statusBlockWrite slice queue => Sys2Proof.Machine.execStatusBlockWrite slice queue s
  | .completionRecordWrite tag => Sys2Proof.Machine.execCompletionRecordWrite tag s
  | .coalesceTimeout slice queue => Sys2Proof.Machine.execCoalesceTimeout slice queue s
  | .queueCacheLoad slice queue => Sys2Proof.Machine.execQueueCacheLoad slice queue s
  | .objEntryLoad index => Sys2Proof.Machine.execObjEntryLoad index s
  | .grantSnapshot => Sys2Proof.Machine.execGrantSnapshot s
  | .beatEdge => Sys2Proof.Machine.execBeatEdge s
  | .commandTimeout id => Sys2Proof.Machine.execCommandTimeout id s
  | .lendExpiry slice sem context => Sys2Proof.Machine.execLendExpiry slice sem context s
  | .tileBind id tile => Sys2Proof.Machine.execTileBind id tile s
  | .expanderUnitDone lane => Sys2Proof.Machine.execExpanderUnitDone lane s
  | .tableLoad lane => Sys2Proof.Machine.execTableLoad lane s
  | .tileOffer port => Sys2Proof.Machine.execTileOffer port s
  | .tileStart port => Sys2Proof.Machine.execTileStart port s
  | .tileOfferTimeout port => Sys2Proof.Machine.execTileOfferTimeout port s
  | .resultBeat port tileId offset mask data => Sys2Proof.Machine.execResultBeat port tileId offset mask data s
  | .tileDone port tileId cycles => Sys2Proof.Machine.execTileDone port tileId cycles s
  | .engineFault port tileId code cycles => Sys2Proof.Machine.execEngineFault port tileId code cycles s
  | .preemptKill port => Sys2Proof.Machine.execPreemptKill port s
  | .killAck port cycles => Sys2Proof.Machine.execKillAck port cycles s
  | .killAckTimeout port => Sys2Proof.Machine.execKillAckTimeout port s
  | .tileOverrunHalf port => Sys2Proof.Machine.execTileOverrunHalf port s
  | .tileOverrunKill port => Sys2Proof.Machine.execTileOverrunKill port s
  | .commitDone lane => Sys2Proof.Machine.execCommitDone lane s
  | .kilnEccError port tile place double => Sys2Proof.Machine.execKilnEccError port tile place double s
  | .slotSaveDone slot => Sys2Proof.Machine.execSlotSaveDone slot s
  | .slotLoadDone slot => Sys2Proof.Machine.execSlotLoadDone slot s
  | .copyRound slice => Sys2Proof.Machine.execCopyRound slice s
  | .softResetAck port => Sys2Proof.Machine.execSoftResetAck port s
  | .softResetTimeout port => Sys2Proof.Machine.execSoftResetTimeout port s
  | .engineIdle port => Sys2Proof.Machine.execEngineIdle port s
  | .hrstWaitTimeout port => Sys2Proof.Machine.execHrstWaitTimeout port s
  | .pswAckFall port => Sys2Proof.Machine.execPswAckFall port s
  | .retireWaitTimeout port => Sys2Proof.Machine.execRetireWaitTimeout port s
  | .engineDomainReset => Sys2Proof.Machine.execEngineDomainReset s
  | .engdomWaitTimeout => Sys2Proof.Machine.execEngdomWaitTimeout s
  | .planerWatchdog => Sys2Proof.Machine.execPlanerWatchdog s
  | .teardownComplete slice context => Sys2Proof.Machine.execTeardownComplete slice context s
  | .captureSnapshotDone => Sys2Proof.Machine.execCaptureSnapshotDone s
  | .captureWaitTimeout => Sys2Proof.Machine.execCaptureWaitTimeout s
  | .pasidRevokeComplete slice => Sys2Proof.Machine.execPasidRevokeComplete slice s
  | .trainBlock port block => Sys2Proof.Machine.execTrainBlock port block s
  | .trainFailed port => Sys2Proof.Machine.execTrainFailed port s
  | .trainRetryTimer port => Sys2Proof.Machine.execTrainRetryTimer port s
  | .pingBlock port tag echo turn arrival delay => Sys2Proof.Machine.execPingBlock port tag echo turn arrival delay s
  | .latencyRemeasure port => Sys2Proof.Machine.execLatencyRemeasure port s
  | .linkFrame port seq flits crc arrival => Sys2Proof.Machine.execLinkFrame port seq flits crc arrival s
  | .ackBlock port ackSeq nak sleep ackValid credits => Sys2Proof.Machine.execAckBlock port ackSeq nak sleep ackValid credits s
  | .ackSendTimer port => Sys2Proof.Machine.execAckSendTimer port s
  | .ackTimeout port seq => Sys2Proof.Machine.execAckTimeout port seq s
  | .resendTimeout port seq => Sys2Proof.Machine.execResendTimeout port seq s
  | .silenceTimeout port => Sys2Proof.Machine.execSilenceTimeout port s
  | .cleanBeat port => Sys2Proof.Machine.execCleanBeat port s
  | .transitTimeout port index => Sys2Proof.Machine.execTransitTimeout port index s
  | .beatMessage => Sys2Proof.Machine.execBeatMessage s
  | .noticeMessage => Sys2Proof.Machine.execNoticeMessage s
  | .fenceMessage => Sys2Proof.Machine.execFenceMessage s
  | .watchReg => Sys2Proof.Machine.execWatchReg s
  | .watchNotify => Sys2Proof.Machine.execWatchNotify s
  | .watchDrop => Sys2Proof.Machine.execWatchDrop s
  | .barrierArriveMessage => Sys2Proof.Machine.execBarrierArriveMessage s
  | .barrierRelease => Sys2Proof.Machine.execBarrierRelease s
  | .dictReq => Sys2Proof.Machine.execDictReq s
  | .dictRsp => Sys2Proof.Machine.execDictRsp s
  | .dictReqTimeout tag => Sys2Proof.Machine.execDictReqTimeout tag s
  | .wakeDetect port edges => Sys2Proof.Machine.execWakeDetect port edges s
  | .wakeWaitTimeout port => Sys2Proof.Machine.execWakeWaitTimeout port s
  | .foundFrame => Sys2Proof.Machine.execFoundFrame s
  | .joinState body => Sys2Proof.Machine.execJoinState body s
  | .frameCmdExclude chip => Sys2Proof.Machine.execFrameCmdExclude chip s
  | .excludeTimeout chip => Sys2Proof.Machine.execExcludeTimeout chip s
  | .managerLostWait => Sys2Proof.Machine.execManagerLostWait s
  | .pwrfailNFall => Sys2Proof.Machine.execPwrfailNFall s
  | .sillWriteDone => Sys2Proof.Machine.execSillWriteDone s
  | .pwrfailNRise => Sys2Proof.Machine.execPwrfailNRise s
  | .pmbAlert statusWord => Sys2Proof.Machine.execPmbAlert statusWord s
  | .vrTelemetryPoll vinMv ioutMa tempC => Sys2Proof.Machine.execVrTelemetryPoll vinMv ioutMa tempC s
  | .voltageReadback rail millivolts => Sys2Proof.Machine.execVoltageReadback rail millivolts s
  | .voltageTimeout rail => Sys2Proof.Machine.execVoltageTimeout rail s
  | .voltageRetryTimer rail => Sys2Proof.Machine.execVoltageRetryTimer rail s
  | .pswAck domain => Sys2Proof.Machine.execPswAck domain s
  | .ps1IdleTimeout => Sys2Proof.Machine.execPs1IdleTimeout s
  | .ps1Exit => Sys2Proof.Machine.execPs1Exit s
  | .wakeAfterTimeout => Sys2Proof.Machine.execWakeAfterTimeout s
  | .ps3Exit => Sys2Proof.Machine.execPs3Exit s
  | .clkOkRise => Sys2Proof.Machine.execClkOkRise s
  | .fuseAck word => Sys2Proof.Machine.execFuseAck word s
  | .dictionaryLoad store => Sys2Proof.Machine.execDictionaryLoad store s
  | .warmStart => Sys2Proof.Machine.execWarmStart s
  | .startComplete => Sys2Proof.Machine.execStartComplete s
  | .startTimeout => Sys2Proof.Machine.execStartTimeout s
  | .porstNFall => Sys2Proof.Machine.execPorstNFall s
  | .rxLockChange port lane level => Sys2Proof.Machine.execRxLockChange port lane level s
  | .blockLockChange port lane blocks => Sys2Proof.Machine.execBlockLockChange port lane blocks s
  | .probationNullFrame port => Sys2Proof.Machine.execProbationNullFrame port s
  | .selfTestDone ctl kiln retention cores ports => Sys2Proof.Machine.execSelfTestDone ctl kiln retention cores ports s

end Sys2Proof.Machine
end

