-- ==== Sys2Proof/Machine/Tick.lean ====
section
/-! DEFINITION. The passage of one control cycle: time, and what the block does of itself at the end of a cycle: counts of
KILN_STARVE (R412), transfers on channels (R50), messages that leave (R478, R494), resets that fall due (R451, R581), and the steps of a start or of a
power transition. -/

namespace Sys2Proof.Machine

/-- One control cycle passes (R22, R34): the phase of the beat and the time since reset go up. -/
def Clock.tick (c : Clock) : Clock :=
  { c with cycle := c.cycle + 1, phase := satInc c.phase }

/-! ### KILN_STARVE (R412) -/

/-- Whether a unit whose bytes are there waits for pages (R395). -/
def unitWaits (w : Work) (t : Tile) (c : Cmd) (u : LaneUnit) (data : List Byte) : Bool :=
  let o := slotObj w c u.slot
  let d := t.slots.getD u.slot {}
  let r := unitOutput o u (unitWant o d u) data
  let new := d.finish { pos := u.pos, next := unitEnd o u, found := r.2.found, bytes := r.2.bytes }
  (d.at0 == u.pos || !unitTail o u) && r.1 == St.ok && !(unitOpen o u && decide (r.2.found < d.left)) &&
    (makeRoom u.port (new.pages - d.pages) (victims w u.port (effPriority w c)) w).isNone

/-- Whether a unit of a tile waits on its lane for pages (R395). -/
def waitsPages (w : Work) (t : Tile) (c : Cmd) : Bool :=
  w.pln.lanes.any fun p =>
    match p.2, (laneReq w p.1).bind Req.answer with
    | some u, some (_, data) => u.stage == .data && !u.discard && takesUnit c u t && unitWaits w t c u data
    | _, _ => false

/-- Whether every remaining unit of a tile is on a lane that waits for a read response. -/
def waitsMemory (w : Work) (t : Tile) (c : Cmd) : Bool :=
  (openSlot w t c).isNone && (w.pln.lanes.filter fun p => match p.2 with
    | some u => !u.discard && takesUnit c u t
    | none => false).all fun p => (laneReq w p.1).any fun r => r.answer.isNone

/-- The cause under which a cycle is filed: the first that holds. -/
def starveCause (e : Block) (w : Work) (t : Tile) (c : Cmd) (s : Nat) : Option Nat :=
  if waitsPages w t c then some 0
  else if planerShut e w s || memShut e w s then some 1
  else if (openSlot w t c).isSome && (freeLaneOf w).isNone then some 2
  else if waitsMemory w t c then some 3
  else none

/-- Whether a cycle of a port counts (R272, R412): it has a grant list, no tile that qualifies or is offered, and a tile that is
being staged. [DESIGN CHOICE, log entry 34] -/
def starves (e : Block) (w : Work) (p : Nat) : Bool :=
  let ts := tilesOn w p
  !(w.port p).grants.isEmpty && (ts.any fun t => t.state == .staging) && !ts.any fun t => qualifies e w t || t.state == .offered

/-- The tile that R272 would choose on a port if all the tiles bound to it were staged: where none would then qualify, the first of
those that stage. [DESIGN CHOICE, log entry 34] -/
def stagedFirst (e : Block) (w : Work) (p : Nat) : Option Tile :=
  let ts := (tilesOn w p).filter fun t => t.state == .staging
  (chooseTile w (ts.filter fun t => qualifies e w { t with state := .staged })).or (chooseTile w ts)

/-- Count a starving cycle of a port, for the slice of the tile that R272 would choose if all were staged (R412); where no
cause of the table holds for that tile, the cause is free. [DESIGN CHOICE, log entry 34] -/
def starvePort (e : Block) (p : Nat) (w : Work) : Work :=
  if !starves e w p then w
  else match (stagedFirst e w p).bind fun t => (w.cmd t.cmd).bind fun c => c.slice.map fun s => (t, c, s) with
    | none => w
    | some (t, c, s) =>
      let d := w.draw
      let k := (starveCause e w t c s).getD (Config.freeChoice d.1 % 4)
      countEvent s k 1 (d.2.updPort p fun x => { x with starve := tblUpd 0 x.starve k (· + 1) })

/-- Count the starving cycles of every port. [DESIGN CHOICE, log entry 34] -/
def starveAll (e : Block) (w : Work) : Work := (List.range 16).foldl (fun w p => starvePort e p w) w

/-! ### Channels (R50) -/

/-- Whether a channel's clock is ACLK, which passes twice in a control cycle. [DESIGN CHOICE, log entry 56] -/
def Chan.onAclk : Chan → Bool
  | .req _ => true
  | .wd _ => true
  | _ => false

/-- One clock of the channels that `on` names: the first offer of each is transferred where its receiver holds READY high, and
stands otherwise. `n` counts the draws, `seen` the channels that have had their turn. -/
def acceptRound (on : Chan → Bool) : List Output → Nat → List Chan → List Output × Nat
  | [], n, _ => ([], n)
  | o :: os, n, seen =>
    match o.chan with
    | none => acceptRound on os n seen
    | some c =>
      if on c && !seen.contains c then
        let r := acceptRound on os (n + 1) (c :: seen)
        if Config.freeReady n then r else (o :: r.1, r.2)
      else
        let r := acceptRound on os n seen
        (o :: r.1, r.2)

/-- The channels of the function port and of the memory request port transfer what their receivers take in a cycle (R50). Nothing
says when a receiver is ready: READY is free. [DESIGN CHOICE, log entry 56] -/
def acceptOffers (w : Work) : Work :=
  let r := acceptRound (fun _ => true) w.fab.offers w.fresh []
  let r := acceptRound Chan.onAclk r.1 r.2 []
  { w.updFab fun f => { f with offers := r.1 } with fresh := r.2 }

/-- An engine takes the next operand beat of its port where it holds ENGn_OPD_READY high (R84).
[DESIGN CHOICE, log entry 56] -/
def readyBeat (p : Nat) (w : Work) : Work :=
  if (w.port p).opd.isEmpty then w
  else
    let d := w.draw
    if Config.freeReady d.1 then acceptBeat p d.2 else d.2

/-- The operand beats of a cycle: one for each of the two engine clocks in it. [DESIGN CHOICE, log entry 56] -/
def readyBeats (w : Work) : Work := (List.range 16).foldl (fun w p => readyBeat p (readyBeat p w)) w

/-! ### The lanes of the Tenon ports (R462, R467) -/

/-- The TRAIN block that a port sends (R466). -/
def ownTrain (b : Block) (p : Nat) : TrainBlk :=
  let x := b.lport p
  let c := tblGet {} b.lnk.coders p
  { lane := c.next, chip := BitVec.ofNat 6 b.dct.chipNum, chipValid := decide (b.dct.chipNum < 64), port := BitVec.ofNat 3 p,
    seen := x.seen, done := decide (16 ≤ x.seenRun), counter := c.count, rev := 0x11 }

/-- What a port sends where nothing else goes (R467): TRAIN while it trains, until its partner is done, else IDLE. -/
def fillBlock (b : Block) (p : Nat) : LaneBlock :=
  let x := b.lport p
  if x.state == .training && x.doneRun < 16 then trainBlk (ownTrain b p) else idleBlock

/-- A port whose transmitter runs sends such a block, where the line has room for one in this control cycle.
[DESIGN CHOICE, log entry 63] -/
def fillPort (p : Nat) (b : Block) : Block :=
  let x := b.lport p
  if x.txIdle || x.pd || !x.rstN then b
  else
    let d := b.work.draw
    let train : Bool := x.state == .training && x.doneRun < 16
    let k := fillBlock b p
    let b := { b with work := d.2 }
    if Config.freeReady d.1 then
      b.updCoder p fun c => { c.send k with count := if train then c.count + 1 else c.count }
    else b

/-- Every port fills its lanes. -/
def fillLanes (b : Block) : Block := (List.range 6).foldl (fun b p => fillPort p b) b

/-! ### The end of a cycle -/

/-- HOST_WAIT_US runs while the boot ROM waits for the host before a start has completed (R654). -/
def waitForHost (b : Block) : Block :=
  if !b.st.done && b.work.jnr.state == .recoveryWait && !(b.chan 0).db.getLsbD 0 then
    b.updStart fun x => { x with hostWait := x.hostWait + 1 }
  else b

/-- A block reset that is due follows its capture, and the record of the DOMAIN_RESET that asks for it (R572, R581).
[DESIGN CHOICE, log entry 48] -/
def dueReset (b : Block) : Block :=
  let q := b.work.queue adminKey
  if b.work.cap.blockReset && b.work.cap.busy.isNone && (!b.work.cap.recordFirst || (q.due.isEmpty && q.recBusy.isNone)) then
    requestReset 3 (resetNotice b)
  else b

/-- What the shared state does of itself in a cycle. [DESIGN CHOICE, log entry 2] -/
def cycleWork (e : Block) (w : Work) : Work :=
  fillTables e (staleBits (staleKills (planerReady (replayCores e (readyBeats (acceptOffers (starveAll e w)))))))

/-- Resets of a length that the spec gives pass: RST_N of a Tenon port (R467, R579) and ENGn_HRST_N of an engine port (R92).
[DESIGN CHOICE, log entry 2] -/
def resetsPass (b : Block) : Block :=
  let b := (b.lnk.ports.filter fun p => p.2.rstWait != 0).foldl (fun b p => b.updLport p.1 LinkPort.resetPasses) b
  b.updWork fun w => (w.ports.filter fun p => p.2.hrstWait != 0).foldl (fun w p => w.updPort p.1 Port.resetPasses) w

/-- What the block does of itself in a cycle. [DESIGN CHOICE, log entry 2] -/
def cycleEnd (b : Block) : Block :=
  let b := cycleOver b
  let b := { b with work := cycleWork b b.work }
  let b := wakeWaiting (powerAdvance (selfWake (entryBegins (saveEnds (bootProceeds (boxReset b))))))
  dueReset (fillLanes (pump (startAdvance (resetsPass b))))

/-- Whether the block has its clocks (R55): from the moment it lowers CLK_REQ until CLK_OK is high again it uses none. -/
def clocked (b : Block) : Bool := b.work.fab.clkReq && b.work.fab.clkOk

/-- One control cycle of the block: in power-on reset, in PS3 and while it has no clocks the control clock stands, and a frozen
block does nothing (R55, R631). In PS3 only a voltage request can run out of time (R629).
[DESIGN CHOICE, log entry 2] -/
def tick (b : Block) : Block :=
  if b.st.inPor || !clocked b then b
  else if b.pwr.state == .ps3 then decideRank b 19
  else
    let b := b.updClk Clock.tick
    if b.pwr.frozen then b else (cycleEnd (waitForHost b)).after

end Sys2Proof.Machine
end

