-- ==== Sys2Proof/Safety.lean ====
section
/-! DEFINITION. What a safe run is, and the terms in which claims speak of a command's effect: what becomes of the shared
state, of the commands in flight and of the requests on the memory port. -/

namespace Sys2Proof

/-- Every step of a run of `n` steps from `s` ends in a next state: no fault and no refusal. -/
def Safe (n : Nat) (s : Machine.State) : Prop := ∃ t, core.run n s = .next t

/-- A state that some run from reset reaches, commands being added to the queue at any moment. -/
inductive Reachable : Machine.State → Prop where
  | reset : Reachable Machine.State.reset
  | arrive (s : Machine.State) (c : Instr) : Reachable s → Reachable { s with pending := s.pending ++ [c] }
  | step (s t : Machine.State) : Reachable s → Machine.step s = .next t → Reachable t

end Sys2Proof

namespace Sys2Proof.Machine

/-! ### What a command does -/

/-- Control clock and power stand: the block is neither frozen by a power failure nor in PS3. -/
abbrev State.live (s : State) : Prop := s.core.still = false

/-- `s` with the shared state `w`, after everything that `w` decides has followed in the same control cycle. -/
def State.settled (s : State) (w : Work) : State := { s with core := { s.core with work := afterWork s.core w } }

/-- Command `i` answers a next state: it changes the shared state alone, to one of which `P` holds, and what that decides
follows. -/
def Does (i : Instr) (s : State) (P : Work → Prop) : Prop := ∃ w, P w ∧ exec i s = .next (s.settled w)

/-- Command `i` answers a next state: it changes the block to one of which `P` holds, and what that decides follows. The
queue of commands stays. -/
def Acts (i : Instr) (s : State) (P : Block → Prop) : Prop := ∃ b, P b ∧ exec i s = .next { s with core := b.after }

/-- Command `i` answers a next state whose block satisfies `P`; the queue of commands stays. -/
def Sets (i : Instr) (s : State) (P : Block → Prop) : Prop := ∃ b, P b ∧ exec i s = .next { s with core := b }

/-- Command `i` answers a next state in which nothing of the shared state changed but what was decided already. -/
def Leaves (i : Instr) (s : State) : Prop := exec i s = .next (s.settled s.core.work)

/-- Command `i` answers a next state: `x` is left for the end of the control cycle, where `decideLate` says what becomes of it,
and nothing else changes but what was decided already. -/
def Defers (i : Instr) (s : State) (x : Late) : Prop :=
  Does i s fun w' => w' = { s.core.work with late := s.core.work.late ++ [x] }

/-- What the end of a control cycle makes of `x`: it changes the shared state alone, to one of which `P` holds. -/
def Decides (b : Block) (x : Late) (P : Work → Prop) : Prop := ∃ w, P w ∧ decideLate b x = { b with work := w }

/-! ### Commands in flight -/

/-- Command `c` is in flight, released for opcode `o`, and has neither ended nor been suspended. -/
abbrev Ready (w : Work) (o : Op) (c : Cmd) : Prop :=
  w.cmd c.id = some c ∧ c.phase = .released ∧ c.op = some o ∧ c.endStatus = none ∧ c.suspended = false

/-- Of the commands in flight, only command `c` changed: it is now `c'`. -/
def Turns (w : Work) (c c' : Cmd) (w' : Work) : Prop :=
  w'.cmd c.id = some c' ∧ ∀ j, j ≠ c.id → w'.cmd j = w.cmd j

/-- Of the commands in flight, only command `c` changed: it is to end with a status. -/
def Ends (w : Work) (c : Cmd) (st : Status) (w' : Work) : Prop := Turns w c { c with endStatus := some st } w'

/-- Command `c` of slice `n` is released (R171, R266, R321): it takes the next place in the order of release, keeps a watch slot only
where it is going to wait, holds on to the slot of its context, its run has started, and its slice is charged. -/
def Releases (e : Block) (w : Work) (c : Cmd) (n : Nat) (w' : Work) : Prop :=
  Turns w c { c with
    phase := .released, relOrder := w.nextOrder, waitDone := true, slotTaken := needsSlot w c, waiting := .none,
    relSlot := w.counterAt n c.ctx (fieldAt c.bytes 24 2) } w' ∧
  w'.runs = w.runs.map (fun r => if c.parent = some r.entry then { r with started := true } else r) ∧
  w'.nextOrder = w.nextOrder + 1 ∧
  (e.dct.cmdLimit n = 0 → w'.slice n = w.slice n) ∧
  (e.dct.cmdLimit n ≠ 0 → w'.slice n = { w.slice n with
    lvlCmd := max ((w.slice n).lvlCmd - 1)
      (min (w.slice n).lvlCmd (-((e.dct.cmdLimit n * (1 + e.dct.burstBeats n) : Nat) : Int))) }) ∧
  (∀ k, k ≠ n → w'.slice k = w.slice k) ∧
  { w' with cmds := w.cmds, nextOrder := w.nextOrder, slices := w.slices, runs := w.runs } = w

/-- Nothing but the commands in flight changed. -/
def OnlyCmds (w w' : Work) : Prop := { w' with cmds := w.cmds } = w

/-- Command `c` ends with a status, and nothing else of the shared state changes. -/
def JustEnds (w : Work) (c : Cmd) (st : Status) (w' : Work) : Prop := Ends w c st w' ∧ OnlyCmds w w'

/-- The commands in flight are as before, but for when their tiles returned to ready (R270). -/
def KeepsCmds (w w' : Work) : Prop :=
  w'.cmds.map (fun c => { c with readyAt := [] }) = w.cmds.map fun c => { c with readyAt := [] }

/-! ### Requests on the memory port -/

/-- A transfer is issued on behalf of slice `s`, or of the physical function where `s` is none: `dev` says which space, `why`
what it is for. It carries the slice's PASID in host space alone; its requests, one for each 256-byte window, take tags
that are not in use, and go out but where bus mastering is off and they are for host space (R64, R68, R70, R119). -/
def Asks (w : Work) (s : Option Nat) (op : MemOp) (dev : Bool) (addr len : Nat) (data : List Byte) (why : Purpose)
    (w' : Work) : Prop :=
  let r := newReq op dev addr len data why
  let tag := w.fab.tagsFor (pieces256 r.addr.toNat r.len).length
  w'.fab = w.fab.put { r with
    tag := tag, slice := if dev then none else s, owner := s,
    pasid := match s with
      | some n => if dev then 0 else (w.slice n).pasid
      | none => 0
    parts := r.cut tag (!dev && !w.fab.bme) }

/-- Request `p` of transfer `r` is outstanding, the transfer is not yet answered, and its answer is kept for a command of its own:
a read of entries, a completion record, a slot's save, or an object-table entry. Their tags name nothing else. -/
def Awaits (w : Work) (r : Req) (p : Part) : Prop :=
  r ∈ w.fab.reqs ∧ p ∈ r.parts ∧ (∀ x ∈ w.fab.reqs, x.tag = r.tag → x = r) ∧
  (∀ x ∈ w.fab.reqs, ∀ q ∈ x.parts, q.tag = p.tag → x = r ∧ q = p) ∧
  r.answer = none ∧ r.dead = false ∧ p.answer = none ∧ p.held = false ∧
  ((∃ k f n, r.why = .sqRead k f n) ∨ (∃ k d, r.why = .record k d) ∨ (∃ k, r.why = .slotSave k) ∨ ∃ i, r.why = .objEntry i)

/-- Only the transfer with a tag changed, among the transfers: it is now `r`. -/
def Answers (w : Work) (r : Req) (w' : Work) : Prop :=
  w'.req r.tag = some r ∧ ∀ t, t ≠ r.tag → w'.req t = w.req t

/-- Request `p` of transfer `r` becomes `f p`, and the transfer has its outcome once its last request is answered. -/
def PartBecomes (w : Work) (r : Req) (p : Part) (f : Part → Part) (w' : Work) : Prop :=
  Answers w { r.updPart p.tag f with answer := (r.updPart p.tag f).outcome } w'

/-- Slices are as before but for their dirty logs (R599, R600). -/
def LogsOnly (w w' : Work) : Prop :=
  ∀ n, { w'.slice n with hostLog := (w.slice n).hostLog, devLog := (w.slice n).devLog } = w.slice n

/-! ### Fences -/

/-- What an operation on a fence may touch: fences, stale counts, watches and waits of other chips with their counts of
dropped records, dirty logs, the port, messages, commands that wait, the sync registers, and what the end of the cycle decides. -/
def FenceFrame (w w' : Work) : Prop :=
  { w' with fab := w.fab, slices := w.slices, cmds := w.cmds, msgs := w.msgs, sync := w.sync, late := w.late } = w ∧
  ∀ n, { w'.slice n with
    fences := (w.slice n).fences, stale := (w.slice n).stale, watches := (w.slice n).watches,
    remoteWaits := (w.slice n).remoteWaits, watchDrops := (w.slice n).watchDrops, hostLog := (w.slice n).hostLog,
    devLog := (w.slice n).devLog } = w.slice n

/-- A fence after a signal of `v` (R302, R303, R305): a greater value is taken, and an error range that VALUE has reached is
cleared; 2^64 − 1 leaves VALUE and marks the fence with FENCE_SATURATED up to 2^64 − 1. -/
def signalledFence (f : Fence) (v : BitVec 64) : Fence :=
  if v = BitVec.allOnes 64 then
    if f.value = BitVec.allOnes 64 then f
    else { f with err := if f.err = 0 then St.fenceSaturated else f.err, errTop := BitVec.allOnes 64 }
  else
    let x := if f.value < v then v else f.value
    if f.err ≠ 0 ∧ f.errTop ≤ x then { value := x } else { f with value := x }

/-- Fence `i` of slice `s` becomes `f`, and the slice's stale count goes up where `stale` says so; no other fence and no
other count changes. Nothing is left for the end of the cycle but a look at the waits on that fence. -/
def FenceBecomes (w : Work) (s i : Nat) (f : Fence) (stale : Bool) (w' : Work) : Prop :=
  w'.fence s i = f ∧ (∀ n j, ¬(n = s ∧ j = i) → w'.fence n j = w.fence n j) ∧
  (∀ n, (w'.slice n).stale = (w.slice n).stale + if n = s ∧ stale = true then 1 else 0) ∧ FenceFrame w w' ∧
  (w'.late = w.late ∨ w'.late = w.late ++ [.resolve s i])

/-! ### The dictionary -/

/-- The request body in the host's window (R674). -/
def windowBody (b : Block) : List Byte := (List.range (12 + 4096)).map fun i => tblGet 0 b.dct.buf i

/-- The row that serves a request of operation `op` from the host's window, with no message brought along; the store takes what
SAVE writes. -/
def windowRow (op : Nat) : Instr :=
  if op = 2 then .dictWrite .bar0 0 0 []
  else if op = 3 then .dictInfo .bar0 0 0 []
  else if op = 4 then .dictSave .bar0 0 0 [] true
  else .dictRead .bar0 0 0 []

/-- The dictionary is free to serve, and the host's window has a request whose turn it is (R672). -/
abbrev WindowTurn (b : Block) : Prop := dictServes b = true ∧ b.st.halted = false ∧ b.dct.busy = true ∧ pathTurn b = some .bar0

/-- The host's window holds the answer to its request: STATUS, and the answer body with `data` (R669, R674). -/
def InWindow (b : Block) (st : Status) (data : List Byte) (b' : Block) : Prop :=
  let bytes := answerBytes (reqOf (windowBody b)) st data
  b'.dct.busy = false ∧ b'.dct.serving = none ∧ b'.dct.lastStatus = st ∧ b'.dct.requests = b.dct.requests + 1 ∧
  (∀ i, i < bytes.length → tblGet 0 b'.dct.buf i = bytes.getD i 0) ∧
  (∀ i, bytes.length ≤ i → tblGet 0 b'.dct.buf i = tblGet 0 b.dct.buf i)

/-- A request that is refused: no parameter changes. -/
def Aborts (b : Block) (st : Status) (b' : Block) : Prop :=
  InWindow b st [] b' ∧ b'.dct.vals = b.dct.vals ∧ b'.clk = b.clk ∧ b'.frm = b.frm ∧ b'.lnk = b.lnk

/-! ### Joiner cores -/

/-- Of the cores' local memories, only the `n` bytes of core `k` from `a` may have changed. -/
def OwnBytes (w : Work) (k a n : Nat) (w' : Work) : Prop :=
  ∀ i, (i < k * 2 ^ 18 + a ∨ k * 2 ^ 18 + a + n ≤ i) → tblGet 0 w'.jnr.mem i = tblGet 0 w.jnr.mem i

/-! ### The mailbox unit -/

/-- Outside the mailbox unit an access to a channel touches only what an interrupt of it takes: the port, the free values
drawn, and the bits set in this control cycle. -/
def BoxFrame (b b' : Block) : Prop :=
  { b' with
    mbx := b.mbx
    work := { b'.work with fab := b.work.fab, fresh := b.work.fresh, setNow := b.work.setNow } } = b

/-! ### Resets -/

/-- The block has gone through a full block reset, and a start has begun: warm where a start has completed since the last cold
start began, cold otherwise (R645 to R647). Of what it held it keeps the image of the firmware over a warm start. -/
def Restarted (b : Block) (cause : BitVec 4) (b' : Block) : Prop :=
  b'.st.warm = b.st.everDone ∧ b'.st.cause = cause ∧ b'.st.done = false ∧ b'.st.halted = false ∧ b'.st.loaded = false ∧
  b'.clk = {} ∧ b'.mbx = {} ∧ b'.frm = {} ∧ b'.dct = {} ∧ b'.mgmt = {} ∧
  b'.work.slices = [] ∧ b'.work.cmds = [] ∧ b'.work.tiles = [] ∧ b'.work.fab.reqs = [] ∧
  b'.work.jnr.image = if b.st.everDone then b.work.jnr.image else []

/-- A source of R644 finds no warm start under way, none that is about to complete, and fewer than three failures (R655, R656,
R661). -/
abbrev Settled (b : Block) : Prop :=
  mayComplete b = false ∧ (b.st.warm = false ∨ b.st.done = true) ∧ b.st.warmFails.toNat < 3

/-! ### Locks -/

/-- The table of locks has its canonical form, names locks 0 to 63 alone, and every holder is an identity that has access to
the locks (R459). -/
def LocksLawful (b : Block) : Prop :=
  tblWf none b.mbx.locks = true ∧ ∀ p ∈ b.mbx.locks, p.1 < 64 ∧ ∃ o : BitVec 8, p.2 = some o ∧ lockAccess o.toNat = true

end Sys2Proof.Machine
end

