-- ==== Sys2Proof/Certificates/Slice0/Obligations.lean ====
section
/-! DEFINITION. The statements for the provers: what each command does, what the machine keeps, what it starts from. -/

open Sys2Proof Sys2Proof.Machine

/-! ### Commands of the front end, the sync unit and the context commands -/

/-- NOP ends with OK and changes nothing else; QUEUE_CREATE reads its descriptor; QUEUE_DESTROY makes the number ABSENT, once
what the block had to write for the queue is written; CTX_LOAD and CTX_EVICT wait for the slot; all but NOP are rejected in
the states that R176 names (R176, R184, R186). -/
def Obligations.QueueAndContextCommands : Prop :=
  (∀ (s : State) (c : Cmd), s.live → Ready s.core.work .nop c →
    Does (.nop c.id) s (JustEnds s.core.work c St.ok)) ∧
  (∀ (s : State) (c : Cmd), s.live → Ready s.core.work .queueCreate c →
    (s.core.work.slice (actsOn c)).state = .active → (∀ n, c.slice = some n → n = actsOn c) →
    Does (.queueCreate c.id) s fun w =>
      Asks s.core.work c.slice .read (ptrDev (fieldAt c.bytes 32 8))
        (spaceAddr s.core (ptrDev (fieldAt c.bytes 32 8)) (ptrAddr (fieldAt c.bytes 32 8))) 64 [] (.queueDesc c.id) w ∧
      Turns s.core.work c { c with phase := .running } w ∧
      { w with fab := s.core.work.fab, cmds := s.core.work.cmds } = s.core.work) ∧
  (∀ (s : State) (c : Cmd), s.live → Ready s.core.work .queueCreate c →
    (s.core.work.slice (actsOn c)).state ≠ .active →
    Does (.queueCreate c.id) s (JustEnds s.core.work c St.stateReject)) ∧
  (∀ (s : State) (c : Cmd), s.live → Ready s.core.work .queueDestroy c →
    (s.core.work.slice (actsOn c)).state = .active → (s.core.work.queue (namedQueue c)).state ≠ .absent →
    namedQueue c ≠ c.qk → (s.core.work.queue (namedQueue c)).fetch = (s.core.work.queue (namedQueue c)).head →
    (s.core.work.queue (namedQueue c)).held = [] → (s.core.work.queue (namedQueue c)).kept = [] →
    (s.core.work.queue (namedQueue c)).closing = false →
    Does (.queueDestroy c.id) s fun w =>
      (∀ k, k ≠ namedQueue c → w.queue k = s.core.work.queue k) ∧
      ((s.core.work.queue (namedQueue c)).written = true → w.queue (namedQueue c) = {} ∧ Ends s.core.work c St.ok w) ∧
      ((s.core.work.queue (namedQueue c)).written = false →
        w.queue (namedQueue c) = { s.core.work.queue (namedQueue c) with closing := true } ∧
        Turns s.core.work c { c with phase := .running, waiting := .queue } w) ∧
      { w with cmds := s.core.work.cmds, queues := s.core.work.queues } = s.core.work) ∧
  (∀ (s : State) (c : Cmd), s.live → Ready s.core.work .queueDestroy c →
    ((s.core.work.slice (actsOn c)).state ≠ .active ∨ (s.core.work.queue (namedQueue c)).state = .absent ∨
      namedQueue c = c.qk ∨ (s.core.work.queue (namedQueue c)).fetch ≠ (s.core.work.queue (namedQueue c)).head ∨
      (s.core.work.queue (namedQueue c)).held ≠ [] ∨ (s.core.work.queue (namedQueue c)).kept ≠ [] ∨
      (s.core.work.queue (namedQueue c)).closing = true) →
    Does (.queueDestroy c.id) s (JustEnds s.core.work c St.stateReject)) ∧
  (∀ (s : State) (c : Cmd) (n : Nat), s.live → Ready s.core.work .ctxLoad c → c.slice = some n →
    (s.core.work.isResident n (namedCtx c) = false →
      Does (.ctxLoad c.id) s fun w =>
        Turns s.core.work c { c with phase := .running, waiting := .slot } w ∧ OnlyCmds s.core.work w) ∧
    (s.core.work.isResident n (namedCtx c) = true → Does (.ctxLoad c.id) s (JustEnds s.core.work c St.stateReject))) ∧
  (∀ (s : State) (c : Cmd) (n : Nat), s.live → Ready s.core.work .ctxEvict c → c.slice = some n →
    (s.core.work.isResident n (namedCtx c) = true → namedCtx c ≠ c.ctx →
      Does (.ctxEvict c.id) s fun w =>
        Turns s.core.work c { c with phase := .running, waiting := .slot } w ∧ OnlyCmds s.core.work w) ∧
    ((s.core.work.isResident n (namedCtx c) = false ∨ namedCtx c = c.ctx) →
      Does (.ctxEvict c.id) s (JustEnds s.core.work c St.stateReject)))

/-- QUERY of a slice that is OFF or FENCED writes 32 zero bytes; of a resident context of an ACTIVE slice the live
values of its record; of any other context of an ACTIVE slice it reads the record that holds the values last saved
(R154, R185). -/
def Obligations.QueryWritesTheRecord : Prop :=
  ∀ (s : State) (c : Cmd), s.live → Ready s.core.work .query c → mayIssue s.core.work c.slice (ptrDev (fieldAt c.bytes 32 8)) = true →
    let w := s.core.work
    let dev := ptrDev (fieldAt c.bytes 32 8)
    let at' := spaceAddr s.core dev (ptrAddr (fieldAt c.bytes 32 8))
    ((w.slice (actsOn c)).state = .off ∨ (w.slice (actsOn c)).state = .fenced →
      Does (.query c.id) s fun w' =>
        Asks w c.slice .write dev at' 32 (List.replicate 32 0) (.queryWrite c.id) w' ∧
        Turns w c { c with phase := .running, writesLeft := 1 } w' ∧ LogsOnly w w' ∧
        { w' with fab := w.fab, cmds := w.cmds, slices := w.slices } = w) ∧
    ((w.slice (actsOn c)).state = .active → w.isResident (actsOn c) (namedCtx c) = true →
      Does (.query c.id) s fun w' =>
        Asks w c.slice .write dev at' 32 (ctxValues (w.ctx (actsOn c) (namedCtx c))) (.queryWrite c.id) w' ∧
        Turns w c { c with phase := .running, writesLeft := 1 } w' ∧ LogsOnly w w' ∧
        { w' with fab := w.fab, cmds := w.cmds, slices := w.slices } = w) ∧
    ((w.slice (actsOn c)).state = .active → w.isResident (actsOn c) (namedCtx c) = false →
      Does (.query c.id) s fun w' =>
        Asks w (some (actsOn c)) .read false (ctxAddr w (actsOn c) (namedCtx c)) 32 [] (.queryRead c.id) w' ∧
        Turns w c { c with phase := .running } w' ∧ { w' with fab := w.fab, cmds := w.cmds } = w)

/-- A COUNTER_OP with SET, ADD or SUB changes what it names, a semaphore's CAPACITY or a counter of its context's
slot, to the value of R319 and ends with that operation's status; where its context has left that slot since its release, only
the status is left. WAIT_GE waits for the value, in a watch slot where it has to; with no slot free it is not released (R318, R319,
R321, R322, R342). `x` is the value before. It rests on the model's choices of log entry 12. -/
def Obligations.CounterCommands : Prop :=
  (∀ (s : State) (c : Cmd) (n x y : Nat) (st : Status) (i : Instr), s.live → Ready s.core.work .counterOp c →
    c.slice = some n →
    (i = .counterOpSet c.id ∧ fieldAt c.bytes 27 1 = 0 ∧ y = counterValue c ∧ st = St.ok ∨
     i = .counterOpAdd c.id ∧ fieldAt c.bytes 27 1 = 1 ∧
       (x + counterValue c < 2 ^ 32 ∧ y = x + counterValue c ∧ st = St.ok ∨
        2 ^ 32 ≤ x + counterValue c ∧ y = 2 ^ 32 - 1 ∧ st = St.counterSaturated) ∨
     i = .counterOpSub c.id ∧ fieldAt c.bytes 27 1 = 2 ∧
       (counterValue c ≤ x ∧ y = x - counterValue c ∧ st = St.ok ∨
        x < counterValue c ∧ y = 0 ∧ st = St.counterSaturated)) →
    counterLater s.core.work c = false →
    let w := s.core.work
    let k := fieldAt c.bytes 24 2
    (fieldAt c.bytes 26 1 = 1 → (w.sem n k).cap.toNat = x →
      Does i s fun w' =>
        w'.sem n k = { w.sem n k with cap := BitVec.ofNat 32 y } ∧
        (∀ m j, ¬(m = n ∧ j = k) → w'.sem m j = w.sem m j) ∧
        (∀ m, { w'.slice m with sems := (w.slice m).sems } = w.slice m) ∧
        Ends w c st w' ∧ { w' with cmds := w.cmds, slices := w.slices } = w) ∧
    (∀ slot v, fieldAt c.bytes 26 1 = 0 → c.relSlot = some (slot, (w.slot slot).load, v) →
      w.residentSlot n c.ctx = some slot → (tblGet 0 (w.slot slot).counters k).toNat = x →
      Does i s fun w' =>
        tblGet 0 (w'.slot slot).counters k = BitVec.ofNat 32 y ∧
        (∀ j, j ≠ k → tblGet 0 (w'.slot slot).counters j = tblGet 0 (w.slot slot).counters j) ∧
        { w'.slot slot with counters := (w.slot slot).counters } = w.slot slot ∧
        (∀ j, j ≠ slot → w'.slot j = w.slot j) ∧
        Ends w c st w' ∧ { w' with cmds := w.cmds, slots := w.slots } = w) ∧
    (∀ slot load v, fieldAt c.bytes 26 1 = 0 → c.relSlot = some (slot, load, v) → v.toNat = x →
      (w.residentSlot n c.ctx ≠ some slot ∨ (w.slot slot).load ≠ load) → Does i s (JustEnds w c st))) ∧
  (∀ (s : State) (c : Cmd) (n : Nat), s.live → Ready s.core.work .counterOp c → c.slice = some n →
    fieldAt c.bytes 27 1 = 3 → s.core.work.isResident n c.ctx = true →
    (counterValue c ≤ (counterOf s.core.work c).toNat →
      Does (.counterOpWaitGe c.id) s fun w =>
        Turns s.core.work c { c with phase := .running, waiting := .counter } w ∧ OnlyCmds s.core.work w) ∧
    ((counterOf s.core.work c).toNat < counterValue c →
      Does (.counterOpWaitGe c.id) s fun w =>
        Turns s.core.work c { c with phase := .running, waiting := .counter, slotTaken := true } w ∧
        OnlyCmds s.core.work w))

/-- FENCE_SIGNAL, FENCE_ADD and FENCE_READ of a fence in its slice's pool (R302, R305, R343): what becomes of the
fence, of the stale count and of the result registers. SEM_READ gives CAPACITY and HELD in SYN_RD_A, ABANDONED and the
number of records in SYN_RD_B; an operation on a slice that is OFF reports STATE_REJECT, and one whose index lies
beyond the pool BAD_COMMAND, and neither changes anything else (R343). A SIGIN update that no command waits for is
applied as a signal to its fence; one that names a slice that is OFF, or a fence at or above FENCE_COUNT, is dropped
and counted (R302, R309). It rests on the model's choices of log entries 17 and 29. -/
def Obligations.SyncRegisterOperations : Prop :=
  (∀ (s : State) (n i : Nat), s.live → (s.core.work.slice n).state ≠ .off → i < (s.core.work.slice n).fenceCount →
    let w := s.core.work
    let f := w.fence n i
    let v := w.sync.opValue
    (Does (.fenceSignal n i) s fun w' =>
        FenceBecomes w n i (signalledFence f v) (decide (v ≤ f.value ∧ v ≠ BitVec.allOnes 64)) w' ∧
        w'.sync = { w.sync with
          rdA := (signalledFence f v).value
          opStatus := if v = BitVec.allOnes 64 then St.fenceSaturated else St.ok }) ∧
    (v = 0 → Does (.fenceAdd n i) s fun w' =>
      FenceBecomes w n i f true w' ∧ w'.sync = { w.sync with opStatus := St.ok }) ∧
    (v ≠ 0 → f.value.toNat + v.toNat ≤ 2 ^ 64 - 2 → Does (.fenceAdd n i) s fun w' =>
      FenceBecomes w n i (signalledFence f (f.value + v)) false w' ∧ w'.sync = { w.sync with opStatus := St.ok }) ∧
    (v ≠ 0 → 2 ^ 64 - 2 < f.value.toNat + v.toNat → Does (.fenceAdd n i) s fun w' =>
      FenceBecomes w n i (signalledFence f (BitVec.allOnes 64)) false w' ∧
      w'.sync = { w.sync with opStatus := St.fenceSaturated }) ∧
    Does (.fenceRead n i) s fun w' =>
      { w' with sync := w.sync } = w ∧
      w'.sync = { w.sync with
        opStatus := St.ok, errStatus := f.err, rdA := f.value, rdB := if f.err = 0 then 0 else f.errTop }) ∧
  ((∀ (s : State) (n i : Nat), s.live → (s.core.work.slice n).state ≠ .off → i < (s.core.work.slice n).semCount →
    Does (.semRead n i) s fun w' =>
      { w' with sync := s.core.work.sync } = s.core.work ∧
      w'.sync = { s.core.work.sync with
        opStatus := St.ok
        rdA := (s.core.work.sem n i).cap ++ BitVec.ofNat 32 (s.core.work.sem n i).held
        rdB := BitVec.ofNat 64 (16 * (s.core.work.sem n i).holders.length +
          if (s.core.work.sem n i).abandoned then 1 else 0) }) ∧
  (∀ (s : State) (n i : Nat) (c : Instr), s.live →
    c ∈ [Instr.fenceSignal n i, .fenceAdd n i, .fenceRead n i, .semRead n i] →
    ((s.core.work.slice n).state = .off →
      Does c s fun w' => w' = { s.core.work with sync := { s.core.work.sync with opStatus := St.stateReject } }) ∧
    ((s.core.work.slice n).state ≠ .off → (s.core.work.slice n).fenceCount ≤ i → (s.core.work.slice n).semCount ≤ i →
      Does c s fun w' => w' = { s.core.work with sync := { s.core.work.sync with opStatus := St.badCommand } }))) ∧
  (∀ (s : State) (n i : Nat) (v : BitVec 64), s.live →
    ((s.core.work.slice n).state ≠ .off → i < (s.core.work.slice n).fenceCount →
      (∀ c ∈ s.core.work.cmds, awaitsSigin s.core.work c n i v = false) →
      Does (.siginUpdate n i v) s fun w' =>
        FenceBecomes s.core.work n i (signalledFence (s.core.work.fence n i) v)
          (decide (v ≤ (s.core.work.fence n i).value ∧ v ≠ BitVec.allOnes 64)) w') ∧
    (((s.core.work.slice n).state = .off ∨ (s.core.work.slice n).fenceCount ≤ i) →
      Does (.siginUpdate n i v) s fun w' =>
        w' = { s.core.work with sync := { s.core.work.sync with dropped := s.core.work.sync.dropped + 1 } }))

/-- A WATCH_ADD whose WATCH_ID is registered is rejected, and one that finds no slot ends with WATCH_FULL; a NOTIFY
watch of a local fence fires at once, with a record, where VALUE has reached its target, and is registered else, to be looked at
again at the end of the control cycle where the fence carries an error (R304, R307); a FORWARD or REMOTE watch is registered and
told to its chip where that is reachable, and ends with PEER_LOST where not (R325, R326, R327, R329 to R331). WATCH_CANCEL of a watch that is not registered is rejected; else it ends
with OK, the watch is gone, every other watch of the slice stays, and no other slice's watches change (R333). It rests
on the model's choices of log entry 20. -/
def Obligations.WatchCommands : Prop :=
  (∀ (s : State) (c : Cmd) (n : Nat), s.live → Ready s.core.work .watchAdd c → c.slice = some n →
    let w := s.core.work
    let x := watchOf c
    let f := w.fence n x.fence
    ((∃ y ∈ (w.slice n).watches, y.wid = x.wid) → Does (.watchAdd c.id) s (JustEnds w c St.stateReject)) ∧
    ((∀ y ∈ (w.slice n).watches, y.wid ≠ x.wid) → slotFree w n = false →
      Does (.watchAdd c.id) s (JustEnds w c St.watchFull)) ∧
    ((∀ y ∈ (w.slice n).watches, y.wid ≠ x.wid) → slotFree w n = true →
      (x.forward = false → x.remote = false → f.value < x.value →
        Does (.watchAdd c.id) s fun w' =>
          w'.slice n = { w.slice n with watches := (w.slice n).watches ++ [x] } ∧ (∀ k, k ≠ n → w'.slice k = w.slice k) ∧
          w'.late = (if f.err = 0 then w.late else w.late ++ [.resolve n x.fence]) ∧
          Ends w c St.ok w' ∧ { w' with cmds := w.cmds, slices := w.slices, late := w.late } = w) ∧
      (x.forward = false → x.remote = false → x.value ≤ f.value → x.ptr ≠ 0 → (w.slice n).state = .active →
        Does (.watchAdd c.id) s fun w' =>
          Asks w (some n) .write (ptrDev x.ptr.toNat) (spaceAddr s.core (ptrDev x.ptr.toNat) (ptrAddr x.ptr.toNat)) 32
            (watchBytes x St.ok f.value s.core.clk.beat) (.watchRecord n x.irq) w' ∧
          (w'.slice n).watches = (w.slice n).watches ∧ LogsOnly w w' ∧ Ends w c St.ok w' ∧
          { w' with cmds := w.cmds, slices := w.slices, fab := w.fab } = w) ∧
      ((x.forward = true ∨ x.remote = true) → s.core.frm.joined = true → reachable s.core x.chip = true →
        Does (.watchAdd c.id) s fun w' =>
          w'.slice n = { w.slice n with watches := (w.slice n).watches ++ [x] } ∧ (∀ k, k ≠ n → w'.slice k = w.slice k) ∧
          (x.forward = true → f.err = 0 → w'.msgs = (sendFence s.core x.chip n x.target none f.value w).msgs) ∧
          (x.forward = true → f.err ≠ 0 → w'.msgs =
            (sendFence s.core x.chip n x.target (some f.err) f.errTop (sendFence s.core x.chip n x.target none f.value w)).msgs) ∧
          (x.forward = false → w'.msgs = (sendWatchReg s.core n x w).msgs) ∧
          Ends w c St.ok w' ∧ { w' with cmds := w.cmds, slices := w.slices, msgs := w.msgs } = w) ∧
      ((x.forward = true ∨ x.remote = true) → (s.core.frm.joined = false ∨ reachable s.core x.chip = false) →
        (w.slice n).state = .active →
        Does (.watchAdd c.id) s fun w' =>
          (x.ptr = 0 → w'.fab = w.fab) ∧
          (x.ptr ≠ 0 → Asks w (some n) .write (ptrDev x.ptr.toNat)
            (spaceAddr s.core (ptrDev x.ptr.toNat) (ptrAddr x.ptr.toNat)) 32
            (watchBytes x St.peerLost (if x.remote then 0 else f.value) s.core.clk.beat) (.watchRecord n x.irq) w') ∧
          (w'.slice n).watches = (w.slice n).watches ∧ LogsOnly w w' ∧ Ends w c St.ok w' ∧
          { w' with cmds := w.cmds, slices := w.slices, fab := w.fab } = w))) ∧
  (∀ (s : State) (c : Cmd) (n : Nat), s.live → Ready s.core.work .watchCancel c → c.slice = some n →
    let w := s.core.work
    let wid := fieldAt c.bytes 52 2
    ((∀ y ∈ (w.slice n).watches, y.wid ≠ wid) → Does (.watchCancel c.id) s (JustEnds w c St.stateReject)) ∧
    ((∃ y ∈ (w.slice n).watches, y.wid = wid) → (∀ y ∈ (w.slice n).watches, y.fired = none) →
      Does (.watchCancel c.id) s fun w' =>
        (w'.slice n).watches = (w.slice n).watches.filter (fun y => !(y.wid == wid)) ∧
        (∀ k, k ≠ n → (w'.slice k).watches = (w.slice k).watches) ∧ FenceFrame { w with cmds := w'.cmds } w' ∧
        (∀ k, (w'.slice k).fences = (w.slice k).fences ∧ (w'.slice k).stale = (w.slice k).stale) ∧
        Ends w c St.ok w'))

/-- A FENCE message applies a signal to the fence it names, or leaves an error mark for the end of the control cycle, behind every
signal, or is dropped and counted; a message is taken once (R303, R307, R496). What the mark does then is R303's: it is stale where
VALUE has reached its target, else the fence takes it, and an earlier error keeps its status. WATCH_REG registers a wait of another
chip while VALUE has not reached it, to be looked at again at the end of the cycle where the fence carries an error, and answers at
once where VALUE has, where no slot is free or where the slice is FENCED; WATCH_NOTIFY ends this chip's REMOTE watch;
WATCH_DROP takes out the waits that its sender registered here (R330, R497). It rests on the model's choices of log
entries 20 and 28. -/
def Obligations.FenceAndWatchMessages : Prop :=
  (∀ (s : State) (x : Nat × Nat × Msg), s.live → s.core.work.msgs.inbox.find? (fun y => y.2.2.typ == 0x10) = some x →
    let m := x.2.2
    let n := m.slice.toNat
    let i := m.field 8 2
    let v := BitVec.ofNat 64 (m.field 16 8)
    let w := { s.core.work with msgs := { s.core.work.msgs with inbox := s.core.work.msgs.inbox.erase x } }
    ((w.slice n).state ≠ .off → i < (w.slice n).fenceCount → (m.field 10 1).testBit 0 = false →
      Does .fenceMessage s (FenceBecomes w n i (signalledFence (w.fence n i) v)
        (decide (v ≤ (w.fence n i).value ∧ v ≠ BitVec.allOnes 64)))) ∧
    ((w.slice n).state ≠ .off → i < (w.slice n).fenceCount → (m.field 10 1).testBit 0 = true →
      Does .fenceMessage s fun w' => w' = { w with late := w.late ++ [.mark n i (BitVec.ofNat 16 (m.field 12 2)) (some v)] }) ∧
    (((w.slice n).state = .off ∨ (w.slice n).fenceCount ≤ i) →
      Does .fenceMessage s fun w' => w' = { w with sync := { w.sync with dropped := w.sync.dropped + 1 } })) ∧
  (∀ (b : Block) (n i : Nat) (st : Status) (v : BitVec 64),
    let f := b.work.fence n i
    Decides b (.mark n i st (some v))
      (FenceBecomes b.work n i
        (if v ≤ f.value then f
         else if f.err = 0 then { f with err := st, errTop := v }
         else { f with errTop := BitVec.ofNat 64 (max f.errTop.toNat v.toNat) })
        (decide (v ≤ f.value)))) ∧
  ((∀ (s : State) (x : Nat × Nat × Msg), s.live → s.core.work.msgs.inbox.find? (fun y => y.2.2.typ == 0x11) = some x →
    let m := x.2.2
    let n := m.slice.toNat
    let i := m.field 8 2
    let wid := m.field 10 2
    let v := BitVec.ofNat 64 (m.field 16 8)
    let w := { s.core.work with msgs := { s.core.work.msgs with inbox := s.core.work.msgs.inbox.erase x } }
    ((w.slice n).state = .fenced →
      Does .watchReg s fun w' => w' = sendWatchDrop s.core m.src.toNat n wid St.pasidRevoked w) ∧
    ((w.slice n).state = .active → i < (w.slice n).fenceCount →
      (slotFree w n = false →
        Does .watchReg s fun w' => w' = sendWatchNotify s.core m.src.toNat n wid St.watchFull (w.fence n i).value w) ∧
      (slotFree w n = true → v ≤ (w.fence n i).value →
        Does .watchReg s fun w' => w' = sendWatchNotify s.core m.src.toNat n wid St.ok (w.fence n i).value w) ∧
      (slotFree w n = true → (w.fence n i).value < v →
        Does .watchReg s fun w' =>
          w'.slice n = { w.slice n with
            remoteWaits := (w.slice n).remoteWaits ++ [{ src := m.src.toNat, wid := wid, fence := i, value := v }] } ∧
          (∀ k, k ≠ n → w'.slice k = w.slice k) ∧
          w'.late = (if (w.fence n i).err = 0 then w.late else w.late ++ [.resolve n i]) ∧
          { w' with slices := w.slices, late := w.late } = w))) ∧
  (∀ (s : State) (x : Nat × Nat × Msg) (y : Watch), s.live →
    s.core.work.msgs.inbox.find? (fun y => y.2.2.typ == 0x12) = some x →
    let m := x.2.2
    let n := m.slice.toNat
    let w := { s.core.work with msgs := { s.core.work.msgs with inbox := s.core.work.msgs.inbox.erase x } }
    remoteWatch w n (m.field 8 2) m.src.toNat = some y → (w.slice n).state = .active → y.ptr ≠ 0 →
    Does .watchNotify s fun w' =>
      Asks w (some n) .write (ptrDev y.ptr.toNat) (spaceAddr s.core (ptrDev y.ptr.toNat) (ptrAddr y.ptr.toNat)) 32
        (watchBytes y (BitVec.ofNat 16 (m.field 10 2)) (BitVec.ofNat 64 (m.field 16 8)) s.core.clk.beat) (.watchRecord n y.irq) w' ∧
      (w'.slice n).watches = (w.slice n).watches.filter (fun z => !(z.wid == y.wid)) ∧
      (∀ k, k ≠ n → (w'.slice k).watches = (w.slice k).watches) ∧
      { w' with slices := w.slices, fab := w.fab } = w) ∧
  (∀ (s : State) (x : Nat × Nat × Msg) (r : RemoteWait), s.live →
    s.core.work.msgs.inbox.find? (fun y => y.2.2.typ == 0x13) = some x →
    let m := x.2.2
    let n := m.slice.toNat
    let w := { s.core.work with msgs := { s.core.work.msgs with inbox := s.core.work.msgs.inbox.erase x } }
    r ∈ (w.slice n).remoteWaits → r.src = m.src.toNat → r.wid = m.field 8 2 →
    Does .watchDrop s fun w' =>
      (w'.slice n).remoteWaits = (w.slice n).remoteWaits.filter (fun z => !(z.src == m.src.toNat && z.wid == m.field 8 2)) ∧
      { w'.slice n with remoteWaits := (w.slice n).remoteWaits } = w.slice n ∧
      (∀ k, k ≠ n → w'.slice k = w.slice k) ∧ { w' with slices := w.slices } = w))

/-- A released SEM_ACQUIRE whose units are free, with no acquire of its semaphore before it and no holder of it under teardown, whose
units R342 would release first, takes them at once and ends with OK:
COUNT is added to its context's holding, and no other holding, semaphore, slice or command changes; on an abandoned
semaphore it ends with SEM_ABANDONED, takes no units and clears the mark (R312, R314, R317). A SEM_RELEASE of at most
what its context holds takes COUNT off that holding, frees a record that reaches 0 and ends with OK; any other is rejected
(R315). -/
def Obligations.SemaphoreUnits : Prop :=
  (∀ (s : State) (c : Cmd) (n : Nat), s.live → Ready s.core.work .semAcquire c → c.slice = some n →
    let w := s.core.work
    let i := semIndex c.bytes
    (w.sem n i).held + semUnits c.bytes ≤ (w.sem n i).cap.toNat →
    ((∃ p ∈ (w.sem n i).holders, p.1 = c.ctx) ∨ (w.sem n i).holders.length < 16) →
    (w.ctx n c.ctx).stopped = false → (∀ d ∈ w.cmds, d.id ≠ c.id → d.acquiring = true → sameSem c d = false) →
    (∀ t ∈ w.cap.teardowns, t.slice = n → (w.sem n i).holding t.ctx = 0) →
    ((w.sem n i).abandoned = false →
      Does (.semAcquire c.id) s fun w' =>
        (w'.sem n i).holding c.ctx = (w.sem n i).holding c.ctx + semUnits c.bytes ∧
        (∀ d, d ≠ c.ctx → (w'.sem n i).holding d = (w.sem n i).holding d) ∧
        (w'.sem n i).cap = (w.sem n i).cap ∧ (w'.sem n i).abandoned = false ∧
        (∀ k j, ¬(k = n ∧ j = i) → w'.sem k j = w.sem k j) ∧
        (∀ k, { w'.slice k with sems := (w.slice k).sems } = w.slice k) ∧
        Ends w c St.ok w' ∧ w'.nextOrder = w.nextOrder + 1 ∧
        { w' with cmds := w.cmds, slices := w.slices, nextOrder := w.nextOrder } = w) ∧
    ((w.sem n i).abandoned = true →
      Does (.semAcquire c.id) s fun w' =>
        w'.sem n i = { w.sem n i with abandoned := false } ∧
        (∀ k j, ¬(k = n ∧ j = i) → w'.sem k j = w.sem k j) ∧
        (∀ k, { w'.slice k with sems := (w.slice k).sems } = w.slice k) ∧
        Ends w c St.semAbandoned w' ∧ w'.nextOrder = w.nextOrder + 1 ∧
        { w' with cmds := w.cmds, slices := w.slices, nextOrder := w.nextOrder } = w)) ∧
  (∀ (s : State) (c : Cmd) (n : Nat), s.live → Ready s.core.work .semRelease c → c.slice = some n →
    let w := s.core.work
    let i := semIndex c.bytes
    (semUnits c.bytes ≤ (w.sem n i).holding c.ctx →
      Does (.semRelease c.id) s fun w' =>
        (w'.sem n i).holding c.ctx = (w.sem n i).holding c.ctx - semUnits c.bytes ∧
        (semUnits c.bytes = (w.sem n i).holding c.ctx → ∀ p ∈ (w'.sem n i).holders, p.1 ≠ c.ctx) ∧
        (∀ d, d ≠ c.ctx → (w'.sem n i).holding d = (w.sem n i).holding d) ∧
        (w'.sem n i).cap = (w.sem n i).cap ∧ (w'.sem n i).abandoned = (w.sem n i).abandoned ∧
        (∀ k j, ¬(k = n ∧ j = i) → w'.sem k j = w.sem k j) ∧
        (∀ k, { w'.slice k with sems := (w.slice k).sems } = w.slice k) ∧
        Ends w c St.ok w' ∧ { w' with cmds := w.cmds, slices := w.slices } = w) ∧
    ((w.sem n i).holding c.ctx < semUnits c.bytes → Does (.semRelease c.id) s (JustEnds w c St.stateReject)))

/-- A released SEM_ACQUIRE that is not to be granted begins to wait, in the watch slot that its release took (R314, R322). A grant (R312, R314, R317) comes only where COUNT units
are free and a record is; COUNT is added to the context's holding, so that holders never hold more than CAPACITY; a grant
on an abandoned semaphore ends with SEM_ABANDONED, gives no units and clears the mark. It rests on the model's choices
of log entries 12 and 13. -/
def Obligations.SemaphoreCommands : Prop :=
  (∀ (s : State) (c : Cmd) (n : Nat), s.live → Ready s.core.work .semAcquire c → c.slice = some n →
    let w := s.core.work
    let c' := { c with phase := .running, waiting := .sem, relOrder := w.nextOrder }
    acquireReady w c' = false →
    Does (.semAcquire c.id) s fun w' =>
      Turns w c { c' with slotTaken := true } w' ∧ w'.nextOrder = w.nextOrder + 1 ∧
      { w' with cmds := w.cmds, nextOrder := w.nextOrder } = w) ∧
  (∀ (w : Work) (c : Cmd) (n : Nat), c.slice = some n → w.cmd c.id = some c → acquireFits w c = true →
    let m := w.sem n (semIndex c.bytes)
    let m' := (grantAcquire c w).sem n (semIndex c.bytes)
    (m.held + semUnits c.bytes ≤ m.cap.toNat) ∧
    (m.abandoned = false → (m.holders.map Prod.fst).Nodup →
      m'.holding c.ctx = m.holding c.ctx + semUnits c.bytes ∧ m'.held = m.held + semUnits c.bytes ∧ m'.held ≤ m'.cap.toNat ∧
      (∀ d, d ≠ c.ctx → m'.holding d = m.holding d) ∧ (m'.holders.map Prod.fst).Nodup ∧
      ((grantAcquire c w).cmd c.id).bind Cmd.endStatus = some St.ok) ∧
    (m.abandoned = true → m' = { m with abandoned := false } ∧
      ((grantAcquire c w).cmd c.id).bind Cmd.endStatus = some St.semAbandoned))

/-- OBJ_CREATE takes the first free index, makes the object live there with the fields of its body and the index's
generation, charges its size to the context and writes the handle at RESULT_PTR; with no free index it ends with
OBJ_TABLE_FULL (R225, R229, R232). The table serves an OBJ_FREE at the end of its control cycle, behind the checks and releases of
the cycle (R228): that of a handle that is not live is rejected; else the object is marked free-pending and its generation rises,
past 255 to 1. While something refers to it the command waits; else it is
reclaimed: its charge leaves its context, its index goes back last, and the command ends with OK (R220, R236, R237).
It rests on the model's choices of log entry 29. -/
def Obligations.ObjectCommands : Prop :=
  (∀ (s : State) (c : Cmd) (n : Nat), s.live → Ready s.core.work .objCreate c → c.slice = some n →
    let w := s.core.work
    ((w.slice n).freeIdx = [] → Does (.objCreate c.id) s (JustEnds w c St.objTableFull)) ∧
    (∀ i rest, (w.slice n).freeIdx = i :: rest → (w.slice n).state = .active →
      Does (.objCreate c.id) s fun w' =>
        (w'.slice n).freeIdx = rest ∧
        (w'.obj i).live = true ∧ (w'.obj i).pend = false ∧ (w'.obj i).gen = (w.obj i).gen ∧
        (w'.obj i).own = (w.obj i).gen ∧ (w'.obj i).slice = n ∧
        (w'.obj i).ctx = c.ctx ∧ (w'.obj i).size = fieldAt c.bytes 32 8 ∧
        (w'.obj i).base = ptrAddr (fieldAt c.bytes 24 8) ∧ (w'.obj i).dev = ptrDev (fieldAt c.bytes 24 8) ∧
        (w'.obj i).fmt = fieldAt c.bytes 48 1 ∧ (w'.obj i).scale = BitVec.ofNat 32 (fieldAt c.bytes 52 4) ∧
        (w'.obj i).refs = 0 ∧ (w'.obj i).stream = false ∧
        (∀ j, j ≠ i → w'.obj j = w.obj j) ∧
        (w'.ctx n c.ctx).memBytes = (w.ctx n c.ctx).memBytes + BitVec.ofNat 64 (fieldAt c.bytes 32 8) ∧
        Asks w (some n) .write (ptrDev (fieldAt c.bytes 40 8))
          (spaceAddr s.core (ptrDev (fieldAt c.bytes 40 8)) (ptrAddr (fieldAt c.bytes 40 8))) 32
          (leBytes 4 ((w.obj i).gen * 2 ^ 24 + i) ++ List.replicate 28 0) (.createWrite c.id) w' ∧
        Turns w c { c with phase := .running, writesLeft := 1, auxNat := (w.obj i).gen * 2 ^ 24 + i } w' ∧
        (∀ k, k ≠ n → w'.slice k = w.slice k) ∧
        { w'.slice n with
          freeIdx := (w.slice n).freeIdx, ctxs := (w.slice n).ctxs, hostLog := (w.slice n).hostLog,
          devLog := (w.slice n).devLog } = w.slice n ∧
        { w' with fab := w.fab, cmds := w.cmds, slices := w.slices, objs := w.objs } = w)) ∧
  (∀ (s : State) (c : Cmd), s.live → Ready s.core.work .objFree c →
    Does (.objFree c.id) s fun w' =>
      Turns s.core.work c { c with phase := .running } w' ∧
      { w' with cmds := s.core.work.cmds } = { s.core.work with late := s.core.work.late ++ [.objFree c.id] }) ∧
  (∀ (b : Block) (c : Cmd) (n : Nat), b.work.cmd c.id = some c → c.endStatus = none → c.slice = some n →
    let w := b.work
    let h := fieldAt c.bytes 24 4
    let i := hIndex h
    let g := if (w.obj i).gen < 255 then (w.obj i).gen + 1 else 1
    (handleLive w n h = false → Decides b (.objFree c.id) (JustEnds w c St.stateReject)) ∧
    (handleLive w n h = true → (w.obj i).refs ≠ 0 →
      Decides b (.objFree c.id) fun w' =>
        w'.obj i = { w.obj i with pend := true, gen := g, freer := some c.id } ∧ (∀ j, j ≠ i → w'.obj j = w.obj j) ∧
        Turns w c { c with waiting := .reclaim, timer := none } w' ∧
        { w' with cmds := w.cmds, objs := w.objs } = w) ∧
    (handleLive w n h = true → (w.obj i).refs = 0 → (w.obj i).stream = false →
      Decides b (.objFree c.id) fun w' =>
        w'.obj i = { gen := g, cached := (w.obj i).cached } ∧ (∀ j, j ≠ i → w'.obj j = w.obj j) ∧
        (w'.slice n).freeIdx = (w.slice n).freeIdx ++ [i] ∧
        (w'.ctx n (w.obj i).ctx).memBytes = (w.ctx n (w.obj i).ctx).memBytes - BitVec.ofNat 64 (w.obj i).size ∧
        Turns w c { c with waiting := .reclaim, timer := none, endStatus := some St.ok } w' ∧
        (∀ k, k ≠ n → w'.slice k = w.slice k) ∧ { w' with cmds := w.cmds, objs := w.objs, slices := w.slices } = w))

/-- STREAM_CREATE takes an index and a stream descriptor, makes the stream live at position 0 with no pages, charges its size,
and writes its header and its result; with no index it ends with OBJ_TABLE_FULL, with no descriptor or at its slice's quota
with STREAM_TABLE_FULL (R242 to R245). STREAM_MAP outside the rules of R250 ends with OBJ_RANGE; else the pages become those
of the entries, in place of what stood there, and the context is charged for the pages added (R250, R251). A header write
waits for an earlier one of its stream (log entry 62, the model's reading of R71 and R247). It rests on the model's choices of
log entry 29. -/
def Obligations.StreamCommands : Prop :=
  (∀ (s : State) (c : Cmd) (n : Nat), s.live → Ready s.core.work .streamCreate c → c.slice = some n →
    let w := s.core.work
    ((w.slice n).freeIdx = [] → Does (.streamCreate c.id) s (JustEnds w c St.objTableFull)) ∧
    ((w.slice n).freeIdx ≠ [] → (w.streamFree = [] ∨ s.core.dct.streamQuota n ≤ liveStreams w n) →
      Does (.streamCreate c.id) s (JustEnds w c St.streamTableFull)) ∧
    (∀ i rest d descs, (w.slice n).freeIdx = i :: rest → w.streamFree = d :: descs →
      liveStreams w n < s.core.dct.streamQuota n → (w.slice n).state = .active → s.core.dct.posMirror n = 0 →
      Does (.streamCreate c.id) s fun w' =>
        (w'.slice n).freeIdx = rest ∧ w'.streamFree = descs ∧
        (w'.obj i).live = true ∧ (w'.obj i).stream = true ∧ (w'.obj i).desc = d ∧ (w'.obj i).gen = (w.obj i).gen ∧
        (w'.obj i).own = (w.obj i).gen ∧ (w'.obj i).hdrBusy = true ∧
        (w'.obj i).tok = 0 ∧ (w'.obj i).pages = [] ∧ (w'.obj i).faulted = false ∧
        (w'.obj i).tpp = fieldAt c.bytes 50 1 ∧ (w'.obj i).size = fieldAt c.bytes 32 8 ∧ (w'.obj i).slice = n ∧
        (∀ j, j ≠ i → w'.obj j = w.obj j) ∧
        (w'.ctx n c.ctx).memBytes = (w.ctx n c.ctx).memBytes + BitVec.ofNat 64 (fieldAt c.bytes 32 8) ∧
        (∃ v, (v.slice n).pasid = (w.slice n).pasid ∧
          Asks w (some n) .write true (spaceAddr s.core true (ptrAddr (fieldAt c.bytes 24 8))) 64
            (headerBytes s.core i (w'.obj i)) (.header i c.id) v ∧
          Asks v (some n) .write (ptrDev (fieldAt c.bytes 40 8))
            (spaceAddr s.core (ptrDev (fieldAt c.bytes 40 8)) (ptrAddr (fieldAt c.bytes 40 8))) 32
            (leBytes 4 ((w.obj i).gen * 2 ^ 24 + i) ++ leBytes 2 d ++ List.replicate 26 0) (.createWrite c.id) w') ∧
        Turns w c { c with phase := .running, writesLeft := 2, auxNat := (w.obj i).gen * 2 ^ 24 + i } w' ∧
        (∀ k, k ≠ n → w'.slice k = w.slice k) ∧
        { w' with fab := w.fab, cmds := w.cmds, slices := w.slices, objs := w.objs, streamFree := w.streamFree } = w)) ∧
  (∀ (s : State) (c : Cmd) (n : Nat), s.live → Ready s.core.work .streamMap c → c.slice = some n →
    let w := s.core.work
    let i := hIndex (fieldAt c.bytes 24 4)
    let ix := fieldAt c.bytes 28 4
    let new := mapPages c.bytes
    (mapOk s.core.dct n (w.obj i) c.bytes = false → Does (.streamMap c.id) s (JustEnds w c St.objRange)) ∧
    (mapOk s.core.dct n (w.obj i) c.bytes = true → (w.slice n).state = .active →
      Does (.streamMap c.id) s fun w' =>
        w'.obj i = { w.obj i with
          pages := if new = [] then (w.obj i).pages.take ix
            else (w.obj i).pages.take ix ++ new ++ (w.obj i).pages.drop (ix + new.length)
          hdrBusy := true
          hdrDue := if (w.obj i).hdrBusy then (w.obj i).hdrDue ++ [c.id] else (w.obj i).hdrDue } ∧
        (∀ j, j ≠ i → w'.obj j = w.obj j) ∧
        (w'.ctx n (w.obj i).ctx).memBytes = (w.ctx n (w.obj i).ctx).memBytes +
          BitVec.ofInt 64 ((((w'.obj i).pages.length : Int) - ((w.obj i).pages.length : Int)) * 65536) ∧
        (∃ v, (v.slice n).pasid = (w.slice n).pasid ∧ (new = [] → v.fab = w.fab) ∧
          (new ≠ [] → Asks w (some n) .write true (spaceAddr s.core true ((w.obj i).base + 64 + 8 * ix)) (pageBytes new).length
            (pageBytes new) (.mapWrite c.id) v) ∧
          ((w.obj i).hdrBusy = true → w'.fab = v.fab) ∧
          ((w.obj i).hdrBusy = false → Asks v (some n) .write true (spaceAddr s.core true (w.obj i).base) 64
            (headerBytes s.core i (w'.obj i)) (.header i c.id) w')) ∧
        Turns w c { c with phase := .running, writesLeft := if new = [] then 1 else 2 } w' ∧
        (∀ k, k ≠ n → w'.slice k = w.slice k) ∧
        { w' with fab := w.fab, cmds := w.cmds, slices := w.slices, objs := w.objs } = w))

/-- A STREAM_ADVANCE of one stream of a slice without a mirror moves TOK by DELTA in one step and writes the header;
past the mapped pages it ends with OBJ_RANGE, of a faulted stream with STATE_REJECT, and neither moves anything; past
the stream limit it faults the stream, moves nothing, and carries STREAM_LIMIT. One with a list reads it (R253 to
R256). A header write waits for an earlier one of its stream. It rests on the model's choices of log entries 29 and 62. -/
def Obligations.StreamAdvancing : Prop :=
  ∀ (s : State) (c : Cmd) (n : Nat), s.live → Ready s.core.work .streamAdvance c → c.slice = some n →
    s.core.dct.posMirror n = 0 → (s.core.work.slice n).state = .active →
    let w := s.core.work
    let i := hIndex (fieldAt c.bytes 24 4)
    let delta := fieldAt c.bytes 28 4
    let pos := (w.obj i).tok + delta
    let mapped := (w.obj i).pages.length * 2 ^ (w.obj i).tpp
    (fieldAt c.bytes 40 8 = 0 → 1 ≤ delta → delta ≤ 2 ^ 31 →
      ((w.obj i).faulted = false → pos < 2 ^ 32 - 1 → pos ≤ mapped →
        Does (.streamAdvance c.id) s fun w' =>
          w'.obj i = { w.obj i with
            tok := pos
            hdrBusy := true
            hdrDue := if (w.obj i).hdrBusy then (w.obj i).hdrDue ++ [c.id] else (w.obj i).hdrDue } ∧
          (∀ j, j ≠ i → w'.obj j = w.obj j) ∧ ((w.obj i).hdrBusy = true → w'.fab = w.fab) ∧
          ((w.obj i).hdrBusy = false → Asks w (some n) .write true (spaceAddr s.core true (w.obj i).base) 64
            (headerBytes s.core i (w'.obj i)) (.header i c.id) w') ∧
          Turns w c { c with phase := .running, aux := bytesAt c.bytes 24 8, auxNat := 2, writesLeft := 1 } w' ∧
          LogsOnly w w' ∧ { w' with fab := w.fab, cmds := w.cmds, slices := w.slices, objs := w.objs } = w) ∧
      ((w.obj i).faulted = true → Does (.streamAdvance c.id) s fun w' =>
        Turns w c { c with phase := .running, aux := bytesAt c.bytes 24 8, endStatus := some St.stateReject } w' ∧
        OnlyCmds w w') ∧
      ((w.obj i).faulted = false → pos < 2 ^ 32 - 1 → mapped < pos → Does (.streamAdvance c.id) s fun w' =>
        Turns w c { c with phase := .running, aux := bytesAt c.bytes 24 8, endStatus := some St.objRange } w' ∧
        OnlyCmds w w') ∧
      ((w.obj i).faulted = false → 2 ^ 32 - 1 ≤ pos → Does (.streamAdvance c.id) s fun w' =>
        w'.obj i = { w.obj i with
          faulted := true
          hdrBusy := true
          hdrDue := if (w.obj i).hdrBusy then (w.obj i).hdrDue ++ [c.id] else (w.obj i).hdrDue } ∧
        (∀ j, j ≠ i → w'.obj j = w.obj j) ∧ ((w.obj i).hdrBusy = true → w'.fab = w.fab) ∧
        ((w.obj i).hdrBusy = false → Asks w (some n) .write true (spaceAddr s.core true (w.obj i).base) 64
          (headerBytes s.core i (w'.obj i)) (.header i c.id) w') ∧
        Turns w c { c with phase := .running, aux := bytesAt c.bytes 24 8, auxNat := 3, writesLeft := 1, badStatus := St.streamLimit } w' ∧
        LogsOnly w w' ∧ { w' with fab := w.fab, cmds := w.cmds, slices := w.slices, objs := w.objs } = w)) ∧
    (fieldAt c.bytes 40 8 ≠ 0 → Does (.streamAdvance c.id) s fun w' =>
      Asks w (some n) .read (ptrDev (fieldAt c.bytes 40 8))
        (spaceAddr s.core (ptrDev (fieldAt c.bytes 40 8)) (ptrAddr (fieldAt c.bytes 40 8))) (8 * fieldAt c.bytes 32 2) []
        (.advanceList c.id) w' ∧
      Turns w c { c with phase := .running, aux := [] } w' ∧ { w' with fab := w.fab, cmds := w.cmds } = w)

/-- GRAPH reads its packet's header; GRAPH_LOAD does too, its GRAPH_ID counting as resident from then, and is rejected
where it is resident already (R187, R193, R198). At its turn, GRAPH_UNLOAD frees the resident copy and ends with OK;
RELAUNCH with a list reads it; one with inline patches outside R201, of a graph that declares no signal, ends with
PATCH_RANGE and leaves the copy; one without patches starts a run of the copy as it stands. Of a graph that is not
resident at their release both are rejected, and before their turn, or while the graph still loads, both are held (R176, R198
to R202). It rests on the model's choices of log
entries 9, 12 and 51. -/
def Obligations.GraphCommands : Prop :=
  ((∀ (s : State) (c : Cmd) (n : Nat), s.live → Ready s.core.work .graph c → c.slice = some n →
    (s.core.work.slice n).state = .active →
    Does (.graph c.id) s fun w =>
      Asks s.core.work (some n) .read (ptrDev (fieldAt c.bytes 24 8))
        (spaceAddr s.core (ptrDev (fieldAt c.bytes 24 8)) (ptrAddr (fieldAt c.bytes 24 8))) 64 [] (.packet c.id) w ∧
      Turns s.core.work c { c with phase := .running, aux := [] } w ∧
      { w with fab := s.core.work.fab, cmds := s.core.work.cmds } = s.core.work) ∧
  (∀ (s : State) (c : Cmd) (n : Nat), s.live → Ready s.core.work .graphLoad c → c.slice = some n →
    (s.core.work.slice n).state = .active → resident s.core.work n (fieldAt c.bytes 32 1) = none →
    loadReleased s.core.work n (fieldAt c.bytes 32 1) c = false →
    Does (.graphLoad c.id) s fun w =>
      Asks s.core.work (some n) .read (ptrDev (fieldAt c.bytes 24 8))
        (spaceAddr s.core (ptrDev (fieldAt c.bytes 24 8)) (ptrAddr (fieldAt c.bytes 24 8))) 64 [] (.packet c.id) w ∧
      resident w n (fieldAt c.bytes 32 1) = some { gid := fieldAt c.bytes 32 1, image := [], loading := true } ∧
      (∀ g, g ≠ fieldAt c.bytes 32 1 → resident w n g = resident s.core.work n g) ∧
      (∀ k, k ≠ n → w.slice k = s.core.work.slice k) ∧
      Turns s.core.work c { c with phase := .running, aux := [] } w ∧
      { w with fab := s.core.work.fab, cmds := s.core.work.cmds, slices := s.core.work.slices } = s.core.work) ∧
  (∀ (s : State) (c : Cmd) (n : Nat), s.live → Ready s.core.work .graphLoad c → c.slice = some n →
    (resident s.core.work n (fieldAt c.bytes 32 1) ≠ none ∨ loadReleased s.core.work n (fieldAt c.bytes 32 1) c = true) →
    Does (.graphLoad c.id) s (JustEnds s.core.work c St.stateReject))) ∧
  (∀ (s : State) (c : Cmd) (n : Nat), s.live → c.slice = some n →
    let w := s.core.work
    let g := fieldAt c.bytes 24 1
    let ptr := fieldAt c.bytes 32 8
    (Ready w .graphUnload c → notItsTurn w n c = false →
      (∀ r, resident w n g = some r → r.loading = false →
        Does (.graphUnload c.id) s fun w' =>
          resident w' n g = none ∧ (∀ k, k ≠ g → resident w' n k = resident w n k) ∧
          (∀ k, k ≠ n → w'.slice k = w.slice k) ∧ { w'.slice n with graphs := (w.slice n).graphs } = w.slice n ∧
          Ends w c St.ok w' ∧ { w' with cmds := w.cmds, slices := w.slices } = w) ∧
      (resident w n g = none → loadReleased w n g c = false →
        Does (.graphUnload c.id) s (JustEnds w c St.stateReject))) ∧
    (Ready w .relaunch c → notItsTurn w n c = false →
      (∀ r, resident w n g = some r → r.loading = false → (w.slice n).state = .active → ptr ≠ 0 → fieldAt c.bytes 26 2 ≠ 0 →
        Does (.relaunch c.id) s fun w' =>
          Asks w (some n) .read (ptrDev ptr) (spaceAddr s.core (ptrDev ptr) (ptrAddr ptr)) (16 * fieldAt c.bytes 26 2) []
            (.patchList c.id) w' ∧
          Turns w c { c with phase := .running, waiting := .none } w' ∧ { w' with fab := w.fab, cmds := w.cmds } = w) ∧
      (∀ r, resident w n g = some r → r.loading = false → ptr = 0 →
        (∃ k, k < fieldAt c.bytes 26 2 ∧ patchOk r.image (bytesAt c.bytes (64 + 16 * k) 16) = false) → packetDecl r.image = [] →
        Does (.relaunch c.id) s fun w' =>
          Turns w c { c with phase := .running, waiting := .none, endStatus := some St.patchRange } w' ∧ OnlyCmds w w') ∧
      (∀ r, resident w n g = some r → r.loading = false → fieldAt c.bytes 26 2 = 0 →
        Does (.relaunch c.id) s fun w' =>
          w'.runs = w.runs ++ [{
            entry := c.id, image := r.image, edges := packetEdges r.image,
            nodes := (nodesOf r.image).map fun _ => NodeSt.waiting, decl := packetDecl r.image, first := none, started := true,
            graphId := some g }] ∧
          resident w' n g = some r) ∧
      (resident w n g = none → loadReleased w n g c = false →
        Does (.relaunch c.id) s (JustEnds w c St.stateReject))) ∧
    (∀ i, (i = .graphUnload c.id ∧ Ready w .graphUnload c ∨ i = .relaunch c.id ∧ Ready w .relaunch c) →
      (∀ r, resident w n g = some r → (r.loading = true ∨ notItsTurn w n c = true) →
        Does i s fun w' => Turns w c { c with waiting := .turn } w' ∧ OnlyCmds w w') ∧
      (resident w n g = none → loadReleased w n g c = true →
        Does i s fun w' => Turns w c { c with waiting := .turn } w' ∧ OnlyCmds w w') ∧
      (resident w n g = none → loadReleased w n g c = false → c.waiting ≠ .turn → Does i s (JustEnds w c St.stateReject))))

/-- A fetched command whose turn in its queue has come, whose fence wait is met and whose context may release is
released: it takes the next place in the order of release, keeps a watch slot only where it is going to wait, holds on to the
slot of its context, and is charged to its slice; one that is going to wait and finds no watch slot is not released; one
whose wait lies in the fence's error range is looked at again at the end of the control cycle, and ends with that status where the
fence still carries it (R166, R171, R172, R266, R276, R304, R307, R321, R322); one whose wait is open registers it in a watch slot. An
acquire that is granted at once, and a WAIT_GE whose counter is high enough, is carried out with its release. A
table entry that has been read, of an object or of a stream's descriptor, enters the cache and its read is over (R227, R242).
It rests on the model's choices of log entry 12. -/
def Obligations.ReleaseOfCommands : Prop :=
  (∀ (s : State) (c : Cmd) (n : Nat), s.live → s.core.work.cmd c.id = some c → c.slice = some n → c.phase = .fetched →
    c.endStatus = none → c.suspended = false → c.waiting ≠ .table → heldByOrder s.core.work c = false →
    let w := s.core.work
    ((cWait c.bytes = false ∨ c.waitDone = true) → (w.slice n).state = .active ∨ (w.slice n).state = .draining →
      w.isResident n c.ctx = true → (w.ctx n c.ctx).stopped = false → sliceInReset w n = false →
      (s.core.dct.cmdLimit n = 0 ∨ 0 < (w.slice n).lvlCmd) → (needsSlot w c = false ∨ slotFree w n = true) →
      ((needsSlot w c = true ∨ c.op ≠ some .semAcquire ∧ ¬(c.op = some .counterOp ∧ fieldAt c.bytes 27 1 = 3)) →
        Does (.commandRelease c.id) s (Releases s.core w c n)) ∧
      (needsSlot w c = false → c.op = some .semAcquire →
        Does (.commandRelease c.id) s fun w' => ∃ v, Releases s.core w c n v ∧ w' = grantAcquire c v) ∧
      (needsSlot w c = false → c.op = some .counterOp → fieldAt c.bytes 27 1 = 3 →
        Does (.commandRelease c.id) s fun w' => ∃ v, Releases s.core w c n v ∧
          (v.cmd c.id).map (fun d => { d with endStatus := some St.ok }) = w'.cmd c.id ∧
          (∀ j, j ≠ c.id → w'.cmd j = v.cmd j) ∧ OnlyCmds v w')) ∧
    ((cWait c.bytes = false ∨ c.waitDone = true) → needsSlot w c = true → slotFree w n = false →
      Leaves (.commandRelease c.id) s) ∧
    (∀ st, cWait c.bytes = true → c.waitDone = false → st ≠ St.ok →
      (w.fence n (cWaitFence c.bytes)).resolve (cWaitValue c.bytes) = some st →
      Does (.commandRelease c.id) s fun w' => w' = { w with late := w.late ++ [.waited c.id] }) ∧
    (cWait c.bytes = true → c.waitDone = false → (w.fence n (cWaitFence c.bytes)).resolve (cWaitValue c.bytes) = none →
      c.slotTaken = false → slotFree w n = true →
      deadlockWalk (w.updCmd c.id fun d => { d with slotTaken := true }) n c.entity (cWaitFence c.bytes) 8 256 = none →
      Does (.commandRelease c.id) s fun w' => Turns w c { c with slotTaken := true } w' ∧ OnlyCmds w w')) ∧
  (∀ (b : Block) (c : Cmd) (n : Nat) (st : Status), b.work.cmd c.id = some c → c.slice = some n → c.phase = .fetched →
    c.endStatus = none → c.suspended = false → st ≠ St.ok →
    (b.work.fence n (cWaitFence c.bytes)).resolve (cWaitValue c.bytes) = some st →
    Decides b (.waited c.id) (JustEnds b.work c st)) ∧
  (∀ (s : State) (i : Nat) (r : Req) (data : List Byte), s.live →
    s.core.work.fab.reqs.find? (fun q => q.why == .objEntry i) = some r → r.answer = some (St.ok, data) →
    (∀ c ∈ s.core.work.cmds, needsEntry s.core.work c i = false) →
    Does (.objEntryLoad i) s fun w =>
      entryCached w i = true ∧ (∀ j, { w.obj j with cached := (s.core.work.obj j).cached } = s.core.work.obj j) ∧
      w.fab = { s.core.work.fab with reqs := s.core.work.fab.reqs.filter fun q => !(q.tag == r.tag) } ∧
      { w with
        fab := s.core.work.fab, objs := s.core.work.objs, streamCached := s.core.work.streamCached,
        fresh := s.core.work.fresh } = s.core.work)

/-- COPY and FILL go to the copy engine with nothing moved yet; TIDY becomes runnable where the cluster runs its
firmware image, and EXEC goes to its tiles where a matrix port is populated and not retired and the checks of R180
hold; TIDY ends with STATE_REJECT, and EXEC with STATE_REJECT or BAD_COMMAND, otherwise (R171, R176, R180, R421).
BARRIER_ARRIVE (R176, R535): the checks in their order; a counted arrival waits in its generation, and whether its chip's subtree is
done with it is seen at the end of the control cycle (R555). It rests on the model's choices of log entries 27 and 53. -/
def Obligations.EngineAndBarrierCommands : Prop :=
  ((∀ (s : State) (c : Cmd) (i : Instr) (o : Op), s.live → Ready s.core.work o c →
    (i = .copy c.id ∧ o = .copy ∨ i = .fill c.id ∧ o = .fill) →
    Does i s fun w =>
      Turns s.core.work c { c with phase := .running, bytesDone := 0 } w ∧ OnlyCmds s.core.work w) ∧
  (∀ (s : State) (c : Cmd), s.live → Ready s.core.work .tidy c →
    (jnrRuns s.core.work = true →
      Does (.tidy c.id) s fun w => Turns s.core.work c { c with phase := .running } w ∧ OnlyCmds s.core.work w) ∧
    (jnrRuns s.core.work = false → Does (.tidy c.id) s (JustEnds s.core.work c St.stateReject))) ∧
  (∀ (s : State) (c : Cmd), s.live → Ready s.core.work .exec c →
    ((∃ p, p < 16 ∧ (s.core.work.port p).present = true ∧ (s.core.work.port p).state ≠ .retired) →
      (execReleaseOk s.core.dct s.core.work c.bytes = true →
        Does (.execTiles c.id) s fun w =>
          Turns s.core.work c { c with phase := .running, tilesDone := [], codes := 0, clipped := 0, escs := 0 } w ∧
          OnlyCmds s.core.work w) ∧
      (execReleaseOk s.core.dct s.core.work c.bytes = false →
        Does (.execTiles c.id) s (JustEnds s.core.work c St.badCommand))) ∧
    ((∀ p, p < 16 → (s.core.work.port p).present = true → (s.core.work.port p).state = .retired) →
      Does (.execTiles c.id) s (JustEnds s.core.work c St.stateReject)))) ∧
  (∀ (s : State) (c : Cmd), s.live → Ready s.core.work .barrierArrive c →
    let i := fieldAt c.bytes 24 1
    let x := s.core.bar i
    let owned := some (s.core.dct.barrierOwner i) = c.slice
    let next := fieldAt c.bytes 32 8 = x.last.toNat + 1
    let clash := x.state = .counting ∧ (fieldAt c.bytes 26 2 ≠ x.expect ∨ x.loc = x.expect)
    ((s.core.frm.joined = false ∨ ¬owned ∨ ¬next ∨ x.state ≠ .broken ∧ clash) →
      Acts (.barrierArrive c.id) s fun b =>
        JustEnds s.core.work c St.stateReject b.work ∧ { b with work := s.core.work } = s.core) ∧
    (s.core.frm.joined = true → owned → next → x.state = .broken →
      Acts (.barrierArrive c.id) s fun b =>
        JustEnds s.core.work c St.stepBroken b.work ∧ { b with work := s.core.work } = s.core) ∧
    (s.core.frm.joined = true → owned → next → x.state ≠ .broken → ¬clash →
      Acts (.barrierArrive c.id) s fun b =>
        (b.bar i).loc = x.loc + 1 ∧ (b.bar i).state = .counting ∧ (b.bar i).arrivals = x.arrivals ++ [c.id] ∧
        (b.bar i).expect = fieldAt c.bytes 26 2 ∧ (b.bar i).last = x.last ∧ (∀ k, k ≠ i → b.bar k = s.core.bar k) ∧
        Turns s.core.work c { c with phase := .running, waiting := .barrier } b.work ∧
        { b.work with cmds := s.core.work.cmds } = { s.core.work with late := s.core.work.late ++ [.subtree i] } ∧
        { b with work := s.core.work, frm := s.core.frm } = s.core)) ∧
  (∀ (b : Block) (i : Nat), decideLate b (.subtree i) = trussCheck i b)

/-- SLICE_FREEZE of an ACTIVE slice makes it FROZEN and suspends its commands that have not ended, but for TIDYs that
have a program; SLICE_RESUME of a FROZEN slice makes it ACTIVE and lifts every suspension; each is rejected in another state
(R605, R608). SLICE_SAVE of a FROZEN slice waits for its quiescence, and has its save cycle at once where the slice is quiescent, all
fence operations of the cycle being in the image (R616); SLICE_RESTORE to an OFF slice reads the image's
header; each is rejected in another state (R609, R613). It rests on the model's choices of log entries 9 and 30. -/
def Obligations.MigrationCommands : Prop :=
  (∀ (s : State) (c : Cmd), s.live → c.slice = none →
    let w := s.core.work
    let n := bodySlice c.bytes
    (Ready w .sliceFreeze c → (w.slice n).state = .active →
      Does (.sliceFreeze c.id) s fun w' =>
        (w'.slice n).state = .frozen ∧ (w'.slice n).quiescent = false ∧ (∀ k, k ≠ n → w'.slice k = w.slice k) ∧
        (w'.cmd c.id).map (fun d => (d.phase, d.waiting, d.endStatus)) = some (.running, .quiesce, none) ∧
        (∀ d, w.cmd d.id = some d → d.slice = some n → d.endStatus = none →
          ¬(d.op = some .tidy ∧ ∃ p ∈ w.jnr.progs, p.cmd = d.id) → (w'.cmd d.id).map Cmd.suspended = some true) ∧
        (∀ d, w.cmd d.id = some d → d.id ≠ c.id → d.slice ≠ some n → w'.cmd d.id = some d)) ∧
    (Ready w .sliceFreeze c → (w.slice n).state ≠ .active → Does (.sliceFreeze c.id) s (JustEnds w c St.stateReject)) ∧
    (Ready w .sliceResume c → (w.slice n).state = .frozen →
      Does (.sliceResume c.id) s fun w' =>
        (w'.slice n).state = .active ∧ (w'.slice n).quiescent = false ∧ (∀ k, k ≠ n → (w'.slice k).state = (w.slice k).state) ∧
        (∀ d, w.cmd d.id = some d → d.slice = some n → (w'.cmd d.id).map Cmd.suspended = some false) ∧
        (w'.cmd c.id).bind Cmd.endStatus = some St.ok) ∧
    (Ready w .sliceResume c → (w.slice n).state ≠ .frozen → Does (.sliceResume c.id) s (JustEnds w c St.stateReject))) ∧
  (∀ (s : State) (c : Cmd), s.live →
    let w := s.core.work
    let n := bodySlice c.bytes
    (Ready w .sliceSave c → (w.slice n).state = .frozen → (w.slice n).quiescent = false →
      Does (.sliceSave c.id) s fun w' =>
        Turns w c { c with phase := .running, waiting := .quiesce } w' ∧ OnlyCmds w w') ∧
    (Ready w .sliceSave c → (w.slice n).state = .frozen → (w.slice n).quiescent = true →
      Does (.sliceSave c.id) s fun w' =>
        Turns w c { c with phase := .running } w' ∧ { w' with cmds := w.cmds } = { w with late := w.late ++ [.save c.id] }) ∧
    (Ready w .sliceSave c → (w.slice n).state ≠ .frozen → Does (.sliceSave c.id) s (JustEnds w c St.stateReject)) ∧
    (Ready w .sliceRestore c → (w.slice n).state = .off →
      Does (.sliceRestore c.id) s fun w' =>
        Asks w none .read false (ptrAddr (fieldAt c.bytes 32 8)) 256 [] (.imageRead c.id) w' ∧
        Turns w c { c with phase := .running, auxNat := 0 } w' ∧ { w' with fab := w.fab, cmds := w.cmds } = w) ∧
    (Ready w .sliceRestore c → (w.slice n).state ≠ .off → Does (.sliceRestore c.id) s (JustEnds w c St.stateReject)))

/-- DIRTY_LOG (R596, R598, R602, R603): ENABLE of a host log that is off zeroes its map in device memory, and the log starts with the
write's answer; HARVEST of a host log that is on first puts the marks that the block holds into the map, then takes its words one
after another, and last writes its summary and the words, clears OUTSIDE and counts the harvest; DISABLE
stops the logs it selects. Each is rejected where a selected log is not as it requires or the slice is OFF. It rests
on the model's choices of log entry 31. -/
def Obligations.DirtyLogging : Prop :=
  ∀ (s : State) (c : Cmd), s.live → Ready s.core.work .dirtyLog c →
    let w := s.core.work
    let n := logSlice c
    (logOp c = 1 → (logHost c = true → logDev c = false → (w.slice n).state ≠ .off → (w.slice n).hostLog.on = false →
      Does (.dirtyLogEnable c.id) s fun w' =>
        Asks w none .write true (spaceAddr s.core true (fieldAt c.bytes 48 8)) (fieldAt c.bytes 40 8 / 32768)
          (List.replicate (fieldAt c.bytes 40 8 / 32768) 0) (.imageWrite c.id) w' ∧
        Turns w c { c with phase := .running, writesLeft := c.writesLeft + 1 } w' ∧
        { w' with fab := w.fab, cmds := w.cmds } = w)) ∧
    (logOp c = 2 → logHost c = true → logDev c = false → (w.slice n).state ≠ .off → (w.slice n).hostLog.on = true →
      c.writesLeft = 0 →
      ((w.slice n).hostLog.bits = [] → 2 ^ 18 ≤ (w.slice n).hostLog.len →
        Does (.dirtyLogHarvest c.id) s fun w' =>
          Asks w none .amo true (spaceAddr s.core true (w.slice n).hostLog.map) 8 (List.replicate 8 0) (.mapWord c.id) w' ∧
          (∀ k, w'.slice k = w.slice k) ∧
          Turns w c { c with phase := .running, auxNat := 1, aux := List.replicate 8 0 } w' ∧
          { w' with fab := w.fab, cmds := w.cmds, slices := w.slices } = w) ∧
      ((w.slice n).hostLog.bits ≠ [] →
        let words := ((w.slice n).hostLog.bits.map fun p => p.1 / 64).dedup
        Does (.dirtyLogHarvest c.id) s fun w' =>
          w'.slice n = { w.slice n with hostLog := { (w.slice n).hostLog with bits := [] } } ∧
          (∀ k, k ≠ n → w'.slice k = w.slice k) ∧
          w'.fab.reqs.length = w.fab.reqs.length + words.length ∧ w'.fab.reqs.take w.fab.reqs.length = w.fab.reqs ∧
          (∀ k ∈ words, ∃ r ∈ w'.fab.reqs, r.why = .mapWord c.id ∧ r.op = .amo ∧ r.amo = 3 ∧ r.dev = true ∧ r.len = 8 ∧
            r.addr = BitVec.ofNat 64 (spaceAddr s.core true ((w.slice n).hostLog.map + 8 * k)) ∧
            r.data = leBytes 8 ((w.slice n).hostLog.word k)) ∧
          Turns w c { c with phase := .running, auxNat := 0, aux := [], writesLeft := words.length } w' ∧
          { w' with fab := w.fab, cmds := w.cmds, slices := w.slices } = w)) ∧
    (logOp c = 3 → (w.slice n).state ≠ .off → (logHost c = true → (w.slice n).hostLog.on = true) →
      (logDev c = true → (w.slice n).devLog.on = true) →
      Does (.dirtyLogDisable c.id) s fun w' =>
        (logHost c = true → (w'.slice n).hostLog = { (w.slice n).hostLog with on := false }) ∧
        (logDev c = true → (w'.slice n).devLog = { (w.slice n).devLog with on := false }) ∧
        (logHost c = false → (w'.slice n).hostLog = (w.slice n).hostLog) ∧
        (logDev c = false → (w'.slice n).devLog = (w.slice n).devLog) ∧
        { w'.slice n with hostLog := (w.slice n).hostLog, devLog := (w.slice n).devLog } = w.slice n ∧
        (∀ k, k ≠ n → w'.slice k = w.slice k) ∧ Ends w c St.ok w' ∧ { w' with cmds := w.cmds, slices := w.slices } = w) ∧
    (logHost c = true → logDev c = false → (w.slice n).state ≠ .off →
      (logOp c = 1 → c.writesLeft = 1 →
        let w' := imageWriteAnswered s.core c.id St.ok w
        w'.slice n = { w.slice n with hostLog := {
          on := true, base := fieldAt c.bytes 32 8, len := fieldAt c.bytes 40 8, map := fieldAt c.bytes 48 8 } } ∧
        (∀ k, k ≠ n → w'.slice k = w.slice k) ∧ Turns w c { c with writesLeft := 0, endStatus := some St.ok } w') ∧
      (logOp c = 2 → c.aux.length = (w.slice n).hostLog.len / 32768 →
        let w' := takeWord s.core c.id w
        let bytes := harvestBytes (w.slice n).hostLog true c.aux
        Asks w none .write false (ptrAddr (fieldAt c.bytes 32 8)) bytes.length bytes (.imageWrite c.id) w' ∧
        w'.slice n = { w.slice n with hostLog := { (w.slice n).hostLog with
          outside := false, seq := (w.slice n).hostLog.seq + 1 } } ∧
        (∀ k, k ≠ n → w'.slice k = w.slice k) ∧
        Turns w c { c with auxNat := 2, aux := [], writesLeft := c.writesLeft + 1 } w')) ∧
    (∀ i, (i = .dirtyLogEnable c.id ∧ logOp c = 1 ∧ ((w.slice n).state = .off ∨
            logHost c = true ∧ (w.slice n).hostLog.on = true ∨ logDev c = true ∧ (w.slice n).devLog.on = true) ∨
          (i = .dirtyLogHarvest c.id ∧ logOp c = 2 ∨ i = .dirtyLogDisable c.id ∧ logOp c = 3) ∧ ((w.slice n).state = .off ∨
            logHost c = true ∧ (w.slice n).hostLog.on = false ∨ logDev c = true ∧ (w.slice n).devLog.on = false)) →
      Does i s (JustEnds w c St.stateReject))

/-- CAPTURE_SET with no capture in progress names the buffer, sets HEAD and TAIL to 0 and ends with OK; else it is
rejected. A write of HEAD that would pass TAIL is discarded; any other is taken (R583, R595). A snapshot that is
complete is written to the record that TAIL names, all but its byte 255; an event whose wait for the buffer runs out
is dropped and counted (R586, R587). -/
def Obligations.CaptureCommands : Prop :=
  ((∀ (s : State) (c : Cmd), s.live → Ready s.core.work .captureSet c →
    let w := s.core.work
    (w.cap.busy = none → w.cap.waiting = [] →
      Does (.captureSet c.id) s fun w' =>
        w'.cap = { w.cap with
          buf := BitVec.ofNat 64 (ptrAddr (fieldAt c.bytes 24 8)), records := fieldAt c.bytes 32 2,
          irq := (fieldAt c.bytes 34 1).testBit 0, head := 0, tail := 0 } ∧
        Ends w c St.ok w' ∧ { w' with cmds := w.cmds, cap := w.cap } = w) ∧
    ((w.cap.busy ≠ none ∨ w.cap.waiting ≠ []) → Does (.captureSet c.id) s (JustEnds w c St.stateReject))) ∧
  (∀ (s : State) (v : BitVec 32), s.live →
    let w := s.core.work
    (v - w.cap.head ≤ w.cap.tail - w.cap.head →
      Does (.capHeadWrite v) s fun w' => w' = { w with cap := { w.cap with head := v } }) ∧
    (w.cap.tail - w.cap.head < v - w.cap.head → Does (.capHeadWrite v) s fun w' => w' = w))) ∧
  ((∀ (s : State) (x : Snap), s.live → s.core.work.cap.busy = some x → s.core.work.cap.written = false →
    s.core.work.cap.open = true →
    Does .captureSnapshotDone s fun w =>
      Asks s.core.work none .write false
        (s.core.work.cap.buf.toNat / 65536 * 65536 + 65536 * (s.core.work.cap.tail.toNat % s.core.work.cap.records))
        (capRecord x).length (capRecord x) .capture w ∧
      w.cap = { s.core.work.cap with written := true } ∧
      { w with fab := s.core.work.fab, cap := s.core.work.cap } = s.core.work) ∧
  (∀ (s : State) (x : WaitingEvent) (rest : List WaitingEvent), s.live → s.core.work.cap.waiting = x :: rest →
    s.core.work.cap.blockReset = false →
    Does .captureWaitTimeout s fun w =>
      w = { s.core.work with cap := { s.core.work.cap with waiting := rest, dropped := satInc s.core.work.cap.dropped } }))

/-- SLICE_ENABLE of an OFF slice with a PASID of its own takes it to ACTIVE with empty pools of the configured sizes
and its indices free; in any other state, or where the PASID is bound, it records STATE_REJECT and changes nothing
(R117, R225, R297). SLICE_DISABLE takes an ACTIVE slice to DRAINING and a FENCED one, or a FROZEN one that no
SLICE_SAVE reads, to OFF, but records STATE_REJECT for an OFF or DRAINING one and changes nothing; a DRAINING slice
with nothing left of it enters OFF (R117, R118, R616). It rests on the model's choices of log entries 21, 28 and 30.
-/
def Obligations.SliceControl : Prop :=
  (∀ (s : State) (n : Nat), s.live → n < 64 →
    let w := s.core.work
    let x := w.slice n
    (x.state = .off → x.ctxLog2.toNat ≤ 12 → (∀ k, k ≠ n → (w.slice k).state ≠ .off → (w.slice k).pasid ≠ x.pasid) →
      tblWf {} w.slices = true →
      Does (.sliceEnable n) s fun w' =>
        (w'.slice n).state = .active ∧ (w'.slice n).ctlStatus = St.ok ∧ (w'.slice n).pasid = x.pasid ∧
        (w'.slice n).fences = [] ∧ (w'.slice n).sems = [] ∧ (w'.slice n).watches = [] ∧
        (w'.slice n).fenceCount = s.core.dct.fenceCount n ∧ (w'.slice n).semCount = s.core.dct.semCount n ∧
        (w'.slice n).watchCount = s.core.dct.watchCount n ∧ (w'.slice n).stale = 0 ∧
        (w'.slice n).freeIdx = ((List.range (s.core.dct.objCount n)).map (s.core.dct.objFirst n + ·)).filter (· ≠ 0) ∧
        w'.tableUp = true ∧ (∀ k, k ≠ n → w'.slice k = w.slice k)) ∧
    ((x.state ≠ .off ∨ 12 < x.ctxLog2.toNat ∨ ∃ k, k ≠ n ∧ (w.slice k).state ≠ .off ∧ (w.slice k).pasid = x.pasid ∧
        (k, w.slice k) ∈ w.slices) →
      Does (.sliceEnable n) s fun w' =>
        w'.slice n = { x with ctlStatus := St.stateReject } ∧ (∀ k, k ≠ n → w'.slice k = w.slice k) ∧
        { w' with slices := w.slices } = w)) ∧
  (∀ (s : State) (n : Nat), s.live → n < 64 →
    let w := s.core.work
    let x := w.slice n
    (x.state = .active → Does (.sliceDisable n) s fun w' =>
      (w'.slice n).state = .draining ∧ (w'.slice n).ctlStatus = St.ok ∧ (∀ k, k ≠ n → w'.slice k = w.slice k) ∧
      { w' with slices := w.slices, cmds := w.cmds, queues := w.queues } = w) ∧
    (x.state = .fenced → Does (.sliceDisable n) s fun w' =>
      (w'.slice n).state = .off ∧ (∀ c ∈ w'.cmds, c.slice ≠ some n) ∧ (∀ k, k < 64 → w'.queue (64 * n + k) = {})) ∧
    (x.state = .frozen → saving w n = false → Does (.sliceDisable n) s fun w' =>
      (w'.slice n).state = .off ∧ (∀ c ∈ w'.cmds, c.slice ≠ some n) ∧ (∀ k, k < 64 → w'.queue (64 * n + k) = {})) ∧
    ((x.state = .off ∨ x.state = .draining) → Does (.sliceDisable n) s fun w' =>
      w'.slice n = { x with ctlStatus := St.stateReject } ∧ (∀ k, k ≠ n → w'.slice k = w.slice k) ∧
      { w' with slices := w.slices } = w) ∧
    (drained w n = true → (∀ p ∈ w.slots, p.2.slice ≠ n ∨ p.2.state = .free) → pasidBusy w n = false →
      Does (.sliceDrained n) s fun w' =>
        (w'.slice n).state = .off ∧ (w'.slice n).fences = [] ∧ (w'.slice n).sems = [] ∧ (w'.slice n).watches = [] ∧
        (w'.slice n).graphs = [] ∧ (∀ k, k < 64 → w'.queue (64 * n + k) = {})) ∧
    (drained w n = false → Leaves (.sliceDrained n) s))

/-- A doorbell of a submission or completion queue (R133 to R135, R216): a value in range becomes TAIL or CQ_HEAD; one
out of range leaves the positions, is counted, and raises DOORBELL_RANGE; in a DRAINING or FROZEN slice the value is
latched; for a queue that is ABSENT, or of an OFF or FENCED slice, it is discarded. It rests on the model's choices of
log entry 11. -/
def Obligations.Doorbells : Prop :=
  ∀ (s : State) (v : BitVec 32) (i j : Instr) (k : Nat), s.live →
    ((∃ n q, n < 64 ∧ q < 64 ∧ i = .sqDoorbell n q v ∧ j = .cqDoorbell n q v ∧ k = 64 * n + q) ∨
      i = .adminSqDoorbell v ∧ j = .adminCqDoorbell v ∧ k = 4096) →
    let w := s.core.work
    let x := w.queue k
    (reaches w k = false → Leaves i s ∧ Leaves j s) ∧
    (reaches w k = true → latched w k = true →
      Does i s (fun w' => w'.queue k = { x with lateTail := some v } ∧ (∀ m, m ≠ k → w'.queue m = w.queue m) ∧
        { w' with queues := w.queues } = w) ∧
      Does j s (fun w' => w'.queue k = { x with lateHead := some v } ∧ (∀ m, m ≠ k → w'.queue m = w.queue m) ∧
        { w' with queues := w.queues } = w)) ∧
    (reaches w k = true → latched w k = false →
      ((v - x.tail).toNat ≤ 2 ^ x.desc.sqLog2 → (v - x.head).toNat ≤ 2 ^ x.desc.sqLog2 →
        Does i s fun w' => w'.queue k = { x with tail := v, dbPending := x.dbPending || !x.cached } ∧
          (∀ m, m ≠ k → w'.queue m = w.queue m) ∧ { w' with queues := w.queues } = w) ∧
      ((v - x.cqHead).toNat ≤ (x.cqTail - x.cqHead).toNat → x.held = [] →
        Does j s fun w' => w'.queue k = { x with cqHead := v, dbPending := x.dbPending || !x.cached } ∧
          (∀ m, m ≠ k → w'.queue m = w.queue m) ∧ { w' with queues := w.queues } = w) ∧
      (∀ y, (y = i ∧ (2 ^ x.desc.sqLog2 < (v - x.tail).toNat ∨ 2 ^ x.desc.sqLog2 < (v - x.head).toNat) ∨
          y = j ∧ (x.cqTail - x.cqHead).toNat < (v - x.cqHead).toNat) →
        Does y s fun w' => w'.queue k = { x with dbRefused := satInc x.dbRefused } ∧ (∀ m, m ≠ k → w'.queue m = w.queue m) ∧
          (∀ n, sliceOf k = some n →
            (w'.slice n).cause = setBit (w.slice n).cause 1 ∧ (w'.slice n).lastStatus = St.doorbellRange ∧
            (w'.slice n).errq = setBit (w.slice n).errq (k % 64) ∧
            { w'.slice n with
              cause := (w.slice n).cause, lastStatus := (w.slice n).lastStatus, errq := (w.slice n).errq } = w.slice n ∧
            (∀ m, m ≠ n → w'.slice m = w.slice m) ∧ w'.admin = w.admin ∧
            w'.fab = if (w.slice n).cause.getLsbD 1 then w.fab else w.fab.raise (17 + 4 * n)) ∧
          (sliceOf k = none → w'.admin = { w.admin with causes := setBit w.admin.causes 1, lastStatus := St.doorbellRange } ∧
            (∀ m, w'.slice m = w.slice m) ∧
            w'.fab = if w.admin.causes.getLsbD 1 then w.fab else w.fab.raise 1) ∧
          { w' with queues := w.queues, slices := w.slices, fab := w.fab, admin := w.admin, setNow := w.setNow } = w))

/-- A completion record that has been written moves CQ_TAIL on by one and, without coalescing, raises its queue's
pending bit where IRQ_EN is set; one that could not be written enters the overflow and blocks its queue with
COMPLETION_BLOCKED (R124, R146, R147). Held interrupts: COAL_BEATS edges after a record, the queue's pending bit is
raised; a queue with a pending doorbell takes a free entry of the queue cache: its table entry is read, and the answer puts it
into the cache (R137, R146). It rests on the model's choices of log entries 7, 11 and 58. -/
def Obligations.CompletionRecords : Prop :=
  (∀ (s : State) (tag n q : Nat) (r : Req) (x : Rec) (st : Status) (data : List Byte), s.live → n < 64 → q < 64 →
    let w := s.core.work
    let k := 64 * n + q
    let y := w.queue k
    w.req tag = some r → r.why = .record k false → r.answer = some (st, data) → y.recBusy = some x → y.state = .active →
    y.due = [] → y.held = [] → y.kept = [] →
    (st = St.ok → y.desc.irqEn = false →
      Does (.completionRecordWrite tag) s fun w' =>
        w'.queue k = { y with cqTail := y.cqTail + 1, stDirty := true, recBusy := none } ∧
        (∀ m, m ≠ k → w'.queue m = w.queue m) ∧
        w'.fab.reqs = w.fab.reqs.filter (fun p => !(p.tag == tag)) ∧ { w' with fab := w.fab, queues := w.queues } = w) ∧
    (st = St.ok → y.desc.irqEn = true → y.desc.coalCount ≤ 1 →
      Does (.completionRecordWrite tag) s fun w' =>
        w'.queue k = { y with cqTail := y.cqTail + 1, stDirty := true, recBusy := none, sinceRecs := 0, sinceBeats := none } ∧
        (∀ m, m ≠ k → w'.queue m = w.queue m) ∧
        (w'.slice n) = { w.slice n with cqPend := setBit (w.slice n).cqPend q } ∧
        ((w.slice n).cqPend.getLsbD q = false →
          w'.fab = { w.fab with reqs := w.fab.reqs.filter fun p => !(p.tag == tag) }.raise (16 + 4 * n)) ∧
        { w' with fab := w.fab, queues := w.queues, slices := w.slices, setNow := w.setNow } = w) ∧
    (st ≠ St.ok → st ≠ St.pasidRevoked → overflowUsed w k < 256 →
      Does (.completionRecordWrite tag) s fun w' =>
        w'.queue k = { y with
          recBusy := none, held := [{ x with place := w.nextOrder }], state := .blocked, stDirty := true } ∧
        (w'.slice n).cause = setBit (w.slice n).cause 0 ∧ (w'.slice n).errq = setBit (w.slice n).errq q ∧
        (w'.slice n).lastStatus = St.completionBlocked)) ∧
  (∀ (s : State) (n q : Nat), s.live → n < 64 → q < 64 →
    let w := s.core.work
    let k := 64 * n + q
    let y := w.queue k
    (∀ m, y.sinceBeats = some m → y.desc.irqEn = true → y.desc.coalBeats ≠ 0 → y.desc.coalBeats ≤ m →
      Does (.coalesceTimeout n q) s fun w' =>
        w'.queue k = { y with sinceRecs := 0, sinceBeats := none } ∧ (∀ m, m ≠ k → w'.queue m = w.queue m) ∧
        w'.slice n = { w.slice n with cqPend := setBit (w.slice n).cqPend q } ∧ (∀ m, m ≠ n → w'.slice m = w.slice m) ∧
        (w'.fab = if (w.slice n).cqPend.getLsbD q then w.fab else w.fab.raise (16 + 4 * n)) ∧
        { w' with fab := w.fab, queues := w.queues, slices := w.slices, setNow := w.setNow } = w) ∧
    (y.state ≠ .absent → y.cached = false → y.loading = false → y.dbPending = true → cachedQueues w < 1024 →
      Does (.queueCacheLoad n q) s fun w' =>
        Asks w none .read true (spaceAddr s.core true (queueEntryAddr s.core k)) queueEntryLen [] (.queueLoad k) w' ∧
        w'.queue k = { y with loading := true } ∧ (∀ m, m ≠ k → w'.queue m = w.queue m) ∧
        { w' with fab := w.fab, queues := w.queues } = w) ∧
    (∀ (r : Req) (p : Part) (data : List Byte), w.part p.tag = some (r, p) → r.why = .queueLoad k → r.parts = [p] →
      r.dead = false → p.open = true → y.state ≠ .absent → y.loading = true →
      Acts (.memoryResponse p.tag 0 data) s fun b =>
        b.work.queue k = { y with loading := false, cached := true, dbPending := false } ∧
        (∀ m, m ≠ k → b.work.queue m = w.queue m) ∧
        { b.work with fab := w.fab, queues := w.queues, jnr := w.jnr } = w))

/-- RESUME returns a HALTED queue to service and clears KILLED in its context's record, of which it reads the other flags first where
the block does not hold them; RETRY writes the oldest held
record at CQ_TAIL where the ring has room (R141, R150). ENABLE of the admin queue sets its five positions to 0 and
reads its descriptor as the physical function; DISABLE clears ENABLE (R215, R217). It rests on the model's choice of log
entry 59. -/
def Obligations.QueueControl : Prop :=
  (∀ (s : State) (n q : Nat), s.live → n < 64 → q < 64 → (s.core.work.slice n).state = .active →
    let w := s.core.work
    let k := 64 * n + q
    let y := w.queue k
    (y.state = .halted → y.held = [] → y.kept = [] → y.stFailed = false →
      Does (.queueResume n q) s fun w' =>
        w'.queue k = { y with state := .active, stDirty := true, shownFetch := y.readNext } ∧ (∀ m, m ≠ k → w'.queue m = w.queue m) ∧
        (w'.ctx n y.desc.context).killed = false ∧
        (if (w.ctx n y.desc.context).known then
          Asks w (some n) .write false (ctxAddr w n y.desc.context + 33) 1
            (leBytes 1 (if (w.ctx n y.desc.context).saved then 1 else 0)) (.ctxRecord n y.desc.context) w'
        else Asks w (some n) .read false (ctxAddr w n y.desc.context + 33) 3 [] (.ctxFlags n y.desc.context) w') ∧
        { w' with fab := w.fab, queues := w.queues, slices := w.slices } = w) ∧
    (∀ r rest, y.state ≠ .absent → y.held = r :: rest → y.recBusy = none → (y.cqTail - y.cqHead).toNat < 2 ^ y.desc.cqLog2 →
      y.stFailed = false →
      Does (.queueRetry n q) s fun w' =>
        Asks w (some n) .write y.desc.cqDev
          (spaceAddr s.core y.desc.cqDev (y.desc.cqBase.toNat + y.cqTail.toNat % 2 ^ y.desc.cqLog2 * 32)) 32
          (recBytes r y.cqTail.toNat y.desc.cqLog2 true) (.record k true) w' ∧
        w'.queue k = { y with recBusy := some r } ∧ (∀ m, m ≠ k → w'.queue m = w.queue m) ∧ LogsOnly w w' ∧
        { w' with fab := w.fab, queues := w.queues, slices := w.slices } = w)) ∧
  (∀ (s : State), s.live →
    let w := s.core.work
    (w.admin.enable = false → Does .adminQueueEnable s fun w' =>
      Asks w none .read false w.admin.descAddr.toNat 64 [] .adminDesc w' ∧ w'.admin = { w.admin with enable := true } ∧
      (w'.queue 4096).tail = 0 ∧ (w'.queue 4096).fetch = 0 ∧ (w'.queue 4096).head = 0 ∧ (w'.queue 4096).cqTail = 0 ∧
      (w'.queue 4096).cqHead = 0 ∧ (∀ m, m ≠ 4096 → w'.queue m = w.queue m) ∧
      { w' with fab := w.fab, admin := w.admin, queues := w.queues } = w) ∧
    (w.admin.enable = true → Leaves .adminQueueEnable s) ∧
    (w.admin.enable = true → (∀ c ∈ w.cmds, ¬(c.phase = .partBase ∧ c.qk = 4096)) → Does .adminQueueDisable s fun w' =>
      w'.admin = { w.admin with enable := false } ∧ w'.cmds = w.cmds ∧
      (∀ r ∈ w'.fab.reqs, r.why = .adminDesc → r.dead = true) ∧
      { w' with fab := w.fab, admin := w.admin } = w) ∧
    (w.admin.enable = false → Leaves .adminQueueDisable s))

/-- A fetch of a queue that may fetch takes up to 8 entries, not past the second window of 256 bytes, TAIL or
MAX_INFLIGHT, and FETCH passes them; a queue that may not fetch is left (R124, R125, R136, R139). A status block that
has changed is written as 16 bytes, FETCH, HEAD, CQ_TAIL and the queue's state, one write at a time (R142). A read
entry of 64 bytes without extension becomes a command of its queue's slice and context at its position, in the order
of reading (R136, R161, R162): one that holds and names no object waits for its release with its timeout set, and one
that fails checks 1 to 3 is to end with BAD_COMMAND (R173, R211). It rests on the model's choices of log entries 6 and
10. -/
def Obligations.FetchingAndStatus : Prop :=
  (∀ (s : State) (n q : Nat), s.live → n < 64 → q < 64 →
    let w := s.core.work
    let k := 64 * n + q
    let x := w.queue k
    (mayFetch w k = true → Does (.queueFetch n q) s fun w' =>
      (w'.queue k).fetch = x.fetch + BitVec.ofNat 32 (min (min (8 - x.fetch.toNat % 4) (x.tail - x.fetch).toNat)
        (x.desc.maxInflight - (x.fetch - x.head).toNat)) ∧
      (w'.queue k).stDirty = true ∧ (w'.queue k).tail = x.tail ∧ (w'.queue k).cqTail = x.cqTail ∧ (w'.queue k).desc = x.desc ∧
      (w'.queue k).state = x.state ∧ (x.finished = [] → (w'.queue k).head = x.head) ∧
      (∀ m, m ≠ k → w'.queue m = w.queue m) ∧ { w' with queues := w.queues } = w) ∧
    (mayFetch w k = false → Leaves (.queueFetch n q) s)) ∧
  (∀ (s : State) (n q : Nat), s.live → n < 64 → q < 64 →
    let w := s.core.work
    let k := 64 * n + q
    let x := w.queue k
    x.state ≠ .absent → x.stDirty = true → x.stBusy = false → (w.slice n).state = .active →
    Does (.statusBlockWrite n q) s fun w' =>
      Asks w (some n) .write x.desc.statusDev (spaceAddr s.core x.desc.statusDev x.desc.statusBase.toNat) 16
        (leBytes 4 x.fetch.toNat ++ leBytes 4 x.head.toNat ++ leBytes 4 x.cqTail.toNat ++ leBytes 1 x.state.code ++ leBytes 3 0)
        (.statusBlock k x.fetch) w' ∧
      w'.queue k = { x with stDirty := false, stBusy := true } ∧ (∀ m, m ≠ k → w'.queue m = w.queue m) ∧
      LogsOnly w w' ∧ { w' with fab := w.fab, queues := w.queues, slices := w.slices } = w) ∧
  (∀ (s : State) (tag n q first : Nat) (r : Req) (data : List Byte), s.live → n < 64 → q < 64 →
    let w := s.core.work
    let k := 64 * n + q
    w.req tag = some r → r.why = .sqRead k first 1 → r.answer = some (St.ok, data) → oldestRead w k first = true →
    (w.queue k).state = .active → (w.queue k).skip = 0 → partBaseOf w k = none → (w.slice n).state = .active →
    (∀ c ∈ w.cmds, c.id < w.nextId) → cExt (bytesAt data 0 64) = 0 →
    ∀ good, formOk s.core w { slice := some n, cls := (w.queue k).desc.cls, node := false } (bytesAt data 0 64) = good →
    (good = true → ∀ o, cOp (bytesAt data 0 64) = some o →
      handleFields o (bytesAt data 0 64) = [] ∧ o ≠ .objCreate ∧ o ≠ .streamCreate) →
    Does (.entryReadReturn tag) s fun w' =>
      ∃ c, w'.cmd w.nextId = some c ∧ c.qk = k ∧ c.slice = some n ∧ c.ctx = (w.queue k).desc.context ∧
        c.sqIndex = BitVec.ofNat 32 first ∧ c.span = 1 ∧ c.bytes = bytesAt data 0 64 ∧ c.order = w.nextOrder ∧
        c.phase = .fetched ∧ c.waiting = .none ∧ c.refs = [] ∧ c.timer = some (timeoutOf w k (bytesAt data 0 64)) ∧
        c.endStatus = (if good = true then none else some St.badCommand) ∧
        (∀ d ∈ w.cmds, w'.cmd d.id = w.cmd d.id) ∧ w'.nextId = w.nextId + 1 ∧ w'.nextOrder = w.nextOrder + 1 ∧
        w'.fab.reqs = w.fab.reqs.filter (fun p => !(p.tag == tag)) ∧ w'.queues = w.queues ∧ w'.slices = w.slices)

/-! ### The function port and the mailbox unit -/

/-- An answer that a command of its own reads is kept for it, once every 256-byte window of its transfer is answered: OK for
code 0, DMA_FAULT for a timeout and for every code but PAGE_MISS and PASID_INVALID of a slice's request. A page miss asks for
the page where PRI is enabled; the group's response retries the request or fails it, and no response in time fails it and
keeps the index (R67, R76 to R78). FN_BME, FN_MSIX_EN and FN_MSIX_FMASK take the values given; with FN_BME at 1 nothing is
held any longer, and what goes out is marked in the dirty logs (R599). A pending message is sent where its vector is open, with the address and data of the vector's table entry,
and only there (R62, R64). It rests on the model's choices of log entry 49. -/
def Obligations.MemoryPort : Prop :=
  (∀ (s : State) (r : Req) (p : Part), s.live → Awaits s.core.work r p →
    let w := s.core.work
    (∀ (code : BitVec 3) (data : List Byte), p.paging = false →
      (code ≠ 1 ∧ code ≠ 5 ∨ code ≠ 0 ∧ (r.slice = none ∨ r.dev = true)) →
      Acts (.memoryResponse p.tag code data) s fun b =>
        PartBecomes w r p
          (fun x => { x with answer := some (if code = 0 then St.ok else St.dmaFault, responseData r p data) }) b.work ∧
        { b.work with fab := w.fab, jnr := w.jnr } = w) ∧
    (∀ (data : List Byte) (n : Nat), p.paging = false → r.slice = some n → r.dev = false → p.retried = false →
      (w.slice n).pasidOpen = true →
      Acts (.memoryResponse p.tag 1 data) s fun b => (b.work.part p.tag).map (fun x => x.2.paging) = some Config.priEnabled) ∧
    (p.paging = false → Acts (.memoryResponseTimeout p.tag) s fun b =>
      PartBecomes w r p (fun x => { x with answer := some (St.dmaFault, []) }) b.work ∧
      b.work.fab.burntTags = w.fab.burntTags ++ [p.tag]) ∧
    (∀ (g : PriGroup) (n : Nat), w.fab.groups = [g] → g.tag = p.tag → g.burnt = false → p.paging = true →
      r.slice = some n → (w.slice n).pasidOpen = true →
      Acts (.pageRequestResponse g.group 0) s (fun b =>
        PartBecomes w r p (fun x => { x with paging := false, retried := true, held := !w.fab.bme }) b.work) ∧
      (∀ code : BitVec 4, code ≠ 0 → Acts (.pageRequestResponse g.group code) s fun b =>
        PartBecomes w r p (fun x => { x with paging := false, answer := some (St.dmaFault, []) }) b.work) ∧
      Acts (.priTimeout g.group) s fun b =>
        PartBecomes w r p (fun x => { x with paging := false, answer := some (St.dmaFault, []) }) b.work ∧
        b.work.fab.groups = [{ g with burnt := true }])) ∧
  ((∀ (s : State) (v en fmask : Bool), s.core.pwr.frozen = false →
    Sets (.fnBmeChange v en fmask) s fun b =>
      b.work.fab.bme = v ∧ b.work.fab.msixEn = en ∧ b.work.fab.msixFmask = fmask ∧
      (v = true → ∀ r ∈ b.work.fab.reqs, ∀ p ∈ r.parts, p.held = false) ∧ (v = false → b.work.fab.reqs = s.core.work.fab.reqs) ∧
      b.work.fab.pba = s.core.work.fab.pba ∧ b.work.fab.msix = s.core.work.fab.msix ∧ LogsOnly s.core.work b.work ∧
      { b with work := { b.work with fab := s.core.work.fab, slices := s.core.work.slices } } = s.core) ∧
  (∀ (s : State) (v : Nat), s.live →
    let f := s.core.work.fab
    ((f.bme = true ∧ f.msixEn = true ∧ f.msixFmask = false ∧ (tblGet {} f.msix v).masked = false ∧ f.pba.getLsbD v = true) →
      Does (.msixMessageSend v) s fun w => w = { s.core.work with fab := { f with
        out := .msix v (tblGet {} f.msix v).addr (tblGet {} f.msix v).data :: f.out
        offers := f.offers ++ [.msix v (tblGet {} f.msix v).addr (tblGet {} f.msix v).data]
        pba := clrBit f.pba v } }) ∧
    ((f.bme = false ∨ f.msixEn = false ∨ f.msixFmask = true ∨ (tblGet {} f.msix v).masked = true ∨ f.pba.getLsbD v = false) →
      Leaves (.msixMessageSend v) s)))

/-- Accesses to an end of a channel by an identity it accepts (R452 to R457): a ring of bits not yet set sets them and names
its identity, and times out at once where the other end cannot answer; a ring of bit 0 on channel 0 in NORMAL mode resets the
cluster (R445); a ring of bits that are all set changes nothing but what a clear in the same control cycle does; a clear, a mask and a word change what they name, but a bit rung in the same control cycle stays. By any other
identity, an access to the peer end is counted and does nothing else. In NORMAL mode the firmware answers a request on
channels 1 to 3: PING with its own word, VERSION with FW_VERSION, CORE_MAP with CORES_UP, any other with all ones; the
request's bit clears and bit 16 is rung (R458). It rests on the model's choices of log entries 5 and 36. -/
def Obligations.MailboxCommands : Prop :=
  (∀ (s : State) (mid : BitVec 8) (c : Nat) (e : Bool) (bits : BitVec 16) (word : BitVec 64), s.live → c < 64 →
    let b := s.core
    let x := b.chan c
    (endAccepts b mid.toNat c e = true →
      (halfOf e bits &&& ~~~x.db ≠ 0 → resetsCluster b c e bits = false →
        Acts (.mailboxRing mid c e bits) s fun b' =>
          (b'.chan c).db = x.db ||| halfOf e bits ∧ (b'.chan c).mask = x.mask ∧
          (b'.chan c).peerWord = x.peerWord ∧ (b'.chan c).clusterWord = x.clusterWord ∧
          (b'.chan c).ringToPeer = (if e then mid else x.ringToPeer) ∧
          (b'.chan c).ringToCluster = (if e then x.ringToCluster else mid) ∧
          (cannotAnswer b c e = false → (b'.chan c).timeout e = x.timeout e) ∧
          (cannotAnswer b c e = true → (b'.chan c).timeout e = x.timeout e |||
            ((halfOf e bits &&& ~~~x.db) >>> (if e then 16 else 0)).setWidth 16) ∧
          (∀ k, k ≠ c → b'.chan k = b.chan k) ∧
          BoxFrame b b') ∧
      (halfOf e bits &&& ~~~x.db = 0 → Acts (.mailboxRing mid c e bits) s fun b' =>
        b'.work.nowSet (.doorbell c) = b.work.nowSet (.doorbell c) ||| (halfOf e bits).setWidth 64 ∧
        b' = { b with work := { b.work with setNow := b'.work.setNow } }) ∧
      (resetsCluster b c e bits = true → Acts (.mailboxRing mid c e bits) s fun b' =>
        b'.work.jnr.state = .reset ∧ b'.work.jnr.cause = .recoveryRing ∧ b'.work.jnr.progs = [] ∧ b'.mbx.maint = true ∧
        b'.mbx.chans = []) ∧
      Acts (.mailboxClear mid c e bits) s (fun b' =>
        b'.chan c = { x with db := x.db &&& ~~~(halfOf (!e) bits &&& ~~~(b.work.nowSet (.doorbell c)).setWidth 32) } ∧
        (∀ k, k ≠ c → b'.chan k = b.chan k) ∧ (b.work.nowSet (.doorbell c) = 0 → b'.work = b.work) ∧ BoxFrame b b') ∧
      Acts (.mailboxMaskWrite mid c e bits) s (fun b' =>
        b'.chan c = { x with mask := (x.mask &&& halfOf e 0xFFFF) ||| halfOf (!e) bits } ∧
        (∀ k, k ≠ c → b'.chan k = b.chan k) ∧
        (x.db &&& x.mask &&& halfOf (!e) (~~~bits) = 0 → b'.work = b.work) ∧ BoxFrame b b') ∧
      Acts (.mailboxMsgWrite mid c e word) s (fun b' =>
        b'.chan c = (if e then { x with clusterWord := word, msgToPeer := mid }
          else { x with peerWord := word, msgToCluster := mid }) ∧
        (∀ k, k ≠ c → b'.chan k = b.chan k) ∧ { b' with mbx := b.mbx } = b)) ∧
    (e = false → endAccepts b mid.toNat c e = false →
      ∀ i, i = .mailboxRing mid c e bits ∨ i = .mailboxClear mid c e bits ∨ i = .mailboxMaskWrite mid c e bits ∨
          i = .mailboxMsgWrite mid c e word →
        Acts i s (· = { b with mbx := { b.mbx with refused := b.mbx.refused + 1 } })) ∧
    (∀ bit, bit < 32 → x.db.getLsbD bit = true →
      Acts (.mailboxRingTimeout c bit) s fun b' =>
        (b'.chan c).timeout (16 ≤ bit) = x.timeout (16 ≤ bit) ||| BitVec.ofNat 16 (2 ^ (bit % 16)) ∧
        (b'.chan c).timeout (bit < 16) = x.timeout (bit < 16) ∧ (b'.chan c).db = x.db ∧
        (∀ k, k ≠ c → b'.chan k = b.chan k) ∧ BoxFrame b b')) ∧
  (∀ (s : State) (c : Nat) (i : Instr) (reply : BitVec 64), s.live → 1 ≤ c → c ≤ 3 → s.core.mbx.maint = false →
    s.core.work.jnr.state = .running →
    let x := s.core.chan c
    x.db.getLsbD 0 = true →
    (i = .ping c ∧ (x.peerWord = 1 ∧ reply = 1 ∨
        x.peerWord ≠ 1 ∧ x.peerWord ≠ 2 ∧ x.peerWord ≠ 3 ∧ reply = BitVec.allOnes 64) ∨
      i = .version c ∧ x.peerWord = 2 ∧ reply = s.core.work.jnr.fwVersion.setWidth 64 ∨
      i = .coreMap c ∧ x.peerWord = 3 ∧ reply = (coresUp s.core.work).setWidth 64) →
    Acts i s fun b =>
      (b.chan c).clusterWord = reply ∧ (b.chan c).peerWord = x.peerWord ∧ (b.chan c).db.getLsbD 0 = false ∧
      (b.chan c).db.getLsbD 16 = true ∧
      (∀ k, k < 32 → k ≠ 0 → k ≠ 16 → (b.chan c).db.getLsbD k = x.db.getLsbD k) ∧
      (∀ k, k ≠ c → b.chan k = s.core.chan k) ∧
      BoxFrame s.core b)

/-- A read of a lock, by a command of its own or on the function port, is served at the end of its control cycle, behind the
cycle's writes (R461): one that nobody holds becomes the reader's, who reads zero, and one that is held stays and reads HELD
and its OWNER. A write of zero by the holder releases it; every other write is discarded and counted. MBX_LOCK_FORCE releases
it, whoever holds it. (R459, R460) It rests on the model's choices of log entries 5, 15 and 19. -/
def Obligations.LockCommands : Prop :=
  ∀ (s : State) (mid : BitVec 8) (i : Nat) (v : BitVec 64), s.live → i < 64 →
    let b := s.core
    (lockAccess mid.toNat = true → Acts (.lockRead mid i) s
      (· = { b with work := { b.work with late := b.work.late ++ [.lockRead mid i none] } })) ∧
    (∀ tag : BitVec 10, b.st.inPor = false → b.st.bar0 = true → b.st.halted = false → b.work.jnr.boxDue = false →
      Acts (.functionPortAccess false false (0x41000 + 8 * i) 8 v tag) s
        (· = { b with work := { b.work with late := b.work.late ++ [.lockRead 0 i (some tag)] } })) ∧
    (∀ (b : Block) (tag : Option (BitVec 10)),
      let emits := fun x => b.work.emit (match tag with
        | some t => .cpl t x false
        | none => .lockValue mid i x)
      (b.lock i = none → lockAccess mid.toNat = true →
        let b' := decideLate b (.lockRead mid i tag)
        b'.lock i = some mid ∧ (∀ k, k ≠ i → b'.lock k = b.lock k) ∧ b'.mbx.refused = b.mbx.refused ∧
        b'.mbx.chans = b.mbx.chans ∧ { b' with mbx := b.mbx } = { b with work := emits 0 }) ∧
      ∀ o, b.lock i = some o →
        decideLate b (.lockRead mid i tag) = { b with work := emits (BitVec.ofNat 64 (256 + o.toNat)) }) ∧
    (lockAccess mid.toNat = true → b.lock i = some mid → v = 0 → Acts (.lockRelease mid i v) s fun b' =>
      b'.lock i = none ∧ (∀ k, k ≠ i → b'.lock k = b.lock k) ∧ b'.mbx.refused = b.mbx.refused ∧
      b'.mbx.chans = b.mbx.chans ∧ { b' with mbx := b.mbx } = b) ∧
    (lockAccess mid.toNat = true → (b.lock i ≠ some mid ∨ v ≠ 0) → Acts (.lockRelease mid i v) s
      (· = { b with mbx := { b.mbx with refused := b.mbx.refused + 1 } })) ∧
    Acts (.mbxLockForce i) s fun b' =>
      b'.lock i = none ∧ (∀ k, k ≠ i → b'.lock k = b.lock k) ∧ b'.mbx.refused = b.mbx.refused ∧
      b'.mbx.chans = b.mbx.chans ∧ { b' with mbx := b.mbx } = b

/-- A 32-bit read of the low half of BEAT_NUM latches its high half, and the next 32-bit read of the high half returns
the latch, once (R35); a write of an RW register takes the value; an access of a size or an alignment that R60
excludes discards a write and answers a read with FN_CPL_UR and zero data. A completion waits for the end of the control cycle
where one before it waits for a lock (R461). Registers named: BEAT_NUM, SYN_OP_VALUE
(R34, R343). It rests on the model's choices of log entry 15. -/
def Obligations.RegisterAccesses : Prop :=
  ∀ (s : State), s.live →
    let b := s.core
    let completed := fun (tag : BitVec 10) (v : BitVec 64) (ur : Bool) =>
      if b.work.late.any Late.ofPort then { b.work with late := b.work.late ++ [.cpl tag v ur] } else b.work.emit (.cpl tag v ur)
    Acts (.lowHalfReadLatch 0x200) s (fun b' =>
      tblGet none b'.clk.latches 0x200 = some ((b.clk.beat >>> 32).setWidth 32) ∧
      (∀ o, o ≠ 0x200 → tblGet none b'.clk.latches o = tblGet none b.clk.latches o) ∧
      { b' with clk := { b'.clk with latches := b.clk.latches } } = b) ∧
    (∀ x v tag, tblGet none b.clk.latches 0x200 = some x → b.st.inPor = false → b.st.bar0 = true → b.st.halted = false →
      b.work.jnr.boxDue = false →
      Acts (.functionPortAccess false false 0x204 4 v tag) s fun b' =>
        b'.work = completed tag (x.setWidth 64) false ∧
        tblGet none b'.clk.latches 0x200 = none ∧
        (∀ o, o ≠ 0x200 → tblGet none b'.clk.latches o = tblGet none b.clk.latches o) ∧
        { b' with clk := { b'.clk with latches := b.clk.latches }, work := b.work } = b) ∧
    (∀ v, Acts (.registerWrite .bar0 0x20000 v) s fun b' =>
      b' = { b with work := { b.work with sync := { b.work.sync with opValue := v } } }) ∧
    (∀ (bar2 wr : Bool) (o size : Nat) (v : BitVec 64) (tag : BitVec 10),
      ((size ≠ 4 ∧ size ≠ 8) ∨ o % size ≠ 0) → b.st.inPor = false → b.work.jnr.boxDue = false →
      Acts (.functionPortAccess bar2 wr o size v tag) s fun b' =>
        b' = if wr then b else { b with work := completed tag 0 true }) ∧
    (∀ (v : BitVec 64) (tag : BitVec 10), b.st.inPor = false → b.st.bar0 = true → b.st.halted = false →
      b.work.jnr.boxDue = false →
      Acts (.functionPortAccess false false 0x200 8 v tag) s (fun b' =>
        b' = { b with work := completed tag b.clk.beat false }) ∧
      Acts (.functionPortAccess false true 0x20000 8 v tag) s (fun b' =>
        b' = { b with work := { b.work with sync := { b.work.sync with opValue := v } } }))

/-! ### The beat and the scheduler -/

/-- The block discards a write of BEAT_QUARTERS outside 4 to 128 and keeps the previous value; a write within it
before the lock point is taken. -/
def Obligations.BeatQuartersRange : Prop :=
  ∀ (s : State) (v : BitVec 8), s.live →
    ((v.toNat < 4 ∨ 128 < v.toNat) → Acts (.beatQuartersWrite v) s (· = s.core)) ∧
    (4 ≤ v.toNat → v.toNat ≤ 128 → s.core.dct.locked = false →
      Acts (.beatQuartersWrite v) s (· = { s.core with clk := { s.core.clk with quarters := v } }))

/-- At a beat edge, once the control cycle before it has ended, PHASE starts again at 0 and every port takes the grants of the
snapshot before; the number rises by one, in a standalone block with every running command timer falling by one at an edge that 256 does not divide, or
takes the number that a BEAT placed, with its alignment. A BEAT that a LISTENING chip receives on an UP port gives it
its manager, epoch and beat length, and the chip FOLLOWS (R30, R33, R503 to R505, R524). It rests on the model's
choices of log entry 47. -/
def Obligations.BeatEdges : Prop :=
  (∀ (s : State), s.live →
    let a := (cycleOver s.core).after
    Acts .beatEdge s fun b =>
    b.clk.phase = 0 ∧
    (∀ p, (b.work.port p).primary = (a.work.port p).nextPrimary ∧ (b.work.port p).grants = (a.work.port p).nextGrants) ∧
    (isWorker a = false → b.clk.beat = a.clk.beat + 1 ∧ b.clk.aligned = false ∧ b.lnk.lastErr = 0) ∧
    (∀ t ok, isWorker a = true → a.lnk.edges.find? (fun x => x.1 == a.clk.beat.toNat + 1) = some (a.clk.beat.toNat + 1, t, ok) →
      b.clk.beat = BitVec.ofNat 64 (a.clk.beat.toNat + 1) ∧ b.clk.aligned = ok ∧ b.lnk.missed = 0 ∧
      b.lnk.lastEdge = atCycle a t) ∧
    (a.frm.state = .standalone → (a.clk.beat + 1).toNat % 256 ≠ 0 → ∀ d, a.work.cmd d.id = some d →
      b.work.cmd d.id = some (if timerRuns a.work d then { d with timer := d.timer.map (· - 1) } else d))) ∧
  (∀ (s : State) (p arrival : Nat) (m : Msg) (w : Work), s.live → takeMsg 0x01 s.core.work = some ((p, arrival, m), w) →
    s.core.frm.state = .listening → portUp s.core p = true → 4 ≤ fieldAt m.payload 12 1 → fieldAt m.payload 12 1 ≤ 128 →
    Acts .beatMessage s fun b =>
      let mgr : BitVec 6 := BitVec.ofNat 6 (fieldAt m.payload 13 1)
      let epoch : BitVec 16 := BitVec.ofNat 16 (fieldAt m.payload 16 2)
      b.frm = { s.core.frm with
        state := .following, mgr := mgr, epoch := epoch, mgrLost := false, lossByNotice := false,
        reqIn := if mgr = s.core.frm.mgr ∧ epoch = s.core.frm.epoch then s.core.frm.reqIn else [] } ∧
      b.clk = { s.core.clk with quarters := BitVec.ofNat 8 (fieldAt m.payload 12 1), src := 1 } ∧
      b.lnk.depth = BitVec.ofNat 4 (fieldAt m.payload 14 1))

/-- Timeouts and expiries of lends wait for the end of their control cycle, behind what else falls in it (R213, R292, R438). A
command whose timer stands at 0 fails there with CMD_TIMEOUT: where TEARDOWN_MASK leaves that out it ends alone, else
its context's teardown begins. A lend that has run out, and that an acquire not timing out itself needs, force-releases the
holder's units, marks the semaphore abandoned, which an acquire that now fits sees, taking no units, and begins the teardown of
its context; one that no acquire needs just ends (R212, R291, R295, R317, R557 to R559). A save area written frees its slot, and
its context is SAVED; a context record read with INIT and without SAVED makes its context resident, with the counts it holds where
the block has not counted with them yet, and one without INIT tears the context down with BAD_COMMAND (R156 to R158, R279). It
rests on the model's choices of log entries 16, 25 and 59. -/
def Obligations.TimersAndSlots : Prop :=
  ((∀ (s : State) (id : Nat), s.live → Defers (.commandTimeout id) s (.timeout id)) ∧
  (∀ (b : Block) (c : Cmd) (n : Nat),
    let w := b.work
    w.cmd c.id = some c → c.timer = some 0 → c.endStatus = none → c.suspended = false → c.slice = some n → w.run c.id = none →
    ((b.dct.teardownMask n).testBit 0 = false → Decides b (.timeout c.id) fun w' =>
      (w'.cmd c.id).bind Cmd.endStatus = some St.cmdTimeout ∧ w'.cap.teardowns = w.cap.teardowns) ∧
    ((b.dct.teardownMask n).testBit 0 = true → (w.slice n).state ≠ .fenced → tearing w n c.ctx = false →
      (w.ctx n c.ctx).killed = false → Decides b (.timeout c.id) fun w' =>
        (∃ k, w'.cap.teardowns = w.cap.teardowns ++
          [{ slice := n, ctx := c.ctx, status := St.cmdTimeout, cmd := some c.id, others := St.ownerReset, rank := some k }]) ∧
        (w'.ctx n c.ctx).stopped = true ∧ (w'.cmd c.id).map Cmd.badStatus = some St.cmdTimeout))) ∧
  ((∀ (s : State) (n i c : Nat), s.live → Defers (.lendExpiry n i c) s (.lend n i c)) ∧
  (∀ (b : Block) (l : Lend),
    let w := b.work
    l ∈ w.lends → l.live = true → l.beats = 0 → (w.slice l.slice).state ≠ .fenced → (w.slice l.slice).state ≠ .off →
    tearing w l.slice l.ctx = false → (w.ctx l.slice l.ctx).killed = false →
    (lendStands w l.slice l.sem l.ctx = false → Decides b (.lend l.slice l.sem l.ctx) fun w' =>
      (∀ k, k ∈ w'.lends ↔ k ∈ w.lends ∧ ¬(k.slice = l.slice ∧ k.sem = l.sem ∧ k.ctx = l.ctx)) ∧
      { w' with lends := w.lends } = w) ∧
    (lendStands w l.slice l.sem l.ctx = true → Decides b (.lend l.slice l.sem l.ctx) fun w' =>
      (w'.sem l.slice l.sem).holding l.ctx = 0 ∧ (w'.sem l.slice l.sem).abandoned = true ∧
      (∀ c, w'.cmds = [c] → c.slice = some l.slice → semIndex c.bytes = l.sem → acquireFits w' c = true →
        ((grantsLate 1 w').sem l.slice l.sem).abandoned = false ∧
        ((grantsLate 1 w').sem l.slice l.sem).holding c.ctx = (w'.sem l.slice l.sem).holding c.ctx) ∧
      (∃ k, w'.cap.teardowns = w.cap.teardowns ++
        [{ slice := l.slice, ctx := l.ctx, status := St.semLendExpired, cmd := none, others := St.ownerReset, rank := some k }]) ∧
      (w'.ctx l.slice l.ctx).stopped = true))) ∧
  (∀ (s : State) (k : Nat) (r : Req) (b : List Byte), s.live →
    let w := s.core.work
    let x := w.slot k
    (slotAnswer w k (.slotSave k) = some (r, St.ok, b) → x.state = .saving → x.next = none →
      Does (.slotSaveDone k) s fun w' =>
        w'.slot k = {} ∧ (∀ j, j ≠ k → w'.slot j = w.slot j) ∧ (w'.ctx x.slice x.ctx).saved = true ∧
        (w'.ctx x.slice x.ctx).engineNs = (w.ctx x.slice x.ctx).engineNs) ∧
    (slotAnswer w k (.slotRecord k) = some (r, St.ok, b) → x.state = .loading → (fieldAt b 32 1).testBit 0 = true →
      (fieldAt b 33 1).testBit 0 = false →
      Does (.slotLoadDone k) s fun w' =>
        w'.slot k = { x with state := .idle, beats := 0 } ∧ (∀ j, j ≠ k → w'.slot j = w.slot j) ∧
        let y := w.ctx x.slice x.ctx
        w'.ctx x.slice x.ctx = { y with
          engineNs := if y.counted then y.engineNs else y.engineNs + BitVec.ofNat 64 (fieldAt b 0 8)
          planerBytes := if y.counted then y.planerBytes else y.planerBytes + BitVec.ofNat 64 (fieldAt b 8 8)
          saved := false
          killed := if y.known then y.killed else (fieldAt b 33 1).testBit 1
          last := if y.known then y.last else BitVec.ofNat 16 (fieldAt b 34 2)
          known := true, counted := true }) ∧
    (slotAnswer w k (.slotRecord k) = some (r, St.ok, b) → x.state = .loading → (fieldAt b 32 1).testBit 0 = false →
      (w.slice x.slice).state = .active → tearing w x.slice x.ctx = false → (w.ctx x.slice x.ctx).killed = false →
      ((w.ctx x.slice x.ctx).known = true ∨ (fieldAt b 33 1).testBit 1 = false) →
      Does (.slotLoadDone k) s fun w' =>
        ∃ k, w'.cap.teardowns = w.cap.teardowns ++
          [{ slice := x.slice, ctx := x.ctx, status := St.badCommand, cmd := none, others := St.ownerReset, rank := some k }]))

/-- The snapshot: parameters written since take effect; RR moves on; a slice without ready tiles is charged for its
use and keeps no credit; a port that does not serve gets neither primary nor grants (R260 to R264). The copy engine's
round for a slice of weight 1 with one COPY that has moved all it has asked for: it reads the next 64 KiB, or what is
left, from the source, charged to the slice, of a slice with a memory limit no request past the one that brings its level to 0 or
below (R267); with no command of the engine in flight nothing happens (R182, R293). It
rests on the model's choices of log entry 32. -/
def Obligations.SnapshotsAndCopyRounds : Prop :=
  (∀ (s : State), s.live → Acts .grantSnapshot s fun b =>
    b.dct = { s.core.dct with taken := s.core.dct.vals } ∧ b.work.rr = (s.core.work.rr + 1) % 64 ∧
    (∀ n, (b.work.slice n).used = 0) ∧
    (∀ n, sliceTiles s.core.work n = 0 →
      (b.work.slice n).deficit = min ((s.core.work.slice n).deficit - ((s.core.work.slice n).used : Int)) 0) ∧
    (∀ p, p < 16 → (servingPorts s.core.work).contains p = false →
      (b.work.port p).nextPrimary = none ∧ (b.work.port p).nextGrants = []) ∧
    { b with work := s.core.work, dct := s.core.dct } = s.core) ∧
  (∀ (s : State) (n : Nat), s.live →
    let w := s.core.work
    (∀ c, w.cmds = [c] → c.op = some .copy → c.slice = some n → c.phase = .running → c.endStatus = none →
      c.suspended = false → c.aux = [] → w.fab.reqs = [] → (w.slice n).state = .active → (w.ctx n c.ctx).stopped = false →
      memShut s.core w n = false → c.bytesDone < moveLen c → s.core.dct.weight n = 1 →
      Does (.copyRound n) s fun w' =>
        let a := (objReq s.core (w.obj (moveSrc c).1) .read ((moveSrc c).2 + c.bytesDone) 1 [] (.copyRead c.id)).addr.toNat
        let left := min 65536 (moveLen c - c.bytesDone)
        let len := if s.core.dct.memLimit n = 0 then left
          else min left ((a + (w.slice n).lvlMem.toNat + 255) / 256 * 256 - a)
        w'.cmds = [{ c with bytesDone := c.bytesDone + len }] ∧ w'.copyLast = n ∧
        ∃ r, w'.fab.reqs = [r] ∧ r.op = .read ∧ r.len = len ∧ r.why = .copyRead c.id ∧ r.owner = some n ∧
          r.addr = (objReq s.core (w.obj (moveSrc c).1) .read ((moveSrc c).2 + c.bytesDone) len [] (.copyRead c.id)).addr) ∧
    (w.cmds = [] → Leaves (.copyRound n) s))

/-! ### Teardowns, revocation and domain resets -/

/-- A teardown, the only one under way, completes at the end of a control cycle, once nothing of its context is left running or
unanswered: the context is KILLED with its status, no longer SAVED, holds no semaphore units, and its slot is FREE; its slice
shows CONTEXT_KILLED, and its watches end with the status of its other commands (R160, R340, R342, R562). Before, nothing happens.
PASID_REVOKE of a slice in service makes it FENCED, shows it in ADM_FENCED and SLC_ERR_CAUSE and frees its slots; at the end of
the control cycle every fence of it is marked with PASID_REVOKED, and its watches and remote waits end (R307); it completes when
every host request and page request group of the slice has been answered or has failed (R341, R591 to R593). Of a
slice that is OFF or FENCED it is rejected (R176). It rests on the model's choices of log entries 5 and 26. -/
def Obligations.TeardownAndRevocation : Prop :=
  (∀ (s : State) (n c : Nat), s.live → Defers (.teardownComplete n c) s (.teardown n c)) ∧
  (∀ (b : Block) (t : Teardown),
    let w := b.work
    w.cap.teardowns = [t] →
    (contextQuiet w t.slice t.ctx = true → slotReads w t.slice t.ctx = false →
      Decides b (.teardown t.slice t.ctx) fun w' =>
        w'.cap.teardowns = [] ∧ (w'.ctx t.slice t.ctx).killed = true ∧ (w'.ctx t.slice t.ctx).saved = false ∧
        (w'.ctx t.slice t.ctx).last = t.status ∧ (w'.ctx t.slice t.ctx).stopped = false ∧
        (∀ m, (w'.sem t.slice m).holding t.ctx = 0) ∧ (w'.slice t.slice).cause.getLsbD 2 = true ∧
        (∀ k, w.slotOf t.slice t.ctx = some k → (w'.slot k).state = .free) ∧
        .dropWatches t.slice t.ctx t.others ∈ w'.late) ∧
    ((contextQuiet w t.slice t.ctx = false ∨ slotReads w t.slice t.ctx = true) →
      Decides b (.teardown t.slice t.ctx) (· = w))) ∧
  ((∀ (s : State) (c : Cmd), s.live → Ready s.core.work .pasidRevoke c → c.slice = none →
    let w := s.core.work
    let n := bodySlice c.bytes
    ((w.slice n).state ≠ .off → (w.slice n).state ≠ .fenced → Does (.pasidRevoke c.id) s fun w' =>
      (w'.slice n).state = .fenced ∧ (w'.slice n).revoking = true ∧ (w'.slice n).hostLog.on = false ∧
      (w'.slice n).devLog.on = false ∧ (w'.slice n).cause.getLsbD 3 = true ∧ w'.fenced = setBit w.fenced n ∧
      (∀ k, (w.slot k).slice = n → (w.slot k).state ≠ .free → (w'.slot k).state = .free) ∧
      .markAll n St.pasidRevoked ∈ w'.late ∧
      w'.cmd c.id = some { c with phase := .running, waiting := .revoke }) ∧
    (((w.slice n).state = .off ∨ (w.slice n).state = .fenced) → Does (.pasidRevoke c.id) s (JustEnds w c St.stateReject))) ∧
  (∀ (b : Block) (n : Nat) (st : Status),
    let w := b.work
    Decides b (.markAll n st) fun w' =>
      (∀ i, i < (w.slice n).fenceCount → (w.fence n i).value ≠ BitVec.allOnes 64 →
        w'.fence n i = { w.fence n i with
          err := if (w.fence n i).err = 0 then st else (w.fence n i).err, errTop := BitVec.allOnes 64 }) ∧
      (w'.slice n).watches = [] ∧ (w'.slice n).remoteWaits = []) ∧
  (∀ (s : State) (n : Nat), s.live →
    let w := s.core.work
    let done := (∀ r ∈ w.fab.reqs, r.slice ≠ some n ∨ r.answer ≠ none) ∧ ∀ g ∈ w.fab.groups, g.slice ≠ n ∨ g.burnt = true
    ((w.slice n).revoking = true → done → Does (.pasidRevokeComplete n) s fun w' =>
      w'.slice n = { w.slice n with revoking := false } ∧ (∀ k, k ≠ n → w'.slice k = w.slice k) ∧
      (∀ d, w.cmd d.id = some d → d.endStatus = none → w'.cmd d.id = some
        (if d.op = some .pasidRevoke ∧ d.waiting = .revoke ∧ bodySlice d.bytes = n then
          d.endWith St.ok else d)) ∧
      { w' with slices := w.slices, cmds := w.cmds } = w) ∧
    (((w.slice n).revoking = false ∨ ¬done) → Leaves (.pasidRevokeComplete n) s)))

/-- DOMAIN_RESET of each domain (R571, R572, R577 to R581): an engine port without a running tile begins the rung
named; the Planer and the engine domain enter reset; the joiner cluster is reset, with the mailbox unit in MAINT; a
Tenon port's lane resets fall; a slice without a context in use ends at once; the block's ends before the reset, which
falls due. A port that is absent or retired, a Tenon port without its PORT_ENABLE bit and a slice that is OFF are
rejected. It rests on the model's choices of log entry 48. -/
def Obligations.DomainResets : Prop :=
  ∀ (s : State) (c : Cmd), s.live → Ready s.core.work .domainReset c → s.core.work.jnr.boxDue = false →
    let w := s.core.work
    let d := fieldAt c.bytes 24 1
    let i := fieldAt c.bytes 25 1
    let r := fieldAt c.bytes 26 1
    ((d = 1 ∧ ((w.port i).state = .absent ∨ (w.port i).state = .retired) ∨ d = 4 ∧ s.core.dct.portEnable.testBit i = false ∨
        d = 5 ∧ (w.slice i).state = .off) →
      Acts (.domainReset c.id) s fun b => JustEnds w c St.stateReject b.work ∧ { b with work := w } = s.core) ∧
    (d = 1 → (w.port i).state = .inService → (w.port i).due = none → w.pln.engineDomain = false → runningTile w i = none →
      1 ≤ r → r ≤ 3 → Acts (.domainReset c.id) s fun b =>
        (b.work.port i).state = (if r = 1 then .softReset else .hardReset) ∧
        (b.work.port i).ladder.map (fun l => (l.named, l.status, l.cmd)) = some (r, St.resetDomain, some c.id) ∧
        (b.work.cmd c.id).map (fun x => (x.phase, x.waiting)) = some (.running, .domain) ∧
        ∀ j, j ≠ c.id →
          (b.work.cmd j).map (fun x => { x with readyAt := [] }) = (w.cmd j).map fun x => { x with readyAt := [] }) ∧
    (d = 2 → w.pln.inReset = false → w.pln.engineDomain = false → Acts (.domainReset c.id) s fun b =>
      b.work.pln.inReset = true ∧ b.work.pln.plnCmd = some c.id ∧ b.work.pln.lanes = [] ∧
      (b.work.cmd c.id).map (fun x => (x.phase, x.waiting)) = some (.running, .domain)) ∧
    (d = 3 → jnrInReset w = false → Acts (.domainReset c.id) s fun b =>
      b.work.jnr.state = .reset ∧ b.work.jnr.cause = .domainReset ∧ b.work.jnr.progs = [] ∧ b.work.jnr.domainCmd = some c.id ∧
      b.mbx.maint = true) ∧
    (d = 4 → s.core.dct.portEnable.testBit i = true → w.cmds.any (fun x => x.awaits 4 i) = false →
      Acts (.domainReset c.id) s fun b =>
        (b.lport i).rstN = false ∧ (b.lport i).deskew = none ∧ (b.lport i).lane0.blockLock = false ∧
        (b.lport i).lane1.blockLock = false) ∧
    (d = 5 → (w.slice i).state ≠ .off → sliceInReset w i = false → contextsInUse w i = [] →
      (∀ t ∈ w.cap.teardowns, t.slice ≠ i) →
      Acts (.domainReset c.id) s fun b => (b.work.cmd c.id).bind Cmd.endStatus = some St.ok) ∧
    (d = 6 → w.pln.engineDomain = false → Acts (.domainReset c.id) s fun b =>
      b.work.pln.engineDomain = true ∧ b.work.pln.inReset = true ∧ b.work.pln.engCmd = some c.id ∧
      Turns w c { c with phase := .running, waiting := .domain } b.work) ∧
    (d = 7 → Acts (.domainReset c.id) s fun b =>
      Ends w c St.ok b.work ∧ b.work.cap.blockReset = true ∧ b.work.cap.recordFirst = true)

/-! ### The joiner cluster -/

/-- RECOVER, RESTART and a ring of bit 0 on channel 0 in NORMAL mode reset the cluster and return every channel to MAINT; the
boot ROM then enters RECOVERY_WAIT and rings READY, or checks the retained image, and starts one that passes with a copy of it
in every core; a load, whose ring comes with it where the bit is not set, shows LOADING and reads the header and then the rest
as the physical function, and its image is checked; a failed read and a failed check show their codes; the firmware's NORMAL
mode runs the cores that self-test left, and without it in time START_FAILED is rung (R441 to R445, R451). It rests on the model's choices of log entry 36. -/
def Obligations.ClusterStarts : Prop :=
  (∀ (s : State) (i : Instr) (k : ClusterCause), s.live → tblWf none s.core.mbx.locks = true →
    (i = .recover ∧ k = .recover ∨ i = .restart ∧ k = .restart ∨
      (i = .recoveryRing ∨ ∃ mid, i = .recoveryLoad mid ∧ endAccepts s.core mid.toNat 0 false = true) ∧
      k = .recoveryRing ∧ s.core.mbx.maint = false ∧ (s.core.chan 0).db.getLsbD 0 = false) →
    Acts i s fun b =>
      b.work.jnr.state = .reset ∧ b.work.jnr.cause = k ∧ b.work.jnr.progs = [] ∧
      b.work.jnr.cores = stopCores s.core.work.jnr.cores ∧ b.mbx.maint = true ∧
      (s.core.mbx.maint = false → b.mbx.chans = []) ∧
      (∀ j o, b.lock j = some o → s.core.lock j = some o ∧ clusterMid o.toNat = false)) ∧
  (∀ (s : State) (k : ClusterCause), s.live → s.core.work.jnr.state = .reset → s.core.work.jnr.cause = k →
    (k = .recover ∨ k = .recoveryRing → Acts (.clusterReset k) s fun b =>
      b.work.jnr.state = .recoveryWait ∧ b.work.jnr.lastCode = 1 ∧ (b.chan 0).db.getLsbD 16 = true ∧
      (b.chan 0).clusterWord.setWidth 16 = (1 : BitVec 16)) ∧
    (k = .restart ∨ k = .domainReset → Acts (.clusterReset k) s fun b =>
      b.work.jnr = { s.core.work.jnr with state := .checking } ∧ { b with work := s.core.work } = s.core)) ∧
  (∀ (b : Block), b.work.jnr.state = .checking →
    (imageCheck b.work.jnr.image = cLoaded →
      (bootProceeds b).work.jnr.state = .starting ∧ (bootProceeds b).work.jnr.lastCode = 3 ∧
      (bootProceeds b).work.jnr.attempts = 0 ∧ ((bootProceeds b).chan 0).db.getLsbD 16 = true ∧
      (bootProceeds b).work.jnr.image = b.work.jnr.image ∧
      ∀ k, 1 ≤ k → k < 32 → tblGet [] (bootProceeds b).work.jnr.copies k = b.work.jnr.image) ∧
    (imageCheck b.work.jnr.image ≠ cLoaded →
      (bootProceeds b).work.jnr.state = .recoveryWait ∧
      (bootProceeds b).work.jnr.lastCode = BitVec.ofNat 16 (imageCheck b.work.jnr.image) ∧
      (bootProceeds b).work.jnr.image = [] ∧ ((bootProceeds b).chan 0).db.getLsbD 16 = true)) ∧
  (∀ (s : State) (mid : BitVec 8), s.live → s.core.work.jnr.state = .recoveryWait → (s.core.chan 0).db.getLsbD 0 = false →
    let a := (s.core.chan 0).peerWord
    (endAccepts s.core mid.toNat 0 false = false → Acts (.recoveryLoad mid) s fun b => b = countRefused s.core) ∧
    (endAccepts s.core mid.toNat 0 false = true → s.core.mbx.maint = true → Acts (.recoveryLoad mid) s fun b =>
      b.work.jnr.attempts = satInc s.core.work.jnr.attempts ∧ (b.chan 0).db.getLsbD 0 = false ∧
      (a = 0 → b.work.jnr.state = .checking) ∧
      (a ≠ 0 → b.work.jnr.state = .loading ∧ ∃ r ∈ b.work.fab.reqs, r.op = .read ∧ r.addr.toNat = a.toNat ∧ r.len = 256 ∧
        r.slice = none ∧ r.why = .bootRead false))) ∧
  (∀ (s : State) (mid : BitVec 8), s.live → s.core.work.jnr.state = .recoveryWait → (s.core.chan 0).db.getLsbD 0 = true →
    let a := (s.core.chan 0).peerWord
    (a ≠ 0 → Acts (.recoveryLoad mid) s fun b =>
      b.work.jnr.state = .loading ∧ b.work.jnr.image = [] ∧ b.work.jnr.attempts = satInc s.core.work.jnr.attempts ∧
      b.work.jnr.lastCode = 2 ∧ (b.chan 0).db.getLsbD 0 = false ∧
      Asks s.core.work none .read false a.toNat 256 [] (.bootRead false) b.work) ∧
    (a = 0 → Acts (.recoveryLoad mid) s fun b =>
      b.work.jnr = { s.core.work.jnr with state := .checking, attempts := satInc s.core.work.jnr.attempts } ∧
      (b.chan 0).db.getLsbD 0 = false ∧ { b with work := s.core.work, mbx := s.core.mbx } = s.core)) ∧
  (∀ (b : Block) (r : Req) (rest : Bool) (st : Status) (data : List Byte), b.work.jnr.state = .loading →
    let image := b.work.jnr.image ++ data
    let len := fieldAt image 8 4
    let b' := bootAnswered r rest st data b
    (st ≠ St.ok → b'.work.jnr.state = .recoveryWait ∧ b'.work.jnr.lastCode = 0x13 ∧ (b'.chan 0).db.getLsbD 16 = true) ∧
    (st = St.ok → b'.work.jnr.image = image ∧
      (rest = false → 256 < len → len ≤ 65536 → b'.work.jnr.state = .loading ∧
        Asks b.work none .read false (r.addr.toNat + 256) (len - 256) [] (.bootRead true) b'.work) ∧
      (rest = true ∨ len ≤ 256 ∨ 65536 < len → b'.work.jnr.state = .checking))) ∧
  (∀ (s : State), s.live → s.core.work.jnr.state = .starting →
    Acts .firmwareNormal s (fun b =>
      b.work.jnr.state = .running ∧ b.mbx.maint = false ∧
      (∀ k, k < 32 → (b.work.jcore k).up = (!s.core.st.bistCores.getLsbD k && !(s.core.work.jcore k).restarting) ∧
        (b.work.jcore k).inService = !s.core.st.bistCores.getLsbD k)) ∧
    ((s.core.st.warm = false ∨ s.core.st.done = true) → Acts .firmwareStartTimeout s fun b =>
      b.work.jnr.state = .recoveryWait ∧ b.work.jnr.lastCode = 0x14 ∧ (b.chan 0).db.getLsbD 16 = true))

/-- A core fault stops the core, forgets its images and is counted, and makes the program of the core a suspect; a
fault while the core restarts, and a restart that fails, reset the cluster; a good restart brings the core back to
replay its suspects, with the registers that the image's copy gives it; a core that is not up has no fault, and one is no fault by
beats before its second unacknowledged event (R436, R565 to R567). It rests on the model's choices of log entries 26 and
36. -/
def Obligations.CoreFaults : Prop :=
  ∀ (s : State) (k : Nat) (why : CoreFaultCause), s.live → s.core.work.jnr.state = .running →
    let w := s.core.work
    let x := w.jcore k
    ((x.up = false ∧ x.restarting = false ∨ why = .beatNotAcknowledged ∧ x.events < 2) → w.jnr.boxDue = false →
      Acts (.coreFault k why) s (· = s.core)) ∧
    ((why = .beatNotAcknowledged → 2 ≤ x.events) →
    (x.up = true → x.restarting = false → corePrograms w k = [] → Acts (.coreFault k why) s fun b =>
      (b.work.jcore k).up = false ∧ (b.work.jcore k).restarting = true ∧ (b.work.jcore k).kept = [] ∧
      (b.work.jcore k).faults = satInc x.faults ∧ (b.work.jcore k).confirmed = x.confirmed ∧
      (∀ j, j ≠ k → b.work.jcore j = w.jcore j) ∧ b.work.jnr.state = .running ∧ b.work.cap.seq = w.cap.seq + 1) ∧
    (∀ p, x.up = true → x.restarting = false → w.jnr.progs = [p] → p.core = k → p.gone = false → p.replaying = false →
      Acts (.coreFault k why) s fun b => b.work.jnr.progs = [{ p with suspect := true, current := false, exitA0 := none }]) ∧
    (x.restarting = true → Acts (.coreFault k why) s fun b =>
      b.work.cap.seq = w.cap.seq + 1 ∧ b.work.jnr.state = .reset ∧ b.work.jnr.cause = .domainReset ∧ b.work.jnr.progs = [] ∧ b.mbx.maint = true)) ∧
    (x.restarting = true →
      (imageCheck (imageSource w k) = cLoaded → Acts (.coreRestartDone k true) s fun b =>
        b.work.jcore k = { x with
          up := true, restarting := false, replay := true, kept := [], hart := firmwareHart (imageSource w k) } ∧
        (∀ j, j ≠ k → b.work.jcore j = w.jcore j)) ∧
      (∀ intact : Bool, (intact = false ∨ imageCheck (imageSource w k) ≠ cLoaded) → Acts (.coreRestartDone k intact) s fun b =>
        b.work.jnr.state = .reset ∧ b.work.jnr.cause = .domainReset ∧ b.work.jnr.progs = []))

/-- What a program that runs does: EXIT without stores out ends its TIDY with OK for 0 and TIDY_EXIT else; YIELD and
the end of its time give the core to the next program; FENCE W,O waits for its stores; a trap that TEARDOWN_MASK
leaves out fails its TIDY with TIDY_FAULT; a load or store of host memory goes to the port with the slice's PASID, and
an AMO to device memory with its function; in the program's own pages a store writes the bytes, a load returns them, an AMO of
either width leaves its result and returns the old value, and LR and SC keep and use a reservation; LR, SC and 32-bit AMOs
elsewhere, and any AMO to host memory, trap (R75, R424 to R431, R558, R559). The registers of the user page: a signal or an
add of a fence of the program's slice takes VALUE, and STATUS is its outcome, BAD_COMMAND for an index outside the
pool; a doorbell word reaches the queue it names (R302, R305, R433, R434). It rests on the model's choices of log
entries 4, 35 and 36. -/
def Obligations.JoinerPrograms : Prop :=
  (∀ (s : State) (p : Prog), s.live → s.core.work.prog p.pid = some p → progRuns s.core.work p = true → p.pages ≤ 44 →
    let w := s.core.work
    (∀ (a0 : BitVec 64) (c : Cmd), p.storesOut = 0 → w.cmd p.cmd = some c → c.endStatus = none →
      Does (.ecallExit p.pid a0) s fun w' =>
        (w'.cmd p.cmd).bind Cmd.endStatus = some (if a0 = 0 then St.ok else St.tidyExit) ∧ w'.prog p.pid = none) ∧
    (∀ i q, i = .ecallYield p.pid ∨ i = .tidySliceExpiry p.pid → q.pid ≠ p.pid → w.jnr.progs = [p, q] → q.core = p.core →
      q.gone = false → q.suspect = false →
      Does i s fun w' => w'.jnr.progs = [{ p with current := false }, { q with current := true }] ∧
        { w' with jnr := w.jnr } = w) ∧
    Does (.programFence p.pid) s (fun w' =>
      w'.prog p.pid = some { p with fencing := p.storesOut != 0 } ∧ { w' with jnr := w.jnr } = w) ∧
    (∀ c n, w.cmd p.cmd = some c → c.slice = some n → c.endStatus = none → (s.core.dct.teardownMask n).testBit 2 = false →
      w.run p.cmd = none →
      Does (.programTrap p.pid .other) s fun w' =>
        (w'.cmd p.cmd).bind Cmd.endStatus = some St.tidyFault ∧ w'.prog p.pid = none) ∧
    (∀ (a : BitVec 64) (n : Nat) (d : List Byte), 2 ^ 63 ≤ a.toNat → a.toNat + n ≤ 2 ^ 64 → 1 ≤ n → aligned (a.toNat - 2 ^ 63) n = true →
      (w.slice p.slice).state = .active →
      Acts (.programMemoryAccess p.pid a n none) s (fun b => ∃ r, b.work.fab.reqs = w.fab.reqs ++ [r] ∧ r.op = .read ∧
        r.dev = false ∧ r.addr.toNat = a.toNat - 2 ^ 63 ∧ r.len = n ∧ r.pasid = (w.slice p.slice).pasid ∧ r.why = .program p.pid ∧
        b.work.prog p.pid = some { p with lastLoad := none }) ∧
      Acts (.programMemoryAccess p.pid a n (some d)) s fun b => ∃ r, b.work.fab.reqs = w.fab.reqs ++ [r] ∧ r.op = .write ∧
        r.dev = false ∧ r.addr.toNat = a.toNat - 2 ^ 63 ∧ r.len = n ∧ r.data = bytesAt d 0 n ∧ r.pasid = (w.slice p.slice).pasid ∧
        r.why = .program p.pid ∧ b.work.prog p.pid = some { p with storesOut := p.storesOut + 1 }) ∧
    (∀ (a : BitVec 64) (fn : AmoFn) (v : BitVec 64), 2 ^ 62 ≤ a.toNat → a.toNat + 8 ≤ 2 ^ 62 + 2 ^ 48 → fn ≠ .lr → fn ≠ .sc →
      (a.toNat - 2 ^ 62) % 8 = 0 → deviceOpen s.core p.slice (a.toNat - 2 ^ 62) 8 = true → (w.slice p.slice).quiet = false →
      Does (.programAmo p.pid a fn (.double v)) s fun w' => ∃ r, w'.fab.reqs = w.fab.reqs ++ [r] ∧ r.op = .amo ∧ r.dev = true ∧
        r.amo = amoCode fn ∧ r.addr.toNat = a.toNat - 2 ^ 62 ∧ r.data = leBytes 8 v.toNat ∧ r.why = .program p.pid) ∧
    (∀ (a : BitVec 64) (fn : AmoFn) (v : AmoOperand) (c : Cmd) (n : Nat), 2 ^ 62 ≤ a.toNat →
      (fn = .lr ∨ fn = .sc ∨ amoWidth v = 4 ∨ 2 ^ 63 ≤ a.toNat) → w.cmd p.cmd = some c → c.slice = some n → c.endStatus = none →
      (s.core.dct.teardownMask n).testBit 2 = false → w.run p.cmd = none →
      Does (.programAmo p.pid a fn v) s fun w' =>
        (w'.cmd p.cmd).bind Cmd.endStatus = some St.tidyFault ∧ w'.prog p.pid = none) ∧
    (∀ (a : BitVec 64) (off n : Nat), a.toNat = 0x100000 + off → off + n ≤ p.pages * 4096 → 1 ≤ n →
      let at0 := p.base + off
      (∀ d : List Byte, Acts (.programMemoryAccess p.pid a n (some d)) s fun b =>
        localRead b.work p.core at0 n = bytesAt d 0 n ∧ OwnBytes w p.core at0 n b.work ∧
        { b.work with jnr := { b.work.jnr with mem := w.jnr.mem } } = w) ∧
      Acts (.programMemoryAccess p.pid a n none) s (fun b =>
        b.work.prog p.pid = some { p with lastLoad := some (St.ok, localRead w p.core at0 n) } ∧ { b.work with jnr := w.jnr } = w) ∧
      (∀ (fn : AmoFn) (v : AmoOperand), n = amoWidth v → off % n = 0 →
        (fn ≠ .lr → fn ≠ .sc → Does (.programAmo p.pid a fn v) s fun w' =>
          localRead w' p.core at0 n = leBytes n (amoResult fn (BitVec.ofNat (8 * n) (leNat (localRead w p.core at0 n)))
            (BitVec.ofNat (8 * n) (amoValue v).toNat)).toNat ∧ OwnBytes w p.core at0 n w' ∧
          w'.prog p.pid = some { p with lastLoad := some (St.ok, localRead w p.core at0 n) } ∧ { w' with jnr := w.jnr } = w) ∧
        (fn = .lr → Does (.programAmo p.pid a fn v) s fun w' =>
          w'.prog p.pid = some { p with lastLoad := some (St.ok, localRead w p.core at0 n), reserved := some (off, n) } ∧
          w'.jnr.mem = w.jnr.mem ∧ { w' with jnr := w.jnr } = w) ∧
        (fn = .sc → p.reserved = some (off, n) → Does (.programAmo p.pid a fn v) s fun w' =>
          localRead w' p.core at0 n = leBytes n (BitVec.ofNat (8 * n) (amoValue v).toNat).toNat ∧ OwnBytes w p.core at0 n w' ∧
          w'.prog p.pid = some { p with lastLoad := some (St.ok, leBytes 8 0), reserved := none } ∧
          { w' with jnr := w.jnr } = w) ∧
        (fn = .sc → p.reserved ≠ some (off, n) → Does (.programAmo p.pid a fn v) s fun w' =>
          w'.jnr.mem = w.jnr.mem ∧ w'.prog p.pid = some { p with lastLoad := some (St.ok, leBytes 8 1), reserved := none } ∧
          { w' with jnr := w.jnr } = w)))) ∧
  (∀ (s : State) (p : Prog) (i : BitVec 16), s.live → s.core.work.prog p.pid = some p → progRuns s.core.work p = true →
    let w := s.core.work
    let f := w.fence p.slice i.toNat
    let v := p.syncValue
    (i.toNat < (w.slice p.slice).fenceCount →
      Does (.juSyncSignal p.pid i) s (fun w' =>
        w'.fence p.slice i.toNat = signalledFence f v ∧
        w'.prog p.pid = some { p with syncStatus := if v = BitVec.allOnes 64 then St.fenceSaturated else St.ok }) ∧
      Does (.juSyncAdd p.pid i) s fun w' =>
        (v = 0 → w'.fence p.slice i.toNat = f ∧ w'.prog p.pid = some { p with syncStatus := St.ok }) ∧
        (v ≠ 0 → f.value.toNat + v.toNat ≤ 2 ^ 64 - 2 →
          w'.fence p.slice i.toNat = signalledFence f (f.value + v) ∧ w'.prog p.pid = some { p with syncStatus := St.ok }) ∧
        (v ≠ 0 → 2 ^ 64 - 2 < f.value.toNat + v.toNat →
          w'.fence p.slice i.toNat = signalledFence f (BitVec.allOnes 64) ∧
          w'.prog p.pid = some { p with syncStatus := St.fenceSaturated })) ∧
    ((w.slice p.slice).fenceCount ≤ i.toNat → ∀ y, y = .juSyncSignal p.pid i ∨ y = .juSyncAdd p.pid i →
      Does y s fun w' => w'.prog p.pid = some { p with syncStatus := St.badCommand } ∧ { w' with jnr := w.jnr } = w) ∧
    (∀ word : BitVec 64, p.slice < 64 →
      let k := 64 * p.slice + bitsOf word.toNat 37 32
      let x := w.queue k
      let t : BitVec 32 := word.setWidth 32
      reaches w k = true → latched w k = false →
      (word.getLsbD 38 = false → (t - x.tail).toNat ≤ 2 ^ x.desc.sqLog2 → (t - x.head).toNat ≤ 2 ^ x.desc.sqLog2 →
        Does (.juDoorbell p.pid word) s fun w' =>
          w'.queue k = { x with tail := t, dbPending := x.dbPending || !x.cached } ∧ (∀ m, m ≠ k → w'.queue m = w.queue m) ∧
          { w' with queues := w.queues } = w) ∧
      (word.getLsbD 38 = true → (t - x.cqHead).toNat ≤ (x.cqTail - x.cqHead).toNat → x.held = [] →
        Does (.juDoorbell p.pid word) s fun w' =>
          w'.queue k = { x with cqHead := t, dbPending := x.dbPending || !x.cached } ∧ (∀ m, m ≠ k → w'.queue m = w.queue m) ∧
          { w' with queues := w.queues } = w)))

/-! ### Tiles, engines and the Planer -/

/-- A ready tile is bound to the port that R269 chooses where its pages fit and no other tile goes before it, and begins to
stage (R269, R270, R394, R395); a free port is offered the tile that R272 chooses, with the port's next number, and a port
that is not free is offered none (R80, R83, R271). The engine takes the offered tile where its credits are there: they are
reserved, and it runs, with its result area zeroed and its operand beats to be accepted (R84, R288, R400); one that may not
run is killed at once, and a port in reset takes none (R582). A tile that stays offered too long sends its port into rung 1 of its ladder with ENGINE_HUNG, and
returns to ready with what else was bound there (R83, R84, R87, R557, R574). It rests on the model's choices of log entries 7
and 23. -/
def Obligations.TileDispatch : Prop :=
  (∀ (s : State), s.live →
    let w := s.core.work
    (∀ (c : Cmd) (n t p : Nat), w.cmd c.id = some c → c.slice = some n → c.op = some .exec → s.core.pwr.state = .ps0 →
      s.core.pwr.transition = none → mayStage s.core w c = true → tileReady w c t = true → staysResident w n c.ctx = true →
      bindPort s.core.dct w c n = some p →
      (newPages w c p ((List.range 8).map (slotAt s.core.dct w c p t)) ≤ freePages w p → boundAfter s.core w c t p = false →
        Does (.tileBind c.id t) s fun w' => ∃ x : Tile, w'.tiles = w.tiles ++ [x] ∧ x.cmd = c.id ∧ x.index = t ∧ x.port = p ∧
          (x.state = .staging ∨ x.state = .staged) ∧ x.slots = (List.range 8).map (slotAt s.core.dct w c p t) ∧
          x.order = readyKey c t ∧ x.result = [] ∧ { w' with tiles := w.tiles } = w) ∧
      (boundAfter s.core w c t p = true → Leaves (.tileBind c.id t) s)) ∧
    (∀ (c : Cmd) (n t : Nat), w.cmd c.id = some c → c.slice = some n → bindPort s.core.dct w c n = none →
      Leaves (.tileBind c.id t) s) ∧
    (∀ (p : Nat) (t : Tile) (c : Cmd), portFree w p = true → chooseTile w ((tilesOn w p).filter (qualifies s.core w)) = some t →
      w.cmd t.cmd = some c →
      Does (.tileOffer p) s fun w' =>
        w'.tiles = w.tiles.map (fun x => if sameTile x t.cmd t.index then
          { x with state := .offered, tileId := (w.port p).nextTile } else x) ∧
        w'.port p = { w.port p with nextTile := (w.port p).nextTile + 1 } ∧ (∀ q, q ≠ p → w'.port q = w.port q) ∧
        w'.fab = w.fab.emit (.tileDesc p (tileDesc c t (w.port p).nextTile)) ∧
        { w' with tiles := w.tiles, ports := w.ports, fab := w.fab } = w) ∧
    (∀ p, portFree w p = false ∨ chooseTile w ((tilesOn w p).filter (qualifies s.core w)) = none → Leaves (.tileOffer p) s)) ∧
  (∀ (s : State) (p : Nat) (t : Tile), s.live → offeredTile s.core.work p = some t →
    let w := s.core.work
    let ports := ((w.cmd t.cmd).map (creditPorts s.core w)).getD []
    ((creditsFree s.core w ports = false ∨ (w.port p).inService = false ∨ w.pln.engineDomain = true) →
      Leaves (.tileStart p) s) ∧
    (creditsFree s.core w ports = true → (w.port p).inService = true → w.pln.engineDomain = false →
      Does (.tileStart p) s (fun w' =>
      w'.tiles = w.tiles.map (fun x => if sameTile x t.cmd t.index then
        { x with state := .running, result := [], startCycle := s.core.clk.cycle, grace := false, beats := 0, credits := ports }
        else x) ∧
      (∀ q, tblGet 0 w'.msgs.credits q = tblGet 0 w.msgs.credits q + ports.count q) ∧
      (∀ c n, w.cmd t.cmd = some c → c.slice = some n → startKill w t = none →
        w'.port p = { w.port p with
          overrun := false, opd := (List.range 8).flatMap fun k => deliverSlot w p n c t k }) ∧
      (∀ why, startKill w t = some why → w'.port p = { w.port p with
        overrun := false, opd := (w.port p).opd.take 1, kill := true, killWhy := some why,
        killFresh := (w.port p).killFresh || !(w.port p).kill }) ∧
      (∀ q, q ≠ p → w'.port q = w.port q) ∧
      { w' with tiles := w.tiles, ports := w.ports, msgs := { w'.msgs with credits := w.msgs.credits } } = w)) ∧
    Does (.tileOfferTimeout p) s fun w' =>
      (w'.port p).state = .softReset ∧ (w'.port p).srst = true ∧ (w'.port p).hung = satInc (w.port p).hung ∧
      (w'.port p).ladder.map (fun l => (l.rung, l.named, l.status, l.cmd)) = some (1, 0, St.engineHung, none) ∧
      (∀ x ∈ w'.tiles, x.port = p → x.state ≠ .staging ∧ x.state ≠ .staged ∧ x.state ≠ .offered) ∧
      (∀ x ∈ w.tiles, x.port ≠ p → (∀ y ∈ w.tiles, y.port = p → sameTile y x.cmd x.index = false) → x ∈ w'.tiles) ∧ KeepsCmds w w')

/-- A result beat of the running tile writes the bytes that its mask names. Its end and its fault are settled at the end of their
control cycle (R45): its end is charged to its context and slice, but for a replay that no slice pays (R577), and it goes to
commit; its fault counts, drops it, sends the port into rung 1 and tears its context down with ENGINE_FAULT, whatever else the
cycle brings; in the cycle of a kill a fault counts on the port alone, and after a Kiln error the tile done does not commit (R414).
What comes for a tile killed in an earlier cycle is discarded. A beat of no running tile, or after tile done, is a protocol error
(R38 to R45, R83, R87 to R90, R154, R259, R557). It rests on the model's choices of log entries 7, 23 and 24. -/
def Obligations.TileResults : Prop :=
  (∀ (s : State) (p : Nat) (id : BitVec 8), s.live →
    let w := s.core.work
    let portBecomes (i : Instr) (x : Port) : Prop := Does i s fun w' =>
      w'.port p = x ∧ (∀ q, q ≠ p → w'.port q = w.port q) ∧ { w' with ports := w.ports } = w
    (killOld w p = true → (runningTile w p).isSome = true →
      (∀ o m d, Leaves (.resultBeat p id o m d) s) ∧ (∀ n, Leaves (.tileDone p id n) s) ∧
      ∀ code n, (namedTile w p id).isSome = true → Leaves (.engineFault p id code n) s) ∧
    (killOld w p = false →
    (namedTile w p id = none → (w.port p).inService = true → (w.port p).ladder = none → ∀ i,
      (∃ o m d, i = .resultBeat p id o m d) ∨ (∃ n, i = .tileDone p id n) ∨ (∃ code n, i = .engineFault p id code n) →
      portBecomes i { w.port p with protoErrs := (w.port p).protoErrs + 1 }) ∧
    (∀ (t : Tile) (c : Cmd), namedTile w p id = some t → w.cmd t.cmd = some c →
      ((w.port p).done.isSome = true → ∀ i, (∃ o m d, i = .resultBeat p id o m d) ∨ (∃ n, i = .tileDone p id n) →
        portBecomes i { w.port p with protoErrs := (w.port p).protoErrs + 1 }) ∧
      ((w.port p).done = none →
        (∀ (o : BitVec 16) (mask : BitVec 128) (data : List Byte), o.toNat < resultKib c.bytes → data.length = 1024 →
          Does (.resultBeat p id o mask data) s fun w' => ∃ t' ∈ w'.tiles,
            t' = { t with beats := t.beats + 1, result := t'.result } ∧
            (∀ j, j < 1024 → tblGet 0 t'.result (o.toNat * 1024 + j) =
              if mask.getLsbD (j / 8) then data.getD j 0 else tblGet 0 t.result (o.toNat * 1024 + j)) ∧
            (∀ k, k < o.toNat * 1024 ∨ o.toNat * 1024 + 1024 ≤ k → tblGet 0 t'.result k = tblGet 0 t.result k) ∧
            { w' with tiles := w.tiles } = w) ∧
        (∀ (o : BitVec 16) mask data, resultKib c.bytes ≤ o.toNat → (w.port p).fault = none →
          portBecomes (.resultBeat p id o mask data) { w.port p with fault := some (0xFF, sinceStart s.core t) }) ∧
        ∀ cycles, portBecomes (.tileDone p id cycles) { w.port p with done := some cycles }) ∧
      ∀ code cycles, portBecomes (.engineFault p id code cycles)
        { w.port p with fault := some ((w.port p).fault.getD (code, cycles)) }))) ∧
  (∀ (e : Block) (w : Work) (p : Nat) (t : Tile) (c : Cmd) (n : Nat), runningTile w p = some t → w.cmd t.cmd = some c →
    c.slice = some n →
    let x := w.port p
    let w' := endPort e p w
    (∀ cycles, x.fault = none → x.done = some cycles → x.killWhy ≠ some .kilnError →
      (∃ ran, { t with state := .committing, slots := [], doneBeat := e.clk.beat.toNat, ran := ran } ∈ w'.tiles) ∧
      w'.pln.commitQ = w.pln.commitQ ++ [(t.cmd, t.index, p)] ∧
      w'.port p = { x with done := none, fault := none, overKill := false, overrun := false, killWhy := none } ∧
      (w'.ctx n c.ctx).engineNs = (w.ctx n c.ctx).engineNs + BitVec.ofNat 64 (cyclesToNs e.dct cycles) ∧
      (w'.slice n).used = (w.slice n).used + (if c.unpaid.contains t.index then 0 else cyclesToNs e.dct cycles) ∧
      w'.cmds = w.cmds) ∧
    (∀ cycles, x.fault = none → x.done = some cycles → x.killWhy = some .kilnError → x.overKill = false →
      w'.port p = { x with done := none } ∧ (∀ q, q ≠ p → w'.port q = w.port q) ∧ { w' with ports := w.ports } = w) ∧
    (∀ code cycles, x.fault = some (code, cycles) → x.kill = true → x.overKill = false →
      w'.port p = { x with done := none, fault := none, faults := satInc x.faults, lastFlt := code } ∧
      (∀ q, q ≠ p → w'.port q = w.port q) ∧ { w' with ports := w.ports } = w) ∧
    (∀ code cycles, x.fault = some (code, cycles) → x.kill = false → c.endStatus = none → (w.slice n).state ≠ .fenced →
      tearing w n c.ctx = false → (w.ctx n c.ctx).killed = false →
      (w'.port p).state = .softReset ∧ (w'.port p).faults = satInc x.faults ∧ (w'.port p).lastFlt = code ∧
      (∀ y ∈ w'.tiles, sameTile y t.cmd t.index = false) ∧
      ∃ k, w'.cap.teardowns = w.cap.teardowns ++
        [{ slice := n, ctx := c.ctx, status := St.engineFault, cmd := some t.cmd, others := St.ownerReset, rank := some k }]))

/-- Kills and overruns: a tile is pre-empted for a priority-7 one, whose slice pays for it, and keeps its operands for the
replay; another kill acknowledged drops the tile, whose replay no slice pays after a reset of the Planer (R577); one that is not
acknowledged by the end of the cycle in which its time runs out sends the port into its ladder as hung, with its command's
context torn down; half a beat after its start a tile is marked overrun, a full beat after it is killed, a fault where it does
not end in the same control cycle; a single-bit
Kiln error is counted, a first double-bit error of a running tile kills it for a replay (R45, R90, R282 to R287, R398, R557,
R574). It rests on the model's choices of log entries 5, 7 and 24. -/
def Obligations.KillsAndOverruns : Prop :=
  ∀ (s : State) (p : Nat) (t : Tile), s.live → runningTile s.core.work p = some t →
    let w := s.core.work
    let x := w.port p
    (∀ u, urgentTile s.core w p = some u → x.inService = true → x.kill = false → w.pln.inReset = false →
      runningPriority w p < 7 → (tileMarks w t.cmd t.index).1 < s.core.dct.killProtect →
      Does (.preemptKill p) s fun w' =>
        w'.port p = { x with kill := true, killWhy := some (.preempt ((tileSlice w u).getD 0)), killFresh := true, opd := x.opd.take 1 } ∧
        (∀ q, q ≠ p → w'.port q = w.port q) ∧ { w' with ports := w.ports } = w) ∧
    (∀ why cycles, x.kill = true → x.killWhy = some why → (∀ n, why ≠ .preempt n) → x.due = none → x.done = none →
      x.fault = none → x.overKill = false →
      Does (.killAck p cycles) s fun w' =>
        (∀ y ∈ w'.tiles, sameTile y t.cmd t.index = false) ∧ (w'.port p).kill = false ∧ (w'.port p).killWhy = none ∧
        (w'.port p).state = x.state ∧ (why ≠ .planerReset → KeepsCmds w w') ∧
        (∀ c, why = .planerReset → w.cmd t.cmd = some c → (w'.cmd t.cmd).map Cmd.unpaid =
          some (if c.unpaid.contains t.index then c.unpaid else c.unpaid ++ [t.index]))) ∧
    (∀ u c cycles, x.kill = true → x.killWhy = some (.preempt u) → x.due = none → x.done = none → x.fault = none →
      x.overKill = false → w.cmd t.cmd = some c → keepsStaged w t = true →
      Does (.killAck p cycles) s fun w' =>
        (∃ y ∈ w'.tiles, y = { t with
          state := .staged, result := [], credits := [], grace := false, beats := 0, order := y.order }) ∧
        (w'.cmd t.cmd).map (fun d => tblGet (0, 0) d.marks t.index) =
          some ((tblGet (0, 0) c.marks t.index).1 + 1, (tblGet (0, 0) c.marks t.index).2) ∧
        (w'.slice u).used = (w.slice u).used + cyclesToNs s.core.dct cycles ∧ (w'.port p).kill = false) ∧
    (x.kill = true → Defers (.killAckTimeout p) s (.hung p)) ∧ (x.kill = false → Leaves (.killAckTimeout p) s) ∧
    (∀ c n, x.kill = true → w.cmd t.cmd = some c → c.slice = some n → c.endStatus = none → (w.slice n).state ≠ .fenced →
      tearing w n c.ctx = false → (w.ctx n c.ctx).killed = false →
      Decides s.core (.hung p) fun w' =>
        (w'.port p).state = .softReset ∧ (w'.port p).hung = satInc x.hung ∧ (∀ y ∈ w'.tiles, sameTile y t.cmd t.index = false) ∧
        ∃ k, w'.cap.teardowns = w.cap.teardowns ++
          [{ slice := n, ctx := c.ctx, status := St.engineHung, cmd := some t.cmd, others := St.ownerReset, rank := some k }]) ∧
    (t.grace = false → x.done = none → Does (.tileOverrunHalf p) s fun w' =>
      w'.tiles = w.tiles.map (fun y => if sameTile y t.cmd t.index then { y with grace := true } else y) ∧
      w'.port p = { x with overrun := true, overruns := x.overruns + 1 } ∧ (∀ q, q ≠ p → w'.port q = w.port q) ∧
      { w' with tiles := w.tiles, ports := w.ports } = w) ∧
    (t.grace = true → x.kill = false → Does (.tileOverrunKill p) s fun w' =>
      w'.port p = { x with
        kill := true, killWhy := some .overrun, killFresh := true, opd := x.opd.take 1, overKill := true } ∧
      (∀ q, q ≠ p → w'.port q = w.port q) ∧ { w' with ports := w.ports } = w) ∧
    (∀ c n, x.overKill = true → x.kill = true → x.done = none → x.fault = none → w.cmd t.cmd = some c → c.slice = some n →
      c.endStatus = none → (w.slice n).state ≠ .fenced → tearing w n c.ctx = false → (w.ctx n c.ctx).killed = false →
      let w' := endPort s.core p w
      (w'.port p).kill = true ∧ (w'.port p).faults = satInc x.faults ∧
      (w'.port p).due.map (fun d => (d.1, d.2.1, d.2.2.1)) = some (1, St.tileOverrun, none) ∧
      ∃ k, w'.cap.teardowns = w.cap.teardowns ++
        [{ slice := n, ctx := c.ctx, status := St.tileOverrun, cmd := some t.cmd, others := St.ownerReset, rank := some k }]) ∧
    (∀ n place, Does (.kilnEccError p n place false) s fun w' =>
      w' = { w with pln := { w.pln with corrected := satInc w.pln.corrected } }) ∧
    (∀ c n place, (tilesOn w p)[n]? = some t → w.cmd t.cmd = some c → tblGet (0, 0) c.marks t.index = (0, 0) → x.killWhy = none →
      Does (.kilnEccError p n place true) s fun w' =>
        (w'.port p).kill = true ∧ (w'.port p).killWhy = some .kilnError ∧
        w'.pln = { w.pln with uncorrected := satInc w.pln.uncorrected } ∧ w'.tiles = w.tiles ∧
        (w'.cmd t.cmd).map (fun d => (tblGet (0, 0) d.marks t.index, d.endStatus)) = some ((0, 1), c.endStatus))

/-- A lane's finished unit joins its tile's slot, one in which the operand may end waiting for the units before it, and is charged
to its context; a code table that holds goes into the cache and the lane reads its block, and one that does not fails the
command with ROSREK_FORMAT; a commit that is done frees its lane and its tile, and the last one of a command without a signal
ends it with OK, while one with a signal keeps its tile's credits until the signal is applied (R42, R154, R288, R351, R383, R390,
R391, R404). It rests on the model's choices of log entries 14 and 33. -/
def Obligations.PlanerLanes : Prop :=
  ∀ (s : State) (l : Nat), s.live →
    let w := s.core.work
    (∀ (u : LaneUnit) (r : Req) (st : Status) (data : List Byte) (c : Cmd) (n : Nat), laneUnit w l = some u →
      laneReq w l = some r → r.answer = some (st, data) → w.cmd u.cmd = some c → c.slice = some n → u.discard = false →
      (∀ (t : Tile) (out : UnitOut), u.stage = .data → w.tiles.find? (fun x => takesUnit c u x) = some t →
        let o := slotObj w c u.slot
        let d := t.slots.getD u.slot {}
        let full := d.finish { pos := u.pos, next := unitEnd o u, found := out.found, bytes := out.bytes }
        (unitTail o u = false ∨ d.at0 = u.pos) → unitOutput o u (unitWant o d u) data = (St.ok, out) →
        (unitOpen o u = false ∨ d.left ≤ out.found) →
        tilePages c t + (full.pages - d.pages) ≤ (w.port u.port).pages → full.pages - d.pages ≤ freePages w u.port →
        (full.left ≠ 0 → full.at0 < streamLen o) →
        Does (.expanderUnitDone l) s fun w' =>
          laneUnit w' l = none ∧
          w'.tiles = w.tiles.map (fun x => if takesUnit c u x then
            ({ x with slots := x.slots.set u.slot full } : Tile).settled else x) ∧
          (w'.ctx n c.ctx).planerBytes = (w.ctx n c.ctx).planerBytes + BitVec.ofNat 64 out.bytes.length ∧ w'.cmds = w.cmds) ∧
      (∀ t : Tile, u.stage = .data → w.tiles.find? (fun x => takesUnit c u x) = some t →
        unitTail (slotObj w c u.slot) u = true → (t.slots.getD u.slot {}).at0 ≠ u.pos → Leaves (.expanderUnitDone l) s) ∧
      (u.stage = .table → tableFits (bytesAt data 0 128) = true →
        Does (.tableLoad l) s fun w' =>
          w'.pln.tables.head? = some (unitHandle c u, iTable u.entry, bytesAt data 0 128) ∧
          (laneUnit w' l).map (fun v => (v.stage, v.table, v.len)) = some (.data, bytesAt data 0 128, iBytes u.entry) ∧
          w'.cmds = w.cmds) ∧
      (u.stage = .table → tableFits (bytesAt data 0 128) = false → c.endStatus = none →
        Does (.tableLoad l) s fun w' =>
          laneUnit w' l = none ∧ (w'.cmd c.id).bind Cmd.endStatus = some St.rosrekFormat ∧ w'.pln.tables = w.pln.tables)) ∧
    (∀ (j : CommitJob) (c : Cmd) (n : Nat), commitJob w l = some j → j.done = true → j.failed = none → commitBusy w l = false →
      w.cmd j.cmd = some c → c.slice = some n → completes w c n = true → sigOf w c = none → c.badStatus = 0 →
      Does (.commitDone l) s fun w' =>
        commitJob w' l = none ∧ (∀ x ∈ w'.tiles, sameTile x j.cmd j.tile = false) ∧
        (w'.cmd j.cmd).map (fun d => (d.tilesDone, d.codes, d.clipped, d.escs)) =
          some (c.tilesDone ++ [j.tile], c.codes + j.counts.codes, c.clipped + j.counts.clipped, c.escs + j.counts.escs) ∧
        (w'.cmd j.cmd).bind Cmd.endStatus = if tileCount c.bytes ≤ c.tilesDone.length + 1 then some St.ok else none) ∧
    (∀ (j : CommitJob) (c : Cmd) (n : Nat) (t : Tile), commitJob w l = some j → j.done = true → j.failed = none →
      commitBusy w l = false → w.cmd j.cmd = some c → c.slice = some n → completes w c n = true → sigOf w c ≠ none →
      c.badStatus = 0 → commitTile w j.cmd j.tile = some t → tileCount c.bytes ≤ c.tilesDone.length + 1 →
      Does (.commitDone l) s fun w' =>
        commitJob w' l = none ∧ w'.msgs = w.msgs ∧
        (w'.cmd j.cmd).map (fun d => (d.tilesDone, d.endStatus, d.credits)) = some (c.tilesDone ++ [j.tile], none, t.credits))

/-! ### The ladder of a port -/

/-- Rung 1 ends with the acknowledgement of the soft reset, and without it in time goes on to rung 2, isolated by ISO_EN_ENGn, with
ENGn_HRST_N low for 64 control cycles; ENGn_IDLE ends a hard reset and the isolation; without it the port goes on to rung 3, which lowers PSW_EN_ENGn, and the fall of
its acknowledgement retires it; without that the engine domain is reset (R92, R573, R576). The engine domain reset, run to the
point where the Kiln is ready, ends the hard reset of every port that is present, not retired and not being retired, and takes
what the lanes held; past its time, ports that show no
ENGn_IDLE are retired, and a Kiln that is not ready resets the block. A Planer that holds work and makes no progress
enters reset, and its running tiles are killed for a replay (R577, R578). It rests on the model's choices of log
entries 7 and 24. -/
def Obligations.PortAndDomainResets : Prop :=
  (∀ (s : State) (p : Nat), s.live →
    let w := s.core.work
    let x := w.port p
    (x.state = .softReset → Does (.softResetAck p) s fun w' =>
      w'.port p = { x with
        state := .inService, ladder := none, srst := false, kill := false, idle := true, srstAck := true } ∧
      (∀ q, q ≠ p → w'.port q = w.port q) ∧
      (∀ l, x.ladder = some l → l.cmd = none → w'.cmds = w.cmds) ∧
      (∀ l c, x.ladder = some l → l.cmd = some c.id → w.cmd c.id = some c → c.endStatus = none →
        (w'.cmd c.id).bind Cmd.endStatus = some (if l.rung ≤ l.named then St.ok else St.resetDomain))) ∧
    (x.state = .softReset → Does (.softResetTimeout p) s fun w' =>
      (w'.port p).state = .hardReset ∧ (w'.port p).srst = false ∧ (w'.port p).hrstN = false ∧ (w'.port p).hrstWait = 64 ∧
      (w'.port p).idle = false ∧
      (w'.port p).hard = satInc x.hard ∧ (w'.switch (.eng p)).iso = true ∧
      (s.core.dct.retireAfter ≤ (satInc x.hard).toNat → (w'.port p).lastRung = 3 ∧ (w'.switch (.eng p)).on = false) ∧
      ((satInc x.hard).toNat < s.core.dct.retireAfter →
        (w'.port p).lastRung = 2 ∧ (w'.switch (.eng p)).on = (w.switch (.eng p)).on)) ∧
    (awaitsIdle w p = true → Does (.engineIdle p) s fun w' =>
      w'.port p = { x with state := .inService, ladder := none, srst := false, kill := false, idle := true } ∧
      w'.switch (.eng p) = { w.switch (.eng p) with iso := false } ∧ (∀ q, q ≠ p → w'.port q = w.port q)) ∧
    (awaitsIdle w p = true → Does (.hrstWaitTimeout p) s fun w' =>
      (w'.port p).state = .hardReset ∧ rungOf w' p = 3 ∧ (w'.port p).lastRung = 3 ∧
      w'.switch (.eng p) = { w.switch (.eng p) with iso := true, on := false } ∧ (∀ q, q ≠ p → w'.port q = w.port q)) ∧
    (rungOf w p = 3 → matrixLeft (w.updPort p fun y => { y with state := .retired }) = true → w.pln.engineDomain = false →
      Does (.pswAckFall p) s fun w' =>
        (w'.port p).state = .retired ∧ (w'.port p).ladder = none ∧
        w'.switch (.eng p) = { w.switch (.eng p) with ack := false } ∧
        (∀ y ∈ w'.tiles, y.port = p → y.state ≠ .staging ∧ y.state ≠ .staged ∧ y.state ≠ .offered)) ∧
    (rungOf w p = 3 → w.pln.engineDomain = false → Does (.retireWaitTimeout p) s fun w' =>
      rungOf w' p = 4 ∧ w'.pln.engineDomain = true ∧ w'.pln.inReset = true)) ∧
  (∀ (s : State), s.live →
    let w := s.core.work
    (w.pln.engineDomain = true → w.pln.inReset = true → (∃ p, p < 16 ∧ (w.port p).state = .hardReset) →
      Does .engineDomainReset s fun w' =>
        (∀ p ∈ resetDomainPorts w, w'.port p = { w.port p with hrstN := true }) ∧
        (∀ p, p ∉ resetDomainPorts w → w'.port p = w.port p) ∧
        w'.pln.inReset = false ∧ w'.pln.engineDomain = true ∧ w'.pln.lanes = [] ∧ (w'.switch .pln).iso = false ∧
        (∀ t ∈ w'.tiles, ∃ l j, (l, some j) ∈ w.pln.commits ∧ j.cmd = t.cmd ∧ j.tile = t.index ∧ j.done = true)) ∧
    (w.pln.engineDomain = true → w.pln.inReset = true → Does .engdomWaitTimeout s fun w' =>
      w' = { w with cap := { w.cap with blockReset := true } }) ∧
    (w.pln.engineDomain = true → w.pln.inReset = false → (∀ p, rungOf w p ≠ 4) → Does .engdomWaitTimeout s fun w' =>
      ∀ p, p < 16 → (w.port p).state = .hardReset → (w'.port p).state = .retired ∧ (w'.switch (.eng p)).on = false) ∧
    (planerWorks w = true → w.pln.inReset = false → w.pln.engineDomain = false → Does .planerWatchdog s fun w' =>
      w'.pln.inReset = true ∧ w'.pln.lanes = [] ∧ w'.cap.lastDomain = 2 ∧ (w'.switch .pln).iso = true ∧
      (∀ t ∈ w.tiles, t.state = .running → (w.port t.port).killWhy = none → (w'.port t.port).kill = true)) ∧
    (planerWorks w = false → Leaves .planerWatchdog s))

/-! ### The Tenon ports -/

/-- Training (R465 to R472, R513): RETRAIN and the retry timer take a port to TRAINING, its lanes in reset for 1 µs, after which it
stands at the step that its locks allow; DISABLE powers it down; 64 valid sync headers in a row give a lane block lock, 16 invalid
ones take it; a TRAIN block on a lane that holds it, of a wrong revision or too great a skew, fails training, one in touch loses the
neighbour, the last ones record it; a step not reached in time fails; PINGs are answered, or sampled, the sixteenth giving H and
PROBATION. It rests on the model's choices of log entries 39, 40 and 63. -/
def Obligations.LinkTraining : Prop :=
  (∀ (l : Lane) (xs : List (BitVec 66)),
    let after := xs.foldl (fun l x => l.header (syncValid x)) l
    (l.rxLock = true → l.blockLock = false → l.good = 0 → xs.length = 64 → (∀ x ∈ xs, syncValid x = true) →
      after.blockLock = true) ∧
    (l.blockLock = true → l.bad = 0 → xs.length = 16 → (∀ x ∈ xs, syncValid x = false) → after.blockLock = false)) ∧
  (∀ x : LinkPort,
    (1 < x.rstWait → x.resetPasses = { x with rstWait := x.rstWait - 1 }) ∧
    (x.rstWait = 1 → x.state = .training → x.step = 1 →
      x.resetPasses = { x with
        rstWait := 0, rstN := true
        step := if x.lane0.blockLock && x.lane1.blockLock then 4 else if x.lane0.rxLock && x.lane1.rxLock then 3 else 2 })) ∧
  ∀ (s : State) (p : Nat), s.live → p < 6 →
    let x := s.core.lport p
    let others (b : Block) : Prop := ∀ q, q ≠ p → b.lport q = s.core.lport q
    let failed (sub : BitVec 4) (b : Block) : Prop :=
      (b.lport p).state = x.state ∧ (b.lport p).step = 0 ∧ (b.lport p).lastCause = St.trainFailed ∧
      (b.lport p).subCause = sub ∧ (b.lport p).txIdle = true ∧ others b
    (∀ i, (i = .retrain p ∧ tnlOn s.core = true ∨
          i = .trainRetryTimer p ∧ tnlOn s.core = true ∧ (x.state = .lost ∨ x.state = .training ∧ x.step = 0)) →
      Acts i s fun b => (b.lport p).state = .training ∧ (b.lport p).rstN = false ∧
        (b.lport p).rstWait = resetCycles s.core ∧ (b.lport p).pd = false ∧ (b.lport p).step = 1 ∧
        (b.lport p).lane0.blockLock = false ∧ (b.lport p).lane1.blockLock = false ∧ (b.lport p).unacked = [] ∧
        (b.lport p).nextSeq = 0 ∧ (b.lport p).rxSeq = none ∧ portQueue b.work p = [] ∧ others b) ∧
    Acts (.portDisable p) s (fun b => (b.lport p).state = .disabled ∧ (b.lport p).txIdle = true ∧ (b.lport p).pd = true ∧
      portQueue b.work p = [] ∧ others b) ∧
    (∀ v, Acts (.rxLockChange p 0 v) s fun b => (b.lport p).lane0.rxLock = v ∧
      (b.lport p).lane0.blockLock = (x.lane0.blockLock && v) ∧ (b.lport p).lane1 = x.lane1 ∧ others b ∧ b.work = s.core.work) ∧
    (∀ xs, Acts (.blockLockChange p 1 xs) s fun b =>
      (b.lport p).lane1 = xs.foldl (fun l x => l.header (syncValid x)) x.lane1 ∧ (b.lport p).lane0 = x.lane0 ∧ others b ∧
      b.work = s.core.work) ∧
    (∀ k, (x.lane (k.lane % 2)).blockLock = false → Acts (.trainBlock p k) s fun b =>
      (b.lport p).state = x.state ∧ (b.lport p).seenRun = x.seenRun ∧ others b ∧ b.work = s.core.work) ∧
    (∀ k, (x.lane (k.lane % 2)).blockLock = true →
      (x.inTouch = true → Acts (.trainBlock p k) s fun b =>
        ((b.lport p).state = .lost ∨ (b.lport p).state = .disabled) ∧ (b.lport p).lastCause = St.peerLost ∧
        (b.lport p).flaps = satInc x.flaps) ∧
      (x.state = .training → 4 ≤ x.step → x.step < 7 → k.rev.toNat / 16 ≠ 1 → Acts (.trainBlock p k) s (failed 4)) ∧
      (∀ d, x.state = .training → x.step = 4 → k.rev.toNat / 16 = 1 → k.lane = 0 → x.lastCounter1 = some d →
        (16 < min (k.counter - d).toNat (d - k.counter).toNat → Acts (.trainBlock p k) s (failed 3)) ∧
        (min (k.counter - d).toNat (d - k.counter).toNat ≤ 16 → (x.seenRun < 15 ∨ x.doneRun < 15) →
          Acts (.trainBlock p k) s fun b =>
          (b.lport p).deskew = some (min (k.counter - d).toNat (d - k.counter).toNat) ∧
          (b.lport p).step = (if x.seen ∨ 16 ≤ (if consistent x k then x.trainRun + 1 else 1) then 6 else 5) ∧ others b)) ∧
      (x.state = .training → x.step = 6 → k.rev.toNat / 16 = 1 → x.lastCounter0 ≠ none → x.lastCounter1 ≠ none →
        15 ≤ x.seenRun → 15 ≤ x.doneRun → k.seen = true → k.done = true → expectedNeighbour s.core p = none →
        Acts (.trainBlock p k) s fun b =>
          (b.lport p).step = 7 ∧ (b.lport p).nbrChip = k.chip ∧ (b.lport p).nbrPort = k.port ∧
          (b.lport p).nbrValid = k.chipValid ∧ (b.lport p).pinging = true ∧ (b.lport p).pings = [] ∧
          b.work.fab.out = .ping p 0 false 0 :: s.core.work.fab.out ∧ others b)) ∧
    (x.state = .training → 1 ≤ x.step → x.step ≤ 6 →
      Acts (.trainFailed p) s (failed (if x.step ≤ 2 then 1 else if x.step = 3 then 2 else 5))) ∧
    (∀ (tag : BitVec 8) (echo : Bool) (turn : BitVec 16) (arrival delay : Nat),
      let y := (s.core.received p [pingBlk tag echo turn]).lport p
      (s.core.delivers p 1 = false → Acts (.pingBlock p tag echo turn arrival delay) s fun b =>
        (b.lport p).pings = x.pings ∧ others b ∧ b.work = s.core.work) ∧
      (s.core.delivers p 1 = true →
        (echo = false → Acts (.pingBlock p tag echo turn arrival delay) s fun b => b.lport p = y ∧ others b ∧
          b.work.fab.out = .ping p tag true (BitVec.ofNat 16 (min delay 4000)) :: s.core.work.fab.out) ∧
        (echo = true → x.pinging = true → tag.toNat = x.pings.length → x.pings.length < 15 →
          Acts (.pingBlock p tag echo turn arrival delay) s fun b =>
            b.lport p = { y with
              pings := x.pings ++ [arrival - x.pingAt - turn.toNat], pingAt := s.core.now } ∧ others b ∧
            b.work.fab.out = .ping p (tag + 1) false 0 :: s.core.work.fab.out) ∧
        (echo = true → x.pinging = true → tag.toNat = x.pings.length → x.pings.length = 15 → x.state = .training →
          let all := x.pings ++ [arrival - x.pingAt - turn.toNat]
          all.foldl max 0 - all.foldl min (all.headD 0) ≤ 16 →
          Acts (.pingBlock p tag echo turn arrival delay) s fun b =>
            (b.lport p).hop = BitVec.ofNat 32 (all.sum / 32) ∧ (b.lport p).state = .probation ∧
            (b.lport p).cleanBeats = 0 ∧ (b.lport p).pinging = false ∧ others b))) ∧
    (x.state = .up → s.core.clk.beat.toNat % 256 = 0 → Acts (.latencyRemeasure p) s fun b =>
      b.lport p = { x with pings := [], pinging := true, pingAt := s.core.now } ∧ others b ∧
      b.work.fab.out = .ping p 0 false 0 :: s.core.work.fab.out)

/-- Frames and their acknowledgement (R96, R462, R463, R477 to R487, R494, R507): what a scrambler makes of a block the
partner's descrambler gives back (the order of the bits of a sync header is the model's presumption, log entry 63); blocks
received change nothing of the ports but the lanes of their own, which keep block lock, and without it come to nothing (R465); a frame
that holds and is next is accepted; another is counted and the first one answered with a NAK; an ACK frees frames, a sleeping
partner makes the port SLEEP; at the end of a control cycle that brings no ACK for it a late frame is sent again, and one late again,
or 4 µs of silence, loses the neighbour (R511); clean
beats count in PROBATION, the eighth takes the port to UP; a NULL frame takes a number; a late message in transit is dropped;
WAKE trains a sleeping port, and a wake too slow loses it; a neighbour's reset notice loses it. It rests on the model's
choices of log entries 7, 20 and 39. -/
def Obligations.LinkFrames : Prop :=
  (∀ (st : BitVec 58) (x : LaneBlock),
    descramble st (scramble st x.payload).1 = (x.payload, (scramble st x.payload).2) ∧
    LaneBlock.decode st (x.code st).1 = (some x, (x.code st).2)) ∧
  (∀ (b : Block) (p : Nat) (bs : List LaneBlock), p < 6 →
    let y := (b.received p bs).lport p
    y = { b.lport p with lane0 := y.lane0, lane1 := y.lane1 } ∧ (∀ q, q ≠ p → (b.received p bs).lport q = b.lport q) ∧
    (b.received p bs).work = b.work ∧
    ((b.lport p).lane0.blockLock = true → y.lane0.blockLock = true) ∧
    ((b.lport p).lane1.blockLock = true → y.lane1.blockLock = true)) ∧
  (∀ (s : State) (p : Nat) (seq : BitVec 8), s.live →
    Defers (.ackTimeout p seq) s (.ackTimeout p seq) ∧ Defers (.resendTimeout p seq) s (.resendTimeout p seq) ∧
    Defers (.silenceTimeout p) s (.silence p)) ∧
  (∀ (b : Block) (p : Nat) (f : SentFrame),
    let x := b.lport p
    let lost (st : Status) (b' : Block) : Prop :=
      (b'.lport p).state = (if b.dct.flapLimit ≤ (satInc x.flaps).toNat then .disabled else .lost) ∧
      (b'.lport p).lastCause = st ∧ (b'.lport p).flaps = satInc x.flaps ∧ (b'.lport p).unacked = []
    x.inTouch = true →
      (x.unacked = [f] → f.resent = false →
        let b' := decideLate b (.ackTimeout p f.seq)
        (b'.lport p).unacked = [{ f with resent := true }] ∧ (b'.lport p).retries = satAdd x.retries 1 ∧
        b'.work.fab.out = .frame p f.seq f.flits (frameCrc f.seq f.flits) :: b.work.fab.out) ∧
      (f ∈ x.unacked → f.resent = true → lost St.linkDeadline (decideLate b (.resendTimeout p f.seq))) ∧
      lost St.peerLost (decideLate b (.silence p))) ∧
  ∀ (s : State) (p : Nat), s.live → p < 6 →
    let x := s.core.lport p
    let lost (st : Status) (b : Block) : Prop :=
      (b.lport p).state = (if s.core.dct.flapLimit ≤ (satInc x.flaps).toNat then .disabled else .lost) ∧
      (b.lport p).lastCause = st ∧ (b.lport p).flaps = satInc x.flaps ∧ (b.lport p).unacked = []
    (∀ (seq : BitVec 8) (flits : List Byte) (crc : BitVec 32) (arrival : Nat),
      s.core.delivers p (frameBlocks seq flits crc).length = false → Acts (.linkFrame p seq flits crc arrival) s fun b =>
        (b.lport p).rxSeq = x.rxSeq ∧ (b.lport p).crcErrors = x.crcErrors ∧ b.work = s.core.work) ∧
    (∀ (seq : BitVec 8) (flits : List Byte) (crc : BitVec 32) (arrival : Nat), x.inTouch = true →
      s.core.delivers p (frameBlocks seq flits crc).length = true →
      let y := (s.core.received p (frameBlocks seq flits crc)).lport p
      (flits.length % 64 = 0 → 64 ≤ flits.length → flits.length ≤ 256 → frameCrc seq flits = crc → seq = nextRx x →
        Acts (.linkFrame p seq flits crc arrival) s fun b =>
          b.lport p = { y with rxSeq := some seq, nakSent := false } ∧ (x.state = .probation → b.work = s.core.work) ∧
          (∀ m, x.state = .up → m = msgOf (bytesAt flits 0 32) → knownType m.typ = true → m.typ ≠ 0 → m.bcast = false →
            m.dest.toNat = s.core.dct.chipNum → (p, arrival, m) ∈ b.work.msgs.inbox)) ∧
      ((frameCrc seq flits ≠ crc ∨ seq ≠ nextRx x) → Acts (.linkFrame p seq flits crc arrival) s fun b =>
        (b.lport p).crcErrors = satInc x.crcErrors ∧ (b.lport p).rxSeq = x.rxSeq ∧ (b.lport p).nakSent = true ∧
        (b.lport p).naks = (if x.nakSent then x.naks else satInc x.naks) ∧
        b.work.fab.out = if x.nakSent then s.core.work.fab.out
          else .ack p (x.rxSeq.getD 0) true false x.rxSeq.isSome x.rxCredits :: s.core.work.fab.out)) ∧
    (∀ (a : BitVec 8) (n : BitVec 7), x.inTouch = true →
      (s.core.delivers p 1 = true → Acts (.ackBlock p a false false true n) s (fun b =>
        b.lport p = { (s.core.received p [ackBlk a false false true n.toNat]).lport p with
          partnerCredits := n.toNat, partnerAck := some a, ackAt := s.core.now,
          unclean := x.unclean || decide (4000 < s.core.now - x.ackAt),
          unacked := x.unacked.filter fun f => (a - f.seq).toNat ≥ 128 })) ∧
      (s.core.delivers p 1 = true → ∀ nak v, Acts (.ackBlock p a nak true v n) s fun b => (b.lport p).state = .sleep) ∧
      Acts (.ackSendTimer p) s (fun b => b.lport p = x ∧
        tblGet {} b.lnk.coders p = (tblGet {} s.core.lnk.coders p).send
          (ackBlk (x.rxSeq.getD 0) false false x.rxSeq.isSome x.rxCredits) ∧
        b.work.fab.out = .ack p (x.rxSeq.getD 0) false false x.rxSeq.isSome x.rxCredits :: s.core.work.fab.out)) ∧
    (x.state = .probation → x.unclean = false → x.counted = false → x.lane0.rxLock = true → x.lane1.rxLock = true →
      x.lane0.blockLock = true → x.lane1.blockLock = true → s.core.now - x.ackAt ≤ 4000 → Acts (.cleanBeat p) s fun b =>
        b.lport p = if 7 ≤ x.cleanBeats.toNat then { x with state := .up, cleanBeats := 0, counted := true }
          else { x with cleanBeats := x.cleanBeats + 1, counted := true }) ∧
    (x.state = .probation → x.window = true → Acts (.probationNullFrame p) s fun b =>
      b.lport p = { x with nextSeq := x.nextSeq + 1, unacked := x.unacked ++
        [{ seq := x.nextSeq, flits := List.replicate 64 0, count := 0, resent := false }] }) ∧
    (∀ q, s.core.work.msgs.out = [q] → q.port = p → q.transit = true → Acts (.transitTimeout p 0) s fun b =>
      b.work.msgs.out = [] ∧ tblGet 0 b.work.msgs.drops p = satInc (tblGet 0 s.core.work.msgs.drops p)) ∧
    (tnlOn s.core = true → x.state = .sleep → Acts (.wake p) s fun b =>
      (b.lport p).state = .training ∧ (b.lport p).waking = true ∧ (b.lport p).pd = false ∧
      (∀ q ∈ s.core.work.msgs.out, q ∈ b.work.msgs.out)) ∧
    (x.waking = true → x.state = .training → x.step < 7 → Acts (.wakeWaitTimeout p) s (lost St.peerLost)) ∧
    (∀ (q arrival : Nat) (m : Msg) (w : Work), takeMsg 0x02 s.core.work = some ((q, arrival, m), w) → fieldAt m.payload 0 1 = 1 →
      m.src.toNat = bitsOf (fieldAt m.payload 1 1) 5 0 → s.core.frm.hasView = false → x.nbrValid = true → x.nbrChip = m.src →
      x.inTouch = true → Acts .noticeMessage s (lost St.peerLost))

/-! ### The frame and its barriers -/

/-- The Truss and the frame: at the end of its control cycle, behind every break, a report of a subtree is kept for its generation, and
one that carries a status breaks an owned barrier at the manager (R540, R555); a release ends the arrivals with OK,
reopens, or breaks the barrier; a manager lost too long breaks every owned barrier; the manager excludes a pending
chip, at its command or when its time is up; chip 0 founds a frame (R514, R523, R529, R535 to R542). It rests on the
model's choices of log entries 27 and 41. -/
def Obligations.FrameAndBarriers : Prop :=
  ∀ (s : State), s.live →
    (∀ (p arrival : Nat) (m : Msg) (w : Work), takeMsg 0x20 s.core.work = some ((p, arrival, m), w) →
      Acts .barrierArriveMessage s (· = { s.core with work := { w with late := w.late ++ [.arrive m] } })) ∧
    (∀ (b : Block) (m : Msg),
      let i := fieldAt m.payload 0 1
      let x := b.bar i
      let b' := decideLate b (.arrive m)
      (b.frm.viewed = false → b' = { b with frm := { b.frm with arriveDrops := satInc b.frm.arriveDrops } }) ∧
      (b.frm.viewed = true → fieldAt m.payload 4 2 = 0 → fieldAt m.payload 8 8 = x.last.toNat + 1 → x.state ≠ .broken →
        x.state ≠ .counting →
          b'.bar i = { x with reports := tblSet 0 x.reports m.src.toNat (fieldAt m.payload 2 2) } ∧
          (∀ j, j ≠ i → b'.bar j = b.bar j) ∧ b'.work = b.work) ∧
      (isMgr b = true → BitVec.ofNat 16 (fieldAt m.payload 4 2) ≠ St.ok → fieldAt m.payload 8 8 = x.last.toNat + 1 →
        x.state ≠ .broken → b.dct.barrierOwner i ≠ 0xFF →
          (b'.bar i).state = .broken ∧ b'.frm.breakStatus = BitVec.ofNat 16 (fieldAt m.payload 4 2) ∧
          b'.frm.breakSrc = m.src)) ∧
    (∀ (p arrival : Nat) (m : Msg) (w : Work), takeMsg 0x21 s.core.work = some ((p, arrival, m), w) →
      isWorker s.core = true →
      let i := fieldAt m.payload 0 1
      let x := s.core.bar i
      fieldAt m.payload 8 8 = x.last.toNat + 1 →
      (fieldAt m.payload 4 2 = 0 → fieldAt m.payload 2 2 ≠ 0 → Acts .barrierRelease s fun b =>
        b.bar i = { last := x.last + 1 } ∧ (∀ j, j ≠ i → b.bar j = s.core.bar j) ∧
        (∀ c ∈ x.arrivals, ∀ d, s.core.work.cmd c = some d → d.endStatus = none →
          (b.work.cmd c).bind Cmd.endStatus = some St.ok)) ∧
      (fieldAt m.payload 4 2 = 0 → fieldAt m.payload 2 2 = 0 → Acts .barrierRelease s fun b =>
        b.bar i = { last := x.last } ∧ (∀ j, j ≠ i → b.bar j = s.core.bar j) ∧ b.work = w) ∧
      (fieldAt m.payload 4 2 ≠ 0 → x.state ≠ .broken → Acts .barrierRelease s fun b =>
        b.bar i = { x with state := .broken, arrivals := [] } ∧
        b.frm.breakStatus = BitVec.ofNat 16 (fieldAt m.payload 4 2) ∧ b.frm.breakSrc = m.src ∧
        (∀ c ∈ x.arrivals, ∀ d, s.core.work.cmd c = some d → d.endStatus = none →
          (b.work.cmd c).bind Cmd.endStatus = some St.stepBroken))) ∧
    (s.core.frm.waitLost = true → Acts .managerLostWait s fun b =>
      b.frm.waitLost = false ∧ ∀ i, i < 256 → s.core.dct.barrierOwner i ≠ 0xFF → (b.bar i).state = .broken) ∧
    (∀ c, Defers (.excludeTimeout c) s (.exclude c)) ∧
    (∀ c, c < 64 → mayExclude s.core c = true →
      let excluded (b : Block) : Prop := b.frm.excl = setBit s.core.frm.excl c ∧ b.frm.admitted.getLsbD c = false ∧
        tblGet none b.frm.pending c = none ∧ b.frm.lastCause = St.chipExcluded
      Acts (.frameCmdExclude c) s excluded ∧
      ∀ x, tblGet none s.core.frm.pending c = some x → s.core.dct.excludeBeats ≤ x.beats →
        excluded (decideLate s.core (.exclude c))) ∧
    (s.core.frm.state = .listening → s.core.dct.chipNum = 0 → s.core.dct.joinListen ≤ s.core.frm.listened →
      Acts .foundFrame s fun b =>
        b.frm.state = (if 2 * (treeFrom b 0).length < (frameChips b).length then .minority else .manager) ∧
        b.frm.mgr = 0 ∧ b.frm.epoch = 0 ∧ b.frm.admitted = 1 ∧ b.clk.src = 1 ∧ b.dct.locked = true ∧
        (∀ c, c < 64 → (tblGet none b.frm.pending c).isSome = (inF s.core c && c != 0)) ∧
        (b.frm.state = .manager → b.work = s.core.work))

/-! ### The dictionary -/

/-- Requests in the host's window (R668 to R671, R674, R678): the checks of R671 in their order, and, of parameters
that are numbers, the value that READ returns, the value that WRITE leaves, what INFO says, and that SAVE sends the commands that
write the half of the store whose turn it is, which holds its record when the SAVE ends at the end of the cycle. A refused request changes no parameter. It rests on the model's choices of log
entry 45. -/
def Obligations.DictionaryAtTheWindow : Prop :=
  ∀ (s : State), s.live → WindowTurn s.core →
    let r := reqOf (windowBody s.core)
    let d := s.core.dct
    (¬(1 ≤ r.op ∧ r.op ≤ 4) ∨ r.target.testBit 7 = true ∨ (r.remote = true ∧ isMgr s.core = false) →
      r.away s.core = false ∨ s.core.frm.fwd.length < 16 →
      Acts (windowRow r.op) s (Aborts s.core St.dictBadRequest)) ∧
    (1 ≤ r.op → r.op ≤ 3 → r.target < 64 → r.len ≤ 4096 →
      (paramRow r.index r.sub = none → Acts (windowRow r.op) s (Aborts s.core St.noSuchObject)) ∧
      (∀ row, paramRow r.index r.sub = some row →
        (r.op = 1 ∧ row.acc = .wo ∨ r.op = 2 ∧ (row.acc = .ro ∨ r.index = 0x501B) →
          Acts (windowRow r.op) s (Aborts s.core St.accessDenied)) ∧
        (r.op = 1 → row.acc ≠ .wo → row.ty.isBytes = false → r.ty = 0 ∨ r.ty = row.ty.code →
          (r.off ≠ 0 ∨ r.len < row.ty.size → Acts (windowRow 1) s (Aborts s.core St.typeMismatch)) ∧
          (r.off = 0 → row.ty.size ≤ r.len → Acts (windowRow 1) s fun b =>
            InWindow s.core St.ok (leBytes row.ty.size (parNat s.core r.index r.sub)) b ∧ b.dct.vals = d.vals)) ∧
        (r.op = 2 → row.acc ≠ .ro → row.ty.isBytes = false → r.index ≠ 0x501A →
          (r.ty ≠ row.ty.code ∨ r.off ≠ 0 ∨ r.len ≠ row.ty.size → Acts (windowRow 2) s (Aborts s.core St.typeMismatch)) ∧
          (r.ty = row.ty.code → r.off = 0 → r.len = row.ty.size →
            (locked s.core row r.sub = true → Acts (windowRow 2) s (Aborts s.core St.lockedInState)) ∧
            (locked s.core row r.sub = false → valueOk s.core.st.present s.core.dictNow row r.index r.sub (leNat r.data) = false →
              Acts (windowRow 2) s (Aborts s.core St.valueRange)) ∧
            (locked s.core row r.sub = false → valueOk s.core.st.present s.core.dictNow row r.index r.sub (leNat r.data) = true →
              ¬(0x4100 ≤ r.index ∧ r.index < 0x4140 ∧ 0x18 ≤ r.sub ∧ r.sub < 0x20) → Acts (windowRow 2) s fun b =>
                InWindow s.core St.ok [] b ∧ b.dct.par r.index r.sub = leNat r.data ∧
                (∀ i j, ¬(i = r.index ∧ j = r.sub) → b.dct.par i j = d.par i j) ∧
                (r.index = 0x2001 → b.clk.quarters = BitVec.ofNat 8 (leNat r.data)) ∧
                (r.index ≠ 0x2001 → b.clk = s.core.clk)) ∧
            (∀ h, locked s.core row r.sub = false → valueOk s.core.st.present s.core.dictNow row r.index r.sub 1 = true →
              leNat r.data = 1 → 0x4100 ≤ r.index → r.index < 0x4140 → 0x18 ≤ r.sub → r.sub < 0x20 →
              d.trackHandle (r.index - 0x4100) (r.sub - 0x18) = h → handleLive s.core.work (r.index - 0x4100) h = true →
              Acts (windowRow 2) s fun b => InWindow s.core St.ok [] b ∧ b.dct.vals = d.vals ∧
                b.work.obj (hIndex h) = { s.core.work.obj (hIndex h) with guards := {} }))) ∧
        (r.op = 3 → row.ty.isBytes = false → r.ty = 0 ∨ r.ty = row.ty.code → r.off = 0 → r.len = 0 →
          Acts (windowRow 3) s fun b =>
            InWindow s.core St.ok (leBytes 1 row.ty.code ++
              leBytes 1 (match row.acc with | .ro => 0 | .rw => 1 | .rwl => 2 | .wo => 3) ++
              leBytes 1 ((if row.pers then 1 else 0) + if locked s.core row r.sub then 2 else 0) ++ leBytes 1 0 ++
              leBytes 4 row.ty.size ++ leBytes 8 row.dflt) b ∧ b.dct.vals = d.vals))) ∧
    (r.op = 4 → r.target < 64 → r.index = 0 → r.sub = 0 → r.ty = 0 → r.len = 0 → r.off = 0 →
      let n := nextHalf d
      (newerHalf d.halfA d.halfB = none → n = (false, 1)) ∧
      (∀ q, newerHalf d.halfA d.halfB = some false → d.halfA = some q → n = (true, q + 1)) ∧
      (∀ q, newerHalf d.halfA d.halfB = some true → d.halfB = some q → n = (false, q + 1)) ∧
      Acts (windowRow 4) s fun b =>
        (∀ o ∈ halfOps s.core.storeMode (d.at 0x6006 0 1 == 1) (if n.1 then 0x18000 else 0x10000) (saveBytes s.core.dictNow n.2),
          o ∈ b.work.fab.out) ∧
        b.dct.vals = d.vals ∧ b.dct.busy = true ∧ (n.1 = true → b.dct.halfA = d.halfA ∧ b.dct.halfB = none) ∧
        (n.1 = false → b.dct.halfB = d.halfB ∧ b.dct.halfA = none) ∧
        InWindow s.core St.ok [] (saveEnds b) ∧ (saveEnds b).dct.vals = d.vals ∧
        (n.1 = true → (saveEnds b).dct.halfA = d.halfA ∧ (saveEnds b).dct.halfB = some n.2) ∧
        (n.1 = false → (saveEnds b).dct.halfB = d.halfB ∧ (saveEnds b).dct.halfA = some n.2))

/-- The paths to the dictionary (R498, R525, R528, R553, R554, R671 to R675): GO takes the window's request or is
discarded; one message of each endpoint waits; the manager's requests come in segments, and another chip's are denied;
a request for another chip that follows this manager goes out under a tag, its answer comes in segments, and ends without one in LINK_DEADLINE;
a following chip becomes a member by its JOIN_STATE. It rests on the model's choices of log entry 45. -/
def Obligations.DictionaryPaths : Prop :=
  ∀ (s : State), s.live →
    (∀ irq, (s.core.dct.busy = true → Acts (.dictGo irq) s fun b => b = s.core) ∧
      (s.core.dct.busy = false → Acts (.dictGo irq) s fun b => b = { s.core with dct := { s.core.dct with busy := true, irq := irq } })) ∧
    (∀ (src tag : BitVec 8) (m : List Byte), s.core.dct.serving.isSome = true → fieldAt m 0 1 = 0x7E → fieldAt m 3 1 = 1 →
      s.core.dct.vendorId ≠ 0xFFFF → 256 * fieldAt m 1 1 + fieldAt m 2 1 = s.core.dct.vendorId →
      (s.core.dct.waitMctp.any (fun x => x.1 == src) = false → Acts (.dictRead .mctp src tag m) s fun b =>
        b = { s.core with dct := { s.core.dct with waitMctp := s.core.dct.waitMctp ++ [(src, tag, m.drop 4)] } }) ∧
      (s.core.dct.waitMctp.any (fun x => x.1 == src) = true → Acts (.dictRead .mctp src tag m) s fun b =>
        b = { s.core with dct := { s.core.dct with discarded := satInc s.core.dct.discarded } })) ∧
    (WindowTurn s.core → let r := reqOf (windowBody s.core)
      r.remote = true → r.target < 128 → r.chip ≠ s.core.dct.chipNum → isMgr s.core = true → r.op = 1 → r.len ≤ 2552 →
      s.core.frm.fwd.length < 16 →
      (inF s.core r.chip = false ∨ follows s.core r.chip = false → Acts (windowRow 1) s (Aborts s.core St.noSuchObject)) ∧
      (inF s.core r.chip = true → follows s.core r.chip = true → Acts (windowRow 1) s fun b =>
        b.dct.busy = true ∧ b.dct.serving.isSome = true ∧ b.dct.vals = s.core.dct.vals ∧ b.frm.nextTag = s.core.frm.nextTag + 1 ∧
        b.frm.fwd = s.core.frm.fwd ++ [{ tag := s.core.frm.nextTag, chip := r.chip, why := .carried }])) ∧
    (∀ (p arrival : Nat) (m : Msg) (w : Work), takeMsg 0x30 s.core.work = some ((p, arrival, m), w) →
      (followed s.core m.src.toNat = true → fieldAt m.payload 2 1 % 128 = 0 →
        s.core.frm.reqIn.find? (fun q => q.tag == BitVec.ofNat 16 (fieldAt m.payload 0 2) && q.src == m.src.toNat) = none →
        Acts .dictReq s fun b => b.work = w ∧ b.dct = s.core.dct ∧ b.frm.reqIn = s.core.frm.reqIn ++
          [{ tag := BitVec.ofNat 16 (fieldAt m.payload 0 2), src := m.src.toNat, nextSeg := 1,
             body := bytesAt m.payload 4 (min 20 (fieldAt m.payload 3 1)), whole := (fieldAt m.payload 2 1).testBit 7 }]) ∧
      (followed s.core m.src.toNat = false → fieldAt m.payload 2 1 % 128 = 0 → Acts .dictReq s fun b =>
        b.frm = s.core.frm ∧ b.dct = s.core.dct ∧ ∃ op : Byte, op.getLsbD 7 = true ∧
          b.work = sendMsg { s.core with work := w } (mkMsg { s.core with work := w } 0x31 m.src.toNat 0
            (leBytes 2 (fieldAt m.payload 0 2) ++ [0x80, 8, op, 0, 0x02, 0x90, 0, 0, 0, 0])) w)) ∧
    (∀ (p arrival : Nat) (m : Msg) (w : Work) (x : Forwarded), takeMsg 0x31 s.core.work = some ((p, arrival, m), w) →
      s.core.frm.fwd = [x] → x.tag = BitVec.ofNat 16 (fieldAt m.payload 0 2) → x.chip = m.src.toNat →
      fieldAt m.payload 2 1 % 128 = x.nextSeg →
      ((fieldAt m.payload 2 1).testBit 7 = false → Acts .dictRsp s fun b => b.dct = s.core.dct ∧
        b.frm.fwd = [{ x with nextSeg := x.nextSeg + 1, body := x.body ++ bytesAt m.payload 4 (min 20 (fieldAt m.payload 3 1)) }]) ∧
      (∀ q, (fieldAt m.payload 2 1).testBit 7 = true → x.why = .carried → s.core.dct.serving = some q → q.path = .bar0 →
        let body := x.body ++ bytesAt m.payload 4 (min 20 (fieldAt m.payload 3 1))
        Acts .dictRsp s fun b => b.frm.fwd = [] ∧ b.dct.busy = false ∧ b.dct.serving = none ∧
          b.dct.lastStatus = BitVec.ofNat 16 (fieldAt body 2 2) ∧
          ∀ i, i < body.length → tblGet 0 b.dct.buf i = body.getD i 0)) ∧
    (∀ (tag : BitVec 16) (x : Forwarded) (q : Serving), s.core.frm.fwd.find? (fun y => y.tag == tag) = some x → x.why = .carried →
      s.core.dct.serving = some q → q.path = .bar0 → Acts (.dictReqTimeout tag) s fun b =>
        (∀ y ∈ b.frm.fwd, y.tag ≠ tag) ∧ b.dct.busy = false ∧ b.dct.serving = none ∧ b.dct.lastStatus = St.linkDeadline) ∧
    (∀ body, (s.core.frm.state ≠ .following → Acts (.joinState body) s fun b => b = s.core) ∧
      (s.core.frm.state = .following → Acts (.joinState body) s fun b =>
        b.frm.state = .member ∧ b.frm.admitted = BitVec.ofNat 64 (fieldAt body 0 8) ∧ b.frm.excl = BitVec.ofNat 64 (fieldAt body 8 8) ∧
        (∀ i, i < 256 → b.bar i = { last := BitVec.ofNat 64 (fieldAt body (80 + 8 * i) 8) }) ∧
        b.frm.lastCause = St.frameJoined ∧ b.dct.locked = true ∧ b.work = s.core.work))

/-- The management endpoint (R97 to R99, R625, R675): Set Endpoint ID takes an identifier but for 0x00 and 0xFF, the other
control messages leave it, each answers once and announces the answer with an in-band interrupt; the two address commands give
the dynamic address, SETDASA where it names the static address. In PS3 a message wakes the block, and so does such a SETDASA,
with source 5; a frozen block answers nothing (the model's choice, log entry 15). It rests on the model's choices of log entry
46. -/
def Obligations.ManagementEndpoint : Prop :=
  ∀ (s : State) (src tag hdr eid typ : BitVec 8) (static addr : BitVec 7),
    let dasa : DasaAddress := { static := static, dynamic := addr }
    let control : List Instr := [.setEndpointId src tag hdr eid, .getEndpointId src tag hdr, .getMctpVersionSupport src tag hdr typ,
      .getMessageTypeSupport src tag hdr]
    (s.live →
      (eid ≠ 0 → eid ≠ 0xFF → Acts (.setEndpointId src tag hdr eid) s fun b => b.mgmt = { s.core.mgmt with eid := eid }) ∧
      (eid = 0 ∨ eid = 0xFF → Acts (.setEndpointId src tag hdr eid) s fun b => b.mgmt = s.core.mgmt) ∧
      Acts (.getEndpointId src tag hdr) s (fun b => b.work = { s.core.work with fab := { s.core.work.fab with
        out := .ibi :: .mctp src tag (leBytes 1 0 ++ leBytes 1 (hdr.toNat % 32) ++ leBytes 1 2 ++ leBytes 1 0 ++
          (leBytes 1 s.core.mgmt.eid.toNat ++ leBytes 2 0)) :: s.core.work.fab.out } }) ∧
      Acts (.getMessageTypeSupport src tag hdr) s (fun b => b.work = { s.core.work with fab := { s.core.work.fab with
        out := .ibi :: .mctp src tag (leBytes 1 0 ++ leBytes 1 (hdr.toNat % 32) ++ leBytes 1 5 ++ leBytes 1 0 ++
          (if s.core.dct.vendorId = 0xFFFF then [1, 0] else [2, 0, 0x7E])) :: s.core.work.fab.out } }) ∧
      (typ ≠ 0xFF → typ ≠ 0 → typ ≠ 0x7E → Acts (.getMctpVersionSupport src tag hdr typ) s fun b =>
        b.work = { s.core.work with fab := { s.core.work.fab with
          out := .ibi :: .mctp src tag (leBytes 1 0 ++ leBytes 1 (hdr.toNat % 32) ++ leBytes 1 4 ++ leBytes 1 0x80 ++ []) ::
            s.core.work.fab.out } }) ∧
      (∀ i ∈ control, Acts i s fun b => b.work.fab.out.length = s.core.work.fab.out.length + 2 ∧ b.dct = s.core.dct ∧
        b.mgmt.dynAddr = s.core.mgmt.dynAddr ∧ b.frm = s.core.frm ∧ b.work.slices = s.core.work.slices)) ∧
    (s.core.pwr.frozen = false → static.toNat ≠ s.core.dct.staticAddr → Sets (.setdasa dasa) s fun b => b = s.core) ∧
    (s.core.pwr.frozen = false → s.core.pwr.state ≠ .ps3 →
      ∀ i, (i = .entdaa addr ∨ i = .setdasa dasa ∧ static.toNat = s.core.dct.staticAddr) → Sets i s fun b =>
        b = { s.core with mgmt := { s.core.mgmt with dynAddr := some addr } }) ∧
    (s.core.pwr.frozen = false → s.core.pwr.state = .ps3 →
      Sets (.entdaa addr) s (fun b => b = { s.core with mgmt := { s.core.mgmt with dynAddr := some addr } }) ∧
      (s.core.pwr.transition = none →
        ∀ i, (i = .setdasa dasa ∧ static.toNat = s.core.dct.staticAddr ∨ i ∈ control) → Sets i s fun b =>
        b.pwr.transition = some .ps0 ∧ b.pwr.wakeSrc = 5 ∧ b.pwr.state = .ps3 ∧ b.work.fab.clkReq = true ∧ b.dct = s.core.dct)) ∧
    (s.core.pwr.frozen = true → ∀ i, (i ∈ control ∨ i = .entdaa addr ∨ i = .setdasa dasa) → Sets i s fun b => b = s.core)

/-! ### Power -/

/-- The power states (R618 to R626): GO_PS2 and GO_PS3 are accepted where R619 lets them and refused otherwise; at the end of the
cycle the entry begins, with every domain of the arithmetic side off, or is refused where an EXEC has been released since (R643); GO_PS0 and the wake sources begin an exit that names its source; PS1
comes and goes with the work; a domain whose switch acknowledges leaves isolation, and an engine's reset is held for 64 cycles more
(R622); the detector of a sleeping port reports a wake
pattern that a lane shows for 16 windows of 10 ns, and nothing while no lane shows an edge (R508); the exit from PS3 ends in a full
block reset with a warm start. It rests on the model's choices of log entries 44 and 66. -/
def Obligations.PowerStates : Prop :=
  (∀ (x : LinkPort) (edges : List (Nat × Nat)),
    (x.lane0.tone = 0 → edges.length = 16 → (∀ e ∈ edges, e.1 = 1 ∨ e.1 = 2) → (x.sense edges).2 = true) ∧
    (x.lane0.tone = 0 → x.lane1.tone = 0 → x.lane0.windows = [] → x.lane1.windows = [] → (∀ e ∈ edges, e = (0, 0)) →
      (x.sense edges).2 = false)) ∧
  ∀ (s : State),
    let x := s.core.pwr
    let levelled (st : PowerSt) : Prop := railTarget s.core st 0 = x.target0 ∧ railTarget s.core st 1 = x.target1
    let off (b : Block) : Prop := (∀ d : Domain, d = .pln ∨ d = .tnl ∨ (∃ p ∈ livePorts s.core, d = .eng p) →
      b.work.switch d = {})
    let leaving (src : BitVec 8) (b : Block) : Prop := b.pwr.transition = some .ps0 ∧ b.pwr.wakeSrc = src ∧ b.pwr.state = x.state
    (s.live → x.volt0 = none → x.volt1 = none →
      (∀ i, (i = .goPs2 ∧ (x.transition ≠ none ∨ x.state = .ps2 ∨ mayPs2 s.core = false) ∨
          i = .goPs3 ∧ (x.transition ≠ none ∨ mayPs3 s.core = false)) →
        Acts i s fun b => b = { s.core with pwr := { x with lastStatus := St.stateReject } }) ∧
      (∀ i target, (i = .goPs2 ∧ target = .ps2 ∧ x.state ≠ .ps2 ∧ mayPs2 s.core = true ∨
          i = .goPs3 ∧ target = .ps3 ∧ mayPs3 s.core = true) → x.transition = none →
        Acts i s fun b => b = { s.core with pwr := { x with
          transition := some target, stage := 0, lastStatus := St.ok, wakeLate := none } }) ∧
      (∀ target, target = .ps2 ∨ target = .ps3 → x.transition = some target → x.stage = 0 →
        let held : Bool := s.core.work.cmds.any fun c => c.op == some .exec && c.isReleased
        let b := powerAdvance (entryBegins s.core)
        (held = true → entryBegins s.core = { s.core with pwr := { x with
          transition := none, wakeLate := none, lastStatus := St.stateReject } }) ∧
        (held = false → x.wakeLate = none →
          off b ∧ b.pwr.lastStatus = x.lastStatus ∧ (¬levelled .ps2 → b.pwr.state = x.state ∧ b.pwr.transition = some target) ∧
          (levelled .ps2 → target = .ps2 → b.pwr.state = .ps2 ∧ b.pwr.transition = none) ∧
          (levelled .ps2 → target = .ps3 → b.pwr.transition = some .ps3 ∧
            (s.core.dct.sillCapable = true → b.pwr.sillBusy.any (fun y => y.1 == .rest) = true) ∧
            (s.core.dct.sillCapable = false → b.pwr.retention = some s.core.work.jnr.image)))) ∧
      (x.transition = none → x.state = .ps0 ∨ x.state = .ps1 → Acts .goPs0 s fun b => b = s.core) ∧
      (x.transition = none → x.state = .ps2 → Acts .goPs0 s fun b => leaving 7 b ∧ b.pwr.lastStatus = St.ok ∧
        (levelled .ps0 → (b.work.switch .pln).on = true ∧ (b.work.switch .tnl).on = true)) ∧
      (x.transition = none → x.state = .ps0 → (∀ t ∈ s.core.work.tiles, t.state ≠ .running ∧ t.state ≠ .offered ∧
          t.state ≠ .staging) → (s.core.work.pln.lanes.all fun p => p.2.isNone) = true →
        (s.core.work.pln.commits.all fun p => p.2.isNone) = true →
        Acts .ps1IdleTimeout s fun b => b = { s.core with pwr := { x with state := .ps1 } }) ∧
      (x.state = .ps1 → Acts .ps1Exit s fun b => b = { s.core with pwr := { x with state := .ps0 } })) ∧
    (x.frozen = false →
      (s.core.dct.wakeAfterMs = 0 → Sets .wakeAfterTimeout s fun b => b = s.core) ∧
      (s.core.work.fab.clkReq = true → Sets .fnWakeReq s fun b => b = s.core) ∧
      (∀ p edges, (s.core.lport p).state ≠ .sleep → Sets (.wakeDetect p edges) s fun b => b = s.core) ∧
      (∀ p edges, (s.core.lport p).state = .sleep → ((s.core.lport p).sense edges).2 = false →
        Sets (.wakeDetect p edges) s fun b => b.lport p = ((s.core.lport p).sense edges).1 ∧
          (∀ q, q ≠ p → b.lport q = s.core.lport q) ∧ { b with lnk := s.core.lnk } = s.core) ∧
      (x.transition = none → x.state = .ps2 ∨ x.state = .ps3 →
        (s.core.dct.wakeAfterMs ≠ 0 → Sets .wakeAfterTimeout s (leaving 8)) ∧
        (s.core.work.fab.clkReq = false → Sets .fnWakeReq s fun b => leaving 2 b ∧ b.work.fab.wakeReq = true) ∧
        (∀ p edges, (s.core.lport p).state = .sleep → ((s.core.lport p).sense edges).2 = true →
          Sets (.wakeDetect p edges) s (leaving 3))) ∧
      (x.transition = none → x.state = .ps0 → tnlOn s.core = true → ∀ p edges, (s.core.lport p).state = .sleep →
        ((s.core.lport p).sense edges).2 = true → Sets (.wakeDetect p edges) s fun b => (b.lport p).state = .training ∧ b.pwr = x) ∧
      (x.transition = none → Sets .clkOkRise s fun b =>
        b = { s.core with work := { s.core.work with fab := { s.core.work.fab with clkOk := true } } }) ∧
      (x.transition = some .ps0 → x.state = .ps3 → x.stage = 1 → Sets .clkOkRise s fun b =>
        b.work.fab.clkOk = true ∧ b.pwr.stage = 2 ∧ b.pwr.transition = some .ps0) ∧
      (x.transition = none → ∀ d : Domain, (s.core.work.switch d).on = true → (s.core.work.switch d).ack = false →
        ((∀ p, d ≠ .eng p) → Sets (.pswAck d) s fun b =>
          b.work.switch d = { s.core.work.switch d with ack := true, iso := false } ∧
          (∀ d', d' ≠ d → b.work.switch d' = s.core.work.switch d') ∧
          { b with work := { b.work with sw := s.core.work.sw } } = s.core) ∧
        (∀ p, d = .eng p → (s.core.work.port p).state = .hardReset → Sets (.pswAck d) s fun b =>
          b.work.switch d = { s.core.work.switch d with ack := true } ∧
          (∀ d', d' ≠ d → b.work.switch d' = s.core.work.switch d') ∧ b.pwr = x ∧
          b.work.port p = { s.core.work.port p with hrstN := false, hrstWait := 64, idle := false } ∧
          ∀ q, q ≠ p → b.work.port q = s.core.work.port q)) ∧
      (x.transition = some .ps0 → x.state = .ps3 → x.stage = 3 → domainUp s.core .ctl = true → Settled s.core →
        Sets .ps3Exit s (Restarted s.core 4)) ∧
      (x.transition ≠ some .ps0 → Sets .ps3Exit s fun b => b = s.core))

/-- Voltages and the regulator (R628 to R630): a request ends when the rail reads back within the tolerance; one that
is not acknowledged by the end of the cycle of its timeout (R643) goes back to the previous target, tells the host, and a failed
raising is tried once more; an alert of VOUT, IOUT or INPUT freezes the block, once the cycle before has ended, and another counts a warning; telemetry is kept, and a transaction whose packet
error check fails gives nothing (R103). It rests on the
model's choices of log entries 5, 37 and 43. -/
def Obligations.Voltages : Prop :=
  ∀ (s : State) (rail : Nat), s.core.pwr.frozen = false → rail < 2 →
    let x := s.core.pwr
    let b0 := lastCycle s.core
    (∀ mv, (railReq x rail = none → Sets (.voltageReadback rail mv) s fun b =>
        b.pwr = if rail = 0 then { x with read0 := mv } else { x with read1 := mv }) ∧
      (∀ r, railReq x rail = some r → r.failed = false → x.transition = none →
        (r.target.toNat ≤ mv.toNat + s.core.dct.voltTol ∧ mv.toNat ≤ r.target.toNat + s.core.dct.voltTol →
          Sets (.voltageReadback rail mv) s fun b => .voltage rail ∉ b.work.late ∧ b.pwr = if rail = 0
            then { x with read0 := mv, volt0 := none, target0 := r.target } else { x with read1 := mv, volt1 := none, target1 := r.target }) ∧
        (¬(r.target.toNat ≤ mv.toNat + s.core.dct.voltTol ∧ mv.toNat ≤ r.target.toNat + s.core.dct.voltTol) →
          Sets (.voltageReadback rail mv) s fun b => b.pwr = if rail = 0 then { x with read0 := mv } else { x with read1 := mv }))) ∧
    Sets (.voltageTimeout rail) s (fun b => b = { s.core with work := s.core.work.later (.voltage rail) }) ∧
    (railReq x rail = none → decideLate s.core (.voltage rail) = s.core ∧
      Sets (.voltageRetryTimer rail) s fun b => b = s.core) ∧
    (∀ r, railReq x rail = some r → r.failed = false →
      (r.raising = true → s.core.st.done = true →
        let b := decideLate s.core (.voltage rail)
        b.pwr.voltFail = true ∧ b.pwr.lastStatus = St.voltageNack ∧
        .avs (s.core.dct.railNumber rail) r.previous ∈ b.work.fab.out ∧
        (r.retry = false → railReq b.pwr rail = some { r with failed := true } ∧ b.pwr.transition = x.transition) ∧
        (r.retry = true → b.pwr.volt0 = none ∧ b.pwr.volt1 = none ∧ b.pwr.transition = none)) ∧
      (r.raising = false → x.transition = none →
        let b := decideLate s.core (.voltage rail)
        b.pwr.voltFail = true ∧ b.pwr.lastStatus = St.voltageNack ∧ railReq b.pwr rail = none) ∧
      Sets (.voltageRetryTimer rail) s (fun b => b = s.core)) ∧
    (∀ r, railReq x rail = some r → r.failed = true → Sets (.voltageRetryTimer rail) s fun b =>
      railReq b.pwr rail = some { r with failed := false, retry := true } ∧
      b.work = { s.core.work with fab := { s.core.work.fab with
        out := .avs (s.core.dct.railNumber rail) r.target :: s.core.work.fab.out } }) ∧
    (∀ v : BitVec 16, x.state ≠ .ps3 →
      (v &&& 0xE000 ≠ 0 → b0.pwr.frozen = false → b0.st.inPor = false → domainUp b0 .ctl = true → Sets (.pmbAlert (some v)) s fun b =>
        b.pwr.frozen = true ∧ b.pwr.freezeReason = St.vrFault) ∧
      (v = 0 → Sets (.pmbAlert (some v)) s fun b => b = s.core) ∧
      (v &&& 0xE000 = 0 → v ≠ 0 → Sets (.pmbAlert (some v)) s fun b => b.pwr = { x with warnings := x.warnings + 1 }) ∧
      Sets (.pmbAlert none) s fun b => b = s.core) ∧
    (∀ v, x.state = .ps3 → x.transition = none → Sets (.pmbAlert v) s fun b =>
      b.pwr.transition = some .ps0 ∧ b.pwr.wakeSrc = 6 ∧ b.pwr.frozen = false) ∧
    (∀ vin iout temp, Sets (.vrTelemetryPoll vin iout temp) s fun b =>
      b = { s.core with pwr := { x with vin := vin.getD x.vin, iout := iout.getD x.iout, temp := temp.getD x.temp } })

/-- Power failure and the Sill record (R631 to R642): a low PWRFAIL_N ends the control cycle before and freezes the block with its
reason and beat, in a start too (R661), and
the record is begun where the product can write it; the last byte of a record closes it; PWRFAIL_N high again after a
freeze leads to a full block reset, which waits for the record; a test record is written only on a product that has
the store and has none under way, and waits for a SAVE in progress (R690). It rests on the model's choices of log entries 5 and 44. -/
def Obligations.PowerFailure : Prop :=
  ∀ (s : State),
    let x := s.core.pwr
    let b0 := lastCycle s.core
    (b0.pwr.frozen = false → b0.st.inPor = false → (domainUp b0 .ctl = true ∨ b0.st.done = false) → Sets .pwrfailNFall s fun b =>
      b.pwr.frozen = true ∧ b.pwr.pwrfailLow = true ∧ b.pwr.freezeReason = St.powerFail ∧ b.pwr.freezeBeat = b0.clk.beat ∧
      b.pwr.transition = none ∧ (b.work.switch .pln).on = false ∧ b.dct = b0.dct ∧ b.mbx = b0.mbx ∧
      b.frm = b0.frm ∧ b.work.slices = b0.work.slices ∧ b.work.cmds = b0.work.cmds ∧
      (b0.dct.sillCapable = true → b0.st.loaded = true → b.pwr.sillBusy.any (fun y => y.1 == .freeze) = true ∧
        (b.work.switch .ctl).on = (b0.work.switch .ctl).on)) ∧
    (x.frozen = true → Sets .pwrfailNFall s fun b => b = { s.core with pwr := { x with pwrfailLow := true } }) ∧
    (x.pwrfailLow = false → Sets .pwrfailNRise s fun b => b = s.core) ∧
    (x.pwrfailLow = true →
      (x.frozen = false → Sets .pwrfailNRise s fun b => b = { s.core with pwr := { x with pwrfailLow := false } }) ∧
      (x.frozen = true → x.sillBusy ≠ none → Sets .pwrfailNRise s fun b =>
        b = { s.core with pwr := { x with pwrfailLow := false, sillWaits := true } }) ∧
      (x.frozen = true → x.sillBusy = none → Settled s.core → Sets .pwrfailNRise s (Restarted s.core 5))) ∧
    (x.sillBusy = none → Sets .sillWriteDone s fun b => b = s.core) ∧
    (∀ second bytes, x.sillBusy = some (.test, second, bytes) → Sets .sillWriteDone s fun b =>
      b.pwr = { x with
        sillBusy := none, sillDone := true,
        sillSlotA := if second then x.sillSlotA else some (BitVec.ofNat 64 (fieldAt bytes 8 8), bytes),
        sillSlotB := if second then some (BitVec.ofNat 64 (fieldAt bytes 8 8), bytes) else x.sillSlotB }) ∧
    (∀ second bytes, x.sillBusy = some (.freeze, second, bytes) →
      (x.sillWaits = false → Sets .sillWriteDone s fun b => b.pwr.sillBusy = none ∧ b.pwr.sillDone = true ∧
        (b.work.switch .ctl).on = false ∧ b.work.fab.clkReq = false ∧ b.pwr.frozen = x.frozen) ∧
      (x.sillWaits = true → Settled s.core → Sets .sillWriteDone s (Restarted s.core 5))) ∧
    (s.live → dictSaving s.core = false → s.core.dct.sillCapable = true → x.sillBusy = none → Acts .sillTest s fun b =>
      b.pwr.sillBusy.any (fun y => y.1 == .test) = true ∧ b.dct = s.core.dct ∧
      (x.sillSlotA = none → x.sillSlotB = none → ∃ bytes, b.pwr.sillBusy = some (.test, false, bytes) ∧ fieldAt bytes 8 8 = 1 ∧
        .store s.core.storeMode 0 bytes ∈ b.work.fab.out)) ∧
    (s.live → dictSaving s.core = false → s.core.dct.sillCapable = false ∨ x.sillBusy ≠ none → Acts .sillTest s fun b => b = s.core) ∧
    (s.live → dictSaving s.core = true → Acts .sillTest s fun b => b = { s.core with pwr := { x with testWaits := true } })

/-! ### Start-up -/

/-- Resets (R56, R57, R65, R644 to R647, R655, R661): PORST_N low takes everything; high again it begins a cold start with
the engines as sampled; a pulse of SYSRST_N of a microsecond and a function level reset begin a warm start where a
start has completed, or completes in the same cycle, and make one that has not fail; one below 100 ns does nothing; a warm start out of time fails and starts again, and the third
failure forces a cold start. It rests on the model's choices of log entries 37 and 38. -/
def Obligations.Resets : Prop :=
  ∀ (s : State),
    let k := s.core.st
    Sets .porstNFall s (fun b => b.st = {} ∧ b.clk = {} ∧ b.mbx = {} ∧ b.frm = {} ∧ b.pwr = {} ∧ b.dct = {} ∧ b.mgmt = {} ∧ b.pins = {} ∧
      b.work.sw = [] ∧ b.work.slices = [] ∧ b.work.cmds = [] ∧ b.work.jnr.image = [] ∧ b.work.fab.bme = s.core.work.fab.bme) ∧
    (∀ present bf16, (k.inPor = false → Sets (.porstNRise present bf16) s fun b => b = s.core) ∧
      (k.inPor = true → Sets (.porstNRise present bf16) s fun b =>
        b.st.inPor = false ∧ b.st.warm = false ∧ b.st.cause = 0 ∧ b.st.done = false ∧ b.st.present = present ∧
        b.st.bf16 = bf16 &&& present ∧ b.clk = {} ∧ b.work.slices = [] ∧
        (s.core.work.fab.clkOk = true → b.st.step = 2 ∧ (b.work.switch .ctl).on = true) ∧
        (s.core.work.fab.clkOk = false → b.st.step = 1) ∧
        ∀ p, p < 16 → (b.work.port p).present = present.getLsbD p)) ∧
    (s.core.pwr.frozen = true → ∀ i, (i = .fnFlrReq ∨ ∃ ns, i = .sysrstNPulse ns) → Sets i s fun b => b = s.core) ∧
    (s.core.pwr.frozen = false →
      (∀ ns, ns < 100 → Sets (.sysrstNPulse ns) s fun b => b = s.core) ∧
      (k.inPor = false → Settled s.core →
        (∀ ns, 1000 ≤ ns → Sets (.sysrstNPulse ns) s (Restarted s.core 1)) ∧ Sets .fnFlrReq s (Restarted s.core 2)) ∧
      (mayComplete s.core = true →
        let late : Block := { s.core with st := { k with everDone := true, warmFails := 0 } }
        (∀ ns, 1000 ≤ ns → Sets (.sysrstNPulse ns) s (Restarted late 1)) ∧ Sets .fnFlrReq s (Restarted late 2)) ∧
      (k.inPor = false → k.warm = true → k.done = false → mayComplete s.core = false → k.warmFails.toNat < 2 →
        (∀ ns, 1000 ≤ ns → Sets (.sysrstNPulse ns) s fun b => Restarted s.core 1 b ∧ b.st.lastFail = St.resetDomain) ∧
        Sets .fnFlrReq s fun b => Restarted s.core 2 b ∧ b.st.lastFail = St.resetDomain) ∧
      (k.inPor = false → k.warm = true → k.done = false → mayComplete s.core = false →
        (k.warmFails.toNat < 2 → Sets .startTimeout s fun b => Restarted s.core 7 b ∧ b.st.lastFail = St.startTimeout ∧
          (k.everDone = true → b.st.warmFails = k.warmFails + 1)) ∧
        (2 ≤ k.warmFails.toNat → Sets .startTimeout s fun b =>
          b.st.warm = false ∧ b.st.cause = 6 ∧ b.st.lastFail = St.startTimeout ∧ b.st.warmFails = 0 ∧ b.work.jnr.image = [])) ∧
      (k.warm = false ∨ k.done = true → Sets .startTimeout s fun b => b = s.core))

/-- The steps of a start (R112, R516 to R518, R648 to R654): the clock runs and the domains are switched on; a fuse
word that checks gives the identity, and a third one that fails leaves it zero; self-test takes out the engines that
fail and halts the start on what it cannot do without; the load takes the values of the store, of the retention SRAM,
or the defaults; completion opens the block and begins the frame-join step. It rests on the model's choices of log
entry 37. -/
def Obligations.StartSteps : Prop :=
  ∀ (s : State), s.core.pwr.frozen = false →
    let k := s.core.st
    (k.warm = false → Sets .warmStart s fun b => b = s.core) ∧
    (k.warm = true → k.inPor = false → k.done = false → k.halted = false → k.step = 1 → s.core.work.fab.clkOk = true →
      Sets .warmStart s fun b => b.st = { k with step := 2 } ∧
        ∀ d : Domain, d = .ctl ∨ d = .pln ∨ d = .tnl ∨ (∃ p ∈ livePorts s.core, d = .eng p) →
          (b.work.switch d).on = true) ∧
    (∀ word, k.step = 3 → k.inPor = false →
      (fuseCrc word = word.extractLsb' 112 16 → Sets (.fuseAck word) s fun b => b = { s.core with pins := { s.core.pins with fuseReq := false }, st := { k with
        step := 4, lot := word.extractLsb' 0 40, wafer := word.extractLsb' 40 5, dieX := word.extractLsb' 48 8,
        dieY := word.extractLsb' 56 8, licensee := word.extractLsb' 64 16, integration := word.extractLsb' 80 16 } }) ∧
      (fuseCrc word ≠ word.extractLsb' 112 16 →
        (k.fuseTries < 2 → Sets (.fuseAck word) s fun b => b.st = { k with fuseTries := k.fuseTries + 1 } ∧
          b.pins.fuseReq = true ∧ b.work.fab.out = .fuseReq :: s.core.work.fab.out) ∧
        (2 ≤ k.fuseTries → Sets (.fuseAck word) s fun b => b.st.fuseFault = true ∧ b.st.step = 4 ∧ b.st.lot = 0 ∧ b.st.licensee = 0))) ∧
    (s.live → k.inPor = false → k.halted = false →
      (∀ (ctl kiln ret : Bool) (cores : BitVec 32) (ports : BitVec 16), k.step = 4 →
        (ctl = false → kiln = false → cores.getLsbD 0 = false → Acts (.selfTestDone ctl kiln ret cores ports) s fun b =>
          b.st.step = 5 ∧ b.st.bar0 = true ∧ b.st.bistCores = cores ∧ b.st.bistPorts = ports ∧ b.st.bistRetention = ret ∧
          b.pwr.retention = none ∧ ∀ p, p < 16 → (s.core.work.port p).present = true →
            (b.work.port p).state = if ports.getLsbD p then .retired else (s.core.work.port p).state) ∧
        (ctl = true ∨ kiln = true ∨ cores.getLsbD 0 = true → Acts (.selfTestDone ctl kiln ret cores ports) s fun b =>
          b.st.halted = true ∧ b.st.lastFail = St.bistFailed ∧ b.st.bar0 = !ctl ∧ b.st.step = 4)) ∧
      (k.step = 5 → k.loaded = false →
        (k.warm = false ∨ k.cause ≠ 4 ∨ s.core.pwr.restView = none →
          Acts (.dictionaryLoad none) s (fun b => b.st.loaded = true ∧ (b.st.step = 6 ∨ b.st.step = 7) ∧ b.dct.vals = [] ∧
            b.dct.taken = [] ∧ b.clk.quarters = 16 ∧ b.st.lastFail = St.dictDefaulted ∧ b.st.dictDefaulted = true) ∧
          ∀ store second, newerHalf (halfSeq (halfOfStore store false)) (halfSeq (halfOfStore store true)) = some second →
            Acts (.dictionaryLoad (some store)) s fun b =>
              let l := loadHalf k.present (halfOfStore store second) { s.core.dct with
                vals := [], halfA := halfSeq (halfOfStore store false), halfB := halfSeq (halfOfStore store true) }
              b.st.loaded = true ∧ b.dct.vals = l.dct.vals ∧ b.dct.taken = l.dct.vals ∧ b.dct.skipped = BitVec.ofNat 32 l.skipped ∧
              b.clk.quarters = BitVec.ofNat 8 b.dct.beatQuarters ∧ b.st.lastFail = k.lastFail) ∧
        (∀ store v, k.warm = true → k.cause = 4 → s.core.pwr.restView = some v → Acts (.dictionaryLoad store) s fun b =>
          b.st.loaded = true ∧ b.st.fromRetention = true ∧ b.dct.vals = s.core.pwr.retDict ∧ b.frm.admitted = v.1 ∧
          b.frm.excl = v.2.1 ∧ b.frm.down = v.2.2))) ∧
    (s.live →
      (mayComplete s.core = false → Acts .startComplete s fun b => b = s.core) ∧
      (mayComplete s.core = true → Acts .startComplete s fun b =>
        b.st.done = true ∧ b.st.everDone = true ∧ b.st.step = 0xFF ∧ b.st.warmFails = 0 ∧ b.dct.vals = s.core.dct.vals ∧
        b.frm.hash = frameHash s.core.dct ∧
        (frameOk s.core.dct = false → b.frm.state = .invalid ∧ b.dct.locked = true ∧ b.frm.lastCause = St.topologyMismatch) ∧
        (frameOk s.core.dct = true →
          ((∀ c, c < 64 → c ≠ s.core.dct.chipNum → s.core.dct.frameMembers.testBit c = false) →
            b.frm.state = .standalone ∧ b.dct.locked = true) ∧
          ∀ c, c < 64 → c ≠ s.core.dct.chipNum → s.core.dct.frameMembers.testBit c = true →
            b.frm.state = .listening ∧ b.dct.locked = s.core.dct.locked) ∧
        ∀ p, p < 16 → k.present.getLsbD p = true → (b.work.port p).kilnMib = kilnShare s.core.dct k.present p))

/-! ### The whole block -/

/-- A step takes the command at the front of the queue and is that command's effect, with the queue's rest. It rests
on the model's choices of log entry 1. -/
def Obligations.StepTakesTheFront : Prop :=
  ∀ (c : Instr) (s : State), step { s with pending := c :: s.pending } = exec c s

/-- With nothing waiting, a step is one control cycle that passes (the model's choice, log entry 2): none in power-on
reset, in PS3 and while the block has no clocks (R55), time alone in a frozen block, and otherwise a next state with nothing
waiting. -/
def Obligations.IdleStep : Prop :=
  ∀ (s : State), s.pending = [] →
    (s.core.st.inPor = true ∨ s.core.pwr.state = .ps3 ∨ clocked s.core = false → step s = .next s) ∧
    (s.core.st.inPor = false → s.core.pwr.state ≠ .ps3 → clocked s.core = true → s.core.pwr.frozen = true → step s = .next { s with core := { s.core with
      clk := { s.core.clk with cycle := s.core.clk.cycle + 1, phase := satInc s.core.clk.phase } } }) ∧
    ∃ t, step s = .next t ∧ t.pending = []

/-- Every command answers a next state, in every state and for every operand, and leaves the commands that wait. The
commands that act on the shared state of slices, queues, commands in flight, tiles, ports, objects, the sync unit, the
memory port and the joiner leave everything else: the clock, the mailboxes and locks, the links, the frame, power,
start, the dictionary and the management endpoint. It rests on the model's choices of log entry 3. -/
def Obligations.SharedStateCommandsFrame : Prop :=
  (∀ (c : Instr) (s : State), ∃ b, exec c s = .next { s with core := b }) ∧
  (∀ (c : Instr) (s : State),
    match c with
    | .nop _ | .execTiles _ | .copy _ | .fill _ | .tidy _ | .semAcquire _ | .semRelease _ | .counterOpSet _
    | .counterOpAdd _ | .counterOpSub _ | .counterOpWaitGe _ | .watchAdd _ | .watchCancel _ | .graph _ | .graphLoad _
    | .relaunch _ | .graphUnload _ | .objCreate _ | .objFree _ | .streamCreate _ | .streamAdvance _ | .streamMap _
    | .queueCreate _ | .queueDestroy _ | .ctxLoad _ | .ctxEvict _ | .query _ | .sliceFreeze _ | .sliceResume _
    | .sliceSave _ | .sliceRestore _ | .dirtyLogEnable _ | .dirtyLogHarvest _ | .dirtyLogDisable _ | .captureSet _
    | .pasidRevoke _ | .sliceEnable _ | .sliceDisable _ | .sliceDrained _ | .sqDoorbell _ _ _ | .cqDoorbell _ _ _
    | .queueResume _ _ | .queueRetry _ _ | .adminQueueEnable | .adminQueueDisable | .adminSqDoorbell _
    | .adminCqDoorbell _ | .fenceSignal _ _ | .fenceAdd _ _ | .fenceRead _ _ | .semRead _ _ | .capHeadWrite _
    | .ecallExit _ _ | .ecallYield _ | .programTrap _ _ | .programFence _ | .programAmo _ _ _ _ | .juSyncSignal _ _
    | .juSyncAdd _ _ | .juDoorbell _ _ | .tidySliceExpiry _ | .msixMessageSend _ | .siginUpdate _ _ _
    | .queueFetch _ _ | .entryReadReturn _ | .commandRelease _ | .statusBlockWrite _ _ | .completionRecordWrite _
    | .coalesceTimeout _ _ | .queueCacheLoad _ _ | .objEntryLoad _ | .commandTimeout _ | .lendExpiry _ _ _
    | .tileBind _ _ | .expanderUnitDone _ | .tableLoad _ | .tileOffer _ | .tileStart _ | .tileOfferTimeout _
    | .resultBeat _ _ _ _ _ | .tileDone _ _ _ | .engineFault _ _ _ _ | .preemptKill _ | .killAck _ _
    | .killAckTimeout _ | .tileOverrunHalf _ | .tileOverrunKill _ | .commitDone _ | .kilnEccError _ _ _ _
    | .slotSaveDone _ | .slotLoadDone _ | .copyRound _ | .softResetAck _ | .softResetTimeout _ | .engineIdle _
    | .hrstWaitTimeout _ | .pswAckFall _ | .retireWaitTimeout _ | .engineDomainReset | .engdomWaitTimeout
    | .planerWatchdog | .teardownComplete _ _ | .captureSnapshotDone | .captureWaitTimeout | .pasidRevokeComplete _
    | .fenceMessage | .watchReg | .watchNotify | .watchDrop => ∃ w, exec c s = .next { s with core := { s.core with work := w } }
    | _ => True)

/-- A frozen block answers no command but the reset pins, PWRFAIL_N and the end of its record, and a block in PS3 none
but those of the always-on domain: every other command leaves it (R99, R631, R632). It rests on the model's choices of
log entries 15 and 46. -/
def Obligations.StillBlock : Prop :=
  ∀ (c : Instr) (s : State),
    (s.core.pwr.frozen = true → match c with
    | .porstNRise _ _ | .pwrfailNFall | .sillWriteDone | .pwrfailNRise | .porstNFall => True
    | _ => exec c s = .next s) ∧
    (s.core.pwr.state = .ps3 → match c with
    | .entdaa _ | .setdasa _ | .sysrstNPulse _ | .fnFlrReq | .fnWakeReq | .fnBmeChange _ _ _ | .wakeDetect _ _
    | .pmbAlert _ | .vrTelemetryPoll _ _ _ | .voltageReadback _ _ | .voltageTimeout _ | .voltageRetryTimer _
    | .pswAck _ | .wakeAfterTimeout | .ps3Exit | .clkOkRise | .fuseAck _ | .warmStart | .startTimeout
    | .dictRead _ _ _ _ | .dictWrite _ _ _ _ | .dictInfo _ _ _ _ | .dictSave _ _ _ _ _ | .setEndpointId _ _ _ _
    | .getEndpointId _ _ _ | .getMctpVersionSupport _ _ _ _ | .getMessageTypeSupport _ _ _ | .porstNRise _ _
    | .pwrfailNFall | .sillWriteDone | .pwrfailNRise | .porstNFall => True
    | _ => exec c s = .next s)

/-- The state right after reset: PORST_N is low, nothing waits, no slice is on, no command is in flight, no request is
out, no lock is held, time and beat are 0, no start has completed, power stands in PS0 and the chip in no frame. It
rests on the model's choices of log entry 4. -/
def Obligations.ResetState : Prop :=
  let b := State.reset.core
  State.reset.pending = [] ∧ b.st.inPor = true ∧ b.st.done = false ∧ b.st.lastFail = 0 ∧ b.st.warmFails = 0 ∧
  (∀ n, (b.work.slice n).state = .off) ∧ b.work.cmds = [] ∧ b.work.fab.reqs = [] ∧ b.work.tiles = [] ∧
  (∀ i, b.lock i = none) ∧ b.mbx.maint = true ∧ b.clk.beat = 0 ∧ b.clk.quarters = 16 ∧ b.pwr.state = .ps0 ∧ b.pwr.frozen = false ∧
  b.frm.state = .standalone ∧ b.frm.epoch = 0 ∧ b.dct.lastStatus = 0 ∧ (∀ p, (b.lport p).state ≠ .up)

/-- No lock is held right after reset, so the locks are lawful then. It rests on the model's choices of log entry 4.
-/
def Obligations.LocksLawfulAtReset : Prop :=
  LocksLawful State.reset.core

/-- The locks stay lawful over every step, a command's or an idle one: each is one of the 64, and whoever holds it is
an identity that has access to the locks (R459 to R461). It rests on the model's choices of log entries 2 and 3. -/
def Obligations.LocksStayLawful : Prop :=
  ∀ (s t : State), LocksLawful s.core → step s = .next t → LocksLawful t.core

/-- A port that is UP after a step was UP or in PROBATION before it: there is no other way into UP (R487). -/
def Obligations.ProbationBeforeUp : Prop :=
  ∀ (s t : State) (p : Nat), step s = .next t → (t.core.lport p).state = .up →
    (s.core.lport p).state = .up ∨ (s.core.lport p).state = .probation

/-- A dictionary write that would make the sum of FENCE_COUNT, SEM_COUNT or WATCH_COUNT over the 64 slices exceed its
bound aborts with VALUE_RANGE, and the old value stays (R298). -/
def Obligations.PoolSumsBounded : Prop :=
  ∀ (s : State), s.live → WindowTurn s.core →
    let r := reqOf (windowBody s.core)
    r.op = 2 → r.target < 64 → r.ty = 3 → r.len = 2 → r.off = 0 → r.sub < 64 →
    let sum : Nat := ((List.range 64).map fun k => if k = r.sub then leNat r.data else s.core.dct.par r.index k).sum
    (r.index = 0x3006 ∧ 65536 < sum ∨ r.index = 0x3007 ∧ 4096 < sum ∨ r.index = 0x3008 ∧ 8192 < sum) →
    Acts (windowRow 2) s fun b => Aborts s.core St.valueRange b ∧ b.dct.par r.index r.sub = s.core.dct.par r.index r.sub
end

