-- ==== Sys2Proof/Laws/Tbl.lean ====
section
/-! SUPPORT. Laws of tables: a read after a write at the same number gives what was written, a write leaves every other
number alone, and every operation keeps the canonical form. -/

namespace Sys2Proof

section
variable {α : Type} [DecidableEq α]

omit [DecidableEq α] in
theorem tblGet_tblDel_same (d : α) (t : Tbl α) (k : Nat) : tblGet d (tblDel t k) k = d := by
  induction t with
  | nil => rfl
  | cons p t ih =>
    obtain ⟨i, x⟩ := p
    simp only [tblDel]
    split
    · exact ih
    · simp only [tblGet]; rw [if_neg (by assumption)]; exact ih

omit [DecidableEq α] in
theorem tblGet_tblDel_other (d : α) (t : Tbl α) (k j : Nat) (h : j ≠ k) : tblGet d (tblDel t k) j = tblGet d t j := by
  induction t with
  | nil => rfl
  | cons p t ih =>
    obtain ⟨i, x⟩ := p
    simp only [tblDel]
    split
    · rename_i hi
      simp only [tblGet]
      rw [if_neg (by omega)]
      exact ih
    · simp only [tblGet]
      split
      · rfl
      · exact ih

omit [DecidableEq α] in
theorem tblGet_tblPut_same (d : α) (t : Tbl α) (k : Nat) (v : α) : tblGet d (tblPut t k v) k = v := by
  induction t with
  | nil => simp [tblPut, tblGet]
  | cons p t ih =>
    obtain ⟨i, x⟩ := p
    simp only [tblPut]
    split
    · simp [tblGet]
    · split
      · simp [tblGet]
      · simp only [tblGet]; rw [if_neg (by omega)]; exact ih

omit [DecidableEq α] in
theorem tblGet_tblPut_other (d : α) (t : Tbl α) (k j : Nat) (v : α) (h : j ≠ k) :
    tblGet d (tblPut t k v) j = tblGet d t j := by
  induction t with
  | nil => simp only [tblPut, tblGet]; rw [if_neg (by omega)]
  | cons p t ih =>
    obtain ⟨i, x⟩ := p
    simp only [tblPut]
    split
    · simp only [tblGet]; rw [if_neg (by omega)]
    · split
      · rename_i hk
        simp only [tblGet]
        rw [if_neg (by omega), if_neg (by omega)]
      · simp only [tblGet]
        split
        · rfl
        · exact ih

/-- A read after a write at the same number gives what was written. -/
@[simp] theorem tblGet_tblSet_same (d : α) (t : Tbl α) (k : Nat) (v : α) : tblGet d (tblSet d t k v) k = v := by
  simp only [tblSet]
  split
  · rename_i h; rw [h]; exact tblGet_tblDel_same d t k
  · exact tblGet_tblPut_same d t k v

/-- A write leaves every other number alone. -/
theorem tblGet_tblSet_other (d : α) (t : Tbl α) (k j : Nat) (v : α) (h : j ≠ k) :
    tblGet d (tblSet d t k v) j = tblGet d t j := by
  simp only [tblSet]
  split
  · exact tblGet_tblDel_other d t k j h
  · exact tblGet_tblPut_other d t k j v h

@[simp] theorem tblGet_tblUpd_same (d : α) (t : Tbl α) (k : Nat) (f : α → α) :
    tblGet d (tblUpd d t k f) k = f (tblGet d t k) := tblGet_tblSet_same d t k _

theorem tblGet_tblUpd_other (d : α) (t : Tbl α) (k j : Nat) (f : α → α) (h : j ≠ k) :
    tblGet d (tblUpd d t k f) j = tblGet d t j := tblGet_tblSet_other d t k j _ h

/-! ### The canonical form -/

/-- Every number of a table is above `n`, where a bound is given. -/
def tblAbove {α : Type} (n : Option Nat) (t : Tbl α) : Prop := ∀ p ∈ t, ∀ m, n = some m → m < p.1

theorem tblWf_cons (d : α) (i : Nat) (x : α) (t : Tbl α) :
    tblWf d ((i, x) :: t) = true ↔ x ≠ d ∧ (∀ p ∈ t, i < p.1) ∧ tblWf d t = true := by
  induction t generalizing i x with
  | nil => simp [tblWf]
  | cons q t ih =>
    obtain ⟨j, y⟩ := q
    simp only [tblWf, Bool.and_eq_true, decide_eq_true_eq]
    constructor
    · rintro ⟨⟨hij, hx⟩, ht⟩
      refine ⟨hx, ?_, ht⟩
      intro p hp
      rcases List.mem_cons.mp hp with rfl | hp
      · exact hij
      · exact Nat.lt_trans hij (((ih j y).mp ht).2.1 p hp)
    · rintro ⟨hx, ha, ht⟩
      exact ⟨⟨ha (j, y) List.mem_cons_self, hx⟩, ht⟩

omit [DecidableEq α] in
theorem mem_tblDel (t : Tbl α) (k : Nat) (p : Nat × α) (h : p ∈ tblDel t k) : p ∈ t := by
  induction t with
  | nil => exact h
  | cons q t ih =>
    obtain ⟨i, x⟩ := q
    simp only [tblDel] at h
    split at h
    · exact List.mem_cons_of_mem _ (ih h)
    · rcases List.mem_cons.mp h with rfl | h
      · exact List.mem_cons_self
      · exact List.mem_cons_of_mem _ (ih h)

omit [DecidableEq α] in
theorem mem_tblPut (t : Tbl α) (k : Nat) (v : α) (p : Nat × α) (h : p ∈ tblPut t k v) : p = (k, v) ∨ p ∈ t := by
  induction t with
  | nil => exact Or.inl (by simpa [tblPut] using h)
  | cons q t ih =>
    obtain ⟨i, x⟩ := q
    simp only [tblPut] at h
    split at h
    · rcases List.mem_cons.mp h with h | h
      · exact Or.inl h
      · exact Or.inr h
    · split at h
      · rcases List.mem_cons.mp h with h | h
        · exact Or.inl h
        · exact Or.inr (List.mem_cons_of_mem _ h)
      · rcases List.mem_cons.mp h with h | h
        · exact Or.inr (h ▸ List.mem_cons_self)
        · rcases ih h with h | h
          · exact Or.inl h
          · exact Or.inr (List.mem_cons_of_mem _ h)

theorem tblWf_tblDel (d : α) (t : Tbl α) (k : Nat) (h : tblWf d t = true) : tblWf d (tblDel t k) = true := by
  induction t with
  | nil => rfl
  | cons q t ih =>
    obtain ⟨i, x⟩ := q
    have hc := (tblWf_cons d i x t).mp h
    simp only [tblDel]
    split
    · exact ih hc.2.2
    · exact (tblWf_cons d i x _).mpr ⟨hc.1, fun p hp => hc.2.1 p (mem_tblDel t k p hp), ih hc.2.2⟩

theorem tblWf_tblPut (d : α) (t : Tbl α) (k : Nat) (v : α) (hv : v ≠ d) (h : tblWf d t = true) :
    tblWf d (tblPut t k v) = true := by
  induction t with
  | nil => simp [tblPut, tblWf, hv]
  | cons q t ih =>
    obtain ⟨i, x⟩ := q
    have hc := (tblWf_cons d i x t).mp h
    simp only [tblPut]
    split
    · rename_i hk
      refine (tblWf_cons d k v _).mpr ⟨hv, ?_, h⟩
      intro p hp
      rcases List.mem_cons.mp hp with rfl | hp
      · exact hk
      · exact Nat.lt_trans hk (hc.2.1 p hp)
    · split
      · rename_i hk
        exact (tblWf_cons d k v _).mpr ⟨hv, fun p hp => hk ▸ hc.2.1 p hp, hc.2.2⟩
      · refine (tblWf_cons d i x _).mpr ⟨hc.1, ?_, ih hc.2.2⟩
        intro p hp
        rcases mem_tblPut t k v p hp with rfl | hp
        · simp only; omega
        · exact hc.2.1 p hp

/-- A write keeps the canonical form. -/
theorem tblWf_tblSet (d : α) (t : Tbl α) (k : Nat) (v : α) (h : tblWf d t = true) : tblWf d (tblSet d t k v) = true := by
  simp only [tblSet]
  split
  · exact tblWf_tblDel d t k h
  · rename_i hv; exact tblWf_tblPut d t k v hv h

/-- A change keeps the canonical form. -/
theorem tblWf_tblUpd (d : α) (t : Tbl α) (k : Nat) (f : α → α) (h : tblWf d t = true) : tblWf d (tblUpd d t k f) = true :=
  tblWf_tblSet d t k _ h

end

end Sys2Proof
end

