-- ==== Sys2Proof/Laws/State.lean ====
section
/-! SUPPORT. What each named update of the state leaves as it was, field by field, and what a read after it gives. -/

namespace Sys2Proof.Machine

/-! ### The shared state -/

section
variable (w : Work)

@[simp] theorem Work.updCmd_fab (id : Nat) (f : Cmd → Cmd) : (w.updCmd id f).fab = w.fab := rfl
@[simp] theorem Work.updCmd_slices (id : Nat) (f : Cmd → Cmd) : (w.updCmd id f).slices = w.slices := rfl
@[simp] theorem Work.updCmd_queues (id : Nat) (f : Cmd → Cmd) : (w.updCmd id f).queues = w.queues := rfl
@[simp] theorem Work.updCmd_admin (id : Nat) (f : Cmd → Cmd) : (w.updCmd id f).admin = w.admin := rfl
@[simp] theorem Work.updCmd_sync (id : Nat) (f : Cmd → Cmd) : (w.updCmd id f).sync = w.sync := rfl
@[simp] theorem Work.updCmd_nextId (id : Nat) (f : Cmd → Cmd) : (w.updCmd id f).nextId = w.nextId := rfl
@[simp] theorem Work.updCmd_runs (id : Nat) (f : Cmd → Cmd) : (w.updCmd id f).runs = w.runs := rfl
@[simp] theorem Work.updCmd_objs (id : Nat) (f : Cmd → Cmd) : (w.updCmd id f).objs = w.objs := rfl
@[simp] theorem Work.updCmd_streamFree (id : Nat) (f : Cmd → Cmd) : (w.updCmd id f).streamFree = w.streamFree := rfl
@[simp] theorem Work.updCmd_tableUp (id : Nat) (f : Cmd → Cmd) : (w.updCmd id f).tableUp = w.tableUp := rfl
@[simp] theorem Work.updCmd_tableBase (id : Nat) (f : Cmd → Cmd) : (w.updCmd id f).tableBase = w.tableBase := rfl
@[simp] theorem Work.updCmd_tableEntries (id : Nat) (f : Cmd → Cmd) : (w.updCmd id f).tableEntries = w.tableEntries := rfl
@[simp] theorem Work.updCmd_objHits (id : Nat) (f : Cmd → Cmd) : (w.updCmd id f).objHits = w.objHits := rfl
@[simp] theorem Work.updCmd_objMisses (id : Nat) (f : Cmd → Cmd) : (w.updCmd id f).objMisses = w.objMisses := rfl
@[simp] theorem Work.updCmd_slots (id : Nat) (f : Cmd → Cmd) : (w.updCmd id f).slots = w.slots := rfl
@[simp] theorem Work.updCmd_lends (id : Nat) (f : Cmd → Cmd) : (w.updCmd id f).lends = w.lends := rfl
@[simp] theorem Work.updCmd_rr (id : Nat) (f : Cmd → Cmd) : (w.updCmd id f).rr = w.rr := rfl
@[simp] theorem Work.updCmd_tiles (id : Nat) (f : Cmd → Cmd) : (w.updCmd id f).tiles = w.tiles := rfl
@[simp] theorem Work.updCmd_nextOrder (id : Nat) (f : Cmd → Cmd) : (w.updCmd id f).nextOrder = w.nextOrder := rfl
@[simp] theorem Work.updCmd_ports (id : Nat) (f : Cmd → Cmd) : (w.updCmd id f).ports = w.ports := rfl
@[simp] theorem Work.updCmd_pln (id : Nat) (f : Cmd → Cmd) : (w.updCmd id f).pln = w.pln := rfl
@[simp] theorem Work.updCmd_jnr (id : Nat) (f : Cmd → Cmd) : (w.updCmd id f).jnr = w.jnr := rfl
@[simp] theorem Work.updCmd_cap (id : Nat) (f : Cmd → Cmd) : (w.updCmd id f).cap = w.cap := rfl
@[simp] theorem Work.updCmd_msgs (id : Nat) (f : Cmd → Cmd) : (w.updCmd id f).msgs = w.msgs := rfl
@[simp] theorem Work.updCmd_fenced (id : Nat) (f : Cmd → Cmd) : (w.updCmd id f).fenced = w.fenced := rfl
@[simp] theorem Work.updCmd_barEnds (id : Nat) (f : Cmd → Cmd) : (w.updCmd id f).barEnds = w.barEnds := rfl
@[simp] theorem Work.updCmd_fresh (id : Nat) (f : Cmd → Cmd) : (w.updCmd id f).fresh = w.fresh := rfl
@[simp] theorem Work.updCmd_streamUp (id : Nat) (f : Cmd → Cmd) : (w.updCmd id f).streamUp = w.streamUp := rfl
@[simp] theorem Work.updCmd_streamCached (id : Nat) (f : Cmd → Cmd) : (w.updCmd id f).streamCached = w.streamCached := rfl
@[simp] theorem Work.updCmd_fillLeft (id : Nat) (f : Cmd → Cmd) : (w.updCmd id f).fillLeft = w.fillLeft := rfl
@[simp] theorem Work.updCmd_copyLast (id : Nat) (f : Cmd → Cmd) : (w.updCmd id f).copyLast = w.copyLast := rfl
@[simp] theorem Work.updCmd_sw (id : Nat) (f : Cmd → Cmd) : (w.updCmd id f).sw = w.sw := rfl
@[simp] theorem Work.updCmd_setNow (id : Nat) (f : Cmd → Cmd) : (w.updCmd id f).setNow = w.setNow := rfl
@[simp] theorem Work.updCmd_late (id : Nat) (f : Cmd → Cmd) : (w.updCmd id f).late = w.late := rfl

@[simp] theorem Work.later_fab (x : Late) : (w.later x).fab = w.fab := rfl
@[simp] theorem Work.later_slices (x : Late) : (w.later x).slices = w.slices := rfl
@[simp] theorem Work.later_queues (x : Late) : (w.later x).queues = w.queues := rfl
@[simp] theorem Work.later_admin (x : Late) : (w.later x).admin = w.admin := rfl
@[simp] theorem Work.later_sync (x : Late) : (w.later x).sync = w.sync := rfl
@[simp] theorem Work.later_cmds (x : Late) : (w.later x).cmds = w.cmds := rfl
@[simp] theorem Work.later_nextId (x : Late) : (w.later x).nextId = w.nextId := rfl
@[simp] theorem Work.later_runs (x : Late) : (w.later x).runs = w.runs := rfl
@[simp] theorem Work.later_objs (x : Late) : (w.later x).objs = w.objs := rfl
@[simp] theorem Work.later_streamUp (x : Late) : (w.later x).streamUp = w.streamUp := rfl
@[simp] theorem Work.later_streamFree (x : Late) : (w.later x).streamFree = w.streamFree := rfl
@[simp] theorem Work.later_streamCached (x : Late) : (w.later x).streamCached = w.streamCached := rfl
@[simp] theorem Work.later_tableUp (x : Late) : (w.later x).tableUp = w.tableUp := rfl
@[simp] theorem Work.later_fillLeft (x : Late) : (w.later x).fillLeft = w.fillLeft := rfl
@[simp] theorem Work.later_tableBase (x : Late) : (w.later x).tableBase = w.tableBase := rfl
@[simp] theorem Work.later_tableEntries (x : Late) : (w.later x).tableEntries = w.tableEntries := rfl
@[simp] theorem Work.later_objHits (x : Late) : (w.later x).objHits = w.objHits := rfl
@[simp] theorem Work.later_objMisses (x : Late) : (w.later x).objMisses = w.objMisses := rfl
@[simp] theorem Work.later_slots (x : Late) : (w.later x).slots = w.slots := rfl
@[simp] theorem Work.later_lends (x : Late) : (w.later x).lends = w.lends := rfl
@[simp] theorem Work.later_rr (x : Late) : (w.later x).rr = w.rr := rfl
@[simp] theorem Work.later_tiles (x : Late) : (w.later x).tiles = w.tiles := rfl
@[simp] theorem Work.later_nextOrder (x : Late) : (w.later x).nextOrder = w.nextOrder := rfl
@[simp] theorem Work.later_copyLast (x : Late) : (w.later x).copyLast = w.copyLast := rfl
@[simp] theorem Work.later_ports (x : Late) : (w.later x).ports = w.ports := rfl
@[simp] theorem Work.later_sw (x : Late) : (w.later x).sw = w.sw := rfl
@[simp] theorem Work.later_pln (x : Late) : (w.later x).pln = w.pln := rfl
@[simp] theorem Work.later_jnr (x : Late) : (w.later x).jnr = w.jnr := rfl
@[simp] theorem Work.later_cap (x : Late) : (w.later x).cap = w.cap := rfl
@[simp] theorem Work.later_msgs (x : Late) : (w.later x).msgs = w.msgs := rfl
@[simp] theorem Work.later_fenced (x : Late) : (w.later x).fenced = w.fenced := rfl
@[simp] theorem Work.later_barEnds (x : Late) : (w.later x).barEnds = w.barEnds := rfl
@[simp] theorem Work.later_setNow (x : Late) : (w.later x).setNow = w.setNow := rfl
@[simp] theorem Work.later_fresh (x : Late) : (w.later x).fresh = w.fresh := rfl
@[simp] theorem Work.later_late (x : Late) : (w.later x).late = w.late ++ [x] := rfl
@[simp] theorem withdrawLate_fab (x : Late) : (withdrawLate x w).fab = w.fab := rfl
@[simp] theorem withdrawLate_slices (x : Late) : (withdrawLate x w).slices = w.slices := rfl
@[simp] theorem withdrawLate_queues (x : Late) : (withdrawLate x w).queues = w.queues := rfl
@[simp] theorem withdrawLate_admin (x : Late) : (withdrawLate x w).admin = w.admin := rfl
@[simp] theorem withdrawLate_sync (x : Late) : (withdrawLate x w).sync = w.sync := rfl
@[simp] theorem withdrawLate_cmds (x : Late) : (withdrawLate x w).cmds = w.cmds := rfl
@[simp] theorem withdrawLate_nextId (x : Late) : (withdrawLate x w).nextId = w.nextId := rfl
@[simp] theorem withdrawLate_runs (x : Late) : (withdrawLate x w).runs = w.runs := rfl
@[simp] theorem withdrawLate_objs (x : Late) : (withdrawLate x w).objs = w.objs := rfl
@[simp] theorem withdrawLate_streamUp (x : Late) : (withdrawLate x w).streamUp = w.streamUp := rfl
@[simp] theorem withdrawLate_streamFree (x : Late) : (withdrawLate x w).streamFree = w.streamFree := rfl
@[simp] theorem withdrawLate_streamCached (x : Late) : (withdrawLate x w).streamCached = w.streamCached := rfl
@[simp] theorem withdrawLate_tableUp (x : Late) : (withdrawLate x w).tableUp = w.tableUp := rfl
@[simp] theorem withdrawLate_fillLeft (x : Late) : (withdrawLate x w).fillLeft = w.fillLeft := rfl
@[simp] theorem withdrawLate_tableBase (x : Late) : (withdrawLate x w).tableBase = w.tableBase := rfl
@[simp] theorem withdrawLate_tableEntries (x : Late) : (withdrawLate x w).tableEntries = w.tableEntries := rfl
@[simp] theorem withdrawLate_objHits (x : Late) : (withdrawLate x w).objHits = w.objHits := rfl
@[simp] theorem withdrawLate_objMisses (x : Late) : (withdrawLate x w).objMisses = w.objMisses := rfl
@[simp] theorem withdrawLate_slots (x : Late) : (withdrawLate x w).slots = w.slots := rfl
@[simp] theorem withdrawLate_lends (x : Late) : (withdrawLate x w).lends = w.lends := rfl
@[simp] theorem withdrawLate_rr (x : Late) : (withdrawLate x w).rr = w.rr := rfl
@[simp] theorem withdrawLate_tiles (x : Late) : (withdrawLate x w).tiles = w.tiles := rfl
@[simp] theorem withdrawLate_nextOrder (x : Late) : (withdrawLate x w).nextOrder = w.nextOrder := rfl
@[simp] theorem withdrawLate_copyLast (x : Late) : (withdrawLate x w).copyLast = w.copyLast := rfl
@[simp] theorem withdrawLate_ports (x : Late) : (withdrawLate x w).ports = w.ports := rfl
@[simp] theorem withdrawLate_sw (x : Late) : (withdrawLate x w).sw = w.sw := rfl
@[simp] theorem withdrawLate_pln (x : Late) : (withdrawLate x w).pln = w.pln := rfl
@[simp] theorem withdrawLate_jnr (x : Late) : (withdrawLate x w).jnr = w.jnr := rfl
@[simp] theorem withdrawLate_cap (x : Late) : (withdrawLate x w).cap = w.cap := rfl
@[simp] theorem withdrawLate_msgs (x : Late) : (withdrawLate x w).msgs = w.msgs := rfl
@[simp] theorem withdrawLate_fenced (x : Late) : (withdrawLate x w).fenced = w.fenced := rfl
@[simp] theorem withdrawLate_barEnds (x : Late) : (withdrawLate x w).barEnds = w.barEnds := rfl
@[simp] theorem withdrawLate_setNow (x : Late) : (withdrawLate x w).setNow = w.setNow := rfl
@[simp] theorem withdrawLate_fresh (x : Late) : (withdrawLate x w).fresh = w.fresh := rfl
@[simp] theorem withdrawLate_late (x : Late) : (withdrawLate x w).late = w.late.filter fun y => y != x := rfl

@[simp] theorem Work.mapCmds_fab (f : Cmd → Cmd) : (w.mapCmds f).fab = w.fab := rfl
@[simp] theorem Work.mapCmds_slices (f : Cmd → Cmd) : (w.mapCmds f).slices = w.slices := rfl
@[simp] theorem Work.mapCmds_queues (f : Cmd → Cmd) : (w.mapCmds f).queues = w.queues := rfl
@[simp] theorem Work.mapCmds_admin (f : Cmd → Cmd) : (w.mapCmds f).admin = w.admin := rfl
@[simp] theorem Work.mapCmds_sync (f : Cmd → Cmd) : (w.mapCmds f).sync = w.sync := rfl
@[simp] theorem Work.mapCmds_nextId (f : Cmd → Cmd) : (w.mapCmds f).nextId = w.nextId := rfl
@[simp] theorem Work.mapCmds_runs (f : Cmd → Cmd) : (w.mapCmds f).runs = w.runs := rfl
@[simp] theorem Work.mapCmds_objs (f : Cmd → Cmd) : (w.mapCmds f).objs = w.objs := rfl
@[simp] theorem Work.mapCmds_streamFree (f : Cmd → Cmd) : (w.mapCmds f).streamFree = w.streamFree := rfl
@[simp] theorem Work.mapCmds_tableUp (f : Cmd → Cmd) : (w.mapCmds f).tableUp = w.tableUp := rfl
@[simp] theorem Work.mapCmds_tableBase (f : Cmd → Cmd) : (w.mapCmds f).tableBase = w.tableBase := rfl
@[simp] theorem Work.mapCmds_tableEntries (f : Cmd → Cmd) : (w.mapCmds f).tableEntries = w.tableEntries := rfl
@[simp] theorem Work.mapCmds_objHits (f : Cmd → Cmd) : (w.mapCmds f).objHits = w.objHits := rfl
@[simp] theorem Work.mapCmds_objMisses (f : Cmd → Cmd) : (w.mapCmds f).objMisses = w.objMisses := rfl
@[simp] theorem Work.mapCmds_slots (f : Cmd → Cmd) : (w.mapCmds f).slots = w.slots := rfl
@[simp] theorem Work.mapCmds_lends (f : Cmd → Cmd) : (w.mapCmds f).lends = w.lends := rfl
@[simp] theorem Work.mapCmds_rr (f : Cmd → Cmd) : (w.mapCmds f).rr = w.rr := rfl
@[simp] theorem Work.mapCmds_tiles (f : Cmd → Cmd) : (w.mapCmds f).tiles = w.tiles := rfl
@[simp] theorem Work.mapCmds_nextOrder (f : Cmd → Cmd) : (w.mapCmds f).nextOrder = w.nextOrder := rfl
@[simp] theorem Work.mapCmds_ports (f : Cmd → Cmd) : (w.mapCmds f).ports = w.ports := rfl
@[simp] theorem Work.mapCmds_pln (f : Cmd → Cmd) : (w.mapCmds f).pln = w.pln := rfl
@[simp] theorem Work.mapCmds_jnr (f : Cmd → Cmd) : (w.mapCmds f).jnr = w.jnr := rfl
@[simp] theorem Work.mapCmds_cap (f : Cmd → Cmd) : (w.mapCmds f).cap = w.cap := rfl
@[simp] theorem Work.mapCmds_msgs (f : Cmd → Cmd) : (w.mapCmds f).msgs = w.msgs := rfl
@[simp] theorem Work.mapCmds_fenced (f : Cmd → Cmd) : (w.mapCmds f).fenced = w.fenced := rfl
@[simp] theorem Work.mapCmds_barEnds (f : Cmd → Cmd) : (w.mapCmds f).barEnds = w.barEnds := rfl
@[simp] theorem Work.mapCmds_fresh (f : Cmd → Cmd) : (w.mapCmds f).fresh = w.fresh := rfl
@[simp] theorem Work.mapCmds_streamUp (f : Cmd → Cmd) : (w.mapCmds f).streamUp = w.streamUp := rfl
@[simp] theorem Work.mapCmds_streamCached (f : Cmd → Cmd) : (w.mapCmds f).streamCached = w.streamCached := rfl
@[simp] theorem Work.mapCmds_fillLeft (f : Cmd → Cmd) : (w.mapCmds f).fillLeft = w.fillLeft := rfl
@[simp] theorem Work.mapCmds_copyLast (f : Cmd → Cmd) : (w.mapCmds f).copyLast = w.copyLast := rfl
@[simp] theorem Work.mapCmds_sw (f : Cmd → Cmd) : (w.mapCmds f).sw = w.sw := rfl
@[simp] theorem Work.mapCmds_setNow (f : Cmd → Cmd) : (w.mapCmds f).setNow = w.setNow := rfl
@[simp] theorem Work.mapCmds_late (f : Cmd → Cmd) : (w.mapCmds f).late = w.late := rfl

@[simp] theorem Work.dropCmd_fab (id : Nat) : (w.dropCmd id).fab = w.fab := rfl
@[simp] theorem Work.dropCmd_slices (id : Nat) : (w.dropCmd id).slices = w.slices := rfl
@[simp] theorem Work.dropCmd_queues (id : Nat) : (w.dropCmd id).queues = w.queues := rfl
@[simp] theorem Work.dropCmd_admin (id : Nat) : (w.dropCmd id).admin = w.admin := rfl
@[simp] theorem Work.dropCmd_sync (id : Nat) : (w.dropCmd id).sync = w.sync := rfl
@[simp] theorem Work.dropCmd_nextId (id : Nat) : (w.dropCmd id).nextId = w.nextId := rfl
@[simp] theorem Work.dropCmd_runs (id : Nat) : (w.dropCmd id).runs = w.runs := rfl
@[simp] theorem Work.dropCmd_objs (id : Nat) : (w.dropCmd id).objs = w.objs := rfl
@[simp] theorem Work.dropCmd_streamFree (id : Nat) : (w.dropCmd id).streamFree = w.streamFree := rfl
@[simp] theorem Work.dropCmd_tableUp (id : Nat) : (w.dropCmd id).tableUp = w.tableUp := rfl
@[simp] theorem Work.dropCmd_tableBase (id : Nat) : (w.dropCmd id).tableBase = w.tableBase := rfl
@[simp] theorem Work.dropCmd_tableEntries (id : Nat) : (w.dropCmd id).tableEntries = w.tableEntries := rfl
@[simp] theorem Work.dropCmd_objHits (id : Nat) : (w.dropCmd id).objHits = w.objHits := rfl
@[simp] theorem Work.dropCmd_objMisses (id : Nat) : (w.dropCmd id).objMisses = w.objMisses := rfl
@[simp] theorem Work.dropCmd_slots (id : Nat) : (w.dropCmd id).slots = w.slots := rfl
@[simp] theorem Work.dropCmd_lends (id : Nat) : (w.dropCmd id).lends = w.lends := rfl
@[simp] theorem Work.dropCmd_rr (id : Nat) : (w.dropCmd id).rr = w.rr := rfl
@[simp] theorem Work.dropCmd_tiles (id : Nat) : (w.dropCmd id).tiles = w.tiles := rfl
@[simp] theorem Work.dropCmd_nextOrder (id : Nat) : (w.dropCmd id).nextOrder = w.nextOrder := rfl
@[simp] theorem Work.dropCmd_ports (id : Nat) : (w.dropCmd id).ports = w.ports := rfl
@[simp] theorem Work.dropCmd_pln (id : Nat) : (w.dropCmd id).pln = w.pln := rfl
@[simp] theorem Work.dropCmd_jnr (id : Nat) : (w.dropCmd id).jnr = w.jnr := rfl
@[simp] theorem Work.dropCmd_cap (id : Nat) : (w.dropCmd id).cap = w.cap := rfl
@[simp] theorem Work.dropCmd_msgs (id : Nat) : (w.dropCmd id).msgs = w.msgs := rfl
@[simp] theorem Work.dropCmd_fenced (id : Nat) : (w.dropCmd id).fenced = w.fenced := rfl
@[simp] theorem Work.dropCmd_barEnds (id : Nat) : (w.dropCmd id).barEnds = w.barEnds := rfl
@[simp] theorem Work.dropCmd_fresh (id : Nat) : (w.dropCmd id).fresh = w.fresh := rfl
@[simp] theorem Work.dropCmd_streamUp (id : Nat) : (w.dropCmd id).streamUp = w.streamUp := rfl
@[simp] theorem Work.dropCmd_streamCached (id : Nat) : (w.dropCmd id).streamCached = w.streamCached := rfl
@[simp] theorem Work.dropCmd_fillLeft (id : Nat) : (w.dropCmd id).fillLeft = w.fillLeft := rfl
@[simp] theorem Work.dropCmd_copyLast (id : Nat) : (w.dropCmd id).copyLast = w.copyLast := rfl
@[simp] theorem Work.dropCmd_sw (id : Nat) : (w.dropCmd id).sw = w.sw := rfl
@[simp] theorem Work.dropCmd_setNow (id : Nat) : (w.dropCmd id).setNow = w.setNow := rfl
@[simp] theorem Work.dropCmd_late (id : Nat) : (w.dropCmd id).late = w.late := rfl

@[simp] theorem Work.updRun_fab (n : Nat) (f : Run → Run) : (w.updRun n f).fab = w.fab := rfl
@[simp] theorem Work.updRun_slices (n : Nat) (f : Run → Run) : (w.updRun n f).slices = w.slices := rfl
@[simp] theorem Work.updRun_queues (n : Nat) (f : Run → Run) : (w.updRun n f).queues = w.queues := rfl
@[simp] theorem Work.updRun_admin (n : Nat) (f : Run → Run) : (w.updRun n f).admin = w.admin := rfl
@[simp] theorem Work.updRun_sync (n : Nat) (f : Run → Run) : (w.updRun n f).sync = w.sync := rfl
@[simp] theorem Work.updRun_cmds (n : Nat) (f : Run → Run) : (w.updRun n f).cmds = w.cmds := rfl
@[simp] theorem Work.updRun_nextId (n : Nat) (f : Run → Run) : (w.updRun n f).nextId = w.nextId := rfl
@[simp] theorem Work.updRun_objs (n : Nat) (f : Run → Run) : (w.updRun n f).objs = w.objs := rfl
@[simp] theorem Work.updRun_streamFree (n : Nat) (f : Run → Run) : (w.updRun n f).streamFree = w.streamFree := rfl
@[simp] theorem Work.updRun_tableUp (n : Nat) (f : Run → Run) : (w.updRun n f).tableUp = w.tableUp := rfl
@[simp] theorem Work.updRun_tableBase (n : Nat) (f : Run → Run) : (w.updRun n f).tableBase = w.tableBase := rfl
@[simp] theorem Work.updRun_tableEntries (n : Nat) (f : Run → Run) : (w.updRun n f).tableEntries = w.tableEntries := rfl
@[simp] theorem Work.updRun_objHits (n : Nat) (f : Run → Run) : (w.updRun n f).objHits = w.objHits := rfl
@[simp] theorem Work.updRun_objMisses (n : Nat) (f : Run → Run) : (w.updRun n f).objMisses = w.objMisses := rfl
@[simp] theorem Work.updRun_slots (n : Nat) (f : Run → Run) : (w.updRun n f).slots = w.slots := rfl
@[simp] theorem Work.updRun_lends (n : Nat) (f : Run → Run) : (w.updRun n f).lends = w.lends := rfl
@[simp] theorem Work.updRun_rr (n : Nat) (f : Run → Run) : (w.updRun n f).rr = w.rr := rfl
@[simp] theorem Work.updRun_tiles (n : Nat) (f : Run → Run) : (w.updRun n f).tiles = w.tiles := rfl
@[simp] theorem Work.updRun_nextOrder (n : Nat) (f : Run → Run) : (w.updRun n f).nextOrder = w.nextOrder := rfl
@[simp] theorem Work.updRun_ports (n : Nat) (f : Run → Run) : (w.updRun n f).ports = w.ports := rfl
@[simp] theorem Work.updRun_pln (n : Nat) (f : Run → Run) : (w.updRun n f).pln = w.pln := rfl
@[simp] theorem Work.updRun_jnr (n : Nat) (f : Run → Run) : (w.updRun n f).jnr = w.jnr := rfl
@[simp] theorem Work.updRun_cap (n : Nat) (f : Run → Run) : (w.updRun n f).cap = w.cap := rfl
@[simp] theorem Work.updRun_msgs (n : Nat) (f : Run → Run) : (w.updRun n f).msgs = w.msgs := rfl
@[simp] theorem Work.updRun_fenced (n : Nat) (f : Run → Run) : (w.updRun n f).fenced = w.fenced := rfl
@[simp] theorem Work.updRun_barEnds (n : Nat) (f : Run → Run) : (w.updRun n f).barEnds = w.barEnds := rfl
@[simp] theorem Work.updRun_fresh (n : Nat) (f : Run → Run) : (w.updRun n f).fresh = w.fresh := rfl
@[simp] theorem Work.updRun_streamUp (n : Nat) (f : Run → Run) : (w.updRun n f).streamUp = w.streamUp := rfl
@[simp] theorem Work.updRun_streamCached (n : Nat) (f : Run → Run) : (w.updRun n f).streamCached = w.streamCached := rfl
@[simp] theorem Work.updRun_fillLeft (n : Nat) (f : Run → Run) : (w.updRun n f).fillLeft = w.fillLeft := rfl
@[simp] theorem Work.updRun_copyLast (n : Nat) (f : Run → Run) : (w.updRun n f).copyLast = w.copyLast := rfl
@[simp] theorem Work.updRun_sw (n : Nat) (f : Run → Run) : (w.updRun n f).sw = w.sw := rfl
@[simp] theorem Work.updRun_setNow (n : Nat) (f : Run → Run) : (w.updRun n f).setNow = w.setNow := rfl
@[simp] theorem Work.updRun_late (n : Nat) (f : Run → Run) : (w.updRun n f).late = w.late := rfl

@[simp] theorem Work.updSem_fab (s i : Nat) (f : Sem → Sem) : (w.updSem s i f).fab = w.fab := rfl
@[simp] theorem Work.updSem_queues (s i : Nat) (f : Sem → Sem) : (w.updSem s i f).queues = w.queues := rfl
@[simp] theorem Work.updSem_admin (s i : Nat) (f : Sem → Sem) : (w.updSem s i f).admin = w.admin := rfl
@[simp] theorem Work.updSem_sync (s i : Nat) (f : Sem → Sem) : (w.updSem s i f).sync = w.sync := rfl
@[simp] theorem Work.updSem_cmds (s i : Nat) (f : Sem → Sem) : (w.updSem s i f).cmds = w.cmds := rfl
@[simp] theorem Work.updSem_nextId (s i : Nat) (f : Sem → Sem) : (w.updSem s i f).nextId = w.nextId := rfl
@[simp] theorem Work.updSem_runs (s i : Nat) (f : Sem → Sem) : (w.updSem s i f).runs = w.runs := rfl
@[simp] theorem Work.updSem_objs (s i : Nat) (f : Sem → Sem) : (w.updSem s i f).objs = w.objs := rfl
@[simp] theorem Work.updSem_streamFree (s i : Nat) (f : Sem → Sem) : (w.updSem s i f).streamFree = w.streamFree := rfl
@[simp] theorem Work.updSem_tableUp (s i : Nat) (f : Sem → Sem) : (w.updSem s i f).tableUp = w.tableUp := rfl
@[simp] theorem Work.updSem_tableBase (s i : Nat) (f : Sem → Sem) : (w.updSem s i f).tableBase = w.tableBase := rfl
@[simp] theorem Work.updSem_tableEntries (s i : Nat) (f : Sem → Sem) : (w.updSem s i f).tableEntries = w.tableEntries := rfl
@[simp] theorem Work.updSem_objHits (s i : Nat) (f : Sem → Sem) : (w.updSem s i f).objHits = w.objHits := rfl
@[simp] theorem Work.updSem_objMisses (s i : Nat) (f : Sem → Sem) : (w.updSem s i f).objMisses = w.objMisses := rfl
@[simp] theorem Work.updSem_slots (s i : Nat) (f : Sem → Sem) : (w.updSem s i f).slots = w.slots := rfl
@[simp] theorem Work.updSem_lends (s i : Nat) (f : Sem → Sem) : (w.updSem s i f).lends = w.lends := rfl
@[simp] theorem Work.updSem_rr (s i : Nat) (f : Sem → Sem) : (w.updSem s i f).rr = w.rr := rfl
@[simp] theorem Work.updSem_tiles (s i : Nat) (f : Sem → Sem) : (w.updSem s i f).tiles = w.tiles := rfl
@[simp] theorem Work.updSem_nextOrder (s i : Nat) (f : Sem → Sem) : (w.updSem s i f).nextOrder = w.nextOrder := rfl
@[simp] theorem Work.updSem_ports (s i : Nat) (f : Sem → Sem) : (w.updSem s i f).ports = w.ports := rfl
@[simp] theorem Work.updSem_pln (s i : Nat) (f : Sem → Sem) : (w.updSem s i f).pln = w.pln := rfl
@[simp] theorem Work.updSem_jnr (s i : Nat) (f : Sem → Sem) : (w.updSem s i f).jnr = w.jnr := rfl
@[simp] theorem Work.updSem_cap (s i : Nat) (f : Sem → Sem) : (w.updSem s i f).cap = w.cap := rfl
@[simp] theorem Work.updSem_msgs (s i : Nat) (f : Sem → Sem) : (w.updSem s i f).msgs = w.msgs := rfl
@[simp] theorem Work.updSem_fenced (s i : Nat) (f : Sem → Sem) : (w.updSem s i f).fenced = w.fenced := rfl
@[simp] theorem Work.updSem_barEnds (s i : Nat) (f : Sem → Sem) : (w.updSem s i f).barEnds = w.barEnds := rfl
@[simp] theorem Work.updSem_fresh (s i : Nat) (f : Sem → Sem) : (w.updSem s i f).fresh = w.fresh := rfl
@[simp] theorem Work.updSem_streamUp (s i : Nat) (f : Sem → Sem) : (w.updSem s i f).streamUp = w.streamUp := rfl
@[simp] theorem Work.updSem_streamCached (s i : Nat) (f : Sem → Sem) : (w.updSem s i f).streamCached = w.streamCached := rfl
@[simp] theorem Work.updSem_fillLeft (s i : Nat) (f : Sem → Sem) : (w.updSem s i f).fillLeft = w.fillLeft := rfl
@[simp] theorem Work.updSem_copyLast (s i : Nat) (f : Sem → Sem) : (w.updSem s i f).copyLast = w.copyLast := rfl
@[simp] theorem Work.updSem_sw (s i : Nat) (f : Sem → Sem) : (w.updSem s i f).sw = w.sw := rfl
@[simp] theorem Work.updSem_setNow (s i : Nat) (f : Sem → Sem) : (w.updSem s i f).setNow = w.setNow := rfl
@[simp] theorem Work.updSem_late (s i : Nat) (f : Sem → Sem) : (w.updSem s i f).late = w.late := rfl

@[simp] theorem Work.mapTiles_fab (f : Tile → Tile) : (w.mapTiles f).fab = w.fab := rfl
@[simp] theorem Work.mapTiles_slices (f : Tile → Tile) : (w.mapTiles f).slices = w.slices := rfl
@[simp] theorem Work.mapTiles_queues (f : Tile → Tile) : (w.mapTiles f).queues = w.queues := rfl
@[simp] theorem Work.mapTiles_admin (f : Tile → Tile) : (w.mapTiles f).admin = w.admin := rfl
@[simp] theorem Work.mapTiles_sync (f : Tile → Tile) : (w.mapTiles f).sync = w.sync := rfl
@[simp] theorem Work.mapTiles_cmds (f : Tile → Tile) : (w.mapTiles f).cmds = w.cmds := rfl
@[simp] theorem Work.mapTiles_nextId (f : Tile → Tile) : (w.mapTiles f).nextId = w.nextId := rfl
@[simp] theorem Work.mapTiles_runs (f : Tile → Tile) : (w.mapTiles f).runs = w.runs := rfl
@[simp] theorem Work.mapTiles_objs (f : Tile → Tile) : (w.mapTiles f).objs = w.objs := rfl
@[simp] theorem Work.mapTiles_streamFree (f : Tile → Tile) : (w.mapTiles f).streamFree = w.streamFree := rfl
@[simp] theorem Work.mapTiles_tableUp (f : Tile → Tile) : (w.mapTiles f).tableUp = w.tableUp := rfl
@[simp] theorem Work.mapTiles_tableBase (f : Tile → Tile) : (w.mapTiles f).tableBase = w.tableBase := rfl
@[simp] theorem Work.mapTiles_tableEntries (f : Tile → Tile) : (w.mapTiles f).tableEntries = w.tableEntries := rfl
@[simp] theorem Work.mapTiles_objHits (f : Tile → Tile) : (w.mapTiles f).objHits = w.objHits := rfl
@[simp] theorem Work.mapTiles_objMisses (f : Tile → Tile) : (w.mapTiles f).objMisses = w.objMisses := rfl
@[simp] theorem Work.mapTiles_slots (f : Tile → Tile) : (w.mapTiles f).slots = w.slots := rfl
@[simp] theorem Work.mapTiles_lends (f : Tile → Tile) : (w.mapTiles f).lends = w.lends := rfl
@[simp] theorem Work.mapTiles_rr (f : Tile → Tile) : (w.mapTiles f).rr = w.rr := rfl
@[simp] theorem Work.mapTiles_nextOrder (f : Tile → Tile) : (w.mapTiles f).nextOrder = w.nextOrder := rfl
@[simp] theorem Work.mapTiles_ports (f : Tile → Tile) : (w.mapTiles f).ports = w.ports := rfl
@[simp] theorem Work.mapTiles_pln (f : Tile → Tile) : (w.mapTiles f).pln = w.pln := rfl
@[simp] theorem Work.mapTiles_jnr (f : Tile → Tile) : (w.mapTiles f).jnr = w.jnr := rfl
@[simp] theorem Work.mapTiles_cap (f : Tile → Tile) : (w.mapTiles f).cap = w.cap := rfl
@[simp] theorem Work.mapTiles_msgs (f : Tile → Tile) : (w.mapTiles f).msgs = w.msgs := rfl
@[simp] theorem Work.mapTiles_fenced (f : Tile → Tile) : (w.mapTiles f).fenced = w.fenced := rfl
@[simp] theorem Work.mapTiles_barEnds (f : Tile → Tile) : (w.mapTiles f).barEnds = w.barEnds := rfl
@[simp] theorem Work.mapTiles_fresh (f : Tile → Tile) : (w.mapTiles f).fresh = w.fresh := rfl
@[simp] theorem Work.mapTiles_streamUp (f : Tile → Tile) : (w.mapTiles f).streamUp = w.streamUp := rfl
@[simp] theorem Work.mapTiles_streamCached (f : Tile → Tile) : (w.mapTiles f).streamCached = w.streamCached := rfl
@[simp] theorem Work.mapTiles_fillLeft (f : Tile → Tile) : (w.mapTiles f).fillLeft = w.fillLeft := rfl
@[simp] theorem Work.mapTiles_copyLast (f : Tile → Tile) : (w.mapTiles f).copyLast = w.copyLast := rfl
@[simp] theorem Work.mapTiles_sw (f : Tile → Tile) : (w.mapTiles f).sw = w.sw := rfl
@[simp] theorem Work.mapTiles_setNow (f : Tile → Tile) : (w.mapTiles f).setNow = w.setNow := rfl
@[simp] theorem Work.mapTiles_late (f : Tile → Tile) : (w.mapTiles f).late = w.late := rfl

@[simp] theorem Work.updSlice_fab (s : Nat) (f : Slice → Slice) : (w.updSlice s f).fab = w.fab := rfl
@[simp] theorem Work.updSlice_queues (s : Nat) (f : Slice → Slice) : (w.updSlice s f).queues = w.queues := rfl
@[simp] theorem Work.updSlice_admin (s : Nat) (f : Slice → Slice) : (w.updSlice s f).admin = w.admin := rfl
@[simp] theorem Work.updSlice_sync (s : Nat) (f : Slice → Slice) : (w.updSlice s f).sync = w.sync := rfl
@[simp] theorem Work.updSlice_cmds (s : Nat) (f : Slice → Slice) : (w.updSlice s f).cmds = w.cmds := rfl
@[simp] theorem Work.updSlice_nextId (s : Nat) (f : Slice → Slice) : (w.updSlice s f).nextId = w.nextId := rfl
@[simp] theorem Work.updSlice_runs (s : Nat) (f : Slice → Slice) : (w.updSlice s f).runs = w.runs := rfl
@[simp] theorem Work.updSlice_objs (s : Nat) (f : Slice → Slice) : (w.updSlice s f).objs = w.objs := rfl
@[simp] theorem Work.updSlice_streamFree (s : Nat) (f : Slice → Slice) : (w.updSlice s f).streamFree = w.streamFree := rfl
@[simp] theorem Work.updSlice_tableUp (s : Nat) (f : Slice → Slice) : (w.updSlice s f).tableUp = w.tableUp := rfl
@[simp] theorem Work.updSlice_tableBase (s : Nat) (f : Slice → Slice) : (w.updSlice s f).tableBase = w.tableBase := rfl
@[simp] theorem Work.updSlice_tableEntries (s : Nat) (f : Slice → Slice) : (w.updSlice s f).tableEntries = w.tableEntries := rfl
@[simp] theorem Work.updSlice_objHits (s : Nat) (f : Slice → Slice) : (w.updSlice s f).objHits = w.objHits := rfl
@[simp] theorem Work.updSlice_objMisses (s : Nat) (f : Slice → Slice) : (w.updSlice s f).objMisses = w.objMisses := rfl
@[simp] theorem Work.updSlice_slots (s : Nat) (f : Slice → Slice) : (w.updSlice s f).slots = w.slots := rfl
@[simp] theorem Work.updSlice_lends (s : Nat) (f : Slice → Slice) : (w.updSlice s f).lends = w.lends := rfl
@[simp] theorem Work.updSlice_rr (s : Nat) (f : Slice → Slice) : (w.updSlice s f).rr = w.rr := rfl
@[simp] theorem Work.updSlice_tiles (s : Nat) (f : Slice → Slice) : (w.updSlice s f).tiles = w.tiles := rfl
@[simp] theorem Work.updSlice_nextOrder (s : Nat) (f : Slice → Slice) : (w.updSlice s f).nextOrder = w.nextOrder := rfl
@[simp] theorem Work.updSlice_ports (s : Nat) (f : Slice → Slice) : (w.updSlice s f).ports = w.ports := rfl
@[simp] theorem Work.updSlice_pln (s : Nat) (f : Slice → Slice) : (w.updSlice s f).pln = w.pln := rfl
@[simp] theorem Work.updSlice_jnr (s : Nat) (f : Slice → Slice) : (w.updSlice s f).jnr = w.jnr := rfl
@[simp] theorem Work.updSlice_cap (s : Nat) (f : Slice → Slice) : (w.updSlice s f).cap = w.cap := rfl
@[simp] theorem Work.updSlice_msgs (s : Nat) (f : Slice → Slice) : (w.updSlice s f).msgs = w.msgs := rfl
@[simp] theorem Work.updSlice_fenced (s : Nat) (f : Slice → Slice) : (w.updSlice s f).fenced = w.fenced := rfl
@[simp] theorem Work.updSlice_barEnds (s : Nat) (f : Slice → Slice) : (w.updSlice s f).barEnds = w.barEnds := rfl
@[simp] theorem Work.updSlice_fresh (s : Nat) (f : Slice → Slice) : (w.updSlice s f).fresh = w.fresh := rfl
@[simp] theorem Work.updSlice_streamUp (s : Nat) (f : Slice → Slice) : (w.updSlice s f).streamUp = w.streamUp := rfl
@[simp] theorem Work.updSlice_streamCached (s : Nat) (f : Slice → Slice) : (w.updSlice s f).streamCached = w.streamCached := rfl
@[simp] theorem Work.updSlice_fillLeft (s : Nat) (f : Slice → Slice) : (w.updSlice s f).fillLeft = w.fillLeft := rfl
@[simp] theorem Work.updSlice_copyLast (s : Nat) (f : Slice → Slice) : (w.updSlice s f).copyLast = w.copyLast := rfl
@[simp] theorem Work.updSlice_sw (s : Nat) (f : Slice → Slice) : (w.updSlice s f).sw = w.sw := rfl
@[simp] theorem Work.updSlice_setNow (s : Nat) (f : Slice → Slice) : (w.updSlice s f).setNow = w.setNow := rfl
@[simp] theorem Work.updSlice_late (s : Nat) (f : Slice → Slice) : (w.updSlice s f).late = w.late := rfl

@[simp] theorem Work.updQueue_fab (k : Nat) (f : Queue → Queue) : (w.updQueue k f).fab = w.fab := rfl
@[simp] theorem Work.updQueue_slices (k : Nat) (f : Queue → Queue) : (w.updQueue k f).slices = w.slices := rfl
@[simp] theorem Work.updQueue_admin (k : Nat) (f : Queue → Queue) : (w.updQueue k f).admin = w.admin := rfl
@[simp] theorem Work.updQueue_sync (k : Nat) (f : Queue → Queue) : (w.updQueue k f).sync = w.sync := rfl
@[simp] theorem Work.updQueue_cmds (k : Nat) (f : Queue → Queue) : (w.updQueue k f).cmds = w.cmds := rfl
@[simp] theorem Work.updQueue_nextId (k : Nat) (f : Queue → Queue) : (w.updQueue k f).nextId = w.nextId := rfl
@[simp] theorem Work.updQueue_runs (k : Nat) (f : Queue → Queue) : (w.updQueue k f).runs = w.runs := rfl
@[simp] theorem Work.updQueue_objs (k : Nat) (f : Queue → Queue) : (w.updQueue k f).objs = w.objs := rfl
@[simp] theorem Work.updQueue_streamFree (k : Nat) (f : Queue → Queue) : (w.updQueue k f).streamFree = w.streamFree := rfl
@[simp] theorem Work.updQueue_tableUp (k : Nat) (f : Queue → Queue) : (w.updQueue k f).tableUp = w.tableUp := rfl
@[simp] theorem Work.updQueue_tableBase (k : Nat) (f : Queue → Queue) : (w.updQueue k f).tableBase = w.tableBase := rfl
@[simp] theorem Work.updQueue_tableEntries (k : Nat) (f : Queue → Queue) : (w.updQueue k f).tableEntries = w.tableEntries := rfl
@[simp] theorem Work.updQueue_objHits (k : Nat) (f : Queue → Queue) : (w.updQueue k f).objHits = w.objHits := rfl
@[simp] theorem Work.updQueue_objMisses (k : Nat) (f : Queue → Queue) : (w.updQueue k f).objMisses = w.objMisses := rfl
@[simp] theorem Work.updQueue_slots (k : Nat) (f : Queue → Queue) : (w.updQueue k f).slots = w.slots := rfl
@[simp] theorem Work.updQueue_lends (k : Nat) (f : Queue → Queue) : (w.updQueue k f).lends = w.lends := rfl
@[simp] theorem Work.updQueue_rr (k : Nat) (f : Queue → Queue) : (w.updQueue k f).rr = w.rr := rfl
@[simp] theorem Work.updQueue_tiles (k : Nat) (f : Queue → Queue) : (w.updQueue k f).tiles = w.tiles := rfl
@[simp] theorem Work.updQueue_nextOrder (k : Nat) (f : Queue → Queue) : (w.updQueue k f).nextOrder = w.nextOrder := rfl
@[simp] theorem Work.updQueue_ports (k : Nat) (f : Queue → Queue) : (w.updQueue k f).ports = w.ports := rfl
@[simp] theorem Work.updQueue_pln (k : Nat) (f : Queue → Queue) : (w.updQueue k f).pln = w.pln := rfl
@[simp] theorem Work.updQueue_jnr (k : Nat) (f : Queue → Queue) : (w.updQueue k f).jnr = w.jnr := rfl
@[simp] theorem Work.updQueue_cap (k : Nat) (f : Queue → Queue) : (w.updQueue k f).cap = w.cap := rfl
@[simp] theorem Work.updQueue_msgs (k : Nat) (f : Queue → Queue) : (w.updQueue k f).msgs = w.msgs := rfl
@[simp] theorem Work.updQueue_fenced (k : Nat) (f : Queue → Queue) : (w.updQueue k f).fenced = w.fenced := rfl
@[simp] theorem Work.updQueue_barEnds (k : Nat) (f : Queue → Queue) : (w.updQueue k f).barEnds = w.barEnds := rfl
@[simp] theorem Work.updQueue_fresh (k : Nat) (f : Queue → Queue) : (w.updQueue k f).fresh = w.fresh := rfl
@[simp] theorem Work.updQueue_streamUp (k : Nat) (f : Queue → Queue) : (w.updQueue k f).streamUp = w.streamUp := rfl
@[simp] theorem Work.updQueue_streamCached (k : Nat) (f : Queue → Queue) : (w.updQueue k f).streamCached = w.streamCached := rfl
@[simp] theorem Work.updQueue_fillLeft (k : Nat) (f : Queue → Queue) : (w.updQueue k f).fillLeft = w.fillLeft := rfl
@[simp] theorem Work.updQueue_copyLast (k : Nat) (f : Queue → Queue) : (w.updQueue k f).copyLast = w.copyLast := rfl
@[simp] theorem Work.updQueue_sw (k : Nat) (f : Queue → Queue) : (w.updQueue k f).sw = w.sw := rfl
@[simp] theorem Work.updQueue_setNow (k : Nat) (f : Queue → Queue) : (w.updQueue k f).setNow = w.setNow := rfl
@[simp] theorem Work.updQueue_late (k : Nat) (f : Queue → Queue) : (w.updQueue k f).late = w.late := rfl

@[simp] theorem Work.updPort_fab (p : Nat) (f : Port → Port) : (w.updPort p f).fab = w.fab := rfl
@[simp] theorem Work.updPort_slices (p : Nat) (f : Port → Port) : (w.updPort p f).slices = w.slices := rfl
@[simp] theorem Work.updPort_queues (p : Nat) (f : Port → Port) : (w.updPort p f).queues = w.queues := rfl
@[simp] theorem Work.updPort_admin (p : Nat) (f : Port → Port) : (w.updPort p f).admin = w.admin := rfl
@[simp] theorem Work.updPort_sync (p : Nat) (f : Port → Port) : (w.updPort p f).sync = w.sync := rfl
@[simp] theorem Work.updPort_cmds (p : Nat) (f : Port → Port) : (w.updPort p f).cmds = w.cmds := rfl
@[simp] theorem Work.updPort_nextId (p : Nat) (f : Port → Port) : (w.updPort p f).nextId = w.nextId := rfl
@[simp] theorem Work.updPort_runs (p : Nat) (f : Port → Port) : (w.updPort p f).runs = w.runs := rfl
@[simp] theorem Work.updPort_objs (p : Nat) (f : Port → Port) : (w.updPort p f).objs = w.objs := rfl
@[simp] theorem Work.updPort_streamFree (p : Nat) (f : Port → Port) : (w.updPort p f).streamFree = w.streamFree := rfl
@[simp] theorem Work.updPort_tableUp (p : Nat) (f : Port → Port) : (w.updPort p f).tableUp = w.tableUp := rfl
@[simp] theorem Work.updPort_tableBase (p : Nat) (f : Port → Port) : (w.updPort p f).tableBase = w.tableBase := rfl
@[simp] theorem Work.updPort_tableEntries (p : Nat) (f : Port → Port) : (w.updPort p f).tableEntries = w.tableEntries := rfl
@[simp] theorem Work.updPort_objHits (p : Nat) (f : Port → Port) : (w.updPort p f).objHits = w.objHits := rfl
@[simp] theorem Work.updPort_objMisses (p : Nat) (f : Port → Port) : (w.updPort p f).objMisses = w.objMisses := rfl
@[simp] theorem Work.updPort_slots (p : Nat) (f : Port → Port) : (w.updPort p f).slots = w.slots := rfl
@[simp] theorem Work.updPort_lends (p : Nat) (f : Port → Port) : (w.updPort p f).lends = w.lends := rfl
@[simp] theorem Work.updPort_rr (p : Nat) (f : Port → Port) : (w.updPort p f).rr = w.rr := rfl
@[simp] theorem Work.updPort_tiles (p : Nat) (f : Port → Port) : (w.updPort p f).tiles = w.tiles := rfl
@[simp] theorem Work.updPort_nextOrder (p : Nat) (f : Port → Port) : (w.updPort p f).nextOrder = w.nextOrder := rfl
@[simp] theorem Work.updPort_pln (p : Nat) (f : Port → Port) : (w.updPort p f).pln = w.pln := rfl
@[simp] theorem Work.updPort_jnr (p : Nat) (f : Port → Port) : (w.updPort p f).jnr = w.jnr := rfl
@[simp] theorem Work.updPort_cap (p : Nat) (f : Port → Port) : (w.updPort p f).cap = w.cap := rfl
@[simp] theorem Work.updPort_msgs (p : Nat) (f : Port → Port) : (w.updPort p f).msgs = w.msgs := rfl
@[simp] theorem Work.updPort_fenced (p : Nat) (f : Port → Port) : (w.updPort p f).fenced = w.fenced := rfl
@[simp] theorem Work.updPort_barEnds (p : Nat) (f : Port → Port) : (w.updPort p f).barEnds = w.barEnds := rfl
@[simp] theorem Work.updPort_fresh (p : Nat) (f : Port → Port) : (w.updPort p f).fresh = w.fresh := rfl
@[simp] theorem Work.updPort_streamUp (p : Nat) (f : Port → Port) : (w.updPort p f).streamUp = w.streamUp := rfl
@[simp] theorem Work.updPort_streamCached (p : Nat) (f : Port → Port) : (w.updPort p f).streamCached = w.streamCached := rfl
@[simp] theorem Work.updPort_fillLeft (p : Nat) (f : Port → Port) : (w.updPort p f).fillLeft = w.fillLeft := rfl
@[simp] theorem Work.updPort_copyLast (p : Nat) (f : Port → Port) : (w.updPort p f).copyLast = w.copyLast := rfl
@[simp] theorem Work.updPort_sw (p : Nat) (f : Port → Port) : (w.updPort p f).sw = w.sw := rfl
@[simp] theorem Work.updPort_setNow (p : Nat) (f : Port → Port) : (w.updPort p f).setNow = w.setNow := rfl
@[simp] theorem Work.updPort_late (p : Nat) (f : Port → Port) : (w.updPort p f).late = w.late := rfl

@[simp] theorem Work.updFab_slices (f : Fabric → Fabric) : (w.updFab f).slices = w.slices := rfl
@[simp] theorem Work.updFab_queues (f : Fabric → Fabric) : (w.updFab f).queues = w.queues := rfl
@[simp] theorem Work.updFab_admin (f : Fabric → Fabric) : (w.updFab f).admin = w.admin := rfl
@[simp] theorem Work.updFab_sync (f : Fabric → Fabric) : (w.updFab f).sync = w.sync := rfl
@[simp] theorem Work.updFab_cmds (f : Fabric → Fabric) : (w.updFab f).cmds = w.cmds := rfl
@[simp] theorem Work.updFab_nextId (f : Fabric → Fabric) : (w.updFab f).nextId = w.nextId := rfl
@[simp] theorem Work.updFab_runs (f : Fabric → Fabric) : (w.updFab f).runs = w.runs := rfl
@[simp] theorem Work.updFab_objs (f : Fabric → Fabric) : (w.updFab f).objs = w.objs := rfl
@[simp] theorem Work.updFab_streamFree (f : Fabric → Fabric) : (w.updFab f).streamFree = w.streamFree := rfl
@[simp] theorem Work.updFab_tableUp (f : Fabric → Fabric) : (w.updFab f).tableUp = w.tableUp := rfl
@[simp] theorem Work.updFab_tableBase (f : Fabric → Fabric) : (w.updFab f).tableBase = w.tableBase := rfl
@[simp] theorem Work.updFab_tableEntries (f : Fabric → Fabric) : (w.updFab f).tableEntries = w.tableEntries := rfl
@[simp] theorem Work.updFab_objHits (f : Fabric → Fabric) : (w.updFab f).objHits = w.objHits := rfl
@[simp] theorem Work.updFab_objMisses (f : Fabric → Fabric) : (w.updFab f).objMisses = w.objMisses := rfl
@[simp] theorem Work.updFab_slots (f : Fabric → Fabric) : (w.updFab f).slots = w.slots := rfl
@[simp] theorem Work.updFab_lends (f : Fabric → Fabric) : (w.updFab f).lends = w.lends := rfl
@[simp] theorem Work.updFab_rr (f : Fabric → Fabric) : (w.updFab f).rr = w.rr := rfl
@[simp] theorem Work.updFab_tiles (f : Fabric → Fabric) : (w.updFab f).tiles = w.tiles := rfl
@[simp] theorem Work.updFab_nextOrder (f : Fabric → Fabric) : (w.updFab f).nextOrder = w.nextOrder := rfl
@[simp] theorem Work.updFab_ports (f : Fabric → Fabric) : (w.updFab f).ports = w.ports := rfl
@[simp] theorem Work.updFab_pln (f : Fabric → Fabric) : (w.updFab f).pln = w.pln := rfl
@[simp] theorem Work.updFab_jnr (f : Fabric → Fabric) : (w.updFab f).jnr = w.jnr := rfl
@[simp] theorem Work.updFab_cap (f : Fabric → Fabric) : (w.updFab f).cap = w.cap := rfl
@[simp] theorem Work.updFab_msgs (f : Fabric → Fabric) : (w.updFab f).msgs = w.msgs := rfl
@[simp] theorem Work.updFab_fenced (f : Fabric → Fabric) : (w.updFab f).fenced = w.fenced := rfl
@[simp] theorem Work.updFab_barEnds (f : Fabric → Fabric) : (w.updFab f).barEnds = w.barEnds := rfl
@[simp] theorem Work.updFab_fresh (f : Fabric → Fabric) : (w.updFab f).fresh = w.fresh := rfl
@[simp] theorem Work.updFab_streamUp (f : Fabric → Fabric) : (w.updFab f).streamUp = w.streamUp := rfl
@[simp] theorem Work.updFab_streamCached (f : Fabric → Fabric) : (w.updFab f).streamCached = w.streamCached := rfl
@[simp] theorem Work.updFab_fillLeft (f : Fabric → Fabric) : (w.updFab f).fillLeft = w.fillLeft := rfl
@[simp] theorem Work.updFab_copyLast (f : Fabric → Fabric) : (w.updFab f).copyLast = w.copyLast := rfl
@[simp] theorem Work.updFab_sw (f : Fabric → Fabric) : (w.updFab f).sw = w.sw := rfl
@[simp] theorem Work.updFab_setNow (f : Fabric → Fabric) : (w.updFab f).setNow = w.setNow := rfl
@[simp] theorem Work.updFab_late (f : Fabric → Fabric) : (w.updFab f).late = w.late := rfl

@[simp] theorem Work.updCap_fab (f : Capture → Capture) : (w.updCap f).fab = w.fab := rfl
@[simp] theorem Work.updCap_slices (f : Capture → Capture) : (w.updCap f).slices = w.slices := rfl
@[simp] theorem Work.updCap_queues (f : Capture → Capture) : (w.updCap f).queues = w.queues := rfl
@[simp] theorem Work.updCap_admin (f : Capture → Capture) : (w.updCap f).admin = w.admin := rfl
@[simp] theorem Work.updCap_sync (f : Capture → Capture) : (w.updCap f).sync = w.sync := rfl
@[simp] theorem Work.updCap_cmds (f : Capture → Capture) : (w.updCap f).cmds = w.cmds := rfl
@[simp] theorem Work.updCap_nextId (f : Capture → Capture) : (w.updCap f).nextId = w.nextId := rfl
@[simp] theorem Work.updCap_runs (f : Capture → Capture) : (w.updCap f).runs = w.runs := rfl
@[simp] theorem Work.updCap_objs (f : Capture → Capture) : (w.updCap f).objs = w.objs := rfl
@[simp] theorem Work.updCap_streamFree (f : Capture → Capture) : (w.updCap f).streamFree = w.streamFree := rfl
@[simp] theorem Work.updCap_tableUp (f : Capture → Capture) : (w.updCap f).tableUp = w.tableUp := rfl
@[simp] theorem Work.updCap_tableBase (f : Capture → Capture) : (w.updCap f).tableBase = w.tableBase := rfl
@[simp] theorem Work.updCap_tableEntries (f : Capture → Capture) : (w.updCap f).tableEntries = w.tableEntries := rfl
@[simp] theorem Work.updCap_objHits (f : Capture → Capture) : (w.updCap f).objHits = w.objHits := rfl
@[simp] theorem Work.updCap_objMisses (f : Capture → Capture) : (w.updCap f).objMisses = w.objMisses := rfl
@[simp] theorem Work.updCap_slots (f : Capture → Capture) : (w.updCap f).slots = w.slots := rfl
@[simp] theorem Work.updCap_lends (f : Capture → Capture) : (w.updCap f).lends = w.lends := rfl
@[simp] theorem Work.updCap_rr (f : Capture → Capture) : (w.updCap f).rr = w.rr := rfl
@[simp] theorem Work.updCap_tiles (f : Capture → Capture) : (w.updCap f).tiles = w.tiles := rfl
@[simp] theorem Work.updCap_nextOrder (f : Capture → Capture) : (w.updCap f).nextOrder = w.nextOrder := rfl
@[simp] theorem Work.updCap_ports (f : Capture → Capture) : (w.updCap f).ports = w.ports := rfl
@[simp] theorem Work.updCap_pln (f : Capture → Capture) : (w.updCap f).pln = w.pln := rfl
@[simp] theorem Work.updCap_jnr (f : Capture → Capture) : (w.updCap f).jnr = w.jnr := rfl
@[simp] theorem Work.updCap_msgs (f : Capture → Capture) : (w.updCap f).msgs = w.msgs := rfl
@[simp] theorem Work.updCap_fenced (f : Capture → Capture) : (w.updCap f).fenced = w.fenced := rfl
@[simp] theorem Work.updCap_barEnds (f : Capture → Capture) : (w.updCap f).barEnds = w.barEnds := rfl
@[simp] theorem Work.updCap_fresh (f : Capture → Capture) : (w.updCap f).fresh = w.fresh := rfl
@[simp] theorem Work.updCap_streamUp (f : Capture → Capture) : (w.updCap f).streamUp = w.streamUp := rfl
@[simp] theorem Work.updCap_streamCached (f : Capture → Capture) : (w.updCap f).streamCached = w.streamCached := rfl
@[simp] theorem Work.updCap_fillLeft (f : Capture → Capture) : (w.updCap f).fillLeft = w.fillLeft := rfl
@[simp] theorem Work.updCap_copyLast (f : Capture → Capture) : (w.updCap f).copyLast = w.copyLast := rfl
@[simp] theorem Work.updCap_sw (f : Capture → Capture) : (w.updCap f).sw = w.sw := rfl
@[simp] theorem Work.updCap_setNow (f : Capture → Capture) : (w.updCap f).setNow = w.setNow := rfl
@[simp] theorem Work.updCap_late (f : Capture → Capture) : (w.updCap f).late = w.late := rfl

@[simp] theorem Work.emit_slices (o : Output) : (w.emit o).slices = w.slices := rfl
@[simp] theorem Work.emit_queues (o : Output) : (w.emit o).queues = w.queues := rfl
@[simp] theorem Work.emit_admin (o : Output) : (w.emit o).admin = w.admin := rfl
@[simp] theorem Work.emit_sync (o : Output) : (w.emit o).sync = w.sync := rfl
@[simp] theorem Work.emit_cmds (o : Output) : (w.emit o).cmds = w.cmds := rfl
@[simp] theorem Work.emit_nextId (o : Output) : (w.emit o).nextId = w.nextId := rfl
@[simp] theorem Work.emit_runs (o : Output) : (w.emit o).runs = w.runs := rfl
@[simp] theorem Work.emit_objs (o : Output) : (w.emit o).objs = w.objs := rfl
@[simp] theorem Work.emit_streamFree (o : Output) : (w.emit o).streamFree = w.streamFree := rfl
@[simp] theorem Work.emit_tableUp (o : Output) : (w.emit o).tableUp = w.tableUp := rfl
@[simp] theorem Work.emit_tableBase (o : Output) : (w.emit o).tableBase = w.tableBase := rfl
@[simp] theorem Work.emit_tableEntries (o : Output) : (w.emit o).tableEntries = w.tableEntries := rfl
@[simp] theorem Work.emit_objHits (o : Output) : (w.emit o).objHits = w.objHits := rfl
@[simp] theorem Work.emit_objMisses (o : Output) : (w.emit o).objMisses = w.objMisses := rfl
@[simp] theorem Work.emit_slots (o : Output) : (w.emit o).slots = w.slots := rfl
@[simp] theorem Work.emit_lends (o : Output) : (w.emit o).lends = w.lends := rfl
@[simp] theorem Work.emit_rr (o : Output) : (w.emit o).rr = w.rr := rfl
@[simp] theorem Work.emit_tiles (o : Output) : (w.emit o).tiles = w.tiles := rfl
@[simp] theorem Work.emit_nextOrder (o : Output) : (w.emit o).nextOrder = w.nextOrder := rfl
@[simp] theorem Work.emit_ports (o : Output) : (w.emit o).ports = w.ports := rfl
@[simp] theorem Work.emit_pln (o : Output) : (w.emit o).pln = w.pln := rfl
@[simp] theorem Work.emit_jnr (o : Output) : (w.emit o).jnr = w.jnr := rfl
@[simp] theorem Work.emit_cap (o : Output) : (w.emit o).cap = w.cap := rfl
@[simp] theorem Work.emit_msgs (o : Output) : (w.emit o).msgs = w.msgs := rfl
@[simp] theorem Work.emit_fenced (o : Output) : (w.emit o).fenced = w.fenced := rfl
@[simp] theorem Work.emit_barEnds (o : Output) : (w.emit o).barEnds = w.barEnds := rfl
@[simp] theorem Work.emit_fresh (o : Output) : (w.emit o).fresh = w.fresh := rfl
@[simp] theorem Work.emit_streamUp (o : Output) : (w.emit o).streamUp = w.streamUp := rfl
@[simp] theorem Work.emit_streamCached (o : Output) : (w.emit o).streamCached = w.streamCached := rfl
@[simp] theorem Work.emit_fillLeft (o : Output) : (w.emit o).fillLeft = w.fillLeft := rfl
@[simp] theorem Work.emit_copyLast (o : Output) : (w.emit o).copyLast = w.copyLast := rfl
@[simp] theorem Work.emit_sw (o : Output) : (w.emit o).sw = w.sw := rfl
@[simp] theorem Work.emit_setNow (o : Output) : (w.emit o).setNow = w.setNow := rfl
@[simp] theorem Work.emit_late (o : Output) : (w.emit o).late = w.late := rfl

@[simp] theorem Work.raise_slices (v : Nat) : (w.raise v).slices = w.slices := rfl
@[simp] theorem Work.raise_queues (v : Nat) : (w.raise v).queues = w.queues := rfl
@[simp] theorem Work.raise_admin (v : Nat) : (w.raise v).admin = w.admin := rfl
@[simp] theorem Work.raise_sync (v : Nat) : (w.raise v).sync = w.sync := rfl
@[simp] theorem Work.raise_cmds (v : Nat) : (w.raise v).cmds = w.cmds := rfl
@[simp] theorem Work.raise_nextId (v : Nat) : (w.raise v).nextId = w.nextId := rfl
@[simp] theorem Work.raise_runs (v : Nat) : (w.raise v).runs = w.runs := rfl
@[simp] theorem Work.raise_objs (v : Nat) : (w.raise v).objs = w.objs := rfl
@[simp] theorem Work.raise_streamFree (v : Nat) : (w.raise v).streamFree = w.streamFree := rfl
@[simp] theorem Work.raise_tableUp (v : Nat) : (w.raise v).tableUp = w.tableUp := rfl
@[simp] theorem Work.raise_tableBase (v : Nat) : (w.raise v).tableBase = w.tableBase := rfl
@[simp] theorem Work.raise_tableEntries (v : Nat) : (w.raise v).tableEntries = w.tableEntries := rfl
@[simp] theorem Work.raise_objHits (v : Nat) : (w.raise v).objHits = w.objHits := rfl
@[simp] theorem Work.raise_objMisses (v : Nat) : (w.raise v).objMisses = w.objMisses := rfl
@[simp] theorem Work.raise_slots (v : Nat) : (w.raise v).slots = w.slots := rfl
@[simp] theorem Work.raise_lends (v : Nat) : (w.raise v).lends = w.lends := rfl
@[simp] theorem Work.raise_rr (v : Nat) : (w.raise v).rr = w.rr := rfl
@[simp] theorem Work.raise_tiles (v : Nat) : (w.raise v).tiles = w.tiles := rfl
@[simp] theorem Work.raise_nextOrder (v : Nat) : (w.raise v).nextOrder = w.nextOrder := rfl
@[simp] theorem Work.raise_ports (v : Nat) : (w.raise v).ports = w.ports := rfl
@[simp] theorem Work.raise_pln (v : Nat) : (w.raise v).pln = w.pln := rfl
@[simp] theorem Work.raise_jnr (v : Nat) : (w.raise v).jnr = w.jnr := rfl
@[simp] theorem Work.raise_cap (v : Nat) : (w.raise v).cap = w.cap := rfl
@[simp] theorem Work.raise_msgs (v : Nat) : (w.raise v).msgs = w.msgs := rfl
@[simp] theorem Work.raise_fenced (v : Nat) : (w.raise v).fenced = w.fenced := rfl
@[simp] theorem Work.raise_barEnds (v : Nat) : (w.raise v).barEnds = w.barEnds := rfl
@[simp] theorem Work.raise_fresh (v : Nat) : (w.raise v).fresh = w.fresh := rfl
@[simp] theorem Work.raise_streamUp (v : Nat) : (w.raise v).streamUp = w.streamUp := rfl
@[simp] theorem Work.raise_streamCached (v : Nat) : (w.raise v).streamCached = w.streamCached := rfl
@[simp] theorem Work.raise_fillLeft (v : Nat) : (w.raise v).fillLeft = w.fillLeft := rfl
@[simp] theorem Work.raise_copyLast (v : Nat) : (w.raise v).copyLast = w.copyLast := rfl
@[simp] theorem Work.raise_sw (v : Nat) : (w.raise v).sw = w.sw := rfl
@[simp] theorem Work.raise_setNow (v : Nat) : (w.raise v).setNow = w.setNow := rfl
@[simp] theorem Work.raise_late (v : Nat) : (w.raise v).late = w.late := rfl

@[simp] theorem Work.updObj_fab (i : Nat) (f : Obj → Obj) : (w.updObj i f).fab = w.fab := rfl
@[simp] theorem Work.updObj_slices (i : Nat) (f : Obj → Obj) : (w.updObj i f).slices = w.slices := rfl
@[simp] theorem Work.updObj_queues (i : Nat) (f : Obj → Obj) : (w.updObj i f).queues = w.queues := rfl
@[simp] theorem Work.updObj_admin (i : Nat) (f : Obj → Obj) : (w.updObj i f).admin = w.admin := rfl
@[simp] theorem Work.updObj_sync (i : Nat) (f : Obj → Obj) : (w.updObj i f).sync = w.sync := rfl
@[simp] theorem Work.updObj_cmds (i : Nat) (f : Obj → Obj) : (w.updObj i f).cmds = w.cmds := rfl
@[simp] theorem Work.updObj_nextId (i : Nat) (f : Obj → Obj) : (w.updObj i f).nextId = w.nextId := rfl
@[simp] theorem Work.updObj_runs (i : Nat) (f : Obj → Obj) : (w.updObj i f).runs = w.runs := rfl
@[simp] theorem Work.updObj_streamFree (i : Nat) (f : Obj → Obj) : (w.updObj i f).streamFree = w.streamFree := rfl
@[simp] theorem Work.updObj_tableUp (i : Nat) (f : Obj → Obj) : (w.updObj i f).tableUp = w.tableUp := rfl
@[simp] theorem Work.updObj_tableBase (i : Nat) (f : Obj → Obj) : (w.updObj i f).tableBase = w.tableBase := rfl
@[simp] theorem Work.updObj_tableEntries (i : Nat) (f : Obj → Obj) : (w.updObj i f).tableEntries = w.tableEntries := rfl
@[simp] theorem Work.updObj_objHits (i : Nat) (f : Obj → Obj) : (w.updObj i f).objHits = w.objHits := rfl
@[simp] theorem Work.updObj_objMisses (i : Nat) (f : Obj → Obj) : (w.updObj i f).objMisses = w.objMisses := rfl
@[simp] theorem Work.updObj_slots (i : Nat) (f : Obj → Obj) : (w.updObj i f).slots = w.slots := rfl
@[simp] theorem Work.updObj_lends (i : Nat) (f : Obj → Obj) : (w.updObj i f).lends = w.lends := rfl
@[simp] theorem Work.updObj_rr (i : Nat) (f : Obj → Obj) : (w.updObj i f).rr = w.rr := rfl
@[simp] theorem Work.updObj_tiles (i : Nat) (f : Obj → Obj) : (w.updObj i f).tiles = w.tiles := rfl
@[simp] theorem Work.updObj_nextOrder (i : Nat) (f : Obj → Obj) : (w.updObj i f).nextOrder = w.nextOrder := rfl
@[simp] theorem Work.updObj_ports (i : Nat) (f : Obj → Obj) : (w.updObj i f).ports = w.ports := rfl
@[simp] theorem Work.updObj_pln (i : Nat) (f : Obj → Obj) : (w.updObj i f).pln = w.pln := rfl
@[simp] theorem Work.updObj_jnr (i : Nat) (f : Obj → Obj) : (w.updObj i f).jnr = w.jnr := rfl
@[simp] theorem Work.updObj_cap (i : Nat) (f : Obj → Obj) : (w.updObj i f).cap = w.cap := rfl
@[simp] theorem Work.updObj_msgs (i : Nat) (f : Obj → Obj) : (w.updObj i f).msgs = w.msgs := rfl
@[simp] theorem Work.updObj_fenced (i : Nat) (f : Obj → Obj) : (w.updObj i f).fenced = w.fenced := rfl
@[simp] theorem Work.updObj_barEnds (i : Nat) (f : Obj → Obj) : (w.updObj i f).barEnds = w.barEnds := rfl
@[simp] theorem Work.updObj_fresh (i : Nat) (f : Obj → Obj) : (w.updObj i f).fresh = w.fresh := rfl
@[simp] theorem Work.updObj_streamUp (i : Nat) (f : Obj → Obj) : (w.updObj i f).streamUp = w.streamUp := rfl
@[simp] theorem Work.updObj_streamCached (i : Nat) (f : Obj → Obj) : (w.updObj i f).streamCached = w.streamCached := rfl
@[simp] theorem Work.updObj_fillLeft (i : Nat) (f : Obj → Obj) : (w.updObj i f).fillLeft = w.fillLeft := rfl
@[simp] theorem Work.updObj_copyLast (i : Nat) (f : Obj → Obj) : (w.updObj i f).copyLast = w.copyLast := rfl
@[simp] theorem Work.updObj_sw (i : Nat) (f : Obj → Obj) : (w.updObj i f).sw = w.sw := rfl
@[simp] theorem Work.updObj_setNow (i : Nat) (f : Obj → Obj) : (w.updObj i f).setNow = w.setNow := rfl
@[simp] theorem Work.updObj_late (i : Nat) (f : Obj → Obj) : (w.updObj i f).late = w.late := rfl

@[simp] theorem Work.dropReq_slices (t : Nat) : (w.dropReq t).slices = w.slices := rfl
@[simp] theorem Work.dropReq_queues (t : Nat) : (w.dropReq t).queues = w.queues := rfl
@[simp] theorem Work.dropReq_admin (t : Nat) : (w.dropReq t).admin = w.admin := rfl
@[simp] theorem Work.dropReq_sync (t : Nat) : (w.dropReq t).sync = w.sync := rfl
@[simp] theorem Work.dropReq_cmds (t : Nat) : (w.dropReq t).cmds = w.cmds := rfl
@[simp] theorem Work.dropReq_nextId (t : Nat) : (w.dropReq t).nextId = w.nextId := rfl
@[simp] theorem Work.dropReq_runs (t : Nat) : (w.dropReq t).runs = w.runs := rfl
@[simp] theorem Work.dropReq_objs (t : Nat) : (w.dropReq t).objs = w.objs := rfl
@[simp] theorem Work.dropReq_streamFree (t : Nat) : (w.dropReq t).streamFree = w.streamFree := rfl
@[simp] theorem Work.dropReq_tableUp (t : Nat) : (w.dropReq t).tableUp = w.tableUp := rfl
@[simp] theorem Work.dropReq_tableBase (t : Nat) : (w.dropReq t).tableBase = w.tableBase := rfl
@[simp] theorem Work.dropReq_tableEntries (t : Nat) : (w.dropReq t).tableEntries = w.tableEntries := rfl
@[simp] theorem Work.dropReq_objHits (t : Nat) : (w.dropReq t).objHits = w.objHits := rfl
@[simp] theorem Work.dropReq_objMisses (t : Nat) : (w.dropReq t).objMisses = w.objMisses := rfl
@[simp] theorem Work.dropReq_slots (t : Nat) : (w.dropReq t).slots = w.slots := rfl
@[simp] theorem Work.dropReq_lends (t : Nat) : (w.dropReq t).lends = w.lends := rfl
@[simp] theorem Work.dropReq_rr (t : Nat) : (w.dropReq t).rr = w.rr := rfl
@[simp] theorem Work.dropReq_tiles (t : Nat) : (w.dropReq t).tiles = w.tiles := rfl
@[simp] theorem Work.dropReq_nextOrder (t : Nat) : (w.dropReq t).nextOrder = w.nextOrder := rfl
@[simp] theorem Work.dropReq_ports (t : Nat) : (w.dropReq t).ports = w.ports := rfl
@[simp] theorem Work.dropReq_pln (t : Nat) : (w.dropReq t).pln = w.pln := rfl
@[simp] theorem Work.dropReq_jnr (t : Nat) : (w.dropReq t).jnr = w.jnr := rfl
@[simp] theorem Work.dropReq_cap (t : Nat) : (w.dropReq t).cap = w.cap := rfl
@[simp] theorem Work.dropReq_msgs (t : Nat) : (w.dropReq t).msgs = w.msgs := rfl
@[simp] theorem Work.dropReq_fenced (t : Nat) : (w.dropReq t).fenced = w.fenced := rfl
@[simp] theorem Work.dropReq_barEnds (t : Nat) : (w.dropReq t).barEnds = w.barEnds := rfl
@[simp] theorem Work.dropReq_fresh (t : Nat) : (w.dropReq t).fresh = w.fresh := rfl
@[simp] theorem Work.dropReq_streamUp (t : Nat) : (w.dropReq t).streamUp = w.streamUp := rfl
@[simp] theorem Work.dropReq_streamCached (t : Nat) : (w.dropReq t).streamCached = w.streamCached := rfl
@[simp] theorem Work.dropReq_fillLeft (t : Nat) : (w.dropReq t).fillLeft = w.fillLeft := rfl
@[simp] theorem Work.dropReq_copyLast (t : Nat) : (w.dropReq t).copyLast = w.copyLast := rfl
@[simp] theorem Work.dropReq_sw (t : Nat) : (w.dropReq t).sw = w.sw := rfl
@[simp] theorem Work.dropReq_setNow (t : Nat) : (w.dropReq t).setNow = w.setNow := rfl
@[simp] theorem Work.dropReq_late (t : Nat) : (w.dropReq t).late = w.late := rfl

@[simp] theorem Work.updReq_slices (t : Nat) (f : Req → Req) : (w.updReq t f).slices = w.slices := rfl
@[simp] theorem Work.updReq_queues (t : Nat) (f : Req → Req) : (w.updReq t f).queues = w.queues := rfl
@[simp] theorem Work.updReq_admin (t : Nat) (f : Req → Req) : (w.updReq t f).admin = w.admin := rfl
@[simp] theorem Work.updReq_sync (t : Nat) (f : Req → Req) : (w.updReq t f).sync = w.sync := rfl
@[simp] theorem Work.updReq_cmds (t : Nat) (f : Req → Req) : (w.updReq t f).cmds = w.cmds := rfl
@[simp] theorem Work.updReq_nextId (t : Nat) (f : Req → Req) : (w.updReq t f).nextId = w.nextId := rfl
@[simp] theorem Work.updReq_runs (t : Nat) (f : Req → Req) : (w.updReq t f).runs = w.runs := rfl
@[simp] theorem Work.updReq_objs (t : Nat) (f : Req → Req) : (w.updReq t f).objs = w.objs := rfl
@[simp] theorem Work.updReq_streamFree (t : Nat) (f : Req → Req) : (w.updReq t f).streamFree = w.streamFree := rfl
@[simp] theorem Work.updReq_tableUp (t : Nat) (f : Req → Req) : (w.updReq t f).tableUp = w.tableUp := rfl
@[simp] theorem Work.updReq_tableBase (t : Nat) (f : Req → Req) : (w.updReq t f).tableBase = w.tableBase := rfl
@[simp] theorem Work.updReq_tableEntries (t : Nat) (f : Req → Req) : (w.updReq t f).tableEntries = w.tableEntries := rfl
@[simp] theorem Work.updReq_objHits (t : Nat) (f : Req → Req) : (w.updReq t f).objHits = w.objHits := rfl
@[simp] theorem Work.updReq_objMisses (t : Nat) (f : Req → Req) : (w.updReq t f).objMisses = w.objMisses := rfl
@[simp] theorem Work.updReq_slots (t : Nat) (f : Req → Req) : (w.updReq t f).slots = w.slots := rfl
@[simp] theorem Work.updReq_lends (t : Nat) (f : Req → Req) : (w.updReq t f).lends = w.lends := rfl
@[simp] theorem Work.updReq_rr (t : Nat) (f : Req → Req) : (w.updReq t f).rr = w.rr := rfl
@[simp] theorem Work.updReq_tiles (t : Nat) (f : Req → Req) : (w.updReq t f).tiles = w.tiles := rfl
@[simp] theorem Work.updReq_nextOrder (t : Nat) (f : Req → Req) : (w.updReq t f).nextOrder = w.nextOrder := rfl
@[simp] theorem Work.updReq_ports (t : Nat) (f : Req → Req) : (w.updReq t f).ports = w.ports := rfl
@[simp] theorem Work.updReq_pln (t : Nat) (f : Req → Req) : (w.updReq t f).pln = w.pln := rfl
@[simp] theorem Work.updReq_jnr (t : Nat) (f : Req → Req) : (w.updReq t f).jnr = w.jnr := rfl
@[simp] theorem Work.updReq_cap (t : Nat) (f : Req → Req) : (w.updReq t f).cap = w.cap := rfl
@[simp] theorem Work.updReq_msgs (t : Nat) (f : Req → Req) : (w.updReq t f).msgs = w.msgs := rfl
@[simp] theorem Work.updReq_fenced (t : Nat) (f : Req → Req) : (w.updReq t f).fenced = w.fenced := rfl
@[simp] theorem Work.updReq_barEnds (t : Nat) (f : Req → Req) : (w.updReq t f).barEnds = w.barEnds := rfl
@[simp] theorem Work.updReq_fresh (t : Nat) (f : Req → Req) : (w.updReq t f).fresh = w.fresh := rfl
@[simp] theorem Work.updReq_streamUp (t : Nat) (f : Req → Req) : (w.updReq t f).streamUp = w.streamUp := rfl
@[simp] theorem Work.updReq_streamCached (t : Nat) (f : Req → Req) : (w.updReq t f).streamCached = w.streamCached := rfl
@[simp] theorem Work.updReq_fillLeft (t : Nat) (f : Req → Req) : (w.updReq t f).fillLeft = w.fillLeft := rfl
@[simp] theorem Work.updReq_copyLast (t : Nat) (f : Req → Req) : (w.updReq t f).copyLast = w.copyLast := rfl
@[simp] theorem Work.updReq_sw (t : Nat) (f : Req → Req) : (w.updReq t f).sw = w.sw := rfl
@[simp] theorem Work.updReq_setNow (t : Nat) (f : Req → Req) : (w.updReq t f).setNow = w.setNow := rfl
@[simp] theorem Work.updReq_late (t : Nat) (f : Req → Req) : (w.updReq t f).late = w.late := rfl

@[simp] theorem Work.updCtx_fab (s c : Nat) (f : Ctx → Ctx) : (w.updCtx s c f).fab = w.fab := rfl
@[simp] theorem Work.updCtx_queues (s c : Nat) (f : Ctx → Ctx) : (w.updCtx s c f).queues = w.queues := rfl
@[simp] theorem Work.updCtx_admin (s c : Nat) (f : Ctx → Ctx) : (w.updCtx s c f).admin = w.admin := rfl
@[simp] theorem Work.updCtx_sync (s c : Nat) (f : Ctx → Ctx) : (w.updCtx s c f).sync = w.sync := rfl
@[simp] theorem Work.updCtx_cmds (s c : Nat) (f : Ctx → Ctx) : (w.updCtx s c f).cmds = w.cmds := rfl
@[simp] theorem Work.updCtx_nextId (s c : Nat) (f : Ctx → Ctx) : (w.updCtx s c f).nextId = w.nextId := rfl
@[simp] theorem Work.updCtx_runs (s c : Nat) (f : Ctx → Ctx) : (w.updCtx s c f).runs = w.runs := rfl
@[simp] theorem Work.updCtx_objs (s c : Nat) (f : Ctx → Ctx) : (w.updCtx s c f).objs = w.objs := rfl
@[simp] theorem Work.updCtx_streamFree (s c : Nat) (f : Ctx → Ctx) : (w.updCtx s c f).streamFree = w.streamFree := rfl
@[simp] theorem Work.updCtx_tableUp (s c : Nat) (f : Ctx → Ctx) : (w.updCtx s c f).tableUp = w.tableUp := rfl
@[simp] theorem Work.updCtx_tableBase (s c : Nat) (f : Ctx → Ctx) : (w.updCtx s c f).tableBase = w.tableBase := rfl
@[simp] theorem Work.updCtx_tableEntries (s c : Nat) (f : Ctx → Ctx) : (w.updCtx s c f).tableEntries = w.tableEntries := rfl
@[simp] theorem Work.updCtx_objHits (s c : Nat) (f : Ctx → Ctx) : (w.updCtx s c f).objHits = w.objHits := rfl
@[simp] theorem Work.updCtx_objMisses (s c : Nat) (f : Ctx → Ctx) : (w.updCtx s c f).objMisses = w.objMisses := rfl
@[simp] theorem Work.updCtx_slots (s c : Nat) (f : Ctx → Ctx) : (w.updCtx s c f).slots = w.slots := rfl
@[simp] theorem Work.updCtx_lends (s c : Nat) (f : Ctx → Ctx) : (w.updCtx s c f).lends = w.lends := rfl
@[simp] theorem Work.updCtx_rr (s c : Nat) (f : Ctx → Ctx) : (w.updCtx s c f).rr = w.rr := rfl
@[simp] theorem Work.updCtx_tiles (s c : Nat) (f : Ctx → Ctx) : (w.updCtx s c f).tiles = w.tiles := rfl
@[simp] theorem Work.updCtx_nextOrder (s c : Nat) (f : Ctx → Ctx) : (w.updCtx s c f).nextOrder = w.nextOrder := rfl
@[simp] theorem Work.updCtx_ports (s c : Nat) (f : Ctx → Ctx) : (w.updCtx s c f).ports = w.ports := rfl
@[simp] theorem Work.updCtx_pln (s c : Nat) (f : Ctx → Ctx) : (w.updCtx s c f).pln = w.pln := rfl
@[simp] theorem Work.updCtx_jnr (s c : Nat) (f : Ctx → Ctx) : (w.updCtx s c f).jnr = w.jnr := rfl
@[simp] theorem Work.updCtx_cap (s c : Nat) (f : Ctx → Ctx) : (w.updCtx s c f).cap = w.cap := rfl
@[simp] theorem Work.updCtx_msgs (s c : Nat) (f : Ctx → Ctx) : (w.updCtx s c f).msgs = w.msgs := rfl
@[simp] theorem Work.updCtx_fenced (s c : Nat) (f : Ctx → Ctx) : (w.updCtx s c f).fenced = w.fenced := rfl
@[simp] theorem Work.updCtx_barEnds (s c : Nat) (f : Ctx → Ctx) : (w.updCtx s c f).barEnds = w.barEnds := rfl
@[simp] theorem Work.updCtx_fresh (s c : Nat) (f : Ctx → Ctx) : (w.updCtx s c f).fresh = w.fresh := rfl
@[simp] theorem Work.updCtx_streamUp (s c : Nat) (f : Ctx → Ctx) : (w.updCtx s c f).streamUp = w.streamUp := rfl
@[simp] theorem Work.updCtx_streamCached (s c : Nat) (f : Ctx → Ctx) : (w.updCtx s c f).streamCached = w.streamCached := rfl
@[simp] theorem Work.updCtx_fillLeft (s c : Nat) (f : Ctx → Ctx) : (w.updCtx s c f).fillLeft = w.fillLeft := rfl
@[simp] theorem Work.updCtx_copyLast (s c : Nat) (f : Ctx → Ctx) : (w.updCtx s c f).copyLast = w.copyLast := rfl
@[simp] theorem Work.updCtx_sw (s c : Nat) (f : Ctx → Ctx) : (w.updCtx s c f).sw = w.sw := rfl
@[simp] theorem Work.updCtx_setNow (s c : Nat) (f : Ctx → Ctx) : (w.updCtx s c f).setNow = w.setNow := rfl
@[simp] theorem Work.updCtx_late (s c : Nat) (f : Ctx → Ctx) : (w.updCtx s c f).late = w.late := rfl

@[simp] theorem Work.updSlot_fab (k : Nat) (f : Slot → Slot) : (w.updSlot k f).fab = w.fab := rfl
@[simp] theorem Work.updSlot_slices (k : Nat) (f : Slot → Slot) : (w.updSlot k f).slices = w.slices := rfl
@[simp] theorem Work.updSlot_queues (k : Nat) (f : Slot → Slot) : (w.updSlot k f).queues = w.queues := rfl
@[simp] theorem Work.updSlot_admin (k : Nat) (f : Slot → Slot) : (w.updSlot k f).admin = w.admin := rfl
@[simp] theorem Work.updSlot_sync (k : Nat) (f : Slot → Slot) : (w.updSlot k f).sync = w.sync := rfl
@[simp] theorem Work.updSlot_cmds (k : Nat) (f : Slot → Slot) : (w.updSlot k f).cmds = w.cmds := rfl
@[simp] theorem Work.updSlot_nextId (k : Nat) (f : Slot → Slot) : (w.updSlot k f).nextId = w.nextId := rfl
@[simp] theorem Work.updSlot_runs (k : Nat) (f : Slot → Slot) : (w.updSlot k f).runs = w.runs := rfl
@[simp] theorem Work.updSlot_objs (k : Nat) (f : Slot → Slot) : (w.updSlot k f).objs = w.objs := rfl
@[simp] theorem Work.updSlot_streamFree (k : Nat) (f : Slot → Slot) : (w.updSlot k f).streamFree = w.streamFree := rfl
@[simp] theorem Work.updSlot_tableUp (k : Nat) (f : Slot → Slot) : (w.updSlot k f).tableUp = w.tableUp := rfl
@[simp] theorem Work.updSlot_tableBase (k : Nat) (f : Slot → Slot) : (w.updSlot k f).tableBase = w.tableBase := rfl
@[simp] theorem Work.updSlot_tableEntries (k : Nat) (f : Slot → Slot) : (w.updSlot k f).tableEntries = w.tableEntries := rfl
@[simp] theorem Work.updSlot_objHits (k : Nat) (f : Slot → Slot) : (w.updSlot k f).objHits = w.objHits := rfl
@[simp] theorem Work.updSlot_objMisses (k : Nat) (f : Slot → Slot) : (w.updSlot k f).objMisses = w.objMisses := rfl
@[simp] theorem Work.updSlot_lends (k : Nat) (f : Slot → Slot) : (w.updSlot k f).lends = w.lends := rfl
@[simp] theorem Work.updSlot_rr (k : Nat) (f : Slot → Slot) : (w.updSlot k f).rr = w.rr := rfl
@[simp] theorem Work.updSlot_tiles (k : Nat) (f : Slot → Slot) : (w.updSlot k f).tiles = w.tiles := rfl
@[simp] theorem Work.updSlot_nextOrder (k : Nat) (f : Slot → Slot) : (w.updSlot k f).nextOrder = w.nextOrder := rfl
@[simp] theorem Work.updSlot_ports (k : Nat) (f : Slot → Slot) : (w.updSlot k f).ports = w.ports := rfl
@[simp] theorem Work.updSlot_pln (k : Nat) (f : Slot → Slot) : (w.updSlot k f).pln = w.pln := rfl
@[simp] theorem Work.updSlot_jnr (k : Nat) (f : Slot → Slot) : (w.updSlot k f).jnr = w.jnr := rfl
@[simp] theorem Work.updSlot_cap (k : Nat) (f : Slot → Slot) : (w.updSlot k f).cap = w.cap := rfl
@[simp] theorem Work.updSlot_msgs (k : Nat) (f : Slot → Slot) : (w.updSlot k f).msgs = w.msgs := rfl
@[simp] theorem Work.updSlot_fenced (k : Nat) (f : Slot → Slot) : (w.updSlot k f).fenced = w.fenced := rfl
@[simp] theorem Work.updSlot_barEnds (k : Nat) (f : Slot → Slot) : (w.updSlot k f).barEnds = w.barEnds := rfl
@[simp] theorem Work.updSlot_fresh (k : Nat) (f : Slot → Slot) : (w.updSlot k f).fresh = w.fresh := rfl
@[simp] theorem Work.updSlot_streamUp (k : Nat) (f : Slot → Slot) : (w.updSlot k f).streamUp = w.streamUp := rfl
@[simp] theorem Work.updSlot_streamCached (k : Nat) (f : Slot → Slot) : (w.updSlot k f).streamCached = w.streamCached := rfl
@[simp] theorem Work.updSlot_fillLeft (k : Nat) (f : Slot → Slot) : (w.updSlot k f).fillLeft = w.fillLeft := rfl
@[simp] theorem Work.updSlot_copyLast (k : Nat) (f : Slot → Slot) : (w.updSlot k f).copyLast = w.copyLast := rfl
@[simp] theorem Work.updSlot_sw (k : Nat) (f : Slot → Slot) : (w.updSlot k f).sw = w.sw := rfl
@[simp] theorem Work.updSlot_setNow (k : Nat) (f : Slot → Slot) : (w.updSlot k f).setNow = w.setNow := rfl
@[simp] theorem Work.updSlot_late (k : Nat) (f : Slot → Slot) : (w.updSlot k f).late = w.late := rfl

@[simp] theorem Work.updCore_fab (k : Nat) (f : JCore → JCore) : (w.updCore k f).fab = w.fab := rfl
@[simp] theorem Work.updCore_slices (k : Nat) (f : JCore → JCore) : (w.updCore k f).slices = w.slices := rfl
@[simp] theorem Work.updCore_queues (k : Nat) (f : JCore → JCore) : (w.updCore k f).queues = w.queues := rfl
@[simp] theorem Work.updCore_admin (k : Nat) (f : JCore → JCore) : (w.updCore k f).admin = w.admin := rfl
@[simp] theorem Work.updCore_sync (k : Nat) (f : JCore → JCore) : (w.updCore k f).sync = w.sync := rfl
@[simp] theorem Work.updCore_cmds (k : Nat) (f : JCore → JCore) : (w.updCore k f).cmds = w.cmds := rfl
@[simp] theorem Work.updCore_nextId (k : Nat) (f : JCore → JCore) : (w.updCore k f).nextId = w.nextId := rfl
@[simp] theorem Work.updCore_runs (k : Nat) (f : JCore → JCore) : (w.updCore k f).runs = w.runs := rfl
@[simp] theorem Work.updCore_objs (k : Nat) (f : JCore → JCore) : (w.updCore k f).objs = w.objs := rfl
@[simp] theorem Work.updCore_streamFree (k : Nat) (f : JCore → JCore) : (w.updCore k f).streamFree = w.streamFree := rfl
@[simp] theorem Work.updCore_tableUp (k : Nat) (f : JCore → JCore) : (w.updCore k f).tableUp = w.tableUp := rfl
@[simp] theorem Work.updCore_tableBase (k : Nat) (f : JCore → JCore) : (w.updCore k f).tableBase = w.tableBase := rfl
@[simp] theorem Work.updCore_tableEntries (k : Nat) (f : JCore → JCore) : (w.updCore k f).tableEntries = w.tableEntries := rfl
@[simp] theorem Work.updCore_objHits (k : Nat) (f : JCore → JCore) : (w.updCore k f).objHits = w.objHits := rfl
@[simp] theorem Work.updCore_objMisses (k : Nat) (f : JCore → JCore) : (w.updCore k f).objMisses = w.objMisses := rfl
@[simp] theorem Work.updCore_slots (k : Nat) (f : JCore → JCore) : (w.updCore k f).slots = w.slots := rfl
@[simp] theorem Work.updCore_lends (k : Nat) (f : JCore → JCore) : (w.updCore k f).lends = w.lends := rfl
@[simp] theorem Work.updCore_rr (k : Nat) (f : JCore → JCore) : (w.updCore k f).rr = w.rr := rfl
@[simp] theorem Work.updCore_tiles (k : Nat) (f : JCore → JCore) : (w.updCore k f).tiles = w.tiles := rfl
@[simp] theorem Work.updCore_nextOrder (k : Nat) (f : JCore → JCore) : (w.updCore k f).nextOrder = w.nextOrder := rfl
@[simp] theorem Work.updCore_ports (k : Nat) (f : JCore → JCore) : (w.updCore k f).ports = w.ports := rfl
@[simp] theorem Work.updCore_pln (k : Nat) (f : JCore → JCore) : (w.updCore k f).pln = w.pln := rfl
@[simp] theorem Work.updCore_cap (k : Nat) (f : JCore → JCore) : (w.updCore k f).cap = w.cap := rfl
@[simp] theorem Work.updCore_msgs (k : Nat) (f : JCore → JCore) : (w.updCore k f).msgs = w.msgs := rfl
@[simp] theorem Work.updCore_fenced (k : Nat) (f : JCore → JCore) : (w.updCore k f).fenced = w.fenced := rfl
@[simp] theorem Work.updCore_barEnds (k : Nat) (f : JCore → JCore) : (w.updCore k f).barEnds = w.barEnds := rfl
@[simp] theorem Work.updCore_fresh (k : Nat) (f : JCore → JCore) : (w.updCore k f).fresh = w.fresh := rfl
@[simp] theorem Work.updCore_streamUp (k : Nat) (f : JCore → JCore) : (w.updCore k f).streamUp = w.streamUp := rfl
@[simp] theorem Work.updCore_streamCached (k : Nat) (f : JCore → JCore) : (w.updCore k f).streamCached = w.streamCached := rfl
@[simp] theorem Work.updCore_fillLeft (k : Nat) (f : JCore → JCore) : (w.updCore k f).fillLeft = w.fillLeft := rfl
@[simp] theorem Work.updCore_copyLast (k : Nat) (f : JCore → JCore) : (w.updCore k f).copyLast = w.copyLast := rfl
@[simp] theorem Work.updCore_sw (k : Nat) (f : JCore → JCore) : (w.updCore k f).sw = w.sw := rfl
@[simp] theorem Work.updCore_setNow (k : Nat) (f : JCore → JCore) : (w.updCore k f).setNow = w.setNow := rfl
@[simp] theorem Work.updCore_late (k : Nat) (f : JCore → JCore) : (w.updCore k f).late = w.late := rfl

@[simp] theorem Work.updProg_fab (n : Nat) (f : Prog → Prog) : (w.updProg n f).fab = w.fab := rfl
@[simp] theorem Work.updProg_slices (n : Nat) (f : Prog → Prog) : (w.updProg n f).slices = w.slices := rfl
@[simp] theorem Work.updProg_queues (n : Nat) (f : Prog → Prog) : (w.updProg n f).queues = w.queues := rfl
@[simp] theorem Work.updProg_admin (n : Nat) (f : Prog → Prog) : (w.updProg n f).admin = w.admin := rfl
@[simp] theorem Work.updProg_sync (n : Nat) (f : Prog → Prog) : (w.updProg n f).sync = w.sync := rfl
@[simp] theorem Work.updProg_cmds (n : Nat) (f : Prog → Prog) : (w.updProg n f).cmds = w.cmds := rfl
@[simp] theorem Work.updProg_nextId (n : Nat) (f : Prog → Prog) : (w.updProg n f).nextId = w.nextId := rfl
@[simp] theorem Work.updProg_runs (n : Nat) (f : Prog → Prog) : (w.updProg n f).runs = w.runs := rfl
@[simp] theorem Work.updProg_objs (n : Nat) (f : Prog → Prog) : (w.updProg n f).objs = w.objs := rfl
@[simp] theorem Work.updProg_streamFree (n : Nat) (f : Prog → Prog) : (w.updProg n f).streamFree = w.streamFree := rfl
@[simp] theorem Work.updProg_tableUp (n : Nat) (f : Prog → Prog) : (w.updProg n f).tableUp = w.tableUp := rfl
@[simp] theorem Work.updProg_tableBase (n : Nat) (f : Prog → Prog) : (w.updProg n f).tableBase = w.tableBase := rfl
@[simp] theorem Work.updProg_tableEntries (n : Nat) (f : Prog → Prog) : (w.updProg n f).tableEntries = w.tableEntries := rfl
@[simp] theorem Work.updProg_objHits (n : Nat) (f : Prog → Prog) : (w.updProg n f).objHits = w.objHits := rfl
@[simp] theorem Work.updProg_objMisses (n : Nat) (f : Prog → Prog) : (w.updProg n f).objMisses = w.objMisses := rfl
@[simp] theorem Work.updProg_slots (n : Nat) (f : Prog → Prog) : (w.updProg n f).slots = w.slots := rfl
@[simp] theorem Work.updProg_lends (n : Nat) (f : Prog → Prog) : (w.updProg n f).lends = w.lends := rfl
@[simp] theorem Work.updProg_rr (n : Nat) (f : Prog → Prog) : (w.updProg n f).rr = w.rr := rfl
@[simp] theorem Work.updProg_tiles (n : Nat) (f : Prog → Prog) : (w.updProg n f).tiles = w.tiles := rfl
@[simp] theorem Work.updProg_nextOrder (n : Nat) (f : Prog → Prog) : (w.updProg n f).nextOrder = w.nextOrder := rfl
@[simp] theorem Work.updProg_ports (n : Nat) (f : Prog → Prog) : (w.updProg n f).ports = w.ports := rfl
@[simp] theorem Work.updProg_pln (n : Nat) (f : Prog → Prog) : (w.updProg n f).pln = w.pln := rfl
@[simp] theorem Work.updProg_cap (n : Nat) (f : Prog → Prog) : (w.updProg n f).cap = w.cap := rfl
@[simp] theorem Work.updProg_msgs (n : Nat) (f : Prog → Prog) : (w.updProg n f).msgs = w.msgs := rfl
@[simp] theorem Work.updProg_fenced (n : Nat) (f : Prog → Prog) : (w.updProg n f).fenced = w.fenced := rfl
@[simp] theorem Work.updProg_barEnds (n : Nat) (f : Prog → Prog) : (w.updProg n f).barEnds = w.barEnds := rfl
@[simp] theorem Work.updProg_fresh (n : Nat) (f : Prog → Prog) : (w.updProg n f).fresh = w.fresh := rfl
@[simp] theorem Work.updProg_streamUp (n : Nat) (f : Prog → Prog) : (w.updProg n f).streamUp = w.streamUp := rfl
@[simp] theorem Work.updProg_streamCached (n : Nat) (f : Prog → Prog) : (w.updProg n f).streamCached = w.streamCached := rfl
@[simp] theorem Work.updProg_fillLeft (n : Nat) (f : Prog → Prog) : (w.updProg n f).fillLeft = w.fillLeft := rfl
@[simp] theorem Work.updProg_copyLast (n : Nat) (f : Prog → Prog) : (w.updProg n f).copyLast = w.copyLast := rfl
@[simp] theorem Work.updProg_sw (n : Nat) (f : Prog → Prog) : (w.updProg n f).sw = w.sw := rfl
@[simp] theorem Work.updProg_setNow (n : Nat) (f : Prog → Prog) : (w.updProg n f).setNow = w.setNow := rfl
@[simp] theorem Work.updProg_late (n : Nat) (f : Prog → Prog) : (w.updProg n f).late = w.late := rfl

@[simp] theorem Work.updPart_slices (t : Nat) (f : Part → Part) : (w.updPart t f).slices = w.slices := rfl
@[simp] theorem Work.updPart_queues (t : Nat) (f : Part → Part) : (w.updPart t f).queues = w.queues := rfl
@[simp] theorem Work.updPart_admin (t : Nat) (f : Part → Part) : (w.updPart t f).admin = w.admin := rfl
@[simp] theorem Work.updPart_sync (t : Nat) (f : Part → Part) : (w.updPart t f).sync = w.sync := rfl
@[simp] theorem Work.updPart_cmds (t : Nat) (f : Part → Part) : (w.updPart t f).cmds = w.cmds := rfl
@[simp] theorem Work.updPart_nextId (t : Nat) (f : Part → Part) : (w.updPart t f).nextId = w.nextId := rfl
@[simp] theorem Work.updPart_runs (t : Nat) (f : Part → Part) : (w.updPart t f).runs = w.runs := rfl
@[simp] theorem Work.updPart_objs (t : Nat) (f : Part → Part) : (w.updPart t f).objs = w.objs := rfl
@[simp] theorem Work.updPart_streamUp (t : Nat) (f : Part → Part) : (w.updPart t f).streamUp = w.streamUp := rfl
@[simp] theorem Work.updPart_streamFree (t : Nat) (f : Part → Part) : (w.updPart t f).streamFree = w.streamFree := rfl
@[simp] theorem Work.updPart_streamCached (t : Nat) (f : Part → Part) : (w.updPart t f).streamCached = w.streamCached := rfl
@[simp] theorem Work.updPart_tableUp (t : Nat) (f : Part → Part) : (w.updPart t f).tableUp = w.tableUp := rfl
@[simp] theorem Work.updPart_fillLeft (t : Nat) (f : Part → Part) : (w.updPart t f).fillLeft = w.fillLeft := rfl
@[simp] theorem Work.updPart_tableBase (t : Nat) (f : Part → Part) : (w.updPart t f).tableBase = w.tableBase := rfl
@[simp] theorem Work.updPart_tableEntries (t : Nat) (f : Part → Part) : (w.updPart t f).tableEntries = w.tableEntries := rfl
@[simp] theorem Work.updPart_objHits (t : Nat) (f : Part → Part) : (w.updPart t f).objHits = w.objHits := rfl
@[simp] theorem Work.updPart_objMisses (t : Nat) (f : Part → Part) : (w.updPart t f).objMisses = w.objMisses := rfl
@[simp] theorem Work.updPart_slots (t : Nat) (f : Part → Part) : (w.updPart t f).slots = w.slots := rfl
@[simp] theorem Work.updPart_lends (t : Nat) (f : Part → Part) : (w.updPart t f).lends = w.lends := rfl
@[simp] theorem Work.updPart_rr (t : Nat) (f : Part → Part) : (w.updPart t f).rr = w.rr := rfl
@[simp] theorem Work.updPart_tiles (t : Nat) (f : Part → Part) : (w.updPart t f).tiles = w.tiles := rfl
@[simp] theorem Work.updPart_nextOrder (t : Nat) (f : Part → Part) : (w.updPart t f).nextOrder = w.nextOrder := rfl
@[simp] theorem Work.updPart_copyLast (t : Nat) (f : Part → Part) : (w.updPart t f).copyLast = w.copyLast := rfl
@[simp] theorem Work.updPart_ports (t : Nat) (f : Part → Part) : (w.updPart t f).ports = w.ports := rfl
@[simp] theorem Work.updPart_sw (t : Nat) (f : Part → Part) : (w.updPart t f).sw = w.sw := rfl
@[simp] theorem Work.updPart_pln (t : Nat) (f : Part → Part) : (w.updPart t f).pln = w.pln := rfl
@[simp] theorem Work.updPart_jnr (t : Nat) (f : Part → Part) : (w.updPart t f).jnr = w.jnr := rfl
@[simp] theorem Work.updPart_cap (t : Nat) (f : Part → Part) : (w.updPart t f).cap = w.cap := rfl
@[simp] theorem Work.updPart_msgs (t : Nat) (f : Part → Part) : (w.updPart t f).msgs = w.msgs := rfl
@[simp] theorem Work.updPart_fenced (t : Nat) (f : Part → Part) : (w.updPart t f).fenced = w.fenced := rfl
@[simp] theorem Work.updPart_barEnds (t : Nat) (f : Part → Part) : (w.updPart t f).barEnds = w.barEnds := rfl
@[simp] theorem Work.updPart_setNow (t : Nat) (f : Part → Part) : (w.updPart t f).setNow = w.setNow := rfl
@[simp] theorem Work.updPart_late (t : Nat) (f : Part → Part) : (w.updPart t f).late = w.late := rfl
@[simp] theorem Work.updPart_fresh (t : Nat) (f : Part → Part) : (w.updPart t f).fresh = w.fresh := rfl

@[simp] theorem Work.sets_fab (r : W1c) (v : BitVec 64) : (w.sets r v).fab = w.fab := rfl
@[simp] theorem Work.sets_slices (r : W1c) (v : BitVec 64) : (w.sets r v).slices = w.slices := rfl
@[simp] theorem Work.sets_queues (r : W1c) (v : BitVec 64) : (w.sets r v).queues = w.queues := rfl
@[simp] theorem Work.sets_admin (r : W1c) (v : BitVec 64) : (w.sets r v).admin = w.admin := rfl
@[simp] theorem Work.sets_sync (r : W1c) (v : BitVec 64) : (w.sets r v).sync = w.sync := rfl
@[simp] theorem Work.sets_cmds (r : W1c) (v : BitVec 64) : (w.sets r v).cmds = w.cmds := rfl
@[simp] theorem Work.sets_nextId (r : W1c) (v : BitVec 64) : (w.sets r v).nextId = w.nextId := rfl
@[simp] theorem Work.sets_runs (r : W1c) (v : BitVec 64) : (w.sets r v).runs = w.runs := rfl
@[simp] theorem Work.sets_objs (r : W1c) (v : BitVec 64) : (w.sets r v).objs = w.objs := rfl
@[simp] theorem Work.sets_streamUp (r : W1c) (v : BitVec 64) : (w.sets r v).streamUp = w.streamUp := rfl
@[simp] theorem Work.sets_streamFree (r : W1c) (v : BitVec 64) : (w.sets r v).streamFree = w.streamFree := rfl
@[simp] theorem Work.sets_streamCached (r : W1c) (v : BitVec 64) : (w.sets r v).streamCached = w.streamCached := rfl
@[simp] theorem Work.sets_tableUp (r : W1c) (v : BitVec 64) : (w.sets r v).tableUp = w.tableUp := rfl
@[simp] theorem Work.sets_fillLeft (r : W1c) (v : BitVec 64) : (w.sets r v).fillLeft = w.fillLeft := rfl
@[simp] theorem Work.sets_tableBase (r : W1c) (v : BitVec 64) : (w.sets r v).tableBase = w.tableBase := rfl
@[simp] theorem Work.sets_tableEntries (r : W1c) (v : BitVec 64) : (w.sets r v).tableEntries = w.tableEntries := rfl
@[simp] theorem Work.sets_objHits (r : W1c) (v : BitVec 64) : (w.sets r v).objHits = w.objHits := rfl
@[simp] theorem Work.sets_objMisses (r : W1c) (v : BitVec 64) : (w.sets r v).objMisses = w.objMisses := rfl
@[simp] theorem Work.sets_slots (r : W1c) (v : BitVec 64) : (w.sets r v).slots = w.slots := rfl
@[simp] theorem Work.sets_lends (r : W1c) (v : BitVec 64) : (w.sets r v).lends = w.lends := rfl
@[simp] theorem Work.sets_rr (r : W1c) (v : BitVec 64) : (w.sets r v).rr = w.rr := rfl
@[simp] theorem Work.sets_tiles (r : W1c) (v : BitVec 64) : (w.sets r v).tiles = w.tiles := rfl
@[simp] theorem Work.sets_nextOrder (r : W1c) (v : BitVec 64) : (w.sets r v).nextOrder = w.nextOrder := rfl
@[simp] theorem Work.sets_copyLast (r : W1c) (v : BitVec 64) : (w.sets r v).copyLast = w.copyLast := rfl
@[simp] theorem Work.sets_ports (r : W1c) (v : BitVec 64) : (w.sets r v).ports = w.ports := rfl
@[simp] theorem Work.sets_sw (r : W1c) (v : BitVec 64) : (w.sets r v).sw = w.sw := rfl
@[simp] theorem Work.sets_pln (r : W1c) (v : BitVec 64) : (w.sets r v).pln = w.pln := rfl
@[simp] theorem Work.sets_jnr (r : W1c) (v : BitVec 64) : (w.sets r v).jnr = w.jnr := rfl
@[simp] theorem Work.sets_cap (r : W1c) (v : BitVec 64) : (w.sets r v).cap = w.cap := rfl
@[simp] theorem Work.sets_msgs (r : W1c) (v : BitVec 64) : (w.sets r v).msgs = w.msgs := rfl
@[simp] theorem Work.sets_fenced (r : W1c) (v : BitVec 64) : (w.sets r v).fenced = w.fenced := rfl
@[simp] theorem Work.sets_barEnds (r : W1c) (v : BitVec 64) : (w.sets r v).barEnds = w.barEnds := rfl
@[simp] theorem Work.sets_late (r : W1c) (v : BitVec 64) : (w.sets r v).late = w.late := rfl
@[simp] theorem Work.sets_fresh (r : W1c) (v : BitVec 64) : (w.sets r v).fresh = w.fresh := rfl

@[simp] theorem Work.draw_fab : (w.draw.2).fab = w.fab := rfl
@[simp] theorem Work.draw_slices : (w.draw.2).slices = w.slices := rfl
@[simp] theorem Work.draw_queues : (w.draw.2).queues = w.queues := rfl
@[simp] theorem Work.draw_admin : (w.draw.2).admin = w.admin := rfl
@[simp] theorem Work.draw_sync : (w.draw.2).sync = w.sync := rfl
@[simp] theorem Work.draw_cmds : (w.draw.2).cmds = w.cmds := rfl
@[simp] theorem Work.draw_nextId : (w.draw.2).nextId = w.nextId := rfl
@[simp] theorem Work.draw_runs : (w.draw.2).runs = w.runs := rfl
@[simp] theorem Work.draw_objs : (w.draw.2).objs = w.objs := rfl
@[simp] theorem Work.draw_streamUp : (w.draw.2).streamUp = w.streamUp := rfl
@[simp] theorem Work.draw_streamFree : (w.draw.2).streamFree = w.streamFree := rfl
@[simp] theorem Work.draw_streamCached : (w.draw.2).streamCached = w.streamCached := rfl
@[simp] theorem Work.draw_tableUp : (w.draw.2).tableUp = w.tableUp := rfl
@[simp] theorem Work.draw_fillLeft : (w.draw.2).fillLeft = w.fillLeft := rfl
@[simp] theorem Work.draw_tableBase : (w.draw.2).tableBase = w.tableBase := rfl
@[simp] theorem Work.draw_tableEntries : (w.draw.2).tableEntries = w.tableEntries := rfl
@[simp] theorem Work.draw_objHits : (w.draw.2).objHits = w.objHits := rfl
@[simp] theorem Work.draw_objMisses : (w.draw.2).objMisses = w.objMisses := rfl
@[simp] theorem Work.draw_slots : (w.draw.2).slots = w.slots := rfl
@[simp] theorem Work.draw_lends : (w.draw.2).lends = w.lends := rfl
@[simp] theorem Work.draw_rr : (w.draw.2).rr = w.rr := rfl
@[simp] theorem Work.draw_tiles : (w.draw.2).tiles = w.tiles := rfl
@[simp] theorem Work.draw_nextOrder : (w.draw.2).nextOrder = w.nextOrder := rfl
@[simp] theorem Work.draw_copyLast : (w.draw.2).copyLast = w.copyLast := rfl
@[simp] theorem Work.draw_ports : (w.draw.2).ports = w.ports := rfl
@[simp] theorem Work.draw_sw : (w.draw.2).sw = w.sw := rfl
@[simp] theorem Work.draw_pln : (w.draw.2).pln = w.pln := rfl
@[simp] theorem Work.draw_jnr : (w.draw.2).jnr = w.jnr := rfl
@[simp] theorem Work.draw_cap : (w.draw.2).cap = w.cap := rfl
@[simp] theorem Work.draw_msgs : (w.draw.2).msgs = w.msgs := rfl
@[simp] theorem Work.draw_fenced : (w.draw.2).fenced = w.fenced := rfl
@[simp] theorem Work.draw_barEnds : (w.draw.2).barEnds = w.barEnds := rfl
@[simp] theorem Work.draw_setNow : (w.draw.2).setNow = w.setNow := rfl
@[simp] theorem Work.draw_late : (w.draw.2).late = w.late := rfl

@[simp] theorem localWrite_fab (k a : Nat) (d : List Byte) : (localWrite k a d w).fab = w.fab := rfl
@[simp] theorem localWrite_slices (k a : Nat) (d : List Byte) : (localWrite k a d w).slices = w.slices := rfl
@[simp] theorem localWrite_queues (k a : Nat) (d : List Byte) : (localWrite k a d w).queues = w.queues := rfl
@[simp] theorem localWrite_admin (k a : Nat) (d : List Byte) : (localWrite k a d w).admin = w.admin := rfl
@[simp] theorem localWrite_sync (k a : Nat) (d : List Byte) : (localWrite k a d w).sync = w.sync := rfl
@[simp] theorem localWrite_cmds (k a : Nat) (d : List Byte) : (localWrite k a d w).cmds = w.cmds := rfl
@[simp] theorem localWrite_nextId (k a : Nat) (d : List Byte) : (localWrite k a d w).nextId = w.nextId := rfl
@[simp] theorem localWrite_runs (k a : Nat) (d : List Byte) : (localWrite k a d w).runs = w.runs := rfl
@[simp] theorem localWrite_objs (k a : Nat) (d : List Byte) : (localWrite k a d w).objs = w.objs := rfl
@[simp] theorem localWrite_streamUp (k a : Nat) (d : List Byte) : (localWrite k a d w).streamUp = w.streamUp := rfl
@[simp] theorem localWrite_streamFree (k a : Nat) (d : List Byte) : (localWrite k a d w).streamFree = w.streamFree := rfl
@[simp] theorem localWrite_streamCached (k a : Nat) (d : List Byte) : (localWrite k a d w).streamCached = w.streamCached := rfl
@[simp] theorem localWrite_tableUp (k a : Nat) (d : List Byte) : (localWrite k a d w).tableUp = w.tableUp := rfl
@[simp] theorem localWrite_fillLeft (k a : Nat) (d : List Byte) : (localWrite k a d w).fillLeft = w.fillLeft := rfl
@[simp] theorem localWrite_tableBase (k a : Nat) (d : List Byte) : (localWrite k a d w).tableBase = w.tableBase := rfl
@[simp] theorem localWrite_tableEntries (k a : Nat) (d : List Byte) : (localWrite k a d w).tableEntries = w.tableEntries := rfl
@[simp] theorem localWrite_objHits (k a : Nat) (d : List Byte) : (localWrite k a d w).objHits = w.objHits := rfl
@[simp] theorem localWrite_objMisses (k a : Nat) (d : List Byte) : (localWrite k a d w).objMisses = w.objMisses := rfl
@[simp] theorem localWrite_slots (k a : Nat) (d : List Byte) : (localWrite k a d w).slots = w.slots := rfl
@[simp] theorem localWrite_lends (k a : Nat) (d : List Byte) : (localWrite k a d w).lends = w.lends := rfl
@[simp] theorem localWrite_rr (k a : Nat) (d : List Byte) : (localWrite k a d w).rr = w.rr := rfl
@[simp] theorem localWrite_tiles (k a : Nat) (d : List Byte) : (localWrite k a d w).tiles = w.tiles := rfl
@[simp] theorem localWrite_nextOrder (k a : Nat) (d : List Byte) : (localWrite k a d w).nextOrder = w.nextOrder := rfl
@[simp] theorem localWrite_copyLast (k a : Nat) (d : List Byte) : (localWrite k a d w).copyLast = w.copyLast := rfl
@[simp] theorem localWrite_ports (k a : Nat) (d : List Byte) : (localWrite k a d w).ports = w.ports := rfl
@[simp] theorem localWrite_sw (k a : Nat) (d : List Byte) : (localWrite k a d w).sw = w.sw := rfl
@[simp] theorem localWrite_pln (k a : Nat) (d : List Byte) : (localWrite k a d w).pln = w.pln := rfl
@[simp] theorem localWrite_cap (k a : Nat) (d : List Byte) : (localWrite k a d w).cap = w.cap := rfl
@[simp] theorem localWrite_msgs (k a : Nat) (d : List Byte) : (localWrite k a d w).msgs = w.msgs := rfl
@[simp] theorem localWrite_fenced (k a : Nat) (d : List Byte) : (localWrite k a d w).fenced = w.fenced := rfl
@[simp] theorem localWrite_barEnds (k a : Nat) (d : List Byte) : (localWrite k a d w).barEnds = w.barEnds := rfl
@[simp] theorem localWrite_setNow (k a : Nat) (d : List Byte) : (localWrite k a d w).setNow = w.setNow := rfl
@[simp] theorem localWrite_late (k a : Nat) (d : List Byte) : (localWrite k a d w).late = w.late := rfl
@[simp] theorem localWrite_fresh (k a : Nat) (d : List Byte) : (localWrite k a d w).fresh = w.fresh := rfl
end

/-! ### The block -/

section
variable (b : Block)

@[simp] theorem Block.updClk_work (f : Clock → Clock) : (b.updClk f).work = b.work := rfl
@[simp] theorem Block.updClk_mbx (f : Clock → Clock) : (b.updClk f).mbx = b.mbx := rfl
@[simp] theorem Block.updClk_lnk (f : Clock → Clock) : (b.updClk f).lnk = b.lnk := rfl
@[simp] theorem Block.updClk_frm (f : Clock → Clock) : (b.updClk f).frm = b.frm := rfl
@[simp] theorem Block.updClk_pwr (f : Clock → Clock) : (b.updClk f).pwr = b.pwr := rfl
@[simp] theorem Block.updClk_st (f : Clock → Clock) : (b.updClk f).st = b.st := rfl
@[simp] theorem Block.updClk_dct (f : Clock → Clock) : (b.updClk f).dct = b.dct := rfl
@[simp] theorem Block.updClk_mgmt (f : Clock → Clock) : (b.updClk f).mgmt = b.mgmt := rfl
@[simp] theorem Block.updClk_pins (f : Clock → Clock) : (b.updClk f).pins = b.pins := rfl

@[simp] theorem Block.updLnk_clk (f : Links → Links) : (b.updLnk f).clk = b.clk := rfl
@[simp] theorem Block.updLnk_work (f : Links → Links) : (b.updLnk f).work = b.work := rfl
@[simp] theorem Block.updLnk_mbx (f : Links → Links) : (b.updLnk f).mbx = b.mbx := rfl
@[simp] theorem Block.updLnk_frm (f : Links → Links) : (b.updLnk f).frm = b.frm := rfl
@[simp] theorem Block.updLnk_pwr (f : Links → Links) : (b.updLnk f).pwr = b.pwr := rfl
@[simp] theorem Block.updLnk_st (f : Links → Links) : (b.updLnk f).st = b.st := rfl
@[simp] theorem Block.updLnk_dct (f : Links → Links) : (b.updLnk f).dct = b.dct := rfl
@[simp] theorem Block.updLnk_mgmt (f : Links → Links) : (b.updLnk f).mgmt = b.mgmt := rfl
@[simp] theorem Block.updLnk_pins (f : Links → Links) : (b.updLnk f).pins = b.pins := rfl

@[simp] theorem Block.updWork_clk (f : Work → Work) : (b.updWork f).clk = b.clk := rfl
@[simp] theorem Block.updWork_mbx (f : Work → Work) : (b.updWork f).mbx = b.mbx := rfl
@[simp] theorem Block.updWork_lnk (f : Work → Work) : (b.updWork f).lnk = b.lnk := rfl
@[simp] theorem Block.updWork_frm (f : Work → Work) : (b.updWork f).frm = b.frm := rfl
@[simp] theorem Block.updWork_pwr (f : Work → Work) : (b.updWork f).pwr = b.pwr := rfl
@[simp] theorem Block.updWork_st (f : Work → Work) : (b.updWork f).st = b.st := rfl
@[simp] theorem Block.updWork_dct (f : Work → Work) : (b.updWork f).dct = b.dct := rfl
@[simp] theorem Block.updWork_mgmt (f : Work → Work) : (b.updWork f).mgmt = b.mgmt := rfl
@[simp] theorem Block.updWork_pins (f : Work → Work) : (b.updWork f).pins = b.pins := rfl

@[simp] theorem Block.updMbx_clk (f : Mailboxes → Mailboxes) : (b.updMbx f).clk = b.clk := rfl
@[simp] theorem Block.updMbx_work (f : Mailboxes → Mailboxes) : (b.updMbx f).work = b.work := rfl
@[simp] theorem Block.updMbx_lnk (f : Mailboxes → Mailboxes) : (b.updMbx f).lnk = b.lnk := rfl
@[simp] theorem Block.updMbx_frm (f : Mailboxes → Mailboxes) : (b.updMbx f).frm = b.frm := rfl
@[simp] theorem Block.updMbx_pwr (f : Mailboxes → Mailboxes) : (b.updMbx f).pwr = b.pwr := rfl
@[simp] theorem Block.updMbx_st (f : Mailboxes → Mailboxes) : (b.updMbx f).st = b.st := rfl
@[simp] theorem Block.updMbx_dct (f : Mailboxes → Mailboxes) : (b.updMbx f).dct = b.dct := rfl
@[simp] theorem Block.updMbx_mgmt (f : Mailboxes → Mailboxes) : (b.updMbx f).mgmt = b.mgmt := rfl
@[simp] theorem Block.updMbx_pins (f : Mailboxes → Mailboxes) : (b.updMbx f).pins = b.pins := rfl

@[simp] theorem Block.updDct_clk (f : Dict → Dict) : (b.updDct f).clk = b.clk := rfl
@[simp] theorem Block.updDct_work (f : Dict → Dict) : (b.updDct f).work = b.work := rfl
@[simp] theorem Block.updDct_mbx (f : Dict → Dict) : (b.updDct f).mbx = b.mbx := rfl
@[simp] theorem Block.updDct_lnk (f : Dict → Dict) : (b.updDct f).lnk = b.lnk := rfl
@[simp] theorem Block.updDct_frm (f : Dict → Dict) : (b.updDct f).frm = b.frm := rfl
@[simp] theorem Block.updDct_pwr (f : Dict → Dict) : (b.updDct f).pwr = b.pwr := rfl
@[simp] theorem Block.updDct_st (f : Dict → Dict) : (b.updDct f).st = b.st := rfl
@[simp] theorem Block.updDct_mgmt (f : Dict → Dict) : (b.updDct f).mgmt = b.mgmt := rfl
@[simp] theorem Block.updDct_pins (f : Dict → Dict) : (b.updDct f).pins = b.pins := rfl

@[simp] theorem Block.updMgmt_pins (f : Mgmt → Mgmt) : (b.updMgmt f).pins = b.pins := rfl
@[simp] theorem Block.updMgmt_mgmt (f : Mgmt → Mgmt) : (b.updMgmt f).mgmt = f b.mgmt := rfl
@[simp] theorem Block.updMgmt_clk (f : Mgmt → Mgmt) : (b.updMgmt f).clk = b.clk := rfl
@[simp] theorem Block.updMgmt_work (f : Mgmt → Mgmt) : (b.updMgmt f).work = b.work := rfl
@[simp] theorem Block.updMgmt_mbx (f : Mgmt → Mgmt) : (b.updMgmt f).mbx = b.mbx := rfl
@[simp] theorem Block.updMgmt_lnk (f : Mgmt → Mgmt) : (b.updMgmt f).lnk = b.lnk := rfl
@[simp] theorem Block.updMgmt_frm (f : Mgmt → Mgmt) : (b.updMgmt f).frm = b.frm := rfl
@[simp] theorem Block.updMgmt_pwr (f : Mgmt → Mgmt) : (b.updMgmt f).pwr = b.pwr := rfl
@[simp] theorem Block.updMgmt_st (f : Mgmt → Mgmt) : (b.updMgmt f).st = b.st := rfl
@[simp] theorem Block.updMgmt_dct (f : Mgmt → Mgmt) : (b.updMgmt f).dct = b.dct := rfl

@[simp] theorem Block.updPwr_clk (f : Power → Power) : (b.updPwr f).clk = b.clk := rfl
@[simp] theorem Block.updPwr_work (f : Power → Power) : (b.updPwr f).work = b.work := rfl
@[simp] theorem Block.updPwr_mbx (f : Power → Power) : (b.updPwr f).mbx = b.mbx := rfl
@[simp] theorem Block.updPwr_lnk (f : Power → Power) : (b.updPwr f).lnk = b.lnk := rfl
@[simp] theorem Block.updPwr_frm (f : Power → Power) : (b.updPwr f).frm = b.frm := rfl
@[simp] theorem Block.updPwr_st (f : Power → Power) : (b.updPwr f).st = b.st := rfl
@[simp] theorem Block.updPwr_dct (f : Power → Power) : (b.updPwr f).dct = b.dct := rfl
@[simp] theorem Block.updPwr_mgmt (f : Power → Power) : (b.updPwr f).mgmt = b.mgmt := rfl
@[simp] theorem Block.updPwr_pins (f : Power → Power) : (b.updPwr f).pins = b.pins := rfl

@[simp] theorem Block.updStart_clk (f : Start → Start) : (b.updStart f).clk = b.clk := rfl
@[simp] theorem Block.updStart_work (f : Start → Start) : (b.updStart f).work = b.work := rfl
@[simp] theorem Block.updStart_mbx (f : Start → Start) : (b.updStart f).mbx = b.mbx := rfl
@[simp] theorem Block.updStart_lnk (f : Start → Start) : (b.updStart f).lnk = b.lnk := rfl
@[simp] theorem Block.updStart_frm (f : Start → Start) : (b.updStart f).frm = b.frm := rfl
@[simp] theorem Block.updStart_pwr (f : Start → Start) : (b.updStart f).pwr = b.pwr := rfl
@[simp] theorem Block.updStart_dct (f : Start → Start) : (b.updStart f).dct = b.dct := rfl
@[simp] theorem Block.updStart_mgmt (f : Start → Start) : (b.updStart f).mgmt = b.mgmt := rfl
@[simp] theorem Block.updStart_pins (f : Start → Start) : (b.updStart f).pins = b.pins := rfl

@[simp] theorem Block.updFrm_clk (f : Frame → Frame) : (b.updFrm f).clk = b.clk := rfl
@[simp] theorem Block.updFrm_work (f : Frame → Frame) : (b.updFrm f).work = b.work := rfl
@[simp] theorem Block.updFrm_mbx (f : Frame → Frame) : (b.updFrm f).mbx = b.mbx := rfl
@[simp] theorem Block.updFrm_lnk (f : Frame → Frame) : (b.updFrm f).lnk = b.lnk := rfl
@[simp] theorem Block.updFrm_pwr (f : Frame → Frame) : (b.updFrm f).pwr = b.pwr := rfl
@[simp] theorem Block.updFrm_st (f : Frame → Frame) : (b.updFrm f).st = b.st := rfl
@[simp] theorem Block.updFrm_dct (f : Frame → Frame) : (b.updFrm f).dct = b.dct := rfl
@[simp] theorem Block.updFrm_mgmt (f : Frame → Frame) : (b.updFrm f).mgmt = b.mgmt := rfl
@[simp] theorem Block.updFrm_pins (f : Frame → Frame) : (b.updFrm f).pins = b.pins := rfl

@[simp] theorem Block.updChan_clk (c : Nat) (f : Channel → Channel) : (b.updChan c f).clk = b.clk := rfl
@[simp] theorem Block.updChan_work (c : Nat) (f : Channel → Channel) : (b.updChan c f).work = b.work := rfl
@[simp] theorem Block.updChan_lnk (c : Nat) (f : Channel → Channel) : (b.updChan c f).lnk = b.lnk := rfl
@[simp] theorem Block.updChan_frm (c : Nat) (f : Channel → Channel) : (b.updChan c f).frm = b.frm := rfl
@[simp] theorem Block.updChan_pwr (c : Nat) (f : Channel → Channel) : (b.updChan c f).pwr = b.pwr := rfl
@[simp] theorem Block.updChan_st (c : Nat) (f : Channel → Channel) : (b.updChan c f).st = b.st := rfl
@[simp] theorem Block.updChan_dct (c : Nat) (f : Channel → Channel) : (b.updChan c f).dct = b.dct := rfl
@[simp] theorem Block.updChan_mgmt (c : Nat) (f : Channel → Channel) : (b.updChan c f).mgmt = b.mgmt := rfl
@[simp] theorem Block.updChan_pins (c : Nat) (f : Channel → Channel) : (b.updChan c f).pins = b.pins := rfl

@[simp] theorem Block.updJnr_clk (f : Joiner → Joiner) : (b.updJnr f).clk = b.clk := rfl
@[simp] theorem Block.updJnr_mbx (f : Joiner → Joiner) : (b.updJnr f).mbx = b.mbx := rfl
@[simp] theorem Block.updJnr_lnk (f : Joiner → Joiner) : (b.updJnr f).lnk = b.lnk := rfl
@[simp] theorem Block.updJnr_frm (f : Joiner → Joiner) : (b.updJnr f).frm = b.frm := rfl
@[simp] theorem Block.updJnr_pwr (f : Joiner → Joiner) : (b.updJnr f).pwr = b.pwr := rfl
@[simp] theorem Block.updJnr_st (f : Joiner → Joiner) : (b.updJnr f).st = b.st := rfl
@[simp] theorem Block.updJnr_dct (f : Joiner → Joiner) : (b.updJnr f).dct = b.dct := rfl
@[simp] theorem Block.updJnr_mgmt (f : Joiner → Joiner) : (b.updJnr f).mgmt = b.mgmt := rfl
@[simp] theorem Block.updJnr_pins (f : Joiner → Joiner) : (b.updJnr f).pins = b.pins := rfl

@[simp] theorem Block.setLock_clk (i : Nat) (o : Option (BitVec 8)) : (b.setLock i o).clk = b.clk := rfl
@[simp] theorem Block.setLock_work (i : Nat) (o : Option (BitVec 8)) : (b.setLock i o).work = b.work := rfl
@[simp] theorem Block.setLock_lnk (i : Nat) (o : Option (BitVec 8)) : (b.setLock i o).lnk = b.lnk := rfl
@[simp] theorem Block.setLock_frm (i : Nat) (o : Option (BitVec 8)) : (b.setLock i o).frm = b.frm := rfl
@[simp] theorem Block.setLock_pwr (i : Nat) (o : Option (BitVec 8)) : (b.setLock i o).pwr = b.pwr := rfl
@[simp] theorem Block.setLock_st (i : Nat) (o : Option (BitVec 8)) : (b.setLock i o).st = b.st := rfl
@[simp] theorem Block.setLock_dct (i : Nat) (o : Option (BitVec 8)) : (b.setLock i o).dct = b.dct := rfl
@[simp] theorem Block.setLock_mgmt (i : Nat) (o : Option (BitVec 8)) : (b.setLock i o).mgmt = b.mgmt := rfl
@[simp] theorem Block.setLock_pins (i : Nat) (o : Option (BitVec 8)) : (b.setLock i o).pins = b.pins := rfl

@[simp] theorem Block.updLport_clk (p : Nat) (f : LinkPort → LinkPort) : (b.updLport p f).clk = b.clk := rfl
@[simp] theorem Block.updLport_work (p : Nat) (f : LinkPort → LinkPort) : (b.updLport p f).work = b.work := rfl
@[simp] theorem Block.updLport_mbx (p : Nat) (f : LinkPort → LinkPort) : (b.updLport p f).mbx = b.mbx := rfl
@[simp] theorem Block.updLport_frm (p : Nat) (f : LinkPort → LinkPort) : (b.updLport p f).frm = b.frm := rfl
@[simp] theorem Block.updLport_pwr (p : Nat) (f : LinkPort → LinkPort) : (b.updLport p f).pwr = b.pwr := rfl
@[simp] theorem Block.updLport_st (p : Nat) (f : LinkPort → LinkPort) : (b.updLport p f).st = b.st := rfl
@[simp] theorem Block.updLport_dct (p : Nat) (f : LinkPort → LinkPort) : (b.updLport p f).dct = b.dct := rfl
@[simp] theorem Block.updLport_mgmt (p : Nat) (f : LinkPort → LinkPort) : (b.updLport p f).mgmt = b.mgmt := rfl
@[simp] theorem Block.updLport_pins (p : Nat) (f : LinkPort → LinkPort) : (b.updLport p f).pins = b.pins := rfl

@[simp] theorem Block.emit_clk (o : Output) : (b.emit o).clk = b.clk := by unfold Block.emit; (repeat' split) <;> rfl
@[simp] theorem Block.emit_mbx (o : Output) : (b.emit o).mbx = b.mbx := by unfold Block.emit; (repeat' split) <;> rfl
@[simp] theorem Block.emit_work (o : Output) : (b.emit o).work = b.work.emit o := by unfold Block.emit; (repeat' split) <;> rfl
@[simp] theorem Block.emit_frm (o : Output) : (b.emit o).frm = b.frm := by unfold Block.emit; (repeat' split) <;> rfl
@[simp] theorem Block.emit_pwr (o : Output) : (b.emit o).pwr = b.pwr := by unfold Block.emit; (repeat' split) <;> rfl
@[simp] theorem Block.emit_st (o : Output) : (b.emit o).st = b.st := by unfold Block.emit; (repeat' split) <;> rfl
@[simp] theorem Block.emit_dct (o : Output) : (b.emit o).dct = b.dct := by unfold Block.emit; (repeat' split) <;> rfl
@[simp] theorem Block.emit_mgmt (o : Output) : (b.emit o).mgmt = b.mgmt := by unfold Block.emit; (repeat' split) <;> rfl
@[simp] theorem Block.emit_pins (o : Output) : (b.emit o).pins = b.pins := by unfold Block.emit; (repeat' split) <;> rfl

@[simp] theorem Block.updBar_clk (i : Nat) (f : Barrier → Barrier) : (b.updBar i f).clk = b.clk := rfl
@[simp] theorem Block.updBar_work (i : Nat) (f : Barrier → Barrier) : (b.updBar i f).work = b.work := rfl
@[simp] theorem Block.updBar_mbx (i : Nat) (f : Barrier → Barrier) : (b.updBar i f).mbx = b.mbx := rfl
@[simp] theorem Block.updBar_lnk (i : Nat) (f : Barrier → Barrier) : (b.updBar i f).lnk = b.lnk := rfl
@[simp] theorem Block.updBar_pwr (i : Nat) (f : Barrier → Barrier) : (b.updBar i f).pwr = b.pwr := rfl
@[simp] theorem Block.updBar_st (i : Nat) (f : Barrier → Barrier) : (b.updBar i f).st = b.st := rfl
@[simp] theorem Block.updBar_dct (i : Nat) (f : Barrier → Barrier) : (b.updBar i f).dct = b.dct := rfl
@[simp] theorem Block.updBar_mgmt (i : Nat) (f : Barrier → Barrier) : (b.updBar i f).mgmt = b.mgmt := rfl
@[simp] theorem Block.updBar_pins (i : Nat) (f : Barrier → Barrier) : (b.updBar i f).pins = b.pins := rfl

@[simp] theorem Block.updCoder_clk (p : Nat) (f : Coder → Coder) : (b.updCoder p f).clk = b.clk := rfl
@[simp] theorem Block.updCoder_work (p : Nat) (f : Coder → Coder) : (b.updCoder p f).work = b.work := rfl
@[simp] theorem Block.updCoder_mbx (p : Nat) (f : Coder → Coder) : (b.updCoder p f).mbx = b.mbx := rfl
@[simp] theorem Block.updCoder_frm (p : Nat) (f : Coder → Coder) : (b.updCoder p f).frm = b.frm := rfl
@[simp] theorem Block.updCoder_pwr (p : Nat) (f : Coder → Coder) : (b.updCoder p f).pwr = b.pwr := rfl
@[simp] theorem Block.updCoder_st (p : Nat) (f : Coder → Coder) : (b.updCoder p f).st = b.st := rfl
@[simp] theorem Block.updCoder_dct (p : Nat) (f : Coder → Coder) : (b.updCoder p f).dct = b.dct := rfl
@[simp] theorem Block.updCoder_mgmt (p : Nat) (f : Coder → Coder) : (b.updCoder p f).mgmt = b.mgmt := rfl
@[simp] theorem Block.updCoder_pins (p : Nat) (f : Coder → Coder) : (b.updCoder p f).pins = b.pins := rfl

@[simp] theorem Block.after_clk : b.after.clk = b.clk := by simp only [Block.after]
@[simp] theorem Block.after_mbx : b.after.mbx = b.mbx := by simp only [Block.after]
@[simp] theorem Block.after_lnk : b.after.lnk = b.lnk := by simp only [Block.after]
@[simp] theorem Block.after_frm : b.after.frm = b.frm := by simp only [Block.after]
@[simp] theorem Block.after_pwr : b.after.pwr = b.pwr := by simp only [Block.after]
@[simp] theorem Block.after_st : b.after.st = b.st := by simp only [Block.after]
@[simp] theorem Block.after_dct : b.after.dct = b.dct := by simp only [Block.after]
@[simp] theorem Block.after_mgmt : b.after.mgmt = b.mgmt := by simp only [Block.after]
@[simp] theorem Block.after_pins : b.after.pins = b.pins := by simp only [Block.after]

@[simp] theorem Block.updWork_work (f : Work → Work) : (b.updWork f).work = f b.work := rfl
@[simp] theorem Block.updMbx_mbx (f : Mailboxes → Mailboxes) : (b.updMbx f).mbx = f b.mbx := rfl
@[simp] theorem Block.updFrm_frm (f : Frame → Frame) : (b.updFrm f).frm = f b.frm := rfl
@[simp] theorem Block.updPwr_pwr (f : Power → Power) : (b.updPwr f).pwr = f b.pwr := rfl
@[simp] theorem Block.updStart_st (f : Start → Start) : (b.updStart f).st = f b.st := rfl
@[simp] theorem Block.updClk_clk (f : Clock → Clock) : (b.updClk f).clk = f b.clk := rfl

end

/-! ### Reads after changes -/

section
variable (w : Work)

@[simp] theorem slice_updSlice (s : Nat) (f : Slice → Slice) : (w.updSlice s f).slice s = f (w.slice s) :=
  tblGet_tblUpd_same _ _ _ _
theorem slice_updSlice_other (s k : Nat) (f : Slice → Slice) (h : k ≠ s) : (w.updSlice s f).slice k = w.slice k :=
  tblGet_tblUpd_other _ _ _ _ _ h
@[simp] theorem queue_updQueue (k : Nat) (f : Queue → Queue) : (w.updQueue k f).queue k = f (w.queue k) :=
  tblGet_tblUpd_same _ _ _ _
theorem queue_updQueue_other (k j : Nat) (f : Queue → Queue) (h : j ≠ k) : (w.updQueue k f).queue j = w.queue j :=
  tblGet_tblUpd_other _ _ _ _ _ h
@[simp] theorem port_updPort (p : Nat) (f : Port → Port) : (w.updPort p f).port p = f (w.port p) := tblGet_tblUpd_same _ _ _ _
theorem port_updPort_other (p q : Nat) (f : Port → Port) (h : q ≠ p) : (w.updPort p f).port q = w.port q :=
  tblGet_tblUpd_other _ _ _ _ _ h
@[simp] theorem slot_updSlot (k : Nat) (f : Slot → Slot) : (w.updSlot k f).slot k = f (w.slot k) := tblGet_tblUpd_same _ _ _ _
theorem slot_updSlot_other (k j : Nat) (f : Slot → Slot) (h : j ≠ k) : (w.updSlot k f).slot j = w.slot j :=
  tblGet_tblUpd_other _ _ _ _ _ h
@[simp] theorem obj_updObj (i : Nat) (f : Obj → Obj) : (w.updObj i f).obj i = f (w.obj i) := tblGet_tblUpd_same _ _ _ _
theorem obj_updObj_other (i j : Nat) (f : Obj → Obj) (h : j ≠ i) : (w.updObj i f).obj j = w.obj j :=
  tblGet_tblUpd_other _ _ _ _ _ h
@[simp] theorem ctx_updCtx (s c : Nat) (f : Ctx → Ctx) : (w.updCtx s c f).ctx s c = f (w.ctx s c) := by
  simp [Work.updCtx, Work.ctx]
@[simp] theorem sem_updSem (s i : Nat) (f : Sem → Sem) : (w.updSem s i f).sem s i = f (w.sem s i) := by
  simp [Work.updSem, Work.sem]

/-- A change that keeps a command's number is what a look at it finds. -/
theorem cmd_updCmd (id : Nat) (f : Cmd → Cmd) (h : ∀ c, (f c).id = c.id) :
    (w.updCmd id f).cmd id = (w.cmd id).map f := by
  simp only [Work.cmd, Work.updCmd]
  induction w.cmds with
  | nil => rfl
  | cons c cs ih =>
    by_cases hc : c.id = id
    · simp [hc, h]
    · simp [hc, ih]

/-- It changes no other command. -/
theorem cmd_updCmd_other (id j : Nat) (f : Cmd → Cmd) (h : ∀ c, (f c).id = c.id) (hj : j ≠ id) :
    (w.updCmd id f).cmd j = w.cmd j := by
  simp only [Work.cmd, Work.updCmd]
  induction w.cmds with
  | nil => rfl
  | cons c cs ih =>
    by_cases hc : c.id = id
    · have : ¬ id = j := fun e => hj e.symm
      simp [hc, h, this, ih]
    · by_cases hk : c.id = j
      · simp [hk, hj]
      · simp [hc, hk, ih]

theorem cmd_id (id : Nat) (c : Cmd) (h : w.cmd id = some c) : c.id = id := by
  simp only [Work.cmd] at h
  simpa using List.find?_some h

end

end Sys2Proof.Machine
end

