-- ==== Sys2Proof/Laws/Ops.lean ====
section
/-! SUPPORT. What each shared operation does, said once: effects on the shared state and on the block, commands released
for their opcode, requests on the memory port, and fence operations. -/

namespace Sys2Proof.Machine

/-! ### Effects -/

theorem onWork_live (s : State) (f : Block → Work → Work) (h : s.live) :
    s.onWork f = s.settled (f s.core s.core.work) := by
  have h' : s.core.still = false := h
  simp only [State.onWork, State.on, State.settled, h', Bool.false_eq_true, if_false]

theorem onWork_still (s : State) (f : Block → Work → Work) (h : s.core.still = true) : s.onWork f = s := by
  simp only [State.onWork, State.on, h, if_true]

theorem onAll_live (s : State) (f : Block → Block) (h : s.live) :
    s.onAll f = { s with core := (f s.core).after } := by
  have h' : s.core.still = false := h
  simp only [State.onAll, State.on, h', Bool.false_eq_true, if_false]

theorem onAll_still (s : State) (f : Block → Block) (h : s.core.still = true) : s.onAll f = s := by
  simp only [State.onAll, State.on, h, if_true]

theorem onAon_open (s : State) (f : Block → Block) (h : s.core.pwr.frozen = false) :
    s.onAon f = { s with core := f s.core } := by
  simp only [State.onAon, State.on, h, Bool.false_eq_true, if_false]

theorem onAon_frozen (s : State) (f : Block → Block) (h : s.core.pwr.frozen = true) : s.onAon f = s := by
  simp only [State.onAon, State.on, h, if_true]

theorem does_of {i : Instr} {s : State} {f : Block → Work → Work} {P : Work → Prop}
    (hx : exec i s = .next (s.onWork f)) (h : s.live) (hP : P (f s.core s.core.work)) : Does i s P :=
  ⟨_, hP, by rw [hx, onWork_live s f h]⟩

theorem acts_of {i : Instr} {s : State} {f : Block → Block} {P : Block → Prop}
    (hx : exec i s = .next (s.onAll f)) (h : s.live) (hP : P (f s.core)) : Acts i s P :=
  ⟨_, hP, by rw [hx, onAll_live s f h]⟩

theorem sets_of {i : Instr} {s : State} {f : Block → Block} {P : Block → Prop}
    (hx : exec i s = .next (s.onAon f)) (h : s.core.pwr.frozen = false) (hP : P (f s.core)) : Sets i s P :=
  ⟨_, hP, by rw [hx, onAon_open s f h]⟩

/-! ### Commands in flight -/

theorem runCmd_ready {w : Work} {o : Op} {c : Cmd} (h : Ready w o c) (f : Cmd → Work → Work) :
    runCmd o c.id f w = f c w := by
  obtain ⟨h1, h2, h3, h4, h5⟩ := h
  simp [runCmd, h1, h2, h3, h4, h5]

theorem updCmd_turns {w : Work} {c : Cmd} (h : w.cmd c.id = some c) (f : Cmd → Cmd) (hf : ∀ d, (f d).id = d.id) :
    Turns w c (f c) (w.updCmd c.id f) :=
  ⟨by rw [cmd_updCmd _ _ _ hf, h]; rfl, fun j hj => cmd_updCmd_other _ _ _ _ hf hj⟩

theorem updCmd_turns_to {w : Work} {c : Cmd} (h : w.cmd c.id = some c) (f : Cmd → Cmd) (hf : ∀ d, d.id = c.id → (f d).id = c.id) :
    Turns w c (f c) (w.updCmd c.id f) := by
  have key : ∀ l : List Cmd, ∀ j, (l.map fun d => if d.id = c.id then f d else d).find? (fun d => d.id == j) =
      (l.find? fun d => d.id == j).map fun d => if d.id = c.id then f d else d := by
    intro l j
    induction l with
    | nil => rfl
    | cons d l ih =>
      by_cases hd : d.id = c.id
      · by_cases hj : c.id = j
        · simp [hd, hf d hd, hj]
        · have h1 : (d.id == j) = false := by simpa [hd] using hj
          have h2 : ((f d).id == j) = false := by simpa [hf d hd] using hj
          simp [hd, h2, hj, ih]
      · by_cases hj : d.id = j
        · have hn : ¬ j = c.id := fun e => hd (hj.trans e)
          simp [hj, hn]
        · simp [hd, hj, ih]
  constructor
  · show ((w.cmds.map _).find? _) = _
    rw [key]
    have h' : w.cmds.find? (fun d => d.id == c.id) = some c := h
    simp [h']
  · intro j hj
    show ((w.cmds.map _).find? _) = w.cmds.find? _
    rw [key]
    cases hx : w.cmds.find? (fun d => d.id == j) with
    | none => rfl
    | some d =>
      have hd : d.id = j := by simpa using List.find?_some hx
      simp [hd, hj]

theorem endWith_ready {w : Work} {o : Op} {c : Cmd} (h : Ready w o c) (st : Status) :
    c.endWith st = { c with endStatus := some st } := by
  obtain ⟨_, h2, _, h4, _⟩ := h
  cases c
  simp_all [Cmd.endWith]

theorem endCmd_ends {w : Work} {o : Op} {c : Cmd} (h : Ready w o c) (st : Status) : Ends w c st (endCmd c.id st w) := by
  unfold Ends
  rw [← endWith_ready h st]
  exact updCmd_turns h.1 _ fun _ => rfl

theorem endCmd_just {w : Work} {o : Op} {c : Cmd} (h : Ready w o c) (st : Status) : JustEnds w c st (endCmd c.id st w) :=
  ⟨endCmd_ends h st, rfl⟩

/-- Only the list of commands in flight decides what a command is. -/
theorem cmd_congr {w w' : Work} (h : w'.cmds = w.cmds) (id : Nat) : w'.cmd id = w.cmd id := by
  simp only [Work.cmd, h]

theorem ends_of_cmds {w v : Work} {o : Op} {c : Cmd} (h : Ready w o c) (st : Status) (hv : v.cmds = w.cmds) :
    Ends w c st (endCmd c.id st v) := by
  have hr : Ready v o c := ⟨by rw [cmd_congr hv]; exact h.1, h.2⟩
  obtain ⟨h1, h2⟩ := endCmd_ends hr st
  exact ⟨h1, fun j hj => by rw [h2 j hj, cmd_congr hv]⟩

/-! ### Requests -/

theorem markDirty_work (e : Block) (r : Req) (w : Work) : { markDirty e r w with slices := w.slices } = w := by
  unfold markDirty
  repeat' split
  all_goals rfl

theorem markSent_work (e : Block) (h : Bool) (r : Req) (w : Work) : { markSent e h r w with slices := w.slices } = w := by
  unfold markSent
  split
  · rfl
  · exact markDirty_work e r w

/-- What issuing a request leaves: everything but the port, and the dirty logs of slices. -/
theorem issueRaw_work (e : Block) (s : Option Nat) (r : Req) (w : Work) :
    { issueRaw e s r w with fab := w.fab, slices := w.slices } = w := by
  have key : ∀ (h : Bool) (r : Req) (f : Fabric → Fabric),
      { ((markSent e h r w).updFab f) with fab := w.fab, slices := w.slices } = w := by
    intro h r f
    have h : { ((markSent e h r w).updFab f) with fab := w.fab, slices := w.slices }
        = { { markSent e h r w with slices := w.slices } with fab := w.fab } := rfl
    rw [h, markSent_work]
  exact key _ _ _

theorem logs_refl (w : Work) : LogsOnly w w := fun _ => rfl

theorem logs_updSlice (w : Work) (s : Nat) (f : Slice → Slice)
    (hf : ∀ x, { f x with hostLog := x.hostLog, devLog := x.devLog } = x) : LogsOnly w (w.updSlice s f) := by
  intro n
  by_cases h : n = s
  · subst h
    rw [slice_updSlice]
    exact hf _
  · rw [slice_updSlice_other _ _ _ _ h]

theorem markDirty_logs (e : Block) (r : Req) (w : Work) : LogsOnly w (markDirty e r w) := by
  unfold markDirty
  repeat' split
  all_goals first | exact logs_refl w | exact logs_updSlice w _ _ fun _ => rfl

theorem markSent_logs (e : Block) (h : Bool) (r : Req) (w : Work) : LogsOnly w (markSent e h r w) := by
  unfold markSent
  split
  · exact logs_refl w
  · exact markDirty_logs e r w

theorem issueRaw_logs (e : Block) (s : Option Nat) (r : Req) (w : Work) : LogsOnly w (issueRaw e s r w) := by
  have key : ∀ (h : Bool) (r : Req) (f : Fabric → Fabric), LogsOnly w ((markSent e h r w).updFab f) := by
    intro h r f n
    have h' : ((markSent e h r w).updFab f).slice n = (markSent e h r w).slice n := rfl
    rw [h']
    exact markSent_logs e h r w n
  exact key _ _ _

theorem markDirty_fab (e : Block) (r : Req) (w : Work) : (markDirty e r w).fab = w.fab := by
  unfold markDirty
  repeat' split
  all_goals rfl

theorem markSent_fab (e : Block) (h : Bool) (r : Req) (w : Work) : (markSent e h r w).fab = w.fab := by
  unfold markSent
  split
  · rfl
  · exact markDirty_fab e r w

theorem mayIssue_active {w : Work} {s : Nat} (h : (w.slice s).state = .active) (dev : Bool) : mayIssue w (some s) dev = true := by
  simp [mayIssue, Slice.pasidOpen, Slice.quiet, h]

@[simp] theorem Work.updFab_fab (w : Work) (f : Fabric → Fabric) : (w.updFab f).fab = f w.fab := rfl

theorem issue_asks {e : Block} {w : Work} {s : Option Nat} {op : MemOp} {dev : Bool} {a len : Nat} {data : List Byte}
    {why : Purpose} (h : mayIssue w s dev = true) : Asks w s op dev a len data why (issue e s (newReq op dev a len data why) w) := by
  have h' : mayIssue w s (newReq op dev a len data why).dev = true := h
  unfold Asks issue
  rw [if_pos h']
  simp only [issueRaw, Work.updFab_fab, markSent_fab]
  rfl

theorem readFor_asks {e : Block} {w : Work} {s : Option Nat} {dev : Bool} {a len : Nat} {why : Purpose}
    (h : mayIssue w s dev = true) : Asks w s .read dev (spaceAddr e dev a) len [] why (readFor e s dev a len why w) :=
  issue_asks h

theorem writeFor_asks {e : Block} {w : Work} {s : Option Nat} {dev : Bool} {a : Nat} {data : List Byte} {why : Purpose}
    (h : mayIssue w s dev = true) :
    Asks w s .write dev (spaceAddr e dev a) data.length data why (writeFor e s dev a data why w) :=
  issue_asks h

/-- Issuing leaves everything but the port and the dirty logs. -/
theorem issue_work (e : Block) (s : Option Nat) (r : Req) (w : Work) :
    { issue e s r w with fab := w.fab, slices := w.slices } = w := by
  unfold issue
  split
  · exact issueRaw_work e s r w
  · rfl

theorem issue_logs (e : Block) (s : Option Nat) (r : Req) (w : Work) : LogsOnly w (issue e s r w) := by
  unfold issue
  split
  · exact issueRaw_logs e s r w
  · exact logs_refl w

/-- A read marks no log. -/
theorem markSent_read (e : Block) (h : Bool) (r : Req) (w : Work) (hr : r.op = .read) : markSent e h r w = w := by
  have hw : r.writes = false := by simp [Req.writes, hr]
  unfold markSent markDirty
  simp only [hw]
  repeat' split
  all_goals first | rfl | simp_all

/-- A read changes no slice. -/
@[simp] theorem readFor_slices (e : Block) (s : Option Nat) (dev : Bool) (a len : Nat) (why : Purpose) (w : Work) :
    (readFor e s dev a len why w).slices = w.slices := by
  unfold readFor issue
  split
  · unfold issueRaw
    simp only [Work.updFab_slices]
    exact congrArg Work.slices (markSent_read _ _ _ _ rfl)
  · rfl

end Sys2Proof.Machine
end

