-- ==== Sys2Proof/Laws/Fence.lean ====
section
/-! SUPPORT. Operations on fences: what putting an outcome in place changes and what it leaves (R302, R303, R307). -/

namespace Sys2Proof.Machine

/-- Fences and stale counts stand, and only what follows a fence operation changed. -/
def FencesStand (w w' : Work) : Prop :=
  (FenceFrame w w' ∧ w'.late = w.late) ∧ ∀ n, (w'.slice n).fences = (w.slice n).fences ∧ (w'.slice n).stale = (w.slice n).stale

theorem fencesStand_refl (w : Work) : FencesStand w w := ⟨⟨⟨rfl, fun _ => rfl⟩, rfl⟩, fun _ => ⟨rfl, rfl⟩⟩

theorem fencesStand_trans {a b c : Work} (h : FencesStand a b) (g : FencesStand b c) : FencesStand a c := by
  obtain ⟨⟨⟨h1, h2⟩, h4⟩, h3⟩ := h
  obtain ⟨⟨⟨g1, g2⟩, g4⟩, g3⟩ := g
  refine ⟨⟨⟨?_, fun n => ?_⟩, g4.trans h4⟩, fun n => ⟨(g3 n).1.trans (h3 n).1, (g3 n).2.trans (h3 n).2⟩⟩
  · exact (congrArg (fun x : Work => { x with
      fab := a.fab, slices := a.slices, cmds := a.cmds, msgs := a.msgs, sync := a.sync, late := a.late }) g1).trans h1
  · exact (congrArg (fun x : Slice => { x with
      fences := (a.slice n).fences, stale := (a.slice n).stale, watches := (a.slice n).watches,
      remoteWaits := (a.slice n).remoteWaits, watchDrops := (a.slice n).watchDrops, hostLog := (a.slice n).hostLog,
      devLog := (a.slice n).devLog }) (g2 n)).trans (h2 n)

theorem fencesStand_updSlice (w : Work) (s : Nat) (f : Slice → Slice)
    (hf : ∀ x, { f x with fences := x.fences, stale := x.stale, watches := x.watches, remoteWaits := x.remoteWaits,
                          watchDrops := x.watchDrops, hostLog := x.hostLog, devLog := x.devLog } = x ∧
      (f x).fences = x.fences ∧ (f x).stale = x.stale) : FencesStand w (w.updSlice s f) := by
  refine ⟨⟨⟨rfl, fun n => ?_⟩, rfl⟩, fun n => ?_⟩ <;> by_cases h : n = s
  · subst h; rw [slice_updSlice]; exact (hf _).1
  · rw [slice_updSlice_other _ _ _ _ h]
  · subst h; rw [slice_updSlice]; exact (hf _).2
  · rw [slice_updSlice_other _ _ _ _ h]; exact ⟨rfl, rfl⟩

theorem fencesStand_msgs (w : Work) (m : MsgQueues) : FencesStand w { w with msgs := m } :=
  ⟨⟨⟨rfl, fun _ => rfl⟩, rfl⟩, fun _ => ⟨rfl, rfl⟩⟩

theorem fencesStand_fab (w : Work) (f : Fabric → Fabric) : FencesStand w (w.updFab f) :=
  ⟨⟨⟨rfl, fun _ => rfl⟩, rfl⟩, fun _ => ⟨rfl, rfl⟩⟩

theorem fencesStand_cmds (w : Work) (f : Cmd → Cmd) : FencesStand w (w.mapCmds f) :=
  ⟨⟨⟨rfl, fun _ => rfl⟩, rfl⟩, fun _ => ⟨rfl, rfl⟩⟩

theorem sendMsg_stand (e : Block) (m : Msg) (w : Work) : FencesStand w (sendMsg e m w) := by
  unfold sendMsg
  repeat' split
  all_goals exact fencesStand_msgs w _

theorem issue_stand (e : Block) (s : Option Nat) (r : Req) (w : Work) : FencesStand w (issue e s r w) := by
  have hw := issue_work e s r w
  have hl := issue_logs e s r w
  refine ⟨⟨⟨?_, fun n => ?_⟩, (congrArg (fun x : Work => x.late) hw :)⟩, fun n => ?_⟩
  · exact congrArg (fun x : Work => { x with cmds := w.cmds, msgs := w.msgs, sync := w.sync, late := w.late }) hw
  · exact congrArg (fun x : Slice => { x with
      fences := (w.slice n).fences, stale := (w.slice n).stale, watches := (w.slice n).watches,
      remoteWaits := (w.slice n).remoteWaits, watchDrops := (w.slice n).watchDrops }) (hl n)
  · have hf := congrArg Slice.fences (hl n)
    have ht := congrArg Slice.stale (hl n)
    exact ⟨hf, ht⟩

theorem writeFor_stand (e : Block) (s : Option Nat) (dev : Bool) (a : Nat) (data : List Byte) (why : Purpose) (w : Work) :
    FencesStand w (writeFor e s dev a data why w) := issue_stand e s _ w

theorem dropWatchRecord_stand (s : Nat) (irq : Bool) (w : Work) : FencesStand w (dropWatchRecord s irq w) := by
  have h : FencesStand w (w.updSlice s fun x => { x with watchDrops := x.watchDrops + 1 }) :=
    fencesStand_updSlice w s _ fun _ => ⟨rfl, rfl, rfl⟩
  unfold dropWatchRecord
  split
  · exact fencesStand_trans h (fencesStand_fab _ _)
  · exact h

theorem writeWatchRecord_stand (e : Block) (s : Nat) (x : Watch) (st : Status) (v : BitVec 64) (w : Work) :
    FencesStand w (writeWatchRecord e s x st v w) := by
  unfold writeWatchRecord writeWatchAt
  split
  · exact fencesStand_refl w
  · simp only []
    split
    · exact dropWatchRecord_stand _ _ w
    · exact writeFor_stand _ _ _ _ _ _ w

theorem removeWatch_stand (s wid : Nat) (w : Work) : FencesStand w (removeWatch s wid w) :=
  fencesStand_updSlice w s _ fun _ => ⟨rfl, rfl, rfl⟩

theorem fireWatch_stand (e : Block) (s : Nat) (x : Watch) (st : Status) (v : BitVec 64) (w : Work) :
    FencesStand w (fireWatch e s x st v w) := by
  unfold fireWatch
  split
  · exact fencesStand_updSlice w s _ fun _ => ⟨rfl, rfl, rfl⟩
  · exact fencesStand_trans (removeWatch_stand s x.wid w) (writeWatchRecord_stand _ _ _ _ _ _)

theorem foldl_stand {α : Type} (f : Work → α → Work) (h : ∀ w x, FencesStand w (f w x)) (l : List α) (w : Work) :
    FencesStand w (l.foldl f w) := by
  induction l generalizing w with
  | nil => exact fencesStand_refl w
  | cons x l ih => exact fencesStand_trans (h w x) (ih _)

theorem foldl_stand_from {α : Type} (f : Work → α → Work) (h : ∀ w x, FencesStand w (f w x)) (l : List α) {a w : Work}
    (hw : FencesStand a w) : FencesStand a (l.foldl f w) := fencesStand_trans hw (foldl_stand f h l w)

theorem sendIf_stand (p : Prop) [Decidable p] (e : Block) (d s t : Nat) (st : Option Status) (v : BitVec 64) (w : Work) :
    FencesStand w (if p then sendFence e d s t st v w else w) := by
  split
  · exact sendMsg_stand _ _ _
  · exact fencesStand_refl w

/-- What follows a change of a fence leaves the fences. -/
theorem fenceChanged_stand (e : Block) (done : Bool) (s i : Nat) (old : Fence) (w : Work) :
    FencesStand w (fenceChanged e done s i old w) := by
  unfold fenceChanged
  refine fencesStand_trans (foldl_stand_from _ ?_ _ (foldl_stand _ ?_ _ w)) (fencesStand_cmds _ _)
  · intro w x
    split
    · exact fencesStand_refl w
    · split
      · refine fencesStand_trans (fencesStand_updSlice w s _ ?_) (sendMsg_stand _ _ _)
        exact fun _ => ⟨rfl, rfl, rfl⟩
      · exact fencesStand_refl w
  · intro w x
    split
    · exact fencesStand_refl w
    · split
      · exact fencesStand_trans (sendIf_stand _ _ _ _ _ _ _ _) (sendIf_stand _ _ _ _ _ _ _ _)
      · split
        · exact fireWatch_stand _ _ _ _ _ _
        · exact fencesStand_refl w

/-- What becomes of a fence stands over changes that leave the fences. -/
theorem fenceBecomes_stand {w a b : Work} {s i : Nat} {f : Fence} {stale : Bool} (h : FenceBecomes w s i f stale a)
    (g : FencesStand a b) : FenceBecomes w s i f stale b := by
  obtain ⟨b1, b2, b3, b4, b5⟩ := h
  obtain ⟨⟨⟨g1, g2⟩, g4⟩, g3⟩ := g
  refine ⟨?_, fun n j h => ?_, fun n => ?_, ⟨?_, fun n => ?_⟩, g4 ▸ b5⟩
  · exact (congrArg (fun x : Tbl Fence => tblGet ({} : Fence) x i) (g3 s).1).trans b1
  · exact (congrArg (fun x : Tbl Fence => tblGet ({} : Fence) x j) (g3 n).1).trans (b2 n j h)
  · exact (g3 n).2.trans (b3 n)
  · exact (congrArg (fun x : Work => { x with
      fab := w.fab, slices := w.slices, cmds := w.cmds, msgs := w.msgs, sync := w.sync, late := w.late }) g1).trans b4.1
  · exact (congrArg (fun x : Slice => { x with
      fences := (w.slice n).fences, stale := (w.slice n).stale, watches := (w.slice n).watches,
      remoteWaits := (w.slice n).remoteWaits, watchDrops := (w.slice n).watchDrops, hostLog := (w.slice n).hostLog,
      devLog := (w.slice n).devLog }) (g2 n)).trans (b4.2 n)

/-- Everything that putting the outcome of a fence operation in place does, but for what waits for the end of the cycle. -/
theorem putOutcome_becomes (e : Block) (done : Bool) (s i : Nat) (o : FenceOut) (w : Work) :
    FenceBecomes w s i o.fence o.stale (putOutcome e done s i o w) ∧ (putOutcome e done s i o w).late = w.late := by
  have base : FenceBecomes w s i o.fence o.stale (w.updSlice s fun x =>
      { x with fences := tblSet {} x.fences i o.fence, stale := if o.stale then x.stale + 1 else x.stale }) := by
    refine ⟨?_, fun n j h => ?_, fun n => ?_, ⟨rfl, fun n => ?_⟩, .inl rfl⟩
    · simp [Work.fence]
    · by_cases hn : n = s
      · subst hn
        have hj : j ≠ i := fun h' => h ⟨rfl, h'⟩
        simp [Work.fence, tblGet_tblSet_other _ _ _ _ _ hj]
      · simp [Work.fence, slice_updSlice_other _ _ _ _ hn]
    · by_cases hn : n = s
      · subst hn; rw [slice_updSlice]; cases o.stale <;> simp
      · rw [slice_updSlice_other _ _ _ _ hn]; simp [hn]
    · by_cases hn : n = s
      · subst hn; rw [slice_updSlice]
      · rw [slice_updSlice_other _ _ _ _ hn]
  unfold putOutcome
  simp only []
  split
  · exact ⟨base, rfl⟩
  · exact ⟨fenceBecomes_stand base (fenceChanged_stand _ _ _ _ _ _), (fenceChanged_stand _ _ _ _ _ _).1.2⟩

/-- Everything that a signal or an add of a fence does. -/
theorem putFence_becomes (e : Block) (s i : Nat) (o : FenceOut) (w : Work) :
    FenceBecomes w s i o.fence o.stale (putFence e s i o w) := by
  obtain ⟨⟨h1, h2, h3, h4, _⟩, h6⟩ := putOutcome_becomes e false s i o w
  unfold putFence
  simp only []
  split
  · exact ⟨h1, h2, h3, h4, .inr (by rw [Work.later_late, h6])⟩
  · exact ⟨h1, h2, h3, h4, .inl h6⟩

/-- Everything that the error mark of a fence does (R303). -/
theorem applyMark_becomes (e : Block) (s i : Nat) (st : Status) (t : Option (BitVec 64)) (w : Work) :
    let m := (w.fence s i).mark st (t.getD ((w.fence s i).value + 1))
    FenceBecomes w s i m.1 m.2 (applyMark e s i st t w) ∧ (applyMark e s i st t w).late = w.late := putOutcome_becomes _ _ _ _ _ _

end Sys2Proof.Machine
end

