-- ==== Sys2Proof/Laws/Late.lean ====
section
/-! SUPPORT. What the end of a control cycle can do, for proofs that cite it: nothing where nothing was left for it, and one decision
where one was. -/

namespace Sys2Proof.Laws

open Sys2Proof.Machine

variable {b : Block}

/-- A rank for which nothing was left decides nothing. -/
theorem decideRank_none {k : Nat} (h : ∀ x ∈ b.work.late, x.rank ≠ k) : decideRank b k = b := by
  have h1 : b.work.late.filter (fun x => x.rank == k) = [] := by simpa [List.filter_eq_nil_iff] using h
  have h2 : b.work.late.filter (fun x => x.rank != k) = b.work.late := by simpa [List.filter_eq_self] using h
  simp [decideRank, h1, h2, Block.updWork, List.isort]

/-- A rank with one decision left takes it, on the block without it. -/
theorem decideRank_one {k : Nat} {x : Late} (h : b.work.late.filter (fun y => y.rank == k) = [x]) :
    decideRank b k = decideLate (b.updWork fun w => { w with late := w.late.filter fun y => y.rank != k }) x := by
  simp [decideRank, h, List.isort, List.insertBy]

end Sys2Proof.Laws
end

