-- ==== Sys2Proof/Laws/Local.lean ====
section
/-! SUPPORT. The local memories of the joiner cores: every write keeps their canonical form, a read after a write gives what was
written, and a write leaves every other byte alone. -/

namespace Sys2Proof.Machine

/-- Writing bytes one after another keeps the canonical form. -/
theorem writeBytes_wf (k : Nat) (d : List (Byte × Nat)) (t : Tbl Byte) (h : tblWf 0 t = true) :
    tblWf 0 (d.foldl (fun m p => tblSet 0 m (k + p.2) p.1) t) = true := by
  induction d generalizing t with
  | nil => exact h
  | cons x d ih => exact ih _ (tblWf_tblSet _ _ _ _ h)

/-- A write of local memory keeps the canonical form of the memories. -/
theorem localWrite_wf (k a : Nat) (d : List Byte) (w : Work) (h : tblWf 0 w.jnr.mem = true) :
    tblWf 0 (localWrite k a d w).jnr.mem = true := writeBytes_wf _ _ _ h

/-- What `bytes` written from place `n` leave at place `j`. -/
theorem writeBytes_get (k n j : Nat) (d : List Byte) (t : Tbl Byte) :
    tblGet 0 ((d.zipIdx n).foldl (fun m p => tblSet 0 m (k + p.2) p.1) t) (k + j) =
      if n ≤ j ∧ j < n + d.length then d.getD (j - n) 0 else tblGet 0 t (k + j) := by
  induction d generalizing n t with
  | nil => simp
  | cons x d ih =>
    simp only [List.zipIdx_cons, List.foldl_cons, ih, List.length_cons]
    by_cases hj : j = n
    · subst hj
      simp
    · have hne : k + j ≠ k + n := by omega
      rw [tblGet_tblSet_other _ _ _ _ _ hne]
      by_cases h : n + 1 ≤ j ∧ j < n + 1 + d.length
      · have h' : n ≤ j ∧ j < n + (d.length + 1) := by omega
        have hs : j - n = (j - (n + 1)) + 1 := by omega
        rw [if_pos h, if_pos h', hs, List.getD_cons_succ]
      · have h' : ¬(n ≤ j ∧ j < n + (d.length + 1)) := by omega
        rw [if_neg h, if_neg h']

/-- One byte of a core's local memory after a write to it. -/
theorem localWrite_get (k a j : Nat) (d : List Byte) (w : Work) :
    tblGet 0 (localWrite k a d w).jnr.mem (k * 2 ^ 18 + a + j) =
      if j < d.length then d.getD j 0 else tblGet 0 w.jnr.mem (k * 2 ^ 18 + a + j) := by
  have h := writeBytes_get (k * 2 ^ 18 + a) 0 j d w.jnr.mem
  simp only [Nat.zero_le, true_and, Nat.zero_add, Nat.sub_zero] at h
  exact h

/-- A read of the bytes just written gives them. -/
theorem localRead_localWrite (k a : Nat) (d : List Byte) (w : Work) : localRead (localWrite k a d w) k a d.length = d := by
  apply List.ext_getElem
  · simp [localRead]
  · intro i h1 h2
    have hi : i < d.length := h2
    simp only [localRead, List.getElem_map, List.getElem_range, localWrite_get, hi, if_true]
    simp [hi]

end Sys2Proof.Machine
end

