-- ==== Sys2Proof/Laws/Requests.lean ====
section
/-! SUPPORT. Field by field, what issuing a request and sending a message leave as it was. -/

namespace Sys2Proof.Machine

section
variable (w : Work) (e : Block) (s : Option Nat)

@[simp] theorem issue_queues (r : Req) : (issue e s r w).queues = w.queues := by
  have h := congrArg Work.queues (issue_work e s r w)
  exact h
@[simp] theorem issue_admin (r : Req) : (issue e s r w).admin = w.admin := by
  have h := congrArg Work.admin (issue_work e s r w)
  exact h
@[simp] theorem issue_sync (r : Req) : (issue e s r w).sync = w.sync := by
  have h := congrArg Work.sync (issue_work e s r w)
  exact h
@[simp] theorem issue_cmds (r : Req) : (issue e s r w).cmds = w.cmds := by
  have h := congrArg Work.cmds (issue_work e s r w)
  exact h
@[simp] theorem issue_nextId (r : Req) : (issue e s r w).nextId = w.nextId := by
  have h := congrArg Work.nextId (issue_work e s r w)
  exact h
@[simp] theorem issue_runs (r : Req) : (issue e s r w).runs = w.runs := by
  have h := congrArg Work.runs (issue_work e s r w)
  exact h
@[simp] theorem issue_objs (r : Req) : (issue e s r w).objs = w.objs := by
  have h := congrArg Work.objs (issue_work e s r w)
  exact h
@[simp] theorem issue_streamFree (r : Req) : (issue e s r w).streamFree = w.streamFree := by
  have h := congrArg Work.streamFree (issue_work e s r w)
  exact h
@[simp] theorem issue_tableUp (r : Req) : (issue e s r w).tableUp = w.tableUp := by
  have h := congrArg Work.tableUp (issue_work e s r w)
  exact h
@[simp] theorem issue_tableBase (r : Req) : (issue e s r w).tableBase = w.tableBase := by
  have h := congrArg Work.tableBase (issue_work e s r w)
  exact h
@[simp] theorem issue_tableEntries (r : Req) : (issue e s r w).tableEntries = w.tableEntries := by
  have h := congrArg Work.tableEntries (issue_work e s r w)
  exact h
@[simp] theorem issue_objHits (r : Req) : (issue e s r w).objHits = w.objHits := by
  have h := congrArg Work.objHits (issue_work e s r w)
  exact h
@[simp] theorem issue_objMisses (r : Req) : (issue e s r w).objMisses = w.objMisses := by
  have h := congrArg Work.objMisses (issue_work e s r w)
  exact h
@[simp] theorem issue_slots (r : Req) : (issue e s r w).slots = w.slots := by
  have h := congrArg Work.slots (issue_work e s r w)
  exact h
@[simp] theorem issue_lends (r : Req) : (issue e s r w).lends = w.lends := by
  have h := congrArg Work.lends (issue_work e s r w)
  exact h
@[simp] theorem issue_rr (r : Req) : (issue e s r w).rr = w.rr := by
  have h := congrArg Work.rr (issue_work e s r w)
  exact h
@[simp] theorem issue_tiles (r : Req) : (issue e s r w).tiles = w.tiles := by
  have h := congrArg Work.tiles (issue_work e s r w)
  exact h
@[simp] theorem issue_nextOrder (r : Req) : (issue e s r w).nextOrder = w.nextOrder := by
  have h := congrArg Work.nextOrder (issue_work e s r w)
  exact h
@[simp] theorem issue_ports (r : Req) : (issue e s r w).ports = w.ports := by
  have h := congrArg Work.ports (issue_work e s r w)
  exact h
@[simp] theorem issue_pln (r : Req) : (issue e s r w).pln = w.pln := by
  have h := congrArg Work.pln (issue_work e s r w)
  exact h
@[simp] theorem issue_jnr (r : Req) : (issue e s r w).jnr = w.jnr := by
  have h := congrArg Work.jnr (issue_work e s r w)
  exact h
@[simp] theorem issue_cap (r : Req) : (issue e s r w).cap = w.cap := by
  have h := congrArg Work.cap (issue_work e s r w)
  exact h
@[simp] theorem issue_msgs (r : Req) : (issue e s r w).msgs = w.msgs := by
  have h := congrArg Work.msgs (issue_work e s r w)
  exact h
@[simp] theorem issue_fenced (r : Req) : (issue e s r w).fenced = w.fenced := by
  have h := congrArg Work.fenced (issue_work e s r w)
  exact h
@[simp] theorem issue_barEnds (r : Req) : (issue e s r w).barEnds = w.barEnds := by
  have h := congrArg Work.barEnds (issue_work e s r w)
  exact h
@[simp] theorem issue_fresh (r : Req) : (issue e s r w).fresh = w.fresh := by
  have h := congrArg Work.fresh (issue_work e s r w)
  exact h
@[simp] theorem issue_streamUp (r : Req) : (issue e s r w).streamUp = w.streamUp := by
  have h := congrArg Work.streamUp (issue_work e s r w)
  exact h
@[simp] theorem issue_streamCached (r : Req) : (issue e s r w).streamCached = w.streamCached := by
  have h := congrArg Work.streamCached (issue_work e s r w)
  exact h
@[simp] theorem issue_fillLeft (r : Req) : (issue e s r w).fillLeft = w.fillLeft := by
  have h := congrArg Work.fillLeft (issue_work e s r w)
  exact h
@[simp] theorem issue_copyLast (r : Req) : (issue e s r w).copyLast = w.copyLast := by
  have h := congrArg Work.copyLast (issue_work e s r w)
  exact h
@[simp] theorem issue_sw (r : Req) : (issue e s r w).sw = w.sw := by
  have h := congrArg Work.sw (issue_work e s r w)
  exact h
@[simp] theorem issue_setNow (r : Req) : (issue e s r w).setNow = w.setNow := by
  have h := congrArg Work.setNow (issue_work e s r w)
  exact h
@[simp] theorem issue_late (r : Req) : (issue e s r w).late = w.late := by
  have h := congrArg Work.late (issue_work e s r w)
  exact h

@[simp] theorem readFor_queues (dev : Bool) (a len : Nat) (why : Purpose) :
    (readFor e s dev a len why w).queues = w.queues := issue_queues w e s _
@[simp] theorem readFor_admin (dev : Bool) (a len : Nat) (why : Purpose) :
    (readFor e s dev a len why w).admin = w.admin := issue_admin w e s _
@[simp] theorem readFor_sync (dev : Bool) (a len : Nat) (why : Purpose) :
    (readFor e s dev a len why w).sync = w.sync := issue_sync w e s _
@[simp] theorem readFor_cmds (dev : Bool) (a len : Nat) (why : Purpose) :
    (readFor e s dev a len why w).cmds = w.cmds := issue_cmds w e s _
@[simp] theorem readFor_nextId (dev : Bool) (a len : Nat) (why : Purpose) :
    (readFor e s dev a len why w).nextId = w.nextId := issue_nextId w e s _
@[simp] theorem readFor_runs (dev : Bool) (a len : Nat) (why : Purpose) :
    (readFor e s dev a len why w).runs = w.runs := issue_runs w e s _
@[simp] theorem readFor_objs (dev : Bool) (a len : Nat) (why : Purpose) :
    (readFor e s dev a len why w).objs = w.objs := issue_objs w e s _
@[simp] theorem readFor_streamFree (dev : Bool) (a len : Nat) (why : Purpose) :
    (readFor e s dev a len why w).streamFree = w.streamFree := issue_streamFree w e s _
@[simp] theorem readFor_tableUp (dev : Bool) (a len : Nat) (why : Purpose) :
    (readFor e s dev a len why w).tableUp = w.tableUp := issue_tableUp w e s _
@[simp] theorem readFor_tableBase (dev : Bool) (a len : Nat) (why : Purpose) :
    (readFor e s dev a len why w).tableBase = w.tableBase := issue_tableBase w e s _
@[simp] theorem readFor_tableEntries (dev : Bool) (a len : Nat) (why : Purpose) :
    (readFor e s dev a len why w).tableEntries = w.tableEntries := issue_tableEntries w e s _
@[simp] theorem readFor_objHits (dev : Bool) (a len : Nat) (why : Purpose) :
    (readFor e s dev a len why w).objHits = w.objHits := issue_objHits w e s _
@[simp] theorem readFor_objMisses (dev : Bool) (a len : Nat) (why : Purpose) :
    (readFor e s dev a len why w).objMisses = w.objMisses := issue_objMisses w e s _
@[simp] theorem readFor_slots (dev : Bool) (a len : Nat) (why : Purpose) :
    (readFor e s dev a len why w).slots = w.slots := issue_slots w e s _
@[simp] theorem readFor_lends (dev : Bool) (a len : Nat) (why : Purpose) :
    (readFor e s dev a len why w).lends = w.lends := issue_lends w e s _
@[simp] theorem readFor_rr (dev : Bool) (a len : Nat) (why : Purpose) :
    (readFor e s dev a len why w).rr = w.rr := issue_rr w e s _
@[simp] theorem readFor_tiles (dev : Bool) (a len : Nat) (why : Purpose) :
    (readFor e s dev a len why w).tiles = w.tiles := issue_tiles w e s _
@[simp] theorem readFor_nextOrder (dev : Bool) (a len : Nat) (why : Purpose) :
    (readFor e s dev a len why w).nextOrder = w.nextOrder := issue_nextOrder w e s _
@[simp] theorem readFor_ports (dev : Bool) (a len : Nat) (why : Purpose) :
    (readFor e s dev a len why w).ports = w.ports := issue_ports w e s _
@[simp] theorem readFor_pln (dev : Bool) (a len : Nat) (why : Purpose) :
    (readFor e s dev a len why w).pln = w.pln := issue_pln w e s _
@[simp] theorem readFor_jnr (dev : Bool) (a len : Nat) (why : Purpose) :
    (readFor e s dev a len why w).jnr = w.jnr := issue_jnr w e s _
@[simp] theorem readFor_cap (dev : Bool) (a len : Nat) (why : Purpose) :
    (readFor e s dev a len why w).cap = w.cap := issue_cap w e s _
@[simp] theorem readFor_msgs (dev : Bool) (a len : Nat) (why : Purpose) :
    (readFor e s dev a len why w).msgs = w.msgs := issue_msgs w e s _
@[simp] theorem readFor_fenced (dev : Bool) (a len : Nat) (why : Purpose) :
    (readFor e s dev a len why w).fenced = w.fenced := issue_fenced w e s _
@[simp] theorem readFor_barEnds (dev : Bool) (a len : Nat) (why : Purpose) :
    (readFor e s dev a len why w).barEnds = w.barEnds := issue_barEnds w e s _
@[simp] theorem readFor_fresh (dev : Bool) (a len : Nat) (why : Purpose) :
    (readFor e s dev a len why w).fresh = w.fresh := issue_fresh w e s _
@[simp] theorem readFor_streamUp (dev : Bool) (a len : Nat) (why : Purpose) :
    (readFor e s dev a len why w).streamUp = w.streamUp := issue_streamUp w e s _
@[simp] theorem readFor_streamCached (dev : Bool) (a len : Nat) (why : Purpose) :
    (readFor e s dev a len why w).streamCached = w.streamCached := issue_streamCached w e s _
@[simp] theorem readFor_fillLeft (dev : Bool) (a len : Nat) (why : Purpose) :
    (readFor e s dev a len why w).fillLeft = w.fillLeft := issue_fillLeft w e s _
@[simp] theorem readFor_copyLast (dev : Bool) (a len : Nat) (why : Purpose) :
    (readFor e s dev a len why w).copyLast = w.copyLast := issue_copyLast w e s _
@[simp] theorem readFor_sw (dev : Bool) (a len : Nat) (why : Purpose) :
    (readFor e s dev a len why w).sw = w.sw := issue_sw w e s _
@[simp] theorem readFor_setNow (dev : Bool) (a len : Nat) (why : Purpose) :
    (readFor e s dev a len why w).setNow = w.setNow := issue_setNow w e s _
@[simp] theorem readFor_late (dev : Bool) (a len : Nat) (why : Purpose) :
    (readFor e s dev a len why w).late = w.late := issue_late w e s _
@[simp] theorem readFor_cmd (dev : Bool) (a len : Nat) (why : Purpose) (id : Nat) :
    (readFor e s dev a len why w).cmd id = w.cmd id := cmd_congr (issue_cmds w e s _) id

@[simp] theorem writeFor_queues (dev : Bool) (a : Nat) (data : List Byte) (why : Purpose) :
    (writeFor e s dev a data why w).queues = w.queues := issue_queues w e s _
@[simp] theorem writeFor_admin (dev : Bool) (a : Nat) (data : List Byte) (why : Purpose) :
    (writeFor e s dev a data why w).admin = w.admin := issue_admin w e s _
@[simp] theorem writeFor_sync (dev : Bool) (a : Nat) (data : List Byte) (why : Purpose) :
    (writeFor e s dev a data why w).sync = w.sync := issue_sync w e s _
@[simp] theorem writeFor_cmds (dev : Bool) (a : Nat) (data : List Byte) (why : Purpose) :
    (writeFor e s dev a data why w).cmds = w.cmds := issue_cmds w e s _
@[simp] theorem writeFor_nextId (dev : Bool) (a : Nat) (data : List Byte) (why : Purpose) :
    (writeFor e s dev a data why w).nextId = w.nextId := issue_nextId w e s _
@[simp] theorem writeFor_runs (dev : Bool) (a : Nat) (data : List Byte) (why : Purpose) :
    (writeFor e s dev a data why w).runs = w.runs := issue_runs w e s _
@[simp] theorem writeFor_objs (dev : Bool) (a : Nat) (data : List Byte) (why : Purpose) :
    (writeFor e s dev a data why w).objs = w.objs := issue_objs w e s _
@[simp] theorem writeFor_streamFree (dev : Bool) (a : Nat) (data : List Byte) (why : Purpose) :
    (writeFor e s dev a data why w).streamFree = w.streamFree := issue_streamFree w e s _
@[simp] theorem writeFor_tableUp (dev : Bool) (a : Nat) (data : List Byte) (why : Purpose) :
    (writeFor e s dev a data why w).tableUp = w.tableUp := issue_tableUp w e s _
@[simp] theorem writeFor_tableBase (dev : Bool) (a : Nat) (data : List Byte) (why : Purpose) :
    (writeFor e s dev a data why w).tableBase = w.tableBase := issue_tableBase w e s _
@[simp] theorem writeFor_tableEntries (dev : Bool) (a : Nat) (data : List Byte) (why : Purpose) :
    (writeFor e s dev a data why w).tableEntries = w.tableEntries := issue_tableEntries w e s _
@[simp] theorem writeFor_objHits (dev : Bool) (a : Nat) (data : List Byte) (why : Purpose) :
    (writeFor e s dev a data why w).objHits = w.objHits := issue_objHits w e s _
@[simp] theorem writeFor_objMisses (dev : Bool) (a : Nat) (data : List Byte) (why : Purpose) :
    (writeFor e s dev a data why w).objMisses = w.objMisses := issue_objMisses w e s _
@[simp] theorem writeFor_slots (dev : Bool) (a : Nat) (data : List Byte) (why : Purpose) :
    (writeFor e s dev a data why w).slots = w.slots := issue_slots w e s _
@[simp] theorem writeFor_lends (dev : Bool) (a : Nat) (data : List Byte) (why : Purpose) :
    (writeFor e s dev a data why w).lends = w.lends := issue_lends w e s _
@[simp] theorem writeFor_rr (dev : Bool) (a : Nat) (data : List Byte) (why : Purpose) :
    (writeFor e s dev a data why w).rr = w.rr := issue_rr w e s _
@[simp] theorem writeFor_tiles (dev : Bool) (a : Nat) (data : List Byte) (why : Purpose) :
    (writeFor e s dev a data why w).tiles = w.tiles := issue_tiles w e s _
@[simp] theorem writeFor_nextOrder (dev : Bool) (a : Nat) (data : List Byte) (why : Purpose) :
    (writeFor e s dev a data why w).nextOrder = w.nextOrder := issue_nextOrder w e s _
@[simp] theorem writeFor_ports (dev : Bool) (a : Nat) (data : List Byte) (why : Purpose) :
    (writeFor e s dev a data why w).ports = w.ports := issue_ports w e s _
@[simp] theorem writeFor_pln (dev : Bool) (a : Nat) (data : List Byte) (why : Purpose) :
    (writeFor e s dev a data why w).pln = w.pln := issue_pln w e s _
@[simp] theorem writeFor_jnr (dev : Bool) (a : Nat) (data : List Byte) (why : Purpose) :
    (writeFor e s dev a data why w).jnr = w.jnr := issue_jnr w e s _
@[simp] theorem writeFor_cap (dev : Bool) (a : Nat) (data : List Byte) (why : Purpose) :
    (writeFor e s dev a data why w).cap = w.cap := issue_cap w e s _
@[simp] theorem writeFor_msgs (dev : Bool) (a : Nat) (data : List Byte) (why : Purpose) :
    (writeFor e s dev a data why w).msgs = w.msgs := issue_msgs w e s _
@[simp] theorem writeFor_fenced (dev : Bool) (a : Nat) (data : List Byte) (why : Purpose) :
    (writeFor e s dev a data why w).fenced = w.fenced := issue_fenced w e s _
@[simp] theorem writeFor_barEnds (dev : Bool) (a : Nat) (data : List Byte) (why : Purpose) :
    (writeFor e s dev a data why w).barEnds = w.barEnds := issue_barEnds w e s _
@[simp] theorem writeFor_fresh (dev : Bool) (a : Nat) (data : List Byte) (why : Purpose) :
    (writeFor e s dev a data why w).fresh = w.fresh := issue_fresh w e s _
@[simp] theorem writeFor_streamUp (dev : Bool) (a : Nat) (data : List Byte) (why : Purpose) :
    (writeFor e s dev a data why w).streamUp = w.streamUp := issue_streamUp w e s _
@[simp] theorem writeFor_streamCached (dev : Bool) (a : Nat) (data : List Byte) (why : Purpose) :
    (writeFor e s dev a data why w).streamCached = w.streamCached := issue_streamCached w e s _
@[simp] theorem writeFor_fillLeft (dev : Bool) (a : Nat) (data : List Byte) (why : Purpose) :
    (writeFor e s dev a data why w).fillLeft = w.fillLeft := issue_fillLeft w e s _
@[simp] theorem writeFor_copyLast (dev : Bool) (a : Nat) (data : List Byte) (why : Purpose) :
    (writeFor e s dev a data why w).copyLast = w.copyLast := issue_copyLast w e s _
@[simp] theorem writeFor_sw (dev : Bool) (a : Nat) (data : List Byte) (why : Purpose) :
    (writeFor e s dev a data why w).sw = w.sw := issue_sw w e s _
@[simp] theorem writeFor_setNow (dev : Bool) (a : Nat) (data : List Byte) (why : Purpose) :
    (writeFor e s dev a data why w).setNow = w.setNow := issue_setNow w e s _
@[simp] theorem writeFor_late (dev : Bool) (a : Nat) (data : List Byte) (why : Purpose) :
    (writeFor e s dev a data why w).late = w.late := issue_late w e s _
@[simp] theorem writeFor_cmd (dev : Bool) (a : Nat) (data : List Byte) (why : Purpose) (id : Nat) :
    (writeFor e s dev a data why w).cmd id = w.cmd id := cmd_congr (issue_cmds w e s _) id

@[simp] theorem sendMsg_fab (m : Msg) : (sendMsg e m w).fab = w.fab := by
  unfold sendMsg
  repeat' split
  all_goals rfl
@[simp] theorem sendMsg_slices (m : Msg) : (sendMsg e m w).slices = w.slices := by
  unfold sendMsg
  repeat' split
  all_goals rfl
@[simp] theorem sendMsg_queues (m : Msg) : (sendMsg e m w).queues = w.queues := by
  unfold sendMsg
  repeat' split
  all_goals rfl
@[simp] theorem sendMsg_admin (m : Msg) : (sendMsg e m w).admin = w.admin := by
  unfold sendMsg
  repeat' split
  all_goals rfl
@[simp] theorem sendMsg_sync (m : Msg) : (sendMsg e m w).sync = w.sync := by
  unfold sendMsg
  repeat' split
  all_goals rfl
@[simp] theorem sendMsg_cmds (m : Msg) : (sendMsg e m w).cmds = w.cmds := by
  unfold sendMsg
  repeat' split
  all_goals rfl
@[simp] theorem sendMsg_nextId (m : Msg) : (sendMsg e m w).nextId = w.nextId := by
  unfold sendMsg
  repeat' split
  all_goals rfl
@[simp] theorem sendMsg_runs (m : Msg) : (sendMsg e m w).runs = w.runs := by
  unfold sendMsg
  repeat' split
  all_goals rfl
@[simp] theorem sendMsg_objs (m : Msg) : (sendMsg e m w).objs = w.objs := by
  unfold sendMsg
  repeat' split
  all_goals rfl
@[simp] theorem sendMsg_streamFree (m : Msg) : (sendMsg e m w).streamFree = w.streamFree := by
  unfold sendMsg
  repeat' split
  all_goals rfl
@[simp] theorem sendMsg_tableUp (m : Msg) : (sendMsg e m w).tableUp = w.tableUp := by
  unfold sendMsg
  repeat' split
  all_goals rfl
@[simp] theorem sendMsg_tableBase (m : Msg) : (sendMsg e m w).tableBase = w.tableBase := by
  unfold sendMsg
  repeat' split
  all_goals rfl
@[simp] theorem sendMsg_tableEntries (m : Msg) : (sendMsg e m w).tableEntries = w.tableEntries := by
  unfold sendMsg
  repeat' split
  all_goals rfl
@[simp] theorem sendMsg_objHits (m : Msg) : (sendMsg e m w).objHits = w.objHits := by
  unfold sendMsg
  repeat' split
  all_goals rfl
@[simp] theorem sendMsg_objMisses (m : Msg) : (sendMsg e m w).objMisses = w.objMisses := by
  unfold sendMsg
  repeat' split
  all_goals rfl
@[simp] theorem sendMsg_slots (m : Msg) : (sendMsg e m w).slots = w.slots := by
  unfold sendMsg
  repeat' split
  all_goals rfl
@[simp] theorem sendMsg_lends (m : Msg) : (sendMsg e m w).lends = w.lends := by
  unfold sendMsg
  repeat' split
  all_goals rfl
@[simp] theorem sendMsg_rr (m : Msg) : (sendMsg e m w).rr = w.rr := by
  unfold sendMsg
  repeat' split
  all_goals rfl
@[simp] theorem sendMsg_tiles (m : Msg) : (sendMsg e m w).tiles = w.tiles := by
  unfold sendMsg
  repeat' split
  all_goals rfl
@[simp] theorem sendMsg_nextOrder (m : Msg) : (sendMsg e m w).nextOrder = w.nextOrder := by
  unfold sendMsg
  repeat' split
  all_goals rfl
@[simp] theorem sendMsg_ports (m : Msg) : (sendMsg e m w).ports = w.ports := by
  unfold sendMsg
  repeat' split
  all_goals rfl
@[simp] theorem sendMsg_pln (m : Msg) : (sendMsg e m w).pln = w.pln := by
  unfold sendMsg
  repeat' split
  all_goals rfl
@[simp] theorem sendMsg_jnr (m : Msg) : (sendMsg e m w).jnr = w.jnr := by
  unfold sendMsg
  repeat' split
  all_goals rfl
@[simp] theorem sendMsg_cap (m : Msg) : (sendMsg e m w).cap = w.cap := by
  unfold sendMsg
  repeat' split
  all_goals rfl
@[simp] theorem sendMsg_fenced (m : Msg) : (sendMsg e m w).fenced = w.fenced := by
  unfold sendMsg
  repeat' split
  all_goals rfl
@[simp] theorem sendMsg_barEnds (m : Msg) : (sendMsg e m w).barEnds = w.barEnds := by
  unfold sendMsg
  repeat' split
  all_goals rfl
@[simp] theorem sendMsg_fresh (m : Msg) : (sendMsg e m w).fresh = w.fresh := by
  unfold sendMsg
  repeat' split
  all_goals rfl
@[simp] theorem sendMsg_streamUp (m : Msg) : (sendMsg e m w).streamUp = w.streamUp := by
  unfold sendMsg
  repeat' split
  all_goals rfl
@[simp] theorem sendMsg_streamCached (m : Msg) : (sendMsg e m w).streamCached = w.streamCached := by
  unfold sendMsg
  repeat' split
  all_goals rfl
@[simp] theorem sendMsg_fillLeft (m : Msg) : (sendMsg e m w).fillLeft = w.fillLeft := by
  unfold sendMsg
  repeat' split
  all_goals rfl
@[simp] theorem sendMsg_copyLast (m : Msg) : (sendMsg e m w).copyLast = w.copyLast := by
  unfold sendMsg
  repeat' split
  all_goals rfl
@[simp] theorem sendMsg_sw (m : Msg) : (sendMsg e m w).sw = w.sw := by
  unfold sendMsg
  repeat' split
  all_goals rfl
@[simp] theorem sendMsg_setNow (m : Msg) : (sendMsg e m w).setNow = w.setNow := by
  unfold sendMsg
  repeat' split
  all_goals rfl
@[simp] theorem sendMsg_late (m : Msg) : (sendMsg e m w).late = w.late := by
  unfold sendMsg
  repeat' split
  all_goals rfl
@[simp] theorem sendMsg_cmd (m : Msg) (id : Nat) : (sendMsg e m w).cmd id = w.cmd id := cmd_congr (sendMsg_cmds w e m) id
@[simp] theorem sendMsg_slice (m : Msg) (n : Nat) : (sendMsg e m w).slice n = w.slice n := by
  simp only [Work.slice, sendMsg_slices]


end

end Sys2Proof.Machine
end

