-- ==== Sys2Proof/WellFormed.lean ====
section
/-! DEFINITION. The ranges that the spec gives the operands of a command, as a Bool check. An ill-formed command names
no register, queue, port or lane of the block, and its meaning leaves the block as it is. -/

namespace Sys2Proof

/-- A switchable domain that exists (R100): engine ports are numbered 0 to 15. -/
def Domain.wf : Domain → Bool
  | .eng p => decide (p < 16)
  | _ => true

/-- The operands that number a thing of the block lie in the range the spec gives it: slices and queues 0 to 63 (R113,
R121), engine ports 0 to 15 and Tenon ports 0 to 5 (R49), lanes (R23, R404), slots (R276), channels and locks 0 to 63
(R448, R459), joiner cores 0 to 31 (R416), chips 0 to 63 and semaphores of the pool's width.
[DESIGN CHOICE, log entry 1] -/
def Instr.wf : Instr → Bool
  | .sliceEnable s | .sliceDisable s | .sliceDrained s | .pasidRevokeComplete s | .copyRound s => decide (s < 64)
  | .sqDoorbell s q _ | .cqDoorbell s q _ => decide (s < 64) && decide (q < 64)
  | .queueResume s q | .queueRetry s q => decide (s < 64) && decide (q < 64)
  | .fenceSignal s i | .fenceAdd s i | .fenceRead s i | .semRead s i => decide (s < 64) && decide (i < 65536)
  | .mailboxRing _ c _ _ | .mailboxClear _ c _ _ | .mailboxMaskWrite _ c _ _ | .mailboxMsgWrite _ c _ _ => decide (c < 64)
  | .mailboxRingTimeout c b => decide (c < 64) && decide (b < 32)
  | .ping c | .version c | .coreMap c => decide (1 ≤ c) && decide (c ≤ 3)
  | .lockRead _ i | .lockRelease _ i _ | .mbxLockForce i => decide (i < 64)
  | .retrain p | .portDisable p | .wake p | .trainFailed p | .trainRetryTimer p | .latencyRemeasure p
  | .ackSendTimer p | .silenceTimeout p | .cleanBeat p | .wakeWaitTimeout p | .probationNullFrame p => decide (p < 6)
  | .trainBlock p b => decide (p < 6) && decide (b.lane < 2)
  | .pingBlock p _ _ _ _ _ | .linkFrame p _ _ _ _ | .ackBlock p _ _ _ _ _ | .ackTimeout p _ | .resendTimeout p _
  | .transitTimeout p _ | .wakeDetect p _ => decide (p < 6)
  | .rxLockChange p l _ | .blockLockChange p l _ => decide (p < 6) && decide (l < 2)
  | .coreFault k _ | .coreRestartDone k _ => decide (k < 32)
  | .msixMessageSend v => decide (v < 272)
  | .pageRequestResponse g _ | .priTimeout g => decide (g < 512)
  | .siginUpdate s f _ => decide (s < 64) && decide (f < 65536)
  | .expanderUnitDone l | .tableLoad l => decide (l < 96)
  | .tileOffer p | .tileStart p | .tileOfferTimeout p | .preemptKill p | .killAckTimeout p | .tileOverrunHalf p
  | .tileOverrunKill p | .softResetAck p | .softResetTimeout p | .engineIdle p | .hrstWaitTimeout p | .pswAckFall p
  | .retireWaitTimeout p => decide (p < 16)
  | .killAck p _ | .tileDone p _ _ | .engineFault p _ _ _ | .kilnEccError p _ _ _ => decide (p < 16)
  | .resultBeat p _ _ _ d => decide (p < 16) && decide (d.length = 1024)
  | .commitDone l => decide (l < 8)
  | .slotSaveDone k | .slotLoadDone k => decide (k < 48)
  | .joinState b => decide (b.length = 2128)
  | .frameCmdExclude c | .excludeTimeout c => decide (c < 64)
  | .voltageReadback r _ | .voltageTimeout r | .voltageRetryTimer r => decide (r < 2)
  | .pswAck d => d.wf
  | _ => true

end Sys2Proof
end

