-- ==== Sys2Proof/Tests/Slice0.lean ====
section
/-! SUPPORT. Tests on small states: the well-formedness checks, what a command does to a state written out by hand from the spec, and, for
every statement of the certificate, a state and operands that meet what it supposes. -/

namespace Sys2Proof.Tests

open Sys2Proof Sys2Proof.Machine

set_option Elab.async false

/-! ### Small states -/

/-- A block whose start has completed, standalone, with some shared state; slice 0 has a window of 1 GiB and may create streams. -/
def running (w : Work) : Block :=
  { work := w, dct := { vals := [(0x3001, [(0, 2 ^ 30)]), (0x3004, [(0, 4)])] },
    st := { inPor := false, done := true, everDone := true, step := 0xFF, loaded := true, bar0 := true } }

/-- The machine with that block and nothing waiting. -/
def live (w : Work) : State := { core := running w }

/-- A body of 64 bytes: opcode, and bytes in their places. -/
def body (op : Nat) (fields : List (Nat × List Byte)) : List Byte :=
  fields.foldl (fun b p => patchBytes b p.1 p.2) (leBytes 1 op ++ List.replicate 63 0)

/-- Command 1 of queue 0 of slice 0 and context 0, released. -/
def cmdOf (bytes : List Byte) : Cmd :=
  { id := 1, qk := 0, slice := some 0, ctx := 0, sqIndex := 0, span := 1, node := 0xFFFF, bytes := bytes, parent := none, chainPos := none,
    phase := .released, waiting := .none, timer := none, priority := 0, order := 1, relOrder := 1, refs := [], slotTaken := false,
    waitDone := true, sigDone := false, quietEnd := false, badStatus := 0, endStatus := none, suspended := false, tilesDone := [],
    bytesDone := 0, writesLeft := 0, codes := 0, clipped := 0, escs := 0, aux := [], auxNat := 0 }

/-- A command of the admin queue. -/
def adminCmd (bytes : List Byte) : Cmd := { cmdOf bytes with qk := 4096, slice := none }

/-- Slice 0 is ACTIVE with pools of 8 and a PASID, and a command is in flight. -/
def withCmd (c : Cmd) : Work :=
  { cmds := [c], nextId := 2, nextOrder := 2, slices := [(0, {
      state := .active, pasid := 5, fenceCount := 8, semCount := 8, watchCount := 8, freeIdx := [1, 2] })],
    queues := [(0, { state := .active, desc := { sqLog2 := 4, cqLog2 := 4, maxInflight := 8 }, tail := 1, fetch := 1 })] }

/-- The block after a command. -/
def after (i : Instr) (s : State) : Block :=
  match exec i s with
  | .next t => t.core
  | _ => s.core

/-- The block after a command and the end of its control cycle. -/
def cycled (i : Instr) (s : State) : Block := (cycleOver (after i s)).after

/-- The status of the completion record that queue 0 writes after a command. -/
def ended (b : Block) : Option Status := (b.work.queue 0).recBusy.map Rec.status

/-! ### Well-formedness: for each check an ill-formed command that it refuses -/

theorem wf_slices : (Instr.sliceEnable 63).wf = true ∧ (Instr.sliceEnable 64).wf = false ∧ (Instr.copyRound 64).wf = false := by decide
theorem wf_queues : (Instr.sqDoorbell 64 0 0).wf = false ∧ (Instr.cqDoorbell 0 64 0).wf = false ∧ (Instr.queueResume 0 64).wf = false ∧
    (Instr.queueRetry 63 63).wf = true := by decide
theorem wf_sync : (Instr.fenceSignal 64 0).wf = false ∧ (Instr.semRead 0 65536).wf = false ∧ (Instr.siginUpdate 64 0 0).wf = false := by decide
theorem wf_channels : (Instr.mailboxRing 0 64 false 1).wf = false ∧ (Instr.mailboxRingTimeout 0 32).wf = false ∧ (Instr.ping 0).wf = false ∧
    (Instr.version 4).wf = false := by decide
theorem wf_locks : (Instr.lockRead 0 64).wf = false ∧ (Instr.lockRelease 0 64 0).wf = false ∧ (Instr.mbxLockForce 64).wf = false := by decide
theorem wf_links : (Instr.retrain 6).wf = false ∧ (Instr.ackTimeout 6 0).wf = false ∧ (Instr.rxLockChange 0 2 true).wf = false ∧
    (Instr.wakeDetect 6 []).wf = false := by decide
theorem wf_trainBlock : (Instr.trainBlock 0 {
    rev := 0x10, lane := 2, port := 0, counter := 0, chipValid := true, seen := false, done := false, chip := 0 }).wf = false := by decide
theorem wf_cores : (Instr.coreFault 32 .machineTrap).wf = false ∧ (Instr.coreRestartDone 32 true).wf = false := by decide
theorem wf_function : (Instr.msixMessageSend 272).wf = false ∧ (Instr.priTimeout 512).wf = false ∧ (Instr.pageRequestResponse 512 0).wf = false := by decide
theorem wf_ports : (Instr.tileOffer 16).wf = false ∧ (Instr.tileDone 16 0 0).wf = false ∧ (Instr.resultBeat 0 0 0 0 [0]).wf = false := by decide
theorem wf_lanes : (Instr.expanderUnitDone 96).wf = false ∧ (Instr.commitDone 8).wf = false ∧ (Instr.slotSaveDone 48).wf = false := by decide
theorem wf_frame : (Instr.joinState []).wf = false ∧ (Instr.excludeTimeout 64).wf = false := by decide
theorem wf_power : (Instr.voltageTimeout 2).wf = false ∧ (Instr.pswAck (.eng 16)).wf = false ∧ (Instr.pswAck (.eng 15)).wf = true := by decide

/-! ### Commands of the front end (R165, R176, R184, R186) -/

def queueDestroyCmd : Cmd := cmdOf (body 0x41 [(24, [3])])
def withQueue (c : Cmd) (q : Queue) : Work := { withCmd c with queues := (withCmd c).queues ++ [(3, q)] }

theorem witness_QueueAndContextCommands_nop : ∀ c ∈ [cmdOf (body 0x00 [])], (live (withCmd c)).live ∧ Ready (withCmd c) .nop c := by decide
theorem witness_QueueAndContextCommands_create : ∀ c ∈ [cmdOf (body 0x40 [])],
    Ready (withCmd c) .queueCreate c ∧ ((withCmd c).slice (actsOn c)).state = .active ∧ c.slice = some (actsOn c) := by decide
theorem witness_QueueAndContextCommands_createRejected : ∀ c ∈ [adminCmd (body 0x40 [(26, [1])])],
    Ready (withCmd c) .queueCreate c ∧ ((withCmd c).slice (actsOn c)).state ≠ .active := by decide
theorem witness_QueueAndContextCommands_destroy : ∀ w ∈ [withQueue queueDestroyCmd { state := .active, fetch := 2, head := 2 }],
    Ready w .queueDestroy queueDestroyCmd ∧ (w.slice (actsOn queueDestroyCmd)).state = .active ∧
    (w.queue (namedQueue queueDestroyCmd)).state ≠ .absent ∧ namedQueue queueDestroyCmd ≠ queueDestroyCmd.qk ∧
    (w.queue (namedQueue queueDestroyCmd)).fetch = (w.queue (namedQueue queueDestroyCmd)).head ∧
    (w.queue (namedQueue queueDestroyCmd)).held = [] ∧ (w.queue (namedQueue queueDestroyCmd)).kept = [] ∧
    (w.queue (namedQueue queueDestroyCmd)).closing = false := by decide
theorem witness_QueueAndContextCommands_written : ({ state := .active, fetch := 2, head := 2 } : Queue).written = true ∧
    ({ state := .active, fetch := 2, head := 2, stBusy := true } : Queue).written = false := by decide
theorem witness_QueueAndContextCommands_destroyRejected : Ready (withCmd queueDestroyCmd) .queueDestroy queueDestroyCmd ∧
    ((withCmd queueDestroyCmd).queue (namedQueue queueDestroyCmd)).state = .absent := by decide

def resident7 (c : Cmd) : Work := { withCmd c with slots := [(0, { state := .idle, slice := 0, ctx := 7 })] }

theorem witness_QueueAndContextCommands_load : ∀ c ∈ [cmdOf (body 0x42 [(24, [7])])],
    Ready (withCmd c) .ctxLoad c ∧ (withCmd c).isResident 0 (namedCtx c) = false ∧
    Ready (resident7 c) .ctxLoad c ∧ (resident7 c).isResident 0 (namedCtx c) = true := by decide
theorem witness_QueueAndContextCommands_evict : ∀ c ∈ [cmdOf (body 0x43 [(24, [7])])],
    Ready (resident7 c) .ctxEvict c ∧ (resident7 c).isResident 0 (namedCtx c) = true ∧ namedCtx c ≠ c.ctx ∧
    Ready (withCmd c) .ctxEvict c ∧ (withCmd c).isResident 0 (namedCtx c) = false := by decide

/-- NOP ends with OK (R176); a QUEUE_DESTROY of an absent queue with STATE_REJECT (R186), and one of a queue whose status block is
on its way waits for it (R131). -/
theorem test_nop_and_destroy : ended (after (.nop 1) (live (withCmd (cmdOf (body 0x00 []))))) = some 0 ∧
    ended (after (.queueDestroy 1) (live (withCmd queueDestroyCmd))) = some 0x1001 ∧
    ((after (.queueDestroy 1) (live (withQueue queueDestroyCmd { state := .active, stBusy := true }))).work.queue 3).closing = true := by
  decide

def queryCmd : Cmd := cmdOf (body 0x44 [(24, [7]), (32, [0x40])])

theorem witness_QueryWritesTheRecord :
    Ready (withCmd queryCmd) .query queryCmd ∧ mayIssue (withCmd queryCmd) queryCmd.slice (ptrDev (fieldAt queryCmd.bytes 32 8)) = true ∧
    ((withCmd queryCmd).slice (actsOn queryCmd)).state = .active ∧ (withCmd queryCmd).isResident 0 (namedCtx queryCmd) = false ∧
    Ready (resident7 queryCmd) .query queryCmd ∧ (resident7 queryCmd).isResident (actsOn queryCmd) (namedCtx queryCmd) = true := by decide
theorem witness_QueryWritesTheRecord_off : ∀ c ∈ [adminCmd (body 0x44 [(26, [1]), (32, [0x40])])],
    Ready (withCmd c) .query c ∧ mayIssue (withCmd c) c.slice (ptrDev (fieldAt c.bytes 32 8)) = true ∧
    ((withCmd c).slice (actsOn c)).state = .off := by decide

/-- QUERY of a context that is not resident reads its record, 32 bytes of host memory, with the slice's PASID (R154, R185). -/
theorem test_query_reads : ((after (.query 1) (live (withCmd queryCmd))).work.fab.reqs.map fun r => (r.addr, r.len, r.pasid)) =
    [(448, 32, 5)] := by decide

/-! ### Semaphores and counters (R312 to R321) -/

def semReleaseCmd : Cmd := cmdOf (body 0x11 [(24, [2]), (28, [3])])
def withSem (c : Cmd) (m : Sem) : Work :=
  { withCmd c with slices := [(0, { state := .active, pasid := 5, semCount := 8, watchCount := 8, sems := [(2, m)] })] }

def acquireCmd : Cmd := cmdOf (body 0x10 [(24, [2]), (28, [1])])
theorem witness_SemaphoreUnits_acquire : ∀ m ∈ [({ cap := 5 } : Sem), { cap := 5, abandoned := true }, { cap := 3, holders := [(0, 2)] }],
    Ready (withSem acquireCmd m) .semAcquire acquireCmd ∧
    ((withSem acquireCmd m).sem 0 (semIndex acquireCmd.bytes)).held + semUnits acquireCmd.bytes ≤ m.cap.toNat ∧ m.holders.length < 16 ∧
    ((withSem acquireCmd m).ctx 0 0).stopped = false ∧ (withSem acquireCmd m).cmds = [acquireCmd] ∧
    (withSem acquireCmd m).cap.teardowns = [] := by decide
theorem witness_SemaphoreUnits_release : ∀ w ∈ [withSem semReleaseCmd { cap := 5, holders := [(0, 3)] }, withSem semReleaseCmd { cap := 5, holders := [(0, 4)] }],
    Ready w .semRelease semReleaseCmd ∧ semUnits semReleaseCmd.bytes ≤ (w.sem 0 (semIndex semReleaseCmd.bytes)).holding 0 := by decide
theorem witness_SemaphoreUnits_releaseRejected : ∀ w ∈ [withSem semReleaseCmd { cap := 5, holders := [(0, 2)] }],
    Ready w .semRelease semReleaseCmd ∧ (w.sem 0 (semIndex semReleaseCmd.bytes)).holding 0 < semUnits semReleaseCmd.bytes := by decide
theorem witness_SemaphoreCommands_waits : ∀ c ∈ [acquireCmd, { acquireCmd with slotTaken := true }], ∀ w ∈ [withSem c { cap := 0 }],
    Ready w .semAcquire c ∧ w.cmd 1 = some c ∧
    acquireReady w { c with phase := .running, waiting := .sem, relOrder := w.nextOrder } = false := by decide
/-- The slice has no watch slot. -/
def noSlots (w : Work) : Work := { w with slices := w.slices.map fun p => (p.1, { p.2 with watchCount := 0 }) }
theorem witness_SemaphoreCommands_grant : ∀ c ∈ [{ cmdOf (body 0x10 [(24, [2]), (28, [2])]) with phase := .running, waiting := .sem }],
    ∀ m ∈ [({ cap := 5, holders := [(1, 3)] } : Sem), { cap := 2, abandoned := true }],
      (withSem c m).cmd c.id = some c ∧ acquireFits (withSem c m) c = true ∧ (m.holders.map Prod.fst).Nodup := by decide

/-- An acquire of units that are free ends at once, one that must wait keeps a watch slot, and one that finds none is not released
(R314, R322). -/
theorem test_sem_acquire : ended (after (.semAcquire 1) (live (withSem acquireCmd { cap := 5 }))) = some 0 ∧
    ended (after (.semAcquire 1) (live (withSem acquireCmd { cap := 5, abandoned := true }))) = some 0x3005 ∧
    ((after (.semAcquire 1) (live (withSem acquireCmd { cap := 0 }))).work.cmd 1).map Cmd.slotTaken = some true ∧
    ((after (.commandRelease 1) (live (noSlots (withSem { acquireCmd with phase := .fetched } { cap := 0 })))).work.cmd 1).map Cmd.phase = some .fetched := by
  decide
/-- A release of all that the context holds frees its record (R315). -/
theorem test_sem_release : ((after (.semRelease 1) (live (withSem semReleaseCmd { cap := 5, holders := [(0, 3), (4, 1)] }))).work.sem 0 2) =
    { cap := 5, holders := [(4, 1)] } := by decide

def counterCmd (op value : Nat) : Cmd := cmdOf (body 0x12 [(24, [2]), (26, [1]), (27, leBytes 1 op), (28, leBytes 4 value)])

theorem witness_CounterCommands_semaphore : ∀ p ∈ [((0, 7), 3), ((1, 1), 2 ^ 32 - 1), ((1, 1), 2 ^ 32 - 2), ((2, 3), 3), ((2, 4), 3)],
    counterLater (withSem (counterCmd p.1.1 p.1.2) {}) (counterCmd p.1.1 p.1.2) = false ∧ Ready (withSem (counterCmd p.1.1 p.1.2) { cap := BitVec.ofNat 32 p.2 }) .counterOp (counterCmd p.1.1 p.1.2) ∧
    ((withSem (counterCmd p.1.1 p.1.2) { cap := BitVec.ofNat 32 p.2 }).sem 0 2).cap.toNat = p.2 := by decide

def waitGeCmd : Cmd := cmdOf (body 0x12 [(24, [2]), (27, [3]), (28, [5])])
def withCounter (c : Cmd) (v : BitVec 32) : Work :=
  { withCmd c with slots := [(0, { state := .idle, slice := 0, ctx := 0, counters := [(2, v)] })] }

theorem witness_CounterCommands_waitGe : Ready (withCounter waitGeCmd 5) .counterOp waitGeCmd ∧ (withCounter waitGeCmd 5).isResident 0 0 = true ∧
    counterValue waitGeCmd ≤ (counterOf (withCounter waitGeCmd 5) waitGeCmd).toNat ∧ Ready (withCounter waitGeCmd 4) .counterOp waitGeCmd ∧
    (counterOf (withCounter waitGeCmd 4) waitGeCmd).toNat < counterValue waitGeCmd := by decide
/-- A COUNTER_OP SET of counter 2, released while its context held slot 0 in its third load. -/
def setCmd : Cmd := { cmdOf (body 0x12 [(24, [2]), (28, [5])]) with relSlot := some (0, 3, 4) }
def loadedThrice (load : Nat) : Work :=
  { withCmd setCmd with slots := [(0, { state := .idle, slice := 0, ctx := 0, load := load, counters := [(2, 4)] })] }
theorem witness_CounterCommands_local : ∀ w ∈ [loadedThrice 3], Ready w .counterOp setCmd ∧ w.residentSlot 0 setCmd.ctx = some 0 ∧
    fieldAt setCmd.bytes 26 1 = 0 ∧ fieldAt setCmd.bytes 27 1 = 0 ∧ setCmd.relSlot = some (0, (w.slot 0).load, 4) ∧
    (tblGet 0 (w.slot 0).counters 2).toNat = 4 ∧ counterLater w setCmd = false ∧ ((loadedThrice 4).slot 0).load ≠ 3 := by decide
theorem test_counter_left : ((after (.counterOpSet 1) (live (loadedThrice 4))).work.slot 0).counters = [(2, 4)] ∧
    ((after (.counterOpSet 1) (live (loadedThrice 3))).work.slot 0).counters = [(2, 5)] := by decide

/-- ADD past the largest value saturates and says so; SUB past 0 stops at 0 (R319). -/
theorem test_counter_saturates :
    (∀ b ∈ [after (.counterOpAdd 1) (live (withSem (counterCmd 1 1) { cap := 0xFFFFFFFF }))], (b.work.sem 0 2).cap = 0xFFFFFFFF ∧ ended b = some 0x3006) ∧
    ((after (.counterOpSub 1) (live (withSem (counterCmd 2 4) { cap := 3 }))).work.sem 0 2).cap = 0 := by decide

/-! ### Fences (R300 to R309, R343, R496) -/

def withFence (f : Fence) : Work :=
  { slices := [(0, { state := .active, fenceCount := 8, semCount := 8, watchCount := 8, fences := [(7, f)] })], sync := { opValue := 3 } }

theorem witness_SyncRegisterOperations_pool :
    (live (withFence {})).live ∧ ((withFence {}).slice 0).state ≠ .off ∧ 7 < ((withFence {}).slice 0).fenceCount ∧
    7 < ((withFence {}).slice 0).semCount ∧ ((withFence {}).slice 1).state = .off ∧ ((withFence {}).slice 0).fenceCount ≤ 8 ∧
    ((withFence {}).slice 0).semCount ≤ 8 := by decide
theorem witness_SyncRegisterOperations_add : (withFence {}).sync.opValue ≠ 0 ∧ ({ withFence {} with sync := {} } : Work).sync.opValue = 0 ∧
    ((withFence { value := 5 }).fence 0 7).value.toNat + (withFence {}).sync.opValue.toNat ≤ 2 ^ 64 - 2 ∧
    2 ^ 64 - 2 < ((withFence { value := 0xFFFFFFFFFFFFFFFC }).fence 0 7).value.toNat + (withFence {}).sync.opValue.toNat := by decide
theorem witness_SyncRegisterOperations_sigin : ∀ c ∈ (withCmd (cmdOf (body 0x00 []))).cmds,
    awaitsSigin (withCmd (cmdOf (body 0x00 []))) c 0 7 3 = false := by decide

/-- A signal raises VALUE and clears an error range that it has reached; a lower one is stale (R302, R305). -/
theorem test_fence_signal :
    ((after (.fenceSignal 0 7) (live (withFence { value := 1, err := 0x2001, errTop := 3 }))).work.fence 0 7) = { value := 3 } ∧
    ((after (.fenceSignal 0 7) (live (withFence { value := 9 }))).work.slice 0).stale = 1 := by decide

/-- SIGIN of a slice that is OFF is dropped and counted (R309). -/
theorem test_sigin_dropped : (after (.siginUpdate 1 7 3) (live (withFence {}))).work.sync.dropped = 1 := by decide

/-! ### Watches (R322 to R333, R497) -/

def watchCmd (forward flags chip : Nat) : Cmd :=
  cmdOf (body 0x13 [(24, [7]), (26, leBytes 1 forward), (27, leBytes 1 flags), (28, leBytes 1 chip), (32, [3]), (40, [0x80]), (52, [9])])
def withWatch (c : Cmd) (ws : List Watch) (f : Fence) : Work :=
  { withCmd c with slices := [(0, {
      state := .active, pasid := 5, fenceCount := 8, semCount := 8, watchCount := 2, watches := ws, fences := [(7, f)] })] }
def watch9 : Watch := watchOf (watchCmd 0 0 0)
/-- Chip 0 of a frame of two chips with chip 1 behind port 0, which is UP. -/
def framed (w : Work) : Block :=
  { running w with
    frm := { state := .manager, admitted := 3 }
    dct := { vals := [(0x5010, [(0, 0)]), (0x5011, [(0, 3)]), (0x5013, [(0, 0x201), (1, 0x200)])] }
    lnk := { ports := [(0, { state := .up, nbrValid := true, nbrChip := 1 })] } }
def onFrame (w : Work) : State := { core := framed w }

theorem witness_WatchCommands_duplicate : Ready (withWatch (watchCmd 0 0 0) [watch9] {}) .watchAdd (watchCmd 0 0 0) ∧
    ∃ y ∈ ((withWatch (watchCmd 0 0 0) [watch9] {}).slice 0).watches, y.wid = (watchOf (watchCmd 0 0 0)).wid := by decide
theorem witness_WatchCommands_full : ∀ w ∈ [withWatch (watchCmd 0 0 0) [{ watch9 with wid := 1 }, { watch9 with wid := 2 }] {}],
    Ready w .watchAdd (watchCmd 0 0 0) ∧ (∀ y ∈ (w.slice 0).watches, y.wid ≠ 9) ∧ slotFree w 0 = false := by decide
theorem witness_WatchCommands_local : Ready (withWatch (watchCmd 0 0 0) [] {}) .watchAdd (watchCmd 0 0 0) ∧
    slotFree (withWatch (watchCmd 0 0 0) [] {}) 0 = true ∧ watch9.forward = false ∧ watch9.remote = false ∧
    (∀ e ∈ [({} : Fence), { err := 0x2001, errTop := 3 }], ((withWatch (watchCmd 0 0 0) [] e).fence 0 7).value < watch9.value) ∧
    watch9.value ≤ ((withWatch (watchCmd 0 0 0) [] { value := 3 }).fence 0 7).value ∧ watch9.ptr ≠ 0 := by decide
theorem witness_WatchCommands_reachable : (onFrame (withWatch (watchCmd 1 0 1) [] {})).live ∧
    (watchOf (watchCmd 1 0 1)).forward = true ∧ (watchOf (watchCmd 0 2 1)).remote = true ∧
    (framed (withWatch (watchCmd 1 0 1) [] {})).frm.joined = true ∧ reachable (framed (withWatch (watchCmd 1 0 1) [] {})) 1 = true ∧
    reachable (framed {}) 2 = false ∧ (running {}).frm.joined = false := by decide

def cancelCmd : Cmd := cmdOf (body 0x14 [(52, [9])])

theorem witness_WatchCommands_cancel : Ready (withWatch cancelCmd [watch9] {}) .watchCancel cancelCmd ∧
    (∃ y ∈ ((withWatch cancelCmd [watch9] {}).slice 0).watches, y.wid = fieldAt cancelCmd.bytes 52 2) ∧
    (∀ y ∈ ((withWatch cancelCmd [watch9] {}).slice 0).watches, y.fired = none) ∧
    ∀ y ∈ ((withWatch cancelCmd [] {}).slice 0).watches, y.wid ≠ fieldAt cancelCmd.bytes 52 2 := by decide

/-- A watch that finds its fence resolved writes its record at once; a cancelled one is gone (R326, R327, R333). -/
theorem test_watches :
    ((after (.watchAdd 1) (live (withWatch (watchCmd 0 0 0) [] { value := 3 }))).work.fab.reqs.map Req.len).contains 32 = true ∧
    ((after (.watchCancel 1) (live (withWatch cancelCmd [watch9] {}))).work.slice 0).watches = [] := by decide

/-- A message of a type from chip 1 for slice 0, received on port 0 (R489). -/
def msg (typ : BitVec 8) (payload : List Byte) : Nat × Nat × Msg :=
  (0, 0, { typ := typ, bcast := false, dest := 0, src := 1, hops := 1, slice := 0, bseq := 0, payload := bytesAt payload 0 24 })
def withMsg (m : Nat × Nat × Msg) (w : Work) : Work := { w with msgs := { inbox := [m] } }
def fenceMsg (err : Nat) (v : Nat) : Nat × Nat × Msg :=
  msg 0x10 (leBytes 2 7 ++ leBytes 1 err ++ leBytes 1 0 ++ leBytes 2 0x2001 ++ leBytes 2 0 ++ leBytes 8 v)

theorem witness_FenceAndWatchMessages_fence : ∀ x ∈ [fenceMsg 0 3, fenceMsg 1 3],
    (withMsg x (withFence {})).msgs.inbox.find? (fun y => y.2.2.typ == 0x10) = some x ∧ x.2.2.field 8 2 = 7 ∧
    ((x.2.2.field 10 1).testBit 0 = true ↔ x = fenceMsg 1 3) := by decide
theorem witness_FenceAndWatchMessages_register : ∀ x ∈ [msg 0x11 (leBytes 2 7 ++ leBytes 2 9 ++ leBytes 4 0 ++ leBytes 8 3)],
    (withMsg x (withFence {})).msgs.inbox.find? (fun y => y.2.2.typ == 0x11) = some x ∧ x.2.2.field 8 2 < 8 ∧
    slotFree (withFence {}) 0 = true ∧ ((withFence { err := 0x2001, errTop := 3 }).fence 0 7).value < 3 ∧
    ((withFence {}).fence 0 7).value < 3 ∧ 3 ≤ ((withFence { value := 4 }).fence 0 7).value := by decide
theorem witness_FenceAndWatchMessages_notify : ∀ x ∈ [msg 0x12 (leBytes 2 9 ++ leBytes 2 0 ++ leBytes 4 0 ++ leBytes 8 3)],
    ∀ y ∈ [watchOf (watchCmd 0 2 1)], ∀ w ∈ [withMsg x (withWatch cancelCmd [y] {})],
      w.msgs.inbox.find? (fun z => z.2.2.typ == 0x12) = some x ∧ remoteWatch w 0 (x.2.2.field 8 2) x.2.2.src.toNat = some y ∧ y.ptr ≠ 0 := by
  decide
def remote9 : RemoteWait := { src := 1, wid := 9, fence := 7, value := 3 }
theorem witness_FenceAndWatchMessages_drop : ∀ x ∈ [msg 0x13 (leBytes 2 9)],
    ∀ w ∈ [withMsg x { slices := [(0, { state := .active, remoteWaits := [remote9] })] }],
      w.msgs.inbox.find? (fun z => z.2.2.typ == 0x13) = some x ∧ remote9 ∈ (w.slice 0).remoteWaits ∧ remote9.src = x.2.2.src.toNat ∧
      remote9.wid = x.2.2.field 8 2 := by decide

/-- A FENCE message that carries an error marks the fence up to its target, at the end of its cycle (R303, R307, R496). -/
theorem test_fence_message : ((cycled .fenceMessage (live (withMsg (fenceMsg 1 3) (withFence {})))).work.fence 0 7) =
    { value := 0, err := 0x2001, errTop := 3 } := by decide +kernel

/-! ### Objects and streams (R219 to R257) -/

def objCreateCmd : Cmd := cmdOf (body 0x30 [(24, [0x00, 0x01]), (32, [0x40]), (40, [0x80]), (48, [5])])
def noIndex (w : Work) : Work := { w with slices := w.slices.map fun p => (p.1, { p.2 with freeIdx := [] }) }
def objFreeCmd : Cmd := cmdOf (body 0x31 [(24, [1, 0, 0, 1])])
def withObj (c : Cmd) (o : Obj) : Work := { withCmd c with objs := [(1, o)] }

theorem witness_ObjectCommands_create : Ready (withCmd objCreateCmd) .objCreate objCreateCmd ∧
    ((withCmd objCreateCmd).slice 0).freeIdx = 1 :: [2] ∧ Ready (noIndex (withCmd objCreateCmd)) .objCreate objCreateCmd ∧
    ((noIndex (withCmd objCreateCmd)).slice 0).freeIdx = [] := by decide
theorem witness_ObjectCommands_free : ∀ r ∈ [0, 2], ∀ w ∈ [withObj objFreeCmd { live := true, refs := r, size := 64 }],
    Ready w .objFree objFreeCmd ∧ handleLive w 0 (fieldAt objFreeCmd.bytes 24 4) = true ∧ (w.obj 1).refs = r ∧
    (w.obj (hIndex (fieldAt objFreeCmd.bytes 24 4))).stream = false ∧
    handleLive (withCmd objFreeCmd) 0 (fieldAt objFreeCmd.bytes 24 4) = false := by decide

/-- OBJ_CREATE makes the object of the first free index live and charges its size; OBJ_FREE takes it back and raises GEN
(R225, R237). -/
theorem test_objects :
    (∀ b ∈ [after (.objCreate 1) (live (withCmd objCreateCmd))], (b.work.obj 1).live = true ∧ (b.work.obj 1).size = 64 ∧
      (b.work.ctx 0 0).memBytes = 64 ∧ (b.work.slice 0).freeIdx = [2]) ∧
    (∀ b ∈ [cycled (.objFree 1) (live (withObj objFreeCmd { live := true, size := 64 }))], (b.work.obj 1).live = false ∧
      (b.work.obj 1).gen = 2 ∧ (b.work.slice 0).freeIdx = [1, 2, 1]) := by decide +kernel

def streamCreateCmd : Cmd := cmdOf (body 0x32 [(24, [0x01, 0x01]), (32, [0x40]), (40, [0x80]), (50, [3])])
def withDescs (c : Cmd) : Work := { withCmd c with streamFree := [4, 5] }

theorem witness_StreamCommands_create : Ready (withDescs streamCreateCmd) .streamCreate streamCreateCmd ∧
    ((withDescs streamCreateCmd).slice 0).freeIdx = 1 :: [2] ∧ (withDescs streamCreateCmd).streamFree = 4 :: [5] ∧
    liveStreams (withDescs streamCreateCmd) 0 < (running {}).dct.streamQuota 0 ∧ (running {}).dct.posMirror 0 = 0 ∧
    ((noIndex (withDescs streamCreateCmd)).slice 0).freeIdx = [] ∧ (withCmd streamCreateCmd).streamFree = [] := by decide

def mapCmd (ix : Nat) : Cmd := cmdOf (body 0x34 [(24, [1, 0, 0, 1]), (28, leBytes 4 ix), (32, [0])])
def stream : Obj := { live := true, stream := true, size := 4096, tpp := 3, dev := true, pages := [65536, 131072] }

theorem witness_StreamCommands_map : ∀ ix ∈ [0, 2], Ready (withObj (mapCmd ix) stream) .streamMap (mapCmd ix) ∧
    mapOk (running {}).dct 0 ((withObj (mapCmd ix) stream).obj 1) (mapCmd ix).bytes = true ∧ mapPages (mapCmd ix).bytes = [] ∧
    mapOk (running {}).dct 0 ((withObj (mapCmd 3) stream).obj 1) (mapCmd 3).bytes = false := by decide

def advanceCmd (delta list : Nat) : Cmd :=
  cmdOf (body 0x33 [(24, [1, 0, 0, 1]), (28, leBytes 4 delta), (32, [1]), (40, leBytes 8 list)])

theorem witness_StreamAdvancing : ∀ d ∈ [1, 16, 17, 2 ^ 31], Ready (withObj (advanceCmd d 0) stream) .streamAdvance (advanceCmd d 0) ∧
    fieldAt (advanceCmd d 0).bytes 40 8 = 0 ∧ fieldAt (advanceCmd d 0).bytes 28 4 = d ∧ stream.pages.length * 2 ^ stream.tpp = 16 ∧
    Ready (withObj (advanceCmd d 0x40) stream) .streamAdvance (advanceCmd d 0x40) ∧ fieldAt (advanceCmd d 0x40).bytes 40 8 ≠ 0 := by decide

/-- STREAM_ADVANCE moves TOK within the mapped pages, faults at the stream limit and leaves TOK past the pages (R253, R254). -/
theorem test_advance :
    ((after (.streamAdvance 1) (live (withObj (advanceCmd 16 0) stream))).work.obj 1).tok = 16 ∧
    ((after (.streamAdvance 1) (live (withObj (advanceCmd 17 0) stream))).work.obj 1).tok = 0 ∧
    ended (after (.streamAdvance 1) (live (withObj (advanceCmd 17 0) stream))) = some 0x1004 ∧
    ((after (.streamAdvance 1) (live (withObj (advanceCmd 1 0) { stream with tok := 2 ^ 32 - 2 }))).work.obj 1).faulted = true := by decide

/-! ### Graphs (R187 to R202), release (R166, R171) and table entries (R227) -/

def graphCmd (op g : Nat) : Cmd := { cmdOf (body op [(24, leBytes 8 (if op < 0x22 then 0x40 else g)), (32, leBytes 1 (if op < 0x22 then g else 0))]) with order := 3 }
def withGraph (c : Cmd) (image : List Byte) : Work :=
  { withCmd c with slices := [(0, { state := .active, pasid := 5, graphs := [{ gid := 3, image := image, loading := false }] })] }

theorem witness_GraphCommands_read : Ready (withCmd (graphCmd 0x20 0)) .graph (graphCmd 0x20 0) ∧
    Ready (withCmd (graphCmd 0x21 3)) .graphLoad (graphCmd 0x21 3) ∧ resident (withCmd (graphCmd 0x21 3)) 0 3 = none ∧
    fieldAt (graphCmd 0x21 3).bytes 32 1 = 3 ∧ resident (withGraph (graphCmd 0x21 3) []) 0 3 ≠ none ∧
    loadReleased (withCmd (graphCmd 0x21 3)) 0 3 (graphCmd 0x21 3) = false := by decide
theorem witness_GraphCommands_unload : ∀ w ∈ [withGraph (graphCmd 0x23 3) []], Ready w .graphUnload (graphCmd 0x23 3) ∧
    notItsTurn w 0 (graphCmd 0x23 3) = false ∧ resident w 0 3 = some { gid := 3, image := [], loading := false } ∧
    resident (withCmd (graphCmd 0x23 3)) 0 3 = none ∧ loadReleased (withCmd (graphCmd 0x23 3)) 0 3 (graphCmd 0x23 3) = false ∧
    (graphCmd 0x23 3).waiting ≠ .turn := by decide

def relaunchCmd (ptr count : Nat) : Cmd :=
  { cmdOf (body 0x22 [(24, [3]), (26, leBytes 2 count), (32, leBytes 8 ptr)]) with order := 3 }
/-- Before it in its queue stands another RELAUNCH of the same graph. -/
def queuedBehind (c : Cmd) : Work :=
  { withGraph c [] with cmds := [{ relaunchCmd 0 0 with id := 0, order := 2, phase := .running }, c] }

theorem witness_GraphCommands_relaunch : Ready (withGraph (relaunchCmd 0x40 2) []) .relaunch (relaunchCmd 0x40 2) ∧
    notItsTurn (withGraph (relaunchCmd 0x40 2) []) 0 (relaunchCmd 0x40 2) = false ∧ fieldAt (relaunchCmd 0x40 2).bytes 26 2 = 2 ∧
    Ready (withGraph (relaunchCmd 0 0) []) .relaunch (relaunchCmd 0 0) ∧ fieldAt (relaunchCmd 0 0).bytes 26 2 = 0 ∧
    packetDecl [] = [] ∧ patchOk [] (bytesAt (relaunchCmd 0 1).bytes 64 16) = false := by decide
theorem witness_GraphCommands_held : Ready (queuedBehind (relaunchCmd 0 0)) .relaunch (relaunchCmd 0 0) ∧
    notItsTurn (queuedBehind (relaunchCmd 0 0)) 0 (relaunchCmd 0 0) = true ∧
    Ready (queuedBehind (graphCmd 0x23 3)) .graphUnload (graphCmd 0x23 3) ∧
    notItsTurn (queuedBehind (graphCmd 0x23 3)) 0 (graphCmd 0x23 3) = true ∧
    resident (queuedBehind (graphCmd 0x23 3)) 0 3 = some { gid := 3, image := [], loading := false } := by decide
/-- A GRAPH_LOAD of the same graph, fetched and released before it, has not begun to read. -/
def loadsFirst (c : Cmd) : Work := { withCmd c with cmds := [{ graphCmd 0x21 3 with id := 0, order := 2, relOrder := 0 }, c] }
theorem witness_GraphCommands_loads : ∀ c ∈ [graphCmd 0x23 3, relaunchCmd 0 0], resident (loadsFirst c) 0 3 = none ∧
    loadReleased (loadsFirst c) 0 3 c = true ∧ (loadsFirst c).cmd 1 = some c ∧
    resident { withCmd c with slices := [(0, { state := .active, graphs := [{ gid := 3, image := [], loading := true }] })] } 0 3 =
      some { gid := 3, image := [], loading := true } := by decide
theorem witness_GraphCommands_loadsLate : ∀ c ∈ [graphCmd 0x21 3], Ready (loadsFirst c) .graphLoad c ∧ loadReleased (loadsFirst c) 0 3 c = true := by decide

/-- GRAPH_UNLOAD frees the copy (R200). -/
theorem test_unload : ((after (.graphUnload 1) (live (withGraph (graphCmd 0x23 3) []))).work.slice 0).graphs = [] := by decide

def fetchedCmd (flags : Nat) : Cmd :=
  { cmdOf (body 0x00 [(1, leBytes 1 flags), (4, [7]), (16, [3])]) with phase := .fetched, waitDone := false }
def withSlot (c : Cmd) : Work := { withCmd c with slots := [(0, { state := .runnable, slice := 0, ctx := 0 })] }

theorem witness_ReleaseOfCommands_free : ∀ w ∈ [withSlot (fetchedCmd 0)], w.cmd 1 = some (fetchedCmd 0) ∧ (fetchedCmd 0).waiting ≠ .table ∧
    heldByOrder w (fetchedCmd 0) = false ∧ cWait (fetchedCmd 0).bytes = false ∧ w.isResident 0 0 = true ∧ (w.ctx 0 0).stopped = false ∧
    sliceInReset w 0 = false ∧ (running w).dct.cmdLimit 0 = 0 ∧ needsSlot w (fetchedCmd 0) = false ∧
    (w.slice 0).state = .active := by decide
theorem witness_ReleaseOfCommands_waits : ∀ c ∈ [{ acquireCmd with phase := .fetched }], ∀ w ∈ [withSlot c], w.cmd 1 = some c ∧
    heldByOrder w c = false ∧ cWait c.bytes = false ∧ needsSlot w c = true ∧ slotFree w 0 = true ∧ slotFree (noSlots w) 0 = false ∧
    needsSlot (noSlots w) c = true ∧ heldByOrder (noSlots w) c = false := by decide
/-- An acquire that finds its units, and a WAIT_GE whose counter is high enough, need no watch slot. -/
theorem witness_ReleaseOfCommands_atOnce : (∀ c ∈ [{ acquireCmd with phase := .fetched, waitDone := false }], ∀ w ∈ [{ withSem c { cap := 5 } with
      slots := [(0, { state := .runnable, slice := 0, ctx := 0 })] }], w.cmd 1 = some c ∧ needsSlot w c = false ∧ c.op = some .semAcquire ∧
      cWait c.bytes = false ∧ heldByOrder w c = false) ∧
    ∀ c ∈ [{ waitGeCmd with phase := .fetched, waitDone := false }], ∀ w ∈ [withCounter c 5], w.cmd 1 = some c ∧ needsSlot w c = false ∧
      c.op = some .counterOp ∧ fieldAt c.bytes 27 1 = 3 ∧ heldByOrder w c = false ∧ w.isResident 0 0 = true := by decide
/-- Its wait is open, and nothing it depends on waits for it. -/
theorem witness_ReleaseOfCommands_open : ∀ w ∈ [{ withSlot (fetchedCmd 8) with slices := [(0, { state := .active, fenceCount := 8, watchCount := 8 })] }],
    cWait (fetchedCmd 8).bytes = true ∧ (w.fence 0 (cWaitFence (fetchedCmd 8).bytes)).resolve (cWaitValue (fetchedCmd 8).bytes) = none ∧
    (fetchedCmd 8).slotTaken = false ∧ slotFree w 0 = true ∧
    deadlockWalk (w.updCmd 1 fun d => { d with slotTaken := true }) 0 (fetchedCmd 8).entity (cWaitFence (fetchedCmd 8).bytes) 8 256 = none := by
  decide
theorem witness_ReleaseOfCommands_limited : ∀ d ∈ [({ taken := [(0x3013, [(0, 10)])] } : Dict)], ∀ x ∈ [({ state := .active, lvlCmd := 1 } : Slice)],
    d.cmdLimit 0 ≠ 0 ∧ 0 < x.lvlCmd := by decide
theorem witness_ReleaseOfCommands_failedWait : ∀ w ∈ [{ withSlot (fetchedCmd 8) with slices := [(0, {
      state := .active, fenceCount := 8, fences := [(7, { err := 0x2001, errTop := 3 })] })] }],
    cWait (fetchedCmd 8).bytes = true ∧ (fetchedCmd 8).waitDone = false ∧ w.cmd 1 = some (fetchedCmd 8) ∧
    (w.fence 0 (cWaitFence (fetchedCmd 8).bytes)).resolve (cWaitValue (fetchedCmd 8).bytes) = some 0x2001 := by decide

/-- A released command takes the next place in the order of release (R171). -/
theorem test_release : ((after (.commandRelease 1) (live (withSlot (fetchedCmd 0)))).work.cmd 1).map (fun c => (c.phase, c.relOrder)) =
    some (.released, 2) := by decide

def entryReq : Req := { newReq .read true 0 64 [] (.objEntry 1) with answer := some (St.ok, []) }
theorem witness_ReleaseOfCommands_entry : ∀ w ∈ [{ withCmd (cmdOf (body 0x00 [])) with fab := { reqs := [entryReq] } }],
    w.fab.reqs.find? (fun q => q.why == .objEntry 1) = some entryReq ∧ entryReq.answer = some (St.ok, []) ∧
    ∀ c ∈ w.cmds, needsEntry w c 1 = false := by decide
theorem test_entry : entryCached (after (.objEntryLoad 1) (live { fab := { reqs := [entryReq] } })).work 1 = true := by decide

/-! ### Engines and barriers (R171, R176, R180, R421, R535) -/

def moveCmd (op : Nat) : Cmd := cmdOf (body op [])
def withJoiner (c : Cmd) : Work := { withCmd c with jnr := { state := .running, cores := [(0, { up := true })] } }
def withPort (x : Port) (w : Work) : Work := { w with ports := [(2, x)] }
def port2 : Port := { present := true, state := .inService, kilnMib := 64, idle := true }

theorem witness_EngineAndBarrierCommands_move : Ready (withCmd (moveCmd 0x02)) .copy (moveCmd 0x02) ∧
    Ready (withCmd (moveCmd 0x03)) .fill (moveCmd 0x03) ∧ Ready (withJoiner (moveCmd 0x04)) .tidy (moveCmd 0x04) ∧
    jnrRuns (withJoiner (moveCmd 0x04)) = true ∧ jnrRuns (withCmd (moveCmd 0x04)) = false := by decide
theorem witness_EngineAndBarrierCommands_exec : Ready (withPort port2 (withCmd (moveCmd 0x01))) .exec (moveCmd 0x01) ∧
    ((withPort port2 {}).port 2).present = true ∧ ((withPort port2 {}).port 2).state ≠ .retired ∧
    execReleaseOk (running {}).dct (withPort port2 (withCmd (moveCmd 0x01))) (moveCmd 0x01).bytes = true ∧
    execReleaseOk (running {}).dct (withPort { port2 with kilnMib := 0, state := .hardReset } (withCmd (moveCmd 0x01))) (moveCmd 0x01).bytes = false := by decide
theorem witness_EngineAndBarrierCommands_noPort : ∀ p, p < 16 →
    ((withPort { port2 with state := .retired } {}).port p).present = true → ((withPort { port2 with state := .retired } {}).port p).state = .retired := by
  decide

/-- EXEC with no matrix port left is rejected; COPY goes to its engine (R176). -/
theorem test_engines : ended (after (.execTiles 1) (live (withCmd (moveCmd 0x01)))) = some 0x1001 ∧
    ((after (.copy 1) (live (withCmd (moveCmd 0x02)))).work.cmd 1).map Cmd.phase = some .running := by decide

def arriveCmd (gen : Nat) : Cmd := cmdOf (body 0x18 [(24, [4]), (26, [2]), (32, leBytes 8 gen)])
/-- Barrier 4 is owned by slice 0. -/
def barrierBlock (c : Cmd) (x : Barrier) : Block :=
  { framed (withCmd c) with
    frm := { state := .member, admitted := 3, barriers := [(4, x)] }
    dct := { vals := [(0x5010, [(0, 1)]), (0x5011, [(0, 3)]), (0x5013, [(0, 0x201), (1, 0x200)]), (0x5019, [(4, 0)])] } }

theorem witness_EngineAndBarrierCommands_arrive : ∀ b ∈ [barrierBlock (arriveCmd 6) { last := 5 }],
    b.still = false ∧ Ready b.work .barrierArrive (arriveCmd 6) ∧ b.frm.joined = true ∧ some (b.dct.barrierOwner 4) = (arriveCmd 6).slice ∧
    fieldAt (arriveCmd 6).bytes 32 8 = (b.bar 4).last.toNat + 1 ∧ (b.bar 4).state ≠ .broken ∧ (b.bar 4).state ≠ .counting ∧
    ((barrierBlock (arriveCmd 6) { last := 5, state := .broken }).bar 4).state = .broken := by decide

/-- A counted arrival waits in its generation, and a second generation is rejected (R535). -/
theorem test_arrive :
    ((after (.barrierArrive 1) { core := barrierBlock (arriveCmd 6) { last := 5 } }).bar 4).loc = 1 ∧
    ended (after (.barrierArrive 1) { core := barrierBlock (arriveCmd 7) { last := 5 } }) = some 0x1001 := by decide

/-! ### Migration and dirty logs (R596 to R616) -/

def sliceCmd (op : Nat) (n : Nat) : Cmd := adminCmd (body op [(24, leBytes 1 n)])
def inState (c : Cmd) (st : SliceSt) : Work := { withCmd c with slices := [(0, { state := st, pasid := 5 })] }

theorem witness_MigrationCommands_freeze : Ready (inState (sliceCmd 0x80 0) .active) .sliceFreeze (sliceCmd 0x80 0) ∧
    ((inState (sliceCmd 0x80 0) .active).slice (bodySlice (sliceCmd 0x80 0).bytes)).state = .active ∧ (sliceCmd 0x80 0).slice = none ∧
    ((inState (sliceCmd 0x80 0) .frozen).slice (bodySlice (sliceCmd 0x80 0).bytes)).state ≠ .active := by decide
theorem witness_MigrationCommands_resume : Ready (inState (sliceCmd 0x81 0) .frozen) .sliceResume (sliceCmd 0x81 0) ∧
    ((inState (sliceCmd 0x81 0) .frozen).slice (bodySlice (sliceCmd 0x81 0).bytes)).state = .frozen := by decide
theorem witness_MigrationCommands_quiescent : ∀ w ∈ [{ withCmd (sliceCmd 0x82 0) with
    slices := [(0, ({ state := .frozen, quiescent := true } : Slice))] }], Ready w .sliceSave (sliceCmd 0x82 0) ∧
    (w.slice (bodySlice (sliceCmd 0x82 0).bytes)).state = .frozen ∧ (w.slice 0).quiescent = true := by decide
theorem witness_MigrationCommands_save : Ready (inState (sliceCmd 0x82 0) .frozen) .sliceSave (sliceCmd 0x82 0) ∧
    ((inState (sliceCmd 0x82 0) .frozen).slice 0).quiescent = false ∧
    Ready (inState (sliceCmd 0x83 0) .off) .sliceRestore (sliceCmd 0x83 0) ∧ ((inState (sliceCmd 0x83 0) .off).slice 0).state = .off := by decide

/-- Freezing and resuming a slice (R605, R608). -/
theorem test_freeze : ((after (.sliceFreeze 1) (live (inState (sliceCmd 0x80 0) .active))).work.slice 0).state = .frozen ∧
    ((after (.sliceResume 1) (live (inState (sliceCmd 0x81 0) .frozen))).work.slice 0).state = .active := by decide

def logCmd (op sel : Nat) : Cmd := adminCmd (body 0x84 [(24, leBytes 1 op), (26, leBytes 1 sel), (40, leBytes 8 32768), (48, leBytes 8 65536)])
def withLog (c : Cmd) (h : Bool) : Work := { withCmd c with slices := [(0, {
  state := .active, pasid := 5, hostLog := { on := h, base := 0, len := 32768, map := 65536, bits := [(0, true)], outside := true } })] }

theorem witness_DirtyLogging : ∀ op ∈ [1, 2, 3], Ready (withLog (logCmd op 1) (op != 1)) .dirtyLog (logCmd op 1) ∧ logOp (logCmd op 1) = op ∧
    logHost (logCmd op 1) = true ∧ logDev (logCmd op 1) = false ∧ ((withLog (logCmd op 1) (op != 1)).slice (logSlice (logCmd op 1))).state ≠ .off ∧
    ((withLog (logCmd op 1) (op != 1)).slice 0).hostLog.on = (op != 1) ∧
    ((withLog (logCmd op 1) (op == 1)).slice 0).hostLog.on = (op == 1) := by decide

/-- A host log of 2^18 bytes, one word of map, whose marks are in the map. -/
def harvested (c : Cmd) (bits : Tbl Bool) : Work := { withCmd c with slices := [(0, {
  state := .active, pasid := 5, hostLog := { on := true, base := 0, len := 2 ^ 18, map := 65536, bits := bits } })] }
theorem witness_DirtyLogging_harvest : ∀ c ∈ [logCmd 2 1], c.writesLeft = 0 ∧ logOp c = 2 ∧
    ((harvested c []).slice (logSlice c)).hostLog.bits = [] ∧ 2 ^ 18 ≤ ((harvested c []).slice 0).hostLog.len ∧
    ((harvested c [(3, true)]).slice 0).hostLog.bits ≠ [] ∧
    ({ c with aux := List.replicate 8 0 } : Cmd).aux.length = ((harvested c []).slice 0).hostLog.len / 32768 := by decide
theorem witness_DirtyLogging_enabled : ∀ c ∈ [{ logCmd 1 1 with writesLeft := 1 }], Ready (withLog c false) .dirtyLog c ∧ logOp c = 1 ∧
    logHost c = true ∧ logDev c = false ∧ c.writesLeft = 1 := by decide

/-- HARVEST puts the marks that the block holds into the map, with an OR of 64 bits (R599, R602); DISABLE stops the log; ENABLE of a
log that is on is rejected (R598, R603). -/
theorem test_logs : ((after (.dirtyLogHarvest 1) (live (withLog (logCmd 2 1) true))).work.slice 0).hostLog.bits = [] ∧
    (after (.dirtyLogHarvest 1) (live (withLog (logCmd 2 1) true))).work.fab.reqs.map (fun r => (r.addr, r.amo, r.data)) = [(65536, 3, leBytes 8 1)] ∧
    ((after (.dirtyLogDisable 1) (live (withLog (logCmd 3 1) true))).work.slice 0).hostLog.on = false ∧
    ((after (.dirtyLogEnable 1) (live (withLog (logCmd 1 1) true))).work.cmd 1).isNone = true := by decide

/-! ### Captures (R583 to R595) and slices (R116 to R119) -/

def captureCmd : Cmd := adminCmd (body 0x88 [(24, [0, 0, 1]), (32, [4])])
def withCap (c : Capture) : Work := { withCmd captureCmd with cap := c }
def snap : Snap :=
  { seq := 1, beat := 0, timeNs := 0, trigger := 0x2001, domain := 5, index := 0, rung := 0, slice := 0, ctx := some 0, entry := 0, cycleMap := 0,
    added := 0, suspects := [], late := false, ports := 0, cores := 0, queues := 0, fences := 0, sems := 0, trunc := 0, body := [] }
def event : WaitingEvent := { seq := 2, beat := 0, timeNs := 0, event := { trigger := 0x2001, concern := .block } }

theorem witness_CaptureCommands_set : Ready (withCap {}) .captureSet captureCmd ∧ (withCap {}).cap.busy = none ∧ (withCap {}).cap.waiting = [] ∧
    Ready (withCap { busy := some snap }) .captureSet captureCmd ∧ (withCap { busy := some snap }).cap.busy ≠ none := by decide
theorem witness_CaptureCommands_head : ∀ c ∈ [({ head := 3, tail := 5 } : Capture)], (5 : BitVec 32) - c.head ≤ c.tail - c.head ∧
    c.tail - c.head < (6 : BitVec 32) - c.head := by decide
theorem witness_CaptureCommands_progress : ∀ c ∈ [({ busy := some snap, records := 4, waiting := [event] } : Capture)], c.busy = some snap ∧
    c.written = false ∧ c.open = true ∧ c.waiting = event :: [] ∧ c.blockReset = false := by decide

/-- CAPTURE_SET names the buffer; HEAD past TAIL is discarded (R583, R595). -/
theorem test_capture : (after (.captureSet 1) (live (withCap {}))).work.cap.records = 4 ∧
    (after (.capHeadWrite 6) (live { cap := { head := 3, tail := 5 } })).work.cap.head = 3 ∧
    (after .captureWaitTimeout (live { cap := { waiting := [event] } })).work.cap.dropped = 1 := by decide

def sliceIn (st : SliceSt) : Work := { slices := [(0, { state := st, pasid := 5 })] }

theorem witness_SliceControl_enable : (sliceIn .off).slice 0 = { pasid := 5 } ∧ ((sliceIn .off).slice 0).ctxLog2.toNat ≤ 12 ∧
    tblWf {} (sliceIn .off).slices = true ∧ (∀ k : Nat, k ≠ 0 → ((sliceIn .off).slice k).state ≠ .off → False) := by
  refine ⟨by decide, by decide, by decide, fun k hk h => h ?_⟩
  simp [Work.slice, sliceIn, tblGet, Ne.symm hk]
theorem witness_SliceControl_enableRejected : ∀ w ∈ [({ slices := [(0, { pasid := 5 }), (1, { state := .active, pasid := 5 })] } : Work)],
    (w.slice 1).state ≠ .off ∧ (w.slice 1).pasid = (w.slice 0).pasid ∧ (1, w.slice 1) ∈ w.slices := by decide
theorem witness_SliceControl_disable : ((sliceIn .active).slice 0).state = .active ∧ ((sliceIn .fenced).slice 0).state = .fenced ∧
    ((sliceIn .frozen).slice 0).state = .frozen ∧ saving (sliceIn .frozen) 0 = false ∧ drained (sliceIn .draining) 0 = true ∧
    pasidBusy (sliceIn .draining) 0 = false ∧ drained (sliceIn .active) 0 = false := by decide

/-- ENABLE makes a slice ACTIVE with the pools of the dictionary (R297); an ACTIVE one is rejected (R117). -/
theorem test_enable : ((after (.sliceEnable 0) (live (sliceIn .off))).work.slice 0).state = .active ∧
    ((after (.sliceEnable 0) (live (sliceIn .off))).work.slice 0).fenceCount = 1024 ∧
    ((after (.sliceEnable 0) (live (sliceIn .active))).work.slice 0).ctlStatus = 0x1001 ∧
    ((after (.sliceDrained 0) (live (sliceIn .draining))).work.slice 0).state = .off := by decide

/-! ### Queues (R121 to R152, R215 to R217) -/

def activeSlice (q : Queue) : Work := { slices := [(0, { state := .active, pasid := 5 })], queues := [(3, q)] }
def queue3 : Queue := { state := .active, desc := { sqLog2 := 4, cqLog2 := 4, maxInflight := 8 }, tail := 6, cqTail := 2 }

theorem witness_Doorbells : reaches (activeSlice queue3) 3 = true ∧ latched (activeSlice queue3) 3 = false ∧
    ((16 : BitVec 32) - queue3.tail).toNat ≤ 2 ^ queue3.desc.sqLog2 ∧ ((16 : BitVec 32) - queue3.head).toNat ≤ 2 ^ queue3.desc.sqLog2 ∧
    2 ^ queue3.desc.sqLog2 < ((17 : BitVec 32) - queue3.head).toNat ∧
    ((2 : BitVec 32) - queue3.cqHead).toNat ≤ (queue3.cqTail - queue3.cqHead).toNat ∧
    (queue3.cqTail - queue3.cqHead).toNat < ((3 : BitVec 32) - queue3.cqHead).toNat := by decide
theorem witness_Doorbells_others : reaches (activeSlice queue3) 4 = false ∧
    (∀ w ∈ [{ activeSlice queue3 with slices := [(0, { state := .frozen, pasid := 5 })] }], reaches w 3 = true ∧ latched w 3 = true) ∧
    sliceOf 3 = some 0 ∧ sliceOf 4096 = none := by decide

/-- A doorbell in range moves TAIL; one past the ring raises DOORBELL_RANGE and is counted (R134, R135). -/
theorem test_doorbells : ((after (.sqDoorbell 0 3 16) (live (activeSlice queue3))).work.queue 3).tail = 16 ∧
    ((after (.sqDoorbell 0 3 17) (live (activeSlice queue3))).work.queue 3).dbRefused = 1 ∧
    ((after (.sqDoorbell 0 3 17) (live (activeSlice queue3))).work.slice 0).cause = 2 := by decide

def record : Rec := { sqIndex := 0, node := 0xFFFF, status := 0, fenceValue := 0, fence := 0, context := 0, queue := 3, beatLo := 0 }
def recReq (st : Status) : Req := { newReq .write false 0 32 [] (.record 3 false) with tag := 9, slice := some 0, owner := some 0, answer := some (st, []) }
def recording (irq : Bool) (st : Status) : Work :=
  { activeSlice { queue3 with desc := { queue3.desc with irqEn := irq }, recBusy := some record } with fab := { reqs := [recReq st] } }

theorem witness_CompletionRecords_written : ∀ w ∈ [recording true 0], w.req 9 = some (recReq 0) ∧ (recReq 0).why = .record 3 false ∧
    (w.queue 3).recBusy = some record ∧ (w.queue 3).state = .active ∧ (w.queue 3).due = [] ∧ (w.queue 3).held = [] ∧
    (w.queue 3).kept = [] ∧ (w.queue 3).desc.coalCount ≤ 1 := by decide
theorem witness_CompletionRecords_failed : ∀ w ∈ [recording false 0x2002], w.req 9 = some (recReq 0x2002) ∧ overflowUsed w 3 < 256 ∧
    (0x2002 : Status) ≠ St.ok ∧ (0x2002 : Status) ≠ St.pasidRevoked := by decide
theorem witness_CompletionRecords_held : ∀ q ∈ [({ queue3 with desc := { queue3.desc with irqEn := true, coalBeats := 2 }, sinceBeats := some 2 } : Queue)],
    q.sinceBeats = some 2 ∧ q.desc.irqEn = true ∧ q.desc.coalBeats ≠ 0 ∧ q.desc.coalBeats ≤ 2 ∧
    cachedQueues (activeSlice { queue3 with cached := false, dbPending := true }) < 1024 := by decide

/-- A written record moves CQ_TAIL; one that cannot be written blocks its queue (R124, R147). -/
theorem test_records : ((after (.completionRecordWrite 9) (live (recording false 0))).work.queue 3).cqTail = 3 ∧
    ((after (.completionRecordWrite 9) (live (recording false 0x2002))).work.queue 3).state = .blocked ∧
    ((after (.coalesceTimeout 0 3) (live (activeSlice { queue3 with
      desc := { queue3.desc with irqEn := true, coalBeats := 2 }, sinceBeats := some 2 }))).work.slice 0).cqPend = 8 ∧
    ((after (.queueCacheLoad 0 3) (live (activeSlice { queue3 with cached := false, dbPending := true }))).work.queue 3).loading = true := by decide

def tablePart : Part := { tag := 9, addr := 0, len := 64, off := 0 }
def tableReq : Req := { newReq .read true 0 64 [] (.queueLoad 3) with tag := 9, parts := [tablePart] }
def loadingQueue : Work :=
  { activeSlice { queue3 with cached := false, dbPending := true, loading := true } with fab := { reqs := [tableReq] } }
theorem witness_CompletionRecords_load : loadingQueue.part 9 = some (tableReq, tablePart) ∧ tableReq.why = .queueLoad 3 ∧
    tableReq.parts = [tablePart] ∧ tableReq.dead = false ∧ tablePart.open = true ∧ (loadingQueue.queue 3).loading = true ∧
    (loadingQueue.queue 3).state ≠ .absent := by decide
/-- The table entry that arrives puts the queue into the cache (R137). -/
theorem test_queue_cache : ((after (.memoryResponse 9 0 []) (live loadingQueue)).work.queue 3).cached = true := by decide

theorem witness_QueueControl : ∀ q ∈ [({ queue3 with state := .halted } : Queue)], ∀ r ∈ [({ queue3 with state := .blocked, held := [record] } : Queue)],
    q.state = .halted ∧ q.held = [] ∧ q.kept = [] ∧ q.stFailed = false ∧ ((activeSlice q).slice 0).state = .active ∧
    r.state ≠ .absent ∧ r.held = record :: [] ∧ r.recBusy = none ∧ (r.cqTail - r.cqHead).toNat < 2 ^ r.desc.cqLog2 ∧ r.stFailed = false := by decide
/-- The flags of a context's record are held once they have been read or written. -/
theorem witness_QueueControl_flags : ({} : Ctx).known = false ∧ ({ known := true } : Ctx).known = true := by decide
theorem witness_QueueControl_admin : (live {}).live ∧ ({} : Work).admin.enable = false ∧
    (∀ c ∈ ({ admin := { enable := true } } : Work).cmds, ¬(c.phase = .partBase ∧ c.qk = 4096)) := by decide

/-- RESUME and RETRY return a queue to service (R141, R150); the admin queue reads its descriptor (R215). -/
theorem test_queue_control : ((after (.queueResume 0 3) (live (activeSlice { queue3 with state := .halted }))).work.queue 3).state = .active ∧
    ((after (.queueRetry 0 3) (live (activeSlice { queue3 with state := .blocked, held := [record] }))).work.fab.reqs.map Req.len) = [32] ∧
    ((after .adminQueueEnable (live {})).work.fab.reqs.map fun r => (r.len, r.slice)) = [(64, none)] ∧
    (after .adminQueueDisable (live { admin := { enable := true } })).work.admin.enable = false := by decide

theorem witness_FetchingAndStatus : mayFetch (activeSlice queue3) 3 = true ∧ mayFetch (activeSlice { queue3 with fetch := 6 }) 3 = false ∧
    queue3.state ≠ .absent ∧ ({ queue3 with stDirty := true } : Queue).stDirty = true ∧ queue3.stBusy = false := by decide

def readReq : Req := { newReq .read false 0 64 [] (.sqRead 3 0 1) with tag := 9, slice := some 0, owner := some 0, answer := some (St.ok, body 0xFF []) }
def reading : Work := { activeSlice { queue3 with fetch := 1 } with fab := { reqs := [readReq] }, nextId := 2, nextOrder := 4 }

theorem witness_FetchingAndStatus_entry : reading.req 9 = some readReq ∧ readReq.why = .sqRead 3 0 1 ∧ oldestRead reading 3 0 = true ∧
    (reading.queue 3).skip = 0 ∧ partBaseOf reading 3 = none ∧ cExt (bytesAt (body 0xFF []) 0 64) = 0 := by decide
theorem witness_FetchingAndStatus_bad :
    formOk (running reading) reading { slice := some 0, cls := (reading.queue 3).desc.cls, node := false } (bytesAt (body 0xFF []) 0 64) = false := by
  decide
def readNop : Work := { reading with fab := { reqs := [{ readReq with answer := some (St.ok, body 0x00 []) }] } }
theorem witness_FetchingAndStatus_good : cOp (bytesAt (body 0x00 []) 0 64) = some .nop ∧ handleFields .nop (bytesAt (body 0x00 []) 0 64) = [] ∧
    formOk (running readNop) readNop { slice := some 0, cls := (readNop.queue 3).desc.cls, node := false } (bytesAt (body 0x00 []) 0 64) = true := by
  decide

/-- A fetch takes up to the end of the second window, and the status block goes out as 16 bytes (R136, R142). -/
theorem test_fetch : ((after (.queueFetch 0 3) (live (activeSlice queue3))).work.queue 3).fetch = 6 ∧
    ((after (.statusBlockWrite 0 3) (live (activeSlice { queue3 with stDirty := true }))).work.fab.reqs.map fun r => (r.len, r.data)) =
      [(16, [0, 0, 0, 0, 0, 0, 0, 0, 2, 0, 0, 0, 1, 0, 0, 0])] := by decide
theorem test_good_entry : (after (.entryReadReturn 9) (live readNop)).work.cmds.map (fun c => (c.id, c.phase, c.timer, c.endStatus)) =
    [(2, .fetched, some 250, none)] := by decide
theorem test_bad_entry : ((after (.entryReadReturn 9) (live reading)).work.queue 3).recBusy.map Rec.status = some 0x1002 := by decide

/-! ### The memory port and the function's pins (R59 to R78) -/

def awaited (r : Req) : Work := { activeSlice queue3 with fab := { reqs := [r], bme := true } }
def plainReq : Req := { readReq with parts := [tablePart], answer := none }
def pagingReq : Req := { plainReq with parts := [{ tablePart with paging := true }] }
def pageGroup : PriGroup := { group := 2, tag := 9, slice := 0, burnt := false }
def awaitsPage : Work := { awaited pagingReq with fab := { reqs := [pagingReq], bme := true, groups := [pageGroup] } }

theorem witness_MemoryPort : plainReq.slice = some 0 ∧ plainReq.dev = false ∧ tablePart.paging = false ∧ tablePart.retried = false ∧
    ((awaited plainReq).slice 0).pasidOpen = true ∧ ({ plainReq with slice := none } : Req).slice = none := by decide
theorem witness_MemoryPort_awaits : Awaits (awaited plainReq) plainReq tablePart :=
  ⟨by decide, by decide, by decide, by decide, by decide, by decide, by decide, by decide, Or.inl ⟨3, 0, 1, by decide⟩⟩
theorem witness_MemoryPort_pages : Awaits awaitsPage pagingReq { tablePart with paging := true } ∧ awaitsPage.fab.groups = [pageGroup] ∧
    pageGroup.tag = 9 ∧ pageGroup.burnt = false ∧ (awaitsPage.slice 0).pasidOpen = true ∧ pagingReq.slice = some 0 :=
  ⟨⟨by decide, by decide, by decide, by decide, by decide, by decide, by decide, by decide, Or.inl ⟨3, 0, 1, by decide⟩⟩, by decide⟩

/-- A response in time answers its request; a timeout burns the tag (R76, R77). -/
theorem test_memory :
    ((after (.memoryResponse 9 3 []) (live (awaited { plainReq with why := .record 3 false }))).work.fab.reqs.map fun r => r.answer.map Prod.fst) = [some 0x5003] ∧
    (after (.memoryResponseTimeout 9) (live (awaited plainReq))).work.fab.burntTags = [9] := by decide

def fabric : Fabric := { bme := true, msixEn := true, pba := 8, msix := [(3, { addr := 0x1000, data := 7, masked := false })] }

theorem witness_MemoryPort_pins : (live { fab := fabric }).core.pwr.frozen = false ∧ fabric.bme = true ∧ fabric.msixEn = true ∧
    fabric.msixFmask = false ∧ (tblGet {} fabric.msix 3).masked = false ∧ fabric.pba.getLsbD 3 = true ∧ fabric.pba.getLsbD 4 = false := by decide

/-- A pending message leaves with its table entry's address and data (R62); FN_BME is as it is set (R64). -/
theorem test_pins : (after (.msixMessageSend 3) (live { fab := fabric })).work.fab.out = [.msix 3 0x1000 7] ∧
    (after (.fnBmeChange true false false) (live {})).work.fab.bme = true := by decide

/-! ### Mailboxes, locks and registers (R448 to R462, R15, R35, R60) -/

/-- Channel 1 is bound to the host in MAINT mode as in NORMAL mode. -/
def boxes (x : Channel) (maint : Bool) : State :=
  { core := { running { jnr := { state := .running, fwVersion := 7, cores := [(0, { up := true }), (2, { up := true })] } } with
      mbx := { maint := maint, chans := [(1, x)], locks := [(5, some 2)] } } }

theorem witness_MailboxCommands : (boxes { db := 2 } false).live ∧ endAccepts (boxes {} false).core 0x10 1 true = true ∧
    (∀ m ∈ [(0 : BitVec 8), 1, 2, 0x40], endAccepts (boxes {} false).core m.toNat 1 false = false ∨
      (boundMid (boxes {} false).core 1 = m.toNat ∧ halfOf false 1 &&& ~~~(2 : BitVec 32) ≠ 0 ∧ halfOf false 2 &&& ~~~(2 : BitVec 32) = 0)) ∧
    cannotAnswer (boxes {} false).core 1 false = false ∧ ((boxes { db := 2 } false).core.chan 1).db.getLsbD 1 = true := by decide
theorem witness_MailboxCommands_cluster : resetsCluster (boxes {} false).core 0 false 1 = true ∧
    endAccepts (boxes {} false).core (boundMid (boxes {} false).core 0) 0 false = true ∧ resetsCluster (boxes {} false).core 1 false 1 = false ∧
    (boxes {} false).core.work.nowSet (.doorbell 1) = 0 := by decide
theorem witness_MailboxCommands_accepted : ∃ m : BitVec 8, endAccepts (boxes {} false).core m.toNat 1 false = true :=
  ⟨BitVec.ofNat 8 (boundMid (boxes {} false).core 1), by decide⟩
theorem witness_MailboxCommands_services : ∀ p ∈ [(1, 1), (4, 1), (2, 1), (3, 1)],
    ∀ s ∈ [boxes { db := 1, peerWord := BitVec.ofNat 64 p.1 } false], s.core.mbx.maint = false ∧ s.core.work.jnr.state = .running ∧
      (s.core.chan 1).db.getLsbD 0 = true ∧ (s.core.chan 1).peerWord = BitVec.ofNat 64 p.1 := by decide

/-- VERSION answers with FW_VERSION, CORE_MAP with CORES_UP, and the request's bit falls as bit 16 rises (R458). -/
theorem test_firmware : ((after (.version 1) (boxes { db := 1, peerWord := 2 } false)).chan 1).clusterWord = 7 ∧
    ((after (.coreMap 1) (boxes { db := 1, peerWord := 3 } false)).chan 1).clusterWord = 5 ∧
    ((after (.ping 1) (boxes { db := 1, peerWord := 9 } false)).chan 1).clusterWord = BitVec.allOnes 64 ∧
    ((after (.ping 1) (boxes { db := 1, peerWord := 1 } false)).chan 1).db = 0x10000 := by decide

theorem witness_LockCommands : (boxes {} true).live ∧ (boxes {} true).core.st.inPor = false ∧ (boxes {} true).core.st.bar0 = true ∧
    (boxes {} true).core.st.halted = false ∧ (boxes {} true).core.work.jnr.boxDue = false ∧ lockAccess 2 = true ∧ (boxes {} true).core.lock 5 = some 2 ∧ (boxes {} true).core.lock 63 = none ∧
    lockAccess 0x40 = false ∧ lockAccess 0x2F = true ∧ lockAccess 0x30 = false := by decide

/-- A free lock goes to its reader, who reads zero, its holder releases it with zero, and anyone else's write is counted (R460, R461). -/
theorem test_locks : (cycled (.lockRead 3 63) (boxes {} true)).lock 63 = some 3 ∧ (cycled (.lockRead 3 5) (boxes {} true)).lock 5 = some 2 ∧
    (cycled (.lockRead 3 63) (boxes {} true)).work.fab.out = [.lockValue 3 63 0] ∧
    (cycled (.lockRead 3 5) (boxes {} true)).work.fab.out = [.lockValue 3 5 0x102] ∧
    (after (.lockRelease 2 5 0) (boxes {} true)).lock 5 = none ∧ (after (.lockRelease 1 5 0) (boxes {} true)).mbx.refused = 1 ∧
    (after (.mbxLockForce 5) (boxes {} true)).lock 5 = none := by decide +kernel

theorem witness_RegisterAccesses : (live {}).live ∧ (live {}).core.st.inPor = false ∧ (live {}).core.st.bar0 = true ∧
    (live {}).core.st.halted = false ∧ (live {}).core.work.jnr.boxDue = false ∧ 0x202 % 4 ≠ 0 ∧ 0x204 % 8 ≠ 0 ∧
    ([] : List Late).any Late.ofPort = false ∧ [Late.lockRead 0 5 (some 6)].any Late.ofPort = true := by decide

def latchedBeat : State := { core := { running {} with clk := { beat := 3, latches := [(0x200, some 7)] } } }
theorem witness_RegisterAccesses_latch : tblGet none latchedBeat.core.clk.latches 0x200 = some 7 ∧ latchedBeat.core.st.inPor = false ∧
    latchedBeat.core.st.bar0 = true := by decide
/-- The latch of BEAT_NUM is read once (R35). -/
theorem test_latch : (after (.functionPortAccess false false 0x204 4 0 6) latchedBeat).work.fab.out = [.cpl 6 7 false] ∧
    tblGet none (after (.functionPortAccess false false 0x204 4 0 6) latchedBeat).clk.latches 0x200 = none := by decide
/-- An 8-byte read of BEAT_NUM at an offset that 8 does not divide is refused (R60). -/
theorem test_registers : (after (.functionPortAccess false false 0x204 8 0 6) (live {})).work.fab.out = [.cpl 6 0 true] ∧
    (after (.functionPortAccess false false 0x200 8 0 6) (live {})).work.fab.out = [.cpl 6 0 false] ∧
    (after (.registerWrite .bar0 0x20000 9) (live {})).work.sync.opValue = 9 := by decide

/-! ### The beat, timers, slots and the copy engine (R26 to R35, R155 to R158, R212, R260 to R293) -/

theorem witness_BeatQuartersRange : ((3 : BitVec 8).toNat < 4 ∨ 128 < (3 : BitVec 8).toNat) ∧ 128 < (129 : BitVec 8).toNat ∧
    4 ≤ (4 : BitVec 8).toNat ∧ (128 : BitVec 8).toNat ≤ 128 ∧ (live {}).core.dct.locked = false := by decide
theorem test_beat_quarters : (after (.beatQuartersWrite 3) (live {})).clk.quarters = 16 ∧ (after (.beatQuartersWrite 4) (live {})).clk.quarters = 4 ∧
    (after (.beatQuartersWrite 128) (live {})).clk.quarters = 128 ∧ (after (.beatQuartersWrite 129) (live {})).clk.quarters = 16 := by decide

def joining (st : FrameSt) (w : Work) : State :=
  { core := { framed w with frm := { state := st, admitted := 3 }, lnk := { (framed w).lnk with edges := [(1, 400, true)] } } }
def beatMsg : Nat × Nat × Msg := msg 0x01 (leBytes 8 41 ++ leBytes 4 0 ++ leBytes 1 32 ++ leBytes 1 1 ++ leBytes 1 1 ++ leBytes 1 0 ++ leBytes 2 2)

theorem witness_BeatEdges : isWorker (live {}).core = false ∧ (live {}).core.frm.state = .standalone ∧
    ((live {}).core.clk.beat + 1).toNat % 256 ≠ 0 ∧ isWorker (joining .member {}).core = true ∧
    (∀ b ∈ [(joining .member {}).core, (cycleOver (joining .member {}).core).after],
      b.lnk.edges.find? (fun x => x.1 == b.clk.beat.toNat + 1) = some (1, 400, true)) ∧
    isWorker (cycleOver (joining .member {}).core).after = true ∧ isWorker (cycleOver (live {}).core).after = false := by decide +kernel
theorem witness_BeatEdges_message : ∀ s ∈ [joining .listening (withMsg beatMsg {})], (takeMsg 0x01 s.core.work).map Prod.fst = some beatMsg ∧
    s.core.frm.state = .listening ∧ portUp s.core 0 = true ∧ fieldAt beatMsg.2.2.payload 12 1 = 32 := by decide

/-- A BEAT makes a LISTENING chip follow its sender and takes its beat length; an edge counts (R30, R524). -/
theorem test_beats : (after .beatMessage (joining .listening (withMsg beatMsg {}))).frm.state = .following ∧
    (after .beatMessage (joining .listening (withMsg beatMsg {}))).clk.quarters = 32 ∧ (after .beatEdge (live {})).clk.beat = 1 := by decide

def timed (mask : Nat) : State :=
  { core := { running (withCmd { cmdOf (body 0x10 [(28, [1])]) with phase := .running, waiting := .sem, timer := some 0 }) with
      dct := { vals := [(0x3017, [(0, mask)])] } } }

theorem witness_TimersAndSlots_timeout : ∀ m ∈ [0, 1], ∀ s ∈ [timed m], s.live ∧ (s.core.work.cmd 1).map Cmd.timer = some (some 0) ∧
    s.core.work.run 1 = none ∧ (s.core.dct.teardownMask 0).testBit 0 = (m == 1) ∧ (s.core.work.slice 0).state ≠ .fenced ∧
    tearing s.core.work 0 0 = false ∧ (s.core.work.ctx 0 0).killed = false := by decide

def lend : Lend := { slice := 0, sem := 2, ctx := 0, priority := 5, beats := 0, live := true }
/-- Context 0 holds units of semaphore 2 on loan; where `wants`, an acquire of context 1 at priority 5 waits for them. -/
def wanting : Cmd := { acquireCmd with id := 7, ctx := 1, priority := 5, phase := .running, waiting := .sem, timer := some 9 }
def lending (wants : Bool) : Work :=
  { withSem (cmdOf (body 0x00 [])) { cap := 3, holders := [(0, 3)] } with
    lends := [lend]
    cmds := if wants then [wanting] else []
    slices := [(0, { state := .active, pasid := 5, semCount := 8, maxPrio := 7, sems := [(2, { cap := 3, holders := [(0, 3)] })] })] }
theorem witness_TimersAndSlots_lend : ∀ b ∈ [true, false], lend ∈ (lending b).lends ∧ lend.live = true ∧ lend.beats = 0 ∧
    ((lending b).slice 0).state = .active ∧ tearing (lending b) 0 0 = false ∧ ((lending b).ctx 0 0).killed = false ∧
    lendStands (lending b) 0 2 0 = b := by decide
theorem witness_TimersAndSlots_abandoned : (lending true).cmds = [wanting] ∧ wanting.acquiring = true ∧ semIndex wanting.bytes = 2 ∧
    ((lending true).ctx 0 1).stopped = false ∧ (({ cap := 3, holders := [(0, 3)] } : Sem).setHolding 0 0).grants 1 (semUnits wanting.bytes) = true ∧
    (({ cap := 0, holders := [(0, 3)] } : Sem).setHolding 0 0).grants 1 (semUnits wanting.bytes) = false := by decide

/-- An acquire that fits once the units are back, of a semaphore that the expiry has marked. -/
theorem witness_TimersAndSlots_fits : ∀ w ∈ [{ lending true with slices := [(0, {
      state := .active, pasid := 5, semCount := 8, maxPrio := 7, sems := [(2, { cap := 5, abandoned := true })] })] }],
    w.cmds = [wanting] ∧ wanting.slice = some 0 ∧ acquireFits w wanting = true := by decide
/-- A lend that has run out takes the units back and marks the semaphore (R291); a timeout outside TEARDOWN_MASK ends its
command alone: both at the end of their cycle. -/
theorem test_timers : ((cycled (.lendExpiry 0 2 0) (live (lending true))).work.sem 0 2).holders = [] ∧ ended (cycled (.lendExpiry 0 2 0) (live (lending true))) = some 0x3005 ∧
    (cycled (.lendExpiry 0 2 0) (live (lending false))).work.lends = [] ∧
    ended (cycled (.commandTimeout 1) (timed 0)) = some 0x2001 ∧ ((cycled (.commandTimeout 1) (timed 1)).work.cap.teardowns.map Teardown.status) = [0x2001] := by
  decide +kernel

def slotReq (why : Purpose) (b : List Byte) : Req :=
  { newReq .read false 0 64 [] why with tag := 9, slice := some 0, owner := some 0, answer := some (St.ok, b) }
def moving (st : SlotSt) (why : Purpose) (b : List Byte) : Work :=
  { activeSlice queue3 with slots := [(2, { state := st, slice := 0, ctx := 4 })], fab := { reqs := [slotReq why b] } }
def ctxRecord (flags : Byte) : List Byte := leBytes 8 50 ++ List.replicate 24 0 ++ [flags] ++ List.replicate 31 0

theorem witness_TimersAndSlots_slots : slotAnswer (moving .saving (.slotSave 2) []) 2 (.slotSave 2) = some (slotReq (.slotSave 2) [], St.ok, []) ∧
    (∀ f ∈ [(1 : Byte), 0], ∀ w ∈ [moving .loading (.slotRecord 2) (ctxRecord f)],
      slotAnswer w 2 (.slotRecord 2) = some (slotReq (.slotRecord 2) (ctxRecord f), St.ok, ctxRecord f) ∧ (w.slot 2).state = .loading ∧
      (fieldAt (ctxRecord f) 32 1).testBit 0 = (f == 1) ∧ (fieldAt (ctxRecord f) 33 1).testBit 0 = false) := by decide

/-- A context whose counts the block holds, and one whose record it has not read. -/
theorem witness_TimersAndSlots_counts : ({} : Ctx).counted = false ∧ ({ counted := true, known := true } : Ctx).known = true ∧
    (moving .saving (.slotSave 2) []).slot 2 = { state := .saving, slice := 0, ctx := 4 } ∧ ((moving .saving (.slotSave 2) []).slot 2).next = none := by decide

/-- A saved slot is FREE; a loaded record gives its counts; one without INIT is torn down (R156 to R158). -/
theorem test_slots : ((after (.slotSaveDone 2) (live (moving .saving (.slotSave 2) []))).work.slot 2).state = .free ∧
    ((after (.slotLoadDone 2) (live (moving .loading (.slotRecord 2) (ctxRecord 1)))).work.ctx 0 4).engineNs = 50 ∧
    ((after (.slotLoadDone 2) (live (moving .loading (.slotRecord 2) (ctxRecord 0)))).work.cap.teardowns.map Teardown.status) = [0x1002] := by decide

def copyCmd : Cmd := { cmdOf (body 0x02 [(24, [1, 0, 0, 1]), (28, [1, 0, 0, 1]), (48, [0, 0, 2])]) with phase := .running }
theorem witness_SnapshotsAndCopyRounds : ∀ w ∈ [withObj copyCmd { live := true, size := 2 ^ 20 }], w.cmds = [copyCmd] ∧ copyCmd.op = some .copy ∧
    copyCmd.aux = [] ∧ w.fab.reqs = [] ∧ (w.ctx 0 0).stopped = false ∧ memShut (running w) w 0 = false ∧ copyCmd.bytesDone < moveLen copyCmd ∧
    (running w).dct.weight 0 = 1 ∧ (running w).dct.memLimit 0 = 0 ∧ ({ taken := [(0x3015, [(0, 10)])] } : Dict).memLimit 0 ≠ 0 ∧
    (servingPorts w).contains 0 = false ∧ sliceTiles w 0 = 0 := by decide +kernel

/-- A round reads 64 KiB at most (R293); a snapshot takes the parameters written since (R260). -/
theorem test_rounds : ((after (.copyRound 0) (live (withObj copyCmd { live := true, size := 2 ^ 20 }))).work.fab.reqs.map Req.len) = [65536] ∧
    (after .grantSnapshot (live {})).work.rr = 1 := by decide +kernel

/-! ### Teardowns, revocation, domain resets (R160, R341, R562, R571 to R581, R591 to R593) -/

def tearing4 : Teardown := { slice := 0, ctx := 4, status := 0x2001, cmd := none, others := 0x2002 }
def torn (cmds : List Cmd) : Work := { activeSlice queue3 with cap := { teardowns := [tearing4] }, slots := [(2, { state := .idle, slice := 0, ctx := 4 })], cmds := cmds }
def busy4 : Cmd := { cmdOf (body 0x01 []) with ctx := 4, phase := .running, waiting := .slot }

theorem witness_TeardownAndRevocation_completion : (torn []).cap.teardowns = [tearing4] ∧ contextQuiet (torn []) 0 4 = true ∧
    slotReads (torn []) 0 4 = false ∧ slotReads (moving .saving (.slotSave 2) []) 0 4 = false ∧
    slotReads { moving .saving (.slotSave 2) [] with fab := { reqs := [{ slotReq (.slotSave 2) [] with answer := none }] } } 0 4 = true := by decide
/-- A fence of a slice that is being marked, at a value below the largest. -/
theorem witness_TeardownAndRevocation_marks : 7 < ((withFence { value := 5 }).slice 0).fenceCount ∧
    ((withFence { value := 5 }).fence 0 7).value ≠ BitVec.allOnes 64 ∧ ((withFence { err := 0x2001, errTop := 9 }).fence 0 7).err ≠ 0 := by decide
theorem witness_TeardownAndRevocation_revoke : ∀ n ∈ [0, 1], Ready (inState (sliceCmd 0x8A n) .frozen) .pasidRevoke (sliceCmd 0x8A n) ∧
    (sliceCmd 0x8A n).slice = none ∧ bodySlice (sliceCmd 0x8A n).bytes = n ∧
    ((inState (sliceCmd 0x8A n) .frozen).slice n).state = (if n = 0 then .frozen else .off) := by decide
theorem witness_TeardownAndRevocation_complete : ∀ w ∈ [{ activeSlice queue3 with slices := [(0, ({ state := .fenced, revoking := true } : Slice))] }],
    (w.slice 0).revoking = true ∧ (w.slice 1).revoking = false ∧ w.fab.reqs = [] ∧ w.fab.groups = [] ∧
    (plainReq.slice = some 0 ∧ plainReq.answer = none) := by decide

/-- A teardown frees its slot and marks its context; a revoked slice is FENCED and then done (R160, R591, R593). -/
theorem test_teardown : ((cycled (.teardownComplete 0 4) (live (torn []))).work.ctx 0 4).killed = true ∧
    ((cycled (.teardownComplete 0 4) (live (torn []))).work.slot 2).state = .free ∧
    ((cycled (.pasidRevoke 1) (live { inState (sliceCmd 0x8A 0) .frozen with
      slices := [(0, { state := .frozen, pasid := 5, fenceCount := 8 })] })).work.fence 0 3).err = 0x5002 ∧
    ((after (.pasidRevoke 1) (live (inState (sliceCmd 0x8A 0) .frozen))).work.slice 0).state = .fenced ∧
    ((after (.pasidRevokeComplete 0) (live { slices := [(0, { state := .fenced, revoking := true })] })).work.slice 0).revoking = false := by decide +kernel

/-- DOMAIN_RESET of a domain, with an index and a rung. -/
def domainCmd (d i r : Nat) : Cmd := adminCmd (body 0x89 [(24, leBytes 1 d ++ leBytes 1 i ++ leBytes 1 r)])
def inDomain (d i r : Nat) : Work := withPort port2 { withCmd (domainCmd d i r) with jnr := { state := .running } }

theorem witness_DomainResets : ∀ p ∈ [(1, 2, 1), (2, 0, 0), (3, 0, 0), (4, 0, 0), (4, 1, 0), (5, 0, 0), (5, 1, 0), (6, 0, 0), (7, 0, 0)], ∀ w ∈ [inDomain p.1 p.2.1 p.2.2],
    Ready w .domainReset (domainCmd p.1 p.2.1 p.2.2) ∧ w.jnr.boxDue = false ∧ fieldAt (domainCmd p.1 p.2.1 p.2.2).bytes 24 1 = p.1 ∧
    fieldAt (domainCmd p.1 p.2.1 p.2.2).bytes 25 1 = p.2.1 := by decide
theorem witness_DomainResets_each : ∀ w ∈ [inDomain 1 2 1], (w.port 2).state = .inService ∧ (w.port 2).due = none ∧ w.pln.engineDomain = false ∧
    runningTile w 2 = none ∧ (w.port 3).state = .absent ∧ w.pln.inReset = false ∧ jnrInReset w = false ∧
    (running w).dct.portEnable.testBit 0 = true ∧ ({ vals := [(0x5000, [(0, 1)])] } : Dict).portEnable.testBit 1 = false := by decide
theorem witness_DomainResets_slice : ∀ w ∈ [inDomain 5 0 0], (w.slice 0).state ≠ .off ∧ (w.slice 1).state = .off ∧ sliceInReset w 0 = false ∧
    contextsInUse w 0 = [] ∧ w.cap.teardowns = [] ∧ w.cmds.any (fun x => x.awaits 4 0) = false := by decide

/-- Rung 1 of a port, the joiner cluster's reset, and a port that is absent (R571, R577, R579). -/
theorem test_domains : ((after (.domainReset 1) (live (inDomain 1 2 1))).work.port 2).state = .softReset ∧
    (after (.domainReset 1) (live (inDomain 3 0 0))).mbx.maint = true ∧ ended (after (.domainReset 1) (live (inDomain 1 3 1))) = none ∧
    (after (.domainReset 1) (live (inDomain 7 0 0))).work.cap.recordFirst = true := by decide

/-! ### The joiner cluster (R416 to R446, R565 to R568) -/

/-- The smallest image that R440 and R442 let start: 128 bytes, release 0x0203, entry point 64, and the CRC-32 of the image. -/
def firmware : List Byte :=
  leBytes 4 0x46524E4A ++ leBytes 2 1 ++ leBytes 2 0x0203 ++ leBytes 4 128 ++ leBytes 4 64 ++ leBytes 4 0x105 ++ leBytes 4 0xD70C2ACF ++
  List.replicate 104 0
def badFirmware : List Byte := leBytes 4 0x46524E4B ++ leBytes 2 1 ++ leBytes 2 0x0203 ++ leBytes 4 128
def cluster (j : Joiner) (maint : Bool) : State :=
  { core := { running { jnr := j, fab := { bme := true } } with mbx := { maint := maint, chans := [(0, { db := 1, peerWord := 64 })] } } }

set_option maxRecDepth 20000 in
theorem witness_ClusterStarts_image : imageCheck firmware = cLoaded := by decide +kernel
theorem witness_ClusterStarts_badImage : imageCheck badFirmware ≠ cLoaded ∧ imageCheck (bytesAt badFirmware 0 (fieldAt badFirmware 8 4 % 2 ^ 17)) ≠ cLoaded ∧
    fieldAt firmware 8 4 % 2 ^ 17 = 128 ∧ bytesAt firmware 0 128 = firmware := by decide +kernel
theorem witness_ClusterStarts_resets : (cluster {} false).live ∧ tblWf none (cluster {} false).core.mbx.locks = true ∧
    (cluster {} false).core.mbx.maint = false ∧ ((cluster {} false).core.chan 0).db.getLsbD 0 = true ∧
    (∀ k ∈ [ClusterCause.recover, .restart, .domainReset, .recoveryRing], (cluster { cause := k } true).core.work.jnr.state = .reset) := by decide
/-- A cluster in RECOVERY_WAIT whose channel 0 holds no ring, in a mode. -/
def unrung (maint : Bool) : State :=
  { core := { running { jnr := { state := .recoveryWait }, fab := { bme := true } } with mbx := { maint := maint, chans := [(0, { peerWord := 64 })] } } }
/-- The host rings with RECOVERY_LOAD itself: an identity that channel 0 accepts, and one that it does not (R442, R452). -/
theorem witness_ClusterStarts_ring : (unrung true).live ∧ (unrung true).core.work.jnr.state = .recoveryWait ∧
    ((unrung true).core.chan 0).db.getLsbD 0 = false ∧ endAccepts (unrung true).core 0 0 false = true ∧
    endAccepts (unrung true).core 1 0 false = false ∧ (unrung true).core.mbx.maint = true ∧
    endAccepts (unrung false).core 0 0 false = true ∧ tblWf none (unrung false).core.mbx.locks = true := by decide
/-- The ring and the load in one row (R442); a refused one is counted (R452). -/
theorem test_recovery_ring : (after (.recoveryLoad 0) (unrung true)).work.jnr.state = .loading ∧
    (after (.recoveryLoad 0) (unrung true)).work.fab.reqs.map (fun r => (r.addr, r.len, r.slice)) = [(64, 256, none)] ∧
    after (.recoveryLoad 1) (unrung true) = countRefused (unrung true).core ∧
    (after (.recoveryLoad 0) (unrung false)).work.jnr.state = .reset := by decide
theorem witness_ClusterStarts_load : ∀ s ∈ [cluster { state := .recoveryWait } true], s.live ∧ s.core.work.jnr.state = .recoveryWait ∧
    (s.core.chan 0).db.getLsbD 0 = true ∧ (s.core.chan 0).peerWord ≠ 0 ∧
    (cluster { state := .starting } true).core.work.jnr.state = .starting ∧ s.core.st.done = true := by decide
/-- The length that the 28 bytes of a header show, and one of a longer image. -/
theorem witness_ClusterStarts_answers : fieldAt firmware 8 4 ≤ 256 ∧ fieldAt (firmware.set 9 2) 8 4 = 640 ∧
    (cluster { state := .loading } true).core.work.jnr.state = .loading ∧
    (cluster { state := .checking, image := firmware } true).core.work.jnr.state = .checking := by decide +kernel

/-- RECOVER enters the reset, the boot ROM RECOVERY_WAIT, and firmware in NORMAL mode RUNNING (R441, R443, R445). -/
theorem test_cluster : (after .recover (cluster { state := .running } false)).mbx.maint = true ∧
    (after (.clusterReset .recover) (cluster { cause := .recover } true)).work.jnr.lastCode = 1 ∧
    (after (.recoveryLoad 0) (cluster { state := .recoveryWait } true)).work.jnr.attempts = 1 ∧
    (after (.recoveryLoad 0) (cluster { state := .recoveryWait } true)).work.fab.reqs.map (fun r => (r.addr, r.len, r.slice)) = [(64, 256, none)] ∧
    (after .firmwareNormal (cluster { state := .starting } true)).work.jnr.state = .running ∧
    (after .firmwareStartTimeout (cluster { state := .starting } true)).work.jnr.lastCode = 0x14 := by decide

set_option maxRecDepth 20000 in
/-- The boot ROM starts an image that passes, with a copy in every core, and shows the code of one that does not (R441, R443). -/
theorem test_boot : (bootProceeds (cluster { state := .checking, image := firmware } true).core).work.jnr.state = .starting ∧
    tblGet [] (bootProceeds (cluster { state := .checking, image := firmware } true).core).work.jnr.copies 31 = firmware ∧
    (bootProceeds (cluster { state := .checking, image := badFirmware } true).core).work.jnr.lastCode = 0x10 := by decide +kernel

/-- Program 4 of command 1, on core 2. -/
def prog4 : Prog :=
  { pid := 4, cmd := 1, slice := 0, ctx := 0, core := 2, firstPage := 0, pages := 1, hart := {}, syncValue := 9, syncStatus := 0, storesOut := 0,
    exitA0 := none, loading := false, fencing := false, suspect := false, replaying := false, current := true, gone := false, lastLoad := none, reserved := none }
def tidyCmd : Cmd := { cmdOf (body 0x04 []) with phase := .running }
def programOn (ps : List Prog) (x : JCore) : Work :=
  { withCmd tidyCmd with jnr := { state := .running, cores := [(2, x)], progs := ps } }

theorem witness_CoreFaults_none : ∀ w ∈ [programOn [] { up := true, events := 1 }, programOn [] {}], w.jnr.state = .running ∧
    w.jnr.boxDue = false ∧ ((w.jcore 2).up = false ∧ (w.jcore 2).restarting = false ∨ (w.jcore 2).events < 2) := by decide
set_option maxRecDepth 20000 in
theorem witness_CoreFaults_image : ∀ i ∈ [firmware, badFirmware], ∀ w ∈ [{ programOn [] { restarting := true } with
      jnr := { (programOn [] { restarting := true }).jnr with image := i } }], (w.jcore 2).restarting = true ∧
    (imageCheck (imageSource w 2) = cLoaded ↔ i = firmware) := by decide +kernel
theorem witness_CoreFaults : ∀ x ∈ [({ up := true } : JCore), { restarting := true }], ∀ ps ∈ [[], [prog4]], ∀ w ∈ [programOn ps x],
    w.jnr.state = .running ∧ ((w.jcore 2).restarting = false → (w.jcore 2).up = true) ∧ corePrograms w 2 = ps ∧ w.jnr.progs = ps ∧
    prog4.core = 2 ∧ prog4.gone = false ∧ prog4.replaying = false := by decide

set_option maxRecDepth 20000 in
/-- A core fault makes the program a suspect; the restart that fails resets the cluster (R565, R567). -/
theorem test_cores : (after (.coreFault 2 .machineTrap) (live (programOn [prog4] { up := true }))).work.jnr.progs.map Prog.suspect = [true] ∧
    ((after (.coreFault 2 .machineTrap) (live (programOn [prog4] { up := true }))).work.jcore 2).faults = 1 ∧
    ((after (.coreRestartDone 2 true) (live { programOn [] { restarting := true } with
      jnr := { (programOn [] { restarting := true }).jnr with image := firmware } })).work.jcore 2).replay = true ∧
    (after (.coreRestartDone 2 false) (live (programOn [] { restarting := true }))).work.jnr.state = .reset := by decide +kernel

theorem witness_JoinerPrograms_runs : ∀ w ∈ [programOn [prog4] { up := true }], w.prog 4 = some prog4 ∧ progRuns w prog4 = true ∧ prog4.pages ≤ 44 ∧
    prog4.storesOut = 0 ∧ w.cmd prog4.cmd = some tidyCmd ∧ tidyCmd.endStatus = none ∧ tidyCmd.slice = some 0 ∧ w.run prog4.cmd = none := by decide
theorem witness_JoinerPrograms_two : ∀ q ∈ [({ prog4 with pid := 5, current := false } : Prog)], ∀ w ∈ [programOn [prog4, q] { up := true }],
    w.prog 4 = some prog4 ∧ progRuns w prog4 = true ∧ w.jnr.progs = [prog4, q] ∧ q.core = prog4.core ∧ q.gone = false ∧ q.suspect = false := by decide
theorem witness_JoinerPrograms_access : ∀ w ∈ [programOn [prog4] { up := true }], (w.slice 0).state = .active ∧ (w.slice 0).quiet = false ∧
    aligned ((0x8000000000000040 : BitVec 64).toNat - 2 ^ 63) 8 = true ∧ deviceOpen (running w) 0 64 8 = true ∧
    ({ vals := [(0x3017, [(0, 3)])] } : Dict).teardownMask 0 = 3 ∧ (3 : BitVec 16).toNat < (w.slice 0).fenceCount := by decide
theorem witness_JoinerPrograms_own : ∀ r ∈ [some (8, 8), none], ∀ p ∈ [{ prog4 with reserved := r }],
    (programOn [p] { up := true }).prog 4 = some p ∧ progRuns (programOn [p] { up := true }) p = true ∧ p.reserved = r ∧
    (0x100008 : BitVec 64).toNat = 0x100000 + 8 ∧ 8 + 8 ≤ p.pages * 4096 ∧ 8 % 8 = 0 := by decide
theorem witness_JoinerPrograms_trap : (running (programOn [prog4] { up := true })).dct.teardownMask 0 = 7 ∧
    ({ vals := [(0x3017, [(0, 3)])] } : Dict).teardownMask 0 = 3 ∧ (3 : Nat).testBit 2 = false := by decide
theorem witness_JoinerPrograms_doorbell : ∀ w ∈ [{ programOn [prog4] { up := true } with queues := [(3, queue3)] }],
    64 * prog4.slice + bitsOf (0x300000007 : BitVec 64).toNat 37 32 = 3 ∧ reaches w 3 = true ∧ latched w 3 = false ∧
    (7 - queue3.tail).toNat ≤ 2 ^ queue3.desc.sqLog2 ∧ (7 - queue3.head).toNat ≤ 2 ^ queue3.desc.sqLog2 ∧ queue3.held = [] ∧
    (2 - queue3.cqHead).toNat ≤ (queue3.cqTail - queue3.cqHead).toNat := by decide

/-- A store to the program's own pages, an AMO that adds to it, and a pair of LR and SC (R426). -/
def stored : Block := after (.programMemoryAccess 4 0x100008 8 (some (leBytes 8 40))) (live (programOn [prog4] { up := true }))
theorem test_own_memory : localRead stored.work 2 (prog4.base + 8) 8 = leBytes 8 40 ∧
    localRead (after (.programAmo 4 0x100008 .add (.double 2)) { core := stored }).work 2 (prog4.base + 8) 8 = leBytes 8 42 ∧
    ((after (.programAmo 4 0x100008 .lr (.double 0)) { core := stored }).work.prog 4).bind Prog.reserved = some (8, 8) ∧
    ((after (.programAmo 4 0x100008 .sc (.double 7)) { core := stored }).work.prog 4).bind Prog.lastLoad = some (0, leBytes 8 1) := by decide +kernel

/-- EXIT ends the TIDY; the user page signals a fence and rings a doorbell (R302, R430, R433, R434). -/
theorem test_programs : ended (after (.ecallExit 4 0) (live (programOn [prog4] { up := true }))) = some 0 ∧
    ended (after (.ecallExit 4 1) (live (programOn [prog4] { up := true }))) = some 0x2006 ∧
    ((after (.juSyncSignal 4 3) (live (programOn [prog4] { up := true }))).work.fence 0 3).value = 9 ∧
    ((after (.juDoorbell 4 0x300000007) (live { programOn [prog4] { up := true } with queues := [(3, queue3)] })).work.queue 3).tail = 7 := by decide
theorem test_program_access : ∀ s ∈ [live (programOn [prog4] { up := true })],
    (after (.programMemoryAccess 4 0x8000000000000040 8 none) s).work.fab.reqs.map (fun r => (r.addr, r.len, r.pasid)) = [(64, 8, 5)] ∧
    ((after (.programFence 4) s).work.prog 4).map Prog.fencing = some false ∧
    (after (.programTrap 4 .other) s).work.cap.teardowns.map Teardown.status = [0x2005] := by decide

/-! ### Tiles and engines (R36 to R45, R80 to R90, R154, R269 to R287, R386 to R404, R557, R574) -/

/-- An EXEC of two tiles with a result of 1 KiB and a raw operand of 64 elements, running. -/
def execCmd : Cmd :=
  { cmdOf (body 0x01 [(40, [1, 0, 0, 1]), (52, [2, 0, 1])] ++ [1, 0, 0, 1, 0, 0, 0, 0, 64, 0, 0, 0, 1, 0, 0, 0] ++ List.replicate 48 0) with
    phase := .running }
def tileIn (st : TileSt) (d : SlotData) : Tile :=
  { cmd := 1, index := 0, port := 2, state := st, tileId := 6, order := 1, slots := d :: List.replicate 7 {}, result := [], credits := [], grace := false,
    startCycle := 0, beats := 0 }
def tiled (x : Port) (ts : List Tile) : Work :=
  { withPort x (withSlot execCmd) with objs := [(1, { live := true, size := 2 ^ 20 })], tiles := ts }
def port2g : Port := { port2 with grants := [0] }

theorem witness_TileDispatch_bind : ∀ w ∈ [tiled port2g []], w.cmd 1 = some execCmd ∧ execCmd.slice = some 0 ∧ execCmd.op = some .exec ∧
    mayStage (running w) w execCmd = true ∧ tileReady w execCmd 0 = true ∧ staysResident w 0 0 = true ∧
    bindPort (running w).dct w execCmd 0 = some 2 ∧
    newPages w execCmd 2 ((List.range 8).map (slotAt (running w).dct w execCmd 2 0)) ≤ freePages w 2 := by decide
theorem witness_TileDispatch_order : boundAfter (running (tiled port2g [])) (tiled port2g []) execCmd 0 2 = false ∧
    boundAfter (running (tiled port2g [])) (tiled port2g []) execCmd 1 2 = true := by decide
theorem witness_TileDispatch_noPort : bindPort (running {}).dct (tiled { port2 with state := .retired } []) execCmd 0 = none ∧
    (running {}).pwr.state = .ps0 ∧ (running {}).pwr.transition = none := by decide
theorem witness_TileDispatch_offer : ∀ t ∈ [tileIn .staged {}], ∀ w ∈ [tiled port2g [t]], portFree w 2 = true ∧
    chooseTile w ((tilesOn w 2).filter (qualifies (running w) w)) = some t ∧ w.cmd t.cmd = some execCmd ∧ creditPorts (running w) w execCmd = [] ∧
    portFree w 3 = false := by decide
theorem witness_TileDispatch_start : ∀ w ∈ [tiled port2g [tileIn .offered {}]], offeredTile w 2 = some (tileIn .offered {}) ∧
    startKill w (tileIn .offered {}) = none ∧ creditsFree (running w) w [] = true ∧ (w.port 2).inService = true ∧ w.pln.engineDomain = false ∧
    ({ port2g with state := .hardReset } : Port).inService = false ∧
    creditsFree (running w) w [3] = decide (tblGet 0 w.msgs.credits 3 + 1 ≤ (running w).dct.localCredits) := by decide
theorem witness_TileDispatch_killed : ∀ w ∈ [{ tiled port2g [tileIn .offered {}] with cmds := [execCmd.endWith 0x2001] }],
    offeredTile w 2 = some (tileIn .offered {}) ∧ startKill w (tileIn .offered {}) = some .timeout := by decide

/-- A tile is bound, offered under the port's number, taken by the engine; one that is not taken hangs its port (R83, R87,
R394, R574). -/
theorem test_dispatch : ((after (.tileBind 1 0) (live (tiled port2g []))).work.tiles.map Tile.port) = [2] ∧
    ((after (.tileOffer 2) (live (tiled port2g [tileIn .staged {}]))).work.tiles.map Tile.state) = [.offered] ∧
    ((after (.tileStart 2) (live (tiled port2g [tileIn .offered {}]))).work.tiles.map Tile.state) = [.running] ∧
    ((after (.tileOfferTimeout 2) (live (tiled port2g [tileIn .offered {}]))).work.port 2).state = .softReset := by decide

def runs : Work := tiled port2g [tileIn .running {}]
theorem witness_TileResults : killOld runs 2 = false ∧ namedTile runs 2 6 = some (tileIn .running {}) ∧ namedTile runs 2 7 = none ∧
    (runs.port 2).inService = true ∧ (runs.port 2).ladder = none ∧ runs.cmd 1 = some execCmd ∧ execCmd.slice = some 0 ∧
    (0 : BitVec 16).toNat < resultKib execCmd.bytes ∧ resultKib execCmd.bytes ≤ (1 : BitVec 16).toNat ∧ (runs.port 2).done = none ∧
    (runs.port 2).fault = none ∧ (List.replicate 1024 (3 : Byte)).length = 1024 := by decide +kernel
/-- Port 2 has sampled an ending of its running tile in this control cycle. -/
def ending (x : Port) : Work := tiled x [tileIn .running {}]
theorem witness_TileResults_done : ∀ w ∈ [ending { port2g with done := some 100 }], killOld w 2 = false ∧
    namedTile w 2 6 = some (tileIn .running {}) ∧ (w.port 2).done.isSome = true := by decide
theorem witness_TileResults_killed : ∀ w ∈ [ending { port2g with kill := true, killFresh := false }], killOld w 2 = true ∧
    (runningTile w 2).isSome = true ∧ (namedTile w 2 6).isSome = true := by decide
theorem witness_TileResults_ends : ∀ w ∈ [ending { port2g with done := some 100 }, ending { port2g with done := some 100, killWhy := some .kilnError },
      ending { port2g with fault := some (9, 100) }, ending { port2g with fault := some (9, 100), kill := true, killFresh := true }],
    runningTile w 2 = some (tileIn .running {}) ∧ w.cmd 1 = some execCmd ∧ execCmd.slice = some 0 ∧ (w.port 2).overKill = false ∧
    execCmd.endStatus = none ∧ (w.slice 0).state ≠ .fenced ∧ tearing w 0 0 = false ∧ (w.ctx 0 0).killed = false ∧
    execCmd.unpaid.contains 0 = false ∧ ({ execCmd with unpaid := [0] } : Cmd).unpaid.contains 0 = true := by decide

/-- A tile that is done goes to commit, a fault tears its context down, whether tile done comes before or behind it, and a beat of no
tile is a protocol error (R40, R41, R45, R557). -/
theorem test_results : (cycled (.tileDone 2 6 100) (live runs)).work.pln.commitQ.length + (cycled (.tileDone 2 6 100) (live runs)).work.pln.commits.length = 1 ∧
    (cycled (.engineFault 2 6 9 100) (live runs)).work.cap.teardowns.map Teardown.status = [0x2003] ∧
    (cycled (.engineFault 2 6 9 100) (live (ending { port2g with done := some 100 }))).work.cap.teardowns.map Teardown.status = [0x2003] ∧
    ((cycled (.engineFault 2 6 9 100) (live runs)).work.port 2).lastFlt = 9 ∧
    ((after (.tileDone 2 7 100) (live runs)).work.port 2).protoErrs = 1 := by decide +kernel

/-- A priority-7 tile of another command waits while a tile of priority 0 runs. -/
def urgent : Cmd := { execCmd with id := 3, qk := 1, sqIndex := 4, priority := 7, order := 2, relOrder := 2 }
def urged : Work :=
  { tiled port2g [tileIn .running {}, { tileIn .staged {} with cmd := 3 }] with
    cmds := [execCmd, urgent]
    slices := [(0, { state := .active, pasid := 5, fenceCount := 8, maxPrio := 7 })]
    queues := [(0, { state := .active, desc := { sqLog2 := 4, cqLog2 := 4, maxInflight := 8 } }),
      (1, { state := .active, desc := { sqLog2 := 4, cqLog2 := 4, maxInflight := 8, priority := 7 } })] }

theorem witness_KillsAndOverruns_preempt : urgentTile (running urged) urged 2 = some { tileIn .staged {} with cmd := 3 } ∧ (urged.port 2).inService = true ∧
    (urged.port 2).kill = false ∧ urged.pln.inReset = false ∧ runningPriority urged 2 < 7 ∧
    (tileMarks urged 1 0).1 < (running urged).dct.killProtect ∧ runningTile urged 2 = some (tileIn .running {}) := by decide
def killing (why : KillWhy) : Work := tiled { port2g with kill := true, killWhy := some why } [tileIn .running {}]
theorem witness_KillsAndOverruns_acks : ∀ y ∈ [KillWhy.teardown, .planerReset], ∀ w ∈ [killing y], runningTile w 2 = some (tileIn .running {}) ∧
    (w.port 2).kill = true ∧ (w.port 2).killWhy = some y ∧ (w.port 2).due = none ∧ (w.port 2).done = none ∧ (w.port 2).fault = none ∧
    (w.port 2).overKill = false ∧ w.cmd 1 = some execCmd ∧ execCmd.slice = some 0 ∧ execCmd.endStatus = none ∧ (w.slice 0).state ≠ .fenced ∧
    tearing w 0 0 = false ∧ (w.ctx 0 0).killed = false := by decide
theorem witness_KillsAndOverruns_late : ∀ w ∈ [tiled { port2g with kill := true, killWhy := some .overrun, overKill := true } [tileIn .running {}]],
    runningTile w 2 = some (tileIn .running {}) ∧ (w.port 2).overKill = true ∧ (w.port 2).kill = true ∧ (w.port 2).done = none ∧
    (w.port 2).fault = none ∧ (w.slice 0).state ≠ .fenced ∧ tearing w 0 0 = false ∧ (w.ctx 0 0).killed = false := by decide
theorem witness_KillsAndOverruns_replay : ∀ w ∈ [killing (.preempt 0)], (w.port 2).kill = true ∧ (w.port 2).killWhy = some (.preempt 0) ∧
    (w.port 2).due = none ∧ (w.port 2).done = none ∧ (w.port 2).fault = none ∧ (w.port 2).overKill = false ∧
    keepsStaged w (tileIn .running {}) = true := by decide
theorem witness_KillsAndOverruns_overrun : ∀ t ∈ [({ tileIn .running {} with grace := true } : Tile)], ∀ w ∈ [tiled port2g [t]],
    runningTile w 2 = some t ∧ t.grace = true ∧ (w.port 2).kill = false ∧ (tileIn .running {}).grace = false ∧ (tilesOn w 2)[0]? = some t ∧
    tblGet (0, 0) execCmd.marks t.index = (0, 0) ∧ (w.port 2).killWhy = none ∧ (w.port 2).done = none := by decide

/-- Pre-emption, an acknowledged kill, one that is not, and both halves of an overrun (R45, R90, R283, R557). -/
theorem test_kills : ((after (.preemptKill 2) (live urged)).work.port 2).kill = true ∧
    (after (.killAck 2 50) (live (killing .teardown))).work.tiles = [] ∧
    ((cycled (.killAckTimeout 2) (live (killing .teardown))).work.port 2).hung = 1 ∧
    ((after (.tileOverrunHalf 2) (live runs)).work.port 2).overrun = true ∧
    ((cycled (.tileOverrunKill 2) (live (tiled port2g [{ tileIn .running {} with grace := true }]))).work.port 2).faults = 1 := by decide +kernel
theorem test_ecc : (after (.kilnEccError 2 0 (.operand 0) false) (live runs)).work.pln.corrected = 1 ∧
    ((after (.kilnEccError 2 0 (.operand 0) true) (live runs)).work.port 2).killWhy = some .kilnError := by decide

/-! ### The Planer's lanes and the ladder (R379 to R391, R404, R573 to R578) -/

def laneUnit0 (st : LaneStage) : LaneUnit :=
  { cmd := 1, tile := 0, port := 2, slot := 0, pos := 0, len := 4, discard := false, stage := st, entry := 0, want := 4, table := [], got := [] }
def laneReq0 (data : List Byte) : Req := { newReq .read true 0 4 [] (.lane 5) with tag := 9, answer := some (St.ok, data) }
def staging (st : LaneStage) (data : List Byte) : Work :=
  { tiled port2g [tileIn .staging { left := 4, pages := 1 }] with
    fab := { reqs := [laneReq0 data] }
    pln := { lanes := [(5, some (laneUnit0 st))] } }

theorem witness_PlanerLanes_unit : ∀ w ∈ [staging .data [1, 2, 3, 4]], laneUnit w 5 = some (laneUnit0 .data) ∧ laneReq w 5 = some (laneReq0 [1, 2, 3, 4]) ∧
    w.cmd 1 = some execCmd ∧ w.tiles.find? (fun x => takesUnit execCmd (laneUnit0 .data) x) = some (tileIn .staging { left := 4, pages := 1 }) ∧
    (∀ o ∈ [slotObj w execCmd 0], unitTail o (laneUnit0 .data) = false ∧ unitOpen o (laneUnit0 .data) = false ∧
      unitOutput o (laneUnit0 .data) (unitWant o { left := 4, pages := 1 } (laneUnit0 .data)) [1, 2, 3, 4] =
        (St.ok, { bytes := [1, 2, 3, 4], found := 4 })) := by decide
theorem witness_PlanerLanes_pages : ∀ w ∈ [staging .data [1, 2, 3, 4]],
    ∀ d ∈ [({ left := 4, pages := 1 } : SlotData).finish { pos := 0, next := 4, found := 4, bytes := [1, 2, 3, 4] }],
      d.left = 0 ∧ tilePages execCmd (tileIn .staging { left := 4, pages := 1 }) + (d.pages - 1) ≤ (w.port 2).pages ∧
      d.pages - 1 ≤ freePages w 2 := by decide
/-- The last unit of an operand of a code format, whose span may hold more than its nominal lines. -/
theorem witness_PlanerLanes_waits : unitTail { live := true, size := 2 ^ 20, fmt := 1 } { laneUnit0 .data with pos := 256, len := 256 } = true ∧
    (({ left := 8 } : SlotData)).at0 ≠ ({ laneUnit0 .data with pos := 256 } : LaneUnit).pos := by decide
theorem witness_PlanerLanes_tables : tableFits (bytesAt [0x11] 0 128) = true ∧ tableFits (bytesAt [] 0 128) = false ∧
    laneUnit (staging .table []) 5 = some (laneUnit0 .table) ∧ (laneUnit0 .table).discard = false := by decide +kernel
def job : CommitJob := { cmd := 1, tile := 0, port := 2, lastAt := 0, lastBytes := [], writesLeft := 0, lastSent := true, done := true, failed := none }
def committing : Work := { tiled port2g [tileIn .committing {}] with pln := { commits := [(1, some job)] } }
theorem witness_PlanerLanes_commit : commitJob committing 1 = some job ∧ commitBusy committing 1 = false ∧ completes committing execCmd 0 = true ∧
    sigOf committing execCmd = none ∧ execCmd.badStatus = 0 ∧ execCmd.slice = some 0 := by decide

theorem witness_PlanerLanes_signal : ∀ c ∈ [{ execCmd with bytes := patchBytes execCmd.bytes 1 [0x10] }],
    ∀ w ∈ [{ committing with cmds := [c] }], completes w c 0 = true ∧ sigOf w c ≠ none ∧ c.badStatus = 0 ∧
      (commitTile w 1 0).isSome = true ∧ tileCount c.bytes ≤ [1].length + 1 := by decide

/-- A unit stages its tile, a bad table fails its command, and a commit frees its lane (R383, R390, R404). -/
theorem test_lanes : ((after (.expanderUnitDone 5) (live (staging .data [1, 2, 3, 4]))).work.tiles.map Tile.state) = [.staged] ∧
    ((after (.expanderUnitDone 5) (live (staging .data [1, 2, 3, 4]))).work.ctx 0 0).planerBytes = 4 ∧
    ended (after (.tableLoad 5) (live (staging .table []))) = some 0x6006 ∧
    (after (.commitDone 1) (live committing)).work.tiles = [] := by decide +kernel

def laddered (st : PortSt) (rung : Nat) : Work :=
  tiled { port2g with state := st, hrstN := st == .hardReset, ladder := some { rung := rung, named := 0, status := 0x3002, cmd := none } } []
theorem witness_PortAndDomainResets_ladder : ((laddered .softReset 1).port 2).state = .softReset ∧ awaitsIdle (laddered .hardReset 2) 2 = true ∧
    rungOf (laddered .hardReset 3) 2 = 3 ∧ (laddered .hardReset 3).pln.engineDomain = false ∧
    matrixLeft ({ laddered .hardReset 3 with ports := [(2, { port2g with ladder := some { rung := 3, named := 0, status := 0, cmd := none } }), (4, port2)] }.updPort 2
      fun y => { y with state := .retired }) = true := by decide
theorem witness_PortAndDomainResets_named : ∀ c ∈ [domainCmd 1 2 1], ∀ w ∈ [{ withCmd c with
      ports := [(2, ({ port2 with state := .softReset, ladder := some { rung := 1, named := 1, status := 0, cmd := some 1 } } : Port))] }],
    (w.port 2).state = .softReset ∧ ((w.port 2).ladder.bind Ladder.cmd) = some c.id ∧ w.cmd c.id = some c ∧ c.endStatus = none := by decide
/-- A tile runs, and a lane holds a unit that waits for no answer. -/
def stalled : Work := { runs with pln := { lanes := [(5, some (laneUnit0 .data))] } }
def resetting (inReset : Bool) : Work := { withPort { port2 with state := .hardReset } {} with pln := { engineDomain := true, inReset := inReset } }
theorem witness_PortAndDomainResets_domain : ∀ b ∈ [true, false], (resetting b).pln.engineDomain = true ∧ (resetting b).pln.inReset = b ∧
    (∀ p, p < 16 → rungOf (resetting b) p < 3) ∧ ((resetting b).port 2).present = true ∧ ((resetting b).port 2).state ≠ .retired ∧
    planerWorks stalled = true ∧ stalled.pln.inReset = false ∧ stalled.pln.engineDomain = false ∧ planerWorks (tiled port2g []) = false ∧
    stalled.tiles = [tileIn .running {}] ∧ (stalled.port 2).killWhy = none := by decide
theorem witness_PortAndDomainResets_ports : resetDomainPorts (resetting true) = [2] ∧ ((resetting true).port 2).state = .hardReset ∧
    (laddered .softReset 1).port 2 ≠ {} ∧ (running {}).dct.retireAfter ≤ (satInc (254 : BitVec 8)).toNat ∧
    (satInc (0 : BitVec 8)).toNat < (running {}).dct.retireAfter := by decide
theorem witness_PortAndDomainResets_rungs (b : Bool) : ∀ p, rungOf (resetting b) p < 3 ∧ rungOf (resetting b) p ≠ 4 := by
  intro p
  have h : ((resetting b).port p).ladder = none := by
    by_cases hp : p = 2
    · subst hp; cases b <;> decide
    · have : (resetting b).port p = {} := by
        cases b <;> simp [resetting, withPort, Work.port, tblGet] <;> omega
      rw [this]
  simp [rungOf, h]

/-- Rungs 1 and 2 end with the port in service; the switch that falls retires it; the Planer's watchdog resets the Planer
(R573 to R578). -/
theorem test_ladder : ((after (.softResetAck 2) (live (laddered .softReset 1))).work.port 2).state = .inService ∧
    ((after (.softResetTimeout 2) (live (laddered .softReset 1))).work.port 2).lastRung = 2 ∧
    ((after (.engineIdle 2) (live (laddered .hardReset 2))).work.port 2).state = .inService ∧
    ((after (.hrstWaitTimeout 2) (live (laddered .hardReset 2))).work.port 2).lastRung = 3 ∧
    ((after (.retireWaitTimeout 2) (live (laddered .hardReset 3))).work.pln.engineDomain) = true := by decide
theorem test_engine_domain : ((after .engineDomainReset (live (resetting true))).work.port 2).hrstN = true ∧
    (after .engdomWaitTimeout (live (resetting true))).work.cap.blockReset = true ∧
    ((after .engdomWaitTimeout (live (resetting false))).work.port 2).state = .retired ∧
    ((after .planerWatchdog (live stalled)).work.port 2).kill = true := by decide

/-! ### The Tenon ports (R465 to R513) -/

/-- A block whose port 2 is as given, with the Tenon domain on. -/
def linked (x : LinkPort) (w : Work) : State :=
  { core := { running { w with sw := [(domainKey .tnl, { on := true, ack := true, iso := false })] } with lnk := { ports := [(2, x)] } } }
def locks : Lane := { rxLock := true, blockLock := true }
def training (step : Nat) : LinkPort := { state := .training, step := step, lane0 := locks, lane1 := locks }
def block0 (chip : BitVec 6) (counter : BitVec 16) : TrainBlk :=
  { lane := 0, chip := chip, chipValid := true, port := 3, seen := true, done := true, counter := counter, rev := 0x10 }

theorem witness_LinkTraining_states : (linked (training 4) {}).live ∧ tnlOn (linked (training 4) {}).core = true ∧
    (linked (training 4) {}).core.lport 2 = training 4 ∧ (training 4).lane0.blockLock = true ∧ (training 0).step = 0 ∧
    ({ training 0 with state := .lost } : LinkPort).state = .lost ∧ (training 6).step ≤ 6 ∧ 1 ≤ (training 1).step := by decide
/-- Lanes with and without block lock; sync headers that are valid and that are not. -/
theorem witness_LinkTraining_lanes : ({ rxLock := true } : Lane).blockLock = false ∧ locks.blockLock = true ∧ locks.bad = 0 ∧
    ({ rxLock := true } : Lane).good = 0 ∧ syncValid 1 = true ∧ syncValid 2 = true ∧ syncValid 3 = false ∧
    (training 4).lane (1 % 2) = locks ∧ ({ training 4 with lane1 := {} } : LinkPort).lane (1 % 2) = {} := by decide
theorem witness_LinkTraining_resets : 1 < ({ training 1 with rstWait := 2 } : LinkPort).rstWait ∧
    ({ training 1 with rstWait := 1 } : LinkPort).state = .training ∧ ({ training 1 with rstWait := 1 } : LinkPort).step = 1 := by decide
theorem witness_LinkTraining_blocks : ({ training 7 with state := .up } : LinkPort).inTouch = true ∧ (block0 1 40).rev.toNat / 16 = 1 ∧
    ({ block0 1 40 with rev := 0x20 } : TrainBlk).rev.toNat / 16 ≠ 1 ∧ ({ training 4 with lastCounter1 := some 24 } : LinkPort).lastCounter1 = some 24 ∧
    ({ training 4 with lastCounter1 := some 24 } : LinkPort).seenRun < 15 := by decide
theorem witness_LinkTraining_skew : min (40#16 - 24#16).toNat (24#16 - 40#16).toNat = 16 ∧ min (40#16 - 23#16).toNat (23#16 - 40#16).toNat = 17 := by
  decide +kernel
theorem witness_LinkTraining_last : ∀ x ∈ [({ training 6 with lastCounter0 := some 3, lastCounter1 := some 3, seenRun := 15, doneRun := 15 } : LinkPort)],
    x.state = .training ∧ x.step = 6 ∧ x.lastCounter0 ≠ none ∧ x.lastCounter1 ≠ none ∧ 15 ≤ x.seenRun ∧ 15 ≤ x.doneRun ∧
    expectedNeighbour (linked x {}).core 2 = none := by decide +kernel
theorem witness_LinkTraining_pings : ∀ x ∈ [({ training 7 with pinging := true, pings := List.replicate 15 200 } : LinkPort)], x.pinging = true ∧
    x.pings.length = 15 ∧ (x.pings ++ [8210 - 8000 - 10]).foldl max 0 - (x.pings ++ [8210 - 8000 - 10]).foldl min 200 ≤ 16 ∧
    ({ x with pings := [] } : LinkPort).pings.length < 15 ∧ (linked x {}).core.delivers 2 1 = true ∧
    (linked { x with lane0 := {} } {}).core.delivers 2 1 = false := by decide +kernel
theorem witness_LinkTraining_remeasure : ∀ x ∈ [({ training 7 with state := .up } : LinkPort)], (linked x {}).core.clk.beat.toNat % 256 = 0 ∧ x.state = .up := by decide

/-- RETRAIN, a wrong revision, the sixteenth PING and DISABLE (R465 to R472). -/
theorem test_training : ((after (.retrain 2) (linked { state := .lost } {})).lport 2).step = 1 ∧
    ((after (.trainBlock 2 { block0 1 40 with rev := 0x20 }) (linked (training 4) {})).lport 2).subCause = 4 ∧
    ((after (.pingBlock 2 15 true 10 8210 0) (linked { training 7 with pinging := true, pingAt := 8000, pings := List.replicate 15 200 } {})).lport 2).hop = 100 ∧
    ((after (.blockLockChange 2 0 (List.replicate 64 1)) (linked { state := .training, step := 3, lane0 := { rxLock := true } } {})).lport 2).lane0.blockLock = true ∧
    ((after (.portDisable 2) (linked (training 4) {})).lport 2).state = .disabled := by decide +kernel

def flits : List Byte := [0x10, 0, 0, 1, 1, 0, 0, 0] ++ List.replicate 56 0
def inUp : LinkPort := { training 7 with state := .up }
theorem witness_LinkFrames_frame : inUp.inTouch = true ∧ flits.length = 64 ∧ nextRx inUp = 0 ∧ (msgOf (bytesAt flits 0 32)).typ = 0x10 ∧
    knownType 0x10 = true ∧ (msgOf (bytesAt flits 0 32)).bcast = false ∧ (msgOf (bytesAt flits 0 32)).dest = 0 ∧ (1 : BitVec 8) ≠ nextRx inUp := by decide
theorem witness_LinkFrames_delivers : ∀ bs ∈ [frameBlocks 0 flits 0], (linked inUp {}).core.delivers 2 bs.length = true ∧
    (linked { inUp with lane1 := {} } {}).core.delivers 2 bs.length = false ∧ (linked inUp {}).core.delivers 2 1 = true := by decide +kernel
theorem witness_LinkFrames_crc : ∃ crc : BitVec 32, frameCrc 0 flits = crc := ⟨_, rfl⟩
theorem witness_LinkFrames_chip : (linked inUp {}).core.dct.chipNum = 0xFF ∧ (onFrame {}).core.dct.chipNum = 0 := by decide
def sent (r : Bool) : SentFrame := { seq := 4, flits := flits, count := 1, resent := r }
def sending (r : Bool) : LinkPort := { inUp with unacked := [sent r], rxSeq := some 9 }
def probing : LinkPort := { training 7 with state := .probation, cleanBeats := 7 }
theorem witness_LinkFrames_sent : (∀ r ∈ [true, false], (sending r).inTouch = true ∧ (sending r).unacked = [sent r] ∧ (sent r).resent = r) ∧
    probing.state = .probation ∧ probing.unclean = false ∧ probing.counted = false ∧ probing.lane0.rxLock = true ∧ 7 ≤ probing.cleanBeats.toNat ∧
    (linked probing {}).core.now - probing.ackAt ≤ 4000 ∧ ({ probing with cleanBeats := 6 } : LinkPort).cleanBeats.toNat < 7 := by decide
theorem witness_LinkFrames_window : probing.window = true := by decide
def late : Queued := { port := 2, transit := true, msg := beatMsg.2.2 }
theorem witness_LinkFrames_transit : ({ out := [late] } : MsgQueues).out = [late] ∧ late.transit = true ∧ ({ state := .sleep } : LinkPort).state = .sleep ∧
    ({ training 4 with waking := true } : LinkPort).waking = true ∧ (training 4).step < 7 := by decide
def notice : Nat × Nat × Msg := msg 0x02 [1, 1]
theorem witness_LinkFrames_notice : ∀ s ∈ [({ core := { (linked { inUp with nbrValid := true, nbrChip := 1 } (withMsg notice {})).core with frm := {} } } : State)],
    (takeMsg 0x02 s.core.work).map Prod.fst = some notice ∧ fieldAt notice.2.2.payload 0 1 = 1 ∧
    notice.2.2.src.toNat = bitsOf (fieldAt notice.2.2.payload 1 1) 5 0 ∧ s.core.frm.hasView = false := by decide

/-- A frame out of order is answered with a NAK, an ACK frees a frame, the eighth clean beat brings UP, a silent neighbour is
lost (R479, R481, R487). -/
theorem test_frames : ((after (.linkFrame 2 1 flits 0 0) (linked inUp {})).lport 2).naks = 1 ∧
    ((after (.ackBlock 2 4 false false true 60) (linked (sending false) {})).lport 2).unacked = [] ∧
    ((after (.cleanBeat 2) (linked probing {})).lport 2).state = .up ∧ ((cycled (.silenceTimeout 2) (linked inUp {})).lport 2).lastCause = 0x4002 ∧
    ((cycled (.ackTimeout 2 4) (linked (sending false) {})).lport 2).unacked.map SentFrame.resent = [true] := by decide +kernel
theorem test_sleep : ((after (.wake 2) (linked { state := .sleep } {})).lport 2).waking = true ∧
    ((after (.wakeWaitTimeout 2) (linked { training 4 with waking := true } {})).lport 2).state = .lost ∧
    (tblGet 0 (after (.transitTimeout 2 0) (linked inUp { msgs := { out := [late] } })).work.msgs.drops 2) = 1 ∧
    ((after .noticeMessage (linked { inUp with nbrValid := true, nbrChip := 1 } (withMsg notice {}))).lport 2).state = .lost := by decide +kernel

/-! ### The frame and its barriers (R514 to R542) -/

def barred (st : FrameSt) (x : Barrier) (m : Nat × Nat × Msg) : State :=
  { core := { framed (withMsg m {}) with frm := { state := st, admitted := 3, barriers := [(4, x)] } } }
def report : Nat × Nat × Msg := msg 0x20 (leBytes 1 4 ++ leBytes 1 0 ++ leBytes 2 3 ++ leBytes 4 0 ++ leBytes 8 6)
def release (count status : Nat) : Nat × Nat × Msg := msg 0x21 (leBytes 1 4 ++ leBytes 1 0 ++ leBytes 2 count ++ leBytes 2 status ++ leBytes 2 0 ++ leBytes 8 6)
/-- A report of a subtree, one that carries a status and is for a barrier that slice 0 owns, and one while LISTENING. -/
theorem witness_FrameAndBarriers_report : (∀ s ∈ [barred .member { last := 5 } report], (takeMsg 0x20 s.core.work).map Prod.fst = some report ∧
    s.core.frm.viewed = true ∧ fieldAt report.2.2.payload 4 2 = 0 ∧ fieldAt report.2.2.payload 8 8 = (s.core.bar 4).last.toNat + 1 ∧
    (s.core.bar 4).state = .idle) ∧ (barred .listening {} report).core.frm.viewed = false := by decide
def bad : Nat × Nat × Msg := msg 0x20 (leBytes 1 4 ++ leBytes 1 0 ++ leBytes 2 3 ++ leBytes 2 0x9006 ++ leBytes 2 0 ++ leBytes 8 6)
theorem witness_FrameAndBarriers_break : ∀ b ∈ [{ (barred .manager { last := 5 } bad).core with
      dct := { vals := [(0x5010, [(0, 0)]), (0x5011, [(0, 3)]), (0x5013, [(0, 0x201), (1, 0x200)]), (0x5019, [(4, 0)])] } }],
    isMgr b = true ∧ BitVec.ofNat 16 (fieldAt bad.2.2.payload 4 2) ≠ St.ok ∧ fieldAt bad.2.2.payload 8 8 = (b.bar 4).last.toNat + 1 ∧
    (b.bar 4).state ≠ .broken ∧ b.dct.barrierOwner 4 ≠ 0xFF := by decide
theorem witness_FrameAndBarriers_release : ∀ m ∈ [release 3 0, release 0 0, release 0 0x9006], ∀ s ∈ [barred .member { last := 5, arrivals := [1] } m],
    (takeMsg 0x21 s.core.work).map Prod.fst = some m ∧ isWorker s.core = true ∧ fieldAt m.2.2.payload 0 1 = 4 ∧
    fieldAt m.2.2.payload 8 8 = (s.core.bar 4).last.toNat + 1 ∧ (s.core.bar 4).state ≠ .broken := by decide
theorem witness_FrameAndBarriers_manager : ∀ b ∈ [({ framed {} with frm := { state := .manager, admitted := 1, pending := [(1, some { beats := 25000 })] } } : Block)],
    mayExclude b 1 = true ∧ b.dct.excludeBeats ≤ 25000 ∧ ({ framed {} with frm := { state := .listening, listened := 5000 } } : Block).dct.joinListen ≤ 5000 ∧
    b.dct.chipNum = 0 := by decide

/-- A report is kept, a release reopens the barrier, and chip 0 founds a frame (R514, R536, R538). -/
theorem test_truss : (tblGet 0 ((cycled .barrierArriveMessage (barred .member { last := 5 } report)).bar 4).reports 1) = 3 ∧
    ((after .barrierRelease (barred .member { last := 5 } (release 3 0))).bar 4).last = 6 ∧
    ((after .barrierRelease (barred .member { last := 5 } (release 0 0x9006))).bar 4).state = .broken := by decide +kernel

/-! ### The dictionary (R294, R525 to R528, R553, R668 to R678) -/

/-- A block whose window holds the bytes of a request, sent. -/
def windowed (bytes : List Byte) (w : Work) : State :=
  { core := { running w with
    dct := { vals := [(0x4100, [(0x10, 0x01000001)])], busy := true, buf := (bytes.zipIdx.filter fun p => p.1 != 0).map fun p => (p.2, p.1) } } }
/-- OP, TARGET, INDEX, SUBINDEX, TYPE, LENGTH, OFFSET and data of a request (R669). -/
def request (op target index sub ty len off : Nat) (data : List Byte) : List Byte :=
  leBytes 1 op ++ leBytes 1 target ++ leBytes 2 index ++ leBytes 1 sub ++ leBytes 1 ty ++ leBytes 2 len ++ leBytes 4 off ++ data
def window (op target index sub ty len off : Nat) (data : List Byte) : State := windowed (request op target index sub ty len off data) {}
/-- The request in a window. -/
def asked (s : State) : DictReq := reqOf (windowBody s.core)

theorem witness_DictionaryAtTheWindow_bad : ∀ s ∈ [window 5 0 0 0 0 0 0 [], window 1 0x80 0x2001 0 0 1 0 [], window 1 0x41 0x2001 0 0 1 0 []],
    s.live ∧ WindowTurn s.core ∧ (asked s).away s.core = (s == window 1 0x41 0x2001 0 0 1 0 []) ∧ s.core.frm.fwd.length < 16 ∧
    isMgr s.core = false := by decide +kernel
theorem witness_DictionaryAtTheWindow_rows : (asked (window 1 0 0x1234 0 0 1 0 [])).index = 0x1234 ∧ paramRow 0x1234 0 = none ∧
    (paramRow 0x2001 0).isSome = true ∧ ((paramRow 0x2001 0).map fun r => (r.ty.code, r.ty.size)) = some (2, 1) ∧
    ((paramRow 0x501B 0).map PRow.acc) = some .wo ∧ ((paramRow 0x5016 0).map PRow.acc) = some .ro := by decide +kernel
theorem witness_DictionaryAtTheWindow_read : ∀ s ∈ [window 1 0 0x2001 0 0 1 0 [], window 1 0 0x2001 0 2 4096 0 []], WindowTurn s.core ∧
    (asked s).op = 1 ∧ (asked s).target < 64 ∧ (asked s).len ≤ 4096 ∧ (asked s).off = 0 ∧ 1 ≤ (asked s).len := by decide +kernel
theorem witness_DictionaryAtTheWindow_write : ∀ s ∈ [window 2 0 0x2001 0 2 1 0 [8]], WindowTurn s.core ∧ (asked s).op = 2 ∧ (asked s).ty = 2 ∧
    (asked s).len = 1 ∧ leNat (asked s).data = 8 ∧ (asked s).off = 0 ∧ (asked s).sub = 0 ∧
    (paramRow 0x2001 0).map (fun row => (locked s.core row 0, valueOk s.core.st.present s.core.dictNow row 0x2001 0 8,
      valueOk s.core.st.present s.core.dictNow row 0x2001 0 3)) = some (false, true, false) := by decide +kernel
theorem witness_DictionaryAtTheWindow_clear : ∀ s ∈ [windowed (request 2 0 0x4100 0x18 1 1 0 [1]) { objs := [(1, { live := true })] }],
    WindowTurn s.core ∧ leNat (asked s).data = 1 ∧ (asked s).index = 0x4100 ∧ (asked s).sub = 0x18 ∧ s.core.dct.trackHandle 0 0 = 0x01000001 ∧
    handleLive s.core.work 0 0x01000001 = true ∧ ((paramRow 0x4100 0x18).map fun r => (r.ty.code, r.ty.size)) = some (1, 1) := by decide +kernel
theorem witness_DictionaryAtTheWindow_info : (asked (window 3 0 0x2001 0 0 0 0 [])).op = 3 ∧ WindowTurn (window 3 0 0x2001 0 0 0 0 []).core ∧
    (asked (window 4 0 0 0 0 0 0 [])).op = 4 ∧ newerHalf none none = none ∧ newerHalf (some 4) (some 3) = some false ∧
    newerHalf (some 4) (some 5) = some true := by decide +kernel

/-- A value in range is taken, one out of range aborts with VALUE_RANGE, and INDEX must exist (R671). -/
theorem test_dictionary : (after (windowRow 2) (window 2 0 0x2001 0 2 1 0 [8])).clk.quarters = 8 ∧
    (after (windowRow 2) (window 2 0 0x2001 0 2 1 0 [3])).dct.lastStatus = 0x9004 ∧
    (after (windowRow 1) (window 1 0 0x1234 0 0 1 0 [])).dct.lastStatus = 0x9001 := by decide +kernel
/-- A SAVE leaves its half without a record, and stays unanswered, until it ends; a slice that has left OFF in the cycle takes the
FENCE_COUNT that is written then (R690). -/
theorem test_save : let b := beginDictSave { path := .bar0, eid := 0, tag := 0, src := 0, body := [] } true (running {})
    b.dct.halfA = none ∧ dictSaving b = true ∧ (saveEnds b).dct.halfA = some 1 ∧ (saveEnds b).dct.serving = none ∧
    (sillTest b).pwr.testWaits = true ∧
    ((writePar 0x3006 2 [7, 0] (running ((running {}).work.later (.leftOff 2)))).work.slice 2).fenceCount = 7 := by decide +kernel

def mctp (tag : Byte) : List Byte := [0x7E, 0x12, 0x34, 1] ++ request 1 0 0x2001 0 0 1 0 [] ++ [tag]
def servingNow : Serving := { path := .bar0, eid := 0, tag := 0, src := 0, body := request 1 0x41 0x2001 0 0 1 0 [] }
def managed (d : Dict) (f : Frame) (w : Work) : State := { core := { framed w with dct := { d with vals := (framed w).dct.vals ++ d.vals }, frm := f } }
theorem witness_DictionaryPaths_mctp : ∀ w ∈ [[], [((9 : BitVec 8), (1 : BitVec 8), ([] : List Byte))]],
    ∀ d ∈ [({ vals := [(0x1021, [(0, 0x1234)])], serving := some servingNow, waitMctp := w } : Dict)],
      fieldAt (mctp 0) 0 1 = 0x7E ∧ fieldAt (mctp 0) 3 1 = 1 ∧ d.serving.isSome = true ∧ d.waitMctp.any (fun x => x.1 == 9) = !w.isEmpty := by
  decide +kernel
theorem witness_DictionaryPaths_vendor : ∃ d : Dict, d.serving.isSome = true ∧ d.vendorId ≠ 0xFFFF ∧ 256 * fieldAt (mctp 0) 1 1 + fieldAt (mctp 0) 2 1 = d.vendorId := by
  exact ⟨{ vals := [(0x1021, [(0, 0x1234)])], serving := some servingNow }, by decide +kernel⟩
def manager2 : Frame := { state := .manager, admitted := 3 }
def remoteReq (a : BitVec 64) : State := managed { busy := true, buf := [(0, 1), (1, 0x41), (2, 1), (3, 0x20), (6, 1)] } { manager2 with admitted := a } {}
theorem witness_DictionaryPaths_remote : WindowTurn (remoteReq 3).core ∧ (asked (remoteReq 3)).remote = true ∧ (asked (remoteReq 3)).chip = 1 := by
  decide +kernel
theorem witness_DictionaryPaths_chips : (remoteReq 3).core.dct.chipNum = 0 ∧ isMgr (remoteReq 3).core = true ∧ inF (remoteReq 3).core 1 = true ∧
    follows (remoteReq 3).core 1 = true ∧ follows (remoteReq 1).core 1 = false ∧ (remoteReq 3).core.frm.fwd = [] ∧
    inF (remoteReq 3).core 5 = false := by decide +kernel
def reqMsg : Nat × Nat × Msg := msg 0x30 (leBytes 2 7 ++ [0x80, 12] ++ request 1 0 0x2001 0 0 1 0 [])
theorem witness_DictionaryPaths_request : ∀ m ∈ [(1 : BitVec 6), 2], ∀ s ∈ [managed {} { state := .member, admitted := 7, mgr := m } (withMsg reqMsg {})],
    (takeMsg 0x30 s.core.work).map Prod.fst = some reqMsg ∧ followed s.core 1 = (m == 1) ∧ fieldAt reqMsg.2.2.payload 2 1 % 128 = 0 ∧
    s.core.frm.reqIn = [] := by decide +kernel
def rspMsg (seg : Nat) : Nat × Nat × Msg := msg 0x31 (leBytes 2 7 ++ leBytes 1 seg ++ [8, 0x81, 0, 0, 0, 1, 0, 0, 0])
def carried : Forwarded := { tag := 7, chip := 1, why := .carried }
theorem witness_DictionaryPaths_answer : ∀ seg ∈ [0, 0x80], ∀ s ∈ [managed { busy := true, serving := some servingNow } { manager2 with fwd := [carried] } (withMsg (rspMsg seg) {})],
    (takeMsg 0x31 s.core.work).map Prod.fst = some (rspMsg seg) ∧ s.core.frm.fwd = [carried] ∧ carried.tag = BitVec.ofNat 16 (fieldAt (rspMsg seg).2.2.payload 0 2) ∧
    fieldAt (rspMsg seg).2.2.payload 2 1 % 128 = carried.nextSeg ∧ (fieldAt (rspMsg seg).2.2.payload 2 1).testBit 7 = (seg == 0x80) ∧
    s.core.dct.serving = some servingNow := by decide +kernel

/-- GO is discarded while a request is served, an answer ends it, so does its timeout, and JOIN_STATE makes a member (R498,
R528, R553, R672). -/
theorem test_paths : (after (.dictGo true) (live {})).dct.busy = true ∧
    (after .dictRsp (managed { busy := true, serving := some servingNow } { manager2 with fwd := [carried] } (withMsg (rspMsg 0x80) {}))).dct.busy = false ∧
    (after (.dictReqTimeout 7) (managed { busy := true, serving := some servingNow } { manager2 with fwd := [carried] } {})).dct.lastStatus = 0x4003 ∧
    (after (.joinState (leBytes 8 3)) { core := { framed {} with frm := { state := .following } } }).frm.state = .member := by decide +kernel

theorem witness_ManagementEndpoint : (live {}).live ∧ (9 : BitVec 8) ≠ 0 ∧ (9 : BitVec 8) ≠ 0xFF ∧ (1 : BitVec 8) ≠ 0x7E ∧
    ({ running {} with pwr := { state := .ps3 } } : Block).pwr.transition = none ∧ ({ running {} with pwr := { frozen := true } } : Block).pwr.frozen = true ∧
    (0x2C : BitVec 7).toNat = (live {}).core.dct.staticAddr ∧ (0x2D : BitVec 7).toNat ≠ (live {}).core.dct.staticAddr := by decide
theorem test_management : (after (.setEndpointId 1 2 0x80 9) (live {})).mgmt.eid = 9 ∧ (after (.setEndpointId 1 2 0x80 0xFF) (live {})).mgmt.eid = 0 ∧
    (after (.setdasa ⟨0x2C, 8⟩) (live {})).mgmt.dynAddr = some 8 ∧ (after (.setdasa ⟨0x2D, 8⟩) (live {})).mgmt.dynAddr = none ∧
    (after (.setdasa ⟨0x2C, 8⟩) { core := { running {} with pwr := { state := .ps3 } } }).pwr.wakeSrc = 5 := by decide +kernel

theorem witness_PoolSumsBounded : ∀ s ∈ [managed { vals := [(0x3006, [(1, 65000)])], busy := true, buf := [(0, 2), (2, 6), (3, 0x30), (5, 3), (6, 2), (12, 0), (13, 3)] } {} {}],
    WindowTurn s.core ∧ (asked s).op = 2 ∧ (asked s).ty = 3 ∧ (asked s).len = 2 ∧ (asked s).index = 0x3006 ∧ (asked s).sub = 0 ∧
    65536 < leNat (asked s).data + s.core.dct.par 0x3006 1 + s.core.dct.par 0x3006 2 := by decide +kernel

/-! ### Power (R617 to R642) -/

/-- A block in a power state, with the joiner running so that no domain is in reset. -/
def powered (x : Power) (w : Work) : State := { core := { running { w with jnr := { state := .running } } with pwr := x } }
theorem witness_PowerStates_orders : mayPs2 (powered {} {}).core = true ∧ mayPs3 (powered {} {}).core = true ∧
    mayPs2 (powered {} runs).core = false ∧ (powered {} {}).live ∧ ({} : Power).volt0 = none ∧ ({} : Power).transition = none ∧
    ({ state := .ps2 } : Power).volt1 = none := by decide
theorem witness_PowerStates_levels : railTarget (powered {} {}).core .ps2 0 = 0 ∧ railTarget (powered {} {}).core .ps2 1 = 0 ∧
    railTarget { (powered {} {}).core with dct := { vals := [(0x6011, [(8, 700)])] } } .ps2 0 = 700 ∧
    (powered {} {}).core.dct.sillCapable = false ∧ ({ vals := [(0x6013, [(0, 1)])] } : Dict).wakeAfterMs ≠ 0 := by decide
theorem witness_PowerStates_ps1 : ∀ w ∈ [(powered {} {}).core.work], w.tiles = [] ∧ (w.pln.lanes.all fun p => p.2.isNone) = true ∧
    (w.pln.commits.all fun p => p.2.isNone) = true := by decide
theorem witness_PowerStates_wake : ∀ st ∈ [PowerSt.ps2, .ps3], ∀ s ∈ [({ (powered { state := st } {}) with
      core := { (powered { state := st } {}).core with lnk := { ports := [(2, { state := .sleep })] } } } : State)],
    s.core.pwr.frozen = false ∧ s.core.pwr.transition = none ∧ s.core.pwr.state = st ∧ (s.core.lport 2).state = .sleep ∧
    ({ clkReq := false } : Fabric).clkReq = false := by decide
/-- A wake pattern on lane 0, and a lane without an edge. -/
theorem witness_PowerStates_edges : ∀ x ∈ [({ state := .sleep } : LinkPort)], x.lane0.tone = 0 ∧ x.lane1.tone = 0 ∧ x.lane0.windows = [] ∧
    x.lane1.windows = [] ∧ (x.sense (List.replicate 16 (1, 0))).2 = true ∧ (x.sense (List.replicate 15 (1, 0))).2 = false ∧
    (x.sense [(0, 0)]).2 = false := by decide +kernel
/-- The domains CTL, PLN and that of engine 2 are switched on; CTL's switch has acknowledged. -/
def switched (w : Work) : Work := { w with sw := [
  (domainKey .ctl, { on := true, ack := true, iso := false }), (domainKey .pln, { on := true }), (domainKey (.eng 2), { on := true })] }
theorem witness_PowerStates_switch : ∀ w ∈ [switched {}], (w.switch (.eng 2)).on = true ∧ (w.switch (.eng 2)).ack = false ∧
    (w.switch .pln).on = true ∧ (w.switch .pln).ack = false ∧ ((resetting false).port 2).state = .hardReset ∧ Domain.pln ≠ .eng 2 := by decide
theorem witness_PowerStates_exit : ∀ x ∈ [({ state := .ps3, transition := some .ps0, stage := 3 } : Power)],
    domainUp (powered x (switched {})).core .ctl = true ∧ Settled (powered x (switched {})).core ∧
    ({ x with stage := 1 } : Power).stage = 1 := by decide

/-- GO_PS2 enters PS2 where the rails need no change, GO_PS0 leaves it by source 7, and PS1 comes and goes (R618 to R624). -/
theorem test_power : (powerAdvance (entryBegins (after .goPs2 (powered {} {})))).pwr.state = .ps2 ∧
    (entryBegins (powered { transition := some .ps2 } runs).core).pwr.lastStatus = 0x1001 ∧ (after .goPs2 (powered {} runs)).pwr.lastStatus = 0x1001 ∧
    (after .goPs0 (powered { state := .ps2 } {})).pwr.wakeSrc = 7 ∧ (after .ps1IdleTimeout (powered {} {})).pwr.state = .ps1 ∧
    (after .ps1Exit (powered { state := .ps1 } {})).pwr.state = .ps0 ∧ (after .fnWakeReq (powered { state := .ps3 } { fab := { clkReq := false } })).pwr.wakeSrc = 2 := by decide +kernel
theorem test_switch : (after (.pswAck .pln) (powered {} (switched {}))).work.switch .pln = { on := true, ack := true, iso := false } ∧
    (after (.pswAck (.eng 2)) (powered {} (switched {}))).work.switch (.eng 2) = { on := true, ack := true, iso := true } ∧
    (after .clkOkRise (powered {} {})).work.fab.clkOk = true := by decide +kernel

def volt (raising retry failed : Bool) : VoltReq := { target := 750, previous := 700, retry := retry, raising := raising, failed := failed }
theorem witness_Voltages : ∀ r ∈ [volt true false false, volt true true false, volt false false false, volt true false true],
    ∀ x ∈ [({ volt0 := some r } : Power)], railReq x 0 = some r ∧ railReq x 1 = none ∧ x.transition = none ∧ x.frozen = false ∧
    r.target.toNat ≤ 745 + (powered x {}).core.dct.voltTol ∧ 745 ≤ r.target.toNat + (powered x {}).core.dct.voltTol ∧
    ¬(r.target.toNat ≤ 700 + (powered x {}).core.dct.voltTol) := by decide +kernel
theorem witness_Voltages_alert : ∀ s ∈ [powered {} (switched {})],
    (0x8000 : BitVec 16) &&& 0xE000 ≠ 0 ∧ (4 : BitVec 16) &&& 0xE000 = 0 ∧ (lastCycle s.core).pwr.frozen = false ∧
    (lastCycle s.core).st.inPor = false ∧ domainUp (lastCycle s.core) .ctl = true ∧ s.core.pwr.state ≠ .ps3 := by
  decide +kernel

/-- A rail in tolerance ends its request; one that is not acknowledged is tried again; a warning is counted (R628 to R630). -/
theorem test_voltages : (after (.voltageReadback 0 745) (powered { volt0 := some (volt true false false) } {})).pwr.target0 = 750 ∧
    (after (.voltageTimeout 0) (powered {} {})).work.late = [.voltage 0] ∧
    (decideLate (powered { volt0 := some (volt true false false) } {}).core (.voltage 0)).pwr.lastStatus = 0x8002 ∧
    ((after (.voltageRetryTimer 0) (powered { volt0 := some (volt true false true) } {})).pwr.volt0.map VoltReq.retry) = some true ∧
    (after (.pmbAlert (some 4)) (powered {} {})).pwr.warnings = 1 ∧ (after (.vrTelemetryPoll (some 1) (some 2) none) (powered {} {})).pwr.iout = 2 ∧
    (after (.pmbAlert none) (powered {} {})).pwr.warnings = 0 := by decide +kernel

def frozen (busy : Option (SillWhy × Bool × List Byte)) (waits : Bool) : State :=
  powered { frozen := true, pwrfailLow := true, sillBusy := busy, sillWaits := waits } {}
theorem witness_PowerFailure : ∀ busy ∈ [none, some (SillWhy.freeze, false, ([] : List Byte))], (frozen busy true).core.pwr.frozen = true ∧
    (frozen busy true).core.pwr.pwrfailLow = true ∧ (frozen busy true).core.pwr.sillBusy = busy ∧ Settled (frozen busy true).core := by decide
theorem witness_PowerFailure_sill : ∀ s ∈ [powered {} (switched {})],
    let b0 := lastCycle s.core
    b0.pwr.frozen = false ∧ b0.st.inPor = false ∧ domainUp b0 .ctl = true ∧ b0.st.loaded = true ∧ s.core.pwr.pwrfailLow = false ∧
    b0.dct.sillCapable = false := by decide +kernel
theorem witness_PowerFailure_capable : ∃ d : Dict, d.sillCapable = true := ⟨{ vals := [(0x6007, [(0, 1)])] }, by decide⟩
theorem witness_PowerFailure_test : ({ sillBusy := some (.test, false, []) } : Power).sillBusy = some (.test, false, []) ∧ ({} : Power).sillSlotA = none := by decide

/-- The failure freezes the block, the record's last byte closes it, and PWRFAIL_N high starts the block again (R631 to R639). -/
theorem test_failure : (after .pwrfailNFall (powered {} (switched {}))).pwr.freezeReason = 0x8001 ∧
    (after .sillWriteDone (frozen (some (.freeze, false, [])) false)).pwr.sillDone = true ∧ (after .pwrfailNRise (frozen none false)).st.cause = 5 ∧
    (after .pwrfailNRise (frozen (some (.freeze, false, [])) false)).pwr.sillWaits = true := by decide +kernel

/-! ### Resets and starts (R56, R57, R65, R110 to R112, R644 to R657, R678) -/

/-- A block in a step of a start. -/
def starting (x : Start) : State := { core := { running { jnr := { state := .running }, fab := { clkOk := true } } with st := x } }
theorem witness_Resets : (starting { inPor := false }).core.pwr.frozen = false ∧ Settled (starting { inPor := false }).core ∧ State.reset.core.st.inPor = true ∧
    (∀ n ∈ [(1 : BitVec 8), 2], (starting { inPor := false, warm := true, warmFails := n }).core.st.done = false ∧
      mayComplete (starting { inPor := false, warm := true, warmFails := n }).core = false) ∧
    mayComplete (starting { step := 7, loaded := true, inPor := false, warm := true, warmFails := 2 }).core = true ∧ (frozen none false).core.pwr.frozen = true := by decide
theorem test_resets : (after (.porstNRise 5 1) State.reset).st.step = 1 ∧ ((after (.porstNRise 5 1) State.reset).work.port 2).present = true ∧
    (after (.sysrstNPulse 1000) (live {})).st.warm = true ∧ (after .fnFlrReq (live {})).st.cause = 2 ∧
    (after .fnFlrReq (starting { step := 7, loaded := true, inPor := false, warm := true, warmFails := 2 })).st.warm = true ∧ (after (.sysrstNPulse 99) (live {})).st.done = true ∧
    (after .startTimeout (starting { inPor := false, warm := true, warmFails := 2 })).st.cause = 6 ∧ (after .porstNFall (live {})).st.inPor = true := by
  decide +kernel

/-- The identity of lot 7, with its CHECK (R111). -/
def fuseWord : BitVec 128 := 7 ||| ((fuseCrc 7).setWidth 128 <<< 112)
theorem witness_StartSteps_fuse : fuseCrc fuseWord = fuseWord.extractLsb' 112 16 ∧ fuseCrc 0 ≠ (0 : BitVec 128).extractLsb' 112 16 := by decide +kernel
theorem witness_StartSteps : (starting { inPor := false, warm := true, step := 1 }).core.work.fab.clkOk = true ∧ (starting { step := 3, inPor := false }).core.st.step = 3 ∧
    (starting { step := 4, inPor := false }).live ∧ (starting { step := 5, inPor := false }).core.st.loaded = false ∧
    mayComplete (starting { step := 7, loaded := true, inPor := false }).core = true ∧ mayComplete (starting { step := 5, inPor := false }).core = false := by decide
/-- A frame of chip 0 alone, one that chip 0 shares with chip 1, and two that fail the checks: no number, and a member without a link. -/
theorem witness_StartSteps_frames : (∀ d ∈ [({ vals := [(0x5010, [(0, 0)]), (0x5011, [(0, 1)])] } : Dict)], frameOk d = true ∧ d.chipNum = 0 ∧
      ∀ c, c < 64 → c ≠ 0 → d.frameMembers.testBit c = false) ∧
    frameOk (framed {}).dct = true ∧ (framed {}).dct.frameMembers.testBit 1 = true ∧ frameOk (running {}).dct = false ∧
    frameOk ({ vals := [(0x5010, [(0, 0)]), (0x5011, [(0, 3)])] } : Dict) = false := by decide +kernel

/-- Fields of a part of a part of a store. -/
theorem bytesAt_bytesAt (bs : List Byte) (a n o k : Nat) (h : o + k ≤ n) : bytesAt (bytesAt bs a n) o k = bytesAt bs (a + o) k := by
  apply List.map_congr_left
  intro i hi
  have := List.mem_range.mp hi
  simp [bytesAt, List.getD_eq_getElem?_getD, show o + i < n by omega, Nat.add_assoc]
/-- Fields behind zeros. -/
theorem bytesAt_behind (n o k : Nat) (bs : List Byte) : bytesAt (List.replicate n 0 ++ bs) (n + o) k = bytesAt bs o k := by
  apply List.map_congr_left
  intro i _
  simp [List.getD_eq_getElem?_getD, List.getElem?_append_right, Nat.add_assoc]
/-- Fields behind the end. -/
theorem bytesAt_past (bs : List Byte) (o k : Nat) (h : bs.length ≤ o) : bytesAt bs o k = bytesAt [] 0 k := by
  apply List.map_congr_left
  intro i _
  simp [List.getD_eq_getElem?_getD, List.getElem?_eq_none (show bs.length ≤ o + i by omega)]
/-- A half with SEQ 1 and no entry, and its CRC-32 (R678). -/
def emptyHalf : List Byte := leBytes 4 0x54434944 ++ leBytes 2 1 ++ leBytes 2 0 ++ leBytes 4 1 ++ leBytes 4 32 ++ leBytes 12 0 ++ leBytes 4 0x0A3EA8DB
theorem emptyHalf_seq : halfSeq emptyHalf = some 1 := by decide +kernel
/-- A store whose half A is that one and whose half B has never been written. -/
def oneHalf : List Byte := List.replicate 0x10000 0 ++ emptyHalf
theorem half_field (o k : Nat) (h : o + k ≤ 32768) : bytesAt (halfOfStore oneHalf false) o k = bytesAt emptyHalf o k := by
  rw [halfOfStore, bytesAt_bytesAt _ _ _ _ _ h]
  exact bytesAt_behind 0x10000 o k emptyHalf
theorem oneHalf_seq : halfSeq (halfOfStore oneHalf false) = some 1 := by
  have h : ∀ o k, o + k ≤ 32768 → fieldAt (halfOfStore oneHalf false) o k = fieldAt emptyHalf o k := by
    intro o k hk
    rw [fieldAt, fieldAt, half_field o k hk]
  rw [← emptyHalf_seq]
  have l : fieldAt emptyHalf 12 4 = 32 := by decide +kernel
  simp only [halfSeq, withoutCrc, h 12 4 (by omega), h 0 4 (by omega), h 4 2 (by omega), h 28 4 (by omega), h 8 4 (by omega), l,
    half_field 0 28 (by omega), half_field 32 (32 - 32) (by omega)]
theorem noHalf_seq : halfSeq (halfOfStore oneHalf true) = none := by
  have h : fieldAt (halfOfStore oneHalf true) 0 4 = 0 := by
    rw [fieldAt, halfOfStore, bytesAt_bytesAt _ _ _ _ _ (by omega)]
    have : bytesAt oneHalf (halfBase true + 0) 4 = bytesAt [] 0 4 := by
      rw [← bytesAt_past emptyHalf 0x8000 4 (by decide)]
      exact bytesAt_behind 0x10000 0x8000 4 emptyHalf
    rw [this]
    decide
  rw [halfSeq, h]
  simp
theorem witness_StartSteps_load : newerHalf (halfSeq (halfOfStore oneHalf false)) (halfSeq (halfOfStore oneHalf true)) = some false := by
  rw [oneHalf_seq, noHalf_seq]
  rfl
theorem witness_StartSteps_retention : ∀ v ∈ [((3 : BitVec 64), (0 : BitVec 64), ([] : Tbl Nat))],
    ({ restView := some v } : Power).restView = some v ∧ ({ warm := true, cause := 4, step := 5 } : Start).warm = true := by decide

/-- The identity of the fuse word, self-test, and the end of a start (R110, R649, R654). -/
theorem test_start : (after (.fuseAck fuseWord) (starting { step := 3, inPor := false })).st.lot = 7 ∧
    (after (.fuseAck 0) (starting { step := 3, inPor := false })).st.fuseTries = 1 ∧
    (after (.selfTestDone false false false 2 1) (starting { step := 4, inPor := false })).st.bistPorts = 1 ∧
    (after (.selfTestDone true false false 0 0) (starting { step := 4, inPor := false })).st.halted = true ∧
    (after (.dictionaryLoad none) (starting { step := 5, inPor := false })).st.dictDefaulted = true ∧
    (after .startComplete (starting { step := 7, loaded := true, inPor := false })).st.done = true ∧
    (after .warmStart (starting { warm := true, step := 1, inPor := false })).st.step = 2 := by decide +kernel

/-! ### The whole block -/

/-- With nothing waiting a control cycle passes, but not in power-on reset (log entry 2). -/
theorem witness_IdleStep_clocks : clocked (live { fab := { clkOk := true } }).core = true ∧ clocked (live { fab := { clkReq := false } }).core = false ∧
    (frozen none false).core.pwr.frozen = true := by decide
theorem witness_IdleStep : State.reset.pending = [] ∧ State.reset.core.st.inPor = true ∧ (live {}).pending = [] ∧ (live {}).core.st.inPor = false ∧
    (live {}).core.pwr.state ≠ .ps3 ∧ (frozen none false).core.pwr.frozen = true ∧ (powered { state := .ps3 } {}).core.pwr.state = .ps3 := by decide
/-- A frozen block and a block in PS3 leave a doorbell alone (R99, R631). -/
theorem witness_StillBlock : (frozen none false).core.pwr.frozen = true ∧ (powered { state := .ps3 } {}).core.pwr.state = .ps3 ∧
    (after (.sqDoorbell 0 3 4) (frozen none false)).clk.cycle = 0 := by decide
theorem witness_SharedStateCommandsFrame : (after (.semRead 0 1) (live {})).clk = (live {}).core.clk := by decide
/-- An idle step from lawful locks, in whose control cycle a lock has been read and so is taken. -/
theorem witness_LocksStayLawful : tblWf none (boxes {} true).core.mbx.locks = true ∧ lockAccess 2 = true ∧
    (match step { core := after (.lockRead 3 63) { core := { (boxes {} true).core with
        work := { (boxes {} true).core.work with fab := { clkOk := true } } } } } with
      | .next t => t.core.mbx.locks
      | _ => []) = [(5, some 2), (63, some 3)] := by decide +kernel
/-- The eighth clean beat takes a port in PROBATION to UP. -/
theorem witness_ProbationBeforeUp : (match step { linked probing {} with pending := [.cleanBeat 2] } with
    | .next t => (t.core.lport 2).state
    | _ => .disabled) = .up := by decide +kernel
/-- A waiting command is taken before an idle cycle. -/
theorem test_step : (match step { live {} with pending := [.beatEdge, .beatEdge] } with
    | .next t => (t.core.clk.beat, t.pending.length)
    | _ => (0, 0)) = (1, 1) := by decide +kernel

end Sys2Proof.Tests
end

-- Proofs about the beat registers (R27).
section

namespace Sys2Proof.Machine

/-- A write outside 4 to 128 leaves the block as it was (R27). -/
theorem writeQuarters_outside {v : BitVec 8} (h : v.toNat < 4 ∨ 128 < v.toNat) (b : Block) : writeQuarters v b = b :=
  if_neg fun ⟨hlo, hhi, _⟩ => by omega

/-- Before the lock point, a write within 4 to 128 sets the beat length and nothing else (R27, R34). -/
theorem writeQuarters_inside {v : BitVec 8} (hlo : 4 ≤ v.toNat) (hhi : v.toNat ≤ 128) {b : Block} (hb : b.dct.locked = false) :
    writeQuarters v b = { b with clk := { b.clk with quarters := v } } :=
  if_pos ⟨hlo, hhi, by simp [hb]⟩

/-- The command writes the register and nothing else. -/
theorem exec_beatQuartersWrite (v : BitVec 8) (s : State) :
    exec (.beatQuartersWrite v) s = .next (s.onAll (writeQuarters v)) := rfl

/-- Settles O27: the two ranges of the operand are the two branches of the register write. -/
theorem beatQuartersRange : Obligations.BeatQuartersRange := by
  intro s v hlive
  refine ⟨fun hout => ?outside, fun hlo hhi hlocked => ?inside⟩
  case outside => exact acts_of (exec_beatQuartersWrite v s) hlive (writeQuarters_outside hout s.core)
  case inside => exact acts_of (exec_beatQuartersWrite v s) hlive (writeQuarters_inside hlo hhi hlocked)

end Sys2Proof.Machine
end

-- Proofs about the pool sums of the dictionary (R297, R298).
section

namespace Sys2Proof.Machine

/-! ### The table of parameters -/

/-- A read at another number than the one written, whatever default the write drops. -/
theorem tblGet_tblSet_other_dflt {α : Type} [DecidableEq α] (d e : α) (t : Tbl α) (k j : Nat) (v : α) (h : j ≠ k) :
    tblGet d (tblSet e t k v) j = tblGet d t j := by
  simp only [tblSet]
  split
  · exact tblGet_tblDel_other d t k j h
  · exact tblGet_tblPut_other d t k j v h

/-- A set parameter reads as its value, and every other one as before (R667). -/
theorem par_setPar (d : Dict) (i j v i' j' : Nat) :
    (d.setPar i j v).par i' j' = if i' = i ∧ j' = j then v else d.par i' j' := by
  simp only [Dict.par, Dict.at, Dict.setPar, setVal]
  by_cases hi : i' = i
  · subst hi
    by_cases hj : j' = j
    · subst hj
      simp
    · simp [hj, tblGet_tblSet_other_dflt _ _ _ _ _ _ hj]
  · simp [hi, tblGet_tblSet_other _ _ _ _ _ hi]

/-- The field of ADM_BEAT_CFG shows in BEAT_QUARTERS alone (R681). -/
theorem dictNow_par_of_ne {i : Nat} (h : i ≠ 0x2001) (b : Block) (j : Nat) : b.dictNow.par i j = b.dct.par i j := by
  simp [Block.dictNow, par_setPar, h]

/-- A working value depends on the table of values alone. -/
theorem par_congr {d d' : Dict} (h : d'.vals = d.vals) (i j : Nat) : d'.par i j = d.par i j := by
  simp only [Dict.par, Dict.at, h]

/-! ### FENCE_COUNT, SEM_COUNT and WATCH_COUNT (R297) -/

/-- The indices of the three pool sizes, each with the default of a slice and the bound on the sum over the slices (R297). -/
inductive PoolCount : Nat → Nat → Nat → Prop where
  | fence : PoolCount 0x3006 1024 65536
  | sem : PoolCount 0x3007 64 4096
  | watch : PoolCount 0x3008 128 8192

section

variable {i dflt bound : Nat}

/-- A pool size is a U16 that is written at any time (R682). -/
theorem PoolCount.row (h : PoolCount i dflt bound) {j : Nat} (hj : j < 64) :
    ∃ row, paramRow i j = some row ∧ row.ty = .u16 ∧ row.acc = .rw ∧ row.dflt = dflt := by
  cases h <;> simp [paramRow, paramRows, rowsIdentity, rowsBlock, rowsSlices, PRow.holds, hj]

/-- It is no parameter of the frame with a rule of its own (R514, R528). -/
theorem PoolCount.index_ne (h : PoolCount i dflt bound) : i ≠ 0x501A ∧ i ≠ 0x501B := by cases h <;> decide

theorem PoolCount.parDflt_eq (h : PoolCount i dflt bound) {j : Nat} (hj : j < 64) : parDflt i j = dflt := by
  obtain ⟨row, hrow, -, -, hd⟩ := h.row hj
  simp [parDflt, hrow, hd]

/-- The rule that spans the 64 sizes of a pool bounds their sum (R298). -/
theorem PoolCount.crossOk_eq (h : PoolCount i dflt bound) (present : BitVec 16) (d : Dict) :
    crossOk present d i = decide (((List.range 64).map (d.par i)).sum ≤ bound) := by
  have hsum : ((List.range 64).map (d.par i)).sum = sumTo 64 fun k => d.at i k dflt :=
    congrArg List.sum (List.map_congr_left fun k hk => by rw [Dict.par, h.parDflt_eq (List.mem_range.mp hk)])
  rw [hsum]
  cases h <;> rfl

/-- The pool sizes as a write of `v` to slice `j` would leave them. -/
theorem PoolCount.par_written (h : PoolCount i dflt bound) (b : Block) (j v : Nat) :
    (b.dictNow.setPar i j v).par i = fun k => if k = j then v else b.dct.par i k := by
  have hi : i ≠ 0x2001 := by cases h <;> decide
  funext k
  simp [par_setPar, dictNow_par_of_ne hi]

/-- A value that takes the sum over its bound lies out of range. -/
theorem PoolCount.valueOk_false (h : PoolCount i dflt bound) (b : Block) (row : PRow) (j v : Nat)
    (hsum : bound < ((List.range 64).map fun k => if k = j then v else b.dct.par i k).sum) :
    valueOk b.st.present b.dictNow row i j v = false := by
  have hcross : crossOk b.st.present (b.dictNow.setPar i j v) i = false := by
    rw [h.crossOk_eq, h.par_written]
    exact decide_eq_false (Nat.not_le.mpr hsum)
  simp [valueOk, hcross]

end

/-! ### The checks of a write (R671) -/

/-- A request to write the two bytes of a U16 on this chip (R668, R670). -/
structure U16Write (r : DictReq) : Prop where
  op : r.op = 2
  here : r.target < 64
  ty : r.ty = 3
  len : r.len = 2
  off : r.off = 0

namespace U16Write

variable {r : DictReq}

/-- A TARGET below 64 has REMOTE clear. -/
theorem remote_eq_false (h : U16Write r) : r.remote = false := Nat.testBit_lt_two_pow (i := 6) h.here

theorem away_eq_false (h : U16Write r) (b : Block) : r.away b = false := by simp [DictReq.away, h.remote_eq_false]

/-- It is no bad request (order 1) where its body holds the two bytes. -/
theorem badRequest_eq_false (h : U16Write r) (b : Block) (hsize : 14 ≤ r.size) : badRequest b .bar0 r = false := by
  have h7 : r.target.testBit 7 = false := Nat.testBit_lt_two_pow (Nat.lt_trans h.here (by decide))
  simp [badRequest, pathLimits, h.op, h.len, h.remote_eq_false, h.away_eq_false b, h7]
  omega

/-- A parameter that is written at any time takes it but where its value lies out of range (orders 2 to 6). -/
theorem checkReq_valueRange (h : U16Write r) {b : Block} {row : PRow} (hsize : 14 ≤ r.size) (hhalt : b.st.halted = false)
    (hrow : paramRow r.index r.sub = some row) (hty : row.ty = .u16) (hacc : row.acc = .rw)
    (hidx : r.index ≠ 0x501A ∧ r.index ≠ 0x501B)
    (hv : valueOk b.st.present b.dictNow row r.index r.sub (leNat r.data) = false) : checkReq b .bar0 r = St.valueRange := by
  obtain ⟨hA, hB⟩ := hidx
  have hbad := h.badRequest_eq_false b hsize
  have hdenied : denied .bar0 row r = false := by simp [denied, h.op, hacc, hB]
  have hshape : shapeOk b row r = true := by simp [shapeOk, h.op, h.ty, h.len, h.off, hty, PTy.code, PTy.size]
  have hlocked : lockedOut b row r = false := by simp [lockedOut, locked, stateRule, hacc, hA, hB, hhalt]
  have hrange : outOfRange b row r = true := by simp [outOfRange, h.op, hA, hty, PTy.isBytes, hv]
  simp [checkReq, hbad, h.op, hrow, hdenied, hshape, hlocked, hrange]

end U16Write

/-! ### The answer in the host's window (R669, R674) -/

/-- What the window's answer leaves of the dictionary. -/
theorem windowAnswer_dct (body : List Byte) (b : Block) :
    (windowAnswer body b).dct = { b.dct with
      buf := body.zipIdx.foldl (fun t x => tblSet 0 t x.2 x.1) b.dct.buf, busy := false, irq := false
      lastStatus := BitVec.ofNat 16 (fieldAt body 2 2) } := by
  simp only [windowAnswer]
  split <;> rfl

/-- The window's answer leaves beat, frame and links alone. -/
theorem windowAnswer_frame (body : List Byte) (b : Block) :
    (windowAnswer body b).clk = b.clk ∧ (windowAnswer body b).frm = b.frm ∧ (windowAnswer body b).lnk = b.lnk := by
  simp only [windowAnswer]
  split <;> exact ⟨rfl, rfl, rfl⟩

/-- The window after an answer holds its bytes, and what it held behind them. -/
theorem windowAnswer_buf (body : List Byte) (b : Block) (j : Nat) :
    tblGet 0 (windowAnswer body b).dct.buf j = if j < body.length then body.getD j 0 else tblGet 0 b.dct.buf j := by
  have h := writeBytes_get 0 0 j body b.dct.buf
  simp only [Nat.zero_add, Nat.zero_le, true_and, Nat.sub_zero] at h
  rw [windowAnswer_dct]
  exact h

/-- The bytes 2 and 3 of an answer are its STATUS (R669). -/
theorem fieldAt_answerBytes (r : DictReq) (st : Status) (data : List Byte) :
    BitVec.ofNat 16 (fieldAt (answerBytes r st data) 2 2) = st := by
  have hfield : fieldAt (answerBytes r st data) 2 2 = st.toNat % 256 + 256 * (st.toNat / 256 % 256) := by
    simp [fieldAt, bytesAt, answerBytes, leBytes, leNat, List.range_succ]
  have hst := st.isLt
  apply BitVec.eq_of_toNat_eq
  rw [hfield, BitVec.toNat_ofNat]
  omega

/-- The window holds the answer that it is given once the request in service is over and counted. -/
theorem inWindow_windowAnswer {b b' : Block} (st : Status) (data : List Byte) (hbuf : b'.dct.buf = b.dct.buf)
    (hserving : b'.dct.serving = none) (hrequests : b'.dct.requests = b.dct.requests + 1) :
    InWindow b st data (windowAnswer (answerBytes (reqOf (windowBody b)) st data) b') := by
  refine ⟨?busy, ?serving, ?status, ?requests, ?answer, ?behind⟩
  case busy => rw [windowAnswer_dct]
  case serving => simp [windowAnswer_dct, hserving]
  case status => simp [windowAnswer_dct, fieldAt_answerBytes]
  case requests => simp [windowAnswer_dct, hrequests]
  case answer => intro j hj; rw [windowAnswer_buf, if_pos hj]
  case behind => intro j hj; rw [windowAnswer_buf, if_neg (Nat.not_lt.mpr hj), hbuf]

/-- The window's request as it is served. -/
def windowServing (b : Block) : Serving := { path := .bar0, eid := 0, tag := 0, src := 0, body := windowBody b }

@[simp] theorem windowServing_body (b : Block) : (windowServing b).body = windowBody b := by rw [windowServing]

/-- The block when the window's request is served: the turn of the paths has come to the window (R672). -/
def atWindow (b : Block) : Block := b.updDct fun d => { d with lastPath := .bar0 }

/-- The block when the window's request has been served and counted, and its answer is yet to be given (R672). -/
def atAnswer (b : Block) : Block := (atWindow b).updDct fun d => { d with serving := none, requests := d.requests + 1 }

theorem answer_windowServing (b : Block) (st : Status) (data : List Byte) :
    answer (windowServing b) st data (atWindow b) = windowAnswer (answerBytes (reqOf (windowBody b)) st data) (atAnswer b) := by
  simp only [answer, giveAnswer, windowServing, atAnswer]

/-- A refusal of the window's request: its status stands in the window, and no parameter changes. -/
theorem aborts_answer (b : Block) (st : Status) : Aborts b st (answer (windowServing b) st [] (atWindow b)) := by
  rw [answer_windowServing]
  refine ⟨inWindow_windowAnswer st [] rfl rfl rfl, ?vals, windowAnswer_frame _ (atAnswer b)⟩
  case vals => rw [windowAnswer_dct]; rfl

/-! ### Serving the window (R672) -/

theorem onI3c_live (s : State) (wakes : Bool) (f : Block → Block) (h : s.live) :
    s.onI3c wakes f = { s with core := (f s.core).after } := by
  obtain ⟨hfrozen, hps3⟩ : s.core.pwr.frozen = false ∧ s.core.pwr.state ≠ .ps3 := by
    simpa [State.live, Block.still] using h
  rw [State.onI3c, onAon_open _ _ hfrozen, if_neg hps3]

/-- What a command does may be said more weakly. -/
theorem Acts.imp {c : Instr} {s : State} {P Q : Block → Prop} (h : Acts c s P) (hPQ : ∀ b, P b → Q b) : Acts c s Q := by
  obtain ⟨b, hb, hx⟩ := h
  exact ⟨b, hPQ b hb, hx⟩

/-- The row of a write serves the window's path. -/
theorem acts_windowRow_write {s : State} {P : Block → Prop} (h : s.live)
    (hP : P (servePath .bar0 (fun o => o == 2) true s.core)) : Acts (windowRow 2) s P :=
  ⟨_, hP, congrArg Host.Outcome.next (onI3c_live s false _ h)⟩

/-- At its turn the window's request is served, where the row takes its operation and it stays on this chip. -/
theorem servePath_window {b : Block} {r : DictReq} {takes : Nat → Bool} (storeOk : Bool) (h : WindowTurn b)
    (hr : reqOf (windowBody b) = r) (htakes : takes r.op = true) (haway : r.away b = false) :
    servePath .bar0 takes storeOk b = serve (windowServing b) storeOk (atWindow b) := by
  obtain ⟨hserves, -, hbusy, hturn⟩ := h
  have hhead : headReq b .bar0 = some (windowServing b, b) := if_pos hbusy
  simp [servePath, hserves, hturn, hhead, windowServing, hr, htakes, haway, atWindow]

/-- A request for this chip that fails a check is answered with the check's status. -/
theorem serve_refused {x : Serving} {r : DictReq} {b : Block} {st : Status} (storeOk : Bool) (hr : reqOf x.body = r)
    (haway : r.away b = false) (hcheck : checkReq b x.path r = st) (hst : st ≠ St.ok) :
    serve x storeOk b = answer x st [] b := by
  simp only [serve, hr, haway, hcheck, Bool.false_and, Bool.false_eq_true, if_false]
  exact if_pos hst

/-! ### The rule of the pool sums (R298) -/

/-- A write in the window that takes a pool sum over its bound is answered with VALUE_RANGE. -/
theorem PoolCount.write_aborts {i dflt bound : Nat} (h : PoolCount i dflt bound) {s : State} (hlive : s.live)
    (hturn : WindowTurn s.core) {r : DictReq} (hr : reqOf (windowBody s.core) = r) (hw : U16Write r) (hi : r.index = i) (hsub : r.sub < 64)
    (hsum : bound < ((List.range 64).map fun k => if k = r.sub then leNat r.data else s.core.dct.par r.index k).sum) :
    Acts (windowRow 2) s (Aborts s.core St.valueRange) := by
  subst hi
  have ⟨_, hhalt, _, _⟩ := hturn
  have hsize : 14 ≤ r.size := by simp [← hr, reqOf, windowBody]
  obtain ⟨row, hrow, hty, hacc, -⟩ := h.row hsub
  have hcheck : checkReq (atWindow s.core) .bar0 r = St.valueRange :=
    hw.checkReq_valueRange hsize hhalt hrow hty hacc h.index_ne (h.valueOk_false (atWindow s.core) row r.sub _ hsum)
  have hserve : serve (windowServing s.core) true (atWindow s.core) = answer (windowServing s.core) St.valueRange [] (atWindow s.core) :=
    serve_refused true (by rw [windowServing_body, hr]) (hw.away_eq_false _) hcheck (by decide)
  apply acts_windowRow_write hlive
  rw [servePath_window true hturn hr (by simp [hw.op]) (hw.away_eq_false _), hserve]
  exact aborts_answer s.core St.valueRange

/-- Settles O60: each pool's write fails the rule that spans the slices, and a refused write leaves the table of values. -/
theorem poolSumsBounded : Obligations.PoolSumsBounded := by
  intro s hlive hturn r hop ht hty hlen hoff hsub sum hover
  have hw : U16Write r := ⟨hop, ht, hty, hlen, hoff⟩
  have haborts : Acts (windowRow 2) s (Aborts s.core St.valueRange) := by
    rcases hover with ⟨hi, hsum⟩ | ⟨hi, hsum⟩ | ⟨hi, hsum⟩
    · exact PoolCount.fence.write_aborts hlive hturn rfl hw hi hsub hsum
    · exact PoolCount.sem.write_aborts hlive hturn rfl hw hi hsub hsum
    · exact PoolCount.watch.write_aborts hlive hturn rfl hw hi hsub hsum
  exact haborts.imp fun b ⟨hwindow, hvals, hrest⟩ => ⟨⟨hwindow, hvals, hrest⟩, par_congr hvals r.index r.sub⟩

end Sys2Proof.Machine
end

-- Proofs about entry into UP (R487).
section

namespace Sys2Proof.Machine

/-! ### Entry into UP

Every operation of the model but CLEAN_BEAT either leaves the table of Tenon ports alone or changes it so that no port rises to UP:
the lemmas `f_lports` say the first, `f_noneRises` the second, each for one operation `f`. "No port rises" is transitive, where
"a port that is UP was UP or in PROBATION" is not, since a PING may take a port to PROBATION. -/

/-- The table of Tenon ports, under a name that no update of another part unfolds. -/
def Block.lports (b : Block) : Tbl LinkPort := b.lnk.ports

theorem lport_congr {b b' : Block} (h : b'.lports = b.lports) (p : Nat) : b'.lport p = b.lport p := by
  change tblGet {} b'.lports p = tblGet {} b.lports p
  rw [h]

/-- No port that is UP in the table `u` was in another state in `t`. -/
def NoneRises (t u : Tbl LinkPort) : Prop := ∀ p, (tblGet {} u p).state = .up → (tblGet {} t p).state = .up

namespace NoneRises

variable {t u v : Tbl LinkPort}

@[simp] theorem refl (t : Tbl LinkPort) : NoneRises t t := fun _ h => h

theorem trans (h : NoneRises t u) (k : NoneRises u v) : NoneRises t v := fun p hp => h p (k p hp)

@[simp] theorem ite_iff (c : Prop) [Decidable c] :
    NoneRises t (if c then u else v) ↔ (c → NoneRises t u) ∧ (¬c → NoneRises t v) := by
  split <;> simp_all

theorem ite {c : Prop} [Decidable c] {x y : Block} (hx : NoneRises t x.lports) (hy : NoneRises t y.lports) :
    NoneRises t (if c then x else y).lports := by
  split <;> assumption

/-- A change of every entry of the table that takes none to UP. -/
theorem map {f : LinkPort → LinkPort} (hf : ∀ x, (f x).state = .up → x.state = .up) :
    ∀ t : Tbl LinkPort, NoneRises t (t.map fun x => (x.1, f x.2))
  | [], _, h => h
  | (i, x) :: t, p, h => by
    by_cases hip : i = p
    · simpa [tblGet, hip] using hf x (by simpa [tblGet, hip] using h)
    · simpa [tblGet, hip] using map hf t p (by simpa [tblGet, hip] using h)

/-- A table with no entry that is UP. -/
theorem of_forall_ne (h : ∀ x ∈ u, x.2.state ≠ .up) : NoneRises t u := by
  intro p hp
  induction u with
  | nil => cases hp
  | cons x u ih =>
    simp only [tblGet] at hp
    split at hp
    · exact absurd hp (h x (by simp))
    · exact ih (fun y hy => h y (by simp [hy])) hp

end NoneRises

/-! ### What changes a port but not its state -/

section

variable (x : LinkPort)

@[simp] theorem ite_state (c : Prop) [Decidable c] (x y : LinkPort) : (if c then x else y).state = if c then x.state else y.state :=
  apply_ite LinkPort.state c x y

@[simp] theorem updLane_state (lane : Nat) (f : Lane → Lane) : (x.updLane lane f).state = x.state := by
  unfold LinkPort.updLane
  split <;> rfl

@[simp] theorem fresh_state : x.fresh.state = x.state := by rw [LinkPort.fresh]

@[simp] theorem lockChanged_state : (lockChanged x).state = x.state := by rw [lockChanged]

@[simp] theorem beatOver_state : x.beatOver.state = x.state := by
  unfold LinkPort.beatOver
  split <;> rfl

@[simp] theorem resetPasses_state : x.resetPasses.state = x.state := by
  unfold LinkPort.resetPasses
  split
  · rfl
  · split <;> rfl

@[simp] theorem sense_state (edges : List (Nat × Nat)) : (x.sense edges).1.state = x.state := by
  induction edges generalizing x with
  | nil => rfl
  | cons e es ih => exact ih _

/-- A full block reset leaves no port UP (R647). -/
@[simp] theorem resetLport_state (warm : Bool) : (resetLport warm x).state = .disabled := by cases warm <;> rfl

end

/-! ### What leaves the table of ports alone -/

section

variable (b : Block)

@[simp] theorem lnk_ports : b.lnk.ports = b.lports := by rw [Block.lports]
@[simp] theorem mk_lports (clk work mbx lnk frm pwr st dct mgmt pins) :
    (Block.mk clk work mbx lnk frm pwr st dct mgmt pins).lports = lnk.ports := by rw [Block.lports]
@[simp] theorem updWork_lports (f) : (b.updWork f).lports = b.lports := congrArg Links.ports (b.updWork_lnk f)
@[simp] theorem updMbx_lports (f) : (b.updMbx f).lports = b.lports := congrArg Links.ports (b.updMbx_lnk f)
@[simp] theorem updChan_lports (c f) : (b.updChan c f).lports = b.lports := congrArg Links.ports (b.updChan_lnk c f)
@[simp] theorem updJnr_lports (f) : (b.updJnr f).lports = b.lports := congrArg Links.ports (b.updJnr_lnk f)
@[simp] theorem setLock_lports (i o) : (b.setLock i o).lports = b.lports := congrArg Links.ports (b.setLock_lnk i o)
@[simp] theorem updFrm_lports (f) : (b.updFrm f).lports = b.lports := congrArg Links.ports (b.updFrm_lnk f)
@[simp] theorem updBar_lports (i f) : (b.updBar i f).lports = b.lports := congrArg Links.ports (b.updBar_lnk i f)
@[simp] theorem updPwr_lports (f) : (b.updPwr f).lports = b.lports := congrArg Links.ports (b.updPwr_lnk f)
@[simp] theorem updStart_lports (f) : (b.updStart f).lports = b.lports := congrArg Links.ports (b.updStart_lnk f)
@[simp] theorem updDct_lports (f) : (b.updDct f).lports = b.lports := congrArg Links.ports (b.updDct_lnk f)
@[simp] theorem updMgmt_lports (f) : (b.updMgmt f).lports = b.lports := congrArg Links.ports (b.updMgmt_lnk f)
@[simp] theorem updClk_lports (f) : (b.updClk f).lports = b.lports := congrArg Links.ports (b.updClk_lnk f)
@[simp] theorem after_lports : b.after.lports = b.lports := congrArg Links.ports b.after_lnk
@[simp] theorem updLnk_lports {f : Links → Links} (hf : (f b.lnk).ports = b.lnk.ports) : (b.updLnk f).lports = b.lports := hf
@[simp] theorem updCoder_lports (p f) : (b.updCoder p f).lports = b.lports := by rw [Block.lports, Block.lports, Block.updCoder]

@[simp] theorem ite_lports (c : Prop) [Decidable c] (x y : Block) :
    (if c then x else y).lports = if c then x.lports else y.lports := apply_ite (fun b : Block => b.lports) c x y

@[simp] theorem foldl_lports {α : Type} {f : Block → α → Block} (h : ∀ b x, (f b x).lports = b.lports) (l : List α) (b : Block) :
    (l.foldl f b).lports = b.lports := by
  induction l generalizing b with
  | nil => rfl
  | cons x l ih => rw [List.foldl_cons, ih, h]

@[simp] theorem emit_lports (o : Output) : (b.emit o).lports = b.lports := by
  unfold Block.emit
  split
  · rfl
  · split <;> rfl

/-! Mailboxes and locks -/

@[simp] theorem countRefused_lports : (countRefused b).lports = b.lports := by simp [countRefused]
@[simp] theorem peerInterrupt_lports (c) : (peerInterrupt c b).lports = b.lports := by simp [peerInterrupt]
@[simp] theorem endInterrupt_lports (c atCluster) : (endInterrupt c atCluster b).lports = b.lports := by simp [endInterrupt]
@[simp] theorem setTimeouts_lports (c byCluster bits) : (setTimeouts c byCluster bits b).lports = b.lports := by simp [setTimeouts]
@[simp] theorem setMode_lports (maint) : (setMode maint b).lports = b.lports := by simp [setMode]
@[simp] theorem boxReset_lports : (boxReset b).lports = b.lports := by simp [boxReset]
@[simp] theorem setBits_lports (mid c byCluster bits) : (setBits mid c byCluster bits b).lports = b.lports := by simp [setBits]
@[simp] theorem ringBits_lports (mid c byCluster bits) : (ringBits mid c byCluster bits b).lports = b.lports := by simp [ringBits]
@[simp] theorem takeBits_lports (c bits) : (takeBits c bits b).lports = b.lports := by simp [takeBits]
@[simp] theorem clearBits_lports (c atCluster bits) : (clearBits c atCluster bits b).lports = b.lports := by simp [clearBits]
@[simp] theorem writeMask_lports (c atCluster bits) : (writeMask c atCluster bits b).lports = b.lports := by simp [writeMask]
@[simp] theorem writeWord_lports (mid c atCluster word) : (writeWord mid c atCluster word b).lports = b.lports := by simp [writeWord]
@[simp] theorem clearTimeouts_lports (c atCluster bits) : (clearTimeouts c atCluster bits b).lports = b.lports := by
  simp [clearTimeouts]
@[simp] theorem readLock_lports (mid i) : (readLock mid i b).lports = b.lports := by simp [readLock]
@[simp] theorem writeLock_lports (mid i v) : (writeLock mid i v b).lports = b.lports := by simp [writeLock]
@[simp] theorem onEnd_lports (mid c atCluster) {f : Block → Block} (hf : (f b).lports = b.lports) :
    (onEnd mid c atCluster f b).lports = b.lports := by simp [onEnd, hf]
@[simp] theorem endWrite_lports (mid c atCluster off v) : (endWrite mid c atCluster off v b).lports = b.lports := by simp [endWrite]
@[simp] theorem ringLate_lports (c bit) : (ringLate c bit b).lports = b.lports := by simp [ringLate]
@[simp] theorem serveRequest_lports (c reply) : (serveRequest c reply b).lports = b.lports := by simp [serveRequest]
@[simp] theorem servePing_lports (c) : (servePing c b).lports = b.lports := by simp [servePing]
@[simp] theorem serveVersion_lports (c) : (serveVersion c b).lports = b.lports := by simp [serveVersion]
@[simp] theorem serveCoreMap_lports (c) : (serveCoreMap c b).lports = b.lports := by simp [serveCoreMap]
@[simp] theorem lockReadLate_lports (mid i tag) : (lockReadLate mid i tag b).lports = b.lports := by simp [lockReadLate]

/-! The joiner cluster -/

@[simp] theorem bootWord_lports (code) : (bootWord code b).lports = b.lports := by simp [bootWord]
@[simp] theorem bootRing_lports (code) : (bootRing code b).lports = b.lports := by simp [bootRing]
@[simp] theorem bootWaits_lports (code) : (bootWaits code b).lports = b.lports := by simp [bootWaits]
@[simp] theorem bootCheck_lports : (bootCheck b).lports = b.lports := by simp [bootCheck]
@[simp] theorem bootChecks_lports : (bootChecks b).lports = b.lports := by simp [bootChecks]
@[simp] theorem bootRun_lports (cause) : (bootRun cause b).lports = b.lports := by simp [bootRun]
@[simp] theorem bootProceeds_lports : (bootProceeds b).lports = b.lports := by simp [bootProceeds]
@[simp] theorem bootReads_lports (a n rest) : (bootReads a n rest b).lports = b.lports := by simp [bootReads]
@[simp] theorem bootTakes_lports : (bootTakes b).lports = b.lports := by simp [bootTakes]
@[simp] theorem recoveryRing_lports : (recoveryRing b).lports = b.lports := by simp [recoveryRing]
@[simp] theorem recoveryLoad_lports (mid) : (recoveryLoad mid b).lports = b.lports := by simp [recoveryLoad]
@[simp] theorem bootAnswered_lports (r rest st data) : (bootAnswered r rest st data b).lports = b.lports := by simp [bootAnswered]
@[simp] theorem firmwareUp_lports : (firmwareUp b).lports = b.lports := by simp [firmwareUp]
@[simp] theorem accessOp_lports (pid a n store) : (accessOp pid a n store b).lports = b.lports := by
  unfold accessOp
  cases b.work.prog pid with
  | none => rfl
  | some p => cases hr : reachOf p.pages a n <;> cases store <;> simp [hr]

/-! The frame and its barriers -/

@[simp] theorem endArrivals_lports (i st) : (endArrivals i st b).lports = b.lports := by simp [endArrivals]
@[simp] theorem sendRelease_lports (i count st gen) : (sendRelease i count st gen b).lports = b.lports := by simp [sendRelease]
@[simp] theorem releaseBar_lports (i gen) : (releaseBar i gen b).lports = b.lports := by simp [releaseBar]
@[simp] theorem breakBar_lports (i st src) : (breakBar i st src b).lports = b.lports := by simp [breakBar]
@[simp] theorem mgrBreak_lports (i st src) : (mgrBreak i st src b).lports = b.lports := by simp [mgrBreak]
@[simp] theorem mgrBreakAll_lports (st src) : (mgrBreakAll st src b).lports = b.lports := by simp [mgrBreakAll]
@[simp] theorem reopenBar_lports (i) : (reopenBar i b).lports = b.lports := by simp [reopenBar]
@[simp] theorem reopenAll_lports : (reopenAll b).lports = b.lports := by simp [reopenAll]
@[simp] theorem sendUp_lports (i count st gen) : (sendUp i count st gen b).lports = b.lports := by
  unfold sendUp
  split <;> rfl
@[simp] theorem trussCheck_lports (i) : (trussCheck i b).lports = b.lports := by simp [trussCheck]
@[simp] theorem trussAll_lports : (trussAll b).lports = b.lports := foldl_lports (fun _ _ => by simp) _ _
@[simp] theorem markPort_lports (c p isDown) : (markPort c p isDown b).lports = b.lports := by simp [markPort]
@[simp] theorem markFacing_lports (x y isDown) : (markFacing x y isDown b).lports = b.lports := by
  refine foldl_lports (fun b p => ?_) _ _
  cases farLink b.dct x p <;> simp
@[simp] theorem markChip_lports (c) : (markChip c b).lports = b.lports := by simp [markChip]
@[simp] theorem dropUnreachable_lports : (dropUnreachable b).lports = b.lports := by simp [dropUnreachable]
@[simp] theorem checkMinority_lports (st src) : (checkMinority st src b).lports = b.lports := by simp [checkMinority]
@[simp] theorem loseMgr_lports (byNotice) : (loseMgr byNotice b).lports = b.lports := by simp [loseMgr]
@[simp] theorem viewChanged_lports (down st src old) : (viewChanged down st src old b).lports = b.lports := by simp [viewChanged]
@[simp] theorem frameLost_lports (p st) : (frameLost p st b).lports = b.lports := by
  unfold frameLost
  cases farLink b.dct b.dct.chipNum p <;> simp
@[simp] theorem framePortUp_lports (p) : (framePortUp p b).lports = b.lports := by
  unfold framePortUp
  cases farLink b.dct b.dct.chipNum p <;> simp
@[simp] theorem exclude_lports (c) : (exclude c b).lports = b.lports := by simp [exclude]
@[simp] theorem beExcluded_lports : (beExcluded b).lports = b.lports := by simp [beExcluded]
@[simp] theorem noticeView_lports (kind subject src reason) : (noticeView kind subject src reason b).lports = b.lports := by
  simp [noticeView]
@[simp] theorem arriveOp_lports (id) : (arriveOp id b).lports = b.lports := by
  unfold arriveOp
  cases b.work.cmd id <;> simp
@[simp] theorem sendBarEnds_lports : (sendBarEnds b).lports = b.lports := by simp [sendBarEnds]
@[simp] theorem dropArrive_lports : (dropArrive b).lports = b.lports := by simp [dropArrive]
@[simp] theorem arriveMsg_lports (m) : (arriveMsg m b).lports = b.lports := by simp [arriveMsg]
@[simp] theorem releaseMsg_lports (m) : (releaseMsg m b).lports = b.lports := by simp [releaseMsg]
@[simp] theorem lostWaitOver_lports : (lostWaitOver b).lports = b.lports := by simp [lostWaitOver]
@[simp] theorem frameCmdExclude_lports (c) : (frameCmdExclude c b).lports = b.lports := by simp [frameCmdExclude]
@[simp] theorem excludeLate_lports (c) : (excludeLate c b).lports = b.lports := by
  unfold excludeLate
  cases tblGet none b.frm.pending c <;> simp
@[simp] theorem foundFrame_lports : (foundFrame b).lports = b.lports := by simp [foundFrame]

/-! Messages -/

@[simp] theorem dropRx_lports : (dropRx b).lports = b.lports := by simp [dropRx]
@[simp] theorem deliverMsg_lports (p arrival m) : (deliverMsg p arrival m b).lports = b.lports := by simp [deliverMsg]
@[simp] theorem queueTransit_lports (p m) : (queueTransit p m b).lports = b.lports := by simp [queueTransit]
@[simp] theorem forwardMsg_lports (m) : (forwardMsg m b).lports = b.lports := by
  unfold forwardMsg
  cases routeTo b m.dest.toNat <;> simp
@[simp] theorem setBseq_lports (c n) : (setBseq c n b).lports = b.lports := by simp [setBseq]
@[simp] theorem bcastMsg_lports (p arrival m) : (bcastMsg p arrival m b).lports = b.lports := by simp [bcastMsg]
@[simp] theorem receiveMsg_lports (p arrival m) : (receiveMsg p arrival m b).lports = b.lports := by simp [receiveMsg]
@[simp] theorem sendAck_lports (p nak sleep) : (sendAck p nak sleep b).lports = b.lports := by simp [sendAck]
@[simp] theorem ackDue_lports (p) : (ackDue p b).lports = b.lports := by simp [ackDue]
@[simp] theorem dropUnacked_lports (p) : (dropUnacked p b).lports = b.lports := by simp [dropUnacked]
@[simp] theorem transitLate_lports (p index) : (transitLate p index b).lports = b.lports := by simp [transitLate]

/-! Power -/

@[simp] theorem pswOn_lports (d) : (pswOn d b).lports = b.lports := by simp [pswOn]
@[simp] theorem pswOff_lports (d) : (pswOff d b).lports = b.lports := by simp [pswOff]
@[simp] theorem arithOff_lports : (arithOff b).lports = b.lports := by simp [arithOff]
@[simp] theorem arithOn_lports : (arithOn b).lports = b.lports := by simp [arithOn]
@[simp] theorem writeAvs_lports (rail mv) : (writeAvs rail mv b).lports = b.lports := by simp [writeAvs]
@[simp] theorem requestVolt_lports (st rail) : (requestVolt st rail b).lports = b.lports := by simp [requestVolt]
@[simp] theorem requestVolts_lports (st) : (requestVolts st b).lports = b.lports := by simp [requestVolts]
@[simp] theorem startSill_lports (why reason) : (startSill why reason b).lports = b.lports := by simp [startSill]
@[simp] theorem refusePower_lports : (refusePower b).lports = b.lports := by simp [refusePower]
@[simp] theorem acceptEntry_lports (target) : (acceptEntry target b).lports = b.lports := by simp [acceptEntry]
@[simp] theorem beginExit_lports (src) : (beginExit src b).lports = b.lports := by
  dsimp only [beginExit]
  split <;> simp
@[simp] theorem wake_lports (src) : (wake src b).lports = b.lports := by
  unfold wake
  split <;> simp
@[simp] theorem entryOver_lports (st) : (entryOver st b).lports = b.lports := by
  unfold entryOver
  cases b.pwr.wakeLate <;> simp
@[simp] theorem restRetain_lports : (restRetain b).lports = b.lports := by simp [restRetain]
@[simp] theorem goPs2_lports : (goPs2 b).lports = b.lports := by simp [goPs2]
@[simp] theorem goPs3_lports : (goPs3 b).lports = b.lports := by simp [goPs3]
@[simp] theorem startTest_lports : (startTest b).lports = b.lports := by simp [startTest]
@[simp] theorem enterPs1_lports : (enterPs1 b).lports = b.lports := by simp [enterPs1]
@[simp] theorem leavePs1_lports : (leavePs1 b).lports = b.lports := by simp [leavePs1]
@[simp] theorem selfWake_lports : (selfWake b).lports = b.lports := by simp [selfWake]
@[simp] theorem voltageAgain_lports (rail) : (voltageAgain rail b).lports = b.lports := by
  unfold voltageAgain
  cases railReq b.pwr rail <;> simp
@[simp] theorem pswAcked_lports (d) : (pswAcked d b).lports = b.lports := by
  unfold pswAcked
  cases d <;> simp
@[simp] theorem ctlOff_lports : (ctlOff b).lports = b.lports := by simp [ctlOff]
@[simp] theorem telemetry_lports (vinMv ioutMa tempC) : (telemetry vinMv ioutMa tempC b).lports = b.lports := by simp [telemetry]

/-! Start -/

@[simp] theorem flrDone_lports : (flrDone b).lports = b.lports := by simp [flrDone]
@[simp] theorem readFuse_lports : (readFuse b).lports = b.lports := by simp [readFuse]
@[simp] theorem startDomains_lports : (startDomains b).lports = b.lports := by simp [startDomains]
@[simp] theorem startAdvance_lports : (startAdvance b).lports = b.lports := by simp [startAdvance]
@[simp] theorem fuseAck_lports (word) : (fuseAck word b).lports = b.lports := by simp [fuseAck]
@[simp] theorem haltStart_lports (st) : (haltStart st b).lports = b.lports := by simp [haltStart]
@[simp] theorem selfTest_lports (ctl kiln retention cores ports) : (selfTest ctl kiln retention cores ports b).lports = b.lports := by
  simp [selfTest]
@[simp] theorem readSill_lports (store) : (readSill store b).lports = b.lports := by simp [readSill]
@[simp] theorem loadRetained_lports : (loadRetained b).lports = b.lports := by
  dsimp only [loadRetained]
  split <;> simp
@[simp] theorem loadStore_lports (store) : (loadStore store b).lports = b.lports := by
  dsimp only [loadStore]
  split <;> simp
@[simp] theorem askStore_lports (rest) : (askStore rest b).lports = b.lports := by simp [askStore]
@[simp] theorem askSill_lports : (askSill b).lports = b.lports := by simp [askSill]
@[simp] theorem beginJoin_lports : (beginJoin b).lports = b.lports := by simp [beginJoin]
@[simp] theorem fixPorts_lports : (fixPorts b).lports = b.lports := foldl_lports (fun _ _ => by simp) _ _
@[simp] theorem startComplete_lports : (startComplete b).lports = b.lports := by simp [startComplete]
@[simp] theorem waitForHost_lports : (waitForHost b).lports = b.lports := by simp [waitForHost]

/-! The dictionary and the management plane -/

@[simp] theorem sendSegments_lports (typ chip tag body) : (sendSegments typ chip tag body b).lports = b.lports := by simp [sendSegments]
@[simp] theorem windowAnswer_lports (body) : (windowAnswer body b).lports = b.lports := by
  obtain ⟨-, -, hlnk⟩ := windowAnswer_frame body b
  exact congrArg Links.ports hlnk
@[simp] theorem sendMctp_lports (dest tag bytes) : (sendMctp dest tag bytes b).lports = b.lports := by simp [sendMctp]
@[simp] theorem giveAnswer_lports (x body) : (giveAnswer x body b).lports = b.lports := by
  unfold giveAnswer
  cases x.path <;> simp
@[simp] theorem answer_lports (x st data) : (answer x st data b).lports = b.lports := by simp [answer]
@[simp] theorem readCtxRecords_lports (x r) : (readCtxRecords x r b).lports = b.lports := by simp [readCtxRecords]
@[simp] theorem ctxDictAnswered_lports (c st data) : (ctxDictAnswered c st data b).lports = b.lports := by
  unfold ctxDictAnswered
  cases b.dct.serving <;> simp
@[simp] theorem serveRead_lports (x r) : (serveRead x r b).lports = b.lports := by
  unfold serveRead
  cases paramRow r.index r.sub <;> simp
@[simp] theorem adoptJoin_lports (body) : (adoptJoin body b).lports = b.lports := by simp [adoptJoin]
@[simp] theorem joinWrite_lports (body) : (joinWrite body b).lports = b.lports := by simp [joinWrite]
@[simp] theorem trackClear_lports (s k) : (trackClear s k b).lports = b.lports := by simp [trackClear]
@[simp] theorem takeSizes_lports (i j) : (takeSizes i j b).lports = b.lports := by simp [takeSizes]
@[simp] theorem writePar_lports (i j data) : (writePar i j data b).lports = b.lports := by simp [writePar]
@[simp] theorem writeHalf_lports (base bytes) : (writeHalf base bytes b).lports = b.lports := by simp [writeHalf]
@[simp] theorem beginDictSave_lports (x storeOk) : (beginDictSave x storeOk b).lports = b.lports := by simp [beginDictSave]
@[simp] theorem saveEnds_lports : (saveEnds b).lports = b.lports := by
  unfold saveEnds
  cases b.dct.serving with
  | none => rfl
  | some x => cases hx : x.save <;> simp [hx]
@[simp] theorem sillTest_lports : (sillTest b).lports = b.lports := by simp [sillTest]
@[simp] theorem sendReq_lports (chip why body) : (sendReq chip why body b).lports = b.lports := by simp [sendReq]
@[simp] theorem forwardReq_lports (x r) : (forwardReq x r b).lports = b.lports := by simp [forwardReq]
@[simp] theorem forwardLost_lports : (forwardLost b).lports = b.lports := by
  unfold forwardLost
  cases b.dct.serving <;> simp
@[simp] theorem serve_lports (x storeOk) : (serve x storeOk b).lports = b.lports := by
  dsimp only [serve]
  cases paramRow (reqOf x.body).index (reqOf x.body).sub <;> simp
theorem headReq_lports {p x b'} (h : headReq b p = some (x, b')) : b'.lports = b.lports := by
  cases p <;> grind [headReq, updDct_lports, updFrm_lports]
@[simp] theorem servePath_lports (p takes storeOk) : (servePath p takes storeOk b).lports = b.lports := by
  unfold servePath
  cases hr : headReq b p with
  | none => simp
  | some r => simp [headReq_lports b hr]
@[simp] theorem mctpArrives_lports (source tag m) : (mctpArrives source tag m b).lports = b.lports := by simp [mctpArrives]
@[simp] theorem dictRow_lports (p source tag m takes storeOk) : (dictRow p source tag m takes storeOk b).lports = b.lports := by
  simp [dictRow]
@[simp] theorem dictGo_lports (irq) : (dictGo irq b).lports = b.lports := by simp [dictGo]
@[simp] theorem takeSegment_lports (src m) : (takeSegment src m b).lports = b.lports := by
  dsimp only [takeSegment]
  split <;> simp
@[simp] theorem dictReqMsg_lports (m) : (dictReqMsg m b).lports = b.lports := by simp [dictReqMsg]
@[simp] theorem updPending_lports (c f) : (updPending c f b).lports = b.lports := by simp [updPending]
@[simp] theorem tryJoin_lports (c) : (tryJoin c b).lports = b.lports := by
  unfold tryJoin
  cases tblGet none b.frm.pending c <;> simp
@[simp] theorem mismatch_lports (c) : (mismatch c b).lports = b.lports := by simp [mismatch]
@[simp] theorem readBack_lports (c want size mark body) : (readBack c want size mark body b).lports = b.lports := by simp [readBack]
@[simp] theorem admitted_lports (c) : (admitted c b).lports = b.lports := by simp [admitted]
@[simp] theorem answered_lports (x body) : (answered x body b).lports = b.lports := by
  unfold answered
  cases x.why <;> cases b.dct.serving <;> simp
@[simp] theorem dictRspMsg_lports (m) : (dictRspMsg m b).lports = b.lports := by
  dsimp only [dictRspMsg]
  split <;> simp
@[simp] theorem dictReqLate_lports (tag) : (dictReqLate tag b).lports = b.lports := by
  unfold dictReqLate
  split <;> simp
@[simp] theorem readPending_lports (c) : (readPending c b).lports = b.lports := by
  unfold readPending
  cases tblGet none b.frm.pending c <;> simp
@[simp] theorem dropForwards_lports : (dropForwards b).lports = b.lports := by simp [dropForwards]
@[simp] theorem ctlResponse_lports (source tag header cmd code data) :
    (ctlResponse source tag header cmd code data b).lports = b.lports := by simp [ctlResponse]
@[simp] theorem setEid_lports (source tag header eid) : (setEid source tag header eid b).lports = b.lports := by simp [setEid]
@[simp] theorem getEid_lports (source tag header) : (getEid source tag header b).lports = b.lports := by simp [getEid]
@[simp] theorem getVersions_lports (source tag header msgType) : (getVersions source tag header msgType b).lports = b.lports := by
  simp [getVersions]
@[simp] theorem getTypes_lports (source tag header) : (getTypes source tag header b).lports = b.lports := by simp [getTypes]

/-! The beat -/

@[simp] theorem takeSnapshot_lports : (takeSnapshot b).lports = b.lports := by simp [takeSnapshot, takeParams]
@[simp] theorem writeQuarters_lports (v) : (writeQuarters v b).lports = b.lports := by simp [writeQuarters]
@[simp] theorem sendBeats_lports (edge t depth pathOk) : (sendBeats edge t depth pathOk b).lports = b.lports :=
  foldl_lports (fun _ _ => by simp) _ _
@[simp] theorem placeEdge_lports (p arrival m) : (placeEdge p arrival m b).lports = b.lports := by simp [placeEdge]
@[simp] theorem takeManager_lports (m) : (takeManager m b).lports = b.lports := by simp [takeManager]
@[simp] theorem stepDown_lports : (stepDown b).lports = b.lports := by simp [stepDown]
@[simp] theorem beatMsg_lports (p arrival m) : (beatMsg p arrival m b).lports = b.lports := by simp [beatMsg]
@[simp] theorem edgeClock_lports : (edgeClock b).lports = b.lports := by
  dsimp only [edgeClock]
  split <;> rfl
@[simp] theorem takeOver_lports : (takeOver b).lports = b.lports := by simp [takeOver]
@[simp] theorem managerEdge_lports : (managerEdge b).lports = b.lports := by simp [managerEdge]
@[simp] theorem frameEdge_lports : (frameEdge b).lports = b.lports := by simp [frameEdge]
@[simp] theorem takeOverLate_lports : (takeOverLate b).lports = b.lports := by simp [takeOverLate]
@[simp] theorem fillPort_lports (p) : (fillPort p b).lports = b.lports := by simp [fillPort]
@[simp] theorem fillLanes_lports : (fillLanes b).lports = b.lports := by simp [fillLanes]

/-! Answers on the memory port -/

@[simp] theorem endReq_lports (r st data) : (endReq r st data b).lports = b.lports := by
  unfold endReq
  cases r.why <;> simp
@[simp] theorem endPart_lports (tag st data) : (endPart tag st data b).lports = b.lports := by
  dsimp only [endPart]
  split
  · simp
  · split <;> simp
@[simp] theorem takeResponse_lports (tag code data) : (takeResponse tag code data b).lports = b.lports := by
  unfold takeResponse
  cases b.work.part tag <;> simp
@[simp] theorem responseLate_lports (tag) : (responseLate tag b).lports = b.lports := by
  unfold responseLate
  cases b.work.part tag <;> simp
@[simp] theorem retryPart_lports (r p) : (retryPart r p b).lports = b.lports := by
  unfold retryPart
  cases r.slice <;> simp
@[simp] theorem pageAnswered_lports (tag ok) : (pageAnswered tag ok b).lports = b.lports := by
  unfold pageAnswered
  cases b.work.part tag <;> simp
@[simp] theorem groupAnswered_lports (group ok) : (groupAnswered group ok b).lports = b.lports := by
  unfold groupAnswered
  split <;> simp
@[simp] theorem groupLate_lports (group) : (groupLate group b).lports = b.lports := by
  unfold groupLate
  split <;> simp

/-! Registers -/

@[simp] theorem boxRead_lports (o) : (boxRead o b).2.lports = b.lports := by
  unfold boxRead
  split
  · dsimp only
    split <;> simp
  · split <;> rfl
@[simp] theorem pageRead_lports (s o) : (pageRead s o b).2.lports = b.lports := by
  unfold pageRead
  split
  · dsimp only
    split <;> simp
  · rfl
@[simp] theorem regRead_lports (bar2 o) : (regRead bar2 o b).2.lports = b.lports := by
  unfold regRead
  split
  · simp
  · split <;> simp
@[simp] theorem latchHigh_lports (o) : (latchHigh o b).lports = b.lports := by simp [latchHigh]
@[simp] theorem halfRead_lports (bar2 o) : (halfRead bar2 o b).2.lports = b.lports := by
  unfold halfRead
  split
  · cases bar2 <;> simp
  · dsimp only
    split <;> simp
@[simp] theorem writePowerStatus_lports (x) : (writePowerStatus x b).lports = b.lports := by simp [writePowerStatus]
@[simp] theorem writeBar0_lports (o x) : (writeBar0 o x b).lports = b.lports := by simp [writeBar0]
@[simp] theorem endFieldWrite_lports (mid atCluster o x) : (endFieldWrite mid atCluster o x b).lports = b.lports := by
  simp [endFieldWrite]
@[simp] theorem fieldWrite_lports (bar2 o x) : (fieldWrite bar2 o x b).lports = b.lports := by simp [fieldWrite]
@[simp] theorem pathWrite_lports (path o v) : (pathWrite path o v b).lports = b.lports := by
  unfold pathWrite
  cases path <;> simp
@[simp] theorem boxWrite_lports (mid c o x) : (boxWrite mid c o x b).lports = b.lports := by simp [boxWrite]
@[simp] theorem actPage_lports (s o v) : (actPage s o v b).lports = b.lports := by simp [actPage]
@[simp] theorem completeRead_lports (tag v ur) : (completeRead tag v ur b).lports = b.lports := by simp [completeRead]
@[simp] theorem portRead_lports (bar2 o size tag) : (portRead bar2 o size tag b).lports = b.lports := by
  dsimp only [portRead]
  split
  · simp
  · split <;> simp

end

/-! ### What takes no port to UP -/

theorem lport_updLport (b : Block) (p : Nat) (f : LinkPort → LinkPort) : (b.updLport p f).lport p = f (b.lport p) :=
  tblGet_tblUpd_same _ _ _ _

theorem lport_updLport_other (b : Block) (p q : Nat) (f : LinkPort → LinkPort) (h : q ≠ p) : (b.updLport p f).lport q = b.lport q :=
  tblGet_tblUpd_other _ _ _ _ _ h

@[simp] theorem foldl_noneRises {α : Type} {f : Block → α → Block} {t : Tbl LinkPort} {b : Block} (h : NoneRises t b.lports)
    (hf : ∀ b x, NoneRises b.lports (f b x).lports) (l : List α) : NoneRises t (l.foldl f b).lports := by
  induction l generalizing b with
  | nil => exact h
  | cons x l ih => exact ih (h.trans (hf b x))

section

variable {t : Tbl LinkPort} {b : Block} (h : NoneRises t b.lports)

include h

@[simp] theorem onMsgAll_noneRises (typ) {f : Nat → Nat → Msg → Block → Block}
    (hf : ∀ p arrival m b, NoneRises b.lports (f p arrival m b).lports) : NoneRises t (onMsgAll typ f b).lports := by
  unfold onMsgAll
  split
  · exact h.trans (hf _ _ _ { b with work := _ })
  · exact h

@[simp] theorem runBlock_noneRises (o id) {f : Cmd → Block → Block} (hf : ∀ c b, NoneRises b.lports (f c b).lports) :
    NoneRises t (runBlock o id f b).lports := by
  unfold runBlock
  split
  · simp [h, h.trans (hf _ b)]
  · exact h

/-- A change of one port that does not take it to UP. -/
@[simp] theorem updLport_noneRises {p : Nat} {f : LinkPort → LinkPort} (hf : (f (b.lport p)).state = .up → (b.lport p).state = .up) :
    NoneRises t (b.updLport p f).lports := by
  intro q hq
  change ((b.updLport p f).lport q).state = .up at hq
  by_cases hqp : q = p
  · subst hqp
    rw [lport_updLport] at hq
    exact h q (hf hq)
  · rw [lport_updLport_other _ _ _ _ hqp] at hq
    exact h q hq

/-! Blocks and frames of a port -/

@[simp] theorem receivedOn_noneRises (p lane x) : NoneRises t (b.receivedOn p lane x).lports := by simp [Block.receivedOn, h]
@[simp] theorem received_noneRises (p bs) : NoneRises t (b.received p bs).lports := by simp [Block.received, h]
@[simp] theorem receivedTrain_noneRises (p k) : NoneRises t (b.receivedTrain p k).lports := by simp [Block.receivedTrain, h]
@[simp] theorem sendFrame_noneRises (p count flits) : NoneRises t (sendFrame p count flits b).lports := by simp [sendFrame, h]
omit h in
theorem pumpPort_noneRises (p fuel : Nat) (b : Block) : NoneRises b.lports (pumpPort p fuel b).lports := by
  induction fuel generalizing b with
  | zero => simp [pumpPort]
  | succ fuel ih =>
    dsimp only [pumpPort]
    split
    · exact .trans (by simp) (ih _)
    · simp
@[simp] theorem pump_noneRises : NoneRises t (pump b).lports := by simp [pump, h, pumpPort_noneRises]

/-! Training and the states of a port -/

@[simp] theorem dropPort_noneRises (p) : NoneRises t (dropPort p b).lports := by simp [dropPort, h]
@[simp] theorem startTrain_noneRises (p) : NoneRises t (startTrain p b).lports := by simp [startTrain, h]
@[simp] theorem shortTrain_noneRises (p) : NoneRises t (shortTrain p b).lports := by simp [shortTrain, h]
@[simp] theorem failTrain_noneRises (p sub) : NoneRises t (failTrain p sub b).lports := by simp [failTrain, h]
/-- A port that loses its neighbour is LOST or DISABLED (R484, R488). -/
@[simp] theorem loseNeighbour_noneRises (p st) : NoneRises t (loseNeighbour p st b).lports := by
  have hlost (c : Prop) [Decidable c] : (if c then LinkSt.disabled else .lost) ≠ .up := by split <;> nofun
  simp [loseNeighbour, h, hlost]
@[simp] theorem retrainOp_noneRises (p) : NoneRises t (retrainOp p b).lports := by simp [retrainOp, h]
@[simp] theorem disablePort_noneRises (p) : NoneRises t (disablePort p b).lports := by simp [disablePort, h]
@[simp] theorem recordNeighbour_noneRises (p k) : NoneRises t (recordNeighbour p k b).lports := by
  dsimp only [recordNeighbour]
  split <;> simp [h]
@[simp] theorem sendPing_noneRises (p) : NoneRises t (sendPing p b).lports := by simp [sendPing, h]
@[simp] theorem startPings_noneRises (p) : NoneRises t (startPings p b).lports := by simp [startPings, h]
@[simp] theorem trainStep_noneRises (p k) : NoneRises t (trainStep p k b).lports := by
  refine NoneRises.ite (failTrain_noneRises h p 4) ?_
  lift_lets
  intro b₁ x skew
  have h₁ : NoneRises t b₁.lports := updLport_noneRises h id
  clear_value b₁ skew
  cases skew with
  | none => exact h₁
  | some n =>
    -- the block after steps 5, 6 and 7 of R467
    have h₅ := NoneRises.ite (c := x.step = 4)
      (updLport_noneRises h₁ (p := p) (f := fun x => { x with step := 5, deskew := some n }) id) h₁
    have h₆ := updLport_noneRises h₅ (p := p) (f := fun x => if x.step = 5 ∧ x.seen then { x with step := 6 } else x) (by simp)
    have h₇ := recordNeighbour_noneRises
      (updLport_noneRises h₆ (p := p) (f := fun x => { x with step := 7, waking := false }) id) p k
    exact NoneRises.ite (failTrain_noneRises h₁ p 3) (.ite (.ite h₇ (startPings_noneRises h₇ p)) h₆)
@[simp] theorem trainBlock_noneRises (p k) : NoneRises t (trainBlock p k b).lports := by simp [trainBlock, h]
@[simp] theorem trainLate_noneRises (p) : NoneRises t (trainLate p b).lports := by simp [trainLate, h]
@[simp] theorem trainAgain_noneRises (p) : NoneRises t (trainAgain p b).lports := by simp [trainAgain, h]
@[simp] theorem rxLock_noneRises (p lane level) : NoneRises t (rxLock p lane level b).lports := by simp [rxLock, h]
@[simp] theorem rawBlock_noneRises (p lane x) : NoneRises t (rawBlock p lane b x).lports := by simp [rawBlock, h]
@[simp] theorem laneBlocks_noneRises (p lane xs) : NoneRises t (laneBlocks p lane xs b).lports := by
  have hall : NoneRises t (xs.foldl (rawBlock p lane) b).lports := by simp [h]
  simp [laneBlocks, h, hall]
@[simp] theorem whereLocked_noneRises (p bs) {f : Block → Block} (hf : ∀ b, NoneRises b.lports (f b).lports) :
    NoneRises t (whereLocked p bs f b).lports := by
  have hr : NoneRises t (b.received p bs).lports := received_noneRises h p bs
  simp [whereLocked, hr, hr.trans (hf _)]
/-- A port whose training is complete is in PROBATION (R468, R487). -/
@[simp] theorem measured_noneRises (p) : NoneRises t (measured p b).lports := by simp [measured, h]
@[simp] theorem pingBlock_noneRises (p tag echo turn arrival delay) : NoneRises t (pingBlock p tag echo turn arrival delay b).lports := by
  simp [pingBlock, h]
@[simp] theorem remeasure_noneRises (p) : NoneRises t (remeasure p b).lports := by simp [remeasure, h]
@[simp] theorem discardFrame_noneRises (p crcBad) : NoneRises t (discardFrame p crcBad b).lports := by simp [discardFrame, h]
@[simp] theorem linkFrame_noneRises (p seq flits crc arrival) : NoneRises t (linkFrame p seq flits crc arrival b).lports := by
  simp [linkFrame, h]
@[simp] theorem resendFrom_noneRises (p sel) : NoneRises t (resendFrom p sel b).lports := by simp [resendFrom, h]
@[simp] theorem partnerSleeps_noneRises (p) : NoneRises t (partnerSleeps p b).lports := by simp [partnerSleeps, h]
@[simp] theorem ackBlock_noneRises (p a nak sleep v n) : NoneRises t (ackBlock p a nak sleep v n b).lports :=
  NoneRises.ite h <| NoneRises.ite (partnerSleeps_noneRises h p) <|
    NoneRises.ite (resendFrom_noneRises (updLport_noneRises (updLport_noneRises h id) id) p _) (updLport_noneRises h id)
@[simp] theorem ackLate_noneRises (p seq) : NoneRises t (ackLate p seq b).lports := by simp [ackLate, h]
@[simp] theorem resendLate_noneRises (p seq) : NoneRises t (resendLate p seq b).lports := by simp [resendLate, h]
@[simp] theorem silence_noneRises (p) : NoneRises t (silence p b).lports := by simp [silence, h]
@[simp] theorem nullFrame_noneRises (p) : NoneRises t (nullFrame p b).lports := by simp [nullFrame, h]
@[simp] theorem neighbourResets_noneRises (c) : NoneRises t (neighbourResets c b).lports := by simp [neighbourResets, h]
@[simp] theorem noticeMsg_noneRises (m) : NoneRises t (noticeMsg m b).lports := by simp [noticeMsg, h]
@[simp] theorem sleepPort_noneRises (p) : NoneRises t (sleepPort p b).lports := by
  have hs (s : LinkSt) : (if s = .disabled then s else .sleep) ≠ .up := by cases s <;> simp
  simp [sleepPort, h, hs]
@[simp] theorem wakePort_noneRises (p) : NoneRises t (wakePort p b).lports := by simp [wakePort, h]
@[simp] theorem wakeOp_noneRises (p) : NoneRises t (wakeOp p b).lports := by simp [wakeOp, h]
@[simp] theorem wakeLate_noneRises (p) : NoneRises t (wakeLate p b).lports := by simp [wakeLate, h]
@[simp] theorem wakeWaiting_noneRises : NoneRises t (wakeWaiting b).lports := by simp [wakeWaiting, h]
@[simp] theorem edgeLinks_noneRises : NoneRises t (edgeLinks b).lports := by simp [edgeLinks, h]
@[simp] theorem resetsPass_noneRises : NoneRises t (resetsPass b).lports := by simp [resetsPass, h]

/-! Resets (R579, R645, R647) -/

omit h in
/-- A full block reset leaves no port UP. -/
theorem resetTable_noneRises (t u : Tbl LinkPort) (warm : Bool) :
    NoneRises t ((u.map fun x => (x.1, resetLport warm x.2)).filter fun x => x.2 != {}) := by
  refine NoneRises.of_forall_ne fun x hx => ?_
  obtain ⟨hx, -⟩ := List.mem_filter.mp hx
  obtain ⟨y, -, rfl⟩ := List.mem_map.mp hx
  simp

omit h in
@[simp] theorem fullReset_noneRises (warm cause) : NoneRises t (fullReset warm cause b).lports := resetTable_noneRises _ _ _
omit h in
@[simp] theorem restart_noneRises (cause) : NoneRises t (restart cause b).lports := by simp [restart]
omit h in
@[simp] theorem requestReset_noneRises (cause) : NoneRises t (requestReset cause b).lports := by simp [requestReset]
omit h in
@[simp] theorem startFails_noneRises (st) : NoneRises t (startFails st b).lports := by simp [startFails]
omit h in
@[simp] theorem powerOnReset_noneRises : NoneRises t (powerOnReset b).lports := resetTable_noneRises _ _ _
@[simp] theorem dueReset_noneRises : NoneRises t (dueReset b).lports := by simp [dueReset, h]
@[simp] theorem firmwareLate_noneRises : NoneRises t (firmwareLate b).lports := by simp [firmwareLate, h]
@[simp] theorem porstRise_noneRises (present bf16) : NoneRises t (porstRise present bf16 b).lports := by simp [porstRise, h]
@[simp] theorem sysrstPulse_noneRises (ns) : NoneRises t (sysrstPulse ns b).lports := by simp [sysrstPulse, h]
@[simp] theorem flrReq_noneRises : NoneRises t (flrReq b).lports := by simp [flrReq, h]
@[simp] theorem startLate_noneRises : NoneRises t (startLate b).lports := by simp [startLate, h]
@[simp] theorem trainPorts_noneRises : NoneRises t (trainPorts b).lports := by simp [trainPorts, h]
@[simp] theorem dictLoad_noneRises (store) : NoneRises t (dictLoad store b).lports := by simp [dictLoad, h]
@[simp] theorem resetTenon_noneRises (c p) : NoneRises t (resetTenon c p b).lports := by simp [resetTenon, h]
@[simp] theorem resetDomainOp_noneRises (c) : NoneRises t (resetDomainOp c b).lports := by
  unfold resetDomainOp
  dsimp only
  split <;> simp [h]

/-! Power states -/

@[simp] theorem tnlOff_noneRises : NoneRises t (tnlOff b).lports :=
  h.trans (NoneRises.map (f := fun x => { x with
    deskew := none, lane0 := { x.lane0 with blockLock := false }, lane1 := { x.lane1 with blockLock := false } }) (fun _ hx => hx) _)
@[simp] theorem entryBegins_noneRises : NoneRises t (entryBegins b).lports := by
  have hasleep : NoneRises t ((List.range 6).foldl (fun b p => sleepPort p b) (arithOff b)).lports := by simp [h]
  simp [entryBegins, h, hasleep]
@[simp] theorem trainSlept_noneRises : NoneRises t (trainSlept b).lports := by simp [trainSlept, h]
@[simp] theorem powerAdvance_noneRises : NoneRises t (powerAdvance b).lports := by
  unfold powerAdvance
  dsimp only
  split <;> simp [h]
@[simp] theorem goPs0_noneRises : NoneRises t (goPs0 b).lports := by simp [goPs0, h]
@[simp] theorem wakeAfter_noneRises : NoneRises t (wakeAfter b).lports := by simp [wakeAfter, h]
@[simp] theorem ps3Exit_noneRises : NoneRises t (ps3Exit b).lports := by simp [ps3Exit, h]
@[simp] theorem wakeReport_noneRises (p) : NoneRises t (wakeReport p b).lports := by simp [wakeReport, h]
@[simp] theorem wakeDetect_noneRises (p edges) : NoneRises t (wakeDetect p edges b).lports := by simp [wakeDetect, h]
@[simp] theorem fnWake_noneRises : NoneRises t (fnWake b).lports := by simp [fnWake, h]
@[simp] theorem readback_noneRises (rail mv) : NoneRises t (readback rail mv b).lports := by
  dsimp only [readback]
  split
  · exact h
  · split <;> simp [h]
@[simp] theorem voltageLate_noneRises (rail) : NoneRises t (voltageLate rail b).lports := by
  unfold voltageLate
  cases railReq b.pwr rail <;> simp [h]
@[simp] theorem clkOkRose_noneRises : NoneRises t (clkOkRose b).lports := by simp [clkOkRose, h]
@[simp] theorem freeze_noneRises (reason) : NoneRises t (freeze reason b).lports := by simp [freeze, h]
@[simp] theorem pwrfailRose_noneRises : NoneRises t (pwrfailRose b).lports := by
  dsimp only [pwrfailRose]
  split
  · exact h
  · split
    · simp [h]
    · split <;> simp [h]
@[simp] theorem sillWritten_noneRises : NoneRises t (sillWritten b).lports := by
  unfold sillWritten
  split
  · exact h
  · next why _ _ _ =>
    cases why with
    | test => simp [h]
    | rest => simp [h]
    | freeze => exact NoneRises.ite (by simp) (by simp [h])
@[simp] theorem takeAddress_noneRises (a wakes) : NoneRises t (takeAddress a wakes b).lports := by simp [takeAddress, h]
@[simp] theorem setdasa_noneRises (a) : NoneRises t (setdasa a b).lports := by simp [setdasa, h]
@[simp] theorem powerWrite_noneRises (v) : NoneRises t (powerWrite v b).lports := by
  unfold powerWrite
  split <;> simp [h]

/-! Registers of the Tenon ports and of power -/

@[simp] theorem linkWrite_noneRises (p v) : NoneRises t (linkWrite p v b).lports := by
  unfold linkWrite
  split <;> simp [h]
@[simp] theorem actBar0_noneRises (o v) : NoneRises t (actBar0 o v b).lports := by simp [actBar0, h]
@[simp] theorem regWrite_noneRises (bar2 o x) : NoneRises t (regWrite bar2 o x b).lports := by simp [regWrite, h]
@[simp] theorem portWrite_noneRises (bar2 o size v) : NoneRises t (portWrite bar2 o size v b).lports := by simp [portWrite, h]
@[simp] theorem portAccess_noneRises (bar2 write o size v tag) : NoneRises t (portAccess bar2 write o size v tag b).lports := by
  simp [portAccess, h]

/-! The end of a cycle -/

@[simp] theorem decideLate_noneRises (x) : NoneRises t (decideLate b x).lports := by cases x <;> simp [decideLate, h]
@[simp] theorem decideRank_noneRises (k) : NoneRises t (decideRank b k).lports := by simp [decideRank, h]
@[simp] theorem cycleOver_noneRises : NoneRises t (cycleOver b).lports := by
  have hearly : NoneRises t ((List.range 14).foldl decideRank (sendBarEnds (b.updWork (endPorts b)))).lports := by simp [h]
  simp [cycleOver, hearly]
@[simp] theorem lastCycle_noneRises : NoneRises t (lastCycle b).lports := by simp [lastCycle, h]
@[simp] theorem pwrfailFell_noneRises : NoneRises t (pwrfailFell b).lports := by simp [pwrfailFell, h]
@[simp] theorem pmbAlert_noneRises (word) : NoneRises t (pmbAlert word b).lports := by
  unfold pmbAlert
  cases word <;> simp [h]
@[simp] theorem beatEdge_noneRises : NoneRises t (beatEdge b).lports := by simp [beatEdge, h]
@[simp] theorem cycleEnd_noneRises : NoneRises t (cycleEnd b).lports := by
  have hpower {b : Block} (h : NoneRises t b.lports) :
      NoneRises t (wakeWaiting (powerAdvance (selfWake (entryBegins (saveEnds (bootProceeds (boxReset b))))))).lports :=
    wakeWaiting_noneRises (powerAdvance_noneRises (by simp [h]))
  have hsend {b : Block} (h : NoneRises t b.lports) :
      NoneRises t (dueReset (fillLanes (pump (startAdvance (resetsPass b))))).lports := dueReset_noneRises (by simp [h])
  dsimp only [cycleEnd]
  exact hsend (hpower (by simp [h]))
@[simp] theorem tick_noneRises : NoneRises t (tick b).lports :=
  NoneRises.ite h <| NoneRises.ite (decideRank_noneRises h 19) <| NoneRises.ite (by simp [h]) (by simp [h])

end

/-! ### The step -/

/-- Where a command goes on, no port has risen to UP. -/
def Quiet (s : State) (o : Host.Outcome State Fault Refusal) : Prop := ∀ t, o = .next t → NoneRises s.core.lports t.core.lports

namespace Quiet

variable {s : State} {f : Block → Block}

theorem of_on (hf : ∀ b, NoneRises b.lports (f b).lports) : Quiet s (.next (s.on f)) := by
  rintro t ⟨⟩
  exact hf s.core

theorem of_onWork (s : State) (f : Block → Work → Work) : Quiet s (.next (s.onWork f)) := of_on fun b => by simp

theorem of_onAll (hf : ∀ b, NoneRises b.lports (f b).lports) : Quiet s (.next (s.onAll f)) := of_on fun b => by simp [hf]

theorem of_onBoxes (hf : ∀ b, NoneRises b.lports (f b).lports) : Quiet s (.next (s.onBoxes f)) := of_onAll fun b => by simp [hf]

theorem of_onAon (hf : ∀ b, NoneRises b.lports (f b).lports) : Quiet s (.next (s.onAon f)) := of_on fun b => by simp [hf]

theorem of_onI3c {wakes : Bool} (hf : ∀ b, NoneRises b.lports (f b).lports) : Quiet s (.next (s.onI3c wakes f)) :=
  of_onAon fun b => by simp [hf]

end Quiet

/-- No command but CLEAN_BEAT takes a port to UP. -/
theorem exec_quiet {c : Instr} (hc : ∀ p, c ≠ .cleanBeat p) (s : State) : Quiet s (exec c s) := by
  cases c
  case cleanBeat p => exact absurd rfl (hc p)
  case porstNRise | pwrfailNFall | sillWriteDone | pwrfailNRise | porstNFall => exact .of_on (by simp)
  case entdaa | setdasa | sysrstNPulse | fnFlrReq | fnWakeReq | fnBmeChange | wakeDetect | pmbAlert | vrTelemetryPoll | voltageReadback
      | voltageTimeout | voltageRetryTimer | pswAck | wakeAfterTimeout | ps3Exit | clkOkRise | fuseAck | warmStart | startTimeout =>
    exact .of_onAon (by simp)
  case dictRead | dictWrite | dictInfo | dictSave | setEndpointId | getEndpointId | getMctpVersionSupport | getMessageTypeSupport =>
    exact .of_onI3c (by simp)
  case domainReset | recover | restart | coreFault | coreRestartDone | functionPortAccess | pageRequestResponse | priTimeout
      | memoryResponse | memoryResponseTimeout =>
    exact .of_onBoxes (by simp)
  case barrierArrive | beatQuartersWrite | lowHalfReadLatch | mailboxRing | mailboxClear | mailboxMaskWrite | mailboxMsgWrite
      | mailboxRingTimeout | recoveryLoad | recoveryRing | ping | version | coreMap | lockRead | lockRelease | mbxLockForce | retrain
      | portDisable | wake | goPs0 | goPs2 | goPs3 | sillTest | dictGo | registerWrite | programMemoryAccess | firmwareNormal
      | firmwareStartTimeout | clusterReset | grantSnapshot | beatEdge | trainBlock | trainFailed | trainRetryTimer | pingBlock
      | latencyRemeasure | linkFrame | ackBlock | ackSendTimer | transitTimeout | beatMessage | noticeMessage | barrierArriveMessage
      | barrierRelease | dictReq | dictRsp | dictReqTimeout | wakeWaitTimeout | foundFrame | joinState | frameCmdExclude
      | managerLostWait | ps1IdleTimeout | ps1Exit | dictionaryLoad | startComplete | rxLockChange | blockLockChange
      | probationNullFrame | selfTestDone =>
    exact .of_onAll (by simp)
  all_goals exact .of_onWork s _

/-- CLEAN_BEAT takes a port to UP from PROBATION alone (R487). -/
theorem cleanBeat_up {p q : Nat} {b : Block} (hup : ((cleanBeat p b).lport q).state = .up) :
    (b.lport q).state = .up ∨ (b.lport q).state = .probation := by
  dsimp only [cleanBeat] at hup
  split at hup
  · exact .inl hup
  next hclean =>
    by_cases hqp : q = p
    case pos =>
      right
      simp only [Bool.or_eq_true, bne_iff_ne, not_or, not_not] at hclean
      simp [hqp, hclean]
    case neg =>
      left
      split at hup
      · rwa [lport_congr (framePortUp_lports _ p), lport_updLport_other _ _ _ _ hqp] at hup
      · rwa [lport_updLport_other _ _ _ _ hqp] at hup

/-- The command CLEAN_BEAT, which runs on the whole block. -/
theorem exec_cleanBeat_up {p q : Nat} {s t : State} (hexec : exec (.cleanBeat p) s = .next t) (hup : (t.core.lport q).state = .up) :
    (s.core.lport q).state = .up ∨ (s.core.lport q).state = .probation := by
  have ht : s.onAll (cleanBeat p) = t := Host.Outcome.next.inj hexec
  subst ht
  cases hstill : s.core.still with
  | true =>
    rw [onAll_still _ _ hstill] at hup
    exact .inl hup
  | false =>
    rw [onAll_live _ _ hstill] at hup
    exact cleanBeat_up (lport_congr (after_lports _) q ▸ hup)

/-- Settles O59: a cycle that passes and every command but CLEAN_BEAT take no port to UP, and CLEAN_BEAT takes one there
from PROBATION. -/
theorem probationBeforeUp : Obligations.ProbationBeforeUp := by
  intro s t p hstep hup
  unfold step at hstep
  split at hstep
  next => exact .inl (Quiet.of_on (fun b => by simp) t hstep p hup)
  next c rest hpending =>
    by_cases hc : ∃ q, c = .cleanBeat q
    case pos =>
      obtain ⟨q, rfl⟩ := hc
      exact exec_cleanBeat_up (s := { s with pending := rest }) hstep hup
    case neg => exact .inl (exec_quiet (fun q hq => hc ⟨q, hq⟩) _ t hstep p hup)

end Sys2Proof.Machine
end

-- Proofs about the locks (R459 to R461).
section

namespace Sys2Proof.Machine

/-! ### The table of locks

Only a read of a lock, a write of one, a forced release, a cluster reset and a block reset change the table of locks: the lemmas
`f_locks` say of every other operation `f` that it leaves the table, the lemmas `f_lawful` of those with such a change in them that
they keep it lawful. -/

/-- The table of locks, under a name that no update of another part unfolds. -/
def Block.lockTable (b : Block) : Tbl (Option (BitVec 8)) := b.mbx.locks

/-- The table has its canonical form, names locks 0 to 63 alone, and every holder has access to the locks (R459). -/
def LocksHeld (t : Tbl (Option (BitVec 8))) : Prop :=
  tblWf none t = true ∧ ∀ p ∈ t, p.1 < 64 ∧ ∃ o : BitVec 8, p.2 = some o ∧ lockAccess o.toNat = true

@[simp] theorem LocksHeld.ite_iff (c : Prop) [Decidable c] (t u : Tbl (Option (BitVec 8))) :
    LocksHeld (if c then t else u) ↔ (c → LocksHeld t) ∧ (¬c → LocksHeld u) := by
  split <;> simp_all

/-- No lock is held. -/
@[simp] theorem locksHeld_nil : LocksHeld [] := ⟨rfl, nofun⟩

/-- Part of a table in canonical form has it. -/
theorem tblWf_filter {α : Type} [DecidableEq α] {d : α} {t : Tbl α} (h : tblWf d t = true) (q : Nat × α → Bool) :
    tblWf d (t.filter q) = true := by
  induction t with
  | nil => rfl
  | cons x t ih =>
    obtain ⟨hx, hlt, ht⟩ := (tblWf_cons d x.1 x.2 t).mp h
    by_cases hq : q x = true
    · rw [List.filter_cons_of_pos hq]
      exact (tblWf_cons d x.1 x.2 _).mpr ⟨hx, fun y hy => hlt y (List.mem_of_mem_filter hy), ih ht⟩
    · rw [List.filter_cons_of_neg hq]
      exact ih ht

/-! ### What leaves the table -/

section

variable (b : Block)

@[simp] theorem mbx_locks : b.mbx.locks = b.lockTable := by rw [Block.lockTable]
@[simp] theorem mk_lockTable (clk work mbx lnk frm pwr st dct mgmt pins) :
    (Block.mk clk work mbx lnk frm pwr st dct mgmt pins).lockTable = mbx.locks := by rw [Block.lockTable]
@[simp] theorem after_locks : b.after.lockTable = b.lockTable := congrArg Mailboxes.locks b.after_mbx
@[simp] theorem ite_locks (c : Prop) [Decidable c] (x y : Block) :
    (if c then x else y).lockTable = if c then x.lockTable else y.lockTable := apply_ite (fun b : Block => b.lockTable) c x y

@[simp] theorem updWork_locks (f) : (b.updWork f).lockTable = b.lockTable := congrArg Mailboxes.locks (b.updWork_mbx f)
@[simp] theorem updMbx_locks {f : Mailboxes → Mailboxes} (hf : (f b.mbx).locks = b.lockTable) : (b.updMbx f).lockTable = b.lockTable := hf
@[simp] theorem updChan_locks (c f) : (b.updChan c f).lockTable = b.lockTable := by simp [Block.updChan]
@[simp] theorem updJnr_locks (f) : (b.updJnr f).lockTable = b.lockTable := congrArg Mailboxes.locks (b.updJnr_mbx f)
@[simp] theorem updFrm_locks (f) : (b.updFrm f).lockTable = b.lockTable := congrArg Mailboxes.locks (b.updFrm_mbx f)
@[simp] theorem updBar_locks (i f) : (b.updBar i f).lockTable = b.lockTable := congrArg Mailboxes.locks (b.updBar_mbx i f)
@[simp] theorem updPwr_locks (f) : (b.updPwr f).lockTable = b.lockTable := congrArg Mailboxes.locks (b.updPwr_mbx f)
@[simp] theorem updStart_locks (f) : (b.updStart f).lockTable = b.lockTable := congrArg Mailboxes.locks (b.updStart_mbx f)
@[simp] theorem updDct_locks (f) : (b.updDct f).lockTable = b.lockTable := congrArg Mailboxes.locks (b.updDct_mbx f)
@[simp] theorem updMgmt_locks (f) : (b.updMgmt f).lockTable = b.lockTable := congrArg Mailboxes.locks (b.updMgmt_mbx f)
@[simp] theorem updClk_locks (f) : (b.updClk f).lockTable = b.lockTable := congrArg Mailboxes.locks (b.updClk_mbx f)
@[simp] theorem updLnk_locks (f) : (b.updLnk f).lockTable = b.lockTable := congrArg Mailboxes.locks (b.updLnk_mbx f)
@[simp] theorem updCoder_locks (p f) : (b.updCoder p f).lockTable = b.lockTable := by rw [Block.lockTable, Block.lockTable, Block.updCoder]
@[simp] theorem foldl_locks {α : Type} {f : Block → α → Block} (h : ∀ b x, (f b x).lockTable = b.lockTable) (l : List α) (b : Block) :
    (l.foldl f b).lockTable = b.lockTable := by
  induction l generalizing b with
  | nil => rfl
  | cons x l ih => rw [List.foldl_cons, ih, h]

@[simp] theorem emit_locks (o : Output) : (b.emit o).lockTable = b.lockTable := by
  unfold Block.emit
  split
  · rfl
  · split <;> rfl

/-! Mailboxes and locks -/

@[simp] theorem countRefused_locks : (countRefused b).lockTable = b.lockTable := by simp [countRefused]
@[simp] theorem peerInterrupt_locks (c) : (peerInterrupt c b).lockTable = b.lockTable := by simp [peerInterrupt]
@[simp] theorem endInterrupt_locks (c atCluster) : (endInterrupt c atCluster b).lockTable = b.lockTable := by simp [endInterrupt]
@[simp] theorem setTimeouts_locks (c byCluster bits) : (setTimeouts c byCluster bits b).lockTable = b.lockTable := by simp [setTimeouts]
@[simp] theorem setMode_locks (maint) : (setMode maint b).lockTable = b.lockTable := by simp [setMode]
@[simp] theorem setBits_locks (mid c byCluster bits) : (setBits mid c byCluster bits b).lockTable = b.lockTable := by simp [setBits]
@[simp] theorem takeBits_locks (c bits) : (takeBits c bits b).lockTable = b.lockTable := by simp [takeBits]
@[simp] theorem clearBits_locks (c atCluster bits) : (clearBits c atCluster bits b).lockTable = b.lockTable := by simp [clearBits]
@[simp] theorem writeMask_locks (c atCluster bits) : (writeMask c atCluster bits b).lockTable = b.lockTable := by simp [writeMask]
@[simp] theorem writeWord_locks (mid c atCluster word) : (writeWord mid c atCluster word b).lockTable = b.lockTable := by simp [writeWord]
@[simp] theorem clearTimeouts_locks (c atCluster bits) : (clearTimeouts c atCluster bits b).lockTable = b.lockTable := by
  simp [clearTimeouts]
@[simp] theorem ringLate_locks (c bit) : (ringLate c bit b).lockTable = b.lockTable := by simp [ringLate]

/-! The joiner cluster -/

@[simp] theorem bootWord_locks (code) : (bootWord code b).lockTable = b.lockTable := by simp [bootWord]
@[simp] theorem bootChecks_locks : (bootChecks b).lockTable = b.lockTable := by simp [bootChecks]
@[simp] theorem bootReads_locks (a n rest) : (bootReads a n rest b).lockTable = b.lockTable := by simp [bootReads]
@[simp] theorem bootTakes_locks : (bootTakes b).lockTable = b.lockTable := by simp [bootTakes]
@[simp] theorem firmwareUp_locks : (firmwareUp b).lockTable = b.lockTable := by simp [firmwareUp]

/-! The frame and its barriers -/

@[simp] theorem endArrivals_locks (i st) : (endArrivals i st b).lockTable = b.lockTable := by simp [endArrivals]
@[simp] theorem sendRelease_locks (i count st gen) : (sendRelease i count st gen b).lockTable = b.lockTable := by simp [sendRelease]
@[simp] theorem releaseBar_locks (i gen) : (releaseBar i gen b).lockTable = b.lockTable := by simp [releaseBar]
@[simp] theorem breakBar_locks (i st src) : (breakBar i st src b).lockTable = b.lockTable := by simp [breakBar]
@[simp] theorem mgrBreak_locks (i st src) : (mgrBreak i st src b).lockTable = b.lockTable := by simp [mgrBreak]
@[simp] theorem mgrBreakAll_locks (st src) : (mgrBreakAll st src b).lockTable = b.lockTable := by simp [mgrBreakAll]
@[simp] theorem reopenBar_locks (i) : (reopenBar i b).lockTable = b.lockTable := by simp [reopenBar]
@[simp] theorem reopenAll_locks : (reopenAll b).lockTable = b.lockTable := by simp [reopenAll]
@[simp] theorem sendUp_locks (i count st gen) : (sendUp i count st gen b).lockTable = b.lockTable := by
  unfold sendUp
  split <;> rfl
@[simp] theorem trussCheck_locks (i) : (trussCheck i b).lockTable = b.lockTable := by simp [trussCheck]
@[simp] theorem trussAll_locks : (trussAll b).lockTable = b.lockTable := foldl_locks (fun _ _ => by simp) _ _
@[simp] theorem markPort_locks (c p isDown) : (markPort c p isDown b).lockTable = b.lockTable := by simp [markPort]
@[simp] theorem markFacing_locks (x y isDown) : (markFacing x y isDown b).lockTable = b.lockTable := by
  refine foldl_locks (fun b p => ?_) _ _
  cases farLink b.dct x p <;> simp
@[simp] theorem markChip_locks (c) : (markChip c b).lockTable = b.lockTable := by simp [markChip]
@[simp] theorem dropUnreachable_locks : (dropUnreachable b).lockTable = b.lockTable := by simp [dropUnreachable]
@[simp] theorem checkMinority_locks (st src) : (checkMinority st src b).lockTable = b.lockTable := by simp [checkMinority]
@[simp] theorem loseMgr_locks (byNotice) : (loseMgr byNotice b).lockTable = b.lockTable := by simp [loseMgr]
@[simp] theorem viewChanged_locks (down st src old) : (viewChanged down st src old b).lockTable = b.lockTable := by simp [viewChanged]
@[simp] theorem frameLost_locks (p st) : (frameLost p st b).lockTable = b.lockTable := by
  unfold frameLost
  cases farLink b.dct b.dct.chipNum p <;> simp
@[simp] theorem framePortUp_locks (p) : (framePortUp p b).lockTable = b.lockTable := by
  unfold framePortUp
  cases farLink b.dct b.dct.chipNum p <;> simp
@[simp] theorem exclude_locks (c) : (exclude c b).lockTable = b.lockTable := by simp [exclude]
@[simp] theorem beExcluded_locks : (beExcluded b).lockTable = b.lockTable := by simp [beExcluded]
@[simp] theorem noticeView_locks (kind subject src reason) : (noticeView kind subject src reason b).lockTable = b.lockTable := by
  simp [noticeView]
@[simp] theorem arriveOp_locks (id) : (arriveOp id b).lockTable = b.lockTable := by
  unfold arriveOp
  cases b.work.cmd id <;> simp
@[simp] theorem sendBarEnds_locks : (sendBarEnds b).lockTable = b.lockTable := by simp [sendBarEnds]
@[simp] theorem dropArrive_locks : (dropArrive b).lockTable = b.lockTable := by simp [dropArrive]
@[simp] theorem arriveMsg_locks (m) : (arriveMsg m b).lockTable = b.lockTable := by simp [arriveMsg]
@[simp] theorem releaseMsg_locks (m) : (releaseMsg m b).lockTable = b.lockTable := by simp [releaseMsg]
@[simp] theorem lostWaitOver_locks : (lostWaitOver b).lockTable = b.lockTable := by simp [lostWaitOver]
@[simp] theorem frameCmdExclude_locks (c) : (frameCmdExclude c b).lockTable = b.lockTable := by simp [frameCmdExclude]
@[simp] theorem excludeLate_locks (c) : (excludeLate c b).lockTable = b.lockTable := by
  unfold excludeLate
  cases tblGet none b.frm.pending c <;> simp
@[simp] theorem foundFrame_locks : (foundFrame b).lockTable = b.lockTable := by simp [foundFrame]

/-! Messages -/

@[simp] theorem dropRx_locks : (dropRx b).lockTable = b.lockTable := by simp [dropRx]
@[simp] theorem deliverMsg_locks (p arrival m) : (deliverMsg p arrival m b).lockTable = b.lockTable := by simp [deliverMsg]
@[simp] theorem queueTransit_locks (p m) : (queueTransit p m b).lockTable = b.lockTable := by simp [queueTransit]
@[simp] theorem forwardMsg_locks (m) : (forwardMsg m b).lockTable = b.lockTable := by
  unfold forwardMsg
  cases routeTo b m.dest.toNat <;> simp
@[simp] theorem setBseq_locks (c n) : (setBseq c n b).lockTable = b.lockTable := by simp [setBseq]
@[simp] theorem bcastMsg_locks (p arrival m) : (bcastMsg p arrival m b).lockTable = b.lockTable := by simp [bcastMsg]
@[simp] theorem receiveMsg_locks (p arrival m) : (receiveMsg p arrival m b).lockTable = b.lockTable := by simp [receiveMsg]
@[simp] theorem sendAck_locks (p nak sleep) : (sendAck p nak sleep b).lockTable = b.lockTable := by simp [sendAck]
@[simp] theorem ackDue_locks (p) : (ackDue p b).lockTable = b.lockTable := by simp [ackDue]
@[simp] theorem dropUnacked_locks (p) : (dropUnacked p b).lockTable = b.lockTable := by simp [dropUnacked]
@[simp] theorem transitLate_locks (p index) : (transitLate p index b).lockTable = b.lockTable := by simp [transitLate]

/-! Power -/

@[simp] theorem pswOn_locks (d) : (pswOn d b).lockTable = b.lockTable := by simp [pswOn]
@[simp] theorem pswOff_locks (d) : (pswOff d b).lockTable = b.lockTable := by simp [pswOff]
@[simp] theorem arithOff_locks : (arithOff b).lockTable = b.lockTable := by simp [arithOff]
@[simp] theorem arithOn_locks : (arithOn b).lockTable = b.lockTable := by simp [arithOn]
@[simp] theorem writeAvs_locks (rail mv) : (writeAvs rail mv b).lockTable = b.lockTable := by simp [writeAvs]
@[simp] theorem requestVolt_locks (st rail) : (requestVolt st rail b).lockTable = b.lockTable := by simp [requestVolt]
@[simp] theorem requestVolts_locks (st) : (requestVolts st b).lockTable = b.lockTable := by simp [requestVolts]
@[simp] theorem startSill_locks (why reason) : (startSill why reason b).lockTable = b.lockTable := by simp [startSill]
@[simp] theorem refusePower_locks : (refusePower b).lockTable = b.lockTable := by simp [refusePower]
@[simp] theorem acceptEntry_locks (target) : (acceptEntry target b).lockTable = b.lockTable := by simp [acceptEntry]
@[simp] theorem beginExit_locks (src) : (beginExit src b).lockTable = b.lockTable := by
  dsimp only [beginExit]
  split <;> simp
@[simp] theorem wake_locks (src) : (wake src b).lockTable = b.lockTable := by
  unfold wake
  split <;> simp
@[simp] theorem entryOver_locks (st) : (entryOver st b).lockTable = b.lockTable := by
  unfold entryOver
  cases b.pwr.wakeLate <;> simp
@[simp] theorem restRetain_locks : (restRetain b).lockTable = b.lockTable := by simp [restRetain]
@[simp] theorem goPs2_locks : (goPs2 b).lockTable = b.lockTable := by simp [goPs2]
@[simp] theorem goPs3_locks : (goPs3 b).lockTable = b.lockTable := by simp [goPs3]
@[simp] theorem startTest_locks : (startTest b).lockTable = b.lockTable := by simp [startTest]
@[simp] theorem enterPs1_locks : (enterPs1 b).lockTable = b.lockTable := by simp [enterPs1]
@[simp] theorem leavePs1_locks : (leavePs1 b).lockTable = b.lockTable := by simp [leavePs1]
@[simp] theorem selfWake_locks : (selfWake b).lockTable = b.lockTable := by simp [selfWake]
@[simp] theorem voltageAgain_locks (rail) : (voltageAgain rail b).lockTable = b.lockTable := by
  unfold voltageAgain
  cases railReq b.pwr rail <;> simp
@[simp] theorem pswAcked_locks (d) : (pswAcked d b).lockTable = b.lockTable := by
  unfold pswAcked
  cases d <;> simp
@[simp] theorem ctlOff_locks : (ctlOff b).lockTable = b.lockTable := by simp [ctlOff]
@[simp] theorem telemetry_locks (vinMv ioutMa tempC) : (telemetry vinMv ioutMa tempC b).lockTable = b.lockTable := by simp [telemetry]

/-! Start -/

@[simp] theorem flrDone_locks : (flrDone b).lockTable = b.lockTable := by simp [flrDone]
@[simp] theorem readFuse_locks : (readFuse b).lockTable = b.lockTable := by simp [readFuse]
@[simp] theorem startDomains_locks : (startDomains b).lockTable = b.lockTable := by simp [startDomains]
@[simp] theorem startAdvance_locks : (startAdvance b).lockTable = b.lockTable := by simp [startAdvance]
@[simp] theorem fuseAck_locks (word) : (fuseAck word b).lockTable = b.lockTable := by simp [fuseAck]
@[simp] theorem haltStart_locks (st) : (haltStart st b).lockTable = b.lockTable := by simp [haltStart]
@[simp] theorem selfTest_locks (ctl kiln retention cores ports) : (selfTest ctl kiln retention cores ports b).lockTable = b.lockTable := by
  simp [selfTest]
@[simp] theorem readSill_locks (store) : (readSill store b).lockTable = b.lockTable := by simp [readSill]
@[simp] theorem loadRetained_locks : (loadRetained b).lockTable = b.lockTable := by
  dsimp only [loadRetained]
  split <;> simp
@[simp] theorem loadStore_locks (store) : (loadStore store b).lockTable = b.lockTable := by
  dsimp only [loadStore]
  split <;> simp
@[simp] theorem askStore_locks (rest) : (askStore rest b).lockTable = b.lockTable := by simp [askStore]
@[simp] theorem askSill_locks : (askSill b).lockTable = b.lockTable := by simp [askSill]
@[simp] theorem beginJoin_locks : (beginJoin b).lockTable = b.lockTable := by simp [beginJoin]
@[simp] theorem fixPorts_locks : (fixPorts b).lockTable = b.lockTable := foldl_locks (fun _ _ => by simp) _ _
@[simp] theorem startComplete_locks : (startComplete b).lockTable = b.lockTable := by simp [startComplete]
@[simp] theorem waitForHost_locks : (waitForHost b).lockTable = b.lockTable := by simp [waitForHost]

/-! The dictionary and the management plane -/

@[simp] theorem sendSegments_locks (typ chip tag body) : (sendSegments typ chip tag body b).lockTable = b.lockTable := by
  simp [sendSegments]
@[simp] theorem windowAnswer_locks (body) : (windowAnswer body b).lockTable = b.lockTable := by
  dsimp only [windowAnswer]
  split <;> simp
@[simp] theorem sendMctp_locks (dest tag bytes) : (sendMctp dest tag bytes b).lockTable = b.lockTable := by simp [sendMctp]
@[simp] theorem giveAnswer_locks (x body) : (giveAnswer x body b).lockTable = b.lockTable := by
  unfold giveAnswer
  cases x.path <;> simp
@[simp] theorem answer_locks (x st data) : (answer x st data b).lockTable = b.lockTable := by simp [answer]
@[simp] theorem readCtxRecords_locks (x r) : (readCtxRecords x r b).lockTable = b.lockTable := by simp [readCtxRecords]
@[simp] theorem ctxDictAnswered_locks (c st data) : (ctxDictAnswered c st data b).lockTable = b.lockTable := by
  unfold ctxDictAnswered
  cases b.dct.serving <;> simp
@[simp] theorem serveRead_locks (x r) : (serveRead x r b).lockTable = b.lockTable := by
  unfold serveRead
  cases paramRow r.index r.sub <;> simp
@[simp] theorem adoptJoin_locks (body) : (adoptJoin body b).lockTable = b.lockTable := by simp [adoptJoin]
@[simp] theorem joinWrite_locks (body) : (joinWrite body b).lockTable = b.lockTable := by simp [joinWrite]
@[simp] theorem trackClear_locks (s k) : (trackClear s k b).lockTable = b.lockTable := by simp [trackClear]
@[simp] theorem takeSizes_locks (i j) : (takeSizes i j b).lockTable = b.lockTable := by simp [takeSizes]
@[simp] theorem writePar_locks (i j data) : (writePar i j data b).lockTable = b.lockTable := by simp [writePar]
@[simp] theorem writeHalf_locks (base bytes) : (writeHalf base bytes b).lockTable = b.lockTable := by simp [writeHalf]
@[simp] theorem beginDictSave_locks (x storeOk) : (beginDictSave x storeOk b).lockTable = b.lockTable := by simp [beginDictSave]
@[simp] theorem saveEnds_locks : (saveEnds b).lockTable = b.lockTable := by
  unfold saveEnds
  cases b.dct.serving with
  | none => rfl
  | some x => cases hx : x.save <;> simp [hx]
@[simp] theorem sillTest_locks : (sillTest b).lockTable = b.lockTable := by simp [sillTest]
@[simp] theorem sendReq_locks (chip why body) : (sendReq chip why body b).lockTable = b.lockTable := by simp [sendReq]
@[simp] theorem forwardReq_locks (x r) : (forwardReq x r b).lockTable = b.lockTable := by simp [forwardReq]
@[simp] theorem forwardLost_locks : (forwardLost b).lockTable = b.lockTable := by
  unfold forwardLost
  cases b.dct.serving <;> simp
@[simp] theorem serve_locks (x storeOk) : (serve x storeOk b).lockTable = b.lockTable := by
  dsimp only [serve]
  cases paramRow (reqOf x.body).index (reqOf x.body).sub <;> simp
theorem headReq_locks {p x b'} (h : headReq b p = some (x, b')) : b'.lockTable = b.lockTable := by
  cases p <;> grind [headReq, updDct_locks, updFrm_locks]
@[simp] theorem servePath_locks (p takes storeOk) : (servePath p takes storeOk b).lockTable = b.lockTable := by
  unfold servePath
  cases hr : headReq b p with
  | none => simp
  | some r => simp [headReq_locks b hr]
@[simp] theorem mctpArrives_locks (source tag m) : (mctpArrives source tag m b).lockTable = b.lockTable := by simp [mctpArrives]
@[simp] theorem dictRow_locks (p source tag m takes storeOk) : (dictRow p source tag m takes storeOk b).lockTable = b.lockTable := by
  simp [dictRow]
@[simp] theorem dictGo_locks (irq) : (dictGo irq b).lockTable = b.lockTable := by simp [dictGo]
@[simp] theorem takeSegment_locks (src m) : (takeSegment src m b).lockTable = b.lockTable := by
  dsimp only [takeSegment]
  split <;> simp
@[simp] theorem dictReqMsg_locks (m) : (dictReqMsg m b).lockTable = b.lockTable := by simp [dictReqMsg]
@[simp] theorem updPending_locks (c f) : (updPending c f b).lockTable = b.lockTable := by simp [updPending]
@[simp] theorem tryJoin_locks (c) : (tryJoin c b).lockTable = b.lockTable := by
  unfold tryJoin
  cases tblGet none b.frm.pending c <;> simp
@[simp] theorem mismatch_locks (c) : (mismatch c b).lockTable = b.lockTable := by simp [mismatch]
@[simp] theorem readBack_locks (c want size mark body) : (readBack c want size mark body b).lockTable = b.lockTable := by simp [readBack]
@[simp] theorem admitted_locks (c) : (admitted c b).lockTable = b.lockTable := by simp [admitted]
@[simp] theorem answered_locks (x body) : (answered x body b).lockTable = b.lockTable := by
  unfold answered
  cases x.why <;> cases b.dct.serving <;> simp
@[simp] theorem dictRspMsg_locks (m) : (dictRspMsg m b).lockTable = b.lockTable := by
  dsimp only [dictRspMsg]
  split <;> simp
@[simp] theorem dictReqLate_locks (tag) : (dictReqLate tag b).lockTable = b.lockTable := by
  unfold dictReqLate
  split <;> simp
@[simp] theorem readPending_locks (c) : (readPending c b).lockTable = b.lockTable := by
  unfold readPending
  cases tblGet none b.frm.pending c <;> simp
@[simp] theorem dropForwards_locks : (dropForwards b).lockTable = b.lockTable := by simp [dropForwards]
@[simp] theorem ctlResponse_locks (source tag header cmd code data) :
    (ctlResponse source tag header cmd code data b).lockTable = b.lockTable := by simp [ctlResponse]
@[simp] theorem setEid_locks (source tag header eid) : (setEid source tag header eid b).lockTable = b.lockTable := by simp [setEid]
@[simp] theorem getEid_locks (source tag header) : (getEid source tag header b).lockTable = b.lockTable := by simp [getEid]
@[simp] theorem getVersions_locks (source tag header msgType) : (getVersions source tag header msgType b).lockTable = b.lockTable := by
  simp [getVersions]
@[simp] theorem getTypes_locks (source tag header) : (getTypes source tag header b).lockTable = b.lockTable := by simp [getTypes]

/-! The beat -/

@[simp] theorem takeSnapshot_locks : (takeSnapshot b).lockTable = b.lockTable := by simp [takeSnapshot, takeParams]
@[simp] theorem writeQuarters_locks (v) : (writeQuarters v b).lockTable = b.lockTable := by simp [writeQuarters]
@[simp] theorem sendBeats_locks (edge t depth pathOk) :
    (sendBeats edge t depth pathOk b).lockTable = b.lockTable := foldl_locks (fun _ _ => by simp) _ _
@[simp] theorem placeEdge_locks (p arrival m) : (placeEdge p arrival m b).lockTable = b.lockTable := by simp [placeEdge]
@[simp] theorem takeManager_locks (m) : (takeManager m b).lockTable = b.lockTable := by simp [takeManager]
@[simp] theorem stepDown_locks : (stepDown b).lockTable = b.lockTable := by simp [stepDown]
@[simp] theorem beatMsg_locks (p arrival m) : (beatMsg p arrival m b).lockTable = b.lockTable := by simp [beatMsg]
@[simp] theorem edgeClock_locks : (edgeClock b).lockTable = b.lockTable := by
  dsimp only [edgeClock]
  split <;> rfl
@[simp] theorem takeOver_locks : (takeOver b).lockTable = b.lockTable := by simp [takeOver]
@[simp] theorem managerEdge_locks : (managerEdge b).lockTable = b.lockTable := by simp [managerEdge]
@[simp] theorem frameEdge_locks : (frameEdge b).lockTable = b.lockTable := by simp [frameEdge]
@[simp] theorem takeOverLate_locks : (takeOverLate b).lockTable = b.lockTable := by simp [takeOverLate]
@[simp] theorem fillPort_locks (p) : (fillPort p b).lockTable = b.lockTable := by simp [fillPort]
@[simp] theorem fillLanes_locks : (fillLanes b).lockTable = b.lockTable := by simp [fillLanes]

/-! Answers on the memory port -/

/-! Registers -/

@[simp] theorem latchHigh_locks (o) : (latchHigh o b).lockTable = b.lockTable := by simp [latchHigh]
@[simp] theorem writePowerStatus_locks (x) : (writePowerStatus x b).lockTable = b.lockTable := by simp [writePowerStatus]
@[simp] theorem writeBar0_locks (o x) : (writeBar0 o x b).lockTable = b.lockTable := by simp [writeBar0]
@[simp] theorem actPage_locks (s o v) : (actPage s o v b).lockTable = b.lockTable := by simp [actPage]
@[simp] theorem completeRead_locks (tag v ur) : (completeRead tag v ur b).lockTable = b.lockTable := by simp [completeRead]
@[simp] theorem onMsgAll_locks (typ) {f : Nat → Nat → Msg → Block → Block}
    (hf : ∀ p arrival m b, (f p arrival m b).lockTable = b.lockTable) : (onMsgAll typ f b).lockTable = b.lockTable := by
  unfold onMsgAll
  split
  · rw [hf]
    rfl
  · rfl
@[simp] theorem runBlock_locks (o id) {f : Cmd → Block → Block} (hf : ∀ c b, (f c b).lockTable = b.lockTable) :
    (runBlock o id f b).lockTable = b.lockTable := by
  unfold runBlock
  split
  · simp [hf]
  · rfl
@[simp] theorem updLport_locks (p f) : (b.updLport p f).lockTable = b.lockTable := by
  rw [Block.lockTable, Block.lockTable, Block.updLport_mbx]

/-! Blocks and frames of a port -/

@[simp] theorem receivedOn_locks (p lane x) : (b.receivedOn p lane x).lockTable = b.lockTable := by simp [Block.receivedOn]
@[simp] theorem received_locks (p bs) : (b.received p bs).lockTable = b.lockTable := by simp [Block.received]
@[simp] theorem receivedTrain_locks (p k) : (b.receivedTrain p k).lockTable = b.lockTable := by simp [Block.receivedTrain]
@[simp] theorem sendFrame_locks (p count flits) : (sendFrame p count flits b).lockTable = b.lockTable := by simp [sendFrame]
@[simp] theorem pumpPort_locks (p fuel : Nat) (b : Block) : (pumpPort p fuel b).lockTable = b.lockTable := by
  induction fuel generalizing b with
  | zero => rfl
  | succ fuel ih =>
    dsimp only [pumpPort]
    split
    · rw [ih]
      simp
    · rfl
@[simp] theorem pump_locks : (pump b).lockTable = b.lockTable := by simp [pump]

/-! Training and the states of a port -/

@[simp] theorem dropPort_locks (p) : (dropPort p b).lockTable = b.lockTable := by simp [dropPort]
@[simp] theorem startTrain_locks (p) : (startTrain p b).lockTable = b.lockTable := by simp [startTrain]
@[simp] theorem shortTrain_locks (p) : (shortTrain p b).lockTable = b.lockTable := by simp [shortTrain]
@[simp] theorem failTrain_locks (p sub) : (failTrain p sub b).lockTable = b.lockTable := by simp [failTrain]
@[simp] theorem loseNeighbour_locks (p st) : (loseNeighbour p st b).lockTable = b.lockTable := by simp [loseNeighbour]
@[simp] theorem retrainOp_locks (p) : (retrainOp p b).lockTable = b.lockTable := by simp [retrainOp]
@[simp] theorem disablePort_locks (p) : (disablePort p b).lockTable = b.lockTable := by simp [disablePort]
@[simp] theorem recordNeighbour_locks (p k) : (recordNeighbour p k b).lockTable = b.lockTable := by
  dsimp only [recordNeighbour]
  split <;> simp
@[simp] theorem sendPing_locks (p) : (sendPing p b).lockTable = b.lockTable := by simp [sendPing]
@[simp] theorem startPings_locks (p) : (startPings p b).lockTable = b.lockTable := by simp [startPings]
@[simp] theorem trainStep_locks (p k) : (trainStep p k b).lockTable = b.lockTable := by
  dsimp only [trainStep]
  split
  · simp
  · split <;> simp
@[simp] theorem trainBlock_locks (p k) : (trainBlock p k b).lockTable = b.lockTable := by simp [trainBlock]
@[simp] theorem trainLate_locks (p) : (trainLate p b).lockTable = b.lockTable := by simp [trainLate]
@[simp] theorem trainAgain_locks (p) : (trainAgain p b).lockTable = b.lockTable := by simp [trainAgain]
@[simp] theorem rxLock_locks (p lane level) : (rxLock p lane level b).lockTable = b.lockTable := by simp [rxLock]
@[simp] theorem rawBlock_locks (p lane x) : (rawBlock p lane b x).lockTable = b.lockTable := by simp [rawBlock]
@[simp] theorem laneBlocks_locks (p lane xs) : (laneBlocks p lane xs b).lockTable = b.lockTable := by simp [laneBlocks]
@[simp] theorem whereLocked_locks (p bs) {f : Block → Block} (hf : ∀ b, (f b).lockTable = b.lockTable) :
    (whereLocked p bs f b).lockTable = b.lockTable := by simp [whereLocked, hf]
@[simp] theorem measured_locks (p) : (measured p b).lockTable = b.lockTable := by simp [measured]
@[simp] theorem pingBlock_locks (p tag echo turn arrival delay) : (pingBlock p tag echo turn arrival delay b).lockTable = b.lockTable := by
  simp [pingBlock]
@[simp] theorem remeasure_locks (p) : (remeasure p b).lockTable = b.lockTable := by simp [remeasure]
@[simp] theorem discardFrame_locks (p crcBad) : (discardFrame p crcBad b).lockTable = b.lockTable := by simp [discardFrame]
@[simp] theorem linkFrame_locks (p seq flits crc arrival) : (linkFrame p seq flits crc arrival b).lockTable = b.lockTable := by
  simp [linkFrame]
@[simp] theorem resendFrom_locks (p sel) : (resendFrom p sel b).lockTable = b.lockTable := by simp [resendFrom]
@[simp] theorem partnerSleeps_locks (p) : (partnerSleeps p b).lockTable = b.lockTable := by simp [partnerSleeps]
@[simp] theorem ackBlock_locks (p a nak sleep v n) : (ackBlock p a nak sleep v n b).lockTable = b.lockTable := by simp [ackBlock]
@[simp] theorem ackLate_locks (p seq) : (ackLate p seq b).lockTable = b.lockTable := by simp [ackLate]
@[simp] theorem resendLate_locks (p seq) : (resendLate p seq b).lockTable = b.lockTable := by simp [resendLate]
@[simp] theorem silence_locks (p) : (silence p b).lockTable = b.lockTable := by simp [silence]
@[simp] theorem nullFrame_locks (p) : (nullFrame p b).lockTable = b.lockTable := by simp [nullFrame]
@[simp] theorem neighbourResets_locks (c) : (neighbourResets c b).lockTable = b.lockTable := by simp [neighbourResets]
@[simp] theorem noticeMsg_locks (m) : (noticeMsg m b).lockTable = b.lockTable := by simp [noticeMsg]
@[simp] theorem sleepPort_locks (p) : (sleepPort p b).lockTable = b.lockTable := by simp [sleepPort]
@[simp] theorem wakePort_locks (p) : (wakePort p b).lockTable = b.lockTable := by simp [wakePort]
@[simp] theorem wakeOp_locks (p) : (wakeOp p b).lockTable = b.lockTable := by simp [wakeOp]
@[simp] theorem wakeLate_locks (p) : (wakeLate p b).lockTable = b.lockTable := by simp [wakeLate]
@[simp] theorem wakeWaiting_locks : (wakeWaiting b).lockTable = b.lockTable := by simp [wakeWaiting]
@[simp] theorem edgeLinks_locks : (edgeLinks b).lockTable = b.lockTable := by simp [edgeLinks]
@[simp] theorem resetsPass_locks : (resetsPass b).lockTable = b.lockTable := by simp [resetsPass]

/-! Resets (R579, R645, R647) -/

@[simp] theorem trainPorts_locks : (trainPorts b).lockTable = b.lockTable := by simp [trainPorts]
@[simp] theorem dictLoad_locks (store) : (dictLoad store b).lockTable = b.lockTable := by simp [dictLoad]
@[simp] theorem resetTenon_locks (c p) : (resetTenon c p b).lockTable = b.lockTable := by simp [resetTenon]
@[simp] theorem cleanBeat_locks (p) : (cleanBeat p b).lockTable = b.lockTable := by simp [cleanBeat]

/-! Power states -/

@[simp] theorem tnlOff_locks : (tnlOff b).lockTable = b.lockTable := by simp [tnlOff]
@[simp] theorem entryBegins_locks : (entryBegins b).lockTable = b.lockTable := by simp [entryBegins]
@[simp] theorem trainSlept_locks : (trainSlept b).lockTable = b.lockTable := by simp [trainSlept]
@[simp] theorem powerAdvance_locks : (powerAdvance b).lockTable = b.lockTable := by
  unfold powerAdvance
  dsimp only
  split <;> simp
@[simp] theorem goPs0_locks : (goPs0 b).lockTable = b.lockTable := by simp [goPs0]
@[simp] theorem wakeAfter_locks : (wakeAfter b).lockTable = b.lockTable := by simp [wakeAfter]
@[simp] theorem wakeReport_locks (p) : (wakeReport p b).lockTable = b.lockTable := by simp [wakeReport]
@[simp] theorem wakeDetect_locks (p edges) : (wakeDetect p edges b).lockTable = b.lockTable := by simp [wakeDetect]
@[simp] theorem fnWake_locks : (fnWake b).lockTable = b.lockTable := by simp [fnWake]
@[simp] theorem readback_locks (rail mv) : (readback rail mv b).lockTable = b.lockTable := by
  dsimp only [readback]
  split
  · rfl
  · split <;> simp
@[simp] theorem voltageLate_locks (rail) : (voltageLate rail b).lockTable = b.lockTable := by
  unfold voltageLate
  cases railReq b.pwr rail <;> simp
@[simp] theorem clkOkRose_locks : (clkOkRose b).lockTable = b.lockTable := by simp [clkOkRose]
@[simp] theorem freeze_locks (reason) : (freeze reason b).lockTable = b.lockTable := by simp [freeze]
@[simp] theorem takeAddress_locks (a wakes) : (takeAddress a wakes b).lockTable = b.lockTable := by simp [takeAddress]
@[simp] theorem setdasa_locks (a) : (setdasa a b).lockTable = b.lockTable := by simp [setdasa]

/-! Registers of the Tenon ports and of power -/

/-! The end of a cycle -/

@[simp] theorem boxRead_locks (o) : (boxRead o b).2.lockTable = b.lockTable := by
  unfold boxRead
  split
  · dsimp only
    split <;> simp
  · split <;> rfl
@[simp] theorem pageRead_locks (s o) : (pageRead s o b).2.lockTable = b.lockTable := by
  unfold pageRead
  split
  · dsimp only
    split <;> simp
  · rfl
@[simp] theorem regRead_locks (bar2 o) : (regRead bar2 o b).2.lockTable = b.lockTable := by
  unfold regRead
  split
  · simp
  · split <;> simp
@[simp] theorem halfRead_locks (bar2 o) : (halfRead bar2 o b).2.lockTable = b.lockTable := by
  unfold halfRead
  split
  · cases bar2 <;> simp
  · dsimp only
    split <;> simp

end

/-! ### What keeps the table lawful -/

section

variable {b : Block} (h : LocksHeld b.lockTable)

include h

/-- A lock is taken by an identity that has access to the locks. -/
@[simp] theorem setLock_some_lawful {i : Nat} {o : BitVec 8} (hi : i < 64) (ho : lockAccess o.toNat = true) :
    LocksHeld (b.setLock i (some o)).lockTable := by
  obtain ⟨hwf, hall⟩ := h
  refine ⟨tblWf_tblSet none b.mbx.locks i (some o) hwf, fun p hp => ?_⟩
  rcases mem_tblPut b.mbx.locks i (some o) p hp with rfl | hmem
  · exact ⟨hi, o, rfl, ho⟩
  · exact hall p hmem

/-- A lock is released. -/
@[simp] theorem setLock_none_lawful (i : Nat) : LocksHeld (b.setLock i none).lockTable :=
  ⟨tblWf_tblSet none b.mbx.locks i none h.1, fun p hp => h.2 p (mem_tblDel b.mbx.locks i p hp)⟩

@[simp] theorem foldl_lawful {α : Type} {f : Block → α → Block}
    (hf : ∀ b x, LocksHeld b.lockTable → LocksHeld (f b x).lockTable) (l : List α) : LocksHeld (l.foldl f b).lockTable := by
  induction l generalizing b with
  | nil => exact h
  | cons x l ih => exact ih (hf b x h)

/-- A cluster reset releases locks and takes none (R461). -/
@[simp] theorem boxReset_lawful : LocksHeld (boxReset b).lockTable := by
  have ⟨hwf, hall⟩ := h
  unfold boxReset
  split
  · simp only [updJnr_locks]
    refine ⟨tblWf_filter (by simpa using hwf) _, fun p hp => hall p ?_⟩
    simpa using List.mem_of_mem_filter hp
  · exact h
@[simp] theorem ringBits_lawful (mid c byCluster bits) : LocksHeld (ringBits mid c byCluster bits b).lockTable := by simp [ringBits, h]
@[simp] theorem readLock_lawful (mid i) : LocksHeld (readLock mid i b).lockTable := by
  unfold readLock
  split
  next hfree =>
    simp only [Bool.and_eq_true, decide_eq_true_eq] at hfree
    exact setLock_some_lawful h hfree.1.2 hfree.2
  next => exact h
@[simp] theorem writeLock_lawful (mid i v) : LocksHeld (writeLock mid i v b).lockTable := by simp [writeLock, h]
@[simp] theorem onEnd_lawful (mid c atCluster) {f : Block → Block} (hf : LocksHeld (f b).lockTable) :
    LocksHeld (onEnd mid c atCluster f b).lockTable := by simp [onEnd, h, hf]
@[simp] theorem endWrite_lawful (mid c atCluster off v) : LocksHeld (endWrite mid c atCluster off v b).lockTable := by simp [endWrite, h]
@[simp] theorem serveRequest_lawful (c reply) : LocksHeld (serveRequest c reply b).lockTable := by simp [serveRequest, h]
@[simp] theorem servePing_lawful (c) : LocksHeld (servePing c b).lockTable := by simp [servePing, h]
@[simp] theorem serveVersion_lawful (c) : LocksHeld (serveVersion c b).lockTable := by simp [serveVersion, h]
@[simp] theorem serveCoreMap_lawful (c) : LocksHeld (serveCoreMap c b).lockTable := by simp [serveCoreMap, h]
@[simp] theorem lockReadLate_lawful (mid i tag) : LocksHeld (lockReadLate mid i tag b).lockTable := by simp [lockReadLate, h]
@[simp] theorem bootRing_lawful (code) : LocksHeld (bootRing code b).lockTable := by simp [bootRing, h]
@[simp] theorem bootWaits_lawful (code) : LocksHeld (bootWaits code b).lockTable := by simp [bootWaits, h]
@[simp] theorem bootCheck_lawful : LocksHeld (bootCheck b).lockTable := by simp [bootCheck, h]
@[simp] theorem bootRun_lawful (cause) : LocksHeld (bootRun cause b).lockTable := by simp [bootRun, h]
@[simp] theorem bootProceeds_lawful : LocksHeld (bootProceeds b).lockTable := by simp [bootProceeds, h]
@[simp] theorem recoveryRing_lawful : LocksHeld (recoveryRing b).lockTable := by simp [recoveryRing, h]
@[simp] theorem recoveryLoad_lawful (mid) : LocksHeld (recoveryLoad mid b).lockTable := by simp [recoveryLoad, h]
@[simp] theorem bootAnswered_lawful (r rest st data) : LocksHeld (bootAnswered r rest st data b).lockTable := by simp [bootAnswered, h]
@[simp] theorem accessOp_lawful (pid a n store) : LocksHeld (accessOp pid a n store b).lockTable := by
  unfold accessOp
  cases b.work.prog pid with
  | none => exact h
  | some p => cases hr : reachOf p.pages a n <;> cases store <;> simp [hr, h]
@[simp] theorem endReq_lawful (r st data) : LocksHeld (endReq r st data b).lockTable := by
  unfold endReq
  cases r.why <;> simp [h]
@[simp] theorem endPart_lawful (tag st data) : LocksHeld (endPart tag st data b).lockTable := by
  dsimp only [endPart]
  split
  · simp [h]
  · split <;> simp [h]
@[simp] theorem takeResponse_lawful (tag code data) : LocksHeld (takeResponse tag code data b).lockTable := by
  unfold takeResponse
  cases b.work.part tag <;> simp [h]
@[simp] theorem responseLate_lawful (tag) : LocksHeld (responseLate tag b).lockTable := by
  unfold responseLate
  cases b.work.part tag <;> simp [h]
@[simp] theorem retryPart_lawful (r p) : LocksHeld (retryPart r p b).lockTable := by
  unfold retryPart
  cases r.slice <;> simp [h]
@[simp] theorem pageAnswered_lawful (tag ok) : LocksHeld (pageAnswered tag ok b).lockTable := by
  unfold pageAnswered
  cases b.work.part tag <;> simp [h]
@[simp] theorem groupAnswered_lawful (group ok) : LocksHeld (groupAnswered group ok b).lockTable := by
  unfold groupAnswered
  split <;> simp [h]
@[simp] theorem groupLate_lawful (group) : LocksHeld (groupLate group b).lockTable := by
  unfold groupLate
  split <;> simp [h]
@[simp] theorem endFieldWrite_lawful (mid atCluster o x) : LocksHeld (endFieldWrite mid atCluster o x b).lockTable := by
  simp [endFieldWrite, h]
@[simp] theorem fieldWrite_lawful (bar2 o x) : LocksHeld (fieldWrite bar2 o x b).lockTable := by simp [fieldWrite, h]
@[simp] theorem pathWrite_lawful (path o v) : LocksHeld (pathWrite path o v b).lockTable := by
  unfold pathWrite
  cases path <;> simp [h]
@[simp] theorem boxWrite_lawful (mid c o x) : LocksHeld (boxWrite mid c o x b).lockTable := by simp [boxWrite, h]
@[simp] theorem portRead_lawful (bar2 o size tag) : LocksHeld (portRead bar2 o size tag b).lockTable := by
  dsimp only [portRead]
  split
  · simp [h]
  · split <;> simp [h]
omit h in
@[simp] theorem fullReset_lawful (warm cause) : LocksHeld (fullReset warm cause b).lockTable := locksHeld_nil
omit h in
@[simp] theorem restart_lawful (cause) : LocksHeld (restart cause b).lockTable := by simp [restart]
omit h in
@[simp] theorem requestReset_lawful (cause) : LocksHeld (requestReset cause b).lockTable := by simp [requestReset]
omit h in
@[simp] theorem startFails_lawful (st) : LocksHeld (startFails st b).lockTable := by simp [startFails]
omit h in
@[simp] theorem powerOnReset_lawful : LocksHeld (powerOnReset b).lockTable := locksHeld_nil
@[simp] theorem dueReset_lawful : LocksHeld (dueReset b).lockTable := by simp [dueReset, h]
@[simp] theorem firmwareLate_lawful : LocksHeld (firmwareLate b).lockTable := by simp [firmwareLate, h]
@[simp] theorem porstRise_lawful (present bf16) : LocksHeld (porstRise present bf16 b).lockTable := by simp [porstRise, h]
@[simp] theorem sysrstPulse_lawful (ns) : LocksHeld (sysrstPulse ns b).lockTable := by simp [sysrstPulse, h]
@[simp] theorem flrReq_lawful : LocksHeld (flrReq b).lockTable := by simp [flrReq, h]
@[simp] theorem startLate_lawful : LocksHeld (startLate b).lockTable := by simp [startLate, h]
@[simp] theorem resetDomainOp_lawful (c) : LocksHeld (resetDomainOp c b).lockTable := by
  unfold resetDomainOp
  dsimp only
  split <;> simp [h]
@[simp] theorem runBlock_lawful (o id) {f : Cmd → Block → Block} (hf : ∀ c, LocksHeld (f c b).lockTable) :
    LocksHeld (runBlock o id f b).lockTable := by
  unfold runBlock
  split
  · simp [h, hf]
  · exact h
@[simp] theorem ps3Exit_lawful : LocksHeld (ps3Exit b).lockTable := by simp [ps3Exit, h]
@[simp] theorem pwrfailRose_lawful : LocksHeld (pwrfailRose b).lockTable := by
  dsimp only [pwrfailRose]
  split
  · exact h
  · split
    · simp [h]
    · split <;> simp [h]
@[simp] theorem sillWritten_lawful : LocksHeld (sillWritten b).lockTable := by
  unfold sillWritten
  split
  · exact h
  · next why _ _ _ =>
    cases why with
    | test => simp [h]
    | rest => simp [h]
    | freeze => exact (apply_ite (fun b : Block => LocksHeld b.lockTable) ..).mpr (by simp [h])
@[simp] theorem powerWrite_lawful (v) : LocksHeld (powerWrite v b).lockTable := by
  unfold powerWrite
  split <;> simp [h]
@[simp] theorem linkWrite_lawful (p v) : LocksHeld (linkWrite p v b).lockTable := by
  unfold linkWrite
  split <;> simp [h]
@[simp] theorem actBar0_lawful (o v) : LocksHeld (actBar0 o v b).lockTable := by simp [actBar0, h]
@[simp] theorem regWrite_lawful (bar2 o x) : LocksHeld (regWrite bar2 o x b).lockTable := by simp [regWrite, h]
@[simp] theorem portWrite_lawful (bar2 o size v) : LocksHeld (portWrite bar2 o size v b).lockTable := by simp [portWrite, h]
@[simp] theorem portAccess_lawful (bar2 write o size v tag) : LocksHeld (portAccess bar2 write o size v tag b).lockTable := by
  simp [portAccess, h]
@[simp] theorem decideLate_lawful (x) : LocksHeld (decideLate b x).lockTable := by cases x <;> simp [decideLate, h]
@[simp] theorem decideRank_lawful (k) : LocksHeld (decideRank b k).lockTable := by
  unfold decideRank
  exact foldl_lawful (by simp [h]) (fun b x hb => decideLate_lawful hb x) _
omit h in
theorem decideRanks_lawful {b : Block} (h : LocksHeld b.lockTable) (f : Nat → Nat) (l : List Nat) :
    LocksHeld (l.foldl (fun b k => decideRank b (f k)) b).lockTable := foldl_lawful h (fun _ _ hb => decideRank_lawful hb _) l
@[simp] theorem cycleOver_lawful : LocksHeld (cycleOver b).lockTable := by
  rw [cycleOver, sendBarEnds_locks]
  apply decideRanks_lawful
  rw [updWork_locks]
  exact decideRanks_lawful (by simp [h]) (fun k => k) _
@[simp] theorem lastCycle_lawful : LocksHeld (lastCycle b).lockTable := by simp [lastCycle, h]
@[simp] theorem pwrfailFell_lawful : LocksHeld (pwrfailFell b).lockTable := by simp [pwrfailFell, h]
@[simp] theorem pmbAlert_lawful (word) : LocksHeld (pmbAlert word b).lockTable := by
  unfold pmbAlert
  cases word <;> simp [h]
@[simp] theorem beatEdge_lawful : LocksHeld (beatEdge b).lockTable := by simp [beatEdge, h]
omit h in
theorem withWork_locks (w : Work) : { b with work := w }.lockTable = b.lockTable := by rw [mk_lockTable, mbx_locks]
@[simp] theorem cycleEnd_lawful : LocksHeld (cycleEnd b).lockTable := by
  have hover := cycleOver_lawful h
  unfold cycleEnd
  generalize cycleOver b = c at hover ⊢
  rw [← withWork_locks (cycleWork c c.work)] at hover
  have hboot := bootProceeds_lawful (boxReset_lawful hover)
  exact dueReset_lawful (by simp [hboot])
@[simp] theorem tick_lawful : LocksHeld (tick b).lockTable := by
  dsimp only [tick]
  split
  · exact h
  · split
    · exact decideRank_lawful h 19
    · split <;> simp [h]

end

/-! ### The step -/

/-- Where a command goes on, the locks are lawful if they were before it. -/
def KeepsLocks (s : State) (o : Host.Outcome State Fault Refusal) : Prop :=
  ∀ t, o = .next t → LocksHeld s.core.lockTable → LocksHeld t.core.lockTable

namespace KeepsLocks

variable {s : State} {f : Block → Block}

theorem of_on (hf : ∀ b, LocksHeld b.lockTable → LocksHeld (f b).lockTable) : KeepsLocks s (.next (s.on f)) := by
  rintro t ⟨⟩ h
  exact hf s.core h

theorem of_onWork (s : State) (f : Block → Work → Work) : KeepsLocks s (.next (s.onWork f)) := of_on fun b h => by simpa using h

theorem of_onAll (hf : ∀ b, LocksHeld b.lockTable → LocksHeld (f b).lockTable) : KeepsLocks s (.next (s.onAll f)) :=
  of_on fun b h => by simp [h, hf b h]

theorem of_onBoxes (hf : ∀ b, LocksHeld b.lockTable → LocksHeld (f b).lockTable) : KeepsLocks s (.next (s.onBoxes f)) :=
  of_onAll fun b h => by simp [hf b h]

theorem of_onAon (hf : ∀ b, LocksHeld b.lockTable → LocksHeld (f b).lockTable) : KeepsLocks s (.next (s.onAon f)) :=
  of_on fun b h => by simp [h, hf b h]

theorem of_onI3c {wakes : Bool} (hf : ∀ b, LocksHeld b.lockTable → LocksHeld (f b).lockTable) : KeepsLocks s (.next (s.onI3c wakes f)) :=
  of_onAon fun b h => by simp [h, hf b h]

end KeepsLocks

/-- Every command keeps the locks lawful. -/
theorem exec_keepsLocks (c : Instr) (s : State) : KeepsLocks s (exec c s) := by
  cases c
  case porstNRise | pwrfailNFall | sillWriteDone | pwrfailNRise | porstNFall => exact .of_on (fun b h => by simp [h])
  case entdaa | setdasa | sysrstNPulse | fnFlrReq | fnWakeReq | fnBmeChange | wakeDetect | pmbAlert | vrTelemetryPoll | voltageReadback
      | voltageTimeout | voltageRetryTimer | pswAck | wakeAfterTimeout | ps3Exit | clkOkRise | fuseAck | warmStart | startTimeout =>
    exact .of_onAon (fun b h => by simp [h])
  case dictRead | dictWrite | dictInfo | dictSave | setEndpointId | getEndpointId | getMctpVersionSupport | getMessageTypeSupport =>
    exact .of_onI3c (fun b h => by simp [h])
  case domainReset | recover | restart | coreFault | coreRestartDone | functionPortAccess | pageRequestResponse | priTimeout
      | memoryResponse | memoryResponseTimeout =>
    exact .of_onBoxes (fun b h => by simp [h])
  case barrierArrive | beatQuartersWrite | lowHalfReadLatch | mailboxRing | mailboxClear | mailboxMaskWrite | mailboxMsgWrite
      | mailboxRingTimeout | recoveryLoad | recoveryRing | ping | version | coreMap | lockRead | lockRelease | mbxLockForce | retrain
      | portDisable | wake | goPs0 | goPs2 | goPs3 | sillTest | dictGo | registerWrite | programMemoryAccess | firmwareNormal
      | firmwareStartTimeout | clusterReset | grantSnapshot | beatEdge | trainBlock | trainFailed | trainRetryTimer | pingBlock
      | latencyRemeasure | linkFrame | ackBlock | ackSendTimer | transitTimeout | beatMessage | noticeMessage | barrierArriveMessage
      | barrierRelease | dictReq | dictRsp | dictReqTimeout | wakeWaitTimeout | foundFrame | joinState | frameCmdExclude
      | managerLostWait | ps1IdleTimeout | ps1Exit | dictionaryLoad | startComplete | rxLockChange | blockLockChange
      | probationNullFrame | selfTestDone | cleanBeat =>
    exact .of_onAll (fun b h => by simp [h])
  all_goals exact .of_onWork s _

/-- Settles O58: every command keeps the locks lawful, and so does a cycle that passes. -/
theorem locksStayLawful : Obligations.LocksStayLawful := by
  intro s t h hstep
  unfold step at hstep
  split at hstep
  next => exact KeepsLocks.of_on (fun b hb => tick_lawful hb) t hstep h
  next c rest _ => exact exec_keepsLocks c { s with pending := rest } t hstep h

/-- Settles O57: the table of locks is empty. -/
theorem locksLawfulAtReset : Obligations.LocksLawfulAtReset := locksHeld_nil

end Sys2Proof.Machine

end

-- Proofs about steps, frames and the reset state.
section

namespace Sys2Proof.Machine

/-- Settles O52: a step looks at the front of the queue alone. -/
theorem stepTakesTheFront : Obligations.StepTakesTheFront := fun _ _ => rfl

/-- Settles O56: every part is read off the state that `State.reset` gives. -/
theorem resetState : Obligations.ResetState := by
  refine ⟨rfl, rfl, rfl, rfl, rfl, fun _ => rfl, rfl, rfl, rfl, fun _ => rfl, rfl, rfl, rfl, rfl, rfl, rfl, rfl, rfl, fun _ => nofun⟩

/-! ### What a command may change -/

/-- A command on the shared state changes the shared state alone. -/
theorem onWork_core (s : State) (f : Block → Work → Work) : ∃ w, s.onWork f = { s with core := { s.core with work := w } } := by
  cases hstill : s.core.still with
  | true => exact ⟨s.core.work, onWork_still s f hstill⟩
  | false => exact ⟨_, onWork_live s f hstill⟩

theorem next_onWork_core (s : State) (f : Block → Work → Work) :
    ∃ w, (.next (s.onWork f) : Host.Outcome State Fault Refusal) = .next { s with core := { s.core with work := w } } := by
  obtain ⟨w, hw⟩ := onWork_core s f
  exact ⟨w, congrArg Host.Outcome.next hw⟩

/-- Settles O54: every arm of `exec` goes on with a change of the block alone, and those that act on the shared state change
nothing else. -/
theorem sharedStateCommandsFrame : Obligations.SharedStateCommandsFrame := by
  refine ⟨fun c s => ?_, fun c s => ?_⟩
  · cases c <;> exact ⟨_, rfl⟩
  · cases c
    case porstNRise | pwrfailNFall | sillWriteDone | pwrfailNRise | porstNFall | entdaa | setdasa | sysrstNPulse | fnFlrReq | fnWakeReq
        | fnBmeChange | wakeDetect | pmbAlert | vrTelemetryPoll | voltageReadback | voltageTimeout | voltageRetryTimer | pswAck
        | wakeAfterTimeout | ps3Exit | clkOkRise | fuseAck | warmStart | startTimeout | dictRead | dictWrite | dictInfo | dictSave
        | setEndpointId | getEndpointId | getMctpVersionSupport | getMessageTypeSupport | domainReset | recover | restart | coreFault
        | coreRestartDone | functionPortAccess | pageRequestResponse | priTimeout | memoryResponse | memoryResponseTimeout
        | barrierArrive | beatQuartersWrite | lowHalfReadLatch | mailboxRing | mailboxClear | mailboxMaskWrite | mailboxMsgWrite
        | mailboxRingTimeout | recoveryLoad | recoveryRing | ping | version | coreMap | lockRead | lockRelease | mbxLockForce | retrain
        | portDisable | wake | goPs0 | goPs2 | goPs3 | sillTest | dictGo | registerWrite | programMemoryAccess | firmwareNormal
        | firmwareStartTimeout | clusterReset | grantSnapshot | beatEdge | trainBlock | trainFailed | trainRetryTimer | pingBlock
        | latencyRemeasure | linkFrame | ackBlock | ackSendTimer | transitTimeout | beatMessage | noticeMessage | barrierArriveMessage
        | barrierRelease | dictReq | dictRsp | dictReqTimeout | wakeWaitTimeout | foundFrame | joinState | frameCmdExclude
        | managerLostWait | ps1IdleTimeout | ps1Exit | dictionaryLoad | startComplete | rxLockChange | blockLockChange
        | probationNullFrame | selfTestDone | cleanBeat | ackTimeout | resendTimeout | silenceTimeout | excludeTimeout =>
      trivial
    all_goals exact next_onWork_core s _

/-! ### A block that stands still -/

/-- A command on the control clock leaves a block that stands still. -/
theorem on_still {s : State} (h : s.core.still = true) (f : Block → Block) : s.on (fun b => if b.still then b else f b) = s := by
  simp [State.on, h]

theorem onBoxes_still {s : State} (h : s.core.still = true) (f : Block → Block) : s.onBoxes f = s := onAll_still s _ h

/-- The I3C target of a frozen block answers nothing (the model's choice, log entry 15). -/
theorem onI3c_frozen {s : State} (h : s.core.pwr.frozen = true) (wakes : Bool) (f : Block → Block) : s.onI3c wakes f = s :=
  onAon_frozen s _ h

/-- Settles O55: every other command acts through a frame that leaves a block that stands still. -/
theorem stillBlock : Obligations.StillBlock := by
  refine fun c s => ⟨fun hfrozen => ?_, fun hps3 => ?_⟩
  · have hstill : s.core.still = true := by simp [Block.still, hfrozen]
    cases c
    case porstNRise | pwrfailNFall | sillWriteDone | pwrfailNRise | porstNFall => trivial
    case entdaa | setdasa | sysrstNPulse | fnFlrReq | fnWakeReq | fnBmeChange | wakeDetect | pmbAlert | vrTelemetryPoll | voltageReadback
        | voltageTimeout | voltageRetryTimer | pswAck | wakeAfterTimeout | ps3Exit | clkOkRise | fuseAck | warmStart | startTimeout =>
      exact congrArg Host.Outcome.next (onAon_frozen s _ hfrozen)
    case dictRead | dictWrite | dictInfo | dictSave | setEndpointId | getEndpointId | getMctpVersionSupport | getMessageTypeSupport =>
      exact congrArg Host.Outcome.next (onI3c_frozen hfrozen _ _)
    case domainReset | recover | restart | coreFault | coreRestartDone | functionPortAccess | pageRequestResponse | priTimeout
        | memoryResponse | memoryResponseTimeout =>
      exact congrArg Host.Outcome.next (onBoxes_still hstill _)
    all_goals exact congrArg Host.Outcome.next (on_still hstill _)
  · have hstill : s.core.still = true := by simp [Block.still, hps3]
    cases c
    case porstNRise | pwrfailNFall | sillWriteDone | pwrfailNRise | porstNFall | entdaa | setdasa | sysrstNPulse | fnFlrReq | fnWakeReq
        | fnBmeChange | wakeDetect | pmbAlert | vrTelemetryPoll | voltageReadback | voltageTimeout | voltageRetryTimer | pswAck
        | wakeAfterTimeout | ps3Exit | clkOkRise | fuseAck | warmStart | startTimeout | dictRead | dictWrite | dictInfo | dictSave
        | setEndpointId | getEndpointId | getMctpVersionSupport | getMessageTypeSupport => trivial
    case domainReset | recover | restart | coreFault | coreRestartDone | functionPortAccess | pageRequestResponse | priTimeout
        | memoryResponse | memoryResponseTimeout =>
      exact congrArg Host.Outcome.next (onBoxes_still hstill _)
    all_goals exact congrArg Host.Outcome.next (on_still hstill _)

end Sys2Proof.Machine

end

-- Proofs about commands released for their opcode and their requests.
section

namespace Sys2Proof.Machine

/-! ### Commands released for their opcode -/

/-- A command's own row runs its operation on the command that it names. -/
theorem does_cmd {i : Instr} {s : State} {o : Op} {c : Cmd} {f : Block → Cmd → Work → Work} {P : Work → Prop}
    (hx : exec i s = .next (s.onWork fun e w => runCmd o c.id (f e) w)) (h : s.live) (hr : Ready s.core.work o c)
    (hP : P (f s.core c s.core.work)) : Does i s P :=
  does_of hx h (by rwa [runCmd_ready hr])

/-- A command ends with a status and changes nothing else where its operation says so. -/
theorem does_just {i : Instr} {s : State} {o : Op} {c : Cmd} {f : Block → Cmd → Work → Work} {st : Status}
    (hx : exec i s = .next (s.onWork fun e w => runCmd o c.id (f e) w)) (h : s.live) (hr : Ready s.core.work o c)
    (hend : f s.core c s.core.work = endCmd c.id st s.core.work) : Does i s (JustEnds s.core.work c st) :=
  does_cmd hx h hr (by rw [hend]; exact endCmd_just hr st)

/-- A command that is found by its number. -/
theorem Ready.cmd_eq {w : Work} {o : Op} {c : Cmd} (h : Ready w o c) : w.cmd c.id = some c := h.1

/-- The commands in flight alone decide which of them changed. -/
theorem Turns.of_cmds {w v v' : Work} {c c' : Cmd} (h : Turns w c c' v) (hv : v'.cmds = v.cmds) : Turns w c c' v' := by
  obtain ⟨hc, hj⟩ := h
  exact ⟨by rw [cmd_congr hv, hc], fun j hne => by rw [cmd_congr hv, hj j hne]⟩

/-- A change of a command that keeps its number turns that command alone. -/
theorem turns_updCmd {w v : Work} {c : Cmd} (h : w.cmd c.id = some c) (f : Cmd → Cmd) (hf : ∀ d, (f d).id = d.id) (hv : v.cmds = w.cmds) :
    Turns w c (f c) (v.updCmd c.id f) :=
  (updCmd_turns h f hf).of_cmds (by rw [Work.updCmd, Work.updCmd, hv])

/-! ### Requests -/

/-- A read leaves everything but the port. -/
theorem readFor_frame (e : Block) (s : Option Nat) (dev : Bool) (a len : Nat) (why : Purpose) (w : Work) :
    { readFor e s dev a len why w with fab := w.fab } = w := by
  have h := issue_work e s (newReq .read dev (spaceAddr e dev a) len [] why) w
  have hs := readFor_slices e s dev a len why w
  rw [readFor] at hs ⊢
  rw [← hs] at h
  exact h

/-- A write leaves everything but the port and the dirty logs. -/
theorem writeFor_frame (e : Block) (s : Option Nat) (dev : Bool) (a : Nat) (data : List Byte) (why : Purpose) (w : Work) :
    { writeFor e s dev a data why w with fab := w.fab, slices := w.slices } = w := issue_work e s _ w

theorem writeFor_asks_of_length {e : Block} {w : Work} {s : Option Nat} {dev : Bool} {a n : Nat} {data : List Byte} {why : Purpose}
    (h : mayIssue w s dev = true) (hn : data.length = n) :
    Asks w s .write dev (spaceAddr e dev a) n data why (writeFor e s dev a data why w) := hn ▸ writeFor_asks h

theorem writeFor_logs (e : Block) (s : Option Nat) (dev : Bool) (a : Nat) (data : List Byte) (why : Purpose) (w : Work) :
    LogsOnly w (writeFor e s dev a data why w) := issue_logs e s _ w

/-- A slice with its PASID and out of quiescence may issue to both spaces (R119, R607). -/
theorem mayIssue_open {w : Work} {s : Option Nat} (h : ∀ n, s = some n → (w.slice n).state = .active) (dev : Bool) : mayIssue w s dev = true := by
  cases s with
  | none => rfl
  | some n => exact mayIssue_active (h n rfl) dev

/-- A transfer names the port and the PASID of its slice alone. -/
theorem Asks.congr {v w w' : Work} {s : Option Nat} {op : MemOp} {dev : Bool} {a len : Nat} {data : List Byte} {why : Purpose}
    (h : Asks v s op dev a len data why w') (hfab : v.fab = w.fab) (hpasid : ∀ n, s = some n → (v.slice n).pasid = (w.slice n).pasid) :
    Asks w s op dev a len data why w' := by
  unfold Asks at *
  rw [h, hfab]
  cases s with
  | none => rfl
  | some n => simp only [hpasid n rfl]

/-- What leaves the port leaves a transfer as it was issued. -/
theorem Asks.of_fab {w v v' : Work} {s : Option Nat} {op : MemOp} {dev : Bool} {a len : Nat} {data : List Byte} {why : Purpose}
    (h : Asks w s op dev a len data why v) (hfab : v'.fab = v.fab) : Asks w s op dev a len data why v' := hfab.trans h

theorem LogsOnly.trans {w v u : Work} (h : LogsOnly w v) (k : LogsOnly v u) : LogsOnly w u := fun n =>
  (congrArg (fun x : Slice => { x with hostLog := (w.slice n).hostLog, devLog := (w.slice n).devLog }) (k n)).trans (h n)

theorem LogsOnly.of_slice {w v : Work} (h : ∀ n, v.slice n = w.slice n) : LogsOnly w v := fun n => by rw [h]

/-- Slices are as before but for their dirty logs: their watches. -/
theorem LogsOnly.watches {w v : Work} (h : LogsOnly w v) (n : Nat) : (v.slice n).watches = (w.slice n).watches :=
  (congrArg Slice.watches (h n) :)

/-- The slices that an update by a number does not name. -/
@[simp] theorem slice_updCmd (w : Work) (id : Nat) (f : Cmd → Cmd) (n : Nat) : (w.updCmd id f).slice n = w.slice n := rfl

@[simp] theorem slice_endCmd (w : Work) (id : Nat) (st : Status) (n : Nat) : (endCmd id st w).slice n = w.slice n := rfl

end Sys2Proof.Machine

end

-- Proofs about queue and context commands and QUERY (R176, R184 to R186).
section

namespace Sys2Proof.Machine

/-! ### What each operation does (R176, R184 to R186) -/

section

variable {w : Work} {c : Cmd}

theorem queueCreateOp_active (e : Block) (h : (w.slice (actsOn c)).state = .active) :
    queueCreateOp e c w = readFor e c.slice (ptrDev (fieldAt c.bytes 32 8)) (ptrAddr (fieldAt c.bytes 32 8)) 64 (.queueDesc c.id)
      (w.updCmd c.id fun d => { d with phase := .running }) := by simp [queueCreateOp, h]

theorem queueCreateOp_reject (e : Block) (h : (w.slice (actsOn c)).state ≠ .active) :
    queueCreateOp e c w = endCmd c.id St.stateReject w := by simp [queueCreateOp, h]

/-- The states in which QUEUE_DESTROY is rejected (R176, R184). -/
def queueStays (w : Work) (c : Cmd) : Prop :=
  (w.slice (actsOn c)).state ≠ .active ∨ (w.queue (namedQueue c)).state = .absent ∨ namedQueue c = c.qk ∨
    (w.queue (namedQueue c)).fetch ≠ (w.queue (namedQueue c)).head ∨ (w.queue (namedQueue c)).held ≠ [] ∨
    (w.queue (namedQueue c)).kept ≠ [] ∨ (w.queue (namedQueue c)).closing = true

theorem queueDestroyOp_reject (h : queueStays w c) : queueDestroyOp c w = endCmd c.id St.stateReject w := by
  refine if_neg ?_
  simp only [Bool.and_eq_true, beq_iff_eq, bne_iff_ne, Bool.not_eq_true', List.isEmpty_iff]
  rintro ⟨⟨⟨⟨⟨⟨h1, h2⟩, h3⟩, h4⟩, h5⟩, h6⟩, h7⟩
  rcases h with h | h | h | h | h | h | h
  · exact h h1
  · exact h2 h
  · exact h4 h
  · exact h h5
  · exact h h6
  · exact h h7
  · rw [h3] at h; cases h

theorem queueDestroyOp_goes (h : ¬queueStays w c) : queueDestroyOp c w =
    if (w.queue (namedQueue c)).written then endCmd c.id St.ok { w with queues := tblDel w.queues (namedQueue c) }
    else (w.updCmd c.id fun d => { d with phase := .running, waiting := .queue }).updQueue (namedQueue c) fun x =>
      { x with closing := true } := by
  simp only [queueStays, not_or, not_not, Bool.not_eq_true] at h
  obtain ⟨h1, h2, h3, h4, h5, h6, h7⟩ := h
  simp [queueDestroyOp, h1, h2, h3, h4, h5, h6, h7]

theorem queryResult_eq (e : Block) (data : List Byte) (h : data.length = 32 ∨ data = []) : queryResult e c data w =
    writeFor e c.slice (ptrDev (fieldAt c.bytes 32 8)) (ptrAddr (fieldAt c.bytes 32 8))
      (if data = [] then List.replicate 32 0 else data) (.queryWrite c.id)
      (w.updCmd c.id fun d => { d with phase := .running, writesLeft := 1 }) := by
  have hbytes : bytesAt data 0 32 = if data = [] then List.replicate 32 0 else data := by
    rcases h with h | rfl
    · rw [if_neg (by rintro rfl; cases h)]
      apply List.ext_getElem
      · simp [bytesAt, h]
      · intro i h1 h2
        simp [bytesAt, h2]
    · rfl
  simp only [queryResult, hbytes]

theorem length_leBytes (n v : Nat) : (leBytes n v).length = n := by
  induction n generalizing v with
  | zero => rfl
  | succ n ih => simp [leBytes, ih]

theorem length_ctxValues (x : Ctx) : (ctxValues x).length = 32 := by simp [ctxValues, length_leBytes]

end

section

variable {s : State} {c : Cmd}

theorem queueCreate_active (h : s.live) (hr : Ready s.core.work .queueCreate c) (hact : (s.core.work.slice (actsOn c)).state = .active)
    (hown : ∀ n, c.slice = some n → n = actsOn c) :
    Does (.queueCreate c.id) s fun w =>
      Asks s.core.work c.slice .read (ptrDev (fieldAt c.bytes 32 8))
        (spaceAddr s.core (ptrDev (fieldAt c.bytes 32 8)) (ptrAddr (fieldAt c.bytes 32 8))) 64 [] (.queueDesc c.id) w ∧
      Turns s.core.work c { c with phase := .running } w ∧
      { w with fab := s.core.work.fab, cmds := s.core.work.cmds } = s.core.work := by
  refine does_cmd rfl h hr ?_
  rw [queueCreateOp_active _ hact]
  have hturn := updCmd_turns hr.cmd_eq (fun d => { d with phase := .running }) fun _ => rfl
  have hmay : mayIssue s.core.work c.slice (ptrDev (fieldAt c.bytes 32 8)) = true :=
    mayIssue_open (fun n hn => hown n hn ▸ hact) _
  refine ⟨readFor_asks hmay, hturn.of_cmds (by simp), ?_⟩
  apply Work.ext <;> simp

theorem queueDestroy_goes (h : s.live) (hr : Ready s.core.work .queueDestroy c) (hstays : ¬queueStays s.core.work c) :
    Does (.queueDestroy c.id) s fun w =>
      (∀ k, k ≠ namedQueue c → w.queue k = s.core.work.queue k) ∧
      ((s.core.work.queue (namedQueue c)).written = true → w.queue (namedQueue c) = {} ∧ Ends s.core.work c St.ok w) ∧
      ((s.core.work.queue (namedQueue c)).written = false →
        w.queue (namedQueue c) = { s.core.work.queue (namedQueue c) with closing := true } ∧
        Turns s.core.work c { c with phase := .running, waiting := .queue } w) ∧
      { w with cmds := s.core.work.cmds, queues := s.core.work.queues } = s.core.work := by
  refine does_cmd rfl h hr ?_
  rw [queueDestroyOp_goes hstays]
  cases hw : (s.core.work.queue (namedQueue c)).written with
  | true =>
    refine ⟨fun k hk => tblGet_tblDel_other _ _ _ _ hk, fun _ => ⟨tblGet_tblDel_same _ _ _, ?_⟩, nofun, rfl⟩
    exact ends_of_cmds hr St.ok rfl
  | false =>
    refine ⟨fun k hk => queue_updQueue_other _ _ _ _ hk, nofun, fun _ => ⟨queue_updQueue _ _ _, ?_⟩, rfl⟩
    exact updCmd_turns hr.cmd_eq (fun d => { d with phase := .running, waiting := .queue }) fun _ => rfl

/-- A context command that is to wait for its slot. -/
theorem waitSlot_turns {o : Op} (hr : Ready s.core.work o c) :
    Turns s.core.work c { c with phase := .running, waiting := .slot }
      (s.core.work.updCmd c.id fun d => { d with phase := .running, waiting := .slot }) ∧
    OnlyCmds s.core.work (s.core.work.updCmd c.id fun d => { d with phase := .running, waiting := .slot }) :=
  ⟨updCmd_turns hr.cmd_eq (fun d => { d with phase := .running, waiting := .slot }) fun _ => rfl, rfl⟩

end

/-- Settles O1: each operation has one branch for its effect and one for its rejection. -/
theorem queueAndContextCommands : Obligations.QueueAndContextCommands := by
  refine ⟨fun s c h hr => ?nop, fun s c h hr => queueCreate_active h hr, fun s c h hr hst => ?createReject, fun s c h hr => ?destroy,
    fun s c h hr hstays => ?destroyReject, fun s c n h hr hn => ⟨fun hres => ?load, fun hres => ?loadReject⟩,
    fun s c n h hr hn => ⟨fun hres hne => ?evict, fun hres => ?evictReject⟩⟩
  case nop => exact does_just rfl h hr rfl
  case createReject => exact does_just rfl h hr (queueCreateOp_reject _ hst)
  case destroy =>
    intro h1 h2 h3 h4 h5 h6 h7
    exact queueDestroy_goes h hr (by simp [queueStays, h1, h2, h3, h4, h5, h6, h7])
  case destroyReject => exact does_just rfl h hr (queueDestroyOp_reject hstays)
  case load => exact does_cmd rfl h hr (by simpa [ctxLoadOp, hn, hres] using waitSlot_turns hr)
  case loadReject => exact does_just rfl h hr (by simp [ctxLoadOp, hn, hres])
  case evict => exact does_cmd rfl h hr (by simpa [ctxEvictOp, hn, hres, hne] using waitSlot_turns hr)
  case evictReject => exact does_just rfl h hr (by rcases hres with hres | hres <;> simp [ctxEvictOp, hn, hres])

/-! ### QUERY (R185) -/

section

variable {s : State} {c : Cmd}

/-- A QUERY that writes its 32 bytes at once. -/
theorem query_writes (h : s.live) (hr : Ready s.core.work .query c)
    (hmay : mayIssue s.core.work c.slice (ptrDev (fieldAt c.bytes 32 8)) = true) {data bytes : List Byte}
    (hop : queryOp s.core c s.core.work = queryResult s.core c data s.core.work) (hlen : data.length = 32 ∨ data = [])
    (hbytes : (if data = [] then List.replicate 32 0 else data) = bytes) :
    Does (.query c.id) s fun w' =>
      Asks s.core.work c.slice .write (ptrDev (fieldAt c.bytes 32 8))
        (spaceAddr s.core (ptrDev (fieldAt c.bytes 32 8)) (ptrAddr (fieldAt c.bytes 32 8))) 32 bytes (.queryWrite c.id) w' ∧
      Turns s.core.work c { c with phase := .running, writesLeft := 1 } w' ∧ LogsOnly s.core.work w' ∧
      { w' with fab := s.core.work.fab, cmds := s.core.work.cmds, slices := s.core.work.slices } = s.core.work := by
  refine does_cmd rfl h hr ?_
  rw [hop, queryResult_eq _ _ hlen, hbytes]
  have hlen32 : bytes.length = 32 := by
    subst hbytes
    split <;> simp_all
  have hturn := updCmd_turns hr.cmd_eq (fun d => { d with phase := .running, writesLeft := 1 }) fun _ => rfl
  refine ⟨writeFor_asks_of_length hmay hlen32, hturn.of_cmds (by simp), writeFor_logs s.core _ _ _ _ _ _, ?_⟩
  apply Work.ext <;> simp

end

/-- Settles O2: each state of the slice and of the context has its own source of the 32 bytes. -/
theorem queryWritesTheRecord : Obligations.QueryWritesTheRecord := by
  refine fun s c h hr hmay => ⟨fun hoff => ?zeroes, fun hact hres => ?live, fun hact hres => ?saved⟩
  case zeroes =>
    have hopen : (s.core.work.slice (actsOn c)).pasidOpen = false := by rcases hoff with h | h <;> simp [Slice.pasidOpen, h]
    exact query_writes h hr hmay (data := []) (by simp [queryOp, hopen]) (.inr rfl) rfl
  case live =>
    have hopen : (s.core.work.slice (actsOn c)).pasidOpen = true := by simp [Slice.pasidOpen, hact]
    have hlen := length_ctxValues (s.core.work.ctx (actsOn c) (namedCtx c))
    refine query_writes h hr hmay (by simp [queryOp, hopen, hres]) (.inl hlen) (if_neg fun hnil => ?_)
    rw [hnil] at hlen
    cases hlen
  case saved =>
    refine does_cmd rfl h hr ?_
    have hopen : (s.core.work.slice (actsOn c)).pasidOpen = true := by simp [Slice.pasidOpen, hact]
    have hread := mayIssue_active hact false
    have hop : queryOp s.core c s.core.work =
        readFor s.core (some (actsOn c)) false (ctxAddr s.core.work (actsOn c) (namedCtx c)) 32 (.queryRead c.id)
          (s.core.work.updCmd c.id fun d => { d with phase := .running }) := by simp [queryOp, hopen, hres, hread]
    rw [hop]
    have hturn := updCmd_turns hr.cmd_eq (fun d => { d with phase := .running }) fun _ => rfl
    refine ⟨readFor_asks hread, hturn.of_cmds (by simp), ?_⟩
    apply Work.ext <;> simp

end Sys2Proof.Machine

end

-- Proofs about semaphores (R312 to R317).
section

namespace Sys2Proof.Machine

/-! ### Semaphores by number -/

theorem sem_updSem_other (w : Work) {n k m j : Nat} (f : Sem → Sem) (h : ¬(m = n ∧ j = k)) : (w.updSem n k f).sem m j = w.sem m j := by
  by_cases hm : m = n
  · subst hm
    simp [Work.updSem, Work.sem, tblGet_tblUpd_other _ _ _ _ _ (fun hj => h ⟨rfl, hj⟩)]
  · simp [Work.updSem, Work.sem, slice_updSlice_other _ _ _ _ hm]

/-- A change of a semaphore leaves the rest of every slice. -/
theorem updSem_slice (w : Work) (n k m : Nat) (f : Sem → Sem) : { (w.updSem n k f).slice m with sems := (w.slice m).sems } = w.slice m := by
  by_cases hm : m = n
  · subst hm
    simp [Work.updSem]
  · simp [Work.updSem, slice_updSlice_other _ _ _ _ hm]

/-- The number of a semaphore after a command ended as before it. -/
@[simp] theorem sem_endCmd (w : Work) (id : Nat) (st : Status) (n k : Nat) : (endCmd id st w).sem n k = w.sem n k := rfl

/-! ### Holdings (R312, R315) -/

namespace Sem

variable (m : Sem)

/-- A record by its context, with `n` units in place of what that of context `c` holds. -/
def replaceAt (c n : Nat) (p : Nat × Nat) : Nat × Nat := if p.1 = c then (c, n) else p

@[simp] theorem replaceAt_fst (c n : Nat) (p : Nat × Nat) : (replaceAt c n p).1 = p.1 := by
  unfold replaceAt
  split <;> simp_all

/-- What becomes of the records as a holding is set: none of 0 units stays, one that is there is replaced, and a new one goes last. -/
theorem setHolding_zero (c : Nat) : m.setHolding c 0 = { m with holders := m.holders.filter fun p => !(p.1 == c) } := rfl

theorem setHolding_mem {c n : Nat} (hn : n ≠ 0) (h : ∃ p ∈ m.holders, p.1 = c) :
    m.setHolding c n = { m with holders := m.holders.map (replaceAt c n) } := by
  have hany : m.holders.any (fun p => p.1 == c) = true := by simpa using h
  unfold setHolding
  simp only [hn, if_false, hany, if_true]
  rfl

theorem setHolding_new {c n : Nat} (hn : n ≠ 0) (h : ∀ p ∈ m.holders, p.1 ≠ c) :
    m.setHolding c n = { m with holders := m.holders ++ [(c, n)] } := by
  have hany : m.holders.any (fun p => p.1 == c) = false := by simpa using h
  unfold setHolding
  simp only [hn, if_false, hany, Bool.false_eq_true]

theorem holding_of_absent {c : Nat} (h : ∀ p ∈ m.holders, p.1 ≠ c) : m.holding c = 0 := by
  have hnone : m.holders.find? (fun p => p.1 == c) = none := by simpa using h
  simp [holding, hnone]

@[simp] theorem setHolding_cap (c n : Nat) : (m.setHolding c n).cap = m.cap := by
  unfold setHolding
  split
  · rfl
  · split <;> rfl

@[simp] theorem setHolding_abandoned (c n : Nat) : (m.setHolding c n).abandoned = m.abandoned := by
  unfold setHolding
  split
  · rfl
  · split <;> rfl

/-- A lookup among records of which one is replaced. -/
theorem find_replaceAt (c n d : Nat) (l : List (Nat × Nat)) :
    (l.map (replaceAt c n)).find? (fun p => p.1 == d) = (l.find? fun p => p.1 == d).map (replaceAt c n) := by
  simp only [List.find?_map, Function.comp_def, replaceAt_fst]

@[simp] theorem holding_setHolding_same (c n : Nat) : (m.setHolding c n).holding c = n := by
  by_cases hn : n = 0
  · subst hn
    rw [setHolding_zero]
    exact holding_of_absent _ (by simp)
  by_cases h : ∃ p ∈ m.holders, p.1 = c
  · rw [setHolding_mem m hn h]
    obtain ⟨p, hp⟩ : ∃ p, m.holders.find? (fun p => p.1 == c) = some p := Option.isSome_iff_exists.mp (by simpa using h)
    have hc : p.1 = c := by simpa using List.find?_some hp
    simp only [holding, find_replaceAt, hp, Option.map_some, Option.getD_some]
    exact congrArg Prod.snd (if_pos hc)
  · push Not at h
    rw [setHolding_new m hn h]
    have hnone : m.holders.find? (fun p => p.1 == c) = none := by simpa using h
    simp [holding, List.find?_append, hnone]

theorem holding_setHolding_other {c d : Nat} (n : Nat) (hd : d ≠ c) : (m.setHolding c n).holding d = m.holding d := by
  by_cases hn : n = 0
  · subst hn
    have hpred (p : Nat × Nat) : (!(p.1 == c) && p.1 == d) = (p.1 == d) := by
      by_cases hp : p.1 = d <;> simp [hp, hd]
    simp only [setHolding_zero, holding, List.find?_filter, Bool.decide_and, Bool.decide_eq_true, hpred]
  by_cases h : ∃ p ∈ m.holders, p.1 = c
  · rw [setHolding_mem m hn h]
    cases hp : m.holders.find? (fun p => p.1 == d) with
    | none => simp only [holding, find_replaceAt, hp, Option.map_none]
    | some p =>
      have hpd : p.1 = d := by simpa using List.find?_some hp
      simp only [holding, find_replaceAt, hp, Option.map_some, Option.getD_some]
      exact congrArg Prod.snd (if_neg (by simpa [hpd] using hd))
  · push Not at h
    rw [setHolding_new m hn h]
    simp [holding, List.find?_append, hd.symm]

/-- A context whose holding is set to 0 has no record (R315). -/
theorem setHolding_zero_absent (c : Nat) : ∀ p ∈ (m.setHolding c 0).holders, p.1 ≠ c := by simp [setHolding_zero]

/-! Sums of holdings -/

theorem held_eq_sum : m.held = (m.holders.map Prod.snd).sum := by
  rw [held, List.sum_eq_foldl, List.foldl_map]

theorem replaceAt_absent {c n : Nat} {l : List (Nat × Nat)} (h : ∀ p ∈ l, p.1 ≠ c) : l.map (replaceAt c n) = l := by
  exact (List.map_congr_left fun p hp => if_neg (h p hp)).trans (List.map_id l)

theorem sum_replaceAt {c n : Nat} {l : List (Nat × Nat)} (hnd : (l.map Prod.fst).Nodup) {p : Nat × Nat}
    (hp : l.find? (fun p => p.1 == c) = some p) : ((l.map (replaceAt c n)).map Prod.snd).sum + p.2 = (l.map Prod.snd).sum + n := by
  induction l with
  | nil => cases hp
  | cons q l ih =>
    obtain ⟨hq, hl⟩ := List.nodup_cons.mp hnd
    by_cases hqc : q.1 = c
    · have hpq : q = p := by simpa [List.find?_cons, hqc] using hp
      have habs : ∀ x ∈ l, x.1 ≠ c := fun x hx hxc => hq (List.mem_map.mpr ⟨x, hx, hxc.trans hqc.symm⟩)
      rw [List.map_cons, replaceAt_absent habs]
      simp [replaceAt, hqc, ← hpq]
      omega
    · have hp' : l.find? (fun p => p.1 == c) = some p := by simpa [List.find?_cons, hqc] using hp
      have := ih hl hp'
      simp [replaceAt, hqc] at this ⊢
      omega

theorem nodup_replaceAt (c n : Nat) (l : List (Nat × Nat)) : (l.map (replaceAt c n)).map Prod.fst = l.map Prod.fst := by
  simp [Function.comp_def]

/-- Units added to a holding are added to what is held. -/
theorem held_setHolding_add {c u : Nat} (hu : m.holding c + u ≠ 0) (hnd : (m.holders.map Prod.fst).Nodup) :
    (m.setHolding c (m.holding c + u)).held = m.held + u := by
  by_cases h : ∃ p ∈ m.holders, p.1 = c
  · obtain ⟨p, hp⟩ : ∃ p, m.holders.find? (fun p => p.1 == c) = some p := Option.isSome_iff_exists.mp (by simpa using h)
    have hold : m.holding c = p.2 := by simp [holding, hp]
    have hsum := sum_replaceAt (n := m.holding c + u) hnd hp
    rw [setHolding_mem m hu h, held_eq_sum, held_eq_sum]
    dsimp only at hsum ⊢
    omega
  · push Not at h
    rw [setHolding_new m hu h, held_eq_sum, held_eq_sum, holding_of_absent m h]
    simp

theorem sum_filter_absent {c : Nat} {l : List (Nat × Nat)} (hnd : (l.map Prod.fst).Nodup) :
    ((l.filter fun p => !(p.1 == c)).map Prod.snd).sum + ((l.find? fun p => p.1 == c).map Prod.snd).getD 0 = (l.map Prod.snd).sum := by
  induction l with
  | nil => rfl
  | cons q l ih =>
    obtain ⟨hq, hl⟩ := List.nodup_cons.mp hnd
    by_cases hqc : q.1 = c
    · have habs : l.filter (fun p => !(p.1 == c)) = l := by
        simpa using fun a b hab hac => hq (List.mem_map.mpr ⟨(a, b), hab, hac.trans hqc.symm⟩)
      simp [hqc, habs]
      omega
    · have := ih hl
      simp [hqc] at this ⊢
      omega

/-- What a context held is no longer held once its record is freed. -/
theorem held_setHolding_zero (c : Nat) (hnd : (m.holders.map Prod.fst).Nodup) : (m.setHolding c 0).held + m.holding c = m.held := by
  rw [held_eq_sum, held_eq_sum]
  exact sum_filter_absent hnd

/-- A context has one record at most, whatever holding is set. -/
theorem nodup_setHolding (c n : Nat) (hnd : (m.holders.map Prod.fst).Nodup) : ((m.setHolding c n).holders.map Prod.fst).Nodup := by
  by_cases hn : n = 0
  · subst hn
    exact hnd.sublist (List.Sublist.map _ List.filter_sublist)
  by_cases h : ∃ p ∈ m.holders, p.1 = c
  · rw [setHolding_mem m hn h]
    simpa [Function.comp_def] using hnd
  · push Not at h
    rw [setHolding_new m hn h]
    simp only [List.map_append, List.map_cons, List.map_nil]
    refine List.nodup_append.mpr ⟨hnd, List.nodup_singleton c, ?_⟩
    simpa using fun a b hab => h (a, b) hab

end Sem

/-! ### SEM_ACQUIRE and SEM_RELEASE (R314, R315, R317) -/

/-- An acquire as it waits for its units. -/
def waitingAcquire (w : Work) (c : Cmd) : Cmd := { c with phase := .running, waiting := .sem, relOrder := w.nextOrder }

section

variable {w : Work} {c : Cmd} {n : Nat}

/-- The order of release that an acquire takes does not decide whether it is granted. -/
theorem acquireBegin_eq : acquireBegin c w =
    if acquireReady w (waitingAcquire w c) then grantAcquire (waitingAcquire w c) { w with nextOrder := w.nextOrder + 1 }
    else beginWait false (waitingAcquire w c) { w with nextOrder := w.nextOrder + 1 } := rfl

/-- A grant takes units, or takes the mark of abandonment and no units. -/
theorem grantAcquire_units (hn : c.slice = some n) (h : (w.sem n (semIndex c.bytes)).abandoned = false) : grantAcquire c w =
    endCmd c.id St.ok (w.updSem n (semIndex c.bytes) fun m => m.setHolding c.ctx (m.holding c.ctx + semUnits c.bytes)) := by
  simp [grantAcquire, hn, h]

theorem grantAcquire_abandoned (hn : c.slice = some n) (h : (w.sem n (semIndex c.bytes)).abandoned = true) : grantAcquire c w =
    endCmd c.id St.semAbandoned (w.updSem n (semIndex c.bytes) fun m => { m with abandoned := false }) := by
  simp [grantAcquire, hn, h]

theorem grants_iff {m : Sem} {x u : Nat} :
    m.grants x u = true ↔ m.held + u ≤ m.cap.toNat ∧ ((∃ p ∈ m.holders, p.1 = x) ∨ m.holders.length < 16) := by
  simp [Sem.grants]

/-- An acquire that has been released and has not ended fits where it is the only one on its semaphore. -/
theorem acquireReady_alone {o : Op} (hr : Ready w o c) (hn : c.slice = some n)
    (hgrants : (w.sem n (semIndex c.bytes)).grants c.ctx (semUnits c.bytes) = true) (hrun : (w.ctx n c.ctx).stopped = false)
    (halone : ∀ d ∈ w.cmds, d.id ≠ c.id → d.acquiring = true → sameSem c d = false)
    (hforce : ∀ t ∈ w.cap.teardowns, t.slice = n → (w.sem n (semIndex c.bytes)).holding t.ctx = 0) :
    acquireReady w (waitingAcquire w c) = true := by
  obtain ⟨-, -, -, hend, hsus⟩ := hr
  have hacq : (waitingAcquire w c).acquiring = true := by simp [waitingAcquire, Cmd.acquiring, hend, hsus]
  have hfirst : (w.cmds.all fun d => !(d.acquiring && sameSem (waitingAcquire w c) d) || standsBefore w (waitingAcquire w c) d ||
      d.id == (waitingAcquire w c).id) = true := by
    rw [List.all_eq_true]
    intro d hd
    by_cases hid : d.id = c.id
    · simp [waitingAcquire, hid]
    · have hsame : d.acquiring = true → sameSem (waitingAcquire w c) d = false := halone d hd hid
      cases hda : d.acquiring with
      | false => simp
      | true => simp [hsame hda]
  have hmay : w.mayForce n (semIndex c.bytes) = false := by simpa [Work.mayForce] using hforce
  have hfits : acquireFits w (waitingAcquire w c) = true := by
    unfold acquireFits
    rw [hacq, hfirst]
    simp [waitingAcquire, hn, hgrants, hrun]
  unfold acquireReady
  rw [hfits]
  simp [waitingAcquire, hn, hmay]

/-- An acquire that is granted with its release. -/
theorem acquireBegin_units (hready : acquireReady w (waitingAcquire w c) = true) (hn : c.slice = some n)
    (h : (w.sem n (semIndex c.bytes)).abandoned = false) : acquireBegin c w =
      endCmd c.id St.ok (({ w with nextOrder := w.nextOrder + 1 }).updSem n (semIndex c.bytes) fun m =>
        m.setHolding c.ctx (m.holding c.ctx + semUnits c.bytes)) := by
  rw [acquireBegin_eq, if_pos hready]
  exact grantAcquire_units (c := waitingAcquire w c) (w := { w with nextOrder := w.nextOrder + 1 }) hn h

theorem acquireBegin_abandoned (hready : acquireReady w (waitingAcquire w c) = true) (hn : c.slice = some n)
    (h : (w.sem n (semIndex c.bytes)).abandoned = true) : acquireBegin c w =
      endCmd c.id St.semAbandoned (({ w with nextOrder := w.nextOrder + 1 }).updSem n (semIndex c.bytes) fun m =>
        { m with abandoned := false }) := by
  rw [acquireBegin_eq, if_pos hready]
  exact grantAcquire_abandoned (c := waitingAcquire w c) (w := { w with nextOrder := w.nextOrder + 1 }) hn h

theorem releaseUnits_reject (hn : c.slice = some n) (h : (w.sem n (semIndex c.bytes)).holding c.ctx < semUnits c.bytes) :
    releaseUnits c w = endCmd c.id St.stateReject w := by simp [releaseUnits, hn, h]

theorem releaseUnits_ok (hn : c.slice = some n) (h : semUnits c.bytes ≤ (w.sem n (semIndex c.bytes)).holding c.ctx) :
    releaseUnits c w = endCmd c.id St.ok (w.updSem n (semIndex c.bytes) fun m =>
      m.setHolding c.ctx ((w.sem n (semIndex c.bytes)).holding c.ctx - semUnits c.bytes)) := by
  simp [releaseUnits, hn, Nat.not_lt.mpr h]

end

/-- Settles O7: a grant and a release each set one holding of one semaphore. -/
theorem semaphoreUnits : Obligations.SemaphoreUnits := by
  refine ⟨fun s c n h hr hn hfree hrec hrun halone hforce => ⟨fun hab => ?grant, fun hab => ?abandoned⟩,
    fun s c n h hr hn => ⟨fun hle => ?release, fun hlt => ?reject⟩⟩
  case grant =>
    refine does_cmd rfl h hr ?_
    rw [acquireBegin_units (acquireReady_alone hr hn (grants_iff.mpr ⟨hfree, hrec⟩) hrun halone hforce) hn hab]
    refine ⟨?_, fun d hd => ?_, ?_, ?_, fun k j hkj => sem_updSem_other _ _ hkj, fun k => updSem_slice _ _ _ _ _,
      ends_of_cmds hr St.ok rfl, rfl, rfl⟩
    · rw [sem_endCmd, sem_updSem]
      exact Sem.holding_setHolding_same ..
    · rw [sem_endCmd, sem_updSem]
      exact Sem.holding_setHolding_other _ _ hd
    · rw [sem_endCmd, sem_updSem]
      exact Sem.setHolding_cap ..
    · rw [sem_endCmd, sem_updSem]
      exact (Sem.setHolding_abandoned ..).trans hab
  case abandoned =>
    refine does_cmd rfl h hr ?_
    rw [acquireBegin_abandoned (acquireReady_alone hr hn (grants_iff.mpr ⟨hfree, hrec⟩) hrun halone hforce) hn hab]
    exact ⟨sem_updSem .., fun k j hkj => sem_updSem_other _ _ hkj, fun k => updSem_slice _ _ _ _ _,
      ends_of_cmds hr St.semAbandoned rfl, rfl, rfl⟩
  case release =>
    refine does_cmd rfl h hr ?_
    rw [releaseUnits_ok hn hle]
    refine ⟨?_, fun heq => ?_, fun d hd => ?_, ?_, ?_, fun k j hkj => sem_updSem_other _ _ hkj, fun k => updSem_slice _ _ _ _ _,
      ends_of_cmds hr St.ok rfl, rfl⟩
    · rw [sem_endCmd, sem_updSem]
      exact Sem.holding_setHolding_same ..
    · rw [heq, Nat.sub_self, sem_endCmd, sem_updSem]
      exact Sem.setHolding_zero_absent _ _
    · rw [sem_endCmd, sem_updSem]
      exact Sem.holding_setHolding_other _ _ hd
    · rw [sem_endCmd, sem_updSem]
      exact Sem.setHolding_cap ..
    · rw [sem_endCmd, sem_updSem]
      exact Sem.setHolding_abandoned ..
  case reject => exact does_just rfl h hr (releaseUnits_reject hn hlt)

/-- Units added to a holding, none among them, are added to what is held. -/
theorem Sem.held_setHolding (m : Sem) (x u : Nat) (hnd : (m.holders.map Prod.fst).Nodup) :
    (m.setHolding x (m.holding x + u)).held = m.held + u := by
  by_cases hu : m.holding x + u = 0
  · have hzero := m.held_setHolding_zero x hnd
    rw [hu]
    omega
  · exact m.held_setHolding_add hu hnd

/-- Settles O8: what is not granted waits, and a grant is made where the units fit. -/
theorem semaphoreCommands : Obligations.SemaphoreCommands := by
  refine ⟨fun s c n h hr hn hnot => ?wait, fun w c n hn hc hfits => ?grant⟩
  case wait =>
    refine does_cmd rfl h hr ?_
    have hnot' : ¬acquireReady s.core.work (waitingAcquire s.core.work c) = true := Bool.eq_false_iff.mp hnot
    rw [acquireBegin_eq, if_neg hnot']
    have hturn := updCmd_turns_to hr.cmd_eq (fun _ => { waitingAcquire s.core.work c with slotTaken := c.slotTaken || !false }) fun _ _ => rfl
    simp only [Bool.not_false, Bool.or_true] at hturn
    exact ⟨hturn.of_cmds (by simp [beginWait, waitingAcquire, Work.updCmd]), rfl, rfl⟩
  case grant =>
    have hgrants : (w.sem n (semIndex c.bytes)).grants c.ctx (semUnits c.bytes) = true := by
      simp only [acquireFits, hn, Bool.and_eq_true] at hfits
      exact hfits.2.1
    obtain ⟨hle, -⟩ := grants_iff.mp hgrants
    have hends (st : Status) (v : Work) (hv : v.cmds = w.cmds) (hrun : c.endStatus = none) :
        ((endCmd c.id st v).cmd c.id).bind Cmd.endStatus = some st := by
      have hcv : v.cmd c.id = some c := (cmd_congr hv _).trans hc
      simp [endCmd, cmd_updCmd v c.id (Cmd.endWith st) (fun _ => rfl), hcv, Cmd.endWith, hrun]
    have hrun : c.endStatus = none := by
      simp only [acquireFits, Cmd.acquiring, Bool.and_eq_true, Option.isNone_iff_eq_none] at hfits
      exact hfits.1.1.1.2
    refine ⟨hle, fun hab hnd => ?_, fun hab => ?_⟩
    · rw [grantAcquire_units hn hab, sem_endCmd, sem_updSem]
      refine ⟨Sem.holding_setHolding_same .., Sem.held_setHolding _ _ _ hnd, ?_, fun d hd => Sem.holding_setHolding_other _ _ hd,
        Sem.nodup_setHolding _ _ _ hnd, hends _ _ rfl hrun⟩
      rw [Sem.held_setHolding _ _ _ hnd, Sem.setHolding_cap]
      exact hle
    · rw [grantAcquire_abandoned hn hab, sem_endCmd, sem_updSem]
      exact ⟨rfl, hends _ _ rfl hrun⟩

end Sys2Proof.Machine

end

-- Proofs about COUNTER_OP (R318 to R321).
section

namespace Sys2Proof.Machine

/-! ### COUNTER_OP (R318 to R321) -/

section

variable {w : Work} {c : Cmd} {n op : Nat} {f : Nat → Nat × Status}

/-- The number of a slot as a command ends. -/
theorem slot_endCmd (w : Work) (id : Nat) (st : Status) (k : Nat) : (endCmd id st w).slot k = w.slot k := rfl

theorem counterApply_capacity (hn : c.slice = some n) (hop : fieldAt c.bytes 27 1 = op) (hlater : counterLater w c = false)
    (hkind : fieldAt c.bytes 26 1 = 1) : counterApply op f c w =
      endCmd c.id (f (w.sem n (fieldAt c.bytes 24 2)).cap.toNat).2 (w.updSem n (fieldAt c.bytes 24 2) fun m =>
        { m with cap := BitVec.ofNat 32 (f (w.sem n (fieldAt c.bytes 24 2)).cap.toNat).1 }) := by
  simp [counterApply, hn, hop, hlater, hkind]

theorem counterApply_local (hn : c.slice = some n) (hop : fieldAt c.bytes 27 1 = op) (hlater : counterLater w c = false)
    (hkind : fieldAt c.bytes 26 1 ≠ 1) {k : Nat} {v : BitVec 32} (hrel : c.relSlot = some (k, (w.slot k).load, v))
    (hres : w.residentSlot n c.ctx = some k) : counterApply op f c w =
      endCmd c.id (f (tblGet 0 (w.slot k).counters (fieldAt c.bytes 24 2)).toNat).2 (w.updSlot k fun x =>
        { x with counters := tblSet 0 x.counters (fieldAt c.bytes 24 2)
                  (BitVec.ofNat 32 (f (tblGet 0 (w.slot k).counters (fieldAt c.bytes 24 2)).toNat).1) }) := by
  simp [counterApply, hn, hop, hlater, hkind, hrel, hres]

theorem counterApply_left (hn : c.slice = some n) (hop : fieldAt c.bytes 27 1 = op) (hlater : counterLater w c = false)
    (hkind : fieldAt c.bytes 26 1 ≠ 1) {k load : Nat} {v : BitVec 32} (hrel : c.relSlot = some (k, load, v))
    (hleft : w.residentSlot n c.ctx ≠ some k ∨ (w.slot k).load ≠ load) : counterApply op f c w = endCmd c.id (f v.toNat).2 w := by
  have hnot : ¬(w.residentSlot n c.ctx = some k ∧ (w.slot k).load = load) := by tauto
  simp [counterApply, hn, hop, hlater, hkind, hrel, hnot]

theorem counterAdd_eq {v x y : Nat} {st : Status}
    (h : x + v < 2 ^ 32 ∧ y = x + v ∧ st = St.ok ∨ 2 ^ 32 ≤ x + v ∧ y = 2 ^ 32 - 1 ∧ st = St.counterSaturated) :
    counterAdd v x = (y, st) := by
  unfold counterAdd counterMax
  rcases h with ⟨h, rfl, rfl⟩ | ⟨h, rfl, rfl⟩
  · rw [if_neg (by omega)]
  · rw [if_pos (by omega)]

theorem counterSub_eq {v x y : Nat} {st : Status}
    (h : v ≤ x ∧ y = x - v ∧ st = St.ok ∨ x < v ∧ y = 0 ∧ st = St.counterSaturated) : counterSub v x = (y, st) := by
  unfold counterSub
  rcases h with ⟨h, rfl, rfl⟩ | ⟨h, rfl, rfl⟩
  · rw [if_neg (by omega)]
  · rw [if_pos h]

end

/-- The operation of a COUNTER_OP that gives `y` and `st` for `x` (R319): its number and what it makes of a value. -/
theorem counterOp_cases {i : Instr} {c : Cmd} {x y : Nat} {st : Status}
    (h : i = .counterOpSet c.id ∧ fieldAt c.bytes 27 1 = 0 ∧ y = counterValue c ∧ st = St.ok ∨
     i = .counterOpAdd c.id ∧ fieldAt c.bytes 27 1 = 1 ∧
       (x + counterValue c < 2 ^ 32 ∧ y = x + counterValue c ∧ st = St.ok ∨
        2 ^ 32 ≤ x + counterValue c ∧ y = 2 ^ 32 - 1 ∧ st = St.counterSaturated) ∨
     i = .counterOpSub c.id ∧ fieldAt c.bytes 27 1 = 2 ∧
       (counterValue c ≤ x ∧ y = x - counterValue c ∧ st = St.ok ∨
        x < counterValue c ∧ y = 0 ∧ st = St.counterSaturated)) :
    ∃ (op : Nat) (f : Cmd → Nat → Nat × Status), (∀ s, exec i s = .next (s.onWork fun _ w => runCmd .counterOp c.id (fun d => counterApply op (f d) d) w)) ∧
      fieldAt c.bytes 27 1 = op ∧ f c x = (y, st) := by
  rcases h with ⟨rfl, hop, rfl, rfl⟩ | ⟨rfl, hop, h⟩ | ⟨rfl, hop, h⟩
  · exact ⟨0, fun d _ => (counterValue d, St.ok), fun _ => rfl, hop, rfl⟩
  · exact ⟨1, fun d => counterAdd (counterValue d), fun _ => rfl, hop, counterAdd_eq h⟩
  · exact ⟨2, fun d => counterSub (counterValue d), fun _ => rfl, hop, counterSub_eq h⟩

/-- A WAIT_GE begins to wait; a watch slot is its own from its release on where it has to (R322). -/
theorem counterWait_turns {w : Work} {c : Cmd} (hr : Ready w .counterOp c) (hop : fieldAt c.bytes 27 1 = 3) :
    Turns w c { c with phase := .running, waiting := .counter,
                       slotTaken := c.slotTaken || !waitMet w { c with phase := .running, waiting := .counter } } (counterWait c w) ∧
    OnlyCmds w (counterWait c w) := by
  have heq : counterWait c w = beginWait (waitMet w { c with phase := .running, waiting := .counter })
      { c with phase := .running, waiting := .counter } w := if_neg (not_not.mpr hop)
  rw [heq]
  exact ⟨updCmd_turns_to hr.cmd_eq (fun _ => { c with phase := .running, waiting := .counter, slotTaken := _ }) fun _ _ => rfl, rfl⟩

/-- Settles O3: SET, ADD and SUB are one application with three functions; WAIT_GE is a wait. -/
theorem counterCommands : Obligations.CounterCommands := by
  refine ⟨fun s c n x y st i h hr hn hcase hlater => ?_, fun s c n h hr hn hop hres => ?_⟩
  · obtain ⟨op, f, hx, hop, hf⟩ := counterOp_cases hcase
    refine ⟨fun hkind hcap => ?capacity, fun slot v hkind hrel hres hcount => ?here,
      fun slot load v hkind hrel hv hleft => does_just (f := fun _ c => counterApply op (f c) c) (hx s) h hr ?gone⟩
    case capacity =>
      refine does_cmd (f := fun _ c => counterApply op (f c) c) (hx s) h hr ?_
      rw [counterApply_capacity hn hop hlater hkind, hcap, hf]
      exact ⟨sem_updSem .., fun m j hmj => sem_updSem_other _ _ hmj, fun m => updSem_slice _ _ _ _ _, ends_of_cmds hr st rfl, rfl⟩
    case here =>
      refine does_cmd (f := fun _ c => counterApply op (f c) c) (hx s) h hr ?_
      rw [counterApply_local hn hop hlater (by omega) hrel hres, hcount, hf]
      refine ⟨?_, fun j hj => ?_, ?_, fun j hj => ?_, ends_of_cmds hr st rfl, rfl⟩
      · rw [slot_endCmd, slot_updSlot]
        exact tblGet_tblSet_same ..
      · rw [slot_endCmd, slot_updSlot]
        exact tblGet_tblSet_other _ _ _ _ _ hj
      · rw [slot_endCmd, slot_updSlot]
      · rw [slot_endCmd]
        exact slot_updSlot_other _ _ _ _ hj
    case gone => rw [counterApply_left hn hop hlater (by omega) hrel hleft, hv, hf]
  · have hmet : waitMet s.core.work { c with phase := .running, waiting := .counter } = decide (counterValue c ≤ (counterOf s.core.work c).toNat) := by
      simp [waitMet, hn, hres, counterValue, counterOf]
    have hturns := counterWait_turns hr hop
    rw [hmet] at hturns
    refine ⟨fun hle => does_cmd rfl h hr ?now, fun hlt => does_cmd rfl h hr ?later⟩
    case now => simpa [hle] using hturns
    case later => simpa [Nat.not_le.mpr hlt] using hturns

end Sys2Proof.Machine

end

-- Proofs about operations on fences, SYN_OP_CTL and SIGIN (R302 to R309, R343).
section

namespace Sys2Proof.Machine

/-! ### What the waits on a fence leave alone -/

/-- Only the port, the slices and the messages changed: what a watch does that fires, ends or is told of. -/
def WatchFrame (w w' : Work) : Prop := { w' with fab := w.fab, slices := w.slices, msgs := w.msgs } = w

namespace WatchFrame

variable {w v u : Work}

theorem refl (w : Work) : WatchFrame w w := rfl

theorem trans (h : WatchFrame w v) (k : WatchFrame v u) : WatchFrame w u := by
  unfold WatchFrame at *
  rw [← h, ← k]

theorem ite {c : Prop} [Decidable c] {a b : Work} (ha : WatchFrame w a) (hb : WatchFrame w b) : WatchFrame w (if c then a else b) := by
  split <;> assumption

theorem foldl {α : Type} {f : Work → α → Work} (h : ∀ w x, WatchFrame w (f w x)) (l : List α) (w : Work) : WatchFrame w (l.foldl f w) := by
  induction l generalizing w with
  | nil => exact .refl w
  | cons x l ih => exact (h w x).trans (ih _)

theorem cmds (h : WatchFrame w v) : v.cmds = w.cmds := (congrArg Work.cmds h :)

theorem sync (h : WatchFrame w v) : v.sync = w.sync := (congrArg Work.sync h :)

theorem late (h : WatchFrame w v) : v.late = w.late := (congrArg Work.late h :)

end WatchFrame

section

variable (w : Work) (e : Block)

theorem updSlice_watchFrame (s : Nat) (f : Slice → Slice) : WatchFrame w (w.updSlice s f) := rfl

theorem sendMsg_watchFrame (m : Msg) : WatchFrame w (sendMsg e m w) := by apply Work.ext <;> simp

theorem writeFor_watchFrame (s : Option Nat) (dev : Bool) (a : Nat) (data : List Byte) (why : Purpose) :
    WatchFrame w (writeFor e s dev a data why w) := by apply Work.ext <;> simp

theorem dropWatchRecord_watchFrame (s : Nat) (irq : Bool) : WatchFrame w (dropWatchRecord s irq w) := .ite rfl rfl

theorem writeWatchRecord_watchFrame (s : Nat) (x : Watch) (st : Status) (v : BitVec 64) : WatchFrame w (writeWatchRecord e s x st v w) :=
  .ite (.refl w) (.ite (dropWatchRecord_watchFrame w s x.irq) (writeFor_watchFrame w e _ _ _ _ _))

theorem fireWatch_watchFrame (s : Nat) (x : Watch) (st : Status) (v : BitVec 64) : WatchFrame w (fireWatch e s x st v w) :=
  .ite (updSlice_watchFrame w s _) ((updSlice_watchFrame w s _).trans (writeWatchRecord_watchFrame _ e s x st v))

/-- A command whose registered wait meets the operation on its fence (R304). -/
def resumeWait (f : Fence) (done : Bool) (s i : Nat) (c : Cmd) : Cmd :=
  if c.slice = some s ∧ c.phase = .fetched ∧ c.slotTaken ∧ ¬c.waitDone ∧ ¬c.suspended ∧ cWaitFence c.bytes = i then
    match f.answer done (cWaitValue c.bytes) with
    | some st => if st = St.ok then { c with waitDone := true, slotTaken := false } else (Cmd.endWith st c)
    | none => c
  else c

/-- A command that has been released waits for no fence. -/
theorem resumeWait_released (f : Fence) (done : Bool) (s i : Nat) {c : Cmd} (h : c.phase ≠ .fetched) : resumeWait f done s i c = c :=
  if_neg fun ⟨_, hp, _⟩ => h hp

theorem resumeWait_phase (f : Fence) (done : Bool) (s i : Nat) (c : Cmd) : (resumeWait f done s i c).phase = c.phase := by
  unfold resumeWait
  split
  · split
    · split <;> rfl
    · rfl
  · rfl

/-- What follows an operation on a fence: watches and remote waits, then the registered waits of commands. -/
theorem fenceChanged_frame (done : Bool) (s i : Nat) (old : Fence) :
    ∃ v, WatchFrame w v ∧ fenceChanged e done s i old w = v.mapCmds (resumeWait (w.fence s i) done s i) := by
  refine ⟨_, ?_, rfl⟩
  refine (WatchFrame.foldl (fun w x => ?_) _ w).trans (WatchFrame.foldl (fun w x => ?_) _ _)
  · refine .ite (.refl w) (.ite ?_ ?_)
    · exact (WatchFrame.ite (sendMsg_watchFrame w e _) (.refl w)).trans (.ite (sendMsg_watchFrame _ e _) (.refl _))
    · split
      · exact fireWatch_watchFrame w e ..
      · exact .refl w
  · refine .ite (.refl w) ?_
    split
    · exact (updSlice_watchFrame w s _).trans (sendMsg_watchFrame _ e _)
    · exact .refl w

/-- What putting a fence's outcome in place leaves of the commands and of the sync registers. -/
theorem putFence_frame (s i : Nat) (o : FenceOut) :
    (putFence e s i o w).sync = w.sync ∧
    ∃ f, (putFence e s i o w).cmds = w.cmds.map (resumeWait f false s i) ∨ (putFence e s i o w).cmds = w.cmds := by
  have hput : (putOutcome e false s i o w).sync = w.sync ∧
      ∃ f, (putOutcome e false s i o w).cmds = w.cmds.map (resumeWait f false s i) ∨ (putOutcome e false s i o w).cmds = w.cmds := by
    unfold putOutcome
    dsimp only
    split
    · exact ⟨rfl, w.fence s i, .inr rfl⟩
    · obtain ⟨v, hv, heq⟩ := fenceChanged_frame (w.updSlice s _) e false s i (w.fence s i)
      rw [heq]
      exact ⟨hv.sync, _, .inl (by rw [Work.mapCmds, hv.cmds]; rfl)⟩
  unfold putFence
  dsimp only
  split
  · exact hput
  · exact hput

end

/-! ### Signals and adds (R302, R305) -/

theorem allOnes_le_iff (v : BitVec 64) : BitVec.allOnes 64 ≤ v ↔ v = BitVec.allOnes 64 := by
  constructor
  · intro h
    apply BitVec.eq_of_toNat_eq
    have hle : (BitVec.allOnes 64).toNat ≤ v.toNat := h
    have hlt := v.isLt
    simp only [BitVec.toNat_allOnes] at hle ⊢
    omega
  · rintro rfl
    exact BitVec.le_refl _

theorem lt_allOnes_iff (v : BitVec 64) : v < BitVec.allOnes 64 ↔ v ≠ BitVec.allOnes 64 := by
  rw [← BitVec.not_le, allOnes_le_iff]

/-- A saturating operation marks the fence up to 2^64 − 1, and no signal takes that mark away (R305). -/
theorem saturate_fence (f : Fence) : f.saturate.fence = signalledFence f (BitVec.allOnes 64) := by
  have htop : (if f.errTop < BitVec.allOnes 64 then BitVec.allOnes 64 else f.errTop) = BitVec.allOnes 64 := by
    split
    · rfl
    next h => exact not_not.mp (mt (lt_allOnes_iff _).mpr h)
  unfold Fence.saturate Fence.mark signalledFence
  dsimp only
  rw [if_pos rfl]
  by_cases hv : f.value = BitVec.allOnes 64
  · rw [if_pos ((allOnes_le_iff _).mpr hv), if_pos hv]
  · rw [if_neg (mt (allOnes_le_iff _).mp hv), if_neg hv]
    split
    · rfl
    · rw [htop]

/-- A value that a fence has taken lifts an error that it has reached (R302). -/
theorem lift_signalled (f : Fence) {v x : BitVec 64} (hv : v ≠ BitVec.allOnes 64) (hx : (if f.value < v then v else f.value) = x) :
    ({ f with value := x } : Fence).lift = signalledFence f v := by
  unfold Fence.lift signalledFence
  rw [if_neg hv]
  simp only [hx]

theorem signal_fence (f : Fence) (v : BitVec 64) : (f.signal v).fence = signalledFence f v := by
  unfold Fence.signal
  split
  next hv => rw [hv, saturate_fence]
  next hv =>
    split
    next hlt => exact lift_signalled f hv (if_pos hlt)
    next hlt => exact lift_signalled f hv (if_neg hlt)

theorem signal_stale (f : Fence) (v : BitVec 64) : (f.signal v).stale = decide (v ≤ f.value ∧ v ≠ BitVec.allOnes 64) := by
  unfold Fence.signal
  split
  next hv => exact (decide_eq_false fun h => h.2 hv).symm
  next hv =>
    split
    next hlt => exact (decide_eq_false fun h => BitVec.not_le.mpr hlt h.1).symm
    next hlt => exact (decide_eq_true ⟨BitVec.not_lt.mp hlt, hv⟩).symm

theorem signal_saturated (f : Fence) (v : BitVec 64) : (f.signal v).saturated = decide (v = BitVec.allOnes 64) := by
  unfold Fence.signal
  split
  next hv => exact (decide_eq_true hv).symm
  next hv => split <;> exact (decide_eq_false hv).symm

theorem add_zero_out (f : Fence) : f.add 0 = { fence := f, stale := true, saturated := false } := if_pos rfl

/-- An add within the range takes the sum as a signal does (R302). -/
theorem add_within (f : Fence) {d : BitVec 64} (hd : d ≠ 0) (h : f.value.toNat + d.toNat ≤ 2 ^ 64 - 2) :
    f.add d = { fence := signalledFence f (f.value + d), stale := false, saturated := false } := by
  have hsum : (f.value + d).toNat = f.value.toNat + d.toNat := by
    rw [BitVec.toNat_add]
    omega
  have hpos : d.toNat ≠ 0 := fun h0 => hd (BitVec.eq_of_toNat_eq h0)
  have hlt : f.value < f.value + d := by
    rw [BitVec.lt_def, hsum]
    omega
  have hne : f.value + d ≠ BitVec.allOnes 64 := by
    intro heq
    have := congrArg BitVec.toNat heq
    rw [hsum, BitVec.toNat_allOnes] at this
    omega
  have hfence := lift_signalled f hne (if_pos hlt)
  unfold Fence.add fenceMax
  rw [if_neg hd, if_neg (by omega), hfence]

/-- An add past the range saturates (R305). -/
theorem add_past (f : Fence) {d : BitVec 64} (hd : d ≠ 0) (h : 2 ^ 64 - 2 < f.value.toNat + d.toNat) :
    f.add d = { fence := signalledFence f (BitVec.allOnes 64), stale := false, saturated := true } := by
  have hfence := saturate_fence f
  unfold Fence.add fenceMax
  rw [if_neg hd, if_pos (by omega), ← hfence]
  rfl

/-! ### SYN_OP_CTL and SIGIN (R309, R343) -/

/-- A change of the sync registers stands beside what becomes of a fence. -/
theorem FenceBecomes.withSync {w v : Work} {s i : Nat} {f : Fence} {stale : Bool} (h : FenceBecomes w s i f stale v) (r : SyncRegs) :
    FenceBecomes w s i f stale { v with sync := r } :=
  fenceBecomes_stand h ⟨⟨⟨rfl, fun _ => rfl⟩, rfl⟩, fun _ => ⟨rfl, rfl⟩⟩

/-- CAPACITY over HELD as SYN_RD_A holds them. -/
theorem semWord_eq (cap : BitVec 32) (held : Nat) :
    BitVec.ofNat 64 (cap.toNat * 2 ^ 32 + held % 2 ^ 32) = cap ++ BitVec.ofNat 32 held := by
  apply BitVec.eq_of_toNat_eq
  have hcap := cap.isLt
  have hheld : held % 2 ^ 32 < 2 ^ 32 := Nat.mod_lt _ (by decide)
  rw [BitVec.toNat_append, BitVec.toNat_ofNat, BitVec.toNat_ofNat, ← Nat.shiftLeft_add_eq_or_of_lt hheld, Nat.shiftLeft_eq]
  exact Nat.mod_eq_of_lt (by omega)

section

variable {w : Work} {n i : Nat}

theorem synOp_goes {k : Nat} {f : Work → Work} (hon : (w.slice n).state ≠ .off) (hi : i < k) : synOp n i k f w = f w := by
  simp [synOp, hon, Nat.not_le.mpr hi]

theorem synOp_off {k : Nat} {f : Work → Work} (hoff : (w.slice n).state = .off) : synOp n i k f w = opStatus St.stateReject w := by
  simp [synOp, hoff]

theorem synOp_beyond {k : Nat} {f : Work → Work} (hon : (w.slice n).state ≠ .off) (hi : k ≤ i) :
    synOp n i k f w = opStatus St.badCommand w := by simp [synOp, hon, hi]

/-- The four operations of SYN_OP_CTL each go through the check of slice and index. -/
theorem exec_synOp {c : Instr} (hc : c ∈ [Instr.fenceSignal n i, .fenceAdd n i, .fenceRead n i, .semRead n i]) :
    ∃ (k : Work → Nat) (f : Block → Work → Work), (∀ s, exec c s = .next (s.onWork fun e w => synOp n i (k w) (f e) w)) ∧
      ∀ w, k w = (w.slice n).fenceCount ∨ k w = (w.slice n).semCount := by
  simp only [List.mem_cons, List.not_mem_nil, or_false] at hc
  rcases hc with rfl | rfl | rfl | rfl
  · exact ⟨fun w => (w.slice n).fenceCount, _, fun _ => rfl, fun _ => .inl rfl⟩
  · exact ⟨fun w => (w.slice n).fenceCount, _, fun _ => rfl, fun _ => .inl rfl⟩
  · exact ⟨fun w => (w.slice n).fenceCount, _, fun _ => rfl, fun _ => .inl rfl⟩
  · exact ⟨fun w => (w.slice n).semCount, _, fun _ => rfl, fun _ => .inr rfl⟩

/-- Operations on a fence leave a command's wait for its own SIGIN update as it was. -/
theorem awaitsSigin_putFence (e : Block) (o : FenceOut) (v : BitVec 64)
    (h : ∀ c ∈ w.cmds, awaitsSigin w c n i v = false) : ∀ c ∈ (putFence e n i o w).cmds, awaitsSigin (putFence e n i o w) c n i v = false := by
  obtain ⟨-, -, -, ⟨-, hframe⟩, -⟩ := putFence_becomes e n i o w
  have hcount (k : Nat) : ((putFence e n i o w).slice k).fenceCount = (w.slice k).fenceCount := (congrArg Slice.fenceCount (hframe k) :)
  have hsig (c : Cmd) : awaitsSigin (putFence e n i o w) c n i v = awaitsSigin w c n i v := by
    simp only [awaitsSigin, sigOf, hcount]
  intro c hc
  rw [hsig]
  obtain ⟨-, f, hcmds | hcmds⟩ := putFence_frame w e n i o
  · rw [hcmds] at hc
    obtain ⟨d, hd, rfl⟩ := List.mem_map.mp hc
    by_cases hphase : d.phase = .fetched
    · simp [awaitsSigin, resumeWait_phase, hphase]
    · rw [resumeWait_released f false n i hphase]
      exact h d hd
  · exact h c (hcmds ▸ hc)

end

/-- Settles O4: each operation either goes through the check of slice and index or is refused by it. -/
theorem syncRegisterOperations : Obligations.SyncRegisterOperations := by
  refine ⟨fun s n i h hon hi => ⟨?signal, fun hv => ?stale, fun hv hsum => ?add, fun hv hsum => ?past, ?read⟩,
    ⟨fun s n i h hon hi => ?semRead, fun s n i c h hc => ⟨fun hoff => ?off, fun hon hfence hsem => ?beyond⟩⟩,
    fun s n i v h => ⟨fun hon hi hown => ?sigin, fun hdrop => ?dropped⟩⟩
  case signal =>
    refine does_of (f := synSignal n i) rfl h ?_
    have hput := putFence_becomes s.core n i ((s.core.work.fence n i).signal s.core.work.sync.opValue) s.core.work
    have hvalue := hput.1
    rw [signal_fence] at hvalue
    rw [signal_fence, signal_stale] at hput
    rw [synSignal, synOp_goes hon hi]
    refine ⟨(hput.withSync _).withSync _, ?_⟩
    simp only [opStatus, (putFence_frame s.core.work s.core n i _).1, hvalue, signal_saturated, decide_eq_true_eq]
  case stale =>
    refine does_of (f := synAdd n i) rfl h ?_
    rw [synAdd, synOp_goes hon hi, hv]
    have hput := putFence_becomes s.core n i ((s.core.work.fence n i).add 0) s.core.work
    rw [add_zero_out] at hput ⊢
    exact ⟨hput.withSync _, by simp only [opStatus, (putFence_frame s.core.work s.core n i _).1]; rfl⟩
  case add =>
    refine does_of (f := synAdd n i) rfl h ?_
    rw [synAdd, synOp_goes hon hi]
    have hput := putFence_becomes s.core n i ((s.core.work.fence n i).add s.core.work.sync.opValue) s.core.work
    rw [add_within _ hv hsum] at hput ⊢
    exact ⟨hput.withSync _, by simp only [opStatus, (putFence_frame s.core.work s.core n i _).1]; rfl⟩
  case past =>
    refine does_of (f := synAdd n i) rfl h ?_
    rw [synAdd, synOp_goes hon hi]
    have hput := putFence_becomes s.core n i ((s.core.work.fence n i).add s.core.work.sync.opValue) s.core.work
    rw [add_past _ hv hsum] at hput ⊢
    exact ⟨hput.withSync _, by simp only [opStatus, (putFence_frame s.core.work s.core n i _).1]; rfl⟩
  case read =>
    refine does_of (f := fun _ w => synRead n i w) rfl h ?_
    rw [synRead, synOp_goes hon hi]
    exact ⟨rfl, rfl⟩
  case semRead =>
    refine does_of (f := fun _ w => synSemRead n i w) rfl h ?_
    rw [synSemRead, synOp_goes hon hi]
    exact ⟨rfl, by dsimp only; rw [semWord_eq, Nat.add_comm (16 * _)]⟩
  case off =>
    obtain ⟨k, f, hx, -⟩ := exec_synOp hc
    exact does_of (hx s) h (synOp_off hoff)
  case beyond =>
    obtain ⟨k, f, hx, hk⟩ := exec_synOp hc
    refine does_of (hx s) h (synOp_beyond hon ?_)
    rcases hk s.core.work with hk | hk <;> rw [hk] <;> assumption
  case sigin =>
    refine does_of (f := siginApply n i v) rfl h ?_
    have hserved : fenceServed s.core.work n i = true := by simp [fenceServed, hon, hi]
    have hnone := List.find?_eq_none.mpr fun c hc =>
      Bool.not_eq_true _ ▸ awaitsSigin_putFence s.core ((s.core.work.fence n i).signal v) v hown c hc
    have hop : siginApply n i v s.core s.core.work = putFence s.core n i ((s.core.work.fence n i).signal v) s.core.work := by
      simp [siginApply, hserved, hnone]
    have hput := putFence_becomes s.core n i ((s.core.work.fence n i).signal v) s.core.work
    rw [signal_fence, signal_stale] at hput
    rw [hop]
    exact hput
  case dropped =>
    refine does_of (f := siginApply n i v) rfl h ?_
    have hserved : fenceServed s.core.work n i = false := by
      rcases hdrop with hoff | hi
      · simp [fenceServed, hoff]
      · simp [fenceServed, hi]
    simp [siginApply, hserved, countDropped]

end Sys2Proof.Machine

end

-- Proofs about watches, WATCH_ADD and WATCH_CANCEL (R324 to R333).
section

namespace Sys2Proof.Machine

/-! ### Records and removals of watches (R327) -/

section

variable {w v : Work} {e : Block} {n : Nat}

/-- The watches of every slice stand. -/
def WatchesStand (w v : Work) : Prop := ∀ k, (v.slice k).watches = (w.slice k).watches

theorem WatchesStand.trans {u : Work} (h : WatchesStand w v) (k : WatchesStand v u) : WatchesStand w u := fun i => (k i).trans (h i)

theorem sendMsg_watchesStand (e : Block) (m : Msg) (w : Work) : WatchesStand w (sendMsg e m w) := fun k => by simp

theorem writeFor_watchesStand (e : Block) (s : Option Nat) (dev : Bool) (a : Nat) (data : List Byte) (why : Purpose) (w : Work) :
    WatchesStand w (writeFor e s dev a data why w) := (writeFor_logs e s dev a data why w).watches

theorem dropWatchRecord_watchesStand (s : Nat) (irq : Bool) (w : Work) : WatchesStand w (dropWatchRecord s irq w) := by
  intro k
  have h : ((w.updSlice s fun x => { x with watchDrops := x.watchDrops + 1 }).slice k).watches = (w.slice k).watches := by
    by_cases hk : k = s
    · subst hk
      rw [slice_updSlice]
    · rw [slice_updSlice_other _ _ _ _ hk]
  unfold dropWatchRecord
  split
  · exact h
  · exact h

theorem writeWatchRecord_watchesStand (e : Block) (s : Nat) (x : Watch) (st : Status) (value : BitVec 64) (w : Work) :
    WatchesStand w (writeWatchRecord e s x st value w) := by
  unfold writeWatchRecord writeWatchAt
  split
  · exact fun _ => rfl
  · dsimp only
    split
    · exact dropWatchRecord_watchesStand s x.irq w
    · exact writeFor_watchesStand e _ _ _ _ _ w

/-- The record of a watch of an ACTIVE slice is written where NOTIFY_PTR is set, and none where it is zero. -/
theorem writeWatchRecord_active (x : Watch) (st : Status) (value : BitVec 64) (hact : (w.slice n).state = .active) (hptr : x.ptr ≠ 0) :
    writeWatchRecord e n x st value w = writeFor e (some n) (ptrDev x.ptr.toNat) (ptrAddr x.ptr.toNat)
      (watchBytes x st value e.clk.beat) (.watchRecord n x.irq) w := by
  rw [writeWatchRecord, writeWatchAt, if_neg hptr]
  simp [mayIssue_active hact]

theorem writeWatchRecord_silent (x : Watch) (st : Status) (value : BitVec 64) (hptr : x.ptr = 0) :
    writeWatchRecord e n x st value w = w := by simp [writeWatchRecord, writeWatchAt, hptr]

theorem length_watchBytes (x : Watch) (st : Status) (value beat : BitVec 64) : (watchBytes x st value beat).length = 32 := by
  have hlen (k v : Nat) : (leBytes k v).length = k := by
    induction k generalizing v with
    | zero => rfl
    | succ k ih => simp [leBytes, ih]
  simp [watchBytes, hlen]

/-- A watch of an ACTIVE slice that fires or ends is removed, and its record written. -/
theorem fireWatch_active (x : Watch) (st : Status) (value : BitVec 64) (hact : (w.slice n).state = .active) :
    fireWatch e n x st value w = writeWatchRecord e n x st value (removeWatch n x.wid w) := by
  simp [fireWatch, hact]

theorem removeWatch_watches (s wid : Nat) (w : Work) :
    ((removeWatch s wid w).slice s).watches = (w.slice s).watches.filter fun y => !(y.wid == wid) := by
  rw [removeWatch, slice_updSlice]

theorem removeWatch_other {s wid k : Nat} (hk : k ≠ s) (w : Work) : (removeWatch s wid w).slice k = w.slice k :=
  slice_updSlice_other _ _ _ _ hk

/-- A removal of a watch changes nothing of its slice but the watches. -/
theorem removeWatch_slice (s wid k : Nat) (w : Work) :
    { (removeWatch s wid w).slice k with watches := (w.slice k).watches } = w.slice k := by
  by_cases hk : k = s
  · subst hk
    rw [removeWatch, slice_updSlice]
  · rw [removeWatch_other hk]

theorem removeWatch_state (s wid k : Nat) (w : Work) : ((removeWatch s wid w).slice k).state = (w.slice k).state :=
  (congrArg Slice.state (removeWatch_slice s wid k w) :)

theorem removeWatch_pasid (s wid k : Nat) (w : Work) : ((removeWatch s wid w).slice k).pasid = (w.slice k).pasid :=
  (congrArg Slice.pasid (removeWatch_slice s wid k w) :)

/-- A watch that has just been registered and is removed leaves the slices as they were. -/
theorem removeWatch_registered {x : Watch} (hnew : ∀ y ∈ (w.slice n).watches, y.wid ≠ x.wid) (k : Nat) :
    (removeWatch n x.wid (w.updSlice n fun y => { y with watches := y.watches ++ [x] })).slice k = w.slice k := by
  by_cases hk : k = n
  · subst hk
    have hkeep : (w.slice k).watches.filter (fun y => !(y.wid == x.wid)) = (w.slice k).watches := by
      simpa using hnew
    rw [removeWatch, slice_updSlice, slice_updSlice]
    simp [hkeep]
  · rw [removeWatch_other hk, slice_updSlice_other _ _ _ _ hk]

/-- What a message adds to the queues depends on them, and on the free values drawn, alone. -/
theorem sendMsg_msgs_congr (e : Block) (m : Msg) (hmsgs : v.msgs = w.msgs) (hfresh : v.fresh = w.fresh) :
    (sendMsg e m v).msgs = (sendMsg e m w).msgs := by
  unfold sendMsg
  rw [hmsgs, hfresh]
  repeat' split
  all_goals rfl

end

/-! ### WATCH_ADD (R325 to R331) -/

section

variable {s : State} {c : Cmd} {n : Nat}

theorem watchBegin_goes {w : Work} (e : Block) (hn : c.slice = some n) (hnew : ∀ y ∈ (w.slice n).watches, y.wid ≠ (watchOf c).wid)
    (hfree : slotFree w n = true) : watchBegin e c w = endCmd c.id St.ok (registerWatch e n (watchOf c) w) := by
  have hany : (w.slice n).watches.any (fun y => y.wid == (watchOf c).wid) = false := by simpa using hnew
  simp [watchBegin, hn, hany, hfree]

theorem registerWatch_far {w : Work} {e : Block} {x : Watch} (hfar : x.forward = true ∨ x.remote = true) (hjoined : e.frm.joined = true)
    (hreach : reachable e x.chip = true) : registerWatch e n x w =
      let v := w.updSlice n fun y => { y with watches := y.watches ++ [x] }
      if x.forward then
        let v := sendFence e x.chip n x.target none (w.fence n x.fence).value v
        if (w.fence n x.fence).err ≠ 0 then
          sendFence e x.chip n x.target (some (w.fence n x.fence).err) (w.fence n x.fence).errTop v
        else v
      else sendWatchReg e n x v := by
  have hnot : ((x.forward || x.remote) && (!e.frm.joined || !reachable e x.chip)) = false := by simp [hjoined, hreach]
  rcases hfar with h | h <;> cases hf : x.forward <;> simp_all [registerWatch]

theorem registerWatch_lost {w : Work} {e : Block} {x : Watch} (hfar : x.forward = true ∨ x.remote = true)
    (hlost : e.frm.joined = false ∨ reachable e x.chip = false) : registerWatch e n x w =
      writeWatchRecord e n x St.peerLost (if x.remote then 0 else (w.fence n x.fence).value) w := by
  have hyes : ((x.forward || x.remote) && (!e.frm.joined || !reachable e x.chip)) = true := by
    rcases hfar with h | h <;> rcases hlost with k | k <;> simp [h, k]
  simp [registerWatch, hyes]

theorem registerWatch_near {w : Work} {e : Block} {x : Watch} (hf : x.forward = false) (hr : x.remote = false) : registerWatch e n x w =
    let v := w.updSlice n fun y => { y with watches := y.watches ++ [x] }
    if x.value ≤ (w.fence n x.fence).value then fireWatch e n x St.ok (w.fence n x.fence).value v
    else if (w.fence n x.fence).err = 0 then v else v.later (.resolve n x.fence) := by
  simp [registerWatch, hf, hr]


theorem watchEnd_none {w : Work} (e : Block) (hn : c.slice = some n) (h : ∀ y ∈ (w.slice n).watches, y.wid ≠ fieldAt c.bytes 52 2) :
    watchEnd e c w = endCmd c.id St.stateReject w := by
  have hfind : (w.slice n).watches.find? (fun y => y.wid == fieldAt c.bytes 52 2) = none := by simpa using h
  simp [watchEnd, hn, hfind]

theorem watchEnd_some {w : Work} (e : Block) (hn : c.slice = some n) (h : ∃ y ∈ (w.slice n).watches, y.wid = fieldAt c.bytes 52 2) :
    watchEnd e c w = endCmd c.id St.ok (dropWatches e n (fun y => y.wid == fieldAt c.bytes 52 2) St.watchCancelled w) := by
  have hfind : ∃ x, (w.slice n).watches.find? (fun y => y.wid == fieldAt c.bytes 52 2) = some x := by
    rw [← Option.isSome_iff_exists, List.find?_isSome]
    simpa using h
  obtain ⟨x, hx⟩ := hfind
  simp [watchEnd, hn, hx]

/-- One watch that is dropped. -/
def dropWatch (e : Block) (s : Nat) (st : Status) (w : Work) (x : Watch) : Work :=
  writeWatchRecord e s x st (if x.remote then 0 else (w.fence s x.fence).value)
    (removeWatch s x.wid (if x.remote then sendWatchDrop e x.chip s x.wid st w else w))

/-- The message of a watch that is dropped on its chip, where it is one of another chip. -/
theorem dropMsg_frame (e : Block) (s : Nat) (st : Status) (w : Work) (x : Watch) :
    let v := if x.remote then sendWatchDrop e x.chip s x.wid st w else w
    WatchFrame w v ∧ WatchesStand w v ∧ FencesStand w v := by
  dsimp only
  split
  · exact ⟨sendMsg_watchFrame w e _, sendMsg_watchesStand e _ w, sendMsg_stand e _ w⟩
  · exact ⟨.refl w, fun _ => rfl, fencesStand_refl w⟩

theorem dropWatch_watchFrame (e : Block) (s : Nat) (st : Status) (w : Work) (x : Watch) : WatchFrame w (dropWatch e s st w x) :=
  ((dropMsg_frame e s st w x).1.trans (updSlice_watchFrame _ s _)).trans (writeWatchRecord_watchFrame _ e s x st _)

theorem dropWatch_stand (e : Block) (s : Nat) (st : Status) (w : Work) (x : Watch) : FencesStand w (dropWatch e s st w x) :=
  fencesStand_trans (fencesStand_trans (dropMsg_frame e s st w x).2.2 (removeWatch_stand s x.wid _)) (writeWatchRecord_stand e s x st _ _)

theorem dropWatch_watches (e : Block) (s : Nat) (st : Status) (w : Work) (x : Watch) :
    ((dropWatch e s st w x).slice s).watches = (w.slice s).watches.filter (fun y => !(y.wid == x.wid)) ∧
    ∀ k, k ≠ s → ((dropWatch e s st w x).slice k).watches = (w.slice k).watches := by
  obtain ⟨-, hmsg, -⟩ := dropMsg_frame e s st w x
  refine ⟨?_, fun k hk => ?_⟩
  · rw [dropWatch, writeWatchRecord_watchesStand, removeWatch_watches, hmsg]
  · rw [dropWatch, writeWatchRecord_watchesStand, removeWatch_other hk, hmsg]

theorem dropWatches_frame (e : Block) (s : Nat) (sel : Watch → Bool) (st : Status) (w : Work) :
    (dropWatches e s sel st w).cmds = w.cmds ∧ FencesStand w (dropWatches e s sel st w) :=
  ⟨(WatchFrame.foldl (dropWatch_watchFrame e s st) _ w).cmds, foldl_stand _ (dropWatch_stand e s st) _ w⟩

/-- The watches of one number, dropped one after another: nothing else of the watches goes. -/
theorem dropWatches_watches (e : Block) (s wid : Nat) (st : Status) (w : Work) :
    let w' := dropWatches e s (fun y => y.wid == wid) st w
    (w'.slice s).watches = (w.slice s).watches.filter (fun y => !(y.wid == wid)) ∧ ∀ k, k ≠ s → (w'.slice k).watches = (w.slice k).watches := by
  have key (l : List Watch) : ∀ v : Work, (∀ x ∈ l, x.wid = wid) →
      (l = [] ∨ ((l.foldl (dropWatch e s st) v).slice s).watches = (v.slice s).watches.filter (fun y => !(y.wid == wid))) ∧
      ∀ k, k ≠ s → ((l.foldl (dropWatch e s st) v).slice k).watches = (v.slice k).watches := by
    induction l with
    | nil => exact fun v _ => ⟨.inl rfl, fun _ _ => rfl⟩
    | cons x l ih =>
      intro v hl
      obtain ⟨hsame, hother⟩ := dropWatch_watches e s st v x
      rw [hl x (List.mem_cons_self ..)] at hsame
      obtain ⟨ihs, iho⟩ := ih (dropWatch e s st v x) fun y hy => hl y (List.mem_cons_of_mem _ hy)
      refine ⟨.inr ?_, fun k hk => by rw [List.foldl_cons, iho k hk, hother k hk]⟩
      rw [List.foldl_cons]
      rcases ihs with rfl | ihs
      · exact hsame
      · rw [ihs, hsame, List.filter_filter]
        simp only [Bool.and_self]
  obtain ⟨hs, ho⟩ := key ((w.slice s).watches.filter fun y => y.wid == wid) w (by simp)
  refine ⟨?_, ho⟩
  rcases hs with hnil | hs
  · have hnone : ∀ y ∈ (w.slice s).watches, ¬y.wid = wid := by simpa using hnil
    have hkeep : (w.slice s).watches.filter (fun y => !(y.wid == wid)) = (w.slice s).watches := by simpa using hnone
    rw [dropWatches, hnil, hkeep]
    rfl
  · exact hs

/-- A look at the end of the cycle, where there is one, leaves the slices and the commands. -/
theorem laterUnless_slice (p : Prop) [Decidable p] (w : Work) (x : Late) (k : Nat) : (if p then w else w.later x).slice k = w.slice k := by
  split <;> rfl

theorem laterUnless_frame (p : Prop) [Decidable p] (w : Work) (x : Late) :
    (if p then w else w.later x) = { w with late := if p then w.late else w.late ++ [x] } := by
  split <;> rfl

/-- The record of a watch of an ACTIVE slice that is not to be registered, or no longer is (R327). -/
theorem record_lost {w : Work} {e : Block} {x : Watch} {st : Status} {value : BitVec 64} (hact : (w.slice n).state = .active)
    (hptr : x.ptr ≠ 0) : Asks w (some n) .write (ptrDev x.ptr.toNat) (spaceAddr e (ptrDev x.ptr.toNat) (ptrAddr x.ptr.toNat)) 32
      (watchBytes x st value e.clk.beat) (.watchRecord n x.irq) (writeWatchRecord e n x st value w) := by
  rw [writeWatchRecord_active x st value hact hptr]
  exact writeFor_asks_of_length (mayIssue_active hact _) (length_watchBytes ..)

theorem writeWatchRecord_logs {w : Work} {e : Block} {x : Watch} {st : Status} {value : BitVec 64} (hact : (w.slice n).state = .active) :
    LogsOnly w (writeWatchRecord e n x st value w) ∧
    { writeWatchRecord e n x st value w with slices := w.slices, fab := w.fab } = w := by
  by_cases hptr : x.ptr = 0
  · rw [writeWatchRecord_silent x st value hptr]
    exact ⟨.of_slice fun _ => rfl, rfl⟩
  · rw [writeWatchRecord_active x st value hact hptr]
    exact ⟨writeFor_logs _ _ _ _ _ _ _, writeFor_frame _ _ _ _ _ _ _⟩

theorem writeWatchRecord_lost {w : Work} {e : Block} {x : Watch} {st : Status} {value : BitVec 64} (hact : (w.slice n).state = .active) :
    let v := writeWatchRecord e n x st value w
    (x.ptr = 0 → v.fab = w.fab) ∧
    (x.ptr ≠ 0 → Asks w (some n) .write (ptrDev x.ptr.toNat) (spaceAddr e (ptrDev x.ptr.toNat) (ptrAddr x.ptr.toNat)) 32
      (watchBytes x st value e.clk.beat) (.watchRecord n x.irq) v) ∧ LogsOnly w v ∧ { v with slices := w.slices, fab := w.fab } = w :=
  ⟨fun hptr => by rw [writeWatchRecord_silent _ _ _ hptr], record_lost hact, writeWatchRecord_logs hact⟩

/-- The record of a watch that fires as it is registered: nothing of the registration is left (R325, R327). -/
theorem record_fires {w u : Work} {e : Block} {x : Watch} {st : Status} {value : BitVec 64} (hu : { u with slices := w.slices } = w)
    (hsame : ∀ k, u.slice k = w.slice k) (hact : (w.slice n).state = .active) (hptr : x.ptr ≠ 0) :
    let v := writeWatchRecord e n x st value u
    Asks w (some n) .write (ptrDev x.ptr.toNat) (spaceAddr e (ptrDev x.ptr.toNat) (ptrAddr x.ptr.toNat)) 32
      (watchBytes x st value e.clk.beat) (.watchRecord n x.irq) v ∧
    (v.slice n).watches = (w.slice n).watches ∧ LogsOnly w v ∧ { v with slices := w.slices, fab := w.fab } = w := by
  have hactu : (u.slice n).state = .active := by rw [hsame, hact]
  obtain ⟨hlogs, hframe⟩ := writeWatchRecord_logs (e := e) (x := x) (st := st) (value := value) hactu
  have hl := (LogsOnly.of_slice hsame).trans hlogs
  refine ⟨(record_lost hactu hptr).congr (congrArg Work.fab hu :) fun k _ => by rw [hsame], hl.watches n, hl, ?_⟩
  exact (congrArg (fun v : Work => { v with slices := w.slices, fab := w.fab }) hframe).trans
    (congrArg (fun v : Work => { v with fab := w.fab }) hu)

theorem LogsOnly.endCmd {w v : Work} (h : LogsOnly w v) (id : Nat) (st : Status) : LogsOnly w (endCmd id st v) := h

/-- What a FORWARD watch or a REMOTE watch tells its chip as it is registered (R329, R330): what is sent depends on the state before. -/
theorem registerFar_sends {w : Work} (e : Block) (x : Watch) (f : Slice → Slice) :
    let fen := w.fence n x.fence
    let v := w.updSlice n f
    let v1 := sendFence e x.chip n x.target none fen.value v
    let u := if x.forward then if fen.err ≠ 0 then sendFence e x.chip n x.target (some fen.err) fen.errTop v1 else v1 else sendWatchReg e n x v
    (x.forward = true → fen.err = 0 → u.msgs = (sendFence e x.chip n x.target none fen.value w).msgs) ∧
    (x.forward = true → fen.err ≠ 0 → u.msgs = (sendFence e x.chip n x.target (some fen.err) fen.errTop
      (sendFence e x.chip n x.target none fen.value w)).msgs) ∧
    (x.forward = false → u.msgs = (sendWatchReg e n x w).msgs) ∧
    u.slices = v.slices ∧ { u with slices := w.slices, msgs := w.msgs } = w := by
  dsimp only
  have hfence : (sendFence e x.chip n x.target none (w.fence n x.fence).value (w.updSlice n f)).msgs =
    (sendFence e x.chip n x.target none (w.fence n x.fence).value w).msgs := sendMsg_msgs_congr e _ rfl rfl
  refine ⟨fun hf herr => ?_, fun hf herr => ?_, fun hf => ?_, ?_, ?_⟩
  · rw [if_pos hf, if_neg (not_not.mpr herr), hfence]
  · rw [if_pos hf, if_pos herr]
    exact sendMsg_msgs_congr e _ hfence (by simp [sendFence])
  · rw [hf]
    exact sendMsg_msgs_congr e _ rfl rfl
  · split
    · split <;> simp [sendFence]
    · simp [sendWatchReg]
  · split
    · split <;> apply Work.ext <;> simp [sendFence]
    · apply Work.ext <;> simp [sendWatchReg]

/-- Settles O5: the branches of a registration one after another, and the fold over the watches that a cancel names. -/
theorem watchCommands : Obligations.WatchCommands := by
  refine ⟨fun s c n h hr hn => ⟨?twice, ?full, fun hnew hfree => ⟨?waits, ?fires, ?far, ?lost⟩⟩,
    fun s c n h hr hn => ⟨?absent, fun hex _ => ?cancel⟩⟩
  case twice =>
    rintro hex
    refine does_just (f := watchBegin) rfl h hr ?_
    have hany : (s.core.work.slice n).watches.any (fun y => y.wid == (watchOf c).wid) = true := by simpa using hex
    simp [watchBegin, hn, hany]
  case full =>
    intro hnew hfull
    refine does_just (f := watchBegin) rfl h hr ?_
    have hany : (s.core.work.slice n).watches.any (fun y => y.wid == (watchOf c).wid) = false := by simpa using hnew
    simp [watchBegin, hn, hany, hfull]
  case waits =>
    intro hf hrem hlt
    refine does_cmd (f := watchBegin) rfl h hr ?_
    rw [watchBegin_goes _ hn hnew hfree, registerWatch_near hf hrem]
    simp only [if_neg (BitVec.not_le.mpr hlt)]
    refine ⟨?_, fun k hk => ?_, ?_, ends_of_cmds hr _ ?_, ?_⟩
    · rw [slice_endCmd, laterUnless_slice, slice_updSlice]
    · rw [slice_endCmd, laterUnless_slice, slice_updSlice_other _ _ _ _ hk]
    · rw [laterUnless_frame]
      rfl
    · rw [laterUnless_frame]
      rfl
    · rw [laterUnless_frame]
      rfl
  case fires =>
    intro hf hrem hle hptr hact
    refine does_cmd (f := watchBegin) rfl h hr ?_
    have hsame := removeWatch_registered hnew
    rw [watchBegin_goes _ hn hnew hfree, registerWatch_near hf hrem]
    simp only [if_pos hle]
    rw [fireWatch_active _ _ _ (by rw [slice_updSlice]; exact hact)]
    obtain ⟨hasks, hwatches, hlogs, hframe⟩ := record_fires (e := s.core) (x := watchOf c) (st := St.ok)
      (value := (s.core.work.fence n (watchOf c).fence).value) rfl (removeWatch_registered hnew) hact hptr
    generalize writeWatchRecord _ _ _ _ _ _ = v at hasks hwatches hlogs hframe ⊢
    refine ⟨hasks.of_fab rfl, hwatches, hlogs.endCmd _ _, ends_of_cmds hr _ (congrArg Work.cmds hframe :), ?_⟩
    exact congrArg (fun v : Work => { v with cmds := s.core.work.cmds }) hframe
  case far =>
    intro hfar hjoined hreach
    refine does_cmd (f := watchBegin) rfl h hr ?_
    rw [watchBegin_goes _ hn hnew hfree, registerWatch_far hfar hjoined hreach]
    obtain ⟨hsignal, hmark, hreg, hslices, hframe⟩ := registerFar_sends (w := s.core.work) (n := n) s.core (watchOf c)
      fun y => { y with watches := y.watches ++ [watchOf c] }
    refine ⟨?_, fun k hk => ?_, hsignal, hmark, hreg, ends_of_cmds hr _ (congrArg Work.cmds hframe :), ?_⟩
    · rw [slice_endCmd, Work.slice, hslices]
      exact slice_updSlice ..
    · rw [slice_endCmd, Work.slice, hslices]
      exact slice_updSlice_other _ _ _ _ hk
    · exact congrArg (fun v : Work => { v with cmds := s.core.work.cmds }) hframe
  case lost =>
    intro hfar hlost hact
    refine does_cmd (f := watchBegin) rfl h hr ?_
    rw [watchBegin_goes _ hn hnew hfree, registerWatch_lost hfar hlost]
    have hrec := writeWatchRecord_lost (e := s.core) (x := watchOf c) (st := St.peerLost)
      (value := if (watchOf c).remote then 0 else (s.core.work.fence n (watchOf c).fence).value) hact
    generalize writeWatchRecord _ _ _ _ _ _ = v at hrec ⊢
    obtain ⟨hsilent, hasks, hlogs, hframe⟩ := hrec
    refine ⟨hsilent, fun hptr => (hasks hptr).of_fab rfl, hlogs.watches n, hlogs.endCmd _ _,
      ends_of_cmds hr _ (congrArg Work.cmds hframe :), ?_⟩
    exact congrArg (fun v : Work => { v with cmds := s.core.work.cmds }) hframe
  case absent => exact fun hnone => does_just (f := watchEnd) rfl h hr (watchEnd_none _ hn hnone)
  case cancel =>
    refine does_cmd (f := watchEnd) rfl h hr ?_
    rw [watchEnd_some _ hn hex]
    obtain ⟨hsame, hother⟩ := dropWatches_watches s.core n (fieldAt c.bytes 52 2) St.watchCancelled s.core.work
    obtain ⟨hcmds, ⟨⟨hframe, hslices⟩, -⟩, hfences⟩ := dropWatches_frame s.core n (fun y => y.wid == fieldAt c.bytes 52 2) St.watchCancelled
      s.core.work
    generalize dropWatches _ _ _ _ _ = v at hsame hother hcmds hframe hslices hfences ⊢
    refine ⟨hsame, hother, ⟨?_, hslices⟩, hfences, ends_of_cmds hr _ hcmds⟩
    exact congrArg (fun u : Work => { u with cmds := (endCmd c.id St.ok v).cmds }) hframe

end

end Sys2Proof.Machine

end

-- Proofs about FENCE and WATCH messages (R496, R497).
section

namespace Sys2Proof.Machine

/-! ### Messages taken (R303, R330, R496, R497) -/

section

variable {w : Work} {n : Nat}

/-- The state without a message that has been taken. -/
def withoutMsg (w : Work) (x : Nat × Nat × Msg) : Work := { w with msgs := { w.msgs with inbox := w.msgs.inbox.erase x } }

theorem onMsg_some {typ : BitVec 8} {x : Nat × Nat × Msg} (h : w.msgs.inbox.find? (fun y => y.2.2.typ == typ) = some x) (f :
    Msg → Work → Work) :
    onMsg typ f w = f x.2.2 (withoutMsg w x) := by
  simp [onMsg, takeMsg, h, withoutMsg]

/-- A row that takes the first message of its type. -/
theorem does_msg {i : Instr} {s : State} {typ : BitVec 8} {f : Block → Msg → Work → Work} {x : Nat × Nat × Msg} {P : Work → Prop}
    (hx : exec i s = .next (s.onWork fun e w => onMsg typ (f e) w)) (h : s.live)
    (hfind : s.core.work.msgs.inbox.find? (fun y => y.2.2.typ == typ) = some x) (hP : P (f s.core x.2.2 (withoutMsg s.core.work x))) :
    Does i s P := does_of hx h (by rwa [onMsg_some hfind])

theorem fenceServed_iff (i : Nat) : fenceServed w n i = true ↔ (w.slice n).state ≠ .off ∧ i < (w.slice n).fenceCount := by
  simp [fenceServed]

/-- A FENCE message without the mark's bit is a signal (R496). -/
theorem fenceMsg_signals {e : Block} {m : Msg} (hon : (w.slice m.slice.toNat).state ≠ .off)
    (hi : m.field 8 2 < (w.slice m.slice.toNat).fenceCount) (hbit : (m.field 10 1).testBit 0 = false) :
    let f := w.fence m.slice.toNat (m.field 8 2)
    let v := BitVec.ofNat 64 (m.field 16 8)
    FenceBecomes w m.slice.toNat (m.field 8 2) (signalledFence f v) (decide (v ≤ f.value ∧ v ≠ BitVec.allOnes 64)) (fenceMsg e m w) := by
  have hop : fenceMsg e m w = signalFence e m.slice.toNat (m.field 8 2) (BitVec.ofNat 64 (m.field 16 8)) w := by
    simp [fenceMsg, (fenceServed_iff _).mpr ⟨hon, hi⟩, hbit]
  have hput := putFence_becomes e m.slice.toNat (m.field 8 2)
    ((w.fence m.slice.toNat (m.field 8 2)).signal (BitVec.ofNat 64 (m.field 16 8))) w
  rw [signal_fence, signal_stale] at hput
  rw [hop]
  exact hput

theorem fenceMsg_marks {e : Block} {m : Msg} (hon : (w.slice m.slice.toNat).state ≠ .off)
    (hi : m.field 8 2 < (w.slice m.slice.toNat).fenceCount) (hbit : (m.field 10 1).testBit 0 = true) : fenceMsg e m w =
      markFence m.slice.toNat (m.field 8 2) (BitVec.ofNat 16 (m.field 12 2)) (some (BitVec.ofNat 64 (m.field 16 8))) w := by
  simp [fenceMsg, (fenceServed_iff _).mpr ⟨hon, hi⟩, hbit]

theorem fenceMsg_dropped {e : Block} {m : Msg}
    (h : (w.slice m.slice.toNat).state = .off ∨ (w.slice m.slice.toNat).fenceCount ≤ m.field 8 2) : fenceMsg e m w = countDropped w := by
  have hserved : fenceServed w m.slice.toNat (m.field 8 2) = false := by
    rw [← Bool.not_eq_true, fenceServed_iff]
    rintro ⟨hon, hi⟩
    rcases h with h | h
    · exact hon h
    · omega
  simp [fenceMsg, hserved]

/-- An error mark with a target (R303). -/
theorem Fence.mark_eq (f : Fence) (st : Status) (v : BitVec 64) : f.mark st v =
    (if v ≤ f.value then f
     else if f.err = 0 then { f with err := st, errTop := v }
     else { f with errTop := BitVec.ofNat 64 (max f.errTop.toNat v.toNat) }, decide (v ≤ f.value)) := by
  have htop : (if f.errTop < v then v else f.errTop) = BitVec.ofNat 64 (max f.errTop.toNat v.toNat) := by
    by_cases h : f.errTop < v
    · rw [if_pos h, Nat.max_eq_right (Nat.le_of_lt h), BitVec.ofNat_toNat, BitVec.setWidth_eq]
    · rw [if_neg h, Nat.max_eq_left (Nat.le_of_not_lt h), BitVec.ofNat_toNat, BitVec.setWidth_eq]
  unfold Fence.mark
  by_cases hle : v ≤ f.value
  · simp [hle]
  · rw [if_neg hle, if_neg hle, htop, decide_eq_false hle]
    split <;> rfl

theorem watchRegMsg_fenced {e : Block} {m : Msg} (h : (w.slice m.slice.toNat).state = .fenced) :
    watchRegMsg e m w = sendWatchDrop e m.src.toNat m.slice.toNat (m.field 10 2) St.pasidRevoked w := by
  simp [watchRegMsg, h]

theorem watchRegMsg_full {e : Block} {m : Msg} (hact : (w.slice m.slice.toNat).state = .active)
    (hi : m.field 8 2 < (w.slice m.slice.toNat).fenceCount) (hfull : slotFree w m.slice.toNat = false) :
    watchRegMsg e m w = sendWatchNotify e m.src.toNat m.slice.toNat (m.field 10 2) St.watchFull
      (w.fence m.slice.toNat (m.field 8 2)).value w := by
  simp [watchRegMsg, hact, Slice.quiet, Nat.not_le.mpr hi, hfull]

theorem watchRegMsg_reached {e : Block} {m : Msg} (hact : (w.slice m.slice.toNat).state = .active)
    (hi : m.field 8 2 < (w.slice m.slice.toNat).fenceCount) (hfree : slotFree w m.slice.toNat = true)
    (hle : BitVec.ofNat 64 (m.field 16 8) ≤ (w.fence m.slice.toNat (m.field 8 2)).value) :
    watchRegMsg e m w = sendWatchNotify e m.src.toNat m.slice.toNat (m.field 10 2) St.ok
      (w.fence m.slice.toNat (m.field 8 2)).value w := by
  simp [watchRegMsg, hact, Slice.quiet, Nat.not_le.mpr hi, hfree, hle]

/-- A wait that its fence has not reached is kept (R330). -/
theorem watchRegMsg_waits {e : Block} {m : Msg} (hact : (w.slice m.slice.toNat).state = .active)
    (hi : m.field 8 2 < (w.slice m.slice.toNat).fenceCount) (hfree : slotFree w m.slice.toNat = true)
    (hlt : (w.fence m.slice.toNat (m.field 8 2)).value < BitVec.ofNat 64 (m.field 16 8)) :
    let n := m.slice.toNat
    let f := w.fence n (m.field 8 2)
    let w' := watchRegMsg e m w
    w'.slice n = { w.slice n with remoteWaits := (w.slice n).remoteWaits ++
      [{ src := m.src.toNat, wid := m.field 10 2, fence := m.field 8 2, value := BitVec.ofNat 64 (m.field 16 8) }] } ∧
    (∀ k, k ≠ n → w'.slice k = w.slice k) ∧
    w'.late = (if f.err = 0 then w.late else w.late ++ [.resolve n (m.field 8 2)]) ∧ { w' with slices := w.slices, late := w.late } = w := by
  have hop : watchRegMsg e m w =
      let v := w.updSlice m.slice.toNat fun x => { x with remoteWaits := x.remoteWaits ++
        [{ src := m.src.toNat, wid := m.field 10 2, fence := m.field 8 2, value := BitVec.ofNat 64 (m.field 16 8) }] }
      if (w.fence m.slice.toNat (m.field 8 2)).err = 0 then v else v.later (.resolve m.slice.toNat (m.field 8 2)) := by
    simp [watchRegMsg, hact, Slice.quiet, Nat.not_le.mpr hi, hfree, BitVec.not_le.mpr hlt]
  dsimp only
  rw [hop]
  refine ⟨?_, fun k hk => ?_, ?_, ?_⟩
  · rw [laterUnless_slice, slice_updSlice]
  · rw [laterUnless_slice, slice_updSlice_other _ _ _ _ hk]
  · rw [laterUnless_frame]
    rfl
  · rw [laterUnless_frame]
    rfl

/-- What is done with a watch of an ACTIVE slice that fires: its record is written, and it is gone (R326, R327). -/
theorem fireWatch_record {e : Block} {x : Watch} {st : Status} {value : BitVec 64} (hact : (w.slice n).state = .active) (hptr : x.ptr ≠ 0) :
    let w' := fireWatch e n x st value w
    Asks w (some n) .write (ptrDev x.ptr.toNat) (spaceAddr e (ptrDev x.ptr.toNat) (ptrAddr x.ptr.toNat)) 32
      (watchBytes x st value e.clk.beat) (.watchRecord n x.irq) w' ∧
    (w'.slice n).watches = (w.slice n).watches.filter (fun z => !(z.wid == x.wid)) ∧
    (∀ k, k ≠ n → (w'.slice k).watches = (w.slice k).watches) ∧ { w' with slices := w.slices, fab := w.fab } = w := by
  have hactu : ((removeWatch n x.wid w).slice n).state = .active := by rw [removeWatch_state, hact]
  obtain ⟨hlogs, hframe⟩ := writeWatchRecord_logs (e := e) (x := x) (st := st) (value := value) hactu
  have hasks := record_lost (e := e) (st := st) (value := value) hactu hptr
  dsimp only
  rw [fireWatch_active _ _ _ hact]
  generalize writeWatchRecord _ _ _ _ _ _ = v at hlogs hframe hasks ⊢
  refine ⟨hasks.congr rfl fun k _ => removeWatch_pasid .., ?_, fun k hk => ?_, ?_⟩
  · rw [hlogs.watches, removeWatch_watches]
  · rw [hlogs.watches, removeWatch_other hk]
  · exact congrArg (fun v : Work => { v with slices := w.slices }) hframe

/-- A WATCH_NOTIFY ends the REMOTE watch that it names (R330). -/
theorem watchNotifyMsg_ends {e : Block} {m : Msg} {y : Watch} (h : remoteWatch w m.slice.toNat (m.field 8 2) m.src.toNat = some y)
    (hact : (w.slice m.slice.toNat).state = .active) (hptr : y.ptr ≠ 0) :
    let n := m.slice.toNat
    let w' := watchNotifyMsg e m w
    Asks w (some n) .write (ptrDev y.ptr.toNat) (spaceAddr e (ptrDev y.ptr.toNat) (ptrAddr y.ptr.toNat)) 32
      (watchBytes y (BitVec.ofNat 16 (m.field 10 2)) (BitVec.ofNat 64 (m.field 16 8)) e.clk.beat) (.watchRecord n y.irq) w' ∧
    (w'.slice n).watches = (w.slice n).watches.filter (fun z => !(z.wid == y.wid)) ∧
    (∀ k, k ≠ n → (w'.slice k).watches = (w.slice k).watches) ∧ { w' with slices := w.slices, fab := w.fab } = w := by
  have hop : watchNotifyMsg e m w = fireWatch e m.slice.toNat y (BitVec.ofNat 16 (m.field 10 2)) (BitVec.ofNat 64 (m.field 16 8)) w := by
    simp [watchNotifyMsg, h]
  rw [hop]
  exact fireWatch_record hact hptr

/-- A WATCH_DROP takes out the waits that its sender registered under a number (R497). -/
theorem watchDropMsg_drops {e : Block} {m : Msg} {r : RemoteWait} (hr : r ∈ (w.slice m.slice.toNat).remoteWaits)
    (hsrc : r.src = m.src.toNat) (hwid : r.wid = m.field 8 2) :
    let n := m.slice.toNat
    let w' := watchDropMsg e m w
    (w'.slice n).remoteWaits = (w.slice n).remoteWaits.filter (fun z => !(z.src == m.src.toNat && z.wid == m.field 8 2)) ∧
    { w'.slice n with remoteWaits := (w.slice n).remoteWaits } = w.slice n ∧ (∀ k, k ≠ n → w'.slice k = w.slice k) ∧
    { w' with slices := w.slices } = w := by
  have hany : (w.slice m.slice.toNat).remoteWaits.any (fun x => x.src == m.src.toNat && x.wid == m.field 8 2) = true := by
    rw [List.any_eq_true]
    exact ⟨r, hr, by simp [hsrc, hwid]⟩
  dsimp only
  rw [watchDropMsg, if_pos hany]
  refine ⟨?_, ?_, fun k hk => slice_updSlice_other _ _ _ _ hk, rfl⟩
  · rw [slice_updSlice]
  · rw [slice_updSlice]

/-- Settles O6: each message is taken from the queue of those that arrived, and its own operation follows. -/
theorem fenceAndWatchMessages : Obligations.FenceAndWatchMessages := by
  refine ⟨fun s x h hx => ⟨fun hon hi hbit => ?signal, fun hon hi hbit => ?mark, fun hdrop => ?dropped⟩, fun b n i st v => ?decided,
    fun s x h hx => ⟨fun hfenced => ?fenced, fun hact hi => ⟨fun hfull => ?full, fun hfree hle => ?reached, fun hfree hlt => ?waits⟩⟩,
    fun s x y h hx hy hact hptr => ?notify, fun s x r h hx hr hsrc hwid => ?drop⟩
  case signal => exact does_msg (f := fenceMsg) rfl h hx (fenceMsg_signals hon hi hbit)
  case mark => exact does_msg (f := fenceMsg) rfl h hx (fenceMsg_marks hon hi hbit)
  case dropped => exact does_msg (f := fenceMsg) rfl h hx (fenceMsg_dropped hdrop)
  case decided =>
    refine ⟨applyMark b n i st (some v) b.work, ?_, rfl⟩
    have hmark := (applyMark_becomes b n i st (some v) b.work).1
    simp only [Option.getD_some, Fence.mark_eq] at hmark
    exact hmark
  case fenced => exact does_msg (f := watchRegMsg) rfl h hx (watchRegMsg_fenced hfenced)
  case full => exact does_msg (f := watchRegMsg) rfl h hx (watchRegMsg_full hact hi hfull)
  case reached => exact does_msg (f := watchRegMsg) rfl h hx (watchRegMsg_reached hact hi hfree hle)
  case waits => exact does_msg (f := watchRegMsg) rfl h hx (watchRegMsg_waits hact hi hfree hlt)
  case notify => exact does_msg (f := watchNotifyMsg) rfl h hx (watchNotifyMsg_ends hy hact hptr)
  case drop => exact does_msg (f := watchDropMsg) rfl h hx (watchDropMsg_drops hr hsrc hwid)

end

end Sys2Proof.Machine

end

-- Proofs about folds, tables and rows that leave the shared state.
section

namespace Sys2Proof.Machine

/-- A row whose operation leaves the shared state leaves it. -/
theorem leaves_of {i : Instr} {s : State} {f : Block → Work → Work} (hx : exec i s = .next (s.onWork f)) (h : s.live)
    (hf : f s.core s.core.work = s.core.work) : Leaves i s := by
  rw [Leaves, hx, onWork_live s f h, hf]

/-- A row that leaves its effect for the end of the control cycle. -/
theorem defers_of {i : Instr} {s : State} {x : Late} {f : Block → Work → Work} (hx : exec i s = .next (s.onWork f)) (h : s.live)
    (hf : f s.core s.core.work = s.core.work.later x) : Defers i s x := does_of hx h hf

/-! ### Requests of the physical function -/

/-- What the physical function writes marks no dirty log (R599). -/
@[simp] theorem writeFor_function_slices (e : Block) (dev : Bool) (a : Nat) (data : List Byte) (why : Purpose) (w : Work) :
    (writeFor e none dev a data why w).slices = w.slices := by
  unfold writeFor issue issueRaw markSent markDirty
  simp only [mayIssue, if_true]
  split <;> rfl

/-- Only the table of slices decides what a slice is, and only that of queues what a queue is. -/
theorem slice_congr {w v : Work} (h : v.slices = w.slices) (n : Nat) : v.slice n = w.slice n := by rw [Work.slice, h, Work.slice]

theorem queue_congr {w v : Work} (h : v.queues = w.queues) (k : Nat) : v.queue k = w.queue k := by rw [Work.queue, h, Work.queue]

@[simp] theorem slice_updQueue (w : Work) (k : Nat) (f : Queue → Queue) (n : Nat) : (w.updQueue k f).slice n = w.slice n := rfl

@[simp] theorem queue_updSlice (w : Work) (s : Nat) (f : Slice → Slice) (k : Nat) : (w.updSlice s f).queue k = w.queue k := rfl

@[simp] theorem queue_updCmd (w : Work) (id : Nat) (f : Cmd → Cmd) (k : Nat) : (w.updCmd id f).queue k = w.queue k := rfl

@[simp] theorem slice_dropReq (w : Work) (t n : Nat) : (w.dropReq t).slice n = w.slice n := rfl

@[simp] theorem queue_dropReq (w : Work) (t k : Nat) : (w.dropReq t).queue k = w.queue k := rfl

/-- Everything that a write which may be issued does. -/
theorem writeFor_issues {e : Block} {v : Work} {s : Option Nat} {dev : Bool} {a n : Nat} {data : List Byte} {why : Purpose}
    (h : mayIssue v s dev = true) (hn : data.length = n) :
    let w' := writeFor e s dev a data why v
    Asks v s .write dev (spaceAddr e dev a) n data why w' ∧ LogsOnly v w' ∧ { w' with fab := v.fab, slices := v.slices } = v :=
  ⟨writeFor_asks_of_length h hn, writeFor_logs e s dev a data why v, writeFor_frame e s dev a data why v⟩

/-- Everything that a read which may be issued does. -/
theorem readFor_issues {e : Block} {v : Work} {s : Option Nat} {dev : Bool} {a len : Nat} {why : Purpose} (h : mayIssue v s dev = true) :
    let w' := readFor e s dev a len why v
    Asks v s .read dev (spaceAddr e dev a) len [] why w' ∧ { w' with fab := v.fab } = v :=
  ⟨readFor_asks h, readFor_frame e s dev a len why v⟩

/-! ### Folds and tables -/

/-- What every step of a fold keeps, the fold keeps. -/
theorem foldl_keeps {α β γ : Type} {f : β → α → β} (g : β → γ) (h : ∀ b x, g (f b x) = g b) (l : List α) (b : β) : g (l.foldl f b) = g b := by
  induction l generalizing b with
  | nil => rfl
  | cons x l ih => rw [List.foldl_cons, ih, h]

/-- A row of a table in canonical form is what its number reads. -/
theorem tblGet_of_mem {α : Type} [DecidableEq α] {d x : α} {t : Tbl α} {k : Nat} (hwf : tblWf d t = true) (h : (k, x) ∈ t) : tblGet d t k = x := by
  induction t with
  | nil => exact absurd h (List.not_mem_nil)
  | cons p t ih =>
    obtain ⟨i, y⟩ := p
    obtain ⟨-, habove, ht⟩ := (tblWf_cons d i y t).mp hwf
    rcases List.mem_cons.mp h with heq | hmem
    · obtain ⟨rfl, rfl⟩ := Prod.mk.injEq .. ▸ heq
      exact if_pos rfl
    · rw [tblGet, if_neg (Nat.ne_of_lt (habove _ hmem)), ih ht hmem]

/-- A number whose rows were all taken out of a table reads as the default. -/
theorem tblGet_filter_none {α : Type} (d : α) {p : Nat × α → Bool} {k : Nat} (h : ∀ x, p (k, x) = false) (t : Tbl α) :
    tblGet d (t.filter p) k = d := by
  induction t with
  | nil => rfl
  | cons q t ih =>
    obtain ⟨i, x⟩ := q
    rw [List.filter_cons]
    split
    next hp =>
      have hne : i ≠ k := fun hik => Bool.false_ne_true (h x ▸ hik ▸ hp)
      rw [tblGet, if_neg hne, ih]
    next => exact ih

end Sys2Proof.Machine

end

-- Proofs about state capture (R583 to R595).
section

namespace Sys2Proof.Machine

/-! ### State capture (R583 to R587, R595) -/

section

variable {w : Work} {c : Cmd}

theorem captureSetOp_idle (hbusy : w.cap.busy = none) (hwait : w.cap.waiting = []) :
    captureSetOp c w = endCmd c.id St.ok (w.updCap fun k => { k with
      buf := BitVec.ofNat 64 (ptrAddr (fieldAt c.bytes 24 8)), records := fieldAt c.bytes 32 2,
      irq := (fieldAt c.bytes 34 1).testBit 0, head := 0, tail := 0 }) := by
  simp [captureSetOp, hbusy, hwait]

theorem captureSetOp_inProgress (h : w.cap.busy ≠ none ∨ w.cap.waiting ≠ []) : captureSetOp c w = endCmd c.id St.stateReject w := by
  have hyes : (w.cap.busy.isSome || !w.cap.waiting.isEmpty) = true := by
    rcases h with h | h
    · simp [Option.isSome_iff_ne_none.mpr h]
    · simp [h]
  simp [captureSetOp, hyes]

/-- A snapshot for which capture has room goes out but for its last byte (R585, R587). -/
theorem snapshotDone_writes {e : Block} {x : Snap} (hbusy : w.cap.busy = some x) (hwritten : w.cap.written = false) (hopen :
    w.cap.open = true) :
    snapshotDone e w = writeFor e none false (capAddr w.cap) (capRecord x) .capture (w.updCap fun k => { k with written := true }) := by
  simp [snapshotDone, hbusy, hwritten, hopen]

theorem captureLate_waiting {x : WaitingEvent} {rest : List WaitingEvent} (hwait : w.cap.waiting = x :: rest) (hreset :
    w.cap.blockReset = false) :
    captureLate w = { w with cap := { w.cap with waiting := rest, dropped := satInc w.cap.dropped } } := by
  simp [captureLate, hwait, hreset, Work.updCap]

/-- Settles O17: each operation on the capture buffer, by the case of its own test. -/
theorem captureCommands : Obligations.CaptureCommands := by
  refine ⟨⟨fun s c h hr => ⟨fun hbusy hwait => ?set, fun hprog => ?reject⟩, fun s v h => ⟨fun hle => ?head, fun hlt => ?past⟩⟩,
    fun s x h hbusy hwritten hopen => ?snapshot, fun s x rest h hwait hreset => ?timeout⟩
  case set =>
    refine does_cmd (f := fun _ => captureSetOp) rfl h hr ?_
    rw [captureSetOp_idle hbusy hwait]
    exact ⟨rfl, ends_of_cmds hr _ rfl, rfl⟩
  case reject => exact does_just (f := fun _ => captureSetOp) rfl h hr (captureSetOp_inProgress hprog)
  case head =>
    refine does_of (f := fun _ w => capHead v w) rfl h ?_
    rw [capHead, Work.updCap, if_pos hle]
  case past =>
    refine does_of (f := fun _ w => capHead v w) rfl h ?_
    rw [capHead, Work.updCap, if_neg (BitVec.not_le.mpr hlt)]
  case snapshot =>
    refine does_of (f := snapshotDone) rfl h ?_
    rw [snapshotDone_writes hbusy hwritten hopen]
    refine ⟨writeFor_asks (mayIssue_open (s := none) (by simp) false), ?_, ?_⟩
    · simp [Work.updCap]
    · apply Work.ext <;> simp [Work.updCap]
  case timeout => exact does_of (f := fun _ w => captureLate w) rfl h (captureLate_waiting hwait hreset)

end

end Sys2Proof.Machine

end

-- Proofs about SLICE_ENABLE, SLICE_DISABLE and the end of a drain (R117, R118).
section

namespace Sys2Proof.Machine

/-! ### A slice that enters OFF (R118) -/

section

variable {e : Block} {w : Work} {n : Nat}

theorem freeSlot_cmds (k : Nat) (w : Work) : (freeSlot k w).cmds = w.cmds := by
  unfold freeSlot
  dsimp only
  split <;> split <;> rfl

theorem freeSlot_queues (k : Nat) (w : Work) : (freeSlot k w).queues = w.queues := by
  unfold freeSlot
  dsimp only
  split <;> split <;> rfl

/-- What a slice that enters OFF leaves of the commands and of the queues: none of its own, whatever was done with them before. -/
theorem sliceOff_leaves (e : Block) (n : Nat) (w : Work) :
    ∃ v : Work, (sliceOff e n w).cmds = v.cmds.filter (fun c => !(c.slice == some n)) ∧
      (sliceOff e n w).queues = v.queues.filter fun p => !(sliceOf p.1 == some n) := by
  refine ⟨reclaimAll e n ((w.cmds.filter fun c => c.slice == some n).foldl (fun w c => stopWork c.id .teardown w) w), ?_, ?_⟩
  · simp only [sliceOff, Work.updSlice, Work.updCap, Work.updFab]
    rw [foldl_keeps Work.cmds fun w x => by simp [sendWatchDrop]]
    dsimp only
    rw [foldl_keeps Work.cmds fun w x => freeSlot_cmds _ w]
  · simp only [sliceOff, Work.updSlice, Work.updCap, Work.updFab]
    rw [foldl_keeps Work.queues fun w x => by simp [sendWatchDrop]]
    dsimp only
    rw [foldl_keeps Work.queues fun w x => freeSlot_queues _ w]

/-- Nothing of a slice's commands stays once it is OFF. -/
theorem sliceOff_cmds (e : Block) (n : Nat) (w : Work) : ∀ c ∈ (sliceOff e n w).cmds, c.slice ≠ some n := by
  obtain ⟨v, hcmds, -⟩ := sliceOff_leaves e n w
  rw [hcmds]
  simp

theorem sliceOf_own {k : Nat} (hn : n < 64) (hk : k < 64) : sliceOf (64 * n + k) = some n := by
  rw [sliceOf, if_pos (by simp only [adminKey]; omega)]
  congr 1
  omega

/-- A slice that is OFF has no queues. -/
theorem sliceOff_queue {k : Nat} (e : Block) (w : Work) (hn : n < 64) (hk : k < 64) : (sliceOff e n w).queue (64 * n + k) = {} := by
  obtain ⟨v, -, hqueues⟩ := sliceOff_leaves e n w
  rw [Work.queue, hqueues]
  exact tblGet_filter_none _ (by simp [sliceOf_own hn hk]) _

theorem sliceOff_slice (e : Block) (n : Nat) (w : Work) :
    let x := (sliceOff e n w).slice n
    x.state = .off ∧ x.fences = [] ∧ x.sems = [] ∧ x.watches = [] ∧ x.graphs = [] := by
  dsimp only [sliceOff]
  rw [slice_updSlice]
  exact ⟨rfl, rfl, rfl, rfl, rfl⟩

/-- A slice that enters OFF: what is gone of it. -/
theorem sliceOff_gone (e : Block) (w : Work) (hn : n < 64) :
    ((sliceOff e n w).slice n).state = .off ∧ (∀ c ∈ (sliceOff e n w).cmds, c.slice ≠ some n) ∧
    ∀ k, k < 64 → (sliceOff e n w).queue (64 * n + k) = {} :=
  ⟨(sliceOff_slice e n w).1, sliceOff_cmds e n w, fun _ hk => sliceOff_queue e w hn hk⟩

/-! ### ENABLE and DISABLE (R117, R118) -/

theorem tablesUp_slices (e : Block) (w : Work) : (tablesUp e w).slices = w.slices := by
  unfold tablesUp streamsUp
  split
  · rfl
  · split <;> rfl

theorem tablesUp_up (e : Block) (w : Work) : (tablesUp e w).tableUp = true := by
  unfold tablesUp
  split
  · assumption
  · rfl

theorem pasidFree_of (hwf : tblWf {} w.slices = true)
    (h : ∀ k, k ≠ n → (w.slice k).state ≠ .off → (w.slice k).pasid ≠ (w.slice n).pasid) : pasidFree w n = true := by
  rw [pasidFree, List.all_eq_true]
  rintro ⟨k, x⟩ hmem
  have hx : w.slice k = x := tblGet_of_mem hwf hmem
  by_cases hk : k = n
  · simp [hk]
  · have hpasid := h k hk
    rw [hx] at hpasid
    by_cases hoff : x.state = .off
    · simp [hoff]
    · simp [hpasid hoff]

theorem pasidFree_bound {k : Nat} (hk : k ≠ n) (hon : (w.slice k).state ≠ .off) (hpasid : (w.slice k).pasid = (w.slice n).pasid)
    (hmem : (k, w.slice k) ∈ w.slices) : pasidFree w n = false := by
  rw [pasidFree, List.all_eq_false]
  exact ⟨_, hmem, by simp [hk, hon, hpasid]⟩

theorem enableSlice_goes (hoff : (w.slice n).state = .off) (hlog : (w.slice n).ctxLog2.toNat ≤ 12) (hfree : pasidFree w n = true) :
    enableSlice e n w = ctlStatus n St.ok ((sliceOn e n w).later (.leftOff n)) := by
  simp [enableSlice, hoff, hlog, hfree]

theorem enableSlice_refused (h : (w.slice n).state ≠ .off ∨ 12 < (w.slice n).ctxLog2.toNat ∨ pasidFree w n = false) :
    enableSlice e n w = ctlStatus n St.stateReject w := by
  rcases h with h | h | h
  · simp [enableSlice, h]
  · simp [enableSlice, Nat.not_le.mpr h]
  · simp [enableSlice, h]

theorem ctlStatus_slice (n : Nat) (st : Status) (w : Work) :
    (ctlStatus n st w).slice n = { w.slice n with ctlStatus := st } := slice_updSlice ..

theorem ctlStatus_other {k : Nat} (hk : k ≠ n) (st : Status) (w : Work) : (ctlStatus n st w).slice k = w.slice k :=
  slice_updSlice_other _ _ _ _ hk

/-- A refused write of SLC_CTL leaves its status alone. -/
theorem ctlStatus_only (n : Nat) (st : Status) (w : Work) :
    (ctlStatus n st w).slice n = { w.slice n with ctlStatus := st } ∧ (∀ k, k ≠ n → (ctlStatus n st w).slice k = w.slice k) ∧
    { ctlStatus n st w with slices := w.slices } = w := ⟨ctlStatus_slice n st w, fun _ hk => ctlStatus_other hk st w, rfl⟩

theorem sliceOn_slice (e : Block) (n : Nat) (w : Work) : (sliceOn e n w).slice n =
    { w.slice n with
      state := .active, freeIdx := sliceIndices e.dct n, fenceCount := e.dct.fenceCount n, semCount := e.dct.semCount n, stale := 0,
      watchCount := e.dct.watchCount n, fences := [], sems := [], watches := [], remoteWaits := [], graphs := [], ctxs := [],
      lvlCmd := (e.dct.cmdLimit n : Int), lvlPlaner := (e.dct.planerLimit n : Int), lvlMem := (e.dct.memLimit n : Int),
      maxPrio := e.dct.maxPriority n, deficit := 0, used := 0, quiescent := false, offDue := false, applied := 0 } := by
  have hup : (tablesUp e w).slice n = w.slice n := by rw [Work.slice, tablesUp_slices]; rfl
  rw [sliceOn, slice_updSlice, hup]

theorem sliceOn_other {k : Nat} (hk : k ≠ n) (e : Block) (w : Work) : (sliceOn e n w).slice k = w.slice k := by
  rw [sliceOn, slice_updSlice_other _ _ _ _ hk, Work.slice, tablesUp_slices]
  rfl

theorem sliceIndices_eq (d : Dict) (n : Nat) :
    sliceIndices d n = ((List.range (d.objCount n)).map (d.objFirst n + ·)).filter (· ≠ 0) := by
  simp only [ne_eq, decide_not]
  rfl

theorem endPartBase_frame (st : Status) (c : Cmd) (w : Work) :
    { endPartBase st c w with queues := w.queues, cmds := w.cmds } = w := rfl

/-- The ends of bases that lack extension entries change commands and queues alone. -/
theorem rejectPartBases_frame (sel : Cmd → Bool) (w : Work) :
    (rejectPartBases sel w).slices = w.slices ∧ { rejectPartBases sel w with queues := w.queues, cmds := w.cmds } = w := by
  unfold rejectPartBases
  have hframe := foldl_keeps (f := fun w c => endPartBase St.stateReject c w)
    (fun v : Work => { v with queues := w.queues, cmds := w.cmds }) (fun _ _ => rfl)
    (w.cmds.filter fun c => c.phase == .partBase && c.endStatus.isNone && sel c) w
  exact ⟨(congrArg Work.slices hframe :), hframe⟩

theorem disableSlice_active (h : (w.slice n).state = .active) : disableSlice e n w =
    ctlStatus n St.ok (rejectPartBases (fun c => c.slice == some n) (w.updSlice n fun x => { x with state := .draining })) := by
  simp [disableSlice, h]

theorem disableSlice_fenced (h : (w.slice n).state = .fenced) : disableSlice e n w = ctlStatus n St.ok (sliceOff e n w) := by
  simp [disableSlice, h]

theorem disableSlice_frozen (h : (w.slice n).state = .frozen) (hsaving : saving w n = false) :
    disableSlice e n w = sliceOff e n (leaveSlots e n (ctlStatus n St.ok w)) := by
  have hs : ¬saving (ctlStatus n St.ok w) n = true := ne_true_of_eq_false hsaving
  rw [disableSlice, h]
  exact if_neg hs

theorem disableSlice_refused (h : (w.slice n).state = .off ∨ (w.slice n).state = .draining) :
    disableSlice e n w = ctlStatus n St.stateReject w := by
  rcases h with h | h <;> simp [disableSlice, h]

theorem leaveSlots_none (h : ∀ p ∈ w.slots, p.2.slice ≠ n ∨ p.2.state = .free) : leaveSlots e n w = w := by
  have hnone : w.slots.filter (fun p => p.2.slice == n && p.2.state != .free) = [] := by
    rw [List.filter_eq_nil_iff]
    intro p hp
    rcases h p hp with h | h <;> simp [h]
  rw [leaveSlots, hnone]
  rfl

/-- Settles O18: ENABLE and DISABLE by the state of the slice; what a slice leaves at OFF is `sliceOff`'s. -/
theorem sliceControl : Obligations.SliceControl := by
  refine ⟨fun s n h hn => ⟨fun hoff hlog hpasid hwf => ?enable, fun hbad => ?enableRefused⟩,
    fun s n h hn => ⟨fun hact => ?drain, fun hfenced => ?fenced, fun hfrozen hsaving => ?frozen, fun hoff => ?disableRefused,
      fun hdrained hslots hbusy => ?drained, fun hnot => ?waits⟩⟩
  case enable =>
    refine does_of (f := fun e w => if n < 64 then enableSlice e n w else w) rfl h ?_
    rw [if_pos hn, enableSlice_goes hoff hlog (pasidFree_of hwf hpasid), ctlStatus_slice]
    have hslice : ((sliceOn s.core n s.core.work).later (.leftOff n)).slice n = _ := sliceOn_slice s.core n s.core.work
    rw [hslice]
    refine ⟨rfl, rfl, rfl, rfl, rfl, rfl, rfl, rfl, rfl, rfl, sliceIndices_eq .., tablesUp_up .., fun k hk => ?_⟩
    rw [ctlStatus_other hk]
    exact sliceOn_other hk ..
  case enableRefused =>
    refine does_of (f := fun e w => if n < 64 then enableSlice e n w else w) rfl h ?_
    rw [if_pos hn, enableSlice_refused]
    · exact ctlStatus_only ..
    · rcases hbad with hon | hlog | ⟨k, hk, hon, hsame, hmem⟩
      · exact .inl hon
      · exact .inr (.inl hlog)
      · exact .inr (.inr (pasidFree_bound hk hon hsame hmem))
  case drain =>
    refine does_of (f := fun e w => if n < 64 then disableSlice e n w else w) rfl h ?_
    obtain ⟨hslices, hframe⟩ := rejectPartBases_frame (fun c => c.slice == some n) (s.core.work.updSlice n fun x => { x with state := .draining })
    rw [if_pos hn, disableSlice_active hact, ctlStatus_slice]
    generalize rejectPartBases _ _ = v at hslices hframe ⊢
    have hown : v.slice n = { s.core.work.slice n with state := .draining } := by
      rw [Work.slice, hslices]
      exact slice_updSlice ..
    rw [hown]
    refine ⟨rfl, rfl, fun k hk => ?_, ?_⟩
    · rw [ctlStatus_other hk, Work.slice, hslices]
      exact slice_updSlice_other _ _ _ _ hk
    · exact congrArg (fun u : Work => { u with slices := s.core.work.slices }) hframe
  case fenced =>
    refine does_of (f := fun e w => if n < 64 then disableSlice e n w else w) rfl h ?_
    have hgone := sliceOff_gone s.core s.core.work hn
    rw [if_pos hn, disableSlice_fenced hfenced, ctlStatus_slice]
    generalize sliceOff s.core n s.core.work = v at hgone ⊢
    exact hgone
  case frozen =>
    refine does_of (f := fun e w => if n < 64 then disableSlice e n w else w) rfl h ?_
    rw [if_pos hn, disableSlice_frozen hfrozen hsaving]
    exact sliceOff_gone s.core _ hn
  case disableRefused =>
    refine does_of (f := fun e w => if n < 64 then disableSlice e n w else w) rfl h ?_
    rw [if_pos hn, disableSlice_refused hoff]
    exact ctlStatus_only ..
  case drained =>
    refine does_of (f := drainSlice (s := n)) rfl h ?_
    have hop : drainSlice s.core n s.core.work = sliceOff s.core n s.core.work := by
      simp [drainSlice, hdrained, leaveSlots_none hslots, hbusy]
    rw [hop]
    obtain ⟨hstate, hfences, hsems, hwatches, hgraphs⟩ := sliceOff_slice s.core n s.core.work
    exact ⟨hstate, hfences, hsems, hwatches, hgraphs, fun k hk => sliceOff_queue s.core s.core.work hn hk⟩
  case waits => exact leaves_of (f := drainSlice (s := n)) rfl h (by simp [drainSlice, hnot])

end

end Sys2Proof.Machine

end

-- Proofs about causes of queues and doorbells (R133 to R135).
section

namespace Sys2Proof.Machine

/-! ### Causes and pending bits of a queue (R133, R146, R706) -/

section

variable {w : Work} {k n : Nat}

/-- A change of one slice with the bits it sets, and an interrupt unless the bit was set before. -/
theorem sets_raise (f : Slice → Slice) (r : W1c) (bits : BitVec 64) (was : Bool) (v : Nat) (w : Work) :
    let u := (w.updSlice n f).sets r bits
    let w' := if was then u else u.raise v
    w'.slice n = f (w.slice n) ∧ (∀ m, m ≠ n → w'.slice m = w.slice m) ∧ (w'.fab = if was then w.fab else w.fab.raise v) ∧
    { w' with slices := w.slices, fab := w.fab, setNow := w.setNow } = w := by
  cases was
  · exact ⟨slice_updSlice .., fun m hm => slice_updSlice_other _ _ _ _ hm, rfl, rfl⟩
  · exact ⟨slice_updSlice .., fun m hm => slice_updSlice_other _ _ _ _ hm, rfl, rfl⟩

/-- A cause of a slice: the cause and LAST_STATUS, and the error vector where the cause is new. -/
theorem setCause_slice (n : Nat) (c : Cause) (st : Status) (w : Work) :
    let w' := setCause n c st w
    w'.slice n = { w.slice n with cause := setBit (w.slice n).cause c.bit, lastStatus := st } ∧ (∀ m, m ≠ n → w'.slice m = w.slice m) ∧
    (w'.fab = if (w.slice n).cause.getLsbD c.bit then w.fab else w.fab.raise (vecError n)) ∧
    { w' with slices := w.slices, fab := w.fab, setNow := w.setNow } = w := sets_raise ..

/-- A cause of a slice's queue: ERRQ of its slice besides. -/
theorem queueCause_slice (hk : sliceOf k = some n) (c : Cause) (st : Status) (w : Work) :
    let w' := queueCause k c st w
    w'.slice n = { w.slice n with
      cause := setBit (w.slice n).cause c.bit, lastStatus := st, errq := setBit (w.slice n).errq (k % 64) } ∧
    (∀ m, m ≠ n → w'.slice m = w.slice m) ∧
    (w'.fab = if (w.slice n).cause.getLsbD c.bit then w.fab else w.fab.raise (vecError n)) ∧
    { w' with slices := w.slices, fab := w.fab, setNow := w.setNow } = w := by
  let f (x : Slice) : Slice := { x with errq := setBit x.errq (k % 64) }
  let v := (w.updSlice n f).sets (.errq n) (setBit 0 (k % 64))
  have hv : v.slice n = f (w.slice n) := slice_updSlice n f (w := w)
  have hother (m : Nat) (hm : m ≠ n) : v.slice m = w.slice m := slice_updSlice_other n m f hm (w := w)
  have hop : queueCause k c st w = setCause n c st v := by rw [queueCause, hk]
  obtain ⟨hslice, hslices, hfab, hframe⟩ := setCause_slice n c st v
  dsimp only
  rw [hop]
  refine ⟨by rw [hslice, hv], fun m hm => by rw [hslices m hm, hother m hm], by rw [hfab, hv]; rfl, ?_⟩
  exact congrArg (fun u : Work => { u with slices := w.slices, setNow := w.setNow }) hframe

/-- A pending bit of a slice's queue, and the completion vector where the bit is new. -/
theorem raisePend_slice (hk : sliceOf k = some n) (w : Work) :
    let w' := raisePend k w
    w'.slice n = { w.slice n with cqPend := setBit (w.slice n).cqPend (k % 64) } ∧ (∀ m, m ≠ n → w'.slice m = w.slice m) ∧
    (w'.fab = if (w.slice n).cqPend.getLsbD (k % 64) then w.fab else w.fab.raise (vecCompletion n)) ∧
    { w' with slices := w.slices, fab := w.fab, setNow := w.setNow } = w := by
  have hop : raisePend k w =
      let u := (w.updSlice n fun x => { x with cqPend := setBit x.cqPend (k % 64) }).sets (.cqPend n) (setBit 0 (k % 64))
      if (w.slice n).cqPend.getLsbD (k % 64) then u else u.raise (vecCompletion n) := by rw [raisePend, hk]
  dsimp only
  rw [hop]
  exact sets_raise ..

/-- A cause of the admin queue (R706). -/
theorem queueCause_admin (hk : sliceOf k = none) (c : Cause) (st : Status) (w : Work) :
    let w' := queueCause k c st w
    w'.admin = { w.admin with causes := setBit w.admin.causes c.bit, lastStatus := st } ∧
    (w'.fab = if w.admin.causes.getLsbD c.bit then w.fab else w.fab.raise (vecAdmin 1)) ∧
    { w' with admin := w.admin, fab := w.fab, setNow := w.setNow } = w := by
  have hop : queueCause k c st w = setAdminCause c st w := by rw [queueCause, hk]
  dsimp only
  rw [hop, setAdminCause]
  dsimp only
  split <;> exact ⟨rfl, rfl, rfl⟩

/-! ### Doorbells (R133 to R135, R216) -/

/-- What a refused doorbell does (R134): it is counted, and raises DOORBELL_RANGE. -/
def Refuses (w : Work) (k : Nat) (w' : Work) : Prop :=
  w'.queue k = { w.queue k with dbRefused := satInc (w.queue k).dbRefused } ∧ (∀ m, m ≠ k → w'.queue m = w.queue m) ∧
  (∀ n, sliceOf k = some n →
    (w'.slice n).cause = setBit (w.slice n).cause 1 ∧ (w'.slice n).lastStatus = St.doorbellRange ∧
    (w'.slice n).errq = setBit (w.slice n).errq (k % 64) ∧
    { w'.slice n with cause := (w.slice n).cause, lastStatus := (w.slice n).lastStatus, errq := (w.slice n).errq } = w.slice n ∧
    (∀ m, m ≠ n → w'.slice m = w.slice m) ∧ w'.admin = w.admin ∧
    w'.fab = if (w.slice n).cause.getLsbD 1 then w.fab else w.fab.raise (17 + 4 * n)) ∧
  (sliceOf k = none → w'.admin = { w.admin with causes := setBit w.admin.causes 1, lastStatus := St.doorbellRange } ∧
    (∀ m, w'.slice m = w.slice m) ∧ w'.fab = if w.admin.causes.getLsbD 1 then w.fab else w.fab.raise 1) ∧
  { w' with queues := w.queues, slices := w.slices, fab := w.fab, admin := w.admin, setNow := w.setNow } = w

theorem refuseDoorbell_refuses (k : Nat) (w : Work) : Refuses w k (refuseDoorbell k w) := by
  let v := w.updQueue k fun q => { q with dbRefused := satInc q.dbRefused }
  have hqueues (u : Work) (hu : u.queues = v.queues) :
      u.queue k = { w.queue k with dbRefused := satInc (w.queue k).dbRefused } ∧ ∀ m, m ≠ k → u.queue m = w.queue m := by
    refine ⟨?_, fun m hm => ?_⟩
    · rw [Work.queue, hu]
      exact queue_updQueue ..
    · rw [Work.queue, hu]
      exact queue_updQueue_other _ _ _ _ hm
  have hop : refuseDoorbell k w = queueCause k .doorbellRange St.doorbellRange v := rfl
  rw [hop]
  cases hk : sliceOf k with
  | some n =>
    obtain ⟨hslice, hslices, hfab, hframe⟩ := queueCause_slice hk .doorbellRange St.doorbellRange v
    generalize queueCause k .doorbellRange St.doorbellRange v = u at hslice hslices hfab hframe ⊢
    obtain ⟨hown, hother⟩ := hqueues u (congrArg Work.queues hframe :)
    refine ⟨hown, hother, fun m hm => ?_, fun hnone => (by simp [hk] at hnone), ?_⟩
    · obtain rfl := Option.some.inj (hk.symm.trans hm)
      rw [hslice]
      refine ⟨rfl, rfl, rfl, rfl, hslices, (congrArg Work.admin hframe :), ?_⟩
      rw [hfab]
      rfl
    · exact congrArg (fun u : Work => { u with queues := w.queues, admin := w.admin }) hframe
  | none =>
    obtain ⟨hadmin, hfab, hframe⟩ := queueCause_admin hk .doorbellRange St.doorbellRange v
    generalize queueCause k .doorbellRange St.doorbellRange v = u at hadmin hfab hframe ⊢
    obtain ⟨hown, hother⟩ := hqueues u (congrArg Work.queues hframe :)
    have hslices : u.slices = w.slices := (congrArg Work.slices hframe :)
    refine ⟨hown, hother, fun m hm => (by simp [hk] at hm), fun _ => ⟨hadmin, fun m => by rw [Work.slice, hslices]; rfl, hfab⟩, ?_⟩
    exact congrArg (fun u : Work => { u with queues := w.queues, slices := w.slices }) hframe

/-- One queue changes, and nothing else of the shared state. -/
theorem updQueue_only (k : Nat) (f : Queue → Queue) (w : Work) :
    (w.updQueue k f).queue k = f (w.queue k) ∧ (∀ m, m ≠ k → (w.updQueue k f).queue m = w.queue m) ∧
    { w.updQueue k f with queues := w.queues } = w :=
  ⟨queue_updQueue .., fun _ hm => queue_updQueue_other _ _ _ _ hm, rfl⟩

theorem qkey_eq {n q : Nat} (hn : n < 64) (hq : q < 64) : qkey n q = 64 * n + q := by
  rw [qkey, if_pos hn, Nat.mod_eq_of_lt hq, Nat.mul_comm]

/-- The rows of a submission doorbell and of a completion doorbell, of a slice's queue or of the admin queue. -/
theorem exec_doorbells {v : BitVec 32} {i j : Instr}
    (h : (∃ n q, n < 64 ∧ q < 64 ∧ i = .sqDoorbell n q v ∧ j = .cqDoorbell n q v ∧ k = 64 * n + q) ∨
      i = .adminSqDoorbell v ∧ j = .adminCqDoorbell v ∧ k = 4096) :
    (∃ f : Block → Work → Work, (∀ s, exec i s = .next (s.onWork f)) ∧ ∀ e w, f e w = sqDoorbellOp k v w) ∧
    ∃ f : Block → Work → Work, (∀ s, exec j s = .next (s.onWork f)) ∧ ∀ e w, f e w = cqDoorbellOp e k v w := by
  rcases h with ⟨n, q, hn, hq, rfl, rfl, rfl⟩ | ⟨rfl, rfl, rfl⟩
  · rw [← qkey_eq hn hq]
    exact ⟨⟨_, fun _ => rfl, fun _ _ => if_pos hn⟩, _, fun _ => rfl, fun _ _ => if_pos hn⟩
  · exact ⟨⟨_, fun _ => rfl, fun _ _ => rfl⟩, _, fun _ => rfl, fun _ _ => rfl⟩

theorem sqDoorbellOp_taken {v : BitVec 32} (hr : reaches w k = true) (hl : latched w k = false) : sqDoorbellOp k v w = applyTail k v w := by
  simp [sqDoorbellOp, hr, hl]

theorem cqDoorbellOp_taken {v : BitVec 32} {e : Block} (hr : reaches w k = true) (hl : latched w k = false) :
    cqDoorbellOp e k v w = applyHead e k v w := by
  simp [cqDoorbellOp, hr, hl]

/-- Without a held record nothing is written again. -/
theorem retryRecords_none {e : Block} (h : (w.queue k).held = []) : retryRecords e k w = w := by
  simp [retryRecords, h]

/-- Settles O19: the row of either doorbell is its operation, whose tests come one after another. -/
theorem doorbells : Obligations.Doorbells := by
  intro s v i j k h hrows
  obtain ⟨⟨f, hi, hf⟩, g, hj, hg⟩ := exec_doorbells hrows
  have hsq {P : Work → Prop} (hP : P (sqDoorbellOp k v s.core.work)) : Does i s P := does_of (hi s) h (by rwa [hf])
  have hcq {P : Work → Prop} (hP : P (cqDoorbellOp s.core k v s.core.work)) : Does j s P := does_of (hj s) h (by rwa [hg])
  refine ⟨fun hno => ⟨leaves_of (hi s) h ?lostSq, leaves_of (hj s) h ?lostCq⟩, fun hr hl => ⟨hsq ?lateSq, hcq ?lateCq⟩,
    fun hr hl => ⟨fun htail hhead => hsq ?tail, fun hrange hheld => hcq ?head, ?refused⟩⟩
  case lostSq =>
    rw [hf]
    simp [sqDoorbellOp, hno]
  case lostCq =>
    rw [hg]
    simp [cqDoorbellOp, hno]
  case lateSq =>
    rw [show sqDoorbellOp k v s.core.work = s.core.work.updQueue k fun q => { q with lateTail := some v } by simp [sqDoorbellOp, hr, hl]]
    exact updQueue_only ..
  case lateCq =>
    rw [show cqDoorbellOp s.core k v s.core.work = s.core.work.updQueue k fun q => { q with lateHead := some v } by simp [cqDoorbellOp, hr, hl]]
    exact updQueue_only ..
  case tail =>
    rw [sqDoorbellOp_taken hr hl, applyTail, if_neg (not_or.mpr ⟨Nat.not_lt.mpr htail, Nat.not_lt.mpr hhead⟩)]
    exact updQueue_only ..
  case head =>
    rw [cqDoorbellOp_taken hr hl, applyHead, if_neg (Nat.not_lt.mpr hrange), retryRecords_none (by rw [queue_updQueue]; exact hheld)]
    exact updQueue_only ..
  case refused =>
    rintro y (⟨rfl, hbad⟩ | ⟨rfl, hbad⟩)
    · refine hsq (P := Refuses s.core.work k) ?_
      rw [sqDoorbellOp_taken hr hl, applyTail, if_pos hbad]
      exact refuseDoorbell_refuses ..
    · refine hcq (P := Refuses s.core.work k) ?_
      rw [cqDoorbellOp_taken hr hl, applyHead, if_pos hbad]
      exact refuseDoorbell_refuses ..

end

end Sys2Proof.Machine

end

-- Proofs about the memory port and the pins of the function port (R62 to R78).
section

namespace Sys2Proof.Machine

/-! ### Transfers and their requests (R70, R76) -/

section

variable {w : Work} {r : Req} {p : Part}

/-- A change of the transfers that keeps their tags changes what each tag names, one by one. -/
theorem req_mapReqs {w v : Work} {f : Req → Req} (hv : v.fab.reqs = w.fab.reqs.map f) (hf : ∀ x, (f x).tag = x.tag) (t : Nat) :
    v.req t = (w.req t).map f := by
  simp only [Work.req, hv, List.find?_map, Function.comp_def, hf]

theorem req_congr {w v : Work} (hv : v.fab.reqs = w.fab.reqs) (t : Nat) : v.req t = w.req t := by rw [Work.req, Work.req, hv]

theorem part_congr {w v : Work} (hv : v.fab.reqs = w.fab.reqs) (t : Nat) : v.part t = w.part t := by rw [Work.part, Work.part, hv]

theorem updPart_reqs (w : Work) (t : Nat) (g : Part → Part) : (w.updPart t g).fab.reqs = w.fab.reqs.map fun x => x.updPart t g := rfl

/-- What a tag names once its request has changed. -/
theorem part_updPart (w : Work) (t : Nat) {g : Part → Part} (hg : ∀ q, (g q).tag = q.tag) :
    (w.updPart t g).part t = (w.part t).map fun x => (x.1.updPart t g, g x.2) := by
  rw [Work.part, Work.part, updPart_reqs, List.findSome?_map, List.map_findSome?]
  congr 1
  funext x
  have hpred : (fun q : Part => (if q.tag = t then g q else q).tag == t) = fun q => q.tag == t := by
    funext q
    split
    · rw [hg]
    · rfl
  simp only [Function.comp_def, Req.updPart, List.find?_map, hpred, Option.map_map]
  cases hq : x.parts.find? (fun q => q.tag == t) with
  | none => rfl
  | some q =>
    have htag : q.tag = t := by simpa using List.find?_some hq
    simp [htag]

/-- What a change of a transfer leaves of its requests. -/
theorem part_updReq (w : Work) (t u : Nat) {f : Req → Req} (hf : ∀ x, (f x).parts = x.parts) :
    ((w.updReq t f).part u).map Prod.snd = (w.part u).map Prod.snd := by
  have hreqs : (w.updReq t f).fab.reqs = w.fab.reqs.map fun x => if x.tag = t then f x else x := rfl
  rw [Work.part, Work.part, hreqs, List.findSome?_map, List.map_findSome?, List.map_findSome?]
  congr 1
  funext x
  simp only [Function.comp_def]
  split
  · rw [hf, Option.map_map, Option.map_map]
    rfl
  · rfl

namespace Awaits

variable (h : Awaits w r p)
include h

/-- The request's tag names it (R71). -/
theorem part_eq : w.part p.tag = some (r, p) := by
  obtain ⟨hr, hp, -, hpart, -⟩ := h
  have hsome : (w.part p.tag).isSome = true := by
    rw [Work.part, List.findSome?_isSome_iff]
    refine ⟨r, hr, ?_⟩
    rw [Option.isSome_map, List.find?_isSome]
    exact ⟨p, hp, by simp⟩
  obtain ⟨⟨x, q⟩, hx⟩ := Option.isSome_iff_exists.mp hsome
  obtain ⟨y, hy, hfound⟩ := List.exists_of_findSome?_eq_some hx
  obtain ⟨z, hz, heq⟩ := Option.map_eq_some_iff.mp hfound
  obtain ⟨rfl, rfl⟩ := Prod.mk.injEq .. ▸ heq
  obtain ⟨rfl, rfl⟩ := hpart y hy z (List.mem_of_find?_eq_some hz) (by simpa using List.find?_some hz)
  exact hx

theorem req_eq : w.req r.tag = some r := by
  obtain ⟨hr, -, htag, -⟩ := h
  obtain ⟨x, hx⟩ := Option.isSome_iff_exists.mp (by
    rw [Work.req, List.find?_isSome]
    exact ⟨r, hr, by simp⟩ : (w.req r.tag).isSome = true)
  rw [hx, htag x (List.mem_of_find?_eq_some hx) (by simpa using List.find?_some hx)]

/-- The request's tag names no request of another transfer, and no other of its own. -/
theorem tag_other {x : Req} (hx : x ∈ w.fab.reqs) (hne : x.tag ≠ r.tag) (g : Part → Part) : x.updPart p.tag g = x := by
  obtain ⟨-, -, -, hpart, -⟩ := h
  have hkeep : x.parts.map (fun q => if q.tag = p.tag then g q else q) = x.parts := by
    conv_rhs => rw [← List.map_id x.parts]
    refine List.map_congr_left fun q hq => if_neg fun htag => hne ?_
    rw [(hpart x hx q hq htag).1]
  rw [Req.updPart, hkeep]

theorem updPart_congr {g f : Part → Part} (hgf : g p = f p) : r.updPart p.tag g = r.updPart p.tag f := by
  obtain ⟨hr, -, -, hpart, -⟩ := h
  have hmap : r.parts.map (fun q => if q.tag = p.tag then g q else q) = r.parts.map fun q => if q.tag = p.tag then f q else q := by
    refine List.map_congr_left fun q hq => ?_
    split
    next htag => rw [(hpart r hr q hq htag).2, hgf]
    next => rfl
  rw [Req.updPart, Req.updPart, hmap]

/-- A change that keeps tags and leaves every other transfer changes this one. -/
theorem answers_of {v : Work} {f : Req → Req} (hv : v.fab.reqs = w.fab.reqs.map f) (htag : ∀ x, (f x).tag = x.tag)
    (hother : ∀ x ∈ w.fab.reqs, x.tag ≠ r.tag → f x = x) : Answers w (f r) v := by
  refine ⟨?_, fun t ht => ?_⟩
  · rw [req_mapReqs hv htag, htag, h.req_eq]
    rfl
  · rw [req_mapReqs hv htag]
    cases hx : w.req t with
    | none => rfl
    | some x =>
      have hxt : x.tag = t := by simpa using List.find?_some hx
      rw [Option.map_some, hother x (List.mem_of_find?_eq_some hx) (by rw [hxt, ← htag r]; exact ht)]

/-- The transfers that do not change leave what waits for them. -/
theorem congr {v : Work} (hv : v.fab.reqs = w.fab.reqs) : Awaits v r p := by
  unfold Awaits at h ⊢
  rwa [hv]

end Awaits

theorem Answers.congr {v u : Work} (h : Answers w r v) (hw : u.fab.reqs = w.fab.reqs) : Answers u r v :=
  ⟨h.1, fun t ht => by rw [h.2 t ht, req_congr hw]⟩

theorem Answers.to {v u : Work} (h : Answers w r v) (hv : u.fab.reqs = v.fab.reqs) : Answers w r u :=
  ⟨by rw [req_congr hv, h.1], fun t ht => by rw [req_congr hv, h.2 t ht]⟩

/-- A request that is not yet answered leaves its transfer without an outcome. -/
theorem partBecomes_open {v : Work} {f g : Part → Part} (h : Awaits w r p) (hg : g p = f p) (hf : (f p).answer = none)
    (hv : v.fab.reqs = w.fab.reqs.map fun x => x.updPart p.tag g) : PartBecomes w r p f v := by
  have hanswers : Answers w (r.updPart p.tag g) v :=
    h.answers_of hv (fun _ => rfl) fun x hx hne => h.tag_other hx hne g
  obtain ⟨-, hp, -, -, hnone, -⟩ := id h
  have hout : (r.updPart p.tag f).outcome = none := by
    refine if_neg fun hall => ?_
    have hfp := List.all_eq_true.mp hall (f p) (List.mem_map.mpr ⟨p, hp, if_pos rfl⟩)
    simp [hf] at hfp
  rw [h.updPart_congr hg] at hanswers
  unfold PartBecomes
  rw [hout, ← hnone]
  exact hanswers

/-- What an answer leaves for a command of its own stays in its transfer. -/
theorem endReq_keeps {b : Block} {st : Status} {data : List Byte} (hdead : r.dead = false)
    (hwhy : (∃ k f n, r.why = .sqRead k f n) ∨ (∃ k d, r.why = .record k d) ∨ (∃ k, r.why = .slotSave k) ∨ ∃ i, r.why = .objEntry i) :
    endReq r st data b = b.updWork (keepAnswer r st data) := by
  rcases hwhy with ⟨k, f, n, hwhy⟩ | ⟨k, d, hwhy⟩ | ⟨k, hwhy⟩ | ⟨i, hwhy⟩ <;> simp [endReq, actOn, hdead, hwhy, Block.updWork]

theorem partWritten_keeps {q : Part} {st : Status}
    (hwhy : (∃ k f n, r.why = .sqRead k f n) ∨ (∃ k d, r.why = .record k d) ∨ (∃ k, r.why = .slotSave k) ∨ ∃ i, r.why = .objEntry i) :
    partWritten r q st w = w := by
  rcases hwhy with ⟨k, f, n, hwhy⟩ | ⟨k, d, hwhy⟩ | ⟨k, hwhy⟩ | ⟨i, hwhy⟩ <;> simp [partWritten, hwhy]

/-- A request as its answer leaves it. -/
def Part.answered (st : Status) (data : List Byte) (q : Part) : Part := { q with held := false, paging := false, answer := some (st, data) }

theorem Part.answered_open {q : Part} {st : Status} {data : List Byte} (hheld : q.held = false) (hpaging : q.paging = false) :
    q.answered st data = { q with answer := some (st, data) } := by
  cases q
  simp_all [Part.answered]

theorem Part.answered_paging {q : Part} {st : Status} {data : List Byte} (hheld : q.held = false) :
    q.answered st data = { q with paging := false, answer := some (st, data) } := by
  cases q
  simp_all [Part.answered]

/-- An answer to a request, once it has been found: its transfer ends where that was the last. -/
theorem endPart_step {b : Block} {t : Nat} {st : Status} {data : List Byte} {x : Req} {q : Part}
    (h : (b.work.updPart t (Part.answered st data)).part t = some (x, q)) : endPart t st data b =
      let c := { b with work := partWritten x q st (b.work.updPart t (Part.answered st data)) }
      match x.outcome with
      | some o => endReq x o.1 o.2 c
      | none => c := by
  have hfun : endPart t st data b =
      match (b.work.updPart t (Part.answered st data)).part t with
      | none => b.updWork fun w => w.updPart t (Part.answered st data)
      | some (x, q) =>
        let b := (b.updWork fun w => w.updPart t (Part.answered st data)).updWork (partWritten x q st)
        match x.outcome with
        | some o => endReq x o.1 o.2 b
        | none => b := rfl
  rw [hfun, h]
  rfl

/-- A request that is answered: its transfer keeps its outcome once it is the last (R76). -/
theorem endPart_eq {b : Block} {st : Status} {data : List Byte} (h : Awaits b.work r p) :
    let v := b.work.updPart p.tag (Part.answered st data)
    endPart p.tag st data b = { b with work := match (r.updPart p.tag (Part.answered st data)).outcome with
      | some o => keepAnswer r o.1 o.2 v
      | none => v } := by
  obtain ⟨-, -, -, -, -, hdead, -, -, hwhy⟩ := id h
  have hpart : (b.work.updPart p.tag (Part.answered st data)).part p.tag =
      some (r.updPart p.tag (Part.answered st data), p.answered st data) := by
    rw [part_updPart b.work p.tag (g := Part.answered st data) fun _ => rfl, h.part_eq]
    rfl
  rw [endPart_step hpart]
  dsimp only
  rw [partWritten_keeps (r := r.updPart p.tag (Part.answered st data)) hwhy]
  cases (r.updPart p.tag (Part.answered st data)).outcome with
  | none => rfl
  | some o => exact endReq_keeps (r := r.updPart p.tag (Part.answered st data)) hdead hwhy

/-- Nothing else of the block changes. -/
theorem endPart_frame {b : Block} {st : Status} {data : List Byte} (h : Awaits b.work r p) :
    ∃ reqs, endPart p.tag st data b = { b with work := { b.work with fab := { b.work.fab with reqs := reqs } } } := by
  rw [endPart_eq h]
  dsimp only
  cases (r.updPart p.tag (Part.answered st data)).outcome with
  | none => exact ⟨_, rfl⟩
  | some o => exact ⟨_, rfl⟩

/-- The request stays in its transfer. -/
theorem endPart_part {b : Block} {st : Status} {data : List Byte} (h : Awaits b.work r p) :
    ((endPart p.tag st data b).work.part p.tag).map Prod.snd = some (p.answered st data) := by
  have hpart : (b.work.updPart p.tag (Part.answered st data)).part p.tag =
      some (r.updPart p.tag (Part.answered st data), p.answered st data) := by
    rw [part_updPart b.work p.tag (g := Part.answered st data) fun _ => rfl, h.part_eq]
    rfl
  rw [endPart_eq h]
  dsimp only
  cases (r.updPart p.tag (Part.answered st data)).outcome with
  | none => rw [hpart]; rfl
  | some o => exact (part_updReq _ _ _ (f := fun x => { x with answer := some (o.1, o.2) }) fun _ => rfl).trans (by rw [hpart]; rfl)

theorem endPart_becomes {b : Block} {st : Status} {data : List Byte} {f : Part → Part} (h : Awaits b.work r p) (hf :
    f p = p.answered st data) :
    PartBecomes b.work r p f (endPart p.tag st data b).work := by
  obtain ⟨-, -, -, -, hnone, -⟩ := id h
  have hr : r.updPart p.tag (Part.answered st data) = r.updPart p.tag f := h.updPart_congr hf.symm
  rw [endPart_eq h, hr]
  dsimp only
  cases hout : (r.updPart p.tag f).outcome with
  | none =>
    have hanswers : Answers b.work _ (b.work.updPart p.tag (Part.answered st data)) :=
      h.answers_of (f := fun x => x.updPart p.tag (Part.answered st data)) rfl (fun _ => rfl) fun x hx hne => h.tag_other hx hne _
    rw [hr] at hanswers
    have hopen : { r.updPart p.tag f with answer := none } = r.updPart p.tag f := by rw [← hnone]; rfl
    unfold PartBecomes
    rw [hout, hopen]
    exact hanswers
  | some o =>
    let k (x : Req) : Req := if x.tag = r.tag then { x with answer := some o } else x
    have hk (x : Req) : (k x).tag = x.tag := by
      simp only [k]
      split <;> rfl
    have hanswers : Answers b.work (k (r.updPart p.tag (Part.answered st data))) (keepAnswer r o.1 o.2 (b.work.updPart p.tag (Part.answered st data))) := by
      refine h.answers_of (f := fun x => k (x.updPart p.tag (Part.answered st data))) ?_ (fun x => hk _) fun x hx hne => ?_
      · exact List.map_map
      · rw [h.tag_other hx hne]
        exact if_neg hne
    rw [hr] at hanswers
    have hown : k (r.updPart p.tag f) = { r.updPart p.tag f with answer := some o } := if_pos rfl
    unfold PartBecomes
    rw [hout]
    rwa [hown] at hanswers

/-! ### Responses, page requests and pins (R62 to R78) -/

/-- Only what leaves the port, and the page request groups, changed. -/
def Sends (w v : Work) : Prop :=
  { v with fab := { v.fab with groups := w.fab.groups, out := w.fab.out, offers := w.fab.offers } } = w

theorem askPage_sends (x : Req) (q : Part) {w v : Work} (h : Sends w v) : Sends w (askPage x q v) := by
  unfold askPage
  split
  · split
    · exact h
    · exact h
  · exact h

theorem askPages_sends (w : Work) : Sends w (askPages w) :=
  List.foldlRecOn _ _ (motive := Sends w) rfl fun _ hv x _ =>
    List.foldlRecOn _ _ (motive := Sends w) hv fun _ hu q _ => askPage_sends x q hu

theorem Sends.reqs {v : Work} (h : Sends w v) : v.fab.reqs = w.fab.reqs := by
  unfold Sends at h
  exact (congrArg (fun x : Work => x.fab.reqs) h :)

theorem Sends.eq {v : Work} (h : Sends w v) :
    ∃ gs out offers, v = { w with fab := { w.fab with groups := gs, out := out, offers := offers } } := by
  unfold Sends at h
  exact ⟨v.fab.groups, v.fab.out, v.fab.offers, by rw [← h]⟩

/-- A cluster reset that reaches the mailbox unit changes nothing of the shared state but the cluster. -/
theorem boxReset_work (b : Block) : { (boxReset b).work with jnr := b.work.jnr } = b.work := by
  unfold boxReset setMode
  split
  · split <;> rfl
  · rfl

theorem boxReset_fab (b : Block) : (boxReset b).work.fab = b.work.fab := (congrArg Work.fab (boxReset_work b) :)

/-- A response that asks for no page and revokes no PASID answers its request (R76). -/
theorem takeResponse_ends {b : Block} {code : Nat} {data : List Byte} (h : Awaits b.work r p) (hpaging : p.paging = false)
    (hmiss : (code = 1 && r.ofSlice && !p.retried && !r.dead && (b.work.slice (r.slice.getD 0)).pasidOpen && Config.priEnabled) = false)
    (hrevoke : (code = 5 && r.ofSlice) = false) :
    takeResponse p.tag code data b = endPart p.tag (codeStatus r code) (responseData r p data) b := by
  obtain ⟨-, -, -, -, -, -, hnone, hheld, -⟩ := id h
  have hopen : p.open = true := by simp [Part.open, hnone, hheld, hpaging]
  rw [takeResponse, h.part_eq]
  simp only [hnone, Option.isSome_none, hopen, hmiss, hrevoke]
  rfl

/-- A response's code as R76 reads it, but for those that only a slice's request knows. -/
theorem codeStatus_plain {code : BitVec 3} (hcode : code ≠ 1 ∧ code ≠ 5 ∨ code ≠ 0 ∧ (r.slice = none ∨ r.dev = true)) :
    (code.toNat = 1 && r.ofSlice) = false ∧ (code.toNat = 5 && r.ofSlice) = false ∧
    codeStatus r code.toNat = if code = 0 then St.ok else St.dmaFault := by
  have hval (n : Nat) (hn : n < 8) : code.toNat = n ↔ code = BitVec.ofNat 3 n := by
    rw [← BitVec.toNat_inj, BitVec.toNat_ofNat, Nat.mod_eq_of_lt hn]
  have hslice (hs : r.slice = none ∨ r.dev = true) : r.ofSlice = false := by
    rcases hs with hs | hs <;> simp [Req.ofSlice, hs]
  simp only [codeStatus, hval 0 (by decide), hval 1 (by decide), hval 5 (by decide)]
  change (decide (code = 1) && r.ofSlice) = false ∧ (decide (code = 5) && r.ofSlice) = false ∧
    (if code = 0 then St.ok else if code = 5 ∧ r.ofSlice = true then St.pasidRevoked else St.dmaFault) =
      if code = 0 then St.ok else St.dmaFault
  rcases hcode with ⟨h1, h5⟩ | ⟨-, hs⟩
  · rw [decide_eq_false h1, decide_eq_false h5, if_neg (c := code = 5 ∧ _) fun h => h5 h.1]
    exact ⟨rfl, rfl, rfl⟩
  · rw [hslice hs, if_neg (c := code = 5 ∧ _) fun h => Bool.false_ne_true h.2]
    exact ⟨Bool.and_false _, Bool.and_false _, rfl⟩

/-- A page miss of a slice's request asks for its page where PRI is enabled, and fails it where not (R77). -/
theorem takeResponse_miss {b : Block} {data : List Byte} {n : Nat} (h : Awaits b.work r p) (hpaging : p.paging = false)
    (hslice : r.slice = some n) (hdev : r.dev = false) (hretried : p.retried = false) (hopen : (b.work.slice n).pasidOpen = true) :
    ((takeResponse p.tag 1 data b).work.part p.tag).map (fun x => x.2.paging) = some Config.priEnabled := by
  obtain ⟨-, -, -, -, -, hdead, hnone, hheld, -⟩ := id h
  have hmay : p.open = true := by simp [Part.open, hnone, hheld, hpaging]
  cases hpri : Config.priEnabled with
  | true =>
    have hop : takeResponse p.tag 1 data b = b.updWork fun w => askPages (w.updPart p.tag fun x => { x with paging := true }) := by
      rw [takeResponse, h.part_eq]
      simp [hnone, hmay, Req.ofSlice, hslice, hdev, hretried, hdead, hopen, hpri]
    rw [hop]
    simp only [Block.updWork]
    rw [part_congr (askPages_sends _).reqs, part_updPart _ _ (g := fun x => { x with paging := true }) fun _ => rfl, h.part_eq]
    rfl
  | false =>
    rw [takeResponse_ends h hpaging (by simp [hpri]) (by simp)]
    have hpart := endPart_part (st := codeStatus r 1) (data := responseData r p data) h
    generalize endPart _ _ _ _ = b' at hpart ⊢
    cases hp : b'.work.part p.tag with
    | none => simp [hp] at hpart
    | some x =>
      rw [hp] at hpart
      have hx : x.2 = p.answered (codeStatus r 1) (responseData r p data) := Option.some.inj hpart
      rw [Option.map_some, hx]
      rfl

/-- A request that has waited too long is answered with DMA_FAULT, and its tag stays unused (R78). -/
theorem responseLate_ends {b : Block} (h : Awaits b.work r p) (hpaging : p.paging = false) : responseLate p.tag b =
    endPart p.tag St.dmaFault [] (b.updWork fun w => w.updFab fun f => { f with burntTags := f.burntTags ++ [p.tag] }) := by
  obtain ⟨-, -, -, -, -, -, hnone, hheld, -⟩ := id h
  have hopen : p.open = true := by simp [Part.open, hnone, hheld, hpaging]
  rw [responseLate, h.part_eq]
  simp [hopen]

/-- The groups of page requests change, and nothing of the transfers. -/
def Block.withGroups (b : Block) (gs : List PriGroup) : Block := b.updWork fun w => w.updFab fun f => { f with groups := gs }

theorem pageAnswered_fails {b : Block} {t : Nat} (h : Awaits b.work r p) (ht : t = p.tag) (hpaging : p.paging = true) :
    pageAnswered t false b = endPart p.tag St.dmaFault [] b := by
  rw [pageAnswered, ht, h.part_eq]
  simp [hpaging]

/-- What goes out on the request channels changes nothing of the port but what leaves it. -/
theorem sendPart_out (x : Req) (f : Fabric) (q : Part) : { f.sendPart x q with out := f.out, offers := f.offers } = f := by
  unfold Fabric.sendPart
  split
  · rfl
  · exact List.foldlRecOn _ _ (motive := fun k : Fabric => { k with out := f.out, offers := f.offers } = f) rfl fun k hk o _ => hk

theorem sendPart_reqs (x : Req) (f : Fabric) (q : Part) : (f.sendPart x q).reqs = f.reqs := (congrArg Fabric.reqs (sendPart_out x f q) :)

/-- A request whose page is there goes out again (R77). -/
theorem pageAnswered_retries {b : Block} {n : Nat} (h : Awaits b.work r p) (hpaging : p.paging = true) (hslice : r.slice = some n)
    (hopen : (b.work.slice n).pasidOpen = true) :
    PartBecomes b.work r p (fun x => { x with paging := false, retried := true, held := !b.work.fab.bme }) (pageAnswered p.tag true b).work := by
  obtain ⟨-, -, -, -, -, -, hnone, -⟩ := id h
  let q : Part := { p with paging := false, retried := true, held := !b.work.fab.bme }
  have hop : pageAnswered p.tag true b =
      b.updWork fun w => (markPart b r q (w.updPart p.tag fun _ => q)).updFab fun f => f.sendPart r q := by
    rw [pageAnswered, h.part_eq]
    simp [hpaging, retryPart, hslice, hopen, q]
  refine partBecomes_open (g := fun _ => q) h rfl hnone ?_
  rw [hop]
  simp only [Block.updWork, Work.updFab_fab, sendPart_reqs, markPart, markSent_fab]
  rfl

/-- The only group of page requests ends with its response (R67). -/
theorem groupAnswered_one {b : Block} {g : PriGroup} {ok : Bool} (hgroups : b.work.fab.groups = [g]) (hburnt : g.burnt = false) :
    groupAnswered g.group ok b = (pageAnswered g.tag ok (b.withGroups [])).updWork askPages := by
  have hfind : b.work.fab.groups.find? (fun x => x.group == g.group) = some g := by simp [hgroups]
  have hfilter : b.work.fab.groups.filter (fun x => !(x.group == g.group)) = [] := by simp [hgroups]
  simp only [groupAnswered, hfind, hburnt, Block.updWork, Work.updFab, hfilter]
  rfl

theorem groupLate_one {b : Block} {g : PriGroup} (hgroups : b.work.fab.groups = [g]) (hburnt : g.burnt = false) :
    groupLate g.group b = pageAnswered g.tag false (b.withGroups [{ g with burnt := true }]) := by
  have hfind : b.work.fab.groups.find? (fun x => x.group == g.group && !x.burnt) = some g := by simp [hgroups, hburnt]
  have hmap : b.work.fab.groups.map (fun x => if x.group = g.group then { x with burnt := true } else x) = [{ g with burnt := true }] := by
    simp [hgroups]
  simp only [groupLate, hfind, Block.updWork, Work.updFab, hmap]
  rfl

/-! ### FN_BME and MSI-X messages (R62, R64) -/

/-- Marks of the dirty logs for held requests that go out, one after another. -/
theorem markHeld_logs (e : Block) (l : List (Req × Part)) (w : Work) :
    LogsOnly w (l.foldl (fun w x => markPart e x.1 x.2 w) w) ∧
    ∃ slices, l.foldl (fun w x => markPart e x.1 x.2 w) w = { w with slices := slices } := by
  refine List.foldlRecOn l _ (motive := fun v => LogsOnly w v ∧ ∃ slices, v = { w with slices := slices })
    ⟨fun _ => rfl, w.slices, rfl⟩ ?_
  rintro v ⟨hlogs, slices, hv⟩ x -
  have hmark := markSent_work e x.2.held { x.1 with addr := x.2.addr, len := x.2.len } v
  refine ⟨hlogs.trans (markSent_logs _ _ _ _), (markPart e x.1 x.2 v).slices, ?_⟩
  have hw : { markPart e x.1 x.2 v with slices := w.slices } = w := by
    refine (congrArg (fun u : Work => { u with slices := w.slices }) hmark).trans ?_
    rw [hv]
  conv_rhs => rw [← hw]

/-- Held requests that go out are held no longer, and nothing else of the port changes but what leaves it. -/
theorem unhold_eq (f : Fabric) : ∃ out offers, f.unhold = { f with
    reqs := f.reqs.map fun r => { r with parts := r.parts.map fun p => { p with held := false } }, out := out, offers := offers } := by
  let k : Fabric := { f with reqs := f.reqs.map fun r => { r with parts := r.parts.map fun p => { p with held := false } } }
  have hk : { f.unhold with out := k.out, offers := k.offers } = k :=
    List.foldlRecOn _ _ (motive := fun j : Fabric => { j with out := k.out, offers := k.offers } = k) rfl fun j hj x _ =>
      (congrArg (fun i : Fabric => { i with out := k.out, offers := k.offers }) (sendPart_out x.1 j x.2)).trans hj
  exact ⟨f.unhold.out, f.unhold.offers,
    congrArg (fun i : Fabric => { i with out := f.unhold.out, offers := f.unhold.offers }) hk⟩

/-- FN_BME and the two pins beside it take their values (R62, R64). -/
theorem setBme_sets (e : Block) (v en fmask : Bool) :
    let b := e.updWork (setBme e v en fmask)
    b.work.fab.bme = v ∧ b.work.fab.msixEn = en ∧ b.work.fab.msixFmask = fmask ∧
    (v = true → ∀ r ∈ b.work.fab.reqs, ∀ p ∈ r.parts, p.held = false) ∧ (v = false → b.work.fab.reqs = e.work.fab.reqs) ∧
    b.work.fab.pba = e.work.fab.pba ∧ b.work.fab.msix = e.work.fab.msix ∧ LogsOnly e.work b.work ∧
    { b with work := { b.work with fab := e.work.fab, slices := e.work.slices } } = e := by
  cases v with
  | false =>
    obtain ⟨gs, out, offers, hask⟩ :=
      (askPages_sends (e.work.updFab fun f => { f with bme := false, msixEn := en, msixFmask := fmask })).eq
    have hop : setBme e false en fmask e.work = _ := hask
    simp only [Block.updWork, hop]
    exact ⟨rfl, rfl, rfl, fun h => (Bool.false_ne_true h).elim, fun _ => rfl, rfl, rfl, fun _ => rfl, rfl⟩
  | true =>
    obtain ⟨hlogs, slices, hmark⟩ := markHeld_logs e e.work.fab.heldParts e.work
    let f : Fabric := { e.work.fab with bme := true, msixEn := en, msixFmask := fmask }
    obtain ⟨out, offers, hunhold⟩ := unhold_eq f
    obtain ⟨gs, out', offers', hask⟩ := (askPages_sends { e.work with slices := slices, fab := f.unhold }).eq
    have hop : setBme e true en fmask e.work = askPages { e.work with slices := slices, fab := f.unhold } := by
      rw [setBme, if_pos rfl, hmark]
      rfl
    have hall : ∀ r ∈ f.unhold.reqs, ∀ p ∈ r.parts, p.held = false := by
      rw [hunhold]
      intro x hx q hq
      obtain ⟨y, -, rfl⟩ := List.mem_map.mp hx
      obtain ⟨z, -, rfl⟩ := List.mem_map.mp hq
      rfl
    rw [hmark] at hlogs
    simp only [Block.updWork, hop, hask]
    refine ⟨?_, ?_, ?_, fun _ => hall, fun h => (Bool.false_ne_true h.symm).elim, ?_, ?_, hlogs, trivial⟩ <;> rw [hunhold]

/-- Settles O23. -/
theorem memoryPort : Obligations.MemoryPort := by
  refine ⟨fun s r p h ha => ⟨fun code data hpaging hcode => ?response, fun data n hpaging hslice hdev hretried hopen => ?miss,
    fun hpaging => ?timeout, fun g n hgroups htag hburnt hpaging hslice hopen => ⟨?retry, fun code hcode => ?fail, ?late⟩⟩,
    fun s v en fmask h => ?bme, fun s v h => ⟨?send, ?keep⟩⟩
  case response =>
    refine acts_of (f := fun b => boxReset (takeResponse p.tag code.toNat data b)) rfl h ?_
    obtain ⟨hmiss, hrevoke, hstatus⟩ := codeStatus_plain hcode
    obtain ⟨-, -, -, -, -, -, -, hheld, -⟩ := id ha
    dsimp only
    rw [takeResponse_ends ha hpaging (by simp [hmiss]) hrevoke, hstatus]
    have hbecomes := endPart_becomes (st := if code = 0 then St.ok else St.dmaFault) (data := responseData r p data) ha
      (f := fun x => { x with answer := some (if code = 0 then St.ok else St.dmaFault, responseData r p data) })
      (Part.answered_open hheld hpaging).symm
    obtain ⟨reqs, hframe⟩ := endPart_frame (st := if code = 0 then St.ok else St.dmaFault) (data := responseData r p data) ha
    refine ⟨hbecomes.to (congrArg Fabric.reqs (boxReset_fab _)), ?_⟩
    have hbox := boxReset_work (endPart p.tag (if code = 0 then St.ok else St.dmaFault) (responseData r p data) s.core)
    rw [hframe] at hbox ⊢
    exact congrArg (fun w : Work => { w with fab := s.core.work.fab }) hbox
  case miss =>
    refine acts_of (f := fun b => boxReset (takeResponse p.tag 1 data b)) rfl h ?_
    rw [part_congr (congrArg Fabric.reqs (boxReset_fab (takeResponse p.tag 1 data s.core)))]
    exact takeResponse_miss ha hpaging hslice hdev hretried hopen
  case timeout =>
    refine acts_of (f := fun b => boxReset (responseLate p.tag b)) rfl h ?_
    have hlate : Awaits (s.core.updWork fun w => w.updFab fun f => { f with burntTags := f.burntTags ++ [p.tag] }).work r p := ha.congr rfl
    obtain ⟨-, -, -, -, -, -, -, hheld, -⟩ := id ha
    rw [responseLate_ends ha hpaging, boxReset_fab]
    have hbecomes := endPart_becomes (st := St.dmaFault) (data := []) hlate (f := fun x => { x with answer := some (St.dmaFault, []) })
      (Part.answered_open hheld hpaging).symm
    obtain ⟨reqs, hframe⟩ := endPart_frame (st := St.dmaFault) (data := []) hlate
    refine ⟨(hbecomes.congr rfl).to (congrArg Fabric.reqs (boxReset_fab _)), ?_⟩
    rw [hframe]
    rfl
  case retry =>
    refine acts_of (f := fun b => boxReset (groupAnswered g.group true b)) rfl h ?_
    have hgone : Awaits (s.core.withGroups []).work r p := ha.congr rfl
    rw [groupAnswered_one hgroups hburnt, htag]
    have hbecomes := pageAnswered_retries hgone hpaging hslice hopen
    exact (hbecomes.congr rfl).to ((congrArg Fabric.reqs (boxReset_fab _)).trans (askPages_sends _).reqs)
  case fail =>
    refine acts_of (f := fun b => boxReset (groupAnswered g.group (code == 0) b)) rfl h ?_
    have hgone : Awaits (s.core.withGroups []).work r p := ha.congr rfl
    obtain ⟨-, -, -, -, -, -, -, hheld, -⟩ := id ha
    rw [beq_false_of_ne hcode, groupAnswered_one hgroups hburnt, pageAnswered_fails hgone htag hpaging]
    have hbecomes := endPart_becomes (st := St.dmaFault) (data := []) hgone
      (f := fun x => { x with paging := false, answer := some (St.dmaFault, []) }) (Part.answered_paging hheld).symm
    exact (hbecomes.congr rfl).to ((congrArg Fabric.reqs (boxReset_fab _)).trans (askPages_sends _).reqs)
  case late =>
    refine acts_of (f := fun b => boxReset (groupLate g.group b)) rfl h ?_
    have hburn : Awaits (s.core.withGroups [{ g with burnt := true }]).work r p := ha.congr rfl
    obtain ⟨-, -, -, -, -, -, -, hheld, -⟩ := id ha
    rw [groupLate_one hgroups hburnt, pageAnswered_fails hburn htag hpaging, boxReset_fab]
    have hbecomes := endPart_becomes (st := St.dmaFault) (data := []) hburn
      (f := fun x => { x with paging := false, answer := some (St.dmaFault, []) }) (Part.answered_paging hheld).symm
    obtain ⟨reqs, hframe⟩ := endPart_frame (st := St.dmaFault) (data := []) hburn
    refine ⟨(hbecomes.congr rfl).to (congrArg Fabric.reqs (boxReset_fab _)), ?_⟩
    rw [hframe]
    rfl
  case bme => exact sets_of (f := fun b => b.updWork (setBme b v en fmask)) rfl h (setBme_sets s.core v en fmask)
  case send =>
    rintro ⟨hbme, hen, hmask, hvector, hpend⟩
    have hopen : s.core.work.fab.msixOpen v = true := by rw [Fabric.msixOpen, hbme, hen, hmask, hvector]; rfl
    refine does_of (f := fun _ w => w.updFab fun f => f.release v) rfl h ?_
    simp only [Work.updFab, Fabric.release, hopen, hpend]
    rfl
  case keep =>
    intro hclosed
    refine leaves_of (f := fun _ w => w.updFab fun f => f.release v) rfl h ?_
    have hno : (s.core.work.fab.msixOpen v && s.core.work.fab.pba.getLsbD v) = false := by
      rw [Fabric.msixOpen]
      rcases hclosed with hc | hc | hc | hc | hc <;> rw [hc] <;> simp
    simp [Work.updFab, Fabric.release, hno]

end

end Sys2Proof.Machine

end

-- Proofs about completion records and the queue cache (R137, R146, R147).
section

namespace Sys2Proof.Machine

/-! ### The overflow (R147, R148) -/

section

variable {e : Block} {w : Work} {k n q : Nat}

/-- The records that some rows of a table of queues hold. -/
def heldIn (sel : Nat × Queue → Bool) (t : Tbl Queue) : Nat := ((t.filter sel).map fun p => p.2.held.length).sum

theorem overflowUsed_eq (w : Work) (k : Nat) : overflowUsed w k = heldIn (fun p => sliceOf p.1 == sliceOf k) w.queues := by
  rw [overflowUsed, heldIn, List.sum_eq_foldl, List.foldl_map]

theorem heldIn_cons (sel : Nat × Queue → Bool) (p : Nat × Queue) (t : Tbl Queue) :
    heldIn sel (p :: t) = (if sel p then p.2.held.length else 0) + heldIn sel t := by
  rw [heldIn, List.filter_cons]
  split
  · rw [List.map_cons, List.sum_cons, heldIn]
  · rw [Nat.zero_add, heldIn]

theorem heldIn_tblDel_le (sel : Nat × Queue → Bool) (t : Tbl Queue) (k : Nat) : heldIn sel (tblDel t k) ≤ heldIn sel t := by
  induction t with
  | nil => exact Nat.le_refl _
  | cons p t ih =>
    obtain ⟨i, x⟩ := p
    rw [tblDel, heldIn_cons]
    split
    · omega
    · rw [heldIn_cons]
      omega

theorem heldIn_tblPut_le (sel : Nat × Queue → Bool) (t : Tbl Queue) (k : Nat) {v : Queue} (hv : v.held = []) :
    heldIn sel (tblPut t k v) ≤ heldIn sel t := by
  have hnew : (if sel (k, v) then v.held.length else 0) = 0 := by simp [hv]
  induction t with
  | nil =>
    rw [tblPut, heldIn_cons]
    simp [hv]
  | cons p t ih =>
    obtain ⟨i, x⟩ := p
    rw [tblPut]
    split
    · rw [heldIn_cons, hnew]
      omega
    · split
      · rw [heldIn_cons, heldIn_cons]
        dsimp only
        omega
      · rw [heldIn_cons, heldIn_cons]
        omega

/-- A queue that holds no record adds none to its slice's overflow. -/
theorem overflowUsed_updQueue_le (w : Work) (j k : Nat) {f : Queue → Queue} (hf : (f (w.queue j)).held = []) :
    overflowUsed (w.updQueue j f) k ≤ overflowUsed w k := by
  rw [overflowUsed_eq, overflowUsed_eq]
  have hset : (w.updQueue j f).queues = tblSet {} w.queues j (f (w.queue j)) := rfl
  rw [hset, tblSet]
  split
  · exact heldIn_tblDel_le ..
  · exact heldIn_tblPut_le _ _ _ hf

/-! ### Records written and failed (R124, R146, R147) -/

/-- Of the queues, only queue `k` changed: it is now `q`. -/
def QueueIs (w : Work) (k : Nat) (q : Queue) (w' : Work) : Prop := w'.queue k = q ∧ ∀ m, m ≠ k → w'.queue m = w.queue m

theorem QueueIs.upd {x : Queue} {v : Work} (h : QueueIs w k x v) (f : Queue → Queue) : QueueIs w k (f x) (v.updQueue k f) :=
  ⟨by rw [queue_updQueue, h.1], fun m hm => by rw [queue_updQueue_other _ _ _ _ hm, h.2 m hm]⟩

theorem QueueIs.congr {x : Queue} {v u : Work} (h : QueueIs w k x v) (hu : u.queues = v.queues) : QueueIs w k x u := by
  obtain ⟨hk, hm⟩ := h
  refine ⟨?_, fun m hne => ?_⟩
  · rw [Work.queue, hu]
    exact hk
  · rw [Work.queue, hu]
    exact hm m hne

theorem queueIs_self (w : Work) (k : Nat) : QueueIs w k (w.queue k) w := ⟨rfl, fun _ _ => rfl⟩

/-- Without a record that is due nothing is served. -/
theorem serveRecords_none (h : (w.queue k).due = []) : serveRecords e k w = w := by
  simp [serveRecords, serveDue, h]

/-- A queue that is not blocked stays as it is. -/
theorem unblock_keeps {x : Queue} {v : Work} (h : QueueIs w k x v) (hx : x.state ≠ .blocked) : QueueIs w k x (unblock k v) := by
  have hupd := h.upd fun q =>
    if q.state = .blocked ∧ q.held.isEmpty ∧ q.kept.isEmpty ∧ ¬q.stFailed then { q with state := .active, stDirty := true } else q
  rwa [if_neg fun hb => hx hb.1] at hupd

theorem unblock_frame (k : Nat) (w v : Work) : { unblock k v with queues := w.queues } = { v with queues := w.queues } := rfl

theorem coalesce_off (h : (w.queue k).desc.irqEn = false) : coalesce k w = w := by
  simp [coalesce, h]

/-- Without coalescing each record raises its queue's pending bit (R146). -/
theorem coalesce_on (h : (w.queue k).desc.irqEn = true) (hcount : (w.queue k).desc.coalCount ≤ 1) :
    coalesce k w = raisePend k (w.updQueue k fun q => { q with sinceRecs := 0, sinceBeats := none }) := by
  have hmax : max 1 (w.queue k).desc.coalCount ≤ (w.queue k).sinceRecs + 1 := by omega
  simp only [coalesce, h, Bool.not_true, Bool.false_eq_true, if_false, if_pos hmax]

/-- The queue after a record of it has been written. -/
def Queue.recorded (y : Queue) : Queue := { y with cqTail := y.cqTail + 1, stDirty := true, recBusy := none }

theorem recordWritten_eq (e : Block) (k : Nat) (w : Work) :
    recordWritten e k false w = serveRecords e k (unblock k (coalesce k (w.updQueue k Queue.recorded))) := rfl

/-- A record written for a queue without interrupts. -/
theorem recordWritten_silent (hact : (w.queue k).state = .active) (hdue : (w.queue k).due = []) (hirq : (w.queue k).desc.irqEn = false) :
    QueueIs w k (w.queue k).recorded (recordWritten e k false w) ∧ { recordWritten e k false w with queues := w.queues } = w := by
  have hrec : QueueIs w k (w.queue k).recorded (w.updQueue k Queue.recorded) := (queueIs_self w k).upd _
  have hcoal : coalesce k (w.updQueue k Queue.recorded) = w.updQueue k Queue.recorded := coalesce_off (by rw [queue_updQueue]; exact hirq)
  have hun := unblock_keeps hrec (by simp [Queue.recorded, hact])
  rw [recordWritten_eq, hcoal, serveRecords_none (by rw [hun.1]; exact hdue)]
  exact ⟨hun, unblock_frame k w _⟩

/-- A record written for a queue with interrupts and without coalescing. -/
theorem recordWritten_irq (hk : sliceOf k = some n) (hact : (w.queue k).state = .active) (hdue : (w.queue k).due = [])
    (hirq : (w.queue k).desc.irqEn = true) (hcount : (w.queue k).desc.coalCount ≤ 1) :
    let w' := recordWritten e k false w
    QueueIs w k { (w.queue k).recorded with sinceRecs := 0, sinceBeats := none } w' ∧
    w'.slice n = { w.slice n with cqPend := setBit (w.slice n).cqPend (k % 64) } ∧ (∀ m, m ≠ n → w'.slice m = w.slice m) ∧
    (w'.fab = if (w.slice n).cqPend.getLsbD (k % 64) then w.fab else w.fab.raise (vecCompletion n)) ∧
    { w' with fab := w.fab, queues := w.queues, slices := w.slices, setNow := w.setNow } = w := by
  let v : Work := (w.updQueue k Queue.recorded).updQueue k fun q => { q with sinceRecs := 0, sinceBeats := none }
  have hcoal : coalesce k (w.updQueue k Queue.recorded) = raisePend k v :=
    coalesce_on (by rw [queue_updQueue]; exact hirq) (by rw [queue_updQueue]; exact hcount)
  obtain ⟨hslice, hslices, hfab, hframe⟩ := raisePend_slice hk v
  simp only [v, slice_updQueue, Work.updQueue_fab] at hslice hslices hfab
  have hrec : QueueIs w k { (w.queue k).recorded with sinceRecs := 0, sinceBeats := none } (raisePend k v) :=
    (((queueIs_self w k).upd Queue.recorded).upd _).congr (congrArg Work.queues hframe :)
  have hun := unblock_keeps hrec (by simp [Queue.recorded, hact])
  dsimp only
  rw [recordWritten_eq, hcoal, serveRecords_none (by rw [hun.1]; exact hdue)]
  generalize raisePend k v = u at hslice hslices hfab hframe hun ⊢
  refine ⟨hun, hslice, hslices, hfab, ?_⟩
  exact (congrArg (fun x : Work => { x with fab := w.fab, slices := w.slices, setNow := w.setNow }) (unblock_frame k w u)).trans
    (congrArg (fun u : Work => { u with queues := w.queues }) hframe)

/-- The queue once the write of its record has failed. -/
def Queue.unrecorded (y : Queue) : Queue := { y with recBusy := none }

/-- The queue with a record in the overflow. -/
def Queue.keeping (x : Rec) (y : Queue) : Queue := { y with held := y.held ++ [x] }

/-- The queue as a failed write blocks it. -/
def Queue.blocking (y : Queue) : Queue := if y.state = .active then { y with state := .blocked, stDirty := true } else y

theorem recordFailed_eq {x : Rec} {st : Status} (hst : st ≠ St.pasidRevoked) (e : Block) (k : Nat) (w : Work) :
    recordFailed e k false x st w = serveRecords e k (blockQueue k (toOverflow k x (w.updQueue k Queue.unrecorded))) := if_neg hst

theorem blockQueue_eq (k : Nat) (w : Work) :
    blockQueue k w = queueCause k .completionBlocked St.completionBlocked (w.updQueue k Queue.blocking) := rfl

theorem toOverflow_room {x : Rec} (hkept : (w.queue k).kept = []) (hroom : overflowUsed w k < 256) :
    toOverflow k x w = { w with nextOrder := w.nextOrder + 1 }.updQueue k (Queue.keeping { x with place := w.nextOrder }) := by
  simp only [toOverflow, hkept, hroom]
  rfl

/-- A record that could not be written enters the overflow, and its queue is blocked (R147). -/
theorem recordFailed_blocks {x : Rec} {st : Status} (hk : sliceOf k = some n) (hst : st ≠ St.pasidRevoked) (hact :
    (w.queue k).state = .active)
    (hdue : (w.queue k).due = []) (hheld : (w.queue k).held = []) (hkept : (w.queue k).kept = []) (hroom : overflowUsed w k < 256) :
    let w' := recordFailed e k false x st w
    w'.queue k = { w.queue k with recBusy := none, held := [{ x with place := w.nextOrder }], state := .blocked, stDirty := true } ∧
    w'.slice n = { w.slice n with
      cause := setBit (w.slice n).cause 0, lastStatus := St.completionBlocked, errq := setBit (w.slice n).errq (k % 64) } := by
  have hover : toOverflow k x (w.updQueue k Queue.unrecorded) = _ := toOverflow_room (by rw [queue_updQueue]; exact hkept)
    (Nat.lt_of_le_of_lt (overflowUsed_updQueue_le w k k hheld) hroom)
  have hqueue := (((queueIs_self w k).upd Queue.unrecorded).congr
    (u := { w.updQueue k Queue.unrecorded with nextOrder := w.nextOrder + 1 }) rfl).upd (Queue.keeping { x with place := w.nextOrder })
  have hblock : Queue.blocking (Queue.keeping { x with place := w.nextOrder } (Queue.unrecorded (w.queue k))) =
      { w.queue k with recBusy := none, held := [{ x with place := w.nextOrder }], state := .blocked, stDirty := true } := by
    simp [Queue.blocking, Queue.keeping, Queue.unrecorded, hact, hheld]
  obtain ⟨v, hv, hq, hs⟩ : ∃ v, recordFailed e k false x st w = serveRecords e k (queueCause k .completionBlocked St.completionBlocked v) ∧
      QueueIs w k (Queue.blocking (Queue.keeping { x with place := w.nextOrder } (Queue.unrecorded (w.queue k)))) v ∧ v.slice n = w.slice n :=
    ⟨_, by rw [recordFailed_eq hst, hover, blockQueue_eq]; rfl, hqueue.upd Queue.blocking, slice_congr (by simp) n⟩
  obtain ⟨hslice, -, -, hframe⟩ := queueCause_slice hk .completionBlocked St.completionBlocked v
  have hend := hq.congr (u := queueCause k .completionBlocked St.completionBlocked v) (congrArg Work.queues hframe :)
  dsimp only
  rw [hv, serveRecords_none (by rw [hend.1, hblock]; exact hdue)]
  exact ⟨by rw [hend.1, hblock], by rw [hslice, hs]; rfl⟩

theorem recordAnswered_ok {tag : Nat} {r : Req} {x : Rec} {st : Status} {data : List Byte} (hreq : w.req tag = some r)
    (hwhy : r.why = .record k false) (hans : r.answer = some (st, data)) (hbusy : (w.queue k).recBusy = some x) (hst : st = St.ok) :
    recordAnswered e tag w = recordWritten e k false (w.dropReq tag) := by
  simp [recordAnswered, hreq, hwhy, hans, hbusy, hst]

theorem recordAnswered_failed {tag : Nat} {r : Req} {x : Rec} {st : Status} {data : List Byte} (hreq : w.req tag = some r)
    (hwhy : r.why = .record k false) (hans : r.answer = some (st, data)) (hbusy : (w.queue k).recBusy = some x) (hst : st ≠ St.ok) :
    recordAnswered e tag w = recordFailed e k false x st (w.dropReq tag) := by
  simp only [recordAnswered, hreq, hwhy, hans, queue_dropReq, hbusy, if_neg hst]

theorem own_mod (n : Nat) {q : Nat} (hq : q < 64) : (64 * n + q) % 64 = q := by omega

/-- The pending bit rises where the queue's interrupts have been held for COAL_BEATS edges (R146). -/
theorem coalesceLate_raises {m : Nat} (hsince : (w.queue k).sinceBeats = some m) (hirq : (w.queue k).desc.irqEn = true)
    (hbeats : (w.queue k).desc.coalBeats ≠ 0) (hle : (w.queue k).desc.coalBeats ≤ m) :
    coalesceLate k w = raisePend k (w.updQueue k fun q => { q with sinceRecs := 0, sinceBeats := none }) := by
  simp [coalesceLate, hsince, hirq, hbeats, hle]

/-- A queue with a pending doorbell takes a free entry of the cache (R137). -/
theorem loadQueue_reads (hon : (w.queue k).state ≠ .absent) (hcached : (w.queue k).cached = false) (hloading : (w.queue k).loading = false)
    (hdb : (w.queue k).dbPending = true) (hroom : cachedQueues w < 1024) : loadQueue e k w =
      readFor e none true (queueEntryAddr e k) queueEntryLen (.queueLoad k) (w.updQueue k fun q => { q with loading := true }) := by
  simp [loadQueue, hon, hcached, hloading, hdb, hroom]

theorem coalesceLate_frame (hk : sliceOf k = some n) {m : Nat} (hsince : (w.queue k).sinceBeats = some m)
    (hirq : (w.queue k).desc.irqEn = true) (hbeats : (w.queue k).desc.coalBeats ≠ 0) (hle : (w.queue k).desc.coalBeats ≤ m) :
    let w' := coalesceLate k w
    QueueIs w k { w.queue k with sinceRecs := 0, sinceBeats := none } w' ∧
    w'.slice n = { w.slice n with cqPend := setBit (w.slice n).cqPend (k % 64) } ∧ (∀ m, m ≠ n → w'.slice m = w.slice m) ∧
    (w'.fab = if (w.slice n).cqPend.getLsbD (k % 64) then w.fab else w.fab.raise (vecCompletion n)) ∧
    { w' with fab := w.fab, queues := w.queues, slices := w.slices, setNow := w.setNow } = w := by
  obtain ⟨hslice, hslices, hfab, hframe⟩ := raisePend_slice hk (w.updQueue k fun q => { q with sinceRecs := 0, sinceBeats := none })
  simp only [slice_updQueue, Work.updQueue_fab] at hslice hslices hfab
  have hqueue := (queueIs_self w k).upd fun q => { q with sinceRecs := 0, sinceBeats := none }
  rw [coalesceLate_raises hsince hirq hbeats hle]
  generalize raisePend _ _ = v at hslice hslices hfab hframe ⊢
  refine ⟨hqueue.congr (congrArg Work.queues hframe :), hslice, hslices, hfab, ?_⟩
  exact congrArg (fun x : Work => { x with queues := w.queues }) hframe

theorem loadQueue_asks (hon : (w.queue k).state ≠ .absent) (hcached : (w.queue k).cached = false) (hloading : (w.queue k).loading = false)
    (hdb : (w.queue k).dbPending = true) (hroom : cachedQueues w < 1024) :
    let w' := loadQueue e k w
    Asks w none .read true (spaceAddr e true (queueEntryAddr e k)) queueEntryLen [] (.queueLoad k) w' ∧
    QueueIs w k { w.queue k with loading := true } w' ∧ { w' with fab := w.fab, queues := w.queues } = w := by
  have hasks := readFor_asks (e := e) (w := w.updQueue k fun q => { q with loading := true })
    (a := queueEntryAddr e k) (len := queueEntryLen) (why := .queueLoad k) (mayIssue_open (s := none) (by simp) true)
  have hframe := readFor_frame e none true (queueEntryAddr e k) queueEntryLen (.queueLoad k) (w.updQueue k fun q => { q with loading := true })
  have hqueue := (queueIs_self w k).upd fun q => { q with loading := true }
  rw [loadQueue_reads hon hcached hloading hdb hroom]
  generalize readFor _ _ _ _ _ _ _ = v at hasks hframe ⊢
  refine ⟨hasks.congr rfl (by simp), hqueue.congr (congrArg Work.queues hframe :), ?_⟩
  exact congrArg (fun x : Work => { x with queues := w.queues }) hframe

/-- What an answered transfer leaves as it goes out: the port alone changed. -/
theorem queueLoaded_done (hon : (w.queue k).state ≠ .absent) (hloading : (w.queue k).loading = true) (fab : Fabric) :
    let w' := queueLoaded k St.ok { w with fab := fab }
    QueueIs w k { w.queue k with loading := false, cached := true, dbPending := false } w' ∧
    { w' with fab := w.fab, queues := w.queues } = w := by
  have hupd := ((queueIs_self w k).congr (u := { w with fab := fab }) rfl).upd fun q =>
    if q.state = .absent ∨ !q.loading then q
    else if St.ok = St.ok then { q with loading := false, cached := true, dbPending := false }
    else { q with loading := false }
  rw [if_neg (by simp [hon, hloading]), if_pos rfl] at hupd
  exact ⟨hupd, rfl⟩

/-- The only request of a transfer, answered with OK, ends it at once, and the queue is in the cache (R76, R137). -/
theorem takeResponse_loaded {b : Block} {r : Req} {p : Part} {data : List Byte} (hpart : b.work.part p.tag = some (r, p))
    (hwhy : r.why = .queueLoad k) (hparts : r.parts = [p]) (hdead : r.dead = false) (hopen : p.open = true) :
    ∃ fab, takeResponse p.tag 0 data b = b.updWork fun w => queueLoaded k St.ok { w with fab := fab } := by
  have hnone : p.answer = none := by
    rw [Part.open] at hopen
    simp only [Bool.and_eq_true, Option.isNone_iff_eq_none] at hopen
    exact hopen.1.1
  let g := Part.answered St.ok (responseData r p data)
  have hop : takeResponse p.tag 0 data b = endPart p.tag St.ok (responseData r p data) b := by
    rw [takeResponse, hpart]
    simp [hnone, hopen, codeStatus]
  have hupd : (b.work.updPart p.tag g).part p.tag = some (r.updPart p.tag g, g p) := by
    rw [part_updPart b.work p.tag (g := g) fun _ => rfl, hpart]
    rfl
  have hout : (r.updPart p.tag g).outcome = some (St.ok, responseData r p data) := by
    simp [Req.outcome, Req.updPart, hparts, g, Part.answered]
  have hwritten : partWritten (r.updPart p.tag g) (g p) St.ok (b.work.updPart p.tag g) = b.work.updPart p.tag g := by
    have hw : (r.updPart p.tag g).why = .queueLoad k := hwhy
    simp [partWritten, hw]
  have hend (c : Block) : endReq (r.updPart p.tag g) St.ok (responseData r p data) c =
      c.updWork fun w => queueLoaded k St.ok (w.dropReq r.tag) := by
    have hw : (r.updPart p.tag g).why = .queueLoad k := hwhy
    have hd : (r.updPart p.tag g).dead = false := hdead
    simp [endReq, hd, hw, actOn, Block.updWork]
    rfl
  refine ⟨((b.work.updPart p.tag g).dropReq r.tag).fab, ?_⟩
  rw [hop, endPart_step hupd, hwritten, hout]
  exact hend _

/-- Settles O20: the answer to a record write, the end of a hold on interrupts, and the load of the queue cache. -/
theorem completionRecords : Obligations.CompletionRecords := by
  refine ⟨fun s tag n q r x st data h hn hq hreq hwhy hans hbusy hact hdue hheld hkept =>
    ⟨fun hst hirq => ?silent, fun hst hirq hcount => ?irq, fun hst hrev hroom => ?failed⟩,
    fun s n q h hn hq => ⟨fun m hsince hirq hbeats hle => ?late, fun hon hcached hloading hdb hroom => ?load,
      fun r p data hpart hwhy hparts hdead hopen hon hloading => ?loaded⟩⟩
  case silent =>
    refine does_of (f := fun e w => recordAnswered e tag w) rfl h ?_
    rw [recordAnswered_ok hreq hwhy hans hbusy hst]
    obtain ⟨⟨hown, hother⟩, hframe⟩ := recordWritten_silent (w := s.core.work.dropReq tag) (e := s.core) hact hdue hirq
    generalize recordWritten _ _ _ _ = v at hown hother hframe ⊢
    refine ⟨hown, hother, (congrArg (fun w : Work => w.fab.reqs) hframe :), ?_⟩
    exact congrArg (fun w : Work => { w with fab := s.core.work.fab }) hframe
  case irq =>
    refine does_of (f := fun e w => recordAnswered e tag w) rfl h ?_
    rw [recordAnswered_ok hreq hwhy hans hbusy hst]
    obtain ⟨⟨hown, hother⟩, hslice, -, hfab, hframe⟩ := recordWritten_irq (w := s.core.work.dropReq tag) (e := s.core) (sliceOf_own hn hq)
      hact hdue hirq hcount
    rw [own_mod n hq] at hslice hfab
    generalize recordWritten _ _ _ _ = v at hown hother hslice hfab hframe ⊢
    refine ⟨hown, hother, hslice, fun hclear => hfab.trans (if_neg (ne_true_of_eq_false hclear)), ?_⟩
    exact congrArg (fun w : Work => { w with fab := s.core.work.fab }) hframe
  case failed =>
    refine does_of (f := fun e w => recordAnswered e tag w) rfl h ?_
    rw [recordAnswered_failed hreq hwhy hans hbusy hst]
    have hused : overflowUsed (s.core.work.dropReq tag) (64 * n + q) = overflowUsed s.core.work (64 * n + q) := rfl
    obtain ⟨hown, hslice⟩ := recordFailed_blocks (w := s.core.work.dropReq tag) (e := s.core) (x := x) (sliceOf_own hn hq) hrev hact hdue hheld
      hkept (by rw [hused]; exact hroom)
    rw [own_mod n hq] at hslice
    generalize recordFailed _ _ _ _ _ _ = v at hown hslice ⊢
    rw [hslice]
    exact ⟨hown, rfl, rfl, rfl⟩
  case late =>
    refine does_of (f := fun _ w => coalesceLate (qkey n q) w) rfl h ?_
    obtain ⟨⟨hown, hother⟩, hslice, hslices, hfab, hframe⟩ := coalesceLate_frame (sliceOf_own hn hq) hsince hirq hbeats hle
    rw [own_mod n hq] at hslice hfab
    rw [qkey_eq hn hq]
    exact ⟨hown, hother, hslice, hslices, hfab, hframe⟩
  case load =>
    refine does_of (f := fun e w => loadQueue e (qkey n q) w) rfl h ?_
    obtain ⟨hasks, ⟨hown, hother⟩, hframe⟩ := loadQueue_asks (e := s.core) hon hcached hloading hdb hroom
    rw [qkey_eq hn hq]
    exact ⟨hasks, hown, hother, hframe⟩
  case loaded =>
    refine acts_of (f := fun b => boxReset (takeResponse p.tag 0 data b)) rfl h ?_
    obtain ⟨fab, hop⟩ := takeResponse_loaded (data := data) hpart hwhy hparts hdead hopen
    obtain ⟨⟨hown, hother⟩, hframe⟩ := queueLoaded_done hon hloading fab
    have hbox := boxReset_work (takeResponse p.tag 0 data s.core)
    rw [hop] at hbox
    dsimp only at hop ⊢
    rw [hop]
    generalize (boxReset _).work = v at hbox ⊢
    simp only [Block.updWork] at hbox
    generalize queueLoaded _ _ _ = u at hown hother hframe hbox
    have hqueues : v.queues = u.queues := (congrArg Work.queues hbox :)
    have hqueue := queue_congr hqueues
    refine ⟨by rw [hqueue, hown], fun m hm => by rw [hqueue, hother m hm], ?_⟩
    exact (congrArg (fun x : Work => { x with fab := s.core.work.fab, queues := s.core.work.queues, jnr := s.core.work.jnr }) hbox).trans
      (congrArg (fun x : Work => { x with jnr := s.core.work.jnr }) hframe)

end

end Sys2Proof.Machine

end

-- Proofs about fetches, status blocks and entries (R124, R136, R142, R162).
section

namespace Sys2Proof.Machine

/-! ### Fetches and status blocks (R124, R136, R139, R142) -/

section

variable {e : Block} {w : Work} {k n q : Nat}

/-- What moving HEAD over finished positions leaves of a queue. -/
theorem advanceHead_frame (fuel : Nat) (x : Queue) :
    { advanceHead fuel x with head := x.head, finished := x.finished, stDirty := x.stDirty } = x ∧
    (x.stDirty = true → (advanceHead fuel x).stDirty = true) ∧ (x.finished = [] → advanceHead fuel x = x) := by
  induction fuel generalizing x with
  | zero => exact ⟨rfl, fun h => h, fun _ => rfl⟩
  | succ fuel ih =>
    rw [advanceHead]
    split
    next hcond =>
      obtain ⟨hframe, hdirty, -⟩ := ih { x with head := x.head + 1, finished := x.finished.erase x.head.toNat, stDirty := true }
      refine ⟨congrArg (fun y : Queue => { y with head := x.head, finished := x.finished, stDirty := x.stDirty }) hframe, fun _ => hdirty rfl, ?_⟩
      intro hnil
      simp [hnil] at hcond
    next => exact ⟨rfl, fun h => h, fun _ => rfl⟩

/-- A queue whose fetch has taken entries, before HEAD moves. -/
def Queue.fetched (x : Queue) : Queue := { x with fetch := x.fetch + BitVec.ofNat 32 (fetchCount x), stDirty := true }

theorem startFetch_goes (h : mayFetch w k = true) :
    startFetch k w = w.updQueue k fun x => advanceHead (x.fetched.finished.length + 1) x.fetched := if_pos h

/-- A fetch that commits: FETCH passes the entries (R136). -/
theorem startFetch_queue (h : mayFetch w k = true) :
    let x := w.queue k
    let y := (startFetch k w).queue k
    y.fetch = x.fetch + BitVec.ofNat 32 (fetchCount x) ∧ y.stDirty = true ∧ y.tail = x.tail ∧ y.cqTail = x.cqTail ∧ y.desc = x.desc ∧
    y.state = x.state ∧ (x.finished = [] → y.head = x.head) := by
  obtain ⟨hframe, hdirty, hnil⟩ := advanceHead_frame ((w.queue k).fetched.finished.length + 1) (w.queue k).fetched
  dsimp only
  rw [startFetch_goes h, queue_updQueue]
  generalize advanceHead _ _ = y at hframe hdirty hnil ⊢
  refine ⟨(congrArg Queue.fetch hframe :), hdirty rfl, (congrArg Queue.tail hframe :), (congrArg Queue.cqTail hframe :),
    (congrArg Queue.desc hframe :), (congrArg Queue.state hframe :), fun hfin => ?_⟩
  rw [hnil hfin]
  rfl

theorem length_statusBytes (x : Queue) : (statusBytes x).length = 16 := by simp [statusBytes, length_leBytes]

theorem mayWrite_active (hk : sliceOf k = some n) (hact : (w.slice n).state = .active) (dev : Bool) : mayWrite w k dev = true := by
  rw [mayWrite, hk]
  exact mayIssue_active hact dev

/-- A status block that has changed is written (R142). -/
theorem writeStatus_asks (hk : sliceOf k = some n) (hon : (w.queue k).state ≠ .absent) (hdirty : (w.queue k).stDirty = true)
    (hbusy : (w.queue k).stBusy = false) (hact : (w.slice n).state = .active) :
    let x := w.queue k
    let w' := writeStatus e k w
    Asks w (some n) .write x.desc.statusDev (spaceAddr e x.desc.statusDev x.desc.statusBase.toNat) 16 (statusBytes x)
      (.statusBlock k x.fetch) w' ∧
    QueueIs w k { x with stDirty := false, stBusy := true } w' ∧ LogsOnly w w' ∧
    { w' with fab := w.fab, queues := w.queues, slices := w.slices } = w := by
  let f (x : Queue) : Queue := { x with stDirty := false, stBusy := true }
  have hop : writeStatus e k w = writeFor e (some n) (w.queue k).desc.statusDev (w.queue k).desc.statusBase.toNat (statusBytes (w.queue k))
      (.statusBlock k (w.queue k).fetch) (w.updQueue k f) := by
    simp only [writeStatus, mayWrite_active hk hact, hdirty, hbusy, hk, beq_eq_false_iff_ne.mpr hon]
    rfl
  have hqueue := (queueIs_self w k).upd f
  have hact' : ((w.updQueue k f).slice n).state = .active := by rw [slice_updQueue]; exact hact
  have hasks := writeFor_asks_of_length (e := e) (a := (w.queue k).desc.statusBase.toNat) (why := .statusBlock k (w.queue k).fetch)
    (mayIssue_active hact' (w.queue k).desc.statusDev) (length_statusBytes (w.queue k))
  have hlogs := writeFor_logs e (some n) (w.queue k).desc.statusDev (w.queue k).desc.statusBase.toNat (statusBytes (w.queue k))
    (.statusBlock k (w.queue k).fetch) (w.updQueue k f)
  have hframe := writeFor_frame e (some n) (w.queue k).desc.statusDev (w.queue k).desc.statusBase.toNat (statusBytes (w.queue k))
    (.statusBlock k (w.queue k).fetch) (w.updQueue k f)
  dsimp only
  rw [hop]
  generalize writeFor _ _ _ _ _ _ _ = v at hasks hlogs hframe ⊢
  refine ⟨hasks.congr rfl fun _ _ => by rw [slice_updQueue], hqueue.congr (congrArg Work.queues hframe :), ?_, ?_⟩
  · exact (LogsOnly.of_slice fun m => slice_updQueue w k f m).trans hlogs
  · exact congrArg (fun x : Work => { x with queues := w.queues }) hframe

/-! ### Entries that have been read (R136, R161, R162, R173) -/

/-- Checks 1 to 3 look at the slices alone. -/
theorem formOk_congr {v : Work} (h : v.slices = w.slices) (p : Place) (b : List Byte) : formOk e v p b = formOk e w p b := by
  have hs (m : Nat) : v.slice m = w.slice m := slice_congr h m
  unfold formOk bodyOk
  simp only [hs]

theorem refsOf_none {o : Op} {b : List Byte} (h : handleFields o b = []) : refsOf o b = [] := by
  rw [refsOf, h]
  split <;> rfl

/-- An opcode that names no object and creates none has nothing to compare with an extent. -/
theorem extentOk_plain {o : Op} {b : List Byte} (h : handleFields o b = []) (hobj : o ≠ .objCreate) (hstream : o ≠ .streamCreate) :
    extentOk e w n o b = true := by
  cases o <;> simp_all [handleFields, extentOk]

theorem not_exec_of {o : Op} {b : List Byte} (h : handleFields o b = []) : o ≠ .exec := by
  rintro rfl
  simp [handleFields] at h

theorem checkObjects_plain {p : Place} {o : Op} {b : List Byte} (ho : cOp b = some o) (h : handleFields o b = []) (hobj : o ≠ .objCreate)
    (hstream : o ≠ .streamCreate) : checkObjects e w p b = St.ok := by
  cases hp : p.slice with
  | none => simp [checkObjects, hp]
  | some m => simp [checkObjects, hp, ho, checkHandles, h, not_exec_of h, extentOk_plain h hobj hstream]

/-- A command with no handle finds nothing to look up. -/
theorem uncached_none (w : Work) : uncached w [] = [] := by simp [uncached, entriesOf]

/-- A command that holds and names no object waits for its release (R173). -/
theorem admitObjects_plain {id : Nat} {c : Cmd} {o : Op} (hc : w.cmd id = some c) (ho : cOp c.bytes = some o)
    (h : handleFields o c.bytes = []) (hobj : o ≠ .objCreate) (hstream : o ≠ .streamCreate) :
    admitObjects e id w = (w.updCmd id fun d => { d with waiting := .none }).updCmd id fun d => { d with refs := [] } := by
  have hnone : handlesOf c.bytes = [] := by simp [handlesOf, ho, h]
  simp only [admitObjects, hc, hnone, uncached_none, ho, checkObjects_plain ho h hobj hstream, refsOf_none h]
  rfl

theorem Turns.trans {v u : Work} {c c' c'' : Cmd} (h : Turns w c c' v) (g : Turns v c' c'' u) (hid : c'.id = c.id) : Turns w c c'' u := by
  obtain ⟨-, hv⟩ := h
  obtain ⟨hc, hu⟩ := g
  rw [hid] at hc hu
  exact ⟨hc, fun j hj => by rw [hu j hj, hv j hj]⟩

/-- What the checks of a command leave: its own turn, and the counts of lookups. -/
def Admits (w : Work) (c c' : Cmd) (w' : Work) : Prop :=
  Turns w c c' w' ∧ { w' with cmds := w.cmds, objHits := w.objHits, objMisses := w.objMisses } = w

/-- A command whose entries are all read and that holds, and names no object, waits for its release (R173, R211). -/
theorem admitCmd_good {c : Cmd} {o : Op} (hc : w.cmd c.id = some c) (hgood : formOk e w (placeOf w c) c.bytes = true) (ho :
    cOp c.bytes = some o)
    (hfields : handleFields o c.bytes = []) (hobj : o ≠ .objCreate) (hstream : o ≠ .streamCreate) :
    Admits w c { c with phase := .fetched, timer := some (timeoutOf w c.qk c.bytes), waiting := .none, refs := [] } (admitCmd e c.id w) := by
  let c1 : Cmd := { c with phase := .fetched, timer := some (timeoutOf w c.qk c.bytes) }
  let v : Work := w.updCmd c.id fun d => { d with phase := .fetched, timer := some (timeoutOf w c.qk c.bytes) }
  let u : Work := countLookups v (handlesOf c.bytes)
  have h1 : Turns w c c1 u := (turns_updCmd hc (fun d => { d with phase := .fetched, timer := some (timeoutOf w c.qk c.bytes) })
    (fun _ => rfl) (v := w) rfl).of_cmds rfl
  have hu : u.cmd c1.id = some c1 := h1.1
  have hform : formOk e v (placeOf v c) c.bytes = true := (formOk_congr (v := v) (w := w) rfl _ _).trans hgood
  have hop : admitCmd e c.id w = admitObjects e c1.id u := by
    simp only [admitCmd, hc]
    exact if_pos hform
  have h2 : Turns u c1 { c1 with waiting := .none } (u.updCmd c1.id fun d => { d with waiting := .none }) :=
    updCmd_turns hu (fun d => { d with waiting := .none }) fun _ => rfl
  have h3 : Turns (u.updCmd c1.id fun d => { d with waiting := .none }) { c1 with waiting := .none }
      { c1 with waiting := .none, refs := [] } ((u.updCmd c1.id fun d => { d with waiting := .none }).updCmd c1.id fun d => { d with refs := [] }) :=
    updCmd_turns (c := { c1 with waiting := .none }) h2.1 (fun d => { d with refs := [] }) fun _ => rfl
  rw [hop, admitObjects_plain hu ho hfields hobj hstream]
  exact ⟨(h1.trans h2 rfl).trans h3 rfl, rfl⟩

/-- One that fails checks 1 to 3 is to end with BAD_COMMAND (R173, R174). -/
theorem admitCmd_bad {c : Cmd} (hc : w.cmd c.id = some c) (hend : c.endStatus = none) (hbad : formOk e w (placeOf w c) c.bytes = false) :
    Admits w c { c with phase := .fetched, timer := some (timeoutOf w c.qk c.bytes), endStatus := some St.badCommand }
      (admitCmd e c.id w) := by
  let c1 : Cmd := { c with phase := .fetched, timer := some (timeoutOf w c.qk c.bytes) }
  let v : Work := w.updCmd c.id fun d => { d with phase := .fetched, timer := some (timeoutOf w c.qk c.bytes) }
  have h1 : Turns w c c1 v := turns_updCmd hc _ (fun _ => rfl) rfl
  have hform : ¬formOk e v (placeOf v c) c.bytes = true :=
    fun h => Bool.false_ne_true (hbad ▸ (formOk_congr (v := v) (w := w) rfl _ _).symm.trans h)
  have hop : admitCmd e c.id w = failCheck c1.id St.badCommand v := by
    simp only [admitCmd, hc]
    exact if_neg hform
  have h2 : Turns v c1 { c1.endWith St.badCommand with quietEnd := c1.quietEnd } (failCheck c1.id St.badCommand v) :=
    updCmd_turns h1.1 (fun d => { d.endWith St.badCommand with quietEnd := d.quietEnd }) fun _ => rfl
  have hc2 : { c1.endWith St.badCommand with quietEnd := c1.quietEnd } = { c1 with endStatus := some St.badCommand } := by
    simp [Cmd.endWith, c1, hend]
  rw [hc2] at h2
  rw [hop]
  exact ⟨h1.trans h2 rfl, rfl⟩

/-- The state with a new command. -/
def withNew (w : Work) (c : Cmd) : Work := { w with cmds := w.cmds ++ [c], nextId := w.nextId + 1, nextOrder := w.nextOrder + 1 }

/-- A new command is found by its number, and every other as before. -/
theorem cmd_withNew {c : Cmd} (hid : c.id = w.nextId) (hfresh : ∀ d ∈ w.cmds, d.id < w.nextId) :
    (withNew w c).cmd c.id = some c ∧ ∀ d ∈ w.cmds, d.id ≠ c.id ∧ (withNew w c).cmd d.id = w.cmd d.id := by
  have hcmd (j : Nat) : (withNew w c).cmd j = (w.cmd j).or (if c.id = j then some c else none) := by
    simp only [Work.cmd, withNew, List.find?_append, List.find?_cons, List.find?_nil]
    by_cases hj : c.id = j
    · simp [hj]
    · simp [hj, beq_eq_false_iff_ne.mpr hj]
  refine ⟨?_, fun d hd => ?_⟩
  · have hnone : w.cmd c.id = none := by
      rw [Work.cmd, List.find?_eq_none]
      intro d hd
      have := hfresh d hd
      simp only [beq_iff_eq]
      omega
    rw [hcmd, hnone, if_pos rfl, Option.none_or]
  · have hne : c.id ≠ d.id := by
      have := hfresh d hd
      omega
    refine ⟨hne.symm, ?_⟩
    rw [hcmd, if_neg hne, Option.or_none]

/-- A whole entry at a position becomes a command (R161, R162). -/
theorem takeEntry_whole {pos : BitVec 32} {b : List Byte} (hskip : (w.queue k).skip = 0) (hbase : partBaseOf w k = none) (hext : cExt b = 0)
    (hact : (w.queue k).state = .active) :
    takeEntry e k pos b w = admitCmd e (newCmd w k pos b).id (withNew w (newCmd w k pos b)) := by
  have hspan : (newCmd w k pos b).span = 1 := by simp [newCmd, hext]
  have hqk : ((withNew w (newCmd w k pos b)).queue (newCmd w k pos b).qk).state ≠ .draining := by
    have : (withNew w (newCmd w k pos b)).queue (newCmd w k pos b).qk = w.queue k := rfl
    rw [this, hact]
    decide
  have hop : takeEntry e k pos b w = complete e (newCmd w k pos b) (withNew w (newCmd w k pos b)) := by
    simp only [takeEntry, hskip, hbase]
    exact if_pos hspan
  rw [hop, complete, if_neg (by simpa using hqk)]

/-- Nothing ends late of a queue in service (R118, R140). -/
theorem lateEnds_none (hk : sliceOf k = some n) (hact : (w.slice n).state = .active) (hq : (w.queue k).state = .active) :
    drainLate k (rejectLate k w) = w := by
  have hreject : rejectLate k w = w := by simp [rejectLate, hk, hact]
  rw [hreject]
  simp [drainLate, hq]

/-- The oldest read of a queue in service, of one entry, gives it as a command once its late ends have found nothing (R162). -/
theorem entriesRead_one {tag first : Nat} {r : Req} {data : List Byte} (hreq : w.req tag = some r) (hwhy : r.why = .sqRead k first 1)
    (hans : r.answer = some (St.ok, data)) (hold : oldestRead w k first = true) (hq : (w.queue k).state = .active) :
    entriesRead e tag w =
      drainLate k (rejectLate k (takeEntry e k (BitVec.ofNat 32 first) (bytesAt data 0 64) (w.dropReq tag))) := by
  have hrev : (St.ok == St.pasidRevoked) = false := by decide
  simp only [entriesRead, hreq, hwhy, hans, hold, queue_dropReq, hq, hrev]
  rfl

/-- What an entry leaves as it becomes a command (R136, R161, R162). -/
theorem entriesRead_becomes {tag first : Nat} {r : Req} {data : List Byte} {c' : Cmd} (hk : sliceOf k = some n) (hreq : w.req tag = some r)
    (hwhy : r.why = .sqRead k first 1) (hans : r.answer = some (St.ok, data)) (hold : oldestRead w k first = true)
    (hq : (w.queue k).state = .active) (hskip : (w.queue k).skip = 0) (hbase : partBaseOf w k = none) (hact : (w.slice n).state = .active)
    (hfresh : ∀ c ∈ w.cmds, c.id < w.nextId) (hext : cExt (bytesAt data 0 64) = 0)
    (hadmit : let c := newCmd w k (BitVec.ofNat 32 first) (bytesAt data 0 64)
      Admits (withNew (w.dropReq tag) c) c c' (admitCmd e c.id (withNew (w.dropReq tag) c))) :
    let w' := entriesRead e tag w
    w'.cmd w.nextId = some c' ∧ (∀ d ∈ w.cmds, w'.cmd d.id = w.cmd d.id) ∧ w'.nextId = w.nextId + 1 ∧ w'.nextOrder = w.nextOrder + 1 ∧
    w'.fab.reqs = w.fab.reqs.filter (fun p => !(p.tag == tag)) ∧ w'.queues = w.queues ∧ w'.slices = w.slices := by
  let c : Cmd := newCmd w k (BitVec.ofNat 32 first) (bytesAt data 0 64)
  obtain ⟨hturns, hframe⟩ := hadmit
  have htake := takeEntry_whole (w := w.dropReq tag) (e := e) (pos := BitVec.ofNat 32 first) hskip hbase hext hq
  have hnew : newCmd (w.dropReq tag) k (BitVec.ofNat 32 first) (bytesAt data 0 64) = c := rfl
  rw [hnew] at htake
  obtain ⟨hown, hother⟩ := cmd_withNew (w := w.dropReq tag) (c := c) rfl hfresh
  dsimp only
  rw [entriesRead_one hreq hwhy hans hold hq, htake]
  change Turns (withNew (w.dropReq tag) c) c c' (admitCmd e c.id (withNew (w.dropReq tag) c)) at hturns
  generalize admitCmd e c.id (withNew (w.dropReq tag) c) = v at hturns hframe ⊢
  have hslices : v.slices = w.slices := (congrArg Work.slices hframe :)
  have hqueues : v.queues = w.queues := (congrArg Work.queues hframe :)
  rw [lateEnds_none hk (by rw [slice_congr hslices]; exact hact) (by rw [queue_congr hqueues]; exact hq)]
  refine ⟨hturns.1, fun d hd => ?_, (congrArg Work.nextId hframe :), (congrArg Work.nextOrder hframe :),
    (congrArg (fun x : Work => x.fab.reqs) hframe :), hqueues, hslices⟩
  obtain ⟨hne, hsame⟩ := hother d hd
  rw [hturns.2 d.id hne, hsame]
  exact cmd_congr rfl _

theorem placeOf_newCmd (hk : sliceOf k = some n) (v : Work) (hv : v.queues = w.queues) (pos : BitVec 32) (b : List Byte) :
    placeOf v (newCmd w k pos b) = { slice := some n, cls := (w.queue k).desc.cls, node := false } := by
  have hq : (v.queue (newCmd w k pos b).qk).desc.cls = (w.queue k).desc.cls := by rw [queue_congr hv]; rfl
  rw [placeOf, hq]
  simp only [newCmd, hk]
  rfl

theorem formOk_op {p : Place} {b : List Byte} (h : formOk e w p b = true) : ∃ o, cOp b = some o := by
  unfold formOk at h
  cases ho : cOp b with
  | none => simp [ho] at h
  | some o => exact ⟨o, rfl⟩

/-- A new command as the checks of its form leave it. -/
def checkedCmd (w : Work) (k : Nat) (pos : BitVec 32) (b : List Byte) (good : Bool) : Cmd :=
  { newCmd w k pos b with
    phase := .fetched, timer := some (timeoutOf w k b), endStatus := if good = true then none else some St.badCommand }

theorem admitCmd_checked {tag : Nat} {pos : BitVec 32} {b : List Byte} {good : Bool} (hk : sliceOf k = some n)
    (hfresh : ∀ c ∈ w.cmds, c.id < w.nextId)
    (hgood : formOk e w { slice := some n, cls := (w.queue k).desc.cls, node := false } b = good)
    (hfields : good = true → ∀ o, cOp b = some o → handleFields o b = [] ∧ o ≠ .objCreate ∧ o ≠ .streamCreate) :
    Admits (withNew (w.dropReq tag) (newCmd w k pos b)) (newCmd w k pos b) (checkedCmd w k pos b good)
      (admitCmd e (newCmd w k pos b).id (withNew (w.dropReq tag) (newCmd w k pos b))) := by
  have hfound := (cmd_withNew (w := w.dropReq tag) (c := newCmd w k pos b) rfl hfresh).1
  have hform : formOk e (withNew (w.dropReq tag) (newCmd w k pos b))
      (placeOf (withNew (w.dropReq tag) (newCmd w k pos b)) (newCmd w k pos b)) (newCmd w k pos b).bytes = good := by
    have hplace := placeOf_newCmd (w := w) hk (withNew (w.dropReq tag) (newCmd w k pos b)) rfl pos b
    rw [hplace]
    exact (formOk_congr (w := w) rfl _ _).trans hgood
  cases good with
  | true =>
    obtain ⟨o, ho⟩ := formOk_op hgood
    obtain ⟨hnone, hobj, hstream⟩ := hfields rfl o ho
    exact admitCmd_good hfound hform ho hnone hobj hstream
  | false => exact admitCmd_bad hfound rfl hform

/-- Settles O22: a fetch, a status block and an entry that has been read. -/
theorem fetchingAndStatus : Obligations.FetchingAndStatus := by
  refine ⟨fun s n q h hn hq => ⟨fun hmay => ?fetch, fun hnot => ?left⟩, fun s n q h hn hq hon hdirty hbusy hact => ?status,
    fun s tag n q first r data h hn hq hreq hwhy hans hold hqact hskip hbase hact hfresh hext good hgood hfields => ?entry⟩
  case fetch =>
    refine does_of (f := fun _ w => startFetch (qkey n q) w) rfl h ?_
    obtain ⟨hfetch, hdirty, htail, hcq, hdesc, hstate, hhead⟩ := startFetch_queue hmay
    have hother (m : Nat) (hm : m ≠ 64 * n + q) : (startFetch (64 * n + q) s.core.work).queue m = s.core.work.queue m := by
      rw [startFetch_goes hmay]
      exact queue_updQueue_other _ _ _ _ hm
    have hframe : { startFetch (64 * n + q) s.core.work with queues := s.core.work.queues } = s.core.work := by
      rw [startFetch_goes hmay]
      rfl
    rw [qkey_eq hn hq]
    exact ⟨hfetch, hdirty, htail, hcq, hdesc, hstate, hhead, hother, hframe⟩
  case left =>
    refine leaves_of (f := fun _ w => startFetch (qkey n q) w) rfl h ?_
    rw [qkey_eq hn hq]
    exact if_neg (ne_true_of_eq_false hnot)
  case status =>
    refine does_of (f := fun e w => writeStatus e (qkey n q) w) rfl h ?_
    obtain ⟨hasks, ⟨hown, hother⟩, hlogs, hframe⟩ := writeStatus_asks (e := s.core) (sliceOf_own hn hq) hon hdirty hbusy hact
    rw [qkey_eq hn hq]
    exact ⟨hasks, hown, hother, hlogs, hframe⟩
  case entry =>
    refine does_of (f := fun e w => entriesRead e tag w) rfl h ?_
    have hk := sliceOf_own hn hq
    obtain ⟨hcmd, hcmds, hid, horder, hreqs, hqueues, hslices⟩ := entriesRead_becomes hk hreq hwhy hans hold hqact hskip hbase hact hfresh
      hext (admitCmd_checked hk hfresh hgood hfields)
    generalize entriesRead _ _ _ = v at *
    exact ⟨_, hcmd, rfl, hk, rfl, rfl, by simp [checkedCmd, newCmd, hext], rfl, rfl, rfl, rfl, rfl, rfl, rfl, hcmds, hid, horder, hreqs, hqueues,
      hslices⟩

end

end Sys2Proof.Machine

end

-- Proofs about RESUME, RETRY and the admin queue (R141, R150, R214 to R217).
section

namespace Sys2Proof.Machine

/-! ### RESUME and RETRY (R141, R150) -/

section

variable {e : Block} {w : Work} {k n c : Nat}

/-- A context that its teardown has killed no longer shows it. -/
def Ctx.revived (x : Ctx) : Ctx := { x with killed := false }

theorem LogsOnly.ctx {v : Work} (h : LogsOnly w v) (n c : Nat) : v.ctx n c = w.ctx n c := by
  have hctxs : (v.slice n).ctxs = (w.slice n).ctxs := (congrArg Slice.ctxs (h n) :)
  rw [Work.ctx, hctxs, Work.ctx]

theorem updCtx_state (w : Work) (n c : Nat) (f : Ctx → Ctx) : ((w.updCtx n c f).slice n).state = (w.slice n).state := by
  rw [Work.updCtx, slice_updSlice]

theorem updCtx_pasid (w : Work) (n c m : Nat) (f : Ctx → Ctx) : ((w.updCtx n c f).slice m).pasid = (w.slice m).pasid := by
  rw [Work.updCtx]
  by_cases hm : m = n
  · rw [hm, slice_updSlice]
  · rw [slice_updSlice_other _ _ _ _ hm]

theorem ctxAddr_updCtx (w : Work) (n c d : Nat) (f : Ctx → Ctx) : ctxAddr (w.updCtx n c f) n d = ctxAddr w n d := by
  rw [ctxAddr, Work.updCtx, slice_updSlice, ctxAddr]

/-- KILLED clears in a context and in its record (R141). -/
theorem clearKilled_asks (hact : (w.slice n).state = .active) :
    let w' := clearKilled e n c w
    (w'.ctx n c).killed = false ∧
    ((w.ctx n c).known = true →
      Asks w (some n) .write false (ctxAddr w n c + 33) 1 (leBytes 1 (if (w.ctx n c).saved then 1 else 0)) (.ctxRecord n c) w') ∧
    ((w.ctx n c).known = false → Asks w (some n) .read false (ctxAddr w n c + 33) 3 [] (.ctxFlags n c) w') ∧
    { w' with fab := w.fab, slices := w.slices } = w := by
  let v : Work := w.updCtx n c Ctx.revived
  have hactv : (v.slice n).state = .active := by rw [updCtx_state, hact]
  have hctx : v.ctx n c = (w.ctx n c).revived := ctx_updCtx ..
  have hpasid (m : Nat) (_ : some n = some m) : (v.slice m).pasid = (w.slice m).pasid := updCtx_pasid ..
  have haddr : ctxAddr v n c = ctxAddr w n c := ctxAddr_updCtx ..
  dsimp only
  cases hknown : (w.ctx n c).known with
  | true =>
    have hflags : leBytes 1 (v.ctx n c).flags = leBytes 1 (if (w.ctx n c).saved then 1 else 0) := by
      rw [hctx]
      rfl
    have hop : clearKilled e n c w = writeFor e (some n) false (ctxAddr w n c + 33) (leBytes 1 (if (w.ctx n c).saved then 1 else 0))
        (.ctxRecord n c) v := by
      rw [clearKilled, if_pos hknown, ← hflags, ← haddr]
      rfl
    obtain ⟨hasks, hlogs, hframe⟩ := writeFor_issues (e := e) (a := ctxAddr w n c + 33) (why := .ctxRecord n c)
      (mayIssue_active hactv false) (length_leBytes 1 (if (w.ctx n c).saved then 1 else 0))
    rw [hop]
    generalize writeFor _ _ _ _ _ _ _ = u at hasks hlogs hframe ⊢
    refine ⟨by rw [hlogs.ctx, hctx]; rfl, fun _ => hasks.congr rfl hpasid, fun h => (Bool.false_ne_true h.symm).elim, ?_⟩
    exact congrArg (fun x : Work => { x with slices := w.slices }) hframe
  | false =>
    have hop : clearKilled e n c w = readFor e (some n) false (ctxAddr w n c + 33) 3 (.ctxFlags n c) v := by
      rw [clearKilled, if_neg (ne_true_of_eq_false hknown)]
      rfl
    obtain ⟨hasks, hframe⟩ := readFor_issues (e := e) (a := ctxAddr w n c + 33) (len := 3) (why := .ctxFlags n c) (mayIssue_active hactv false)
    rw [hop]
    generalize readFor _ _ _ _ _ _ _ = u at hasks hframe ⊢
    have hslices : u.slices = v.slices := (congrArg Work.slices hframe :)
    refine ⟨?_, fun h => (Bool.false_ne_true h).elim, fun _ => hasks.congr rfl hpasid, ?_⟩
    · have hu : u.ctx n c = v.ctx n c := by rw [Work.ctx, slice_congr hslices, Work.ctx]
      rw [hu, hctx]
      rfl
    · exact congrArg (fun x : Work => { x with slices := w.slices }) hframe

/-- A queue that has returned to service. -/
def Queue.resumed (x : Queue) : Queue := { x with state := .active, stDirty := true, shownFetch := x.readNext }

/-- A HALTED queue returns to service (R141). -/
theorem resumeQueue_active (hk : sliceOf k = some n) (hhalt : (w.queue k).state = .halted) (hheld : (w.queue k).held = [])
    (hkept : (w.queue k).kept = []) (hfail : (w.queue k).stFailed = false) :
    resumeQueue e k w = clearKilled e n (w.queue k).desc.context (w.updQueue k Queue.resumed) := by
  simp only [resumeQueue, hhalt, hheld, hkept, hfail, hk]
  rfl

@[simp] theorem ctx_updQueue (w : Work) (k : Nat) (f : Queue → Queue) (n c : Nat) : (w.updQueue k f).ctx n c = w.ctx n c := rfl

theorem ctxAddr_updQueue (w : Work) (k : Nat) (f : Queue → Queue) (n c : Nat) : ctxAddr (w.updQueue k f) n c = ctxAddr w n c := rfl

theorem resumeQueue_asks (hk : sliceOf k = some n) (hact : (w.slice n).state = .active) (hhalt : (w.queue k).state = .halted)
    (hheld : (w.queue k).held = []) (hkept : (w.queue k).kept = []) (hfail : (w.queue k).stFailed = false) :
    let c := (w.queue k).desc.context
    let w' := resumeQueue e k w
    QueueIs w k (w.queue k).resumed w' ∧ (w'.ctx n c).killed = false ∧
    ((w.ctx n c).known = true →
      Asks w (some n) .write false (ctxAddr w n c + 33) 1 (leBytes 1 (if (w.ctx n c).saved then 1 else 0)) (.ctxRecord n c) w') ∧
    ((w.ctx n c).known = false → Asks w (some n) .read false (ctxAddr w n c + 33) 3 [] (.ctxFlags n c) w') ∧
    { w' with fab := w.fab, queues := w.queues, slices := w.slices } = w := by
  have hqueue := (queueIs_self w k).upd Queue.resumed
  have hact' : ((w.updQueue k Queue.resumed).slice n).state = .active := by rw [slice_updQueue, hact]
  have hpasid (m : Nat) (_ : some n = some m) : ((w.updQueue k Queue.resumed).slice m).pasid = (w.slice m).pasid := by rw [slice_updQueue]
  obtain ⟨hkilled, hknown, hunknown, hframe⟩ := clearKilled_asks (e := e) (c := (w.queue k).desc.context) hact'
  dsimp only
  rw [resumeQueue_active hk hhalt hheld hkept hfail]
  rw [ctx_updQueue, ctxAddr_updQueue] at hknown hunknown
  generalize clearKilled _ _ _ _ = u at hkilled hknown hunknown hframe ⊢
  exact ⟨hqueue.congr (congrArg Work.queues hframe :), hkilled, fun h => (hknown h).congr rfl hpasid, fun h => (hunknown h).congr rfl hpasid,
    congrArg (fun x : Work => { x with queues := w.queues }) hframe⟩

theorem length_recBytes (r : Rec) (m l : Nat) (deferred : Bool) : (recBytes r m l deferred).length = 32 := by
  simp [recBytes, length_leBytes]

/-- A record goes out at CQ_TAIL (R130). -/
theorem startRecord_asks {r : Rec} {deferred : Bool} (hk : sliceOf k = some n) (hact : (w.slice n).state = .active) :
    let y := w.queue k
    let w' := startRecord e k r deferred w
    Asks w (some n) .write y.desc.cqDev
      (spaceAddr e y.desc.cqDev (y.desc.cqBase.toNat + y.cqTail.toNat % 2 ^ y.desc.cqLog2 * 32)) 32
      (recBytes r y.cqTail.toNat y.desc.cqLog2 deferred) (.record k deferred) w' ∧
    QueueIs w k { y with recBusy := some r } w' ∧ LogsOnly w w' ∧ { w' with fab := w.fab, queues := w.queues, slices := w.slices } = w := by
  let f (y : Queue) : Queue := { y with recBusy := some r }
  have hact' : ((w.updQueue k f).slice n).state = .active := by rw [slice_updQueue, hact]
  have hqueue := (queueIs_self w k).upd f
  have hop : startRecord e k r deferred w = writeFor e (some n) (w.queue k).desc.cqDev
      ((w.queue k).desc.cqBase.toNat + (w.queue k).cqTail.toNat % 2 ^ (w.queue k).desc.cqLog2 * 32)
      (recBytes r (w.queue k).cqTail.toNat (w.queue k).desc.cqLog2 deferred) (.record k deferred) (w.updQueue k f) := by
    rw [startRecord, hk]
  obtain ⟨hasks, hlogs, hframe⟩ := writeFor_issues (e := e) (v := w.updQueue k f) (why := .record k deferred)
    (a := (w.queue k).desc.cqBase.toNat + (w.queue k).cqTail.toNat % 2 ^ (w.queue k).desc.cqLog2 * 32)
    (mayIssue_active hact' (w.queue k).desc.cqDev) (length_recBytes r (w.queue k).cqTail.toNat (w.queue k).desc.cqLog2 deferred)
  dsimp only
  rw [hop]
  generalize writeFor _ _ _ _ _ _ _ = u at hasks hlogs hframe ⊢
  refine ⟨hasks.congr rfl fun m _ => by rw [slice_updQueue], hqueue.congr (congrArg Work.queues hframe :), ?_, ?_⟩
  · exact (LogsOnly.of_slice fun m => slice_updQueue w k f m).trans hlogs
  · exact congrArg (fun x : Work => { x with queues := w.queues }) hframe

/-- The oldest held record goes out where the ring has room (R150). -/
theorem retryQueue_writes {r : Rec} {rest : List Rec} (hk : sliceOf k = some n) (hact : (w.slice n).state = .active)
    (hheld : (w.queue k).held = r :: rest) (hbusy : (w.queue k).recBusy = none)
    (hroom : ((w.queue k).cqTail - (w.queue k).cqHead).toNat < 2 ^ (w.queue k).desc.cqLog2) (hfail : (w.queue k).stFailed = false) :
    let y := w.queue k
    let w' := retryQueue e k w
    Asks w (some n) .write y.desc.cqDev
      (spaceAddr e y.desc.cqDev (y.desc.cqBase.toNat + y.cqTail.toNat % 2 ^ y.desc.cqLog2 * 32)) 32
      (recBytes r y.cqTail.toNat y.desc.cqLog2 true) (.record k true) w' ∧
    QueueIs w k { y with recBusy := some r } w' ∧ LogsOnly w w' ∧ { w' with fab := w.fab, queues := w.queues, slices := w.slices } = w := by
  let f (q : Queue) : Queue := if q.stFailed then { q with stDirty := true } else q
  have hv : (w.updQueue k f).queue k = w.queue k := (queue_updQueue ..).trans (if_neg (ne_true_of_eq_false hfail))
  have hact' : ((w.updQueue k f).slice n).state = .active := by rw [slice_updQueue, hact]
  have hfull : (w.queue k).ringFull = false := by simpa [Queue.ringFull] using hroom
  have hop : retryQueue e k w = startRecord e k r true (w.updQueue k f) := by
    change retryRecords e k (w.updQueue k f) = startRecord e k r true (w.updQueue k f)
    simp only [retryRecords, hv, hheld, hbusy, hfull, mayWrite_active hk hact']
    rfl
  obtain ⟨hasks, ⟨hown, hother⟩, hlogs, hframe⟩ := startRecord_asks (e := e) (r := r) (deferred := true) hk hact'
  rw [hv] at hasks hown
  dsimp only
  rw [hop]
  generalize startRecord _ _ _ _ _ = u at hasks hown hother hlogs hframe ⊢
  refine ⟨hasks.congr rfl fun m _ => by rw [slice_updQueue], ⟨hown, fun m hm => ?_⟩, ?_, ?_⟩
  · rw [hother m hm, queue_updQueue_other _ _ _ _ hm]
  · exact (LogsOnly.of_slice fun m => slice_updQueue w k f m).trans hlogs
  · exact congrArg (fun x : Work => { x with queues := w.queues }) hframe

/-! ### The admin queue (R214 to R217) -/

/-- The five positions of a queue that is enabled (R215). -/
def Queue.fresh (x : Queue) : Queue :=
  { x with tail := 0, fetch := 0, head := 0, cqTail := 0, cqHead := 0, shownFetch := 0, readNext := 0, finished := [] }

theorem adminEnable_reads (h : w.admin.enable = false) : adminEnable e w =
    readFor e none false w.admin.descAddr.toNat 64 .adminDesc
      { w.updQueue adminKey Queue.fresh with admin := { w.admin with enable := true } } := by
  simp only [adminEnable, h]
  rfl

theorem adminEnable_asks (h : w.admin.enable = false) :
    let w' := adminEnable e w
    Asks w none .read false w.admin.descAddr.toNat 64 [] .adminDesc w' ∧ w'.admin = { w.admin with enable := true } ∧
    QueueIs w adminKey (w.queue adminKey).fresh w' ∧ { w' with fab := w.fab, admin := w.admin, queues := w.queues } = w := by
  have hqueue := ((queueIs_self w adminKey).upd Queue.fresh).congr
    (u := { w.updQueue adminKey Queue.fresh with admin := { w.admin with enable := true } }) rfl
  obtain ⟨hasks, hframe⟩ := readFor_issues (e := e) (v := { w.updQueue adminKey Queue.fresh with admin := { w.admin with enable := true } })
    (a := w.admin.descAddr.toNat) (len := 64) (why := .adminDesc) (mayIssue_open (s := none) (by simp) false)
  dsimp only
  rw [adminEnable_reads h]
  generalize readFor _ _ _ _ _ _ _ = u at hasks hframe ⊢
  refine ⟨hasks.congr rfl (by simp), (congrArg Work.admin hframe :), hqueue.congr (congrArg Work.queues hframe :), ?_⟩
  exact congrArg (fun x : Work => { x with admin := w.admin, queues := w.queues }) hframe

theorem adminDisable_off (h : w.admin.enable = true) (hnone : ∀ c ∈ w.cmds, ¬(c.phase = .partBase ∧ c.qk = adminKey)) : adminDisable w =
    { w.updFab fun f => { f with reqs := f.reqs.map fun r => if r.why = .adminDesc then { r with dead := true } else r } with
      admin := { w.admin with enable := false } } := by
  have hfilter : w.cmds.filter (fun c => c.phase == .partBase && c.endStatus.isNone && c.qk == adminKey) = [] := by
    rw [List.filter_eq_nil_iff]
    intro c hc
    have := hnone c hc
    simp only [Bool.and_eq_true, beq_iff_eq, not_and]
    exact fun hp hk => this ⟨hp.1, hk⟩
  rw [adminDisable, if_pos h]
  simp only [rejectPartBases, Work.updFab, hfilter]
  rfl

/-- Settles O21: RESUME and RETRY of a slice's queue, and the two edges of the admin queue's ENABLE. -/
theorem queueControl : Obligations.QueueControl := by
  refine ⟨fun s n q h hn hq hact => ⟨fun hhalt hheld hkept hfail => ?resume, fun r rest hon hheld hbusy hroom hfail => ?retry⟩,
    fun s h => ⟨fun henable => ?enable, fun henable => ?enabled, fun henable hnone => ?disable, fun henable => ?disabled⟩⟩
  case resume =>
    refine does_of (f := fun e w => if n < 64 then resumeQueue e (qkey n q) w else w) rfl h ?_
    obtain ⟨⟨hown, hother⟩, hkilled, hknown, hunknown, hframe⟩ := resumeQueue_asks (e := s.core) (sliceOf_own hn hq) hact hhalt hheld hkept hfail
    rw [if_pos hn, qkey_eq hn hq]
    refine ⟨hown, hother, hkilled, ?_, hframe⟩
    split
    next hflags => exact hknown hflags
    next hflags => exact hunknown (Bool.eq_false_of_not_eq_true hflags)
  case retry =>
    refine does_of (f := fun e w =>
      if n < 64 && (w.queue (qkey n q)).state != .absent then retryQueue e (qkey n q) w else w) rfl h ?_
    obtain ⟨hasks, ⟨hown, hother⟩, hlogs, hframe⟩ := retryQueue_writes (e := s.core) (sliceOf_own hn hq) hact hheld hbusy hroom hfail
    rw [qkey_eq hn hq, if_pos (by simp [hn, hon])]
    exact ⟨hasks, hown, hother, hlogs, hframe⟩
  case enable =>
    refine does_of (f := adminEnable) rfl h ?_
    obtain ⟨hasks, hadmin, ⟨hown, hother⟩, hframe⟩ := adminEnable_asks (e := s.core) henable
    have hown' : (adminEnable s.core s.core.work).queue 4096 = (s.core.work.queue adminKey).fresh := hown
    rw [hown']
    exact ⟨hasks, hadmin, rfl, rfl, rfl, rfl, rfl, hother, hframe⟩
  case enabled => exact leaves_of (f := adminEnable) rfl h (if_pos henable)
  case disable =>
    refine does_of (f := fun _ w => adminDisable w) rfl h ?_
    rw [adminDisable_off henable hnone]
    refine ⟨rfl, rfl, fun r hr hwhy => ?_, rfl⟩
    obtain ⟨x, -, rfl⟩ := List.mem_map.mp hr
    split
    next => rfl
    next hne =>
      rw [if_neg hne] at hwhy
      exact absurd hwhy hne
  case disabled => exact leaves_of (f := fun _ w => adminDisable w) rfl h (if_neg (ne_true_of_eq_false henable))

end

end Sys2Proof.Machine

end

-- Proofs about single locks (R459 to R461).
section

namespace Sys2Proof.Machine

/-! ### Single locks (R459 to R461) -/

section

variable {b : Block} {i : Nat}

@[simp] theorem lock_setLock (o : Option (BitVec 8)) : (b.setLock i o).lock i = o := tblGet_tblSet_same ..

theorem lock_setLock_other (o : Option (BitVec 8)) {k : Nat} (hk : k ≠ i) : (b.setLock i o).lock k = b.lock k :=
  tblGet_tblSet_other _ _ _ _ _ hk

/-- A lock set: it, no other, and nothing else of the block. -/
theorem setLock_sets (o : Option (BitVec 8)) :
    (b.setLock i o).lock i = o ∧ (∀ k, k ≠ i → (b.setLock i o).lock k = b.lock k) ∧ (b.setLock i o).mbx.refused = b.mbx.refused ∧
    (b.setLock i o).mbx.chans = b.mbx.chans ∧ { b.setLock i o with mbx := b.mbx } = b :=
  ⟨lock_setLock o, fun _ hk => lock_setLock_other o hk, rfl, rfl, rfl⟩

/-- A cluster reset that is not due leaves the mailbox unit. -/
theorem boxReset_none (h : b.work.jnr.boxDue = false) : boxReset b = b := by simp [boxReset, h]

theorem readLock_free {mid : BitVec 8} (hi : i < 64) (hmid : lockAccess mid.toNat = true) (h : b.lock i = none) :
    readLock mid i b = b.setLock i (some mid) := by simp [readLock, h, hi, hmid]

theorem readLock_held {mid o : BitVec 8} (h : b.lock i = some o) : readLock mid i b = b := by simp [readLock, h]

theorem lockWord_free (h : b.lock i = none) : lockWord b i = 0 := by simp [lockWord, h]

theorem lockWord_held {o : BitVec 8} (h : b.lock i = some o) : lockWord b i = BitVec.ofNat 64 (256 + o.toNat) := by simp [lockWord, h]

/-- A read of a lock over the function port goes the way of LOCK_READ. -/
theorem portAccess_lock (hpor : b.st.inPor = false) (hbar : b.st.bar0 = true) (hhalt : b.st.halted = false) (hi : i < 64) (v : BitVec 64)
    (tag : BitVec 10) : portAccess false false (0x41000 + 8 * i) 8 v tag b = b.updWork fun w => w.later (.lockRead 0 i (some tag)) := by
  have hserves : (accessForm (0x41000 + 8 * i) 8 && barServes b false (0x41000 + 8 * i) && inBar false (0x41000 + 8 * i)) = true := by
    simp [accessForm, barServes, inBar, hpor, hbar, hhalt]
    omega
  have hreads : readsLock false (0x41000 + 8 * i) = true := by
    simp [readsLock]
    omega
  have hindex : (0x41000 + 8 * i - 0x41000) / 8 = i := by omega
  simp only [portAccess, hserves, portRead, hreads, hindex, if_true, Bool.false_eq_true, if_false]

/-- A write of a lock by other than its holder, or of a value other than zero, is discarded and counted. -/
theorem writeLock_refused {mid : BitVec 8} {v : BitVec 64} (h : b.lock i ≠ some mid ∨ v ≠ 0) : writeLock mid i v b = countRefused b :=
  if_neg fun hw => h.elim (· hw.1) (· hw.2)

end

/-- Settles O25: reads of locks wait for the end of the control cycle, writes and forced releases act at once. -/
theorem lockCommands : Obligations.LockCommands := by
  unfold Obligations.LockCommands
  refine fun s mid i v h hi => ⟨?read, ?port, fun b tag => ⟨?free, ?held⟩, ?release, ?refused, ?force⟩
  case read =>
    intro hmid
    refine acts_of rfl h ?_
    simp only [hi, hmid, decide_true, Bool.and_self, if_true]
    rfl
  case port =>
    intro tag hpor hbar hhalt hdue
    refine acts_of (f := fun b => boxReset (portAccess false false (0x41000 + 8 * i) 8 v tag b)) rfl h ?_
    rw [portAccess_lock hpor hbar hhalt hi, boxReset_none (by exact hdue)]
    rfl
  case free =>
    intro hfree hmid
    simp only [decideLate, lockReadLate, readLock_free hi hmid hfree, lockWord_free hfree]
    obtain ⟨hlock, hothers, hrefused, hchans, -⟩ := setLock_sets (b := b) (i := i) (some mid)
    refine ⟨hlock, hothers, hrefused, hchans, ?_⟩
    cases tag <;> rfl
  case held =>
    intro o ho
    simp only [decideLate, lockReadLate, readLock_held ho, lockWord_held ho]
    cases tag <;> rfl
  case release =>
    intro hmid hlock hv
    refine acts_of rfl h ?_
    simp only [hi, hmid, decide_true, Bool.and_self, if_true, writeLock, hlock, hv, and_self]
    exact setLock_sets none
  case refused =>
    intro hmid hw
    refine acts_of rfl h ?_
    simp only [hi, hmid, decide_true, Bool.and_self, if_true, writeLock_refused hw]
    rfl
  case force =>
    refine acts_of rfl h ?_
    simp only [hi, if_true]
    exact setLock_sets none

end Sys2Proof.Machine

end

-- Proofs about the mailbox channels (R452 to R458).
section

namespace Sys2Proof.Machine

/-! ### Accesses to one channel (R454 to R457) -/

section

variable {b b' b'' : Block} {c d : Nat} {x : Channel}

@[simp] theorem chan_updChan (f : Channel → Channel) : (b.updChan c f).chan c = f (b.chan c) := tblGet_tblUpd_same ..

theorem chan_updChan_other (f : Channel → Channel) {k : Nat} (hk : k ≠ c) : (b.updChan c f).chan k = b.chan k :=
  tblGet_tblUpd_other _ _ _ _ _ hk

/-- The mailbox unit of `b'` differs from `b`'s in channel `c` alone, which is now `x`; outside the unit only what its interrupts take
has changed. -/
structure OnChan (c : Nat) (x : Channel) (b b' : Block) : Prop where
  chan : b'.chan c = x
  others : ∀ k, k ≠ c → b'.chan k = b.chan k
  maint : b'.mbx.maint = b.mbx.maint
  frame : BoxFrame b b'

theorem BoxFrame.trans (h : BoxFrame b b') (h' : BoxFrame b' b'') : BoxFrame b b'' := by
  have := congrArg (fun y : Block => { y with
    mbx := b.mbx, work := { y.work with fab := b.work.fab, fresh := b.work.fresh, setNow := b.work.setNow } }) h'
  exact this.trans h

theorem OnChan.trans {y : Channel} (h : OnChan c x b b') (h' : OnChan c y b' b'') : OnChan c y b b'' where
  chan := h'.chan
  others k hk := (h'.others k hk).trans (h.others k hk)
  maint := h'.maint.trans h.maint
  frame := h.frame.trans h'.frame

theorem onChan_self : OnChan c (b.chan c) b b := ⟨rfl, fun _ _ => rfl, rfl, rfl⟩

theorem OnChan.updChan (h : OnChan c x b b') (f : Channel → Channel) : OnChan c (f x) b (b'.updChan c f) where
  chan := by rw [chan_updChan, h.chan]
  others k hk := by rw [chan_updChan_other f hk, h.others k hk]
  maint := h.maint
  frame := h.frame.trans rfl

/-- The mailbox unit stays over what interrupts take. -/
theorem OnChan.keeps (h : OnChan c x b b') (hmbx : b''.mbx = b'.mbx) (hframe : BoxFrame b' b'') : OnChan c x b b'' where
  chan := (congrArg (fun m : Mailboxes => tblGet ({} : Channel) m.chans c) hmbx).trans h.chan
  others k hk := (congrArg (fun m : Mailboxes => tblGet ({} : Channel) m.chans k) hmbx).trans (h.others k hk)
  maint := (congrArg Mailboxes.maint hmbx).trans h.maint
  frame := h.frame.trans hframe

theorem OnChan.sets (h : OnChan c x b b') (r : W1c) (v : BitVec 64) : OnChan c x b (b'.updWork fun w => w.sets r v) := h.keeps rfl rfl

theorem peerInterrupt_box (c : Nat) (b : Block) : (peerInterrupt c b).mbx = b.mbx ∧ BoxFrame b (peerInterrupt c b) := by
  unfold peerInterrupt
  dsimp only
  split_ifs <;> exact ⟨rfl, rfl⟩

theorem clusterInterrupt_box (c : Nat) (b : Block) : BoxFrame b (b.updWork (clusterInterrupt c)) := by
  unfold Block.updWork clusterInterrupt
  dsimp only
  split <;> rfl

theorem OnChan.interrupt (h : OnChan c x b b') (d : Nat) (atCluster : Bool) : OnChan c x b (endInterrupt d atCluster b') := by
  cases atCluster
  · exact h.keeps (peerInterrupt_box d b').1 (peerInterrupt_box d b').2
  · exact h.keeps rfl (clusterInterrupt_box d b')

/-! ### Timeouts (R457) -/

/-- A channel with TIMEOUT bits of an end set. -/
def Channel.timedOut (x : Channel) (byCluster : Bool) (bits : BitVec 16) : Channel :=
  if byCluster then { x with timeoutCluster := x.timeoutCluster ||| bits } else { x with timeoutPeer := x.timeoutPeer ||| bits }

@[simp] theorem timeout_timedOut (e : Bool) (bits : BitVec 16) : (x.timedOut e bits).timeout e = x.timeout e ||| bits := by
  cases e <;> rfl

@[simp] theorem timeout_timedOut_other (e : Bool) (bits : BitVec 16) : (x.timedOut e bits).timeout (!e) = x.timeout (!e) := by
  cases e <;> rfl

@[simp] theorem timedOut_db (e : Bool) (bits : BitVec 16) : (x.timedOut e bits).db = x.db := by cases e <;> rfl
@[simp] theorem timedOut_mask (e : Bool) (bits : BitVec 16) : (x.timedOut e bits).mask = x.mask := by cases e <;> rfl
@[simp] theorem timedOut_peerWord (e : Bool) (bits : BitVec 16) : (x.timedOut e bits).peerWord = x.peerWord := by cases e <;> rfl
@[simp] theorem timedOut_clusterWord (e : Bool) (bits : BitVec 16) : (x.timedOut e bits).clusterWord = x.clusterWord := by cases e <;> rfl
@[simp] theorem timedOut_ringToPeer (e : Bool) (bits : BitVec 16) : (x.timedOut e bits).ringToPeer = x.ringToPeer := by cases e <;> rfl
@[simp] theorem timedOut_ringToCluster (e : Bool) (bits : BitVec 16) : (x.timedOut e bits).ringToCluster = x.ringToCluster := by
  cases e <;> rfl

/-- Bits that a word has already change nothing. -/
theorem or_of_and_not {n : Nat} {a y : BitVec n} (h : y &&& ~~~a = 0) : a ||| y = a := by
  refine BitVec.eq_of_getLsbD_eq fun i hi => ?_
  have hbit := congrArg (BitVec.getLsbD · i) h
  simp only [BitVec.getLsbD_and, BitVec.getLsbD_not, hi, decide_true, Bool.true_and, BitVec.ofNat_eq_ofNat, BitVec.getLsbD_zero] at hbit
  rw [BitVec.getLsbD_or]
  cases ha : a.getLsbD i
  · simpa [ha] using hbit
  · rfl

theorem or_and_not {n : Nat} (a y : BitVec n) : a ||| y &&& ~~~a = a ||| y := by
  refine BitVec.eq_of_getLsbD_eq fun i hi => ?_
  simp only [BitVec.getLsbD_or, BitVec.getLsbD_and, BitVec.getLsbD_not, hi, decide_true, Bool.true_and]
  cases a.getLsbD i <;> simp

theorem OnChan.setTimeouts (h : OnChan c x b b') (e : Bool) (bits : BitVec 16) :
    OnChan c (x.timedOut e bits) b (setTimeouts c e bits b') := by
  unfold Machine.setTimeouts
  dsimp only
  rw [h.chan]
  have hsets := h.sets (.timeout c e) (bits.setWidth 64)
  split
  case isTrue hnone =>
    have hbits : x.timeout e ||| bits = x.timeout e := or_of_and_not hnone
    have hx : x.timedOut e bits = x := by
      cases e
      · exact congrArg (fun y => { x with timeoutPeer := y }) hbits
      · exact congrArg (fun y => { x with timeoutCluster := y }) hbits
    rw [hx]
    exact hsets
  case isFalse =>
    have hx : x.timedOut e bits = x.timedOut e (bits &&& ~~~x.timeout e) := by
      cases e <;> simp [Channel.timedOut, Channel.timeout, or_and_not]
    rw [hx]
    exact (hsets.updChan fun x => x.timedOut e _).interrupt c e

/-! ### Rings (R455, R456) -/

/-- A channel with bits rung by an identity. -/
def Channel.rung (x : Channel) (mid : BitVec 8) (byCluster : Bool) (bits : BitVec 16) : Channel :=
  if byCluster then { x with db := x.db ||| halfOf true bits, ringToPeer := mid }
  else { x with db := x.db ||| halfOf false bits, ringToCluster := mid }

@[simp] theorem rung_db (mid : BitVec 8) (e : Bool) (bits : BitVec 16) : (x.rung mid e bits).db = x.db ||| halfOf e bits := by
  cases e <;> rfl
@[simp] theorem rung_timeout (mid : BitVec 8) (e f : Bool) (bits : BitVec 16) : (x.rung mid e bits).timeout f = x.timeout f := by
  cases e <;> rfl

theorem OnChan.cannotAnswer (h : OnChan c x b b') (d : Nat) (e : Bool) : cannotAnswer b' d e = cannotAnswer b d e := by
  have hdct : b'.dct = b.dct := (congrArg Block.dct h.frame :)
  have hslices : b'.work.slices = b.work.slices := (congrArg (fun y : Block => y.work.slices) h.frame :)
  have hjnr : b'.work.jnr = b.work.jnr := (congrArg (fun y : Block => y.work.jnr) h.frame :)
  simp only [Machine.cannotAnswer, boundMid, h.maint, hdct, hjnr, slice_congr hslices]
  rfl

/-- The bits of a ring that are not set yet become set, with the identity that rang. -/
theorem setBits_on (mid : BitVec 8) (c : Nat) (e : Bool) (bits : BitVec 16) (b : Block) :
    OnChan c
      (if cannotAnswer b c e then
        ((b.chan c).rung mid e bits).timedOut e ((if e then newBits b c e bits >>> 16 else newBits b c e bits).setWidth 16)
      else (b.chan c).rung mid e bits)
      b (setBits mid c e bits b) := by
  have hrung : OnChan c ((b.chan c).rung mid e bits) b (b.updChan c fun x =>
      if e then { x with db := x.db ||| newBits b c e bits, ringToPeer := mid }
      else { x with db := x.db ||| newBits b c e bits, ringToCluster := mid }) := by
    have := onChan_self.updChan (b := b) (c := c) fun x =>
      if e then { x with db := x.db ||| newBits b c e bits, ringToPeer := mid }
      else { x with db := x.db ||| newBits b c e bits, ringToCluster := mid }
    cases e <;> simpa [Channel.rung, newBits, or_and_not] using this
  unfold setBits
  dsimp only
  generalize (b.updChan c _) = v at hrung ⊢
  have hint : OnChan c ((b.chan c).rung mid e bits) b (if newBits b c e bits &&& ~~~(b.chan c).mask = 0 then v else endInterrupt c (!e) v) := by
    split
    · exact hrung
    · exact hrung.interrupt c (!e)
  generalize (if newBits b c e bits &&& ~~~(b.chan c).mask = 0 then v else endInterrupt c (!e) v) = u at hint ⊢
  rw [hint.cannotAnswer]
  split
  · exact hint.setTimeouts e _
  · exact hint

/-- A ring that resets nothing sets its bits, whether they are new or not. -/
theorem ringBits_new {mid : BitVec 8} {e : Bool} {bits : BitVec 16} (hnew : newBits b c e bits ≠ 0)
    (hreset : resetsCluster b c e bits = false) :
    OnChan c
      (if cannotAnswer b c e then
        ((b.chan c).rung mid e bits).timedOut e ((if e then newBits b c e bits >>> 16 else newBits b c e bits).setWidth 16)
      else (b.chan c).rung mid e bits)
      b (ringBits mid c e bits b) := by
  have hsets := (onChan_self (b := b) (c := c)).sets (.doorbell c) ((halfOf e bits).setWidth 64)
  have hop : ringBits mid c e bits b = setBits mid c e bits (b.updWork fun w => w.sets (.doorbell c) ((halfOf e bits).setWidth 64)) := by
    have hreset' : resetsCluster (b.updWork fun w => w.sets (.doorbell c) ((halfOf e bits).setWidth 64)) c e bits = false := hreset
    have hnew' : newBits (b.updWork fun w => w.sets (.doorbell c) ((halfOf e bits).setWidth 64)) c e bits ≠ 0 := hnew
    simp only [ringBits, hnew', hreset', if_false, Bool.false_eq_true]
  have hon := setBits_on mid c e bits (b.updWork fun w => w.sets (.doorbell c) ((halfOf e bits).setWidth 64))
  rw [hsets.cannotAnswer] at hon
  rw [hop]
  exact ⟨hon.chan, hon.others, hon.maint, hsets.frame.trans hon.frame⟩

/-- A ring of bits that stand already. -/
theorem ringBits_none {mid : BitVec 8} {e : Bool} {bits : BitVec 16} (hnone : newBits b c e bits = 0) :
    ringBits mid c e bits b = b.updWork fun w => w.sets (.doorbell c) ((halfOf e bits).setWidth 64) :=
  if_pos hnone

/-- A cluster reset by the host reaches the mailbox unit at once (R445, R451). -/
theorem boxReset_resets (e : Block) (cause : ClusterCause) (hmaint : b.mbx.maint = false) :
    let b' := boxReset (b.updWork (resetByHost e cause))
    b'.work.jnr.state = .reset ∧ b'.work.jnr.cause = cause ∧ b'.work.jnr.progs = [] ∧ b'.mbx.maint = true ∧ b'.mbx.chans = [] := by
  have hdue : (b.updWork (resetByHost e cause)).work.jnr.boxDue = true := rfl
  have hmode : (b.updWork (resetByHost e cause)).mbx.maint ≠ true := by
    rw [Block.updWork_mbx, hmaint]
    exact Bool.false_ne_true
  rw [boxReset, if_pos hdue, setMode, if_neg hmode]
  exact ⟨rfl, rfl, rfl, rfl, rfl⟩

theorem ringBits_resets {mid : BitVec 8} {e : Bool} {bits : BitVec 16} (hreset : resetsCluster b c e bits = true) :
    let b' := ringBits mid c e bits b
    b'.work.jnr.state = .reset ∧ b'.work.jnr.cause = .recoveryRing ∧ b'.work.jnr.progs = [] ∧ b'.mbx.maint = true ∧ b'.mbx.chans = [] := by
  have hmaint : b.mbx.maint = false := by
    simp only [resetsCluster, Bool.and_eq_true, Bool.not_eq_true'] at hreset
    exact hreset.1.1.1
  have hnew : newBits b c e bits ≠ 0 := fun hnone => by simp [resetsCluster, hnone] at hreset
  let v := b.updWork fun w => w.sets (.doorbell c) ((halfOf e bits).setWidth 64)
  have hop : ringBits mid c e bits b =
      boxReset ((setBits mid c e bits v).updWork (resetByHost (setBits mid c e bits v) .recoveryRing)) := by
    have hreset' : resetsCluster v c e bits = true := hreset
    have hnew' : newBits v c e bits ≠ 0 := hnew
    simp only [ringBits]
    rw [if_neg hnew', if_pos hreset']
  rw [hop]
  exact boxReset_resets _ _ ((setBits_on mid c e bits v).maint.trans hmaint)

/-- Bits set now join those set before in the control cycle. -/
theorem nowSet_sets (r : W1c) (v : BitVec 64) (w : Work) : (w.sets r v).nowSet r = w.nowSet r ||| v := by
  have hfold (l : List (W1c × BitVec 64)) (m : BitVec 64) : l.foldl (fun m p => if p.1 = r then m ||| p.2 else m) (m ||| v) =
      l.foldl (fun m p => if p.1 = r then m ||| p.2 else m) m ||| v := by
    induction l generalizing m with
    | nil => rfl
    | cons p l ih =>
      rw [List.foldl_cons, List.foldl_cons, ← ih]
      split
      · congr 1
        rw [BitVec.or_assoc, BitVec.or_comm v, ← BitVec.or_assoc]
      · rfl
  simpa [Work.nowSet, Work.sets] using hfold w.setNow 0

/-! ### Clears, masks and words -/

theorem clearBits_on (c : Nat) (e : Bool) (bits : BitVec 16) (b : Block) :
    OnChan c { b.chan c with db := (b.chan c).db &&& ~~~(halfOf (!e) bits &&& ~~~(b.work.nowSet (.doorbell c)).setWidth 32) } b
      (clearBits c e bits b) := by
  have hdb : (b.work.cleared (.doorbell c) ((b.chan c).db.setWidth 64) ((halfOf (!e) bits).setWidth 64)).setWidth 32 =
      (b.chan c).db &&& ~~~(halfOf (!e) bits &&& ~~~(b.work.nowSet (.doorbell c)).setWidth 32) := by
    unfold Work.cleared
    refine BitVec.eq_of_getLsbD_eq fun i hi => ?_
    have hi' : i < 64 := by omega
    simp [hi, hi']
  unfold clearBits
  dsimp only
  rw [hdb]
  have hon := onChan_self.updChan (b := b) (c := c) fun x =>
    { x with db := (b.chan c).db &&& ~~~(halfOf (!e) bits &&& ~~~(b.work.nowSet (.doorbell c)).setWidth 32) }
  split
  · exact hon.interrupt c e
  · exact hon

/-- With no bit rung in this control cycle, a clear raises no interrupt. -/
theorem clearBits_work {e : Bool} {bits : BitVec 16} (h : b.work.nowSet (.doorbell c) = 0) : (clearBits c e bits b).work = b.work := by
  simp [clearBits, Work.again, h]

/-- The half of a channel's register that an end does not own. -/
theorem not_half (e : Bool) : ~~~halfOf (!e) 0xFFFF = halfOf e 0xFFFF := by cases e <;> decide

theorem writeMask_on (c : Nat) (e : Bool) (bits : BitVec 16) (b : Block) :
    OnChan c { b.chan c with mask := ((b.chan c).mask &&& halfOf e 0xFFFF) ||| halfOf (!e) bits } b (writeMask c e bits b) := by
  unfold writeMask
  dsimp only
  rw [not_half]
  have hon := onChan_self.updChan (b := b) (c := c) fun x =>
    { x with mask := ((b.chan c).mask &&& halfOf e 0xFFFF) ||| halfOf (!e) bits }
  split
  · exact hon
  · exact hon.interrupt c e

/-- The bits of an end's mask that a write of `bits` clears. -/
theorem half_and_not (e : Bool) (bits : BitVec 16) : halfOf e 0xFFFF &&& ~~~halfOf e bits = halfOf e (~~~bits) := by
  have hall : (0xFFFF : BitVec 16) = BitVec.allOnes 16 := rfl
  rw [hall]
  refine BitVec.eq_of_getLsbD_eq fun i hi => ?_
  cases e
  · simp only [halfOf, Bool.false_eq_true, if_false, BitVec.getLsbD_and, BitVec.getLsbD_not, BitVec.getLsbD_setWidth,
      BitVec.getLsbD_allOnes, hi, decide_true, Bool.true_and]
  · by_cases h16 : i < 16
    · simp only [halfOf, if_true, BitVec.getLsbD_and, BitVec.getLsbD_not, BitVec.getLsbD_shiftLeft, h16, decide_true, Bool.not_true,
        Bool.and_false, Bool.false_and]
    · have hlow : i - 16 < 16 := by omega
      have hlow' : i - 16 < 32 := by omega
      simp only [halfOf, if_true, BitVec.getLsbD_and, BitVec.getLsbD_not, BitVec.getLsbD_shiftLeft, BitVec.getLsbD_setWidth,
        BitVec.getLsbD_allOnes, hi, h16, hlow, hlow', decide_true, decide_false, Bool.true_and, Bool.not_false]

theorem writeMask_work {e : Bool} {bits : BitVec 16}
    (h : (b.chan c).db &&& (b.chan c).mask &&& halfOf (!e) (~~~bits) = 0) : (writeMask c e bits b).work = b.work := by
  have hnone : (b.chan c).db &&& halfOf (!e) 0xFFFF &&& (b.chan c).mask &&&
      ~~~(((b.chan c).mask &&& ~~~halfOf (!e) 0xFFFF) ||| halfOf (!e) bits) = 0 := by
    rw [← half_and_not] at h
    generalize halfOf (!e) 0xFFFF = own at h ⊢
    generalize halfOf (!e) bits = new at h ⊢
    generalize (b.chan c).mask = m at h ⊢
    refine BitVec.eq_of_getLsbD_eq fun i hi => ?_
    have hbit := congrArg (BitVec.getLsbD · i) h
    simp only [BitVec.getLsbD_and, BitVec.getLsbD_not, BitVec.getLsbD_or, hi, decide_true, Bool.true_and, BitVec.ofNat_eq_ofNat,
      BitVec.getLsbD_zero] at hbit ⊢
    cases hm : m.getLsbD i <;> cases ho : own.getLsbD i <;> simp_all
  unfold writeMask
  dsimp only
  rw [if_pos hnone]
  rfl

theorem writeWord_on (mid : BitVec 8) (c : Nat) (e : Bool) (word : BitVec 64) (b : Block) :
    OnChan c (if e then { b.chan c with clusterWord := word, msgToPeer := mid }
      else { b.chan c with peerWord := word, msgToCluster := mid }) b (writeWord mid c e word b) := by
  have hon := onChan_self.updChan (b := b) (c := c) fun x =>
    if e then { x with clusterWord := word, msgToPeer := mid } else { x with peerWord := word, msgToCluster := mid }
  exact hon

theorem onEnd_accepts {mid : BitVec 8} {e : Bool} (hc : c < 64) (h : endAccepts b mid.toNat c e = true) (f : Block → Block) :
    onEnd mid c e f b = f b := by
  rw [onEnd, if_neg (by omega), if_pos h]

theorem onEnd_refuses {mid : BitVec 8} (hc : c < 64) (h : endAccepts b mid.toNat c false = false) (f : Block → Block) :
    onEnd mid c false f b = countRefused b := by
  rw [onEnd, if_neg (by omega), if_neg (by simp [h]), if_neg Bool.false_ne_true]

/-! ### The firmware's answers (R458) -/

/-- A request served: the reply stands, the request's bit is clear and bit 16 is set. -/
theorem serveRequest_on (c : Nat) (reply : Block → BitVec 64) (b : Block) :
    ∃ x, OnChan c x b (serveRequest c reply b) ∧ x.clusterWord = reply b ∧ x.peerWord = (b.chan c).peerWord ∧
      x.db = (b.chan c).db &&& ~~~halfOf false 1 ||| halfOf true 1 := by
  unfold serveRequest
  dsimp only
  generalize firmwareMid b = m
  have hon : OnChan c { b.chan c with db := (b.chan c).db &&& ~~~halfOf false 1, clusterWord := reply b, msgToPeer := m } b
      (writeWord m c true (reply b) (takeBits c 1 b)) :=
    (onChan_self.updChan fun x => { x with db := x.db &&& ~~~halfOf false 1 }).updChan fun x =>
      { x with clusterWord := reply b, msgToPeer := m }
  generalize writeWord m c true (reply b) (takeBits c 1 b) = u at hon ⊢
  have hdb : (u.chan c).db = (b.chan c).db &&& ~~~halfOf false 1 := by rw [hon.chan]
  by_cases hnew : newBits u c true 1 = 0
  · rw [ringBits_none hnew]
    refine ⟨_, hon.sets _ _, rfl, rfl, ?_⟩
    rw [newBits, hdb] at hnew
    exact (or_of_and_not hnew).symm
  · refine ⟨_, hon.trans (ringBits_new hnew (by simp [resetsCluster])), ?_, ?_, ?_⟩
    · rw [hon.chan]
      split
      · rw [timedOut_clusterWord]
        rfl
      · rfl
    · rw [hon.chan]
      split
      · rw [timedOut_peerWord]
        rfl
      · rfl
    · rw [hon.chan]
      split
      · rw [timedOut_db]
        rfl
      · rfl

theorem serveRequest_answers (c : Nat) (reply : Block → BitVec 64) (b : Block) :
    let b' := serveRequest c reply b
    (b'.chan c).clusterWord = reply b ∧ (b'.chan c).peerWord = (b.chan c).peerWord ∧ (b'.chan c).db.getLsbD 0 = false ∧
    (b'.chan c).db.getLsbD 16 = true ∧
    (∀ k, k < 32 → k ≠ 0 → k ≠ 16 → (b'.chan c).db.getLsbD k = (b.chan c).db.getLsbD k) ∧
    (∀ k, k ≠ c → b'.chan k = b.chan k) ∧ BoxFrame b b' := by
  obtain ⟨x, hon, hcluster, hpeer, hdb⟩ := serveRequest_on c reply b
  dsimp only
  generalize serveRequest c reply b = b' at hon ⊢
  rw [hon.chan, hdb]
  refine ⟨hcluster, hpeer, ?_, ?_, fun k hk h0 h16 => ?_, hon.others, hon.frame⟩
  · simp [halfOf]
  · simp [halfOf]
  · have hlow : (halfOf false 1).getLsbD k = false := by simp [halfOf, BitVec.getLsbD_one, h0]
    have hhigh : (halfOf true 1).getLsbD k = false := by
      have hone : (1 : BitVec 16).setWidth 32 = 1#32 := rfl
      by_cases hk16 : k < 16
      · simp only [halfOf, if_true, BitVec.getLsbD_shiftLeft, hk16, decide_true, Bool.not_true, Bool.and_false, Bool.false_and]
      · have hne : ¬k - 16 = 0 := by omega
        simp only [halfOf, if_true, BitVec.getLsbD_shiftLeft, hone, BitVec.getLsbD_one, hne, decide_false, Bool.and_false]
    rw [BitVec.getLsbD_or, BitVec.getLsbD_and, BitVec.getLsbD_not, hlow, hhigh]
    simp [hk]

/-- A bit that still stands when its time is up times out at the end that rang it. -/
theorem ringLate_set {bit : Nat} (hbit : bit < 32) (hdb : (b.chan c).db.getLsbD bit = true) :
    ringLate c bit b = setTimeouts c (16 ≤ bit) (BitVec.ofNat 16 (2 ^ (bit % 16))) b := by
  rw [ringLate, if_pos (by simp [hdb, hbit])]
  by_cases h16 : 16 ≤ bit
  · have hmod : bit % 16 = bit - 16 := by omega
    rw [if_pos h16, hmod, decide_eq_true h16]
  · have hmod : bit % 16 = bit := by omega
    rw [if_neg h16, hmod, decide_eq_false h16]

end

/-- Settles O24: rings, clears, masks and words of a channel, and the firmware's answers. -/
theorem mailboxCommands : Obligations.MailboxCommands := by
  unfold Obligations.MailboxCommands
  refine ⟨fun s mid c e bits word h hc => ⟨fun hacc => ⟨?ring, ?again, ?resets, ?clear, ?mask, ?word⟩, ?refused, ?timeout⟩, ?service⟩
  case ring =>
    intro hnew hreset
    refine acts_of rfl h ?_
    rw [onEnd_accepts hc hacc]
    have hon := ringBits_new (mid := mid) hnew hreset
    generalize ringBits mid c e bits s.core = b' at hon ⊢
    obtain ⟨hchan, hothers, -, hframe⟩ := hon
    rw [hchan]
    refine ⟨?_, ?_, ?_, ?_, ?_, ?_, fun hcan => ?_, fun hcan => ?_, hothers, hframe⟩
    case refine_7 => rw [if_neg (by simp [hcan]), rung_timeout]
    case refine_8 =>
      rw [if_pos hcan, timeout_timedOut, rung_timeout]
      cases e <;> rfl
    all_goals split <;> cases e <;> rfl
  case again =>
    intro hnone
    refine acts_of rfl h ?_
    rw [onEnd_accepts hc hacc, ringBits_none hnone]
    exact ⟨nowSet_sets .., rfl⟩
  case resets =>
    intro hreset
    refine acts_of rfl h ?_
    rw [onEnd_accepts hc hacc]
    exact ringBits_resets hreset
  case clear =>
    refine acts_of rfl h ?_
    rw [onEnd_accepts hc hacc]
    have hon := clearBits_on c e bits s.core
    exact ⟨hon.chan, hon.others, clearBits_work, hon.frame⟩
  case mask =>
    refine acts_of rfl h ?_
    rw [onEnd_accepts hc hacc]
    have hon := writeMask_on c e bits s.core
    exact ⟨hon.chan, hon.others, writeMask_work, hon.frame⟩
  case word =>
    refine acts_of rfl h ?_
    rw [onEnd_accepts hc hacc]
    have hon := writeWord_on mid c e word s.core
    exact ⟨hon.chan, hon.others, rfl⟩
  case refused =>
    rintro rfl hacc i (rfl | rfl | rfl | rfl)
    · exact acts_of rfl h (onEnd_refuses hc hacc _)
    · exact acts_of rfl h (onEnd_refuses hc hacc _)
    · exact acts_of rfl h (onEnd_refuses hc hacc _)
    · exact acts_of rfl h (onEnd_refuses hc hacc _)
  case timeout =>
    intro bit hbit hdb
    have hon := (onChan_self (b := s.core) (c := c)).setTimeouts (16 ≤ bit) (BitVec.ofNat 16 (2 ^ (bit % 16)))
    have hother : decide (bit < 16) = !decide (16 ≤ bit) := by
      rw [← decide_not]
      exact decide_eq_decide.mpr (by omega)
    refine acts_of rfl h ?_
    rw [ringLate_set hbit hdb]
    refine ⟨?_, ?_, ?_, hon.others, hon.frame⟩
    · rw [hon.chan, timeout_timedOut]
    · rw [hon.chan, hother, timeout_timedOut_other]
    · rw [hon.chan, timedOut_db]
  case service =>
    intro s c i reply h hc hc' hmaint hruns x hdb hi
    dsimp only [x] at hdb hi
    have hready : serviceReady s.core c = true := by
      simp only [serviceReady, jnrRuns, hc, hc', hmaint, hruns]
      simpa using hdb
    obtain ⟨rfl, hping⟩ | ⟨rfl, hword, rfl⟩ | ⟨rfl, hword, rfl⟩ := hi
    · refine acts_of rfl h ?_
      have hop : servePing c s.core = serveRequest c (fun _ => reply) s.core := by
        obtain ⟨hone, rfl⟩ | ⟨h1, h2, h3, rfl⟩ := hping
        · simp [servePing, hready, hone, pingReply]
        · simp only [servePing, hready, bne_iff_ne.mpr h2, bne_iff_ne.mpr h3, pingReply, if_neg h1]
          rfl
      rw [hop]
      exact serveRequest_answers c (fun _ => reply) s.core
    · refine acts_of rfl h ?_
      have hop : serveVersion c s.core = serveRequest c (fun b => b.work.jnr.fwVersion.setWidth 64) s.core := by
        simp [serveVersion, hready, hword]
      rw [hop]
      exact serveRequest_answers c _ s.core
    · refine acts_of rfl h ?_
      have hop : serveCoreMap c s.core = serveRequest c (fun b => (coresUp b.work).setWidth 64) s.core := by
        simp [serveCoreMap, hready, hword]
      rw [hop]
      exact serveRequest_answers c _ s.core

end Sys2Proof.Machine

end

-- Proofs about registers over the function port (R35, R60, R61).
section

namespace Sys2Proof.Machine

/-! ### The function port and the latches (R35, R60, R61) -/

section

variable {b : Block}

/-- BEAT_NUM (R34). -/
theorem bar0Word_beat : bar0Word b 0x200 = b.clk.beat := by
  simp [bar0Word, beatReg]

/-- The latch of a register set or cleared: no other latch changes. -/
theorem updLatch_sets (a : Nat) (v : Option (BitVec 32)) :
    let b' := b.updClk fun c => { c with latches := tblSet none c.latches a v }
    tblGet none b'.clk.latches a = v ∧ (∀ o, o ≠ a → tblGet none b'.clk.latches o = tblGet none b.clk.latches o) ∧
    { b' with clk := { b'.clk with latches := b.clk.latches } } = b :=
  ⟨tblGet_tblSet_same .., fun _ ho => tblGet_tblSet_other _ _ _ _ _ ho, rfl⟩

/-- A write of a whole register. -/
theorem into_whole (v cur : BitVec 64) : (Store.mk v true true).into cur = v := by
  have hmask : ((0xFFFFFFFF : BitVec 64) ||| 0xFFFFFFFF00000000) = BitVec.allOnes 64 := by decide
  simp only [Store.into, if_true, hmask, BitVec.and_allOnes, BitVec.not_allOnes, BitVec.and_zero, BitVec.zero_or]

/-- A write of SYN_OP_VALUE (R343). -/
theorem fieldWrite_opValue (v : BitVec 64) : fieldWrite false 0x20000 ⟨v, true, true⟩ b =
    { b with work := { b.work with sync := { b.work.sync with opValue := v } } } := by
  have hop : fieldWrite false 0x20000 ⟨v, true, true⟩ b =
      { b with work := { b.work with sync := { b.work.sync with opValue := (Store.mk v true true).into b.work.sync.opValue } } } := rfl
  rw [hop, into_whole]

/-- An access of a size or alignment that R60 excludes. -/
theorem accessForm_bad {o size : Nat} (h : (size ≠ 4 ∧ size ≠ 8) ∨ o % size ≠ 0) : accessForm o size = false := by
  obtain ⟨h4, h8⟩ | hmod := h
  · simp [accessForm, h4, h8]
  · simp [accessForm, hmod]

theorem barServes_open {o : Nat} (hpor : b.st.inPor = false) (hbar : b.st.bar0 = true) (hhalt : b.st.halted = false) (bar2 : Bool) :
    barServes b bar2 o = true := by simp [barServes, hpor, hbar, hhalt]

/-- A completion of a read, at once or behind one that waits. -/
theorem completeRead_work (tag : BitVec 10) (v : BitVec 64) (ur : Bool) (b : Block) :
    (completeRead tag v ur b).work =
      if b.work.late.any Late.ofPort then { b.work with late := b.work.late ++ [.cpl tag v ur] } else b.work.emit (.cpl tag v ur) := rfl

theorem completeRead_due {tag : BitVec 10} {v : BitVec 64} {ur : Bool} (h : b.work.jnr.boxDue = false) :
    (completeRead tag v ur b).work.jnr.boxDue = false := by
  rw [completeRead_work]
  split <;> exact h

theorem portAccess_bad {bar2 wr : Bool} {o size : Nat} {v : BitVec 64} {tag : BitVec 10}
    (hform : (size ≠ 4 ∧ size ≠ 8) ∨ o % size ≠ 0) (hpor : b.st.inPor = false) :
    portAccess bar2 wr o size v tag b = if wr then b else completeRead tag 0 true b := by
  cases wr <;> simp [portAccess, accessForm_bad hform, hpor]

/-- A 32-bit read of a high half that is latched. -/
theorem portAccess_high {x : BitVec 32} (hpor : b.st.inPor = false) (hbar : b.st.bar0 = true) (hhalt : b.st.halted = false)
    (hx : tblGet none b.clk.latches 0x200 = some x) (v : BitVec 64) (tag : BitVec 10) :
    portAccess false false 0x204 4 v tag b =
      completeRead tag (x.setWidth 64) false (b.updClk fun c => { c with latches := tblSet none c.latches 0x200 none }) := by
  have hhalf : halfRead false 0x204 b =
      (x.setWidth 64, b.updClk fun c => { c with latches := tblSet none c.latches 0x200 none }) := by
    simp [halfRead, hx]
  rw [portAccess, barServes_open hpor hbar hhalt, if_pos (by decide), if_neg Bool.false_ne_true, portRead, if_neg (by decide),
    if_neg (by decide), hhalf]

theorem portAccess_beat (hpor : b.st.inPor = false) (hbar : b.st.bar0 = true) (hhalt : b.st.halted = false) (v : BitVec 64)
    (tag : BitVec 10) : portAccess false false 0x200 8 v tag b = completeRead tag b.clk.beat false b := by
  have hread : regRead false 0x200 b = (b.clk.beat, b) := by
    rw [← bar0Word_beat]
    rfl
  rw [portAccess, barServes_open hpor hbar hhalt, if_pos (by decide), if_neg Bool.false_ne_true, portRead, if_neg (by decide),
    if_pos rfl, hread]

theorem portAccess_opValue (hpor : b.st.inPor = false) (hbar : b.st.bar0 = true) (hhalt : b.st.halted = false) (v : BitVec 64)
    (tag : BitVec 10) : portAccess false true 0x20000 8 v tag b =
      { b with work := { b.work with sync := { b.work.sync with opValue := v } } } := by
  have hact (n : Nat) : actBar0 0x20000 n b = b := by
    unfold actBar0
    norm_num
  have hwrite : regWrite false 0x20000 ⟨v, true, true⟩ b = fieldWrite false 0x20000 ⟨v, true, true⟩ b := by
    unfold regWrite
    simp only [hact]
    norm_num
  rw [portAccess, barServes_open hpor hbar hhalt, if_pos (by decide), if_pos rfl, portWrite, if_pos rfl]
  exact hwrite.trans (fieldWrite_opValue v)

end

/-- Settles O26: the latch of R35, a register write, and the accesses that R60 excludes. -/
theorem registerAccesses : Obligations.RegisterAccesses := by
  unfold Obligations.RegisterAccesses
  refine fun s h => ⟨?latch, ?high, ?write, ?form, fun v tag hpor hbar hhalt hdue => ⟨?whole, ?port⟩⟩
  case latch =>
    refine acts_of rfl h ?_
    rw [latchHigh, if_pos (by decide), bar0Word_beat]
    exact updLatch_sets (b := s.core) 0x200 (some ((s.core.clk.beat >>> 32).setWidth 32))
  case high =>
    intro x v tag hx hpor hbar hhalt hdue
    refine acts_of (f := fun b => boxReset (portAccess false false 0x204 4 v tag b)) rfl h ?_
    obtain ⟨hlatch, hothers, hframe⟩ := updLatch_sets (b := s.core) 0x200 none
    rw [portAccess_high hpor hbar hhalt hx, boxReset_none (completeRead_due (by exact hdue))]
    exact ⟨completeRead_work .., hlatch, hothers, hframe⟩
  case write =>
    intro v
    exact acts_of rfl h (fieldWrite_opValue v)
  case form =>
    intro bar2 wr o size v tag hform hpor hdue
    refine acts_of (f := fun b => boxReset (portAccess bar2 wr o size v tag b)) rfl h ?_
    rw [portAccess_bad hform hpor]
    cases wr
    · exact boxReset_none (completeRead_due hdue)
    · exact boxReset_none hdue
  case whole =>
    refine acts_of (f := fun b => boxReset (portAccess false false 0x200 8 v tag b)) rfl h ?_
    rw [portAccess_beat hpor hbar hhalt, boxReset_none (completeRead_due hdue)]
    rfl
  case port =>
    refine acts_of (f := fun b => boxReset (portAccess false true 0x20000 8 v tag b)) rfl h ?_
    rw [portAccess_opValue hpor hbar hhalt, boxReset_none (by exact hdue)]

end Sys2Proof.Machine

end

-- Proofs about EXEC, COPY, FILL, TIDY and BARRIER_ARRIVE (R171 to R182, R535).
section

namespace Sys2Proof.Machine

/-! ### EXEC (R171, R176, R180) -/

section

variable {e b : Block} {w : Work} {c : Cmd}

/-- Whether a matrix port is populated and not retired (R176). -/
def anyPort (w : Work) : Bool := (List.range 16).any fun p => (w.port p).present && (w.port p).state != .retired

theorem anyPort_iff : anyPort w = true ↔ ∃ p, p < 16 ∧ (w.port p).present = true ∧ (w.port p).state ≠ .retired := by
  simp [anyPort]

theorem execRelease_runs (hport : anyPort w = true) (hok : execReleaseOk e.dct w c.bytes = true) :
    execRelease e c w = w.updCmd c.id fun d => { d with phase := .running, tilesDone := [], codes := 0, clipped := 0, escs := 0 } := by
  rw [anyPort] at hport
  simp only [execRelease, hport, hok, Bool.not_true, Bool.false_eq_true, if_false]

theorem execRelease_bad (hport : anyPort w = true) (hok : execReleaseOk e.dct w c.bytes = false) :
    execRelease e c w = endCmd c.id St.badCommand w := by
  rw [anyPort] at hport
  simp only [execRelease, hport, hok, Bool.not_true, Bool.not_false, Bool.false_eq_true, if_false, if_true]

theorem execRelease_noPort (hport : anyPort w = false) : execRelease e c w = endCmd c.id St.stateReject w := by
  rw [anyPort] at hport
  simp only [execRelease, hport, Bool.not_false, if_true]

/-! ### BARRIER_ARRIVE (R176, R535) -/

@[simp] theorem bar_updBar (i : Nat) (f : Barrier → Barrier) : (b.updBar i f).bar i = f (b.bar i) := tblGet_tblUpd_same ..

theorem bar_updBar_other {i k : Nat} (f : Barrier → Barrier) (hk : k ≠ i) : (b.updBar i f).bar k = b.bar k :=
  tblGet_tblUpd_other _ _ _ _ _ hk

/-- An arrival counted: it waits in its generation, and its subtree is looked at when the control cycle ends. -/
def arrive (c : Cmd) (b : Block) : Block :=
  ((b.updWork fun w => w.updCmd c.id fun d => { d with phase := .running, waiting := .barrier }).updBar (fieldAt c.bytes 24 1) fun x =>
    { x with state := .counting, expect := fieldAt c.bytes 26 2, loc := x.loc + 1, arrivals := x.arrivals ++ [c.id] }).updWork fun w =>
      w.later (.subtree (fieldAt c.bytes 24 1))

/-- The checks of R535 in their order. -/
theorem arriveOp_ready (hr : Ready b.work .barrierArrive c) : arriveOp c.id b =
    if ¬b.frm.joined = true ∨ ¬some (b.dct.barrierOwner (fieldAt c.bytes 24 1)) = c.slice ∨
        ¬fieldAt c.bytes 32 8 = (b.bar (fieldAt c.bytes 24 1)).last.toNat + 1 then b.updWork (endCmd c.id St.stateReject)
    else if (b.bar (fieldAt c.bytes 24 1)).state = .broken then b.updWork (endCmd c.id St.stepBroken)
    else if (b.bar (fieldAt c.bytes 24 1)).state = .counting ∧ (fieldAt c.bytes 26 2 ≠ (b.bar (fieldAt c.bytes 24 1)).expect ∨
        (b.bar (fieldAt c.bytes 24 1)).loc = (b.bar (fieldAt c.bytes 24 1)).expect) then b.updWork (endCmd c.id St.stateReject)
    else arrive c b := by
  obtain ⟨hcmd, hphase, hop, hend, hsusp⟩ := hr
  have hready : (c.phase == .released && c.op == some .barrierArrive && c.endStatus.isNone && !c.suspended) = true := by
    simp [hphase, hop, hend, hsusp]
  simp only [arriveOp, hcmd, hready, Bool.not_true, Bool.false_eq_true, if_false]
  by_cases hjoined : b.frm.joined = true
  · by_cases howned : some (b.dct.barrierOwner (fieldAt c.bytes 24 1)) = c.slice
    · by_cases hnext : fieldAt c.bytes 32 8 = (b.bar (fieldAt c.bytes 24 1)).last.toNat + 1
      · simp only [hjoined, howned, hnext, ne_eq, not_true, false_or, if_false, Bool.not_true, Bool.false_eq_true]
        rfl
      · simp only [hjoined, howned, hnext, ne_eq, not_true, not_false_iff, false_or, if_false, if_true, Bool.not_true, Bool.false_eq_true]
    · simp only [hjoined, howned, ne_eq, not_false_iff, true_or, or_true, if_true, Bool.not_true, Bool.false_eq_true, if_false]
  · simp only [hjoined]
    rfl

/-- An arrival counted, part by part. -/
theorem arrive_counts (hr : Ready b.work .barrierArrive c) :
    let i := fieldAt c.bytes 24 1
    let b' := arrive c b
    (b'.bar i = { b.bar i with
      state := .counting, expect := fieldAt c.bytes 26 2, loc := (b.bar i).loc + 1, arrivals := (b.bar i).arrivals ++ [c.id] }) ∧
    (∀ k, k ≠ i → b'.bar k = b.bar k) ∧ Turns b.work c { c with phase := .running, waiting := .barrier } b'.work ∧
    { b'.work with cmds := b.work.cmds } = { b.work with late := b.work.late ++ [.subtree i] } ∧
    { b' with work := b.work, frm := b.frm } = b :=
  ⟨bar_updBar _ _, fun _ hk => bar_updBar_other _ hk, updCmd_turns hr.cmd_eq (fun d => { d with phase := .running, waiting := .barrier }) fun _ => rfl,
    rfl, rfl⟩

end

/-- Settles O14: COPY, FILL, TIDY, EXEC and BARRIER_ARRIVE as they begin. -/
theorem engineAndBarrierCommands : Obligations.EngineAndBarrierCommands := by
  unfold Obligations.EngineAndBarrierCommands
  refine ⟨⟨?move, ?tidy, ?exec⟩, ?arrive, fun _ _ => rfl⟩
  case move =>
    rintro s c i o h hr (⟨rfl, rfl⟩ | ⟨rfl, rfl⟩)
    · exact does_cmd (f := fun _ => moveBegin) rfl h hr ⟨updCmd_turns hr.cmd_eq _ fun _ => rfl, rfl⟩
    · exact does_cmd (f := fun _ => moveBegin) rfl h hr ⟨updCmd_turns hr.cmd_eq _ fun _ => rfl, rfl⟩
  case tidy =>
    refine fun s c h hr => ⟨fun hruns => ?_, fun hruns => ?_⟩
    · refine does_cmd (f := fun _ => tidyOp) rfl h hr ?_
      rw [tidyOp, if_pos hruns]
      exact ⟨updCmd_turns hr.cmd_eq _ fun _ => rfl, rfl⟩
    · exact does_just (f := fun _ => tidyOp) rfl h hr (if_neg (by simp [hruns]))
  case exec =>
    refine fun s c h hr => ⟨fun hport => ⟨fun hok => ?_, fun hok => ?_⟩, fun hport => ?_⟩
    · refine does_cmd (f := execRelease) rfl h hr ?_
      rw [execRelease_runs (anyPort_iff.mpr hport) hok]
      exact ⟨updCmd_turns hr.cmd_eq _ fun _ => rfl, rfl⟩
    · exact does_just (f := execRelease) rfl h hr (execRelease_bad (anyPort_iff.mpr hport) hok)
    · refine does_just (f := execRelease) rfl h hr (execRelease_noPort ?_)
      refine Bool.eq_false_iff.mpr fun hany => ?_
      obtain ⟨p, hp, hpresent, hstate⟩ := anyPort_iff.mp hany
      exact hstate (hport p hp hpresent)
  case arrive =>
    intro s c h hr
    refine ⟨fun hbad => ?_, fun hjoined howned hnext hbroken => ?_, fun hjoined howned hnext hbroken hclash => ?_⟩
    · refine acts_of rfl h ?_
      have hop : arriveOp c.id s.core = s.core.updWork (endCmd c.id St.stateReject) := by
        rw [arriveOp_ready hr]
        split
        next => rfl
        next hnot =>
          push Not at hnot
          obtain ⟨hjoined, howned, hnext⟩ := hnot
          obtain hj | ho | hn | ⟨hb, hc⟩ := hbad
          · simp [hj] at hjoined
          · exact absurd howned ho
          · exact absurd hnext hn
          · rw [if_neg hb, if_pos hc]
      rw [hop]
      exact ⟨endCmd_just hr _, rfl⟩
    · refine acts_of rfl h ?_
      rw [arriveOp_ready hr, if_neg (by simp [hjoined, howned, hnext]), if_pos hbroken]
      exact ⟨endCmd_just hr _, rfl⟩
    · refine acts_of rfl h ?_
      rw [arriveOp_ready hr, if_neg (by simp [hjoined, howned, hnext]), if_neg hbroken, if_neg hclash]
      obtain ⟨hbar, hothers, hturns, hwork, hframe⟩ := arrive_counts hr
      generalize arrive c s.core = b' at *
      rw [hbar]
      exact ⟨rfl, rfl, rfl, rfl, rfl, hothers, hturns, hwork, hframe⟩

end Sys2Proof.Machine

end

-- Proofs about reset pins and failed starts (R56, R644 to R656).
section

namespace Sys2Proof.Machine

/-! ### Rows of the always-on domain -/

/-- A row of the always-on domain leaves a frozen block. -/
theorem sets_frozen {i : Instr} {s : State} {f : Block → Block} {P : Block → Prop} (hx : exec i s = .next (s.onAon f))
    (h : s.core.pwr.frozen = true) (hP : P s.core) : Sets i s P :=
  ⟨s.core, hP, by simp [hx, State.onAon, State.on, h]⟩

/-- Rows of the pins of a reset act on every block. -/
theorem sets_on {i : Instr} {s : State} {f : Block → Block} {P : Block → Prop} (hx : exec i s = .next (s.on f)) (hP : P (f s.core)) :
    Sets i s P := ⟨_, hP, hx⟩

/-! ### The notice ahead of a reset (R499) -/

section

variable {b b' : Block}

/-- Frames sent: only the Tenon ports, what goes out and what waits to go out change. -/
def LinkSends (b b' : Block) : Prop :=
  { b' with
    lnk := b.lnk
    work := { b'.work with fab := { b'.work.fab with out := b.work.fab.out, offers := b.work.fab.offers }, msgs := b.work.msgs, fresh := b.work.fresh } } = b

theorem LinkSends.trans {b'' : Block} (h : LinkSends b b') (h' : LinkSends b' b'') : LinkSends b b'' := by
  have := congrArg (fun x : Block => { x with
    lnk := b.lnk
    work := { x.work with fab := { x.work.fab with out := b.work.fab.out, offers := b.work.fab.offers }, msgs := b.work.msgs, fresh := b.work.fresh } }) h'
  exact this.trans h

theorem emit_sends (o : Output) (b : Block) : LinkSends b (b.emit o) := by
  unfold Block.emit
  dsimp only
  (repeat' split) <;> exact rfl

theorem pumpPort_sends (p fuel : Nat) (b : Block) : LinkSends b (pumpPort p fuel b) := by
  induction fuel generalizing b with
  | zero => rfl
  | succ fuel ih =>
    have htake : LinkSends b (b.updWork (takeCredits b p)) := by
      unfold LinkSends Block.updWork takeCredits
      dsimp only
      split <;> rfl
    rw [pumpPort]
    generalize b.updWork (takeCredits b p) = u at htake ⊢
    dsimp only
    split
    · have hsend (count : Nat) (flits : List Byte) (v : Block) : LinkSends v (sendFrame p count flits v) :=
        LinkSends.trans (b' := v.updLport p _) rfl (emit_sends _ _)
      have hqueue (gone rest : List Queued) : LinkSends u (u.updWork (setQueue p gone rest)) := rfl
      exact htake.trans ((hqueue _ _).trans ((hsend _ _ _).trans (ih _)))
    · exact htake

theorem pump_sends (b : Block) : LinkSends b (pump b) := by
  unfold pump
  exact List.foldlRecOn (motive := fun v => LinkSends b v) _ _ rfl fun v hv p _ => hv.trans (pumpPort_sends p _ v)

/-- What a reset takes over from before it: the start registers and the retained image's holder. -/
def Keeps (b b' : Block) : Prop := b'.st = b.st ∧ b'.work.jnr = b.work.jnr

theorem Keeps.trans {b'' : Block} (h : Keeps b b') (h' : Keeps b' b'') : Keeps b b'' := ⟨h'.1.trans h.1, h'.2.trans h.2⟩

theorem LinkSends.keeps (h : LinkSends b b') : Keeps b b' :=
  ⟨(congrArg Block.st h :), (congrArg (fun x : Block => x.work.jnr) h :)⟩

theorem resetNotice_keeps (b : Block) : Keeps b (resetNotice b) := by
  refine LinkSends.keeps (LinkSends.trans (b' := { b with
    work := sendNotice b 1 (b.dct.chipNum % 64) ((Config.freeWord b.work.fresh).setWidth 16) b.work.draw.2 }) rfl (pump_sends _))

theorem Keeps.mayComplete (h : Keeps b b') : mayComplete b' = mayComplete b := by
  obtain ⟨hst, hjnr⟩ := h
  rw [Machine.mayComplete, Machine.mayComplete, hst, hjnr]

/-! ### The start that follows a reset (R644 to R648) -/

/-- A domain switched on: nothing but its switch changes. -/
theorem pswOn_switch (d : Domain) (b : Block) : ((pswOn d b).work.switch d).on = true := by
  have h : (pswOn d b).work.switch d = { b.work.switch d with on := true } :=
    tblGet_tblUpd_same ({} : Switch) b.work.sw (domainKey d) fun x => { x with on := true }
  rw [h]

theorem pswOn_keeps (d : Domain) {d' : Domain} (h : (b.work.switch d').on = true) : ((pswOn d b).work.switch d').on = true := by
  by_cases hkey : domainKey d' = domainKey d
  · have hswitch : (pswOn d b).work.switch d' = (pswOn d b).work.switch d := by rw [Work.switch, Work.switch, hkey]
    rw [hswitch, pswOn_switch]
  · have hswitch : (pswOn d b).work.switch d' = b.work.switch d' :=
      tblGet_tblUpd_other ({} : Switch) b.work.sw (domainKey d) (domainKey d') (fun x => { x with on := true }) hkey
    rw [hswitch, h]

/-- Only the switches of domains change, and the control domain is on. -/
structure CtlOn (b b' : Block) : Prop where
  on : (b'.work.switch .ctl).on = true
  frame : { b' with work := { b'.work with sw := b.work.sw } } = b

theorem CtlOn.pswOn (h : CtlOn b b') (d : Domain) : CtlOn b (pswOn d b') := ⟨pswOn_keeps d h.on, h.frame⟩

theorem startDomains_on (b : Block) : CtlOn b (startDomains b) := by
  have hctl : CtlOn b (pswOn .ctl b) := ⟨pswOn_switch .ctl b, rfl⟩
  unfold startDomains
  exact List.foldlRecOn (motive := fun v => CtlOn b v) _ _ ((hctl.pswOn .tnl).pswOn .pln) fun v hv p _ => hv.pswOn (.eng p)

/-- A start that has just begun: it goes to its step 2 where the control clock runs, and changes the switches besides. -/
structure Begins (b b' : Block) : Prop where
  up : b.work.fab.clkOk = true → b'.st.step = 2 ∧ (b'.work.switch .ctl).on = true
  waits : b.work.fab.clkOk = false → b'.st.step = 1
  frame : { b' with work := { b'.work with sw := b.work.sw }, st := { b'.st with step := b.st.step } } = b

theorem startAdvance_begins (hpor : b.st.inPor = false) (hdone : b.st.done = false) (hhalt : b.st.halted = false) (hstep : b.st.step = 1) :
    Begins b (startAdvance b) := by
  have hop : startAdvance b = if b.work.fab.clkOk then startDomains (b.updStart fun x => { x with step := 2 }) else b := by
    simp only [startAdvance, hpor, hdone, hhalt, hstep, Bool.or_self, Bool.false_eq_true, if_false, if_true]
  rw [hop]
  split
  next hclk =>
    have hon := startDomains_on (b.updStart fun x => { x with step := 2 })
    generalize startDomains (b.updStart fun x => { x with step := 2 }) = b' at hon ⊢
    have hst : b'.st = { b.st with step := 2 } := (congrArg Block.st hon.frame :)
    refine ⟨fun _ => ⟨by rw [hst], hon.on⟩, fun hno => by simp [hclk] at hno, ?_⟩
    exact congrArg (fun x : Block => { x with st := { x.st with step := b.st.step } }) hon.frame
  next hclk => exact ⟨fun hyes => absurd hyes hclk, fun _ => hstep, rfl⟩

/-- The start registers after a full block reset (R645, R646). -/
theorem resetStart_begun (warm : Bool) (cause : Nat) (x : Start) :
    let y := resetStart warm cause x
    y.warm = warm ∧ y.cause = BitVec.ofNat 4 cause ∧ y.done = false ∧ y.halted = false ∧ y.loaded = false ∧ y.step = 1 ∧
      y.lastFail = x.lastFail := by
  cases warm
  · exact ⟨rfl, rfl, rfl, rfl, rfl, rfl, rfl⟩
  · exact ⟨rfl, rfl, rfl, rfl, rfl, rfl, rfl⟩

theorem resetStart_inPor (warm : Bool) (cause : Nat) {x : Start} (hpor : x.inPor = false ∨ warm = false) :
    (resetStart warm cause x).inPor = false := by
  cases warm
  · rfl
  · simpa [resetStart] using hpor

theorem fullReset_begins (warm : Bool) (cause : Nat) (hpor : b.st.inPor = false ∨ warm = false) :
    Begins (fullReset warm cause b) (startAdvance (fullReset warm cause b)) := by
  obtain ⟨-, -, hdone, hhalt, -, hstep, -⟩ := resetStart_begun warm cause b.st
  exact startAdvance_begins (resetStart_inPor warm cause hpor) hdone hhalt hstep

/-- Only the switches of domains and the step of the start differ. -/
def StepFrame (b b' : Block) : Prop := { b' with work := { b'.work with sw := b.work.sw }, st := { b'.st with step := b.st.step } } = b

/-- After a full block reset whose start is warm where one has completed. -/
theorem fullReset_restarted {v : Block} {cause : Nat} (hframe : StepFrame (fullReset v.st.everDone cause v) b')
    (hdone : v.st.everDone = b.st.everDone) (himage : v.work.jnr.image = b.work.jnr.image) :
    Restarted b (BitVec.ofNat 4 cause) b' ∧ b'.st.lastFail = v.st.lastFail ∧ (v.st.everDone = true → b'.st.warmFails = v.st.warmFails) := by
  obtain ⟨hwarm, hcause, hnotDone, hhalt, hloaded, -, hfail⟩ := resetStart_begun v.st.everDone cause v.st
  have hst : { b'.st with step := (resetStart v.st.everDone cause v.st).step } = resetStart v.st.everDone cause v.st :=
    congrArg Block.st hframe
  have hwork := congrArg Block.work hframe
  generalize hr : resetStart v.st.everDone cause v.st = r at hst hwarm hcause hnotDone hhalt hloaded hfail
  refine ⟨⟨?_, ?_, ?_, ?_, ?_, congrArg Block.clk hframe, congrArg Block.mbx hframe, congrArg Block.frm hframe, congrArg Block.dct hframe,
    congrArg Block.mgmt hframe, congrArg Work.slices hwork, congrArg Work.cmds hwork, congrArg Work.tiles hwork, ?_, ?_⟩, ?_, ?_⟩
  · exact (congrArg Start.warm hst).trans (hwarm.trans hdone)
  · exact (congrArg Start.cause hst).trans hcause
  · exact (congrArg Start.done hst).trans hnotDone
  · exact (congrArg Start.halted hst).trans hhalt
  · exact (congrArg Start.loaded hst).trans hloaded
  · exact congrArg (fun w : Work => w.fab.reqs) hwork
  · rw [← hdone, ← himage]
    exact congrArg (fun w : Work => w.jnr.image) hwork
  · exact (congrArg Start.lastFail hst).trans hfail
  · intro hever
    refine (congrArg Start.warmFails hst).trans ?_
    rw [← hr, hever]
    rfl

theorem fullReset_restarts {v : Block} (cause : Nat) (hpor : v.st.inPor = false) (hdone : v.st.everDone = b.st.everDone)
    (himage : v.work.jnr.image = b.work.jnr.image) :
    Restarted b (BitVec.ofNat 4 cause) (startAdvance (fullReset v.st.everDone cause v)) ∧
      (startAdvance (fullReset v.st.everDone cause v)).st.lastFail = v.st.lastFail ∧
      (v.st.everDone = true → (startAdvance (fullReset v.st.everDone cause v)).st.warmFails = v.st.warmFails) :=
  fullReset_restarted (fullReset_begins v.st.everDone cause (Or.inl hpor)).frame hdone himage

/-! ### A reset requested (R644, R655, R656) -/

/-- With fewer than three failures of warm starts, a reset starts warm where a start has completed. -/
theorem restart_few (cause : Nat) (h : b.st.warmFails.toNat < 3) : restart cause b = fullReset b.st.everDone cause b :=
  if_neg (by omega)

theorem requestReset_settled (cause : Nat) (h : Settled b) : requestReset cause b = fullReset b.st.everDone cause b := by
  obtain ⟨hmay, hwarm, hfails⟩ := h
  have hstarted : (b.st.warm && !b.st.done) = false := by
    obtain hw | hd := hwarm
    · rw [hw, Bool.false_and]
    · rw [hd, Bool.not_true, Bool.and_false]
  rw [requestReset, if_neg (by simp [hmay]), if_neg (by simp [hstarted]), restart_few cause hfails]

/-- A full block reset at the request of a source that waits for no step of the start. -/
theorem requestReset_restarts (cause : Nat) (h : Settled b) (hb : Keeps b b') :
    Restarted b (BitVec.ofNat 4 cause) (requestReset cause b') := by
  have hsettled : Settled b' := by
    rw [Settled, hb.mayComplete, hb.1]
    exact h
  rw [requestReset_settled cause hsettled]
  have hframe : StepFrame (fullReset b'.st.everDone cause b') (fullReset b'.st.everDone cause b') := rfl
  exact (fullReset_restarted hframe (congrArg Start.everDone hb.1) (congrArg Joiner.image hb.2)).1

/-- A start that completes in the control cycle of a reset (R661). -/
def completed (b : Block) : Block := { b with st := { b.st with everDone := true, warmFails := 0 } }

theorem requestReset_completes (cause : Nat) (h : mayComplete b = true) : requestReset cause b = fullReset true cause (completed b) := by
  rw [requestReset, if_pos h, restart_few cause (by exact Nat.zero_lt_succ 2)]
  rfl

/-- A warm start has failed, at most twice before. -/
theorem countFail_few {st : Status} (h : b.st.warmFails.toNat < 3) :
    countFail st b = { b with st := { b.st with lastFail := st, warmFails := b.st.warmFails + 1 } } := by
  rw [countFail, if_neg (by omega)]

theorem warmFails_succ (h : b.st.warmFails.toNat < 3) : (b.st.warmFails + 1).toNat = b.st.warmFails.toNat + 1 := by
  rw [BitVec.toNat_add_of_lt (by simp; omega)]
  rfl

theorem restart_fails {st : Status} (cause : Nat) (h : b.st.warmFails.toNat < 2) :
    restart cause (countFail st b) = fullReset b.st.everDone cause (countFail st b) := by
  have hsucc := warmFails_succ (b := b) (by omega)
  rw [countFail_few (by omega), restart_few cause (by rw [hsucc]; omega)]

theorem requestReset_fails (cause : Nat) (hwarm : b.st.warm = true) (hdone : b.st.done = false) (hmay : mayComplete b = false)
    (h : b.st.warmFails.toNat < 2) : requestReset cause b = fullReset b.st.everDone cause (countFail St.resetDomain b) := by
  rw [requestReset, if_neg (by simp [hmay]), if_pos (by simp [hwarm, hdone]), restart_fails cause h]

/-- A warm start out of time (R655). -/
theorem startLate_fails (hpor : b.st.inPor = false) (hwarm : b.st.warm = true) (hdone : b.st.done = false) (hmay : mayComplete b = false) :
    startLate b = startAdvance (restart 7 (countFail St.startTimeout b)) := by
  rw [startLate, if_pos (by simp [hpor, hwarm, hdone, hmay])]
  rfl

/-- The third failure forces a cold start (R656). -/
theorem restart_third {st : Status} (cause : Nat) (h : 2 ≤ b.st.warmFails.toNat) :
    restart cause (countFail st b) = fullReset false 6 (countFail st b) := by
  refine if_pos ?_
  rw [countFail]
  split
  · exact Nat.le_refl 3
  next hfew =>
    have hsucc := warmFails_succ (b := b) (by omega)
    exact hsucc ▸ by omega

/-! ### Power-on reset (R56, R81) -/

/-- A table of the rows of some numbers, in their order. -/
theorem tblGet_map_filter {α : Type} (d : α) (q : Nat → Bool) (f : Nat → α) (k : Nat) (l : List Nat) :
    tblGet d ((l.filter q).map fun p => (p, f p)) k = if k ∈ l ∧ q k = true then f k else d := by
  induction l with
  | nil => simp [tblGet]
  | cons p l ih =>
    by_cases hq : q p = true
    · rw [List.filter_cons_of_pos hq, List.map_cons, tblGet]
      by_cases hp : p = k
      · subst hp
        simp [hq]
      · rw [if_neg hp, ih]
        simp [Ne.symm hp]
    · rw [List.filter_cons_of_neg hq, ih]
      by_cases hp : p = k
      · subst hp
        simp [hq]
      · simp [Ne.symm hp]

/-- The ports after a full block reset are those sampled. -/
theorem resetPorts_present (st : Start) {p : Nat} (hp : p < 16) : (tblGet {} (resetPorts st) p).present = st.present.getLsbD p := by
  rw [resetPorts, tblGet_map_filter ({} : Port) (fun p => st.present.getLsbD p)]
  cases hbit : st.present.getLsbD p
  · simp
  · simp [hp]

end

/-- A row that requests a reset, over a notice that leaves what the reset takes over. -/
theorem sets_reset {i : Instr} {s : State} {f : Block → Block} {P : Block → Prop} {cause : Nat} {u : Block}
    (hx : exec i s = .next (s.onAon f)) (h : s.core.pwr.frozen = false)
    (hf : f s.core = startAdvance (requestReset cause (resetNotice u))) (hu : Keeps s.core u)
    (hP : ∀ v, Keeps s.core v → P (startAdvance (requestReset cause v))) : Sets i s P :=
  sets_of hx h (by rw [hf]; exact hP _ (hu.trans (resetNotice_keeps u)))

/-- A pulse of SYSRST_N of a microsecond and a function level reset, where the block is out of power-on reset. -/
theorem sets_resets {s : State} {P : Nat → Block → Prop} (h : s.core.pwr.frozen = false) (hpor : s.core.st.inPor = false)
    (hP : ∀ cause v, Keeps s.core v → P cause (startAdvance (requestReset cause v))) :
    (∀ ns, 1000 ≤ ns → Sets (.sysrstNPulse ns) s (P 1)) ∧ Sets .fnFlrReq s (P 2) := by
  refine ⟨fun ns hns => ?_, ?_⟩
  · refine sets_reset (f := sysrstPulse ns) rfl h ?_ ⟨rfl, rfl⟩ (hP 1)
    rw [sysrstPulse, if_neg (by simp [hpor]; omega), if_pos hns]
  · refine sets_reset (f := flrReq) (u := s.core.updWork fun w => w.updFab fun f => { f with flrBusy := true }) rfl h ?_ ⟨rfl, rfl⟩ (hP 2)
    rw [flrReq, if_neg (by simp [hpor])]

/-- Settles O50: the reset pins, and the failures of a warm start. -/
theorem resets : Obligations.Resets := by
  unfold Obligations.Resets
  refine fun s => ⟨?fall, fun present bf16 => ⟨fun hpor => ?out, fun hpor => ?rise⟩, fun hfrozen i hi => ?frozen, fun hopen =>
    ⟨fun ns hns => ?short, fun hpor hsettled => ?settled, fun hmay => ?completes, fun hpor hwarm hdone hmay hfails => ?fails,
      fun hpor hwarm hdone hmay => ⟨fun hfails => ?late, fun hfails => ?third⟩, fun hnot => ?stands⟩⟩
  case fall => exact sets_on (f := powerOnReset) rfl ⟨rfl, rfl, rfl, rfl, rfl, rfl, rfl, rfl, rfl, rfl, rfl, rfl, rfl⟩
  case out => exact sets_on (f := porstRise present bf16) rfl (if_neg (by simp [hpor]))
  case rise =>
    refine sets_on (f := porstRise present bf16) rfl ?_
    rw [porstRise, if_pos hpor]
    have hbegins := fullReset_begins false 0 (b := s.core.updStart fun x => { x with present := present, bf16 := bf16 &&& present }) (Or.inr rfl)
    generalize startAdvance (fullReset false 0 _) = b' at hbegins ⊢
    obtain ⟨hup, hwaits, hframe⟩ := hbegins
    have hst := congrArg Block.st hframe
    have hwork := congrArg Block.work hframe
    refine ⟨congrArg Start.inPor hst, congrArg Start.warm hst, congrArg Start.cause hst, congrArg Start.done hst, congrArg Start.present hst,
      congrArg Start.bf16 hst, congrArg Block.clk hframe, congrArg Work.slices hwork, hup, hwaits, fun p hp => ?_⟩
    exact (congrArg (fun w : Work => (tblGet ({} : Port) w.ports p).present) hwork).trans (resetPorts_present _ hp)
  case frozen =>
    obtain rfl | ⟨ns, rfl⟩ := hi
    · exact sets_frozen (f := flrReq) rfl hfrozen rfl
    · exact sets_frozen (f := sysrstPulse ns) rfl hfrozen rfl
  case short => exact sets_of (f := sysrstPulse ns) rfl hopen (if_pos (by simp [hns]))
  case settled =>
    refine sets_resets (P := fun cause => Restarted s.core (BitVec.ofNat 4 cause)) hopen hpor fun cause v hv => ?_
    have hvsettled : Settled v := by
      rw [Settled, hv.mayComplete, hv.1]
      exact hsettled
    rw [requestReset_settled cause hvsettled]
    exact (fullReset_restarts cause (by rw [hv.1, hpor]) (by rw [hv.1]) (by rw [hv.2])).1
  case completes =>
    have hpor : s.core.st.inPor = false := by
      simp only [mayComplete, Bool.and_eq_true, Bool.not_eq_true'] at hmay
      exact hmay.2
    refine sets_resets (P := fun cause => Restarted (completed s.core) (BitVec.ofNat 4 cause)) hopen hpor fun cause v hv => ?_
    rw [requestReset_completes cause (hv.mayComplete.trans hmay)]
    exact (fullReset_restarts (v := completed v) (b := completed s.core) cause (by rw [completed, hv.1]; exact hpor) rfl
      (congrArg Joiner.image hv.2)).1
  case fails =>
    refine sets_resets (P := fun cause b => Restarted s.core (BitVec.ofNat 4 cause) b ∧ b.st.lastFail = St.resetDomain) hopen hpor
      fun cause v hv => ?_
    have hst := hv.1
    rw [requestReset_fails cause (by rw [hst, hwarm]) (by rw [hst, hdone]) (hv.mayComplete.trans hmay) (by rw [hst]; exact hfails)]
    obtain ⟨hre, hlast, -⟩ := fullReset_restarts (v := countFail St.resetDomain v) (b := s.core) cause (by rw [countFail, hst]; exact hpor)
      (by rw [countFail, hst]) (congrArg Joiner.image hv.2)
    exact ⟨hre, hlast⟩
  case late =>
    refine sets_of rfl hopen ?_
    rw [startLate_fails hpor hwarm hdone hmay, restart_fails 7 hfails]
    obtain ⟨hre, hlast, hcount⟩ := fullReset_restarts (v := countFail St.startTimeout s.core) (b := s.core) 7 hpor rfl rfl
    refine ⟨hre, hlast, fun hever => (hcount hever).trans ?_⟩
    rw [countFail_few (by omega)]
  case third =>
    refine sets_of rfl hopen ?_
    rw [startLate_fails hpor hwarm hdone hmay, restart_third 7 hfails]
    have hbegins := fullReset_begins false 6 (b := countFail St.startTimeout s.core) (Or.inr rfl)
    generalize startAdvance (fullReset false 6 _) = b' at hbegins ⊢
    have hst := congrArg Block.st hbegins.frame
    have hwork := congrArg Block.work hbegins.frame
    exact ⟨congrArg Start.warm hst, congrArg Start.cause hst, congrArg Start.lastFail hst, congrArg Start.warmFails hst,
      congrArg (fun w : Work => w.jnr.image) hwork⟩
  case stands =>
    refine sets_of rfl hopen (if_neg ?_)
    obtain hw | hd := hnot
    · simp [hw]
    · simp [hd]

end Sys2Proof.Machine

end

-- Proofs about voltage requests and wakes from PS3 (R624 to R628).
section

namespace Sys2Proof.Machine

/-! ### Voltage requests (R628) -/

section

variable {b b' b'' : Block}

/-- Voltages asked for: only the voltage requests and what goes out change. -/
def VoltsFrame (b b' : Block) : Prop :=
  { b' with
    pwr := { b'.pwr with volt0 := b.pwr.volt0, volt1 := b.pwr.volt1 }
    work := { b'.work with fab := { b'.work.fab with out := b.work.fab.out } } } = b

theorem VoltsFrame.trans (h : VoltsFrame b b') (h' : VoltsFrame b' b'') : VoltsFrame b b'' := by
  have := congrArg (fun x : Block => { x with
    pwr := { x.pwr with volt0 := b.pwr.volt0, volt1 := b.pwr.volt1 }
    work := { x.work with fab := { x.work.fab with out := b.work.fab.out } } }) h'
  exact this.trans h

theorem VoltsFrame.pwr (h : VoltsFrame b b') : { b'.pwr with volt0 := b.pwr.volt0, volt1 := b.pwr.volt1 } = b.pwr :=
  (congrArg Block.pwr h :)

theorem VoltsFrame.fab (h : VoltsFrame b b') : { b'.work.fab with out := b.work.fab.out } = b.work.fab :=
  (congrArg (fun x : Block => x.work.fab) h :)

theorem VoltsFrame.dct (h : VoltsFrame b b') : b'.dct = b.dct := (congrArg Block.dct h :)

theorem requestVolt_frame (st : PowerSt) (rail : Nat) (b : Block) : VoltsFrame b (requestVolt st rail b) := by
  unfold requestVolt
  dsimp only
  split
  · rfl
  · unfold setRailReq
    split <;> rfl

theorem requestVolts_frame (st : PowerSt) (b : Block) : VoltsFrame b (requestVolts st b) :=
  (requestVolt_frame st 0 b).trans (requestVolt_frame st 1 _)

/-! ### Waking from PS3 (R624, R625) -/

/-- An exit from PS3 has begun, with the source that woke the block: the clock is asked for, and the exit goes as far as it can. -/
structure Wakes (src : BitVec 8) (b b' : Block) : Prop where
  transition : b'.pwr.transition = some .ps0
  wakeSrc : b'.pwr.wakeSrc = src
  state : b'.pwr.state = .ps3
  frozen : b'.pwr.frozen = b.pwr.frozen
  lastStatus : b'.pwr.lastStatus = b.pwr.lastStatus
  clkReq : b'.work.fab.clkReq = true
  wakeReq : b'.work.fab.wakeReq = b.work.fab.wakeReq
  dct : b'.dct = b.dct

/-- The block as an exit from PS3 begins. -/
def woken (src : Nat) (b : Block) : Block :=
  { b with
    pwr := { b.pwr with transition := some .ps0, stage := 1, wakeSrc := BitVec.ofNat 8 src, wakeLate := none }
    work := { b.work with fab := { b.work.fab with clkReq := true } } }

theorem wake_rest (src : Nat) (hstate : b.pwr.state = .ps3) (hnone : b.pwr.transition = none) : wake src b = woken src b := by
  have hbegin : wake src b = beginExit src b := by simp only [wake, hnone, hstate, or_true, if_true]
  rw [hbegin]
  exact if_pos hstate

/-- A transition out of PS3 that has just begun. -/
theorem powerAdvance_begun (htrans : b.pwr.transition = some .ps0) (hstate : b.pwr.state = .ps3) (hstage : b.pwr.stage = 1) :
    powerAdvance b = if b.work.fab.clkOk then requestVolts .ps0 (b.updPwr fun x => { x with stage := 2 }) else b := by
  simp only [powerAdvance, htrans, hstate, hstage, if_true]

theorem wake_wakes (src : Nat) (hstate : b.pwr.state = .ps3) (hnone : b.pwr.transition = none) :
    Wakes (BitVec.ofNat 8 src) b (powerAdvance (wake src b)) := by
  rw [wake_rest src hstate hnone, powerAdvance_begun (b := woken src b) rfl hstate rfl]
  split
  · have hframe := requestVolts_frame .ps0 ((woken src b).updPwr fun x => { x with stage := 2 })
    generalize requestVolts .ps0 ((woken src b).updPwr fun x => { x with stage := 2 }) = b' at hframe ⊢
    have hpwr := hframe.pwr
    exact ⟨(congrArg Power.transition hpwr :), (congrArg Power.wakeSrc hpwr :), (congrArg Power.state hpwr :).trans hstate,
      (congrArg Power.frozen hpwr :), (congrArg Power.lastStatus hpwr :), (congrArg Fabric.clkReq hframe.fab :),
      (congrArg Fabric.wakeReq hframe.fab :), hframe.dct⟩
  · exact ⟨rfl, rfl, hstate, rfl, rfl, rfl, rfl, rfl⟩

end

end Sys2Proof.Machine

end

-- Proofs about the management endpoint (R97 to R99, R675).
section

namespace Sys2Proof.Machine

/-! ### Rows that a message over I3C brings (R98, R99, R625) -/

section

variable {i : Instr} {s : State} {wakes : Bool} {f : Block → Block} {P : Block → Prop}

/-- A message to a live block acts on it. -/
theorem acts_i3c (hx : exec i s = .next (s.onI3c wakes f)) (h : s.live) (hP : P (f s.core)) : Acts i s P :=
  ⟨_, hP, by rw [hx, onI3c_live s wakes f h]⟩

theorem sets_i3c_frozen (hx : exec i s = .next (s.onI3c wakes f)) (h : s.core.pwr.frozen = true) (hP : P s.core) : Sets i s P :=
  sets_frozen hx h hP

/-- A message to a block in PS3 wakes it. -/
theorem sets_i3c_rest (hx : exec i s = .next (s.onI3c true f)) (hfrozen : s.core.pwr.frozen = false) (hstate : s.core.pwr.state = .ps3)
    (hP : P (powerAdvance (wake 5 s.core))) : Sets i s P :=
  sets_of hx hfrozen (by rw [if_pos hstate, if_pos rfl]; exact hP)

end

/-- The four control messages of the management endpoint. -/
def controls (src tag hdr eid typ : BitVec 8) : List Instr :=
  [.setEndpointId src tag hdr eid, .getEndpointId src tag hdr, .getMctpVersionSupport src tag hdr typ, .getMessageTypeSupport src tag hdr]

/-- Each control message goes the same way to its answer. -/
theorem exec_controls {src tag hdr eid typ : BitVec 8} {i : Instr} (hi : i ∈ controls src tag hdr eid typ) (s : State) :
    ∃ f, exec i s = .next (s.onI3c true f) := by
  simp only [controls, List.mem_cons, List.not_mem_nil, or_false] at hi
  obtain rfl | rfl | rfl | rfl := hi
  · exact ⟨setEid src tag hdr eid, rfl⟩
  · exact ⟨getEid src tag hdr, rfl⟩
  · exact ⟨getVersions src tag hdr typ, rfl⟩
  · exact ⟨getTypes src tag hdr, rfl⟩

/-! ### Answers to control messages (R98, R675) -/

section

variable {b b' : Block}

/-- What a control message leaves: it answers once and announces the answer, and no more than the endpoint identifier changes. -/
def Answered (b b' : Block) : Prop :=
  b'.work.fab.out.length = b.work.fab.out.length + 2 ∧ b'.dct = b.dct ∧ b'.mgmt.dynAddr = b.mgmt.dynAddr ∧ b'.frm = b.frm ∧
    b'.work.slices = b.work.slices

theorem ctlResponse_answered (src tag hdr : BitVec 8) (cmd code : Nat) (data : List Byte) (b : Block) :
    Answered b (ctlResponse src tag hdr cmd code data b) := ⟨rfl, rfl, rfl, rfl, rfl⟩

theorem setEid_answered (src tag hdr eid : BitVec 8) (b : Block) : Answered b (setEid src tag hdr eid b) := by
  unfold setEid
  split
  · exact ctlResponse_answered ..
  · exact ctlResponse_answered src tag hdr 1 0 _ (b.updMgmt fun m => { m with eid := eid })

theorem getVersions_answered (src tag hdr typ : BitVec 8) (b : Block) : Answered b (getVersions src tag hdr typ b) := by
  unfold getVersions
  dsimp only
  split
  · exact ctlResponse_answered src tag hdr 4 0 _ { b with work := b.work.draw.2 }
  · exact ctlResponse_answered ..

theorem setEid_takes {src tag hdr eid : BitVec 8} (h0 : eid ≠ 0) (hff : eid ≠ 0xFF) :
    (setEid src tag hdr eid b).mgmt = { b.mgmt with eid := eid } := by
  rw [setEid, if_neg (not_or.mpr ⟨h0, hff⟩)]
  rfl

theorem setEid_refuses {src tag hdr eid : BitVec 8} (h : eid = 0 ∨ eid = 0xFF) : (setEid src tag hdr eid b).mgmt = b.mgmt := by
  rw [setEid, if_pos h]
  rfl

/-- The message types that the endpoint names (R675). -/
theorem msgTypes_bytes (b : Block) :
    leBytes 1 (msgTypes b).length ++ (msgTypes b).flatMap (leBytes 1) = if b.dct.vendorId = 0xFFFF then [1, 0] else [2, 0, 0x7E] := by
  unfold msgTypes
  split <;> rfl

theorem msgTypes_other {typ : BitVec 8} (h0 : typ ≠ 0) (h7e : typ ≠ 0x7E) : (msgTypes b).contains typ.toNat = false := by
  have hne0 : typ.toNat ≠ 0 := fun h => h0 (BitVec.eq_of_toNat_eq h)
  have hne7e : typ.toNat ≠ 0x7E := fun h => h7e (BitVec.eq_of_toNat_eq h)
  unfold msgTypes
  split <;> simp [hne0, hne7e]

/-- An address that is not the target's static one (R97). -/
theorem takeAddress_awake {a : BitVec 7} (wakes : Bool) (h : wakes = false ∨ b.pwr.state ≠ .ps3) :
    takeAddress a wakes b = { b with mgmt := { b.mgmt with dynAddr := some a } } := by
  refine if_neg ?_
  obtain rfl | hstate := h
  · exact Bool.false_ne_true
  · simp [hstate]

end

/-- Settles O46: the control messages and the address commands, live, in PS3 and frozen. -/
theorem managementEndpoint : Obligations.ManagementEndpoint := by
  unfold Obligations.ManagementEndpoint
  refine fun s src tag hdr eid typ static addr => ⟨fun h => ⟨fun h0 hff => ?takes, fun hbad => ?refuses, ?getEid, ?getTypes,
    fun hff h0 h7e => ?versions, fun i hi => ?answers⟩, fun hfrozen hother => ?other, fun hfrozen hstate i hi => ?address,
    fun hfrozen hstate => ⟨?entdaa, fun hnone i hi => ?rest⟩, fun hfrozen i hi => ?frozen⟩
  case takes => exact acts_i3c (f := setEid src tag hdr eid) rfl h (setEid_takes h0 hff)
  case refuses => exact acts_i3c (f := setEid src tag hdr eid) rfl h (setEid_refuses hbad)
  case getEid => exact acts_i3c (f := getEid src tag hdr) rfl h rfl
  case getTypes =>
    refine acts_i3c (f := getTypes src tag hdr) rfl h ?_
    rw [← msgTypes_bytes]
    rfl
  case versions =>
    refine acts_i3c (f := getVersions src tag hdr typ) rfl h ?_
    rw [getVersions, if_neg (by simp only [hff, msgTypes_other h0 h7e, Bool.false_eq_true, or_self, not_false_iff])]
    rfl
  case answers =>
    simp only [List.mem_cons, List.not_mem_nil, or_false] at hi
    obtain rfl | rfl | rfl | rfl := hi
    · exact acts_i3c (f := setEid src tag hdr eid) rfl h (setEid_answered ..)
    · exact acts_i3c (f := getEid src tag hdr) rfl h (ctlResponse_answered ..)
    · exact acts_i3c (f := getVersions src tag hdr typ) rfl h (getVersions_answered ..)
    · exact acts_i3c (f := getTypes src tag hdr) rfl h (ctlResponse_answered ..)
  case other => exact sets_of (f := setdasa _) rfl hfrozen (if_neg hother)
  case address =>
    obtain rfl | ⟨rfl, hstatic⟩ := hi
    · exact sets_of (f := takeAddress addr false) rfl hfrozen (takeAddress_awake false (Or.inl rfl))
    · exact sets_of (f := setdasa _) rfl hfrozen ((if_pos hstatic).trans (takeAddress_awake true (Or.inr hstate)))
  case entdaa => exact sets_of (f := takeAddress addr false) rfl hfrozen (takeAddress_awake false (Or.inl rfl))
  case rest =>
    have hends {b b' : Block} (h : Wakes 5 b b') : b'.pwr.transition = some .ps0 ∧ b'.pwr.wakeSrc = 5 ∧ b'.pwr.state = .ps3 ∧
        b'.work.fab.clkReq = true ∧ b'.dct = b.dct := ⟨h.transition, h.wakeSrc, h.state, h.clkReq, h.dct⟩
    obtain ⟨rfl, hstatic⟩ | hi := hi
    · refine sets_of (f := setdasa _) rfl hfrozen ?_
      have hop : setdasa { static := static, dynamic := addr } s.core =
          powerAdvance (wake 5 { s.core with mgmt := { s.core.mgmt with dynAddr := some addr } }) :=
        (if_pos hstatic).trans (if_pos (by simp [Block.updMgmt, hstate]))
      rw [hop]
      have hwakes := wake_wakes (b := { s.core with mgmt := { s.core.mgmt with dynAddr := some addr } }) 5 hstate hnone
      exact (hends hwakes :)
    · obtain ⟨f, hf⟩ := exec_controls hi s
      exact sets_i3c_rest hf hfrozen hstate (hends (wake_wakes 5 hstate hnone))
  case frozen =>
    obtain hi | rfl | rfl := hi
    · obtain ⟨f, hf⟩ := exec_controls hi s
      exact sets_i3c_frozen hf hfrozen rfl
    · exact sets_frozen (f := takeAddress addr false) rfl hfrozen rfl
    · exact sets_frozen (f := setdasa _) rfl hfrozen rfl

end Sys2Proof.Machine

end

-- Proofs about the freeze and the Sill record (R631 to R642).
section

namespace Sys2Proof.Machine

/-! ### Domains switched off (R621, R632) -/

section

variable {b b' b'' : Block} {d d' : Domain}

/-- Only the switches of domains change. -/
def SwitchesOnly (b b' : Block) : Prop := { b' with work := { b'.work with sw := b.work.sw } } = b

theorem SwitchesOnly.trans (h : SwitchesOnly b b') (h' : SwitchesOnly b' b'') : SwitchesOnly b b'' := by
  have := congrArg (fun x : Block => { x with work := { x.work with sw := b.work.sw } }) h'
  exact this.trans h

theorem switch_pswOff (d : Domain) (b : Block) : (pswOff d b).work.switch d = {} :=
  tblGet_tblUpd_same ({} : Switch) b.work.sw (domainKey d) fun _ => {}

theorem switch_pswOff_other (b : Block) (h : domainKey d' ≠ domainKey d) : (pswOff d b).work.switch d' = b.work.switch d' :=
  tblGet_tblUpd_other ({} : Switch) b.work.sw (domainKey d) (domainKey d') (fun _ => {}) h

/-- A domain that is off stays off as another is switched off. -/
theorem pswOff_stays (d : Domain) (h : b.work.switch d' = {}) : (pswOff d b).work.switch d' = {} := by
  by_cases hkey : domainKey d' = domainKey d
  · have hswitch : (pswOff d b).work.switch d' = (pswOff d b).work.switch d := by rw [Work.switch, Work.switch, hkey]
    rw [hswitch, switch_pswOff]
  · rw [switch_pswOff_other b hkey, h]

/-- Engines switched off: each of them, no domain on, and the control domain as it was. -/
theorem enginesOff (l : List Nat) (b : Block) :
    let b' := l.foldl (fun b p => pswOff (.eng p) b) b
    SwitchesOnly b b' ∧ (∀ p ∈ l, b'.work.switch (.eng p) = {}) ∧ (∀ d, b.work.switch d = {} → b'.work.switch d = {}) ∧
      b'.work.switch .ctl = b.work.switch .ctl := by
  induction l generalizing b with
  | nil => exact ⟨rfl, fun _ hp => absurd hp List.not_mem_nil, fun _ h => h, rfl⟩
  | cons p l ih =>
    obtain ⟨hframe, hengines, hstays, hctl⟩ := ih (pswOff (.eng p) b)
    have hfirst : SwitchesOnly b (pswOff (.eng p) b) := rfl
    refine ⟨hfirst.trans hframe, fun q hq => ?_, fun d hd => hstays d (pswOff_stays _ hd), hctl.trans ?_⟩
    · obtain rfl | hq := List.mem_cons.mp hq
      · exact hstays _ (switch_pswOff _ b)
      · exact hengines q hq
    · refine switch_pswOff_other b ?_
      simp only [domainKey]
      omega

/-- What switching the arithmetic side off changes: switches, and the tables and headers that the Planer holds. -/
def ArithFrame (b b' : Block) : Prop :=
  { b' with work := { b'.work with sw := b.work.sw, pln := { b'.work.pln with tables := b.work.pln.tables, headers := b.work.pln.headers } } } = b

theorem arithOff_off (b : Block) :
    ArithFrame b (arithOff b) ∧ (arithOff b).work.switch .pln = {} ∧ (∀ p ∈ livePorts b, (arithOff b).work.switch (.eng p) = {}) ∧
      (arithOff b).work.switch .ctl = b.work.switch .ctl := by
  have hlive : livePorts b = livePorts (pswOff .pln b) := rfl
  obtain ⟨hframe, hengines, hstays, hctl⟩ := enginesOff (livePorts b) (pswOff .pln b)
  refine ⟨?_, hstays .pln (switch_pswOff .pln b), hengines, hctl.trans (switch_pswOff_other b (by decide))⟩
  unfold arithOff
  dsimp only
  generalize (livePorts b).foldl (fun b p => pswOff (.eng p) b) (pswOff .pln b) = u at hframe ⊢
  exact (congrArg (fun x : Block => { x with work := { x.work with
    sw := b.work.sw, pln := { x.work.pln with tables := b.work.pln.tables, headers := b.work.pln.headers } } }) hframe :)

/-- What switching the Tenon ports off changes. -/
def TnlFrame (b b' : Block) : Prop := { b' with lnk := b.lnk, work := { b'.work with sw := b.work.sw } } = b

theorem tnlOff_off (b : Block) :
    TnlFrame b (tnlOff b) ∧ (tnlOff b).work.switch .tnl = {} ∧ (∀ d, b.work.switch d = {} → (tnlOff b).work.switch d = {}) ∧
      (tnlOff b).work.switch .ctl = b.work.switch .ctl :=
  ⟨rfl, switch_pswOff .tnl b, fun _ hd => pswOff_stays (b := b) .tnl hd, switch_pswOff_other b (by decide)⟩

/-! ### The freeze (R631, R632) -/

/-- `b'` with what a freeze changes outside the power controller, and the power controller, taken from `b`. -/
def unfrozen (b b' : Block) : Block :=
  { b' with
    lnk := b.lnk
    pwr := b.pwr
    work := { b'.work with fab := b.work.fab, msgs := b.work.msgs, fresh := b.work.fresh, sw := b.work.sw, pln := b.work.pln } }

/-- What the freeze leaves of the block outside the power controller. -/
def FreezeFrame (b b' : Block) : Prop := unfrozen b b' = b

theorem FreezeFrame.trans (h : FreezeFrame b b') (h' : FreezeFrame b' b'') : FreezeFrame b b'' := by
  have : unfrozen b (unfrozen b' b'') = unfrozen b b' := congrArg (unfrozen b) h'
  exact this.trans h

theorem ArithFrame.freeze (h : ArithFrame b b') : FreezeFrame b b' := by
  have := congrArg (unfrozen b) h
  exact this

theorem TnlFrame.freeze (h : TnlFrame b b') : FreezeFrame b b' := by
  have := congrArg (unfrozen b) h
  exact this

theorem sends_freeze (h : LinkSends b b') : FreezeFrame b b' := by
  have := congrArg (unfrozen b) h
  exact this

/-- The power controller as the block freezes. -/
def frozenPower (reason : Status) (beat : BitVec 64) (x : Power) : Power :=
  { x with frozen := true, freezeReason := reason, freezeBeat := beat, transition := none, stage := 0, volt0 := none, volt1 := none }

/-- The block frozen, with `busy` of the record under way. -/
structure Freezes (reason : Status) (b b' : Block) : Prop where
  pwr : ∃ busy, b'.pwr = { frozenPower reason b.clk.beat b.pwr with sillBusy := busy } ∧
    (b.dct.sillCapable = true → b.st.loaded = true → busy.any (fun y => y.1 == .freeze) = true)
  frame : FreezeFrame b b'
  pln : b'.work.switch .pln = {}
  ctl : b.dct.sillCapable = true → b.st.loaded = true → b'.work.switch .ctl = b.work.switch .ctl

/-- A record begun (R636). -/
theorem startSill_begins (why : SillWhy) (reason : Status) (b : Block) :
    ∃ bytes, startSill why reason b = (b.updPwr fun x => { x with sillBusy := some (why, (nextSill b.pwr).1, bytes) }).emit
      (.store b.storeMode (if (nextSill b.pwr).1 then 0x1000 else 0) bytes) := ⟨_, rfl⟩

/-- The freeze begins a record where the product can write one. -/
def freezeRecord (reason : Status) (b : Block) : Block := if b.dct.sillCapable && b.st.loaded then startSill .freeze reason b else b

/-- The freeze switches the arithmetic side and the Tenon ports off, and CTL too unless a record is under way. -/
def freezeEnd (b : Block) : Block :=
  let b := tnlOff (arithOff b)
  if b.pwr.sillBusy.any fun x => x.1 == .freeze then b else ctlOff b

theorem freezeRecord_begins (reason : Status) (b : Block) :
    let b' := freezeRecord reason b
    FreezeFrame b b' ∧ b'.work.sw = b.work.sw ∧ ∃ busy, b'.pwr = { b.pwr with sillBusy := busy } ∧
      (b.dct.sillCapable = true → b.st.loaded = true → busy.any (fun y => y.1 == .freeze) = true) := by
  dsimp only
  rw [freezeRecord]
  split
  next =>
    obtain ⟨bytes, hop⟩ := startSill_begins .freeze reason b
    rw [hop]
    exact ⟨rfl, rfl, _, rfl, fun _ _ => rfl⟩
  next hno => exact ⟨rfl, rfl, b.pwr.sillBusy, rfl, fun hcap hloaded => absurd (by rw [hcap, hloaded]; rfl) hno⟩

theorem freezeEnd_off (b : Block) :
    let b' := freezeEnd b
    FreezeFrame b b' ∧ b'.pwr = b.pwr ∧ b'.work.switch .pln = {} ∧
      (b.pwr.sillBusy.any (fun x => x.1 == .freeze) = true → b'.work.switch .ctl = b.work.switch .ctl) := by
  obtain ⟨harith, hpln, -, hctl⟩ := arithOff_off b
  obtain ⟨htnl, -, hstays, hctl'⟩ := tnlOff_off (arithOff b)
  rw [freezeEnd]
  dsimp only
  generalize hv : tnlOff (arithOff b) = v at *
  have hframe : FreezeFrame b v := harith.freeze.trans htnl.freeze
  have hpwr : v.pwr = b.pwr := (congrArg Block.pwr htnl :).trans (congrArg Block.pwr harith :)
  rw [hpwr]
  split
  next => exact ⟨hframe, hpwr, hstays .pln hpln, fun _ => hctl'.trans hctl⟩
  next hno => exact ⟨hframe.trans rfl, hpwr, pswOff_stays (b := v) .ctl (hstays .pln hpln), fun hyes => absurd hyes hno⟩

theorem freeze_open (reason : Status) (hfrozen : b.pwr.frozen = false) (hpor : b.st.inPor = false)
    (hctl : domainUp b .ctl = true ∨ b.st.done = false) :
    let u := pump (b.updWork (sendNotice b 1 (b.dct.chipNum % 64) reason))
    freeze reason b = freezeEnd (freezeRecord reason (u.updPwr (frozenPower reason u.clk.beat))) := by
  have hopen : (b.pwr.frozen || b.st.inPor) = false := by rw [hfrozen, hpor, Bool.or_self]
  have hup : (!domainUp b .ctl && b.st.done) = false := by
    obtain h | h := hctl
    · rw [h, Bool.not_true, Bool.false_and]
    · rw [h, Bool.and_false]
  dsimp only
  unfold freeze freezeEnd freezeRecord frozenPower
  simp only [hopen, hup, Bool.false_eq_true, if_false]

theorem freeze_freezes (reason : Status) (hfrozen : b.pwr.frozen = false) (hpor : b.st.inPor = false)
    (hctl : domainUp b .ctl = true ∨ b.st.done = false) : Freezes reason b (freeze reason b) := by
  rw [freeze_open reason hfrozen hpor hctl]
  have hsent : LinkSends b (pump (b.updWork (sendNotice b 1 (b.dct.chipNum % 64) reason))) :=
    LinkSends.trans (b' := b.updWork (sendNotice b 1 (b.dct.chipNum % 64) reason)) rfl (pump_sends _)
  generalize pump (b.updWork (sendNotice b 1 (b.dct.chipNum % 64) reason)) = u at hsent ⊢
  have hpwr : u.pwr = b.pwr := (congrArg Block.pwr hsent :)
  have hclk : u.clk = b.clk := (congrArg Block.clk hsent :)
  have hst : u.st = b.st := (congrArg Block.st hsent :)
  have hdct : u.dct = b.dct := (congrArg Block.dct hsent :)
  have hsw : u.work.sw = b.work.sw := (congrArg (fun x : Block => x.work.sw) hsent :)
  obtain ⟨hrecord, hsw', busy, hbusy, hbegun⟩ := freezeRecord_begins reason (u.updPwr (frozenPower reason u.clk.beat))
  generalize freezeRecord reason (u.updPwr (frozenPower reason u.clk.beat)) = v at *
  obtain ⟨hend, hpwr', hpln, hctl'⟩ := freezeEnd_off v
  generalize freezeEnd v = x at *
  have hbusy' : v.pwr = { frozenPower reason b.clk.beat b.pwr with sillBusy := busy } := by rw [hbusy, ← hpwr, ← hclk]; rfl
  have hbegun' : b.dct.sillCapable = true → b.st.loaded = true → busy.any (fun y => y.1 == .freeze) = true := by
    rw [← hdct, ← hst]
    exact hbegun
  have hfirst : FreezeFrame b (u.updPwr (frozenPower reason u.clk.beat)) := (sends_freeze hsent).trans rfl
  refine ⟨⟨busy, hpwr'.trans hbusy', hbegun'⟩, (hfirst.trans hrecord).trans hend, hpln, fun hcap hloaded => ?_⟩
  have hctl'' := hctl' (by rw [hbusy']; exact hbegun' hcap hloaded)
  exact hctl''.trans (congrArg (fun t => tblGet ({} : Switch) t (domainKey .ctl)) (hsw'.trans hsw))

/-! ### Test records (R109, R634, R642) -/

/-- The head of a record: its SEQ follows MAGIC, VERSION and LENGTH (R634). -/
theorem sillBody_head (seq : Nat) (reason : Status) (rest : Bool) (b : Block) :
    ∃ l, sillBody b seq reason rest = bytesAt (leBytes 4 0x4C4C4953 ++ leBytes 2 1 ++ leBytes 2 0x0203 ++ leBytes 8 seq ++ l) 0 4092 := by
  unfold sillBody
  simp only [List.append_assoc]
  exact ⟨_, rfl⟩

theorem fieldAt_append_left (x y : List Byte) {o n : Nat} (h : o + n ≤ x.length) : fieldAt (x ++ y) o n = fieldAt x o n := by
  have hbytes : bytesAt (x ++ y) o n = bytesAt x o n :=
    List.map_congr_left fun i hi => List.getD_append _ _ _ _ (by have := List.mem_range.mp hi; omega)
  rw [fieldAt, fieldAt, hbytes]

theorem sillBody_first (reason : Status) (rest : Bool) (b : Block) (t : List Byte) :
    fieldAt (sillBody b 1 reason rest ++ t) 8 8 = 1 := by
  obtain ⟨l, hl⟩ := sillBody_head 1 reason rest b
  rw [hl, fieldAt_append_left _ _ (by simp [bytesAt]), fieldAt, Tests.bytesAt_bytesAt _ _ _ _ _ (by omega), ← fieldAt,
    fieldAt_append_left _ _ (by decide)]
  decide

theorem startTest_begins (hcap : b.dct.sillCapable = true) (hfree : b.pwr.sillBusy = none) :
    (startTest b).pwr.sillBusy.any (fun y => y.1 == .test) = true ∧ (startTest b).dct = b.dct ∧
      (b.pwr.sillSlotA = none → b.pwr.sillSlotB = none → ∃ bytes, (startTest b).pwr.sillBusy = some (.test, false, bytes) ∧
        fieldAt bytes 8 8 = 1 ∧ .store b.storeMode 0 bytes ∈ (startTest b).work.fab.out) := by
  have hop : startTest b = startSill .test St.ok b := if_pos (by simp [hcap, hfree])
  rw [hop]
  refine ⟨rfl, rfl, fun ha hb => ?_⟩
  have hnext : nextSill b.pwr = (false, 1) := by rw [nextSill, ha, hb]
  refine ⟨sillBody b 1 St.ok (decide (SillWhy.test = .rest)) ++ leBytes 4 (crc32 (sillBody b 1 St.ok (decide (SillWhy.test = .rest)))).toNat,
    ?_, sillBody_first .., ?_⟩
  · unfold startSill
    rw [hnext]
    rfl
  · unfold startSill
    rw [hnext]
    exact List.mem_cons_self

/-! ### Records closed (R632, R636) -/

/-- The power controller once a record of a slot is written. -/
def sillClosed (second : Bool) (bytes : List Byte) (x : Power) : Power :=
  { x with
    sillBusy := none, sillDone := true
    sillSlotA := if second then x.sillSlotA else some (BitVec.ofNat 64 (fieldAt bytes 8 8), bytes)
    sillSlotB := if second then some (BitVec.ofNat 64 (fieldAt bytes 8 8), bytes) else x.sillSlotB }

/-- The block once a record of a slot is written, before what its reason asks for. -/
def recordClosed (second : Bool) (bytes : List Byte) (b : Block) : Block :=
  (b.updPwr (sillClosed second bytes)).updWork fun w => w.sets .power (setBit 0 10)

theorem sillWritten_test {second : Bool} {bytes : List Byte} (h : b.pwr.sillBusy = some (.test, second, bytes)) :
    sillWritten b = (recordClosed second bytes b).updWork fun w => w.raise (vecAdmin 5) := by
  unfold sillWritten
  rw [h]
  rfl

theorem sillWritten_freeze {second : Bool} {bytes : List Byte} (h : b.pwr.sillBusy = some (.freeze, second, bytes)) :
    sillWritten b = if b.pwr.sillWaits then requestReset 5 (ctlOff (recordClosed second bytes b))
      else ctlOff (recordClosed second bytes b) := by
  unfold sillWritten
  rw [h]
  rfl

/-- PWRFAIL_N high again after a freeze (R639). -/
theorem pwrfailRose_frozen (hlow : b.pwr.pwrfailLow = true) (hfrozen : b.pwr.frozen = true) : pwrfailRose b =
    if b.pwr.sillBusy.isSome then b.updPwr fun x => { x with pwrfailLow := false, sillWaits := true }
    else requestReset 5 (b.updPwr fun x => { x with pwrfailLow := false }) := by
  rw [pwrfailRose, if_neg (by simp [hlow])]
  exact if_neg (by simp [Block.updPwr, hfrozen])

theorem sillWritten_none (h : b.pwr.sillBusy = none) : sillWritten b = b := by rw [sillWritten, h]

end

/-- Settles O49: power failure, its record, and test records. -/
theorem powerFailure : Obligations.PowerFailure := by
  unfold Obligations.PowerFailure
  refine fun s => ⟨fun hopen hpor hctl => ?fall, fun hfrozen => ?fallFrozen, fun hhigh => ?high, fun hlow => ⟨fun hopen => ?riseOpen,
    fun hfrozen hbusy => ?riseBusy, fun hfrozen hfree hsettled => ?riseReset⟩, fun hfree => ?noRecord, fun second bytes hbusy => ?test,
    fun second bytes hbusy => ⟨fun hwaits => ?freeze, fun hwaits hsettled => ?reset⟩, fun h hsave hcap hfree => ?begins,
    fun h hsave hbad => ?refused, fun h hsave => ?waits⟩
  case fall =>
    refine sets_on (f := pwrfailFell) rfl ?_
    have hfreezes := freeze_freezes St.powerFail (b := (lastCycle s.core).updPwr fun x => { x with pwrfailLow := true }) hopen hpor hctl
    rw [pwrfailFell]
    generalize freeze St.powerFail ((lastCycle s.core).updPwr fun x => { x with pwrfailLow := true }) = b at hfreezes ⊢
    generalize lastCycle s.core = v at hfreezes ⊢
    obtain ⟨⟨busy, hpwr, hbusy⟩, hframe, hpln, hctl'⟩ := hfreezes
    rw [hpwr, hpln]
    exact ⟨rfl, rfl, rfl, rfl, rfl, rfl, (congrArg Block.dct hframe :), (congrArg Block.mbx hframe :), (congrArg Block.frm hframe :),
      (congrArg (fun x : Block => x.work.slices) hframe :), (congrArg (fun x : Block => x.work.cmds) hframe :),
      fun hcap hloaded => ⟨hbusy hcap hloaded, congrArg Switch.on (hctl' hcap hloaded)⟩⟩
  case fallFrozen =>
    refine sets_on (f := pwrfailFell) rfl ?_
    have hstill : lastCycle s.core = s.core := if_pos (by simp [Block.still, hfrozen])
    rw [pwrfailFell, hstill]
    exact if_pos (by simp [Block.updPwr, hfrozen])
  case high => exact sets_on (f := pwrfailRose) rfl (if_pos (by rw [hhigh]; rfl))
  case riseOpen =>
    refine sets_on (f := pwrfailRose) rfl ?_
    rw [pwrfailRose, if_neg (by simp [hlow])]
    exact if_pos (by simp [Block.updPwr, hopen])
  case riseBusy =>
    refine sets_on (f := pwrfailRose) rfl ?_
    rw [pwrfailRose_frozen hlow hfrozen, if_pos (Option.isSome_iff_ne_none.mpr hbusy)]
    rfl
  case riseReset =>
    refine sets_on (f := pwrfailRose) rfl ?_
    rw [pwrfailRose_frozen hlow hfrozen, if_neg (by simp [hfree])]
    exact requestReset_restarts 5 hsettled ⟨rfl, rfl⟩
  case noRecord => exact sets_on (f := sillWritten) rfl (sillWritten_none hfree)
  case test =>
    refine sets_on (f := sillWritten) rfl ?_
    rw [sillWritten_test hbusy]
    rfl
  case freeze =>
    refine sets_on (f := sillWritten) rfl ?_
    rw [sillWritten_freeze hbusy, if_neg (by simp [hwaits])]
    refine ⟨rfl, rfl, ?_, rfl, rfl⟩
    have hoff : (pswOff .ctl (recordClosed second bytes s.core)).work.switch .ctl = {} := switch_pswOff ..
    exact congrArg Switch.on hoff
  case reset =>
    refine sets_on (f := sillWritten) rfl ?_
    rw [sillWritten_freeze hbusy, if_pos hwaits]
    exact requestReset_restarts 5 hsettled ⟨rfl, rfl⟩
  case begins =>
    refine acts_of (f := sillTest) rfl h ?_
    rw [sillTest, if_neg (by simp [hsave])]
    exact startTest_begins hcap hfree
  case refused =>
    refine acts_of (f := sillTest) rfl h ?_
    rw [sillTest, if_neg (by simp [hsave]), startTest]
    refine if_neg ?_
    obtain hcap | hbusy := hbad
    · simp [hcap]
    · cases hb : s.core.pwr.sillBusy <;> simp_all
  case waits => exact acts_of (f := sillTest) rfl h (if_pos hsave)

end Sys2Proof.Machine

end

-- Proofs about voltages, alerts and telemetry (R628 to R630).
section

namespace Sys2Proof.Machine

/-! ### Requests of a rail (R628, R629) -/

section

variable {b : Block} {x : Power} {rail : Nat} {r : VoltReq}

@[simp] theorem railReq_setRailReq (q : Option VoltReq) : railReq (setRailReq rail q x) rail = q := by
  unfold railReq setRailReq
  split <;> rfl

@[simp] theorem setRailReq_transition (q : Option VoltReq) : (setRailReq rail q x).transition = x.transition := by
  unfold setRailReq
  split <;> rfl

@[simp] theorem setRailReq_voltFail (q : Option VoltReq) : (setRailReq rail q x).voltFail = x.voltFail := by
  unfold setRailReq
  split <;> rfl

@[simp] theorem setRailReq_lastStatus (q : Option VoltReq) : (setRailReq rail q x).lastStatus = x.lastStatus := by
  unfold setRailReq
  split <;> rfl

/-- A transition that does not run goes nowhere. -/
theorem powerAdvance_none (h : b.pwr.transition = none) : powerAdvance b = b := by rw [powerAdvance, h]

/-- What goes out stays out as an interrupt is raised. -/
theorem mem_raise_out {o : Output} {w : Work} (v : Nat) (h : o ∈ w.fab.out) : o ∈ (w.raise v).fab.out := by
  unfold Work.raise Work.updFab Fabric.raise
  dsimp only
  split
  · exact List.mem_cons_of_mem _ h
  · exact h

/-- The value read back of a rail. -/
def readPower (rail : Nat) (mv : BitVec 16) (x : Power) : Power := if rail = 0 then { x with read0 := mv } else { x with read1 := mv }

/-- A value read back leaves the requests. -/
theorem railReq_read (mv : BitVec 16) :
    railReq (b.updPwr fun x => if rail = 0 then { x with read0 := mv } else { x with read1 := mv }).pwr rail = railReq b.pwr rail := by
  unfold railReq Block.updPwr
  split <;> rfl

theorem readback_none (mv : BitVec 16) (hrail : rail < 2) (h : railReq b.pwr rail = none) :
    readback rail mv b = b.updPwr (readPower rail mv) := by
  have hvalid : ¬2 ≤ rail := by omega
  simp only [readback, hvalid, if_false, railReq_read, h]
  rfl

/-- The block once a rail has reached what was asked of it (R628). -/
def reached (rail : Nat) (mv : BitVec 16) (r : VoltReq) (b : Block) : Block :=
  ((b.updPwr (readPower rail mv)).updPwr fun x =>
    let x := setRailReq rail none x
    if rail = 0 then { x with target0 := r.target } else { x with target1 := r.target }).updWork (withdrawLate (.voltage rail))

theorem reached_pwr {mv : BitVec 16} : (reached rail mv r b).pwr = if rail = 0
    then { b.pwr with read0 := mv, volt0 := none, target0 := r.target } else { b.pwr with read1 := mv, volt1 := none, target1 := r.target } := by
  unfold reached Block.updWork Block.updPwr readPower setRailReq
  split <;> rfl

theorem reached_transition {mv : BitVec 16} : (reached rail mv r b).pwr.transition = b.pwr.transition := by
  rw [reached_pwr]
  split <;> rfl

/-- Whether a rail reads back within the tolerance. -/
def Within (b : Block) (r : VoltReq) (mv : BitVec 16) : Prop :=
  r.target.toNat ≤ mv.toNat + b.dct.voltTol ∧ mv.toNat ≤ r.target.toNat + b.dct.voltTol

theorem within_iff (mv : BitVec 16) : max mv.toNat r.target.toNat - min mv.toNat r.target.toNat ≤ b.dct.voltTol ↔ Within b r mv := by
  unfold Within
  omega

theorem readback_within {mv : BitVec 16} (hrail : rail < 2) (h : railReq b.pwr rail = some r) (hfailed : r.failed = false)
    (hin : Within b r mv) : readback rail mv b = powerAdvance (reached rail mv r b) := by
  have hvalid : ¬2 ≤ rail := by omega
  have hclose := (within_iff mv).mpr hin
  simp only [readback, hvalid, if_false, railReq_read, h, hfailed]
  exact if_pos (by simpa [Block.updPwr] using hclose)

theorem readback_outside {mv : BitVec 16} (hrail : rail < 2) (h : railReq b.pwr rail = some r) (hout : ¬Within b r mv) :
    readback rail mv b = b.updPwr (readPower rail mv) := by
  have hvalid : ¬2 ≤ rail := by omega
  have hfar := mt (within_iff mv).mp hout
  simp only [readback, hvalid, if_false, railReq_read, h]
  exact if_neg (by simpa [Block.updPwr] using fun _ => hfar)

/-! ### Timeouts and alerts (R629, R630) -/

/-- The block once a request has not been acknowledged: the rail goes back to its previous target, and the host is told (R629). -/
def nacked (rail : Nat) (r : VoltReq) (b : Block) : Block :=
  ((writeAvs rail r.previous b).updPwr fun x => { setRailReq rail none x with voltFail := true, lastStatus := St.voltageNack }).updWork fun w =>
    (w.sets .power (setBit 0 9)).raise (vecAdmin 5)

/-- The power controller of a request that has not been acknowledged. -/
theorem nacked_pwr : (nacked rail r b).pwr = { setRailReq rail none b.pwr with voltFail := true, lastStatus := St.voltageNack } := rfl

theorem nacked_transition : (nacked rail r b).pwr.transition = b.pwr.transition := setRailReq_transition (x := b.pwr) none

theorem voltageLate_open (hrail : rail < 2) (h : railReq b.pwr rail = some r) (hfailed : r.failed = false) : voltageLate rail b =
    if !r.raising || !b.st.done then powerAdvance (nacked rail r b)
    else if !r.retry then (nacked rail r b).updPwr (setRailReq rail (some { r with failed := true }))
    else (nacked rail r b).updPwr fun x => { x with transition := none, stage := 0, volt0 := none, volt1 := none } := by
  have hvalid : (decide (2 ≤ rail) || r.failed) = false := by simp [hfailed]; omega
  unfold voltageLate
  rw [h]
  dsimp only
  rw [hvalid]
  rfl

theorem voltageLate_none (h : railReq b.pwr rail = none) : voltageLate rail b = b := by rw [voltageLate, h]

theorem nacked_avs : .avs (b.dct.railNumber rail) r.previous ∈ (nacked rail r b).work.fab.out :=
  mem_raise_out (w := ((writeAvs rail r.previous b).work.sets .power (setBit 0 9))) _ List.mem_cons_self

theorem voltageAgain_none (h : railReq b.pwr rail = none) : voltageAgain rail b = b := by rw [voltageAgain, h]

theorem voltageAgain_open (h : railReq b.pwr rail = some r) (hfailed : r.failed = false) : voltageAgain rail b = b := by
  unfold voltageAgain
  rw [h]
  exact if_pos (by simp [hfailed])

theorem voltageAgain_failed (hrail : rail < 2) (h : railReq b.pwr rail = some r) (hfailed : r.failed = true) : voltageAgain rail b =
    writeAvs rail r.target (b.updPwr (setRailReq rail (some { r with failed := false, retry := true }))) := by
  unfold voltageAgain
  rw [h]
  exact if_neg (by simp [hfailed]; omega)

theorem pmbAlert_awake (word : Option (BitVec 16)) (h : b.pwr.state ≠ .ps3) : pmbAlert word b = match word with
    | none => b
    | some v =>
      if v &&& 0xE000 ≠ 0 then freeze St.vrFault (lastCycle b)
      else if v = 0 then b
      else (b.updPwr fun x => { x with warnings := x.warnings + 1 }).updWork fun w => w.raise (vecAdmin 5) := if_neg h

end

/-- Settles O48: voltage requests, alerts and telemetry. -/
theorem voltages : Obligations.Voltages := by
  unfold Obligations.Voltages
  refine fun s rail hopen hrail => ⟨fun mv => ⟨fun hnone => ?noRequest, fun r hr hfailed hstill => ⟨fun hin => ?within, fun hout => ?outside⟩⟩,
    ?timeout, fun hnone => ⟨voltageLate_none hnone, ?noRetry⟩, fun r hr hfailed => ⟨fun hraising hdone => ?raising, fun hraising hstill => ?lowering,
      ?early⟩, fun r hr hfailed => ?again, fun v hawake => ⟨fun hbits hfrozen hpor hctl => ?fault, fun hzero => ?zero, fun hbits hv => ?warning,
      ?unread⟩, fun v hrest hnone => ?rest, fun vin iout temp => sets_of (f := telemetry vin iout temp) rfl hopen rfl⟩
  case noRequest =>
    refine sets_of (f := readback rail mv) rfl hopen ?_
    rw [readback_none mv hrail hnone]
    rfl
  case within =>
    refine sets_of (f := readback rail mv) rfl hopen ?_
    rw [readback_within hrail hr hfailed hin, powerAdvance_none (reached_transition.trans hstill)]
    refine ⟨by simp [reached, Block.updWork, withdrawLate], ?_⟩
    rw [reached_pwr]
  case outside =>
    refine sets_of (f := readback rail mv) rfl hopen ?_
    rw [readback_outside hrail hr hout]
    rfl
  case timeout => exact sets_of (f := fun b => b.updWork fun w => w.later (.voltage rail)) rfl hopen rfl
  case noRetry => exact sets_of (f := voltageAgain rail) rfl hopen (voltageAgain_none hnone)
  case raising =>
    have hop : decideLate s.core (.voltage rail) = voltageLate rail s.core := rfl
    dsimp only
    rw [hop, voltageLate_open hrail hr hfailed, if_neg (by simp [hraising, hdone])]
    have hout := nacked_avs (b := s.core) (rail := rail) (r := r)
    have hpwr := nacked_pwr (b := s.core) (rail := rail) (r := r)
    have htrans := nacked_transition (b := s.core) (rail := rail) (r := r)
    generalize nacked rail r s.core = b at hout hpwr htrans ⊢
    have hfail : b.pwr.voltFail = true := by rw [hpwr]
    have hlast : b.pwr.lastStatus = St.voltageNack := by rw [hpwr]
    cases hretry : r.retry
    · exact ⟨(setRailReq_voltFail _).trans hfail, (setRailReq_lastStatus _).trans hlast, hout,
        fun _ => ⟨railReq_setRailReq _, (setRailReq_transition _).trans htrans⟩, nofun⟩
    · exact ⟨hfail, hlast, hout, nofun, fun _ => ⟨rfl, rfl, rfl⟩⟩
  case lowering =>
    have hop : decideLate s.core (.voltage rail) = voltageLate rail s.core := rfl
    dsimp only
    rw [hop, voltageLate_open hrail hr hfailed, if_pos (by simp [hraising]),
      powerAdvance_none (nacked_transition.trans hstill)]
    rw [nacked_pwr]
    exact ⟨rfl, rfl, railReq_setRailReq (x := s.core.pwr) none⟩
  case early => exact sets_of (f := voltageAgain rail) rfl hopen (voltageAgain_open hr hfailed)
  case again =>
    refine sets_of (f := voltageAgain rail) rfl hopen ?_
    rw [voltageAgain_failed hrail hr hfailed]
    exact ⟨railReq_setRailReq _, rfl⟩
  case fault =>
    refine sets_of (f := pmbAlert (some v)) rfl hopen ?_
    rw [pmbAlert_awake _ hawake]
    obtain ⟨⟨busy, hpwr, -⟩, -⟩ := freeze_freezes St.vrFault hfrozen hpor (Or.inl hctl)
    simp only [hbits, ne_eq, not_false_iff, if_true, hpwr]
    exact ⟨rfl, rfl⟩
  case zero =>
    refine sets_of (f := pmbAlert (some v)) rfl hopen ?_
    rw [pmbAlert_awake _ hawake]
    simp [hzero]
  case warning =>
    refine sets_of (f := pmbAlert (some v)) rfl hopen ?_
    rw [pmbAlert_awake _ hawake]
    simp only [hbits, hv, ne_eq, not_true, if_false]
    rfl
  case unread =>
    refine sets_of (f := pmbAlert none) rfl hopen ?_
    rw [pmbAlert_awake _ hawake]
  case rest =>
    refine sets_of (f := pmbAlert v) rfl hopen ?_
    have hop : pmbAlert v s.core = powerAdvance (wake 6 s.core) := if_pos hrest
    have hwakes := wake_wakes 6 hrest hnone
    rw [hop]
    exact ⟨hwakes.transition, hwakes.wakeSrc, hwakes.frozen.trans hopen⟩

end Sys2Proof.Machine

end

-- Proofs about power states, their entries and exits (R618 to R626).
section

namespace Sys2Proof.Machine

/-! ### The wake detector (R508) -/

/-- Windows of a wake pattern on lane 0 count up to a report. -/
theorem sense_tone (edges : List (Nat × Nat)) (x : LinkPort) (hne : edges ≠ []) (htone : ∀ e ∈ edges, e.1 = 1 ∨ e.1 = 2)
    (hlen : 16 ≤ x.lane0.tone + edges.length) : (x.sense edges).2 = true := by
  induction edges generalizing x with
  | nil => exact absurd rfl hne
  | cons e es ih =>
    have he : e.1 = 1 ∨ e.1 = 2 := htone e List.mem_cons_self
    have hcount : (x.lane0.window e.1).tone = x.lane0.tone + 1 := if_pos he
    rw [LinkPort.sense]
    dsimp only
    by_cases hes : es = []
    · have hreport : (x.lane0.window e.1).reports = true := by
        simp only [Lane.reports, hcount, Bool.or_eq_true, decide_eq_true_eq]
        subst hes
        simp only [List.length_cons, List.length_nil] at hlen
        omega
      rw [hreport]
      rfl
    · have hrest := ih ({ x with lane0 := x.lane0.window e.1, lane1 := x.lane1.window e.2 }) hes
        (fun y hy => htone y (List.mem_cons_of_mem _ hy)) (by
          simp only [hcount]
          simp only [List.length_cons] at hlen
          omega)
      rw [hrest, Bool.or_true]

/-- A lane that has counted nothing. -/
def Lane.Silent (l : Lane) : Prop := l.tone = 0 ∧ ∀ n ∈ l.windows, n = 0

theorem Lane.Silent.window {l : Lane} (h : l.Silent) : (l.window 0).Silent :=
  ⟨rfl, fun n hn => by
    obtain rfl | hn := List.mem_cons.mp (List.mem_of_mem_take hn)
    · rfl
    · exact h.2 n hn⟩

theorem Lane.Silent.reports {l : Lane} (h : l.Silent) : l.reports = false := by
  have hsum : l.windows.sum = 0 := List.sum_eq_zero h.2
  simp [Lane.reports, h.1, hsum]

theorem sense_silent (edges : List (Nat × Nat)) (x : LinkPort) (h0 : x.lane0.Silent) (h1 : x.lane1.Silent)
    (hzero : ∀ e ∈ edges, e = (0, 0)) : (x.sense edges).2 = false := by
  induction edges generalizing x with
  | nil => rfl
  | cons e es ih =>
    obtain rfl := hzero e List.mem_cons_self
    rw [LinkPort.sense]
    dsimp only
    rw [h0.window.reports, h1.window.reports,
      ih ({ x with lane0 := x.lane0.window 0, lane1 := x.lane1.window 0 }) h0.window h1.window fun y hy => hzero y (List.mem_cons_of_mem _ hy)]
    rfl

/-! ### Voltages asked for in a transition (R628) -/

section

variable {b b' : Block} {st : PowerSt}

/-- The rails stand at the voltages of a power state. -/
def Levelled (b : Block) (st : PowerSt) : Prop := railTarget b st 0 = b.pwr.target0 ∧ railTarget b st 1 = b.pwr.target1

theorem requestVolt_level {rail : Nat} (h : railTarget b st rail = railNow b.pwr rail) : requestVolt st rail b = b := if_pos h

theorem requestVolts_level (h : Levelled b st) : requestVolts st b = b := by
  have h0 : requestVolt st 0 b = b := requestVolt_level h.1
  rw [requestVolts, h0]
  exact requestVolt_level h.2

theorem railTarget_congr (h : VoltsFrame b b') (rail : Nat) : railTarget b' st rail = railTarget b st rail := by
  have h0 : b'.pwr.target0 = b.pwr.target0 := (congrArg Power.target0 h.pwr :)
  have h1 : b'.pwr.target1 = b.pwr.target1 := (congrArg Power.target1 h.pwr :)
  simp only [railTarget, railNow, h.dct, h0, h1]

theorem requestVolts_asks (h : ¬Levelled b st) : voltsDone (requestVolts st b) = false := by
  have hframe := requestVolt_frame st 0 b
  have h1 : (requestVolt st 0 b).pwr.target1 = b.pwr.target1 := (congrArg Power.target1 hframe.pwr :)
  by_cases hsecond : railTarget (requestVolt st 0 b) st 1 = (requestVolt st 0 b).pwr.target1
  · have hfirst : railTarget b st 0 ≠ b.pwr.target0 := by
      rw [railTarget_congr hframe, h1] at hsecond
      exact fun h0 => h ⟨h0, hsecond⟩
    have hop : requestVolts st b = requestVolt st 0 b := requestVolt_level hsecond
    have hasks : (requestVolt st 0 b).pwr.volt0.isNone = false := by
      rw [requestVolt, if_neg (by exact hfirst)]
      rfl
    rw [hop, voltsDone, hasks, Bool.false_and]
  · have hasks : (requestVolt st 1 (requestVolt st 0 b)).pwr.volt1.isNone = false := by
      rw [requestVolt, if_neg (by exact hsecond)]
      rfl
    rw [requestVolts, voltsDone, hasks, Bool.and_false]

/-! ### Entries (R621) -/

theorem sleepPort_sends (p : Nat) (b : Block) : LinkSends b (sleepPort p b) := by
  have hack : LinkSends b (if (b.lport p).inTouch then sendAck p false true b else b) := by
    split
    · exact emit_sends _ b
    · rfl
  unfold sleepPort
  dsimp only
  generalize (if (b.lport p).inTouch then sendAck p false true b else b) = u at hack ⊢
  have hdrop : LinkSends u (if (b.lport p).state == .disabled then u else dropUnacked p u) := by
    split <;> exact rfl
  generalize (if (b.lport p).state == .disabled then u else dropUnacked p u) = v at hdrop ⊢
  exact (hack.trans hdrop).trans rfl

theorem LinkSends.switch (h : LinkSends b b') (d : Domain) : b'.work.switch d = b.work.switch d :=
  (congrArg (fun x : Block => x.work.switch d) h :)

/-- What an entry leaves as it switches the arithmetic side and the Tenon ports off. -/
structure EntryOff (b b' : Block) : Prop where
  pwr : b'.pwr = b.pwr
  dct : b'.dct = b.dct
  jnr : b'.work.jnr = b.work.jnr
  off : ∀ d : Domain, d = .pln ∨ d = .tnl ∨ (∃ p ∈ livePorts b, d = .eng p) → b'.work.switch d = {}

theorem entry_off (b : Block) : EntryOff b (tnlOff ((List.range 6).foldl (fun b p => sleepPort p b) (arithOff b))) := by
  obtain ⟨harith, hpln, hengines, -⟩ := arithOff_off b
  generalize arithOff b = u at harith hpln hengines
  have hsleep : LinkSends u ((List.range 6).foldl (fun b p => sleepPort p b) u) :=
    List.foldlRecOn (motive := fun v => LinkSends u v) _ _ rfl fun v hv p _ => hv.trans (sleepPort_sends p v)
  generalize (List.range 6).foldl (fun b p => sleepPort p b) u = v at hsleep
  obtain ⟨htnl, hoff, hstays, -⟩ := tnlOff_off v
  generalize tnlOff v = w at htnl hoff hstays
  refine ⟨?_, ?_, ?_, ?_⟩
  · exact ((congrArg Block.pwr htnl :).trans (congrArg Block.pwr hsleep :)).trans (congrArg Block.pwr harith :)
  · exact ((congrArg Block.dct htnl :).trans (congrArg Block.dct hsleep :)).trans (congrArg Block.dct harith :)
  · exact ((congrArg (fun x : Block => x.work.jnr) htnl :).trans (congrArg (fun x : Block => x.work.jnr) hsleep :)).trans
      (congrArg (fun x : Block => x.work.jnr) harith :)
  · rintro d (rfl | rfl | ⟨p, hp, rfl⟩)
    · exact hstays _ ((hsleep.switch _).trans hpln)
    · exact hoff
    · exact hstays _ ((hsleep.switch _).trans (hengines p hp))

theorem VoltsFrame.switch (h : VoltsFrame b b') (d : Domain) : b'.work.switch d = b.work.switch d :=
  (congrArg (fun x : Block => x.work.switch d) h :)

theorem powerAdvance_ps2 (htrans : b.pwr.transition = some .ps2) (hstage : b.pwr.stage = 1) :
    powerAdvance b = if voltsDone b then entryOver .ps2 b else b := by
  simp only [powerAdvance, htrans, hstage, decide_true, Bool.true_and]

theorem powerAdvance_ps3 (htrans : b.pwr.transition = some .ps3) (hstage : b.pwr.stage = 1) :
    powerAdvance b = if voltsDone b then
      if b.dct.sillCapable then startSill .rest St.ok (b.updPwr fun x => { x with stage := 2 }) else restRetain b else b := by
  simp only [powerAdvance, htrans, hstage, one_ne_zero, if_false, if_true]

/-- An entry that ends with no wake source kept for it. -/
theorem entryOver_none (h : b.pwr.wakeLate = none) :
    entryOver st b = b.updPwr fun x => { x with state := st, transition := none, stage := 0, wakeLate := none } := by
  rw [entryOver, h]

/-- An entry whose voltages stand still, or still change. -/
theorem powerAdvance_waits {target : PowerSt} (htarget : target = .ps2 ∨ target = .ps3) (htrans : b.pwr.transition = some target)
    (hstage : b.pwr.stage = 1) (hvolts : voltsDone b = false) : powerAdvance b = b := by
  obtain rfl | rfl := htarget
  · rw [powerAdvance_ps2 htrans hstage, hvolts]
    rfl
  · rw [powerAdvance_ps3 htrans hstage, hvolts]
    rfl

/-- The retention SRAM is written and CTL goes off: what was off stays off (R623). -/
theorem restRetain_rests (b : Block) : (restRetain b).pwr.retention = some b.work.jnr.image ∧
    (restRetain b).pwr.transition = b.pwr.transition ∧ (restRetain b).pwr.lastStatus = b.pwr.lastStatus ∧
    ∀ d, b.work.switch d = {} → (restRetain b).work.switch d = {} := by
  have hframe := requestVolts_frame .ps3 (pswOff .ctl (b.updPwr fun x => { x with
    retention := some b.work.jnr.image, retDict := (b.dct.setPar 0x2001 0 b.clk.quarters.toNat).vals
    restView := some (b.frm.admitted, b.frm.excl, b.frm.down), stage := 3 }))
  have hop : restRetain b = requestVolts .ps3 (pswOff .ctl (b.updPwr fun x => { x with
    retention := some b.work.jnr.image, retDict := (b.dct.setPar 0x2001 0 b.clk.quarters.toNat).vals
    restView := some (b.frm.admitted, b.frm.excl, b.frm.down), stage := 3 })) := rfl
  rw [hop]
  generalize requestVolts .ps3 _ = b' at hframe
  exact ⟨(congrArg Power.retention hframe.pwr :), (congrArg Power.transition hframe.pwr :), (congrArg Power.lastStatus hframe.pwr :),
    fun d hd => (hframe.switch d).trans (pswOff_stays (b := b) .ctl hd)⟩

/-- What an entry that begins comes to in its first control cycle. -/
structure Enters (target : PowerSt) (b b' : Block) : Prop where
  off : ∀ d : Domain, d = .pln ∨ d = .tnl ∨ (∃ p ∈ livePorts b, d = .eng p) → b'.work.switch d = {}
  lastStatus : b'.pwr.lastStatus = b.pwr.lastStatus
  waits : ¬Levelled b .ps2 → b'.pwr.state = b.pwr.state ∧ b'.pwr.transition = some target
  ps2 : Levelled b .ps2 → target = .ps2 → b'.pwr.state = .ps2 ∧ b'.pwr.transition = none
  ps3 : Levelled b .ps2 → target = .ps3 → b'.pwr.transition = some .ps3 ∧
    (b.dct.sillCapable = true → b'.pwr.sillBusy.any (fun y => y.1 == .rest) = true) ∧
    (b.dct.sillCapable = false → b'.pwr.retention = some b.work.jnr.image)

theorem entryBegins_open {target : PowerSt} (htarget : target = .ps2 ∨ target = .ps3) (htrans : b.pwr.transition = some target)
    (hstage : b.pwr.stage = 0) (hheld : (b.work.cmds.any fun c => c.op == some .exec && c.isReleased) = false) :
    entryBegins b = requestVolts .ps2 ((tnlOff ((List.range 6).foldl (fun b p => sleepPort p b) (arithOff b))).updPwr fun x =>
      { x with stage := 1 }) := by
  have hopen : ((b.pwr.transition != some .ps2 && b.pwr.transition != some .ps3) || b.pwr.stage != 0) = false := by
    obtain rfl | rfl := htarget <;> simp [htrans, hstage]
  simp only [entryBegins, hopen, hheld, Bool.false_eq_true, if_false]

theorem entryBegins_held {target : PowerSt} (htarget : target = .ps2 ∨ target = .ps3) (htrans : b.pwr.transition = some target)
    (hstage : b.pwr.stage = 0) (hheld : (b.work.cmds.any fun c => c.op == some .exec && c.isReleased) = true) :
    entryBegins b = { b with pwr := { b.pwr with transition := none, wakeLate := none, lastStatus := St.stateReject } } := by
  have hopen : ((b.pwr.transition != some .ps2 && b.pwr.transition != some .ps3) || b.pwr.stage != 0) = false := by
    obtain rfl | rfl := htarget <;> simp [htrans, hstage]
  rw [entryBegins, hopen, hheld]
  rfl

theorem entry_enters {target : PowerSt} (htarget : target = .ps2 ∨ target = .ps3) (htrans : b.pwr.transition = some target)
    (hstage : b.pwr.stage = 0) (hheld : (b.work.cmds.any fun c => c.op == some .exec && c.isReleased) = false) (hlate : b.pwr.wakeLate = none)
    (h0 : b.pwr.volt0 = none) (h1 : b.pwr.volt1 = none) : Enters target b (powerAdvance (entryBegins b)) := by
  rw [entryBegins_open htarget htrans hstage hheld]
  obtain ⟨hpwr, hdct, hjnr, hoff⟩ := entry_off b
  generalize tnlOff ((List.range 6).foldl (fun b p => sleepPort p b) (arithOff b)) = v at hpwr hdct hjnr hoff ⊢
  have hlevel : Levelled (v.updPwr fun x => { x with stage := 1 }) .ps2 ↔ Levelled b .ps2 := by
    simp only [Levelled, railTarget, railNow, Block.updPwr, hpwr, hdct]
  by_cases hlev : Levelled b .ps2
  · rw [requestVolts_level (hlevel.mpr hlev)]
    have hdone : voltsDone (v.updPwr fun x => { x with stage := 1 }) = true := by
      simp only [voltsDone, Block.updPwr, hpwr, h0, h1]
      rfl
    obtain rfl | rfl := htarget
    · have hwake : (v.updPwr fun x => { x with stage := 1 }).pwr.wakeLate = none := by
        simp only [Block.updPwr, hpwr, hlate]
      rw [powerAdvance_ps2 (by simp only [Block.updPwr, hpwr, htrans]) rfl, if_pos hdone, entryOver_none hwake]
      exact ⟨hoff, (congrArg Power.lastStatus hpwr :), fun h => absurd hlev h, fun _ _ => ⟨rfl, rfl⟩, fun _ h => (nomatch h)⟩
    · rw [powerAdvance_ps3 (by simp only [Block.updPwr, hpwr, htrans]) rfl, if_pos hdone]
      split
      next hcap =>
        have hcap' : b.dct.sillCapable = true := hdct ▸ hcap
        refine ⟨hoff, (congrArg Power.lastStatus hpwr :), fun h => absurd hlev h, fun _ h => (nomatch h), fun _ _ =>
          ⟨(congrArg Power.transition hpwr :).trans htrans, fun _ => rfl, fun h => ?_⟩⟩
        rw [hcap'] at h
        cases h
      next hcap =>
        have hcap' : b.dct.sillCapable ≠ true := hdct ▸ hcap
        obtain ⟨hret, htr, hls, hstays⟩ := restRetain_rests (v.updPwr fun x => { x with stage := 1 })
        refine ⟨fun d hd => hstays d (hoff d hd), hls.trans (congrArg Power.lastStatus hpwr :), fun h => absurd hlev h, fun _ h => (nomatch h),
          fun _ _ => ⟨htr.trans ((congrArg Power.transition hpwr :).trans htrans), fun h => absurd h hcap', fun _ => ?_⟩⟩
        rw [hret, ← hjnr]
        rfl
  · have hasks := requestVolts_asks (mt hlevel.mp hlev)
    have hframe := requestVolts_frame .ps2 (v.updPwr fun x => { x with stage := 1 })
    generalize requestVolts .ps2 (v.updPwr fun x => { x with stage := 1 }) = u at hasks hframe ⊢
    have htrans' : u.pwr.transition = some target :=
      ((congrArg Power.transition hframe.pwr :).trans (congrArg Power.transition hpwr :)).trans htrans
    rw [powerAdvance_waits htarget htrans' (congrArg Power.stage hframe.pwr :) hasks]
    exact ⟨fun d hd => (hframe.switch d).trans (hoff d hd), (congrArg Power.lastStatus hframe.pwr :).trans (congrArg Power.lastStatus hpwr :),
      fun _ => ⟨(congrArg Power.state hframe.pwr :).trans (congrArg Power.state hpwr :), htrans'⟩, fun h => absurd h hlev, fun h => absurd h hlev⟩

/-! ### Exits (R622, R624, R625) -/

/-- An exit has begun, with the source that woke the block. -/
structure Leaving (src : BitVec 8) (b b' : Block) : Prop where
  transition : b'.pwr.transition = some .ps0
  wakeSrc : b'.pwr.wakeSrc = src
  state : b'.pwr.state = b.pwr.state
  lastStatus : b'.pwr.lastStatus = b.pwr.lastStatus
  wakeReq : b'.work.fab.wakeReq = b.work.fab.wakeReq

/-- The arithmetic side switched on: its switches and its ports alone change. -/
theorem arithOn_on (b : Block) : (arithOn b).pwr = b.pwr ∧ (arithOn b).work.fab = b.work.fab ∧ ((arithOn b).work.switch .pln).on = true ∧
    ((arithOn b).work.switch .tnl).on = true := by
  have hpln : ((pswOn .tnl (pswOn .pln b)).work.switch .pln).on = true := pswOn_keeps .tnl (pswOn_switch .pln b)
  have htnl : ((pswOn .tnl (pswOn .pln b)).work.switch .tnl).on = true := pswOn_switch .tnl _
  exact List.foldlRecOn (motive := fun v : Block => v.pwr = b.pwr ∧ v.work.fab = b.work.fab ∧ (v.work.switch .pln).on = true ∧
    (v.work.switch .tnl).on = true) _ _ ⟨rfl, rfl, hpln, htnl⟩ fun v ⟨hpwr, hfab, hp, ht⟩ p _ =>
      ⟨hpwr, hfab, pswOn_keeps (.eng p) hp, pswOn_keeps (.eng p) ht⟩

/-- The power controller as an exit from PS2 begins. -/
def leavingPower (src : Nat) (x : Power) : Power :=
  { x with transition := some .ps0, stage := 1, wakeSrc := BitVec.ofNat 8 src, wakeLate := none }

theorem wake_ps2 (src : Nat) (hstate : b.pwr.state = .ps2) (hnone : b.pwr.transition = none) :
    wake src b = requestVolts .ps0 (b.updPwr (leavingPower src)) := by
  have hbegin : wake src b = beginExit src b := by simp only [wake, hnone, hstate, true_or, if_true]
  have hawake : (b.updPwr (leavingPower src)).pwr.state ≠ .ps3 := by
    have : (b.updPwr (leavingPower src)).pwr.state = b.pwr.state := rfl
    rw [this, hstate]
    decide
  rw [hbegin]
  exact if_neg hawake

theorem powerAdvance_leaving (htrans : b.pwr.transition = some .ps0) (hstate : b.pwr.state = .ps2) (hstage : b.pwr.stage = 1) :
    powerAdvance b = if voltsDone b then arithOn (b.updPwr fun x => { x with stage := 2 }) else b := by
  have hne : ¬(PowerSt.ps2 = .ps3) := by decide
  simp only [powerAdvance, htrans, hstate, hstage, hne, if_false, if_true]

/-- An exit from PS2 as far as it goes at once. -/
theorem wake_ps2_leaves (src : Nat) (hstate : b.pwr.state = .ps2) (hnone : b.pwr.transition = none) :
    Leaving (BitVec.ofNat 8 src) b (powerAdvance (wake src b)) ∧ (Levelled b .ps0 → b.pwr.volt0 = none → b.pwr.volt1 = none →
      ((powerAdvance (wake src b)).work.switch .pln).on = true ∧ ((powerAdvance (wake src b)).work.switch .tnl).on = true) := by
  have hlevel : Levelled (b.updPwr (leavingPower src)) .ps0 ↔ Levelled b .ps0 := Iff.rfl
  have hframe := requestVolts_frame .ps0 (b.updPwr (leavingPower src))
  have hdone : Levelled b .ps0 → b.pwr.volt0 = none → b.pwr.volt1 = none →
      voltsDone (requestVolts .ps0 (b.updPwr (leavingPower src))) = true := by
    intro hlev h0 h1
    rw [requestVolts_level (hlevel.mpr hlev)]
    simp only [voltsDone, Block.updPwr, leavingPower, h0, h1]
    rfl
  rw [wake_ps2 src hstate hnone]
  generalize requestVolts .ps0 (b.updPwr (leavingPower src)) = u at hframe hdone ⊢
  have htrans : u.pwr.transition = some .ps0 := (congrArg Power.transition hframe.pwr :)
  have hsrc : u.pwr.wakeSrc = BitVec.ofNat 8 src := (congrArg Power.wakeSrc hframe.pwr :)
  have hst : u.pwr.state = b.pwr.state := (congrArg Power.state hframe.pwr :)
  have hlast : u.pwr.lastStatus = b.pwr.lastStatus := (congrArg Power.lastStatus hframe.pwr :)
  have hreq : u.work.fab.wakeReq = b.work.fab.wakeReq := (congrArg Fabric.wakeReq hframe.fab :)
  rw [powerAdvance_leaving htrans (hst.trans hstate) (congrArg Power.stage hframe.pwr :)]
  split
  next =>
    obtain ⟨hpwr, hfab, hpln, htnl⟩ := arithOn_on (u.updPwr fun x => { x with stage := 2 })
    generalize arithOn (u.updPwr fun x => { x with stage := 2 }) = v at hpwr hfab hpln htnl ⊢
    exact ⟨⟨(congrArg Power.transition hpwr :).trans htrans, (congrArg Power.wakeSrc hpwr :).trans hsrc, (congrArg Power.state hpwr :).trans hst,
      (congrArg Power.lastStatus hpwr :).trans hlast, (congrArg Fabric.wakeReq hfab :).trans hreq⟩, fun _ _ _ => ⟨hpln, htnl⟩⟩
  next hno => exact ⟨⟨htrans, hsrc, hst, hlast, hreq⟩, fun hlev h0 h1 => absurd (hdone hlev h0 h1) hno⟩

theorem wake_leaves (src : Nat) (hstate : b.pwr.state = .ps2 ∨ b.pwr.state = .ps3) (hnone : b.pwr.transition = none) :
    Leaving (BitVec.ofNat 8 src) b (powerAdvance (wake src b)) := by
  obtain h | h := hstate
  · exact (wake_ps2_leaves src h hnone).1
  · have hw := wake_wakes src h hnone
    exact ⟨hw.transition, hw.wakeSrc, hw.state.trans h.symm, hw.lastStatus, hw.wakeReq⟩

/-! ### Single domains (R102, R622) -/

theorem domainKey_ne {d d' : Domain} (h : d' ≠ d) : domainKey d' ≠ domainKey d := by
  intro hkey
  cases d <;> cases d' <;> simp_all [domainKey]
  all_goals omega

@[simp] theorem switch_updSwitch (w : Work) (d : Domain) (f : Switch → Switch) : (w.updSwitch d f).switch d = f (w.switch d) :=
  tblGet_tblUpd_same ({} : Switch) w.sw (domainKey d) f

theorem switch_updSwitch_other (w : Work) {d d' : Domain} (f : Switch → Switch) (h : d' ≠ d) : (w.updSwitch d f).switch d' = w.switch d' :=
  tblGet_tblUpd_other ({} : Switch) w.sw (domainKey d) (domainKey d') f (domainKey_ne h)

/-- The acknowledgement of a switch whose domain is no engine (R102). -/
theorem pswAcked_domain {d : Domain} (hon : (b.work.switch d).on = true) (hack : (b.work.switch d).ack = false) (hd : ∀ p, d ≠ .eng p) :
    pswAcked d b = (b.updWork fun w => w.updSwitch d fun x => { x with ack := true }).updWork fun w =>
      w.updSwitch d fun x => { x with iso := false } := by
  rw [pswAcked, if_neg (by simp [hon, hack])]
  cases d
  case eng p => exact absurd rfl (hd p)
  all_goals rfl

/-- The acknowledgement of an engine's switch: its reset is held for the cycles of R92. -/
theorem pswAcked_engine {p : Nat} (hon : (b.work.switch (.eng p)).on = true) (hack : (b.work.switch (.eng p)).ack = false)
    (hport : (b.work.port p).state = .hardReset) :
    pswAcked (.eng p) b = (b.updWork fun w => w.updSwitch (.eng p) fun x => { x with ack := true }).updWork fun w =>
      (w.updPort p fun x => { x with hrstN := false, hrstWait := hrstCycles, idle := false }).emit (.hardReset p) := by
  rw [pswAcked, if_neg (by simp [hon, hack])]
  exact if_pos (beq_iff_eq.mpr hport)

/-- A port that begins to train. -/
theorem startTrain_state (p : Nat) (b : Block) : ((startTrain p b).lport p).state = .training := by
  rw [startTrain, lport_updLport]

end

/-- Settles O47: the power states, their entries and exits, the wake detectors and the domains. -/
theorem powerStates : Obligations.PowerStates := by
  unfold Obligations.PowerStates
  refine ⟨fun x edges => ⟨fun htone hlen hedges => ?tone, fun h0 h1 hw0 hw1 hedges => ?silent⟩, fun s =>
    ⟨fun h h0 h1 => ⟨?refuse, ?accept, fun target htarget htrans hstage => ⟨fun hheld => ?held, fun hheld hlate => ?enter⟩, fun hnone hstate => ?awake,
      fun hnone hstate => ?leave, fun hnone hstate htiles hlanes hcommits => ?idle, fun hstate => ?ps1⟩,
      fun hopen => ⟨fun hzero => ?noTimer, fun hreq => ?noWake, fun p edges hp => ?asleepNot, fun p edges hp hno => ?sensed,
        fun hnone hstate => ⟨fun hafter => ?after, fun hreq => ?fnWake, fun p edges hp hyes => ?detect⟩,
        fun hnone hstate hon p edges hp hyes => ?train, fun hnone => ?clkOk, fun htrans hstate hstage => ?clkOkRest,
        fun hnone d hon hack => ⟨fun hd => ?acked, fun p hd hport => ?ackedEngine⟩, fun htrans hstate hstage hup hsettled => ?ps3Exit,
        fun hno => ?ps3No⟩⟩⟩
  case tone =>
    have hne : edges ≠ [] := fun h => by simp [h] at hlen
    exact sense_tone edges x hne hedges (by omega)
  case silent =>
    exact sense_silent edges x ⟨h0, by simp [hw0]⟩ ⟨h1, by simp [hw1]⟩ hedges
  case refuse =>
    rintro i (⟨rfl, hbad⟩ | ⟨rfl, hbad⟩)
    · refine acts_of (f := goPs2) rfl h (if_pos ?_)
      obtain htrans | hstate | hmay := hbad
      · simp [Option.isSome_iff_ne_none.mpr htrans]
      · simp [hstate]
      · simp [hmay]
    · refine acts_of (f := goPs3) rfl h (if_pos ?_)
      obtain htrans | hmay := hbad
      · simp [Option.isSome_iff_ne_none.mpr htrans]
      · simp [hmay]
  case accept =>
    rintro i target (⟨rfl, rfl, hstate, hmay⟩ | ⟨rfl, rfl, hmay⟩) htrans
    · exact acts_of (f := goPs2) rfl h (if_neg (by simp [htrans, hstate, hmay]))
    · exact acts_of (f := goPs3) rfl h (if_neg (by simp [htrans, hmay]))
  case held => exact entryBegins_held htarget htrans hstage hheld
  case enter =>
    have henters := entry_enters htarget htrans hstage hheld hlate h0 h1
    exact ⟨henters.off, henters.lastStatus, henters.waits, henters.ps2, henters.ps3⟩
  case awake =>
    refine acts_of (f := goPs0) rfl h (if_pos ?_)
    obtain hs | hs := hstate <;> simp [hnone, hs]
  case leave =>
    refine acts_of (f := goPs0) rfl h ?_
    rw [goPs0, if_neg (by simp [hstate])]
    have hleaves := wake_ps2_leaves (b := s.core.updPwr fun x => { x with lastStatus := St.ok }) 7 hstate hnone
    generalize powerAdvance (wake 7 (s.core.updPwr fun x => { x with lastStatus := St.ok })) = b at hleaves ⊢
    obtain ⟨hleaving, hon⟩ := hleaves
    exact ⟨⟨hleaving.transition, hleaving.wakeSrc, hleaving.state⟩, hleaving.lastStatus, fun hlev => hon hlev h0 h1⟩
  case idle =>
    refine acts_of (f := enterPs1) rfl h (if_pos ⟨hstate, by simp [hnone], ?_⟩)
    have htiles' : (s.core.work.tiles.any fun t => t.state == .running || t.state == .offered || t.state == .staging) = false := by
      simp only [List.any_eq_false, Bool.or_eq_true, beq_iff_eq, not_or]
      exact fun t ht => ⟨⟨(htiles t ht).1, (htiles t ht).2.1⟩, (htiles t ht).2.2⟩
    have hlanes' : (s.core.work.pln.lanes.any fun p => p.2.isSome) = false := by
      simpa [List.any_eq_false, List.all_eq_true] using hlanes
    have hcommits' : (s.core.work.pln.commits.any fun p => p.2.isSome) = false := by
      simpa [List.any_eq_false, List.all_eq_true] using hcommits
    rw [htiles', hlanes', hcommits']
    rfl
  case ps1 => exact acts_of (f := leavePs1) rfl h (if_pos hstate)
  case noTimer => exact sets_of (f := wakeAfter) rfl hopen (if_pos hzero)
  case noWake => exact sets_of (f := fnWake) rfl hopen (if_pos hreq)
  case asleepNot => exact sets_of (f := wakeDetect p edges) rfl hopen (if_pos (by simp [hp]))
  case sensed =>
    refine sets_of (f := wakeDetect p edges) rfl hopen ?_
    rw [wakeDetect, if_neg (by simp [hp])]
    dsimp only
    rw [if_neg (by simp [hno])]
    exact ⟨lport_updLport .., fun q hq => lport_updLport_other _ _ _ _ hq, rfl⟩
  case after =>
    refine sets_of (f := wakeAfter) rfl hopen ?_
    rw [wakeAfter, if_neg hafter]
    have hleaving := wake_leaves 8 hstate hnone
    exact ⟨hleaving.transition, hleaving.wakeSrc, hleaving.state⟩
  case fnWake =>
    refine sets_of (f := fnWake) rfl hopen ?_
    rw [fnWake, if_neg (by simp [hreq])]
    have hleaving := wake_leaves (b := s.core.updWork fun w => w.updFab fun f => { f with wakeReq := true }) 2 hstate hnone
    exact ⟨⟨hleaving.transition, hleaving.wakeSrc, hleaving.state⟩, hleaving.wakeReq⟩
  case detect =>
    refine sets_of (f := wakeDetect p edges) rfl hopen ?_
    rw [wakeDetect, if_neg (by simp [hp])]
    dsimp only
    rw [if_pos hyes]
    have hrest : ¬(s.core.pwr.state = .ps0 ∨ s.core.pwr.state = .ps1) := by
      obtain hs | hs := hstate <;> simp [hs]
    have hleaving := wake_leaves (b := s.core.updLport p fun _ => ((s.core.lport p).sense edges).1) 3 hstate hnone
    rw [wakeReport, if_neg (by exact hrest)]
    exact ⟨hleaving.transition, hleaving.wakeSrc, hleaving.state⟩
  case train =>
    refine sets_of (f := wakeDetect p edges) rfl hopen ?_
    rw [wakeDetect, if_neg (by simp [hp])]
    dsimp only
    rw [if_pos hyes, wakeReport, if_pos (by exact Or.inl hstate), if_pos (by exact Bool.and_eq_true_iff.mpr ⟨by simpa [Block.updLport] using hnone, hon⟩)]
    exact ⟨startTrain_state p _, rfl⟩
  case clkOk =>
    refine sets_of (f := clkOkRose) rfl hopen ?_
    exact powerAdvance_none (b := s.core.updWork fun w => w.updFab fun f => { f with clkOk := true }) hnone
  case clkOkRest =>
    refine sets_of (f := clkOkRose) rfl hopen ?_
    rw [clkOkRose, powerAdvance_begun (b := s.core.updWork fun w => w.updFab fun f => { f with clkOk := true }) htrans hstate hstage]
    have hframe := requestVolts_frame .ps0 ((s.core.updWork fun w => w.updFab fun f => { f with clkOk := true }).updPwr fun x =>
      { x with stage := 2 })
    rw [if_pos (by rfl)]
    generalize requestVolts .ps0 _ = b at hframe ⊢
    exact ⟨(congrArg Fabric.clkOk hframe.fab :), (congrArg Power.stage hframe.pwr :), (congrArg Power.transition hframe.pwr :).trans htrans⟩
  case acked =>
    refine sets_of (f := fun b => powerAdvance (pswAcked d b)) rfl hopen ?_
    rw [pswAcked_domain hon hack hd, powerAdvance_none (by exact hnone)]
    refine ⟨?_, fun d' hd' => ?_, rfl⟩
    · exact (switch_updSwitch _ d _).trans (congrArg (fun x : Switch => { x with iso := false }) (switch_updSwitch s.core.work d _))
    · exact (switch_updSwitch_other _ _ hd').trans (switch_updSwitch_other s.core.work _ hd')
  case ackedEngine =>
    subst hd
    refine sets_of (f := fun b => powerAdvance (pswAcked (.eng p) b)) rfl hopen ?_
    rw [pswAcked_engine hon hack hport, powerAdvance_none (by exact hnone)]
    have hswitch := switch_updSwitch s.core.work (.eng p) fun x => { x with ack := true }
    have hothers (d' : Domain) (hd' : d' ≠ .eng p) := switch_updSwitch_other s.core.work (fun x => { x with ack := true }) hd'
    have hport' := port_updPort (s.core.work.updSwitch (.eng p) fun x => { x with ack := true }) p fun x =>
      { x with hrstN := false, hrstWait := hrstCycles, idle := false }
    have hports (q : Nat) (hq : q ≠ p) := port_updPort_other (s.core.work.updSwitch (.eng p) fun x => { x with ack := true }) p q
      (fun x => { x with hrstN := false, hrstWait := hrstCycles, idle := false }) hq
    exact ⟨hswitch, hothers, rfl, hport', hports⟩
  case ps3Exit =>
    refine sets_of (f := ps3Exit) rfl hopen ?_
    rw [ps3Exit, if_pos ⟨hstate, htrans, hstage, hup⟩]
    exact requestReset_restarts 4 hsettled ⟨rfl, rfl⟩
  case ps3No => exact sets_of (f := ps3Exit) rfl hopen (if_neg fun h => hno h.2.1)

end Sys2Proof.Machine

end

-- Proofs about the steps of a start (R112, R648 to R654).
section

namespace Sys2Proof.Machine

/-! ### The domains of a start (R648) -/

section

variable {b b' : Block}

/-- Engines switched on: each of them, with every domain that was on. -/
theorem enginesOn (l : List Nat) (b : Block) :
    (∀ p ∈ l, ((l.foldl (fun b p => pswOn (.eng p) b) b).work.switch (.eng p)).on = true) ∧
      (∀ d, (b.work.switch d).on = true → ((l.foldl (fun b p => pswOn (.eng p) b) b).work.switch d).on = true) := by
  induction l generalizing b with
  | nil => exact ⟨fun _ hp => absurd hp List.not_mem_nil, fun _ h => h⟩
  | cons p l ih =>
    obtain ⟨hengines, hstays⟩ := ih (pswOn (.eng p) b)
    refine ⟨fun q hq => ?_, fun d hd => hstays d (pswOn_keeps (.eng p) hd)⟩
    obtain rfl | hq := List.mem_cons.mp hq
    · exact hstays _ (pswOn_switch _ b)
    · exact hengines q hq

theorem startDomains_all (b : Block) (d : Domain) (hd : d = .ctl ∨ d = .pln ∨ d = .tnl ∨ ∃ p ∈ livePorts b, d = .eng p) :
    ((startDomains b).work.switch d).on = true := by
  obtain ⟨hengines, hstays⟩ := enginesOn (livePorts b) (pswOn .pln (pswOn .tnl (pswOn .ctl b)))
  obtain rfl | rfl | rfl | ⟨p, hp, rfl⟩ := hd
  · exact hstays _ (pswOn_keeps .pln (pswOn_keeps .tnl (pswOn_switch .ctl b)))
  · exact hstays _ (pswOn_switch .pln _)
  · exact hstays _ (pswOn_keeps .pln (pswOn_switch .tnl _))
  · exact hengines p hp

/-! ### The fuse word (R112) -/

theorem fuseAck_open {word : BitVec 128} (hstep : b.st.step = 3) (hpor : b.st.inPor = false) : fuseAck word b =
    let b := { b with pins := { b.pins with fuseReq := false } }
    if fuseCrc word = word.extractLsb' 112 16 then b.updStart fun x => { fuseFields word x with step := 4 }
    else if b.st.fuseTries < 2 then readFuse (b.updStart fun x => { x with fuseTries := x.fuseTries + 1 })
    else b.updStart fun x => { fuseFields 0 x with fuseFault := true, fuseTries := 3, step := 4 } :=
  if_neg (by simp [hstep, hpor])

/-! ### Self-test (R649) -/

/-- The function level reset that waits is answered: nothing of the start or of the ports changes. -/
theorem flrDone_keeps (b : Block) : (flrDone b).st = b.st ∧ (flrDone b).pwr = b.pwr ∧ (flrDone b).work.ports = b.work.ports := by
  unfold flrDone
  split <;> exact ⟨rfl, rfl, rfl⟩

/-- An engine that has failed is taken out. -/
def retire (b : Block) (p : Nat) : Block :=
  (pswOff (.eng p) b).updWork fun w => w.updPort p fun x => { x with state := .retired, hrstN := false, idle := false }

theorem retire_all (l : List Nat) (b : Block) :
    (l.foldl retire b).st = b.st ∧ (l.foldl retire b).pwr = b.pwr ∧
      ∀ p, ((l.foldl retire b).work.port p).state = if p ∈ l then .retired else (b.work.port p).state := by
  induction l generalizing b with
  | nil => exact ⟨rfl, rfl, fun _ => rfl⟩
  | cons q l ih =>
    obtain ⟨hst, hpwr, hports⟩ := ih (retire b q)
    refine ⟨hst, hpwr, fun p => (hports p).trans ?_⟩
    by_cases hp : p ∈ l
    · rw [if_pos hp, if_pos (List.mem_cons_of_mem _ hp)]
    · rw [if_neg hp]
      by_cases hq : p = q
      · subst hq
        have hself : (retire b p).work.port p = { b.work.port p with state := .retired, hrstN := false, idle := false } :=
          port_updPort (pswOff (.eng p) b).work p _
        rw [hself, if_pos List.mem_cons_self]
      · have hother : (retire b q).work.port p = b.work.port p := port_updPort_other (pswOff (.eng q) b).work q p _ hq
        rw [hother, if_neg (by simp [hq, hp])]

/-- What self-test records before it acts. -/
def tested (ctl kiln retention : Bool) (cores : BitVec 32) (ports : BitVec 16) (b : Block) : Block :=
  (b.updStart fun x => { x with
    bistCtl := ctl, bistKiln := kiln, bistRetention := retention, bistCores := cores, bistPorts := ports, bar0 := !ctl }).updPwr fun x =>
      { x with retention := none, retDict := [], restView := none }

theorem selfTest_open {ctl kiln retention : Bool} {cores : BitVec 32} {ports : BitVec 16} (hstep : b.st.step = 4) (hpor :
    b.st.inPor = false)
    (hhalt : b.st.halted = false) : selfTest ctl kiln retention cores ports b =
      let v := tested ctl kiln retention cores ports b
      let v := if v.st.bar0 then flrDone v else v
      if ctl || kiln || cores.getLsbD 0 then haltStart St.bistFailed v
      else (((List.range 16).filter fun p => ports.getLsbD p && (v.work.port p).present).foldl retire v).updStart fun x => { x with step := 5 } :=
  if_neg (by simp [hstep, hpor, hhalt])

/-! ### The dictionary load (R653) -/

/-- What follows the values of a load leaves them: the start goes to its step 6 or 7. -/
structure LoadFrame (b b' : Block) : Prop where
  st : { b'.st with step := b.st.step } = b.st
  clk : b'.clk = b.clk
  dct : b'.dct = b.dct
  frm : b'.frm = b.frm

theorem LoadFrame.trans {b'' : Block} (h : LoadFrame b b') (h' : LoadFrame b' b'') : LoadFrame b b'' where
  st := (congrArg (fun x : Start => { x with step := b.st.step }) h'.st :).trans h.st
  clk := h'.clk.trans h.clk
  dct := h'.dct.trans h.dct
  frm := h'.frm.trans h.frm

theorem trainPorts_frame (b : Block) : LoadFrame b (trainPorts b) ∧ (trainPorts b).st.step = b.st.step := by
  unfold trainPorts
  refine List.foldlRecOn (motive := fun v : Block => LoadFrame b v ∧ v.st.step = b.st.step) _ _ ⟨⟨rfl, rfl, rfl, rfl⟩, rfl⟩ fun v hv p _ => ?_
  dsimp only
  split
  · split
    · exact ⟨hv.1.trans ⟨rfl, rfl, rfl, rfl⟩, hv.2⟩
    · exact ⟨hv.1.trans ⟨rfl, rfl, rfl, rfl⟩, hv.2⟩
  · exact hv

theorem startAdvance_six (hstep : b.st.step = 6) :
    LoadFrame b (startAdvance b) ∧ ((startAdvance b).st.step = 6 ∨ (startAdvance b).st.step = 7) := by
  have hop : startAdvance b = if b.st.inPor || b.st.done || b.st.halted then b
      else if voltsDone b then b.updStart fun x => { x with step := 7 } else b := by
    simp only [startAdvance, hstep]
    rfl
  rw [hop]
  split
  · exact ⟨⟨rfl, rfl, rfl, rfl⟩, Or.inl hstep⟩
  · split
    · exact ⟨⟨rfl, rfl, rfl, rfl⟩, Or.inr rfl⟩
    · exact ⟨⟨rfl, rfl, rfl, rfl⟩, Or.inl hstep⟩

/-- The steps that follow the values of a load. -/
def loadTail (store : Option (List Byte)) (b : Block) : Block :=
  let b := readSill (store.getD []) (askSill (b.updStart fun x => { x with loaded := true, step := 6 }))
  let b := { b with clk := { b.clk with quarters := BitVec.ofNat 8 b.dct.beatQuarters }, dct := { b.dct with taken := b.dct.vals } }
  startAdvance (trainPorts (requestVolts .ps0 b))

/-- The block once its values are loaded and the Sill slots are read, before the voltages are asked for. -/
def loadedWith (store : Option (List Byte)) (b : Block) : Block :=
  let b := readSill (store.getD []) (askSill (b.updStart fun x => { x with loaded := true, step := 6 }))
  { b with clk := { b.clk with quarters := BitVec.ofNat 8 b.dct.beatQuarters }, dct := { b.dct with taken := b.dct.vals } }

theorem loadTail_frame (store : Option (List Byte)) (b : Block) :
    LoadFrame (loadedWith store b) (loadTail store b) ∧ ((loadTail store b).st.step = 6 ∨ (loadTail store b).st.step = 7) := by
  have hop : loadTail store b = startAdvance (trainPorts (requestVolts .ps0 (loadedWith store b))) := rfl
  have hvolts := requestVolts_frame .ps0 (loadedWith store b)
  have hstep : (loadedWith store b).st.step = 6 := rfl
  rw [hop]
  generalize loadedWith store b = v at hvolts hstep ⊢
  generalize requestVolts .ps0 v = u at hvolts ⊢
  have hust : u.st = v.st := (congrArg Block.st hvolts :)
  have hu : LoadFrame v u := by
    refine ⟨by rw [hust], (congrArg Block.clk hvolts :), (congrArg Block.dct hvolts :), (congrArg Block.frm hvolts :)⟩
  obtain ⟨htrain, htstep⟩ := trainPorts_frame u
  obtain ⟨hadv, hsteps⟩ := startAdvance_six (htstep.trans ((congrArg Start.step hust).trans hstep))
  exact ⟨(hu.trans htrain).trans hadv, hsteps⟩

/-- BEAT_QUARTERS is a value of the dictionary. -/
theorem beatQuarters_congr {d d' : Dict} (h : d'.vals = d.vals) : d'.beatQuarters = d.beatQuarters := by
  rw [Dict.beatQuarters, Dict.beatQuarters, Dict.at, Dict.at, h]

/-- The Sill slots as they are read leave the values. -/
theorem readSill_dct (store : List Byte) (b : Block) :
    (readSill store b).dct.vals = b.dct.vals ∧ (readSill store b).dct.skipped = b.dct.skipped := by
  unfold readSill
  exact ⟨rfl, rfl⟩

/-- The end of a load, part by part. -/
structure LoadEnds (b b' : Block) : Prop where
  st : { b'.st with step := b.st.step, loaded := b.st.loaded } = b.st
  loaded : b'.st.loaded = true
  step : b'.st.step = 6 ∨ b'.st.step = 7
  frm : b'.frm = b.frm
  vals : b'.dct.vals = b.dct.vals
  taken : b'.dct.taken = b.dct.vals
  skipped : b'.dct.skipped = b.dct.skipped
  quarters : b'.clk.quarters = BitVec.ofNat 8 b.dct.beatQuarters

theorem loadTail_ends (store : Option (List Byte)) (b : Block) : LoadEnds b (loadTail store b) := by
  obtain ⟨⟨hst, hclk, hdct, hfrm⟩, hstep⟩ := loadTail_frame store b
  have hst' : (loadedWith store b).st = { b.st with loaded := true, step := 6 } := rfl
  have hfrm' : (loadedWith store b).frm = b.frm := rfl
  have hask : (askSill (b.updStart fun x => { x with loaded := true, step := 6 })).dct = b.dct := Block.emit_dct ..
  have hread := readSill_dct (store.getD []) (askSill (b.updStart fun x => { x with loaded := true, step := 6 }))
  rw [hask] at hread
  have hvals : (loadedWith store b).dct.vals = b.dct.vals := by rw [loadedWith, hread.1]
  have htaken : (loadedWith store b).dct.taken = b.dct.vals := by rw [loadedWith, hread.1]
  have hskipped : (loadedWith store b).dct.skipped = b.dct.skipped := by rw [loadedWith, hread.2]
  have hquarters : (loadedWith store b).clk.quarters = BitVec.ofNat 8 b.dct.beatQuarters := by
    rw [loadedWith, beatQuarters_congr hread.1]
  generalize loadTail store b = b' at hst hclk hdct hfrm hstep ⊢
  generalize loadedWith store b = v at hst hclk hdct hfrm hst' hfrm' hvals htaken hskipped hquarters
  rw [hst'] at hst
  exact ⟨(congrArg (fun x : Start => { x with step := b.st.step, loaded := b.st.loaded }) hst :), (congrArg Start.loaded hst :), hstep,
    hfrm.trans hfrm', by rw [hdct, hvals], by rw [hdct, htaken], by rw [hdct, hskipped], by rw [hclk, hquarters]⟩

theorem dictLoad_open {store : Option (List Byte)} (hstep : b.st.step = 5) (hpor : b.st.inPor = false) (hloaded : b.st.loaded = false)
    (hhalt : b.st.halted = false) : dictLoad store b =
      let rest : Bool := b.st.warm && b.st.cause == 4 && b.pwr.restView.isSome
      loadTail store (if rest then loadRetained (askStore rest b) else loadStore store (askStore rest b)) :=
  if_neg (by simp [hstep, hpor, hloaded, hhalt])

/-- Whether the values come from the retention SRAM (R653). -/
theorem rest_eq_false (h : b.st.warm = false ∨ b.st.cause ≠ 4 ∨ b.pwr.restView = none) :
    (b.st.warm && b.st.cause == 4 && b.pwr.restView.isSome) = false := by
  obtain h | h | h := h
  · rw [h]
    rfl
  · rw [beq_eq_false_iff_ne.mpr h, Bool.and_false, Bool.false_and]
  · rw [h, Option.isSome_none, Bool.and_false]

/-- A load without a store: every parameter takes its default. -/
theorem loadStore_none (b : Block) : loadStore none b =
    ({ b with dct := { b.dct with vals := [], halfA := none, halfB := none } } : Block).updStart fun x =>
      { x with lastFail := St.dictDefaulted, dictDefaulted := true } := rfl

/-- What a load of the newer half leaves. -/
def halfLoaded (present : BitVec 16) (half : List Byte) (d : Dict) : Dict :=
  { (loadHalf present half d).dct with skipped := BitVec.ofNat 32 (loadHalf present half d).skipped }

theorem loadStore_some {store : List Byte} {second : Bool}
    (h : newerHalf (halfSeq (halfOfStore store false)) (halfSeq (halfOfStore store true)) = some second) (b : Block) :
    loadStore (some store) b = { b with dct := halfLoaded b.st.present (halfOfStore store second) { b.dct with
      vals := [], halfA := halfSeq (halfOfStore store false), halfB := halfSeq (halfOfStore store true) } } := by
  unfold loadStore
  simp only [Option.bind_some, Option.getD_some, h]
  rfl

/-- A load from the retention SRAM. -/
theorem loadRetained_view {v : BitVec 64 × BitVec 64 × Tbl Nat} (h : b.pwr.restView = some v) : loadRetained (askStore true b) =
    (({ b with dct := { b.dct with vals := b.pwr.retDict } } : Block).updStart fun x => { x with fromRetention := true }).updFrm fun f =>
      { f with admitted := v.1, excl := v.2.1, down := v.2.2 } := by
  have hask : askStore true b = b := rfl
  rw [hask, loadRetained]
  dsimp only [Block.updStart]
  rw [h]

/-! ### Completion (R393, R654) -/

/-- A port takes its allocation and its operand format. -/
def fixPort (b : Block) (p : Nat) : Block :=
  b.updWork fun w => w.updPort p fun x => { x with kilnMib := kilnShare b.dct b.st.present p, opdFmt := b.dct.opdFmt p }

/-- Only the ports change. -/
def PortsOnly (b b' : Block) : Prop := { b' with work := { b'.work with ports := b.work.ports } } = b

theorem fixPorts_all (l : List Nat) (b : Block) :
    PortsOnly b (l.foldl fixPort b) ∧ ∀ p, ((l.foldl fixPort b).work.port p).kilnMib =
      if p ∈ l then kilnShare b.dct b.st.present p else (b.work.port p).kilnMib := by
  induction l generalizing b with
  | nil => exact ⟨rfl, fun _ => rfl⟩
  | cons q l ih =>
    obtain ⟨hframe, hports⟩ := ih (fixPort b q)
    refine ⟨(congrArg (fun x : Block => { x with work := { x.work with ports := b.work.ports } }) hframe :), fun p => (hports p).trans ?_⟩
    by_cases hp : p ∈ l
    · rw [if_pos hp, if_pos (List.mem_cons_of_mem _ hp)]
      rfl
    · rw [if_neg hp]
      by_cases hq : p = q
      · subst hq
        have hself : ((fixPort b p).work.port p).kilnMib = kilnShare b.dct b.st.present p :=
          congrArg Port.kilnMib (port_updPort b.work p _)
        rw [hself, if_pos List.mem_cons_self]
      · have hother : (fixPort b q).work.port p = b.work.port p := port_updPort_other b.work q p _ hq
        rw [hother, if_neg (by simp [hq, hp])]

theorem joinState0_invalid {d : Dict} (h : frameOk d = false) : joinState0 d = .invalid := if_pos (by simp [h])

/-- A chip whose frame has no other member stands alone. -/
theorem joinState0_alone {d : Dict} (hok : frameOk d = true) (h : ∀ c, c < 64 → c ≠ d.chipNum → d.frameMembers.testBit c = false) :
    joinState0 d = .standalone := by
  have hall : ((members d).all fun c => c == d.chipNum) = true := by
    simp only [members, List.all_eq_true, List.mem_filter, List.mem_range, beq_iff_eq]
    rintro c ⟨hc, hbit⟩
    by_contra hne
    rw [h c hc hne] at hbit
    cases hbit
  rw [joinState0, if_neg (by simp [hok]), if_pos hall]

theorem joinState0_listens {d : Dict} {c : Nat} (hok : frameOk d = true) (hc : c < 64) (hne : c ≠ d.chipNum)
    (hbit : d.frameMembers.testBit c = true) : joinState0 d = .listening := by
  have hall : ¬((members d).all fun c => c == d.chipNum) = true := by
    simp only [members, List.all_eq_true, List.mem_filter, List.mem_range, beq_iff_eq]
    exact fun h => hne (h c ⟨hc, hbit⟩)
  rw [joinState0, if_neg (by simp [hok]), if_neg hall]

/-- The frame-join step as it begins. -/
theorem beginJoin_begins (b : Block) :
    (beginJoin b).frm.state = joinState0 b.dct ∧ (beginJoin b).frm.hash = frameHash b.dct ∧ (beginJoin b).st = b.st ∧
      (beginJoin b).work = b.work ∧ (beginJoin b).dct.vals = b.dct.vals ∧
      (joinState0 b.dct = .invalid → (beginJoin b).frm.lastCause = St.topologyMismatch) ∧
      (joinState0 b.dct ≠ .listening → (beginJoin b).dct.locked = true) ∧
      (joinState0 b.dct = .listening → (beginJoin b).dct.locked = b.dct.locked) := by
  unfold beginJoin
  dsimp only
  split
  next hlisten => exact ⟨rfl, rfl, rfl, rfl, rfl, fun h => if_pos h, fun h => absurd hlisten h, fun _ => rfl⟩
  next hno => exact ⟨rfl, rfl, rfl, rfl, rfl, fun h => if_pos h, fun _ => rfl, fun h => absurd h hno⟩

/-- The start registers as a start completes. -/
def doneStart (b : Block) : Start :=
  { b.st with done := true, everDone := true, step := 0xFF, warmFails := 0, elapsedUs := BitVec.ofNat 32 (elapsedUs b) }

/-- A start that completes begins the frame-join step with its ports fixed. -/
theorem startComplete_open (h : mayComplete b = true) : ∃ u, startComplete b = beginJoin u ∧ u.st = doneStart b ∧ u.dct = b.dct ∧
    ∀ p, p < 16 → b.st.present.getLsbD p = true → (u.work.port p).kilnMib = kilnShare b.dct b.st.present p := by
  have hop : startComplete b = beginJoin (fixPorts ((b.updStart fun _ => doneStart b).updWork fun w => w.raise (vecAdmin 6))) :=
    if_neg (by simp [h])
  have hfix := fixPorts_all ((List.range 16).filter fun p => b.st.present.getLsbD p)
    ((b.updStart fun _ => doneStart b).updWork fun w => w.raise (vecAdmin 6))
  refine ⟨_, hop, (congrArg Block.st hfix.1 :), (congrArg Block.dct hfix.1 :), fun p hp hpresent => (hfix.2 p).trans ?_⟩
  rw [if_pos (List.mem_filter.mpr ⟨List.mem_range.mpr hp, hpresent⟩)]
  rfl

end

/-- Settles O51: the steps of a start. -/
theorem startSteps : Obligations.StartSteps := by
  unfold Obligations.StartSteps
  refine fun s hopen => ⟨fun hcold => ?cold, fun hwarm hpor hdone hhalt hstep hclk => ?warm, fun word hstep hpor => ⟨fun hcrc => ?fuse,
    fun hcrc => ⟨fun htries => ?retry, fun htries => ?fault⟩⟩, fun h hpor hhalt => ⟨fun ctl kiln ret cores ports hstep =>
      ⟨fun hctl hkiln hcore => ?test, fun hbad => ?halt⟩, fun hstep hloaded => ⟨fun hrest => ⟨?defaults, fun store second hhalf => ?store⟩,
        fun store v hwarm hcause hview => ?retained⟩⟩, fun h => ⟨fun hmay => ?incomplete, fun hmay => ?complete⟩⟩
  case cold => exact sets_of (f := fun b => if b.st.warm then startAdvance b else b) rfl hopen (if_neg (by simp [hcold]))
  case warm =>
    refine sets_of (f := fun b => if b.st.warm then startAdvance b else b) rfl hopen ?_
    have hop : startAdvance s.core = startDomains (s.core.updStart fun x => { x with step := 2 }) := by
      simp only [startAdvance, hpor, hdone, hhalt, hstep, hclk, Bool.or_self, Bool.false_eq_true, if_false, if_true]
    rw [if_pos hwarm, hop]
    refine ⟨?_, startDomains_all (s.core.updStart fun x => { x with step := 2 })⟩
    exact (congrArg Block.st (startDomains_on (s.core.updStart fun x => { x with step := 2 })).frame :)
  case fuse =>
    refine sets_of (f := fuseAck word) rfl hopen ?_
    rw [fuseAck_open hstep hpor]
    exact if_pos hcrc
  case retry =>
    refine sets_of (f := fuseAck word) rfl hopen ?_
    rw [fuseAck_open hstep hpor]
    dsimp only
    rw [if_neg hcrc, if_pos htries]
    exact ⟨rfl, rfl, rfl⟩
  case fault =>
    refine sets_of (f := fuseAck word) rfl hopen ?_
    rw [fuseAck_open hstep hpor]
    dsimp only
    rw [if_neg hcrc, if_neg (by omega)]
    exact ⟨rfl, rfl, rfl, rfl⟩
  case test =>
    refine acts_of (f := selfTest ctl kiln ret cores ports) rfl h ?_
    rw [selfTest_open hstep hpor hhalt]
    have hok : (ctl || kiln || cores.getLsbD 0) = false := by rw [hctl, hkiln, hcore]; rfl
    have hbar : (tested ctl kiln ret cores ports s.core).st.bar0 = true := by rw [tested, hctl]; rfl
    dsimp only
    rw [hok, if_neg Bool.false_ne_true, if_pos hbar]
    obtain ⟨hst, hpwr, hports⟩ := flrDone_keeps (tested ctl kiln ret cores ports s.core)
    generalize flrDone (tested ctl kiln ret cores ports s.core) = v at hst hpwr hports ⊢
    obtain ⟨hst', hpwr', hstates⟩ := retire_all ((List.range 16).filter fun p => ports.getLsbD p && (v.work.port p).present) v
    generalize ((List.range 16).filter fun p => ports.getLsbD p && (v.work.port p).present).foldl retire v = u at hst' hpwr' hstates ⊢
    have hst'' := hst'.trans hst
    have hport (p : Nat) : v.work.port p = s.core.work.port p := congrArg (fun t => tblGet ({} : Port) t p) hports
    refine ⟨rfl, (congrArg Start.bar0 hst'').trans hbar, (congrArg Start.bistCores hst'' :), (congrArg Start.bistPorts hst'' :),
      (congrArg Start.bistRetention hst'' :), (congrArg Power.retention (hpwr'.trans hpwr) :), fun p hp hpresent => (hstates p).trans ?_⟩
    simp [hport, hp, hpresent]
  case halt =>
    refine acts_of (f := selfTest ctl kiln ret cores ports) rfl h ?_
    rw [selfTest_open hstep hpor hhalt]
    have hfail : (ctl || kiln || cores.getLsbD 0) = true := by
      obtain h | h | h := hbad <;> simp [h]
    dsimp only
    rw [hfail, if_pos rfl]
    have hst : (if (tested ctl kiln ret cores ports s.core).st.bar0 then flrDone (tested ctl kiln ret cores ports s.core)
        else tested ctl kiln ret cores ports s.core).st = (tested ctl kiln ret cores ports s.core).st := by
      split
      · exact (flrDone_keeps _).1
      · rfl
    generalize (if (tested ctl kiln ret cores ports s.core).st.bar0 then flrDone (tested ctl kiln ret cores ports s.core)
        else tested ctl kiln ret cores ports s.core) = v at hst ⊢
    exact ⟨rfl, rfl, (congrArg Start.bar0 hst :), (congrArg Start.step hst :).trans hstep⟩
  case defaults =>
    refine acts_of (f := dictLoad none) rfl h ?_
    rw [dictLoad_open hstep hpor hloaded hhalt, rest_eq_false hrest]
    have hends := loadTail_ends none (loadStore none (askStore false s.core))
    dsimp only
    rw [if_neg Bool.false_ne_true]
    rw [loadStore_none] at hends ⊢
    generalize loadTail none _ = b at hends ⊢
    exact ⟨hends.loaded, hends.step, hends.vals, hends.taken, hends.quarters, (congrArg Start.lastFail hends.st :),
      (congrArg Start.dictDefaulted hends.st :)⟩
  case store =>
    refine acts_of (f := dictLoad (some store)) rfl h ?_
    rw [dictLoad_open hstep hpor hloaded hhalt, rest_eq_false hrest]
    have hends := loadTail_ends (some store) (loadStore (some store) (askStore false s.core))
    dsimp only
    rw [if_neg Bool.false_ne_true]
    rw [loadStore_some hhalf] at hends ⊢
    generalize loadTail (some store) _ = b at hends ⊢
    have hst : (askStore false s.core).st = s.core.st := by simp [askStore]
    have hdct : (askStore false s.core).dct = s.core.dct := by simp [askStore]
    have hvals : b.dct.vals = (halfLoaded (askStore false s.core).st.present (halfOfStore store second) { (askStore false s.core).dct with
      vals := [], halfA := halfSeq (halfOfStore store false), halfB := halfSeq (halfOfStore store true) }).vals := hends.vals
    have htaken : b.dct.taken = b.dct.vals := hends.taken.trans hends.vals.symm
    have hskipped := hends.skipped
    have hquarters : b.clk.quarters = BitVec.ofNat 8 b.dct.beatQuarters :=
      hends.quarters.trans (congrArg (BitVec.ofNat 8) (beatQuarters_congr hends.vals).symm)
    have hlast := congrArg Start.lastFail hends.st
    have hloaded' := hends.loaded
    clear hends
    rw [hst, hdct] at hvals hskipped
    rw [halfLoaded] at hvals hskipped
    generalize loadHalf s.core.st.present (halfOfStore store second) _ = l at hvals hskipped ⊢
    exact ⟨hloaded', hvals, htaken.trans hvals, hskipped, hquarters, hlast.trans (congrArg Start.lastFail hst)⟩
  case retained =>
    refine acts_of (f := dictLoad store) rfl h ?_
    have hrest : (s.core.st.warm && s.core.st.cause == 4 && s.core.pwr.restView.isSome) = true := by
      rw [hwarm, beq_iff_eq.mpr hcause, hview]
      rfl
    rw [dictLoad_open hstep hpor hloaded hhalt, hrest]
    have hends := loadTail_ends store (loadRetained (askStore true s.core))
    dsimp only
    rw [if_pos rfl]
    rw [loadRetained_view hview] at hends ⊢
    generalize loadTail store _ = b at hends ⊢
    exact ⟨hends.loaded, (congrArg Start.fromRetention hends.st :), hends.vals, (congrArg Frame.admitted hends.frm :),
      (congrArg Frame.excl hends.frm :), (congrArg Frame.down hends.frm :)⟩
  case incomplete => exact acts_of (f := startComplete) rfl h (if_pos (by simp [hmay]))
  case complete =>
    refine acts_of (f := startComplete) rfl h ?_
    obtain ⟨u, hop, hst, hdct, hports⟩ := startComplete_open hmay
    rw [hop]
    obtain ⟨hstate, hhash, hst', hwork, hvals, hinvalid, hlocked, hlisten⟩ := beginJoin_begins u
    generalize beginJoin u = b at hstate hhash hst' hwork hvals hinvalid hlocked hlisten ⊢
    rw [hdct] at hstate hhash hvals hinvalid hlocked hlisten
    rw [hst] at hst'
    refine ⟨congrArg Start.done hst', congrArg Start.everDone hst', congrArg Start.step hst', congrArg Start.warmFails hst', hvals, hhash,
      fun hbad => ?_, fun hok => ⟨fun halone => ?_, fun c hc hne hbit => ?_⟩, fun p hp hpresent => ?_⟩
    · have hj := joinState0_invalid hbad
      exact ⟨hstate.trans hj, hlocked (by rw [hj]; decide), hinvalid hj⟩
    · have hj := joinState0_alone hok halone
      exact ⟨hstate.trans hj, hlocked (by rw [hj]; decide)⟩
    · have hj := joinState0_listens hok hc hne hbit
      exact ⟨hstate.trans hj, hlisten hj⟩
    · rw [hwork]
      exact hports p hp hpresent

end Sys2Proof.Machine

end

-- Proofs about beat edges and BEAT messages (R30, R33, R503 to R505).
section

namespace Sys2Proof.Machine

/-! ### The beat edge (R30, R33, R503 to R505) -/

section

variable {e : Block} {w v : Work} {b : Block}

/-- A port's part of the snapshot in force. -/
def Port.granted (x : Port) : Option Nat × List Nat := (x.primary, x.grants)

/-- A port's part of the next snapshot. -/
def Port.nextGranted (x : Port) : Option Nat × List Nat := (x.nextPrimary, x.nextGrants)

/-- The snapshot of a port takes effect. -/
def Port.take (x : Port) : Port := { x with primary := x.nextPrimary, grants := x.nextGrants }

/-- What a change of one port keeps of every port. -/
theorem port_updPort_keeps {α : Type} (g : Port → α) {f : Port → Port} (hg : ∀ x, g (f x) = g x) (w : Work) (q p : Nat) :
    g ((w.updPort q f).port p) = g (w.port p) := by
  by_cases h : p = q
  · rw [h, port_updPort, hg]
  · rw [port_updPort_other _ _ _ _ h]

/-- What changes of ports, one after another, keep of every port. -/
theorem port_foldl_keeps {α β : Type} (g : Port → α) {f : Port → Port} (hg : ∀ x, g (f x) = g x) (q : β → Nat) (l : List β) (w :
    Work) (p : Nat) :
    g ((l.foldl (fun w x => w.updPort (q x) f) w).port p) = g (w.port p) :=
  foldl_keeps (fun w : Work => g (w.port p)) (fun _ _ => port_updPort_keeps g hg _ _ _) l w

theorem staleKills_next (w : Work) (p : Nat) : ((staleBits (staleKills w)).port p).nextGranted = (w.port p).nextGranted :=
  port_foldl_keeps Port.nextGranted (by intros; rfl) _ _ w p

theorem staleKills_cmds (w : Work) : (staleBits (staleKills w)).cmds = w.cmds := by
  refine foldl_keeps Work.cmds (fun _ _ => ?_) _ _
  rfl

theorem staleKills_jnr (w : Work) : (staleBits (staleKills w)).jnr = w.jnr := by
  refine foldl_keeps Work.jnr (fun _ _ => ?_) _ _
  rfl

/-- Every port that the table names takes its part. -/
theorem foldl_take (ks : List Nat) (w : Work) (p : Nat) : (ks.foldl (fun w p => w.updPort p Port.take) w).port p =
    if p ∈ ks then (w.port p).take else w.port p := by
  induction ks generalizing w with
  | nil => rfl
  | cons k ks ih =>
    rw [List.foldl_cons, ih]
    by_cases h : p = k
    · subst h
      have htwice (x : Port) : x.take.take = x.take := rfl
      simp [htwice]
    · simp [h, port_updPort_other]

theorem tblGet_of_not_mem {α : Type} {d : α} {t : Tbl α} {k : Nat} (h : k ∉ t.map Prod.fst) : tblGet d t k = d := by
  induction t with
  | nil => rfl
  | cons p t ih =>
    rw [List.map_cons, List.mem_cons, not_or] at h
    rw [tblGet, if_neg (Ne.symm h.1), ih h.2]

/-- Every port takes the grants of the snapshot before (R33 step 2): one that the table does not name has none. -/
theorem takeGrants_granted (w : Work) (p : Nat) : ((takeGrants w).port p).granted = (w.port p).nextGranted := by
  rw [show takeGrants w = (w.ports.map Prod.fst).foldl (fun w p => w.updPort p Port.take) w from rfl, foldl_take]
  split
  · rfl
  next hnone =>
    have hdefault : w.port p = {} := tblGet_of_not_mem hnone
    rw [hdefault]
    rfl

theorem takeGrants_cmds (w : Work) : (takeGrants w).cmds = w.cmds := foldl_keeps Work.cmds (by intros; rfl) _ _

theorem takeGrants_jnr (w : Work) : (takeGrants w).jnr = w.jnr := foldl_keeps Work.jnr (by intros; rfl) _ _

/-- What leaves the ports, the commands and the cluster's programs as they are. -/
def EdgeKeeps (w w' : Work) : Prop := w'.ports = w.ports ∧ w'.cmds = w.cmds

theorem EdgeKeeps.trans {u : Work} (h : EdgeKeeps w v) (h' : EdgeKeeps v u) : EdgeKeeps w u := ⟨h'.1.trans h.1, h'.2.trans h.2⟩

theorem EdgeKeeps.foldl {α : Type} {f : Work → α → Work} (h : ∀ v x, EdgeKeeps v (f v x)) (l : List α) (w : Work) :
    EdgeKeeps w (l.foldl f w) :=
  ⟨foldl_keeps Work.ports (fun v x => (h v x).1) l w, foldl_keeps Work.cmds (fun v x => (h v x).2) l w⟩

theorem refillLevels_keeps (d : Dict) (w : Work) : EdgeKeeps w (refillLevels d w) ∧ (refillLevels d w).jnr = w.jnr := by
  refine ⟨EdgeKeeps.foldl (fun v x => ?_) _ _, foldl_keeps Work.jnr (fun v x => ?_) _ _⟩
  · split <;> exact ⟨rfl, rfl⟩
  · split <;> rfl

theorem ageBeats_keeps (w : Work) : EdgeKeeps w (ageBeats w) :=
  ⟨(foldl_keeps Work.ports (by intros; rfl) _ _).trans (foldl_keeps Work.ports (by intros; rfl) _ _),
    (foldl_keeps Work.cmds (by intros; rfl) _ _).trans (foldl_keeps Work.cmds (by intros; rfl) _ _)⟩

theorem sendBeatEvent_keeps (w : Work) : EdgeKeeps w (sendBeatEvent w) := by
  unfold sendBeatEvent
  dsimp only
  split
  · exact ⟨rfl, rfl⟩
  · refine EdgeKeeps.trans (v := w.emit (.beatEvent (coresUp w))) ⟨rfl, rfl⟩ (EdgeKeeps.foldl (fun v x => ?_) _ _)
    split <;> exact ⟨rfl, rfl⟩

theorem startProgram_keeps (e : Block) (c : Cmd) (s k : Nat) (w : Work) : EdgeKeeps w (startProgram e c s k w) := by
  unfold startProgram readImage writeInfo
  dsimp only
  split <;> constructor <;> simp [Work.draw]

theorem dispatchTidies_keeps (e : Block) (w : Work) : EdgeKeeps w (dispatchTidies e w) := by
  unfold dispatchTidies
  split
  · exact ⟨rfl, rfl⟩
  · refine EdgeKeeps.foldl (fun v x => ?_) _ _
    split
    · exact startProgram_keeps _ _ _ _ _
    · exact ⟨rfl, rfl⟩

theorem beginSlotLoad_keeps (e : Block) (k : Nat) (w : Work) : EdgeKeeps w (beginSlotLoad e k w) := by
  unfold beginSlotLoad
  (repeat' split) <;> constructor <;> simp

theorem beginSlots_keeps (e : Block) (w : Work) : EdgeKeeps w (beginSlots e w) := by
  unfold beginSlots
  dsimp only
  exact EdgeKeeps.trans ⟨rfl, rfl⟩ (EdgeKeeps.foldl (fun v x => beginSlotLoad_keeps e _ v) _ _)

theorem edgeLends_keeps (d : Dict) (w : Work) : EdgeKeeps w (edgeLends d w) := ⟨rfl, rfl⟩

theorem writeCtxValues_keeps (e : Block) (s c : Nat) (w : Work) : EdgeKeeps w (writeCtxValues e s c w) := by
  unfold writeCtxValues
  constructor <;> simp

theorem retryQueue_keeps (e : Block) (k : Nat) (w : Work) : EdgeKeeps w (retryQueue e k w) := by
  unfold retryQueue retryRecords startRecord
  dsimp only
  (repeat' split) <;> constructor <;> simp

theorem edge256_keeps (e : Block) (w : Work) : EdgeKeeps w (edge256 e w) :=
  (EdgeKeeps.foldl (fun v _ => writeCtxValues_keeps e _ _ v) _ _).trans (EdgeKeeps.foldl (fun v _ => retryQueue_keeps e _ v) _ _)

theorem edge65536_granted (w : Work) (p : Nat) : ((edge65536 w).port p).granted = (w.port p).granted := by
  unfold edge65536
  dsimp only
  rw [← port_foldl_keeps Port.granted (f := fun x => { x with hard := 0 }) (fun _ => rfl) id (w.ports.map Prod.fst) w p]
  exact foldl_keeps (fun v : Work => (v.port p).granted) (by intros; rfl) _ _

theorem edge65536_cmds (w : Work) : (edge65536 w).cmds = w.cmds := by
  unfold edge65536
  dsimp only
  rw [foldl_keeps Work.cmds (by intros; rfl), foldl_keeps Work.cmds (by intros; rfl)]

/-- What an edge does, once timers have fallen. -/
def edgeRest (e : Block) (w : Work) : Work :=
  let w := edgeLends e.dct (beginSlots e (dispatchTidies e (sendBeatEvent (ageBeats w))))
  if e.clk.beat.toNat % 256 = 0 then edge256 e w else w

theorem edgeRest_keeps (e : Block) (w : Work) : EdgeKeeps w (edgeRest e w) := by
  have hprograms : EdgeKeeps w (edgeLends e.dct (beginSlots e (dispatchTidies e (sendBeatEvent (ageBeats w))))) :=
    (ageBeats_keeps w).trans ((sendBeatEvent_keeps _).trans ((dispatchTidies_keeps e _).trans
      ((beginSlots_keeps e _).trans (edgeLends_keeps e.dct _))))
  unfold edgeRest
  generalize edgeLends e.dct (beginSlots e (dispatchTidies e (sendBeatEvent (ageBeats w)))) = v at hprograms ⊢
  dsimp only
  split
  · exact hprograms.trans (edge256_keeps e _)
  · exact hprograms

/-- What an edge does to the commands' timers and to the ports, before the counts of a window restart. -/
theorem edgeWork_eq (e : Block) (w : Work) : ∃ v, EdgeKeeps (fallTimers (refillLevels e.dct (takeGrants w))) v ∧
    edgeWork e w = if e.clk.beat.toNat % 65536 = 0 then edge65536 v else v := by
  rw [edgeWork]
  generalize fallTimers (refillLevels e.dct (takeGrants w)) = u
  exact ⟨edgeRest e u, edgeRest_keeps e u, by rw [edgeRest]⟩

theorem edgeWork_granted (e : Block) (w : Work) (p : Nat) : ((edgeWork e w).port p).granted = (w.port p).nextGranted := by
  obtain ⟨v, ⟨hports, -⟩, hv⟩ := edgeWork_eq e w
  have hport : (v.port p).granted = (w.port p).nextGranted := by
    rw [← takeGrants_granted, Work.port, hports]
    exact congrArg (fun t => (tblGet {} t p).granted) (refillLevels_keeps e.dct (takeGrants w)).1.1
  rw [hv]
  split
  · rw [edge65536_granted, hport]
  · exact hport

/-- A command one beat later (R33 step 3). -/
def Cmd.aged (w : Work) (c : Cmd) : Cmd := if timerRuns w c then { c with timer := c.timer.map (· - 1) } else c

theorem aged_id (w : Work) (c : Cmd) : (c.aged w).id = c.id := by unfold Cmd.aged; split <;> rfl

theorem edgeWork_cmds (e : Block) (w : Work) : (edgeWork e w).cmds = w.cmds.map (Cmd.aged w) := by
  obtain ⟨v, ⟨-, hcmds⟩, hv⟩ := edgeWork_eq e w
  obtain ⟨⟨-, hrefill⟩, hjnr⟩ := refillLevels_keeps e.dct (takeGrants w)
  have haged : Cmd.aged (refillLevels e.dct (takeGrants w)) = Cmd.aged w := by
    funext c
    have hruns : timerRuns (refillLevels e.dct (takeGrants w)) c = timerRuns w c := by simp only [timerRuns, hjnr, takeGrants_jnr]
    rw [Cmd.aged, Cmd.aged, hruns]
  have hfall : v.cmds = w.cmds.map (Cmd.aged w) := by
    rw [hcmds, ← haged, ← takeGrants_cmds w, ← hrefill]
    rfl
  rw [hv]
  split
  · rw [edge65536_cmds, hfall]
  · exact hfall

theorem cmd_of_map {f : Cmd → Cmd} (hf : ∀ c, (f c).id = c.id) (h : v.cmds = w.cmds.map f) (id : Nat) : v.cmd id = (w.cmd id).map f := by
  rw [Work.cmd, h, List.find?_map, Work.cmd]
  congr 2
  funext c
  simp [hf]

/-! #### The frame's part of an edge -/

/-- What leaves the clock, the links, the commands and the ports as they are. -/
def EdgeSends (b b' : Block) : Prop := b'.clk = b.clk ∧ b'.lnk = b.lnk ∧ EdgeKeeps b.work b'.work

theorem EdgeSends.trans {b' b'' : Block} (h : EdgeSends b b') (h' : EdgeSends b' b'') : EdgeSends b b'' :=
  ⟨h'.1.trans h.1, h'.2.1.trans h.2.1, h.2.2.trans h'.2.2⟩

theorem EdgeSends.foldl {α : Type} {f : Block → α → Block} (h : ∀ b x, EdgeSends b (f b x)) (l : List α) (b : Block) :
    EdgeSends b (l.foldl f b) :=
  List.foldlRecOn (motive := fun v => EdgeSends b v) l f ⟨rfl, rfl, rfl, rfl⟩ fun v hv x _ => hv.trans (h v x)

theorem sendReq_sends (chip : Nat) (why : FwdWhy) (body : List Byte) (b : Block) : EdgeSends b (sendReq chip why body b) := by
  refine ⟨rfl, rfl, EdgeKeeps.trans (v := b.work) ⟨rfl, rfl⟩ (EdgeKeeps.foldl (fun v x => ?_) _ _)⟩
  exact ⟨sendMsg_ports _ _ _, sendMsg_cmds _ _ _⟩

theorem readPending_sends (c : Nat) (b : Block) : EdgeSends b (readPending c b) := by
  have hupd (f : Pending → Pending) : EdgeSends b (updPending c f b) := ⟨rfl, rfl, rfl, rfl⟩
  unfold readPending
  dsimp only
  split
  · split <;> split
    · exact (hupd _).trans ((sendReq_sends _ _ _ _).trans (sendReq_sends _ _ _ _))
    · exact ⟨rfl, rfl, rfl, rfl⟩
    · exact (hupd _).trans ((sendReq_sends _ _ _ _).trans (sendReq_sends _ _ _ _))
    · exact ⟨rfl, rfl, rfl, rfl⟩
  · exact ⟨rfl, rfl, rfl, rfl⟩

theorem sendBeats_sends (edge t depth : Nat) (pathOk : Bool) (b : Block) : EdgeSends b (sendBeats edge t depth pathOk b) :=
  EdgeSends.foldl (by intros; exact ⟨rfl, rfl, rfl, rfl⟩) _ _

theorem managerEdge_sends (b : Block) : EdgeSends b (managerEdge b) := by
  unfold managerEdge
  refine (EdgeSends.foldl (fun v x => readPending_sends x v) _ _).trans ((sendBeats_sends _ _ _ _ _).trans ⟨rfl, rfl, rfl, rfl⟩)

theorem frameEdge_sends (b : Block) : EdgeSends b (frameEdge b) := by
  have hlisten : EdgeSends b (if b.frm.state == .listening then b.updFrm fun f => { f with listened := f.listened + 1 } else b) := by
    split <;> exact ⟨rfl, rfl, rfl, rfl⟩
  have hage (b : Block) : EdgeSends b (if b.frm.viewed then b.updFrm agePending else b) := by split <;> exact ⟨rfl, rfl, rfl, rfl⟩
  have htake (b : Block) : EdgeSends b (if takesOver b then b.updWork (fun w => w.later .takeOver) else b) := by
    split <;> exact ⟨rfl, rfl, rfl, rfl⟩
  have hmgr (b : Block) : EdgeSends b (if isMgr b then managerEdge b else b) := by
    split
    · exact managerEdge_sends b
    · exact ⟨rfl, rfl, rfl, rfl⟩
  exact hlisten.trans ((hage _).trans ((htake _).trans (hmgr _)))

/-! #### The clock's part of an edge -/

/-- What the Tenon ports' part of an edge leaves. -/
theorem edgeLinks_frame (b : Block) : { edgeLinks b with lnk := { (edgeLinks b).lnk with ports := b.lnk.ports } } = b := by
  unfold edgeLinks
  exact (foldl_keeps (fun v : Block => ({ v with lnk := { v.lnk with ports := b.lnk.ports } } : Block)) (by intros; rfl) _ _).trans rfl

theorem edgeClock_standalone (h : isWorker b = false) : edgeClock b =
    ((b.updClk fun c => { c with phase := 0, beat := c.beat + 1, aligned := false }).updLnk fun l => { l with
      placed := none, missed := 0, lastErr := 0, lastEdge := b.now }) := by
  have hworker : isWorker (b.updClk fun c => { c with phase := 0 }) = false := h
  unfold edgeClock
  dsimp only
  simp only [hworker]
  rfl

theorem edgeClock_placed {n t : Nat} {ok : Bool} (h : isWorker b = true) (hfind : b.lnk.edges.find? (fun x => x.1 == b.clk.beat.toNat + 1) =
    some (n, t, ok)) :
    let b' := edgeClock b
    b'.clk = { b.clk with phase := 0, beat := BitVec.ofNat 64 n, aligned := ok } ∧ b'.lnk.missed = 0 ∧ b'.lnk.lastEdge = atCycle b t := by
  have hworker : isWorker (b.updClk fun c => { c with phase := 0 }) = true := h
  have hplaced : placedEdge (b.updClk fun c => { c with phase := 0 }) = some (n, t, ok) := by
    rw [placedEdge, show (b.updClk fun c => { c with phase := 0 }).lnk.edges.find? (fun x => x.1 == (b.updClk fun c => { c with phase := 0 }).clk.beat.toNat + 1) =
      some (n, t, ok) from hfind]
    rfl
  unfold edgeClock
  dsimp only
  simp only [hworker, hplaced, if_true]
  exact ⟨rfl, rfl, rfl⟩

theorem edgeClock_work (b : Block) : (edgeClock b).work = b.work := by
  unfold edgeClock
  dsimp only
  split <;> rfl

/-- What an edge leaves of the clock, the links and the shared state, by what the clock shows after it. -/
theorem frameEdge_after (a : Block) :
    let x := edgeClock a
    let b := frameEdge { edgeLinks x with work := edgeWork (edgeLinks x) (edgeLinks x).work }
    b.clk = x.clk ∧ b.lnk.lastErr = x.lnk.lastErr ∧ b.lnk.missed = x.lnk.missed ∧ b.lnk.lastEdge = x.lnk.lastEdge ∧
    (∀ p, (b.work.port p).granted = (a.work.port p).nextGranted) ∧ b.work.cmds = a.work.cmds.map (Cmd.aged a.work) := by
  have hwork := edgeClock_work a
  dsimp only
  generalize edgeClock a = x at hwork ⊢
  have hlinks := edgeLinks_frame x
  generalize edgeLinks x = y at hlinks ⊢
  have hy : y.work = a.work := (congrArg Block.work hlinks :).trans hwork
  obtain ⟨hclk, hlnk, hports, hcmds⟩ := frameEdge_sends { y with work := edgeWork y y.work }
  generalize frameEdge { y with work := edgeWork y y.work } = b at hclk hlnk hports hcmds ⊢
  refine ⟨hclk.trans (congrArg Block.clk hlinks :), ?_, ?_, ?_, fun p => ?_, ?_⟩
  · rw [hlnk]
    exact (congrArg (fun v : Block => v.lnk.lastErr) hlinks :)
  · rw [hlnk]
    exact (congrArg (fun v : Block => v.lnk.missed) hlinks :)
  · rw [hlnk]
    exact (congrArg (fun v : Block => v.lnk.lastEdge) hlinks :)
  · rw [Work.port, hports, ← hy]
    exact edgeWork_granted y y.work p
  · rw [hcmds, ← hy]
    exact edgeWork_cmds y y.work

/-! #### BEAT messages -/

theorem sendBeats_keeps (edge t depth : Nat) (pathOk : Bool) (b : Block) :
    (sendBeats edge t depth pathOk b).frm = b.frm ∧ (sendBeats edge t depth pathOk b).clk = b.clk ∧ (sendBeats edge t depth pathOk b).lnk = b.lnk :=
  ⟨foldl_keeps Block.frm (by intros; rfl) _ _, foldl_keeps Block.clk (by intros; rfl) _ _, foldl_keeps Block.lnk (by intros; rfl) _ _⟩

/-- A worker that places an edge keeps its clock and its place in the frame (R503 to R505). -/
theorem placeEdge_keeps (p arrival : Nat) (m : BeatMsg) (b : Block) :
    (placeEdge p arrival m b).frm = b.frm ∧ (placeEdge p arrival m b).clk = b.clk ∧
    (placeEdge p arrival m b).lnk.depth = BitVec.ofNat 4 m.depth := by
  unfold placeEdge
  dsimp only
  generalize hx : Block.updLnk b _ = x
  obtain ⟨hfrm, hclk, hlnk⟩ := sendBeats_keeps m.edge (arrival + m.lead - (b.lport p).hop.toNat) (m.depth + 1) (m.pathOk && x.aligned) x
  rw [hfrm, hclk, hlnk, ← hx]
  exact ⟨rfl, rfl, rfl⟩

/-- A LISTENING chip takes the manager that a BEAT names (R524). -/
theorem takeManager_takes (m : BeatMsg) (b : Block) :
    (takeManager m b).frm = { b.frm with
      mgr := m.mgr, epoch := m.epoch, mgrLost := false, lossByNotice := false,
      reqIn := if m.mgr = b.frm.mgr ∧ m.epoch = b.frm.epoch then b.frm.reqIn else [] } ∧
    (takeManager m b).clk = { b.clk with src := 1 } := by
  unfold takeManager
  dsimp only
  split <;> exact ⟨rfl, rfl⟩

/-- A BEAT that a LISTENING chip receives gives it its manager, its epoch and its beat length (R524). -/
theorem beatMsg_listening (p arrival : Nat) (m : Msg) (hlisten : b.frm.state = .listening) (hup : portUp b p = true)
    (hlow : 4 ≤ fieldAt m.payload 12 1) (hhigh : fieldAt m.payload 12 1 ≤ 128) :
    let b' := beatMsg p arrival m b
    let mgr : BitVec 6 := BitVec.ofNat 6 (fieldAt m.payload 13 1)
    let epoch : BitVec 16 := BitVec.ofNat 16 (fieldAt m.payload 16 2)
    b'.frm = { b.frm with
      state := .following, mgr := mgr, epoch := epoch, mgrLost := false, lossByNotice := false,
      reqIn := if mgr = b.frm.mgr ∧ epoch = b.frm.epoch then b.frm.reqIn else [] } ∧
    b'.clk = { b.clk with quarters := BitVec.ofNat 8 (fieldAt m.payload 12 1), src := 1 } ∧
    b'.lnk.depth = BitVec.ofNat 4 (fieldAt m.payload 14 1) := by
  have hquarters : (beatOf m).quarters.toNat = fieldAt m.payload 12 1 := (BitVec.toNat_ofNat _ _).trans (Nat.mod_eq_of_lt (by omega))
  obtain ⟨hmgr, hsrc⟩ := takeManager_takes (beatOf m) (b.updClk fun c => { c with quarters := (beatOf m).quarters })
  dsimp only
  rw [beatMsg]
  dsimp only
  rw [if_pos (by rw [hlisten]; rfl), if_pos ⟨by rw [hquarters]; exact hlow, by rw [hquarters]; exact hhigh, hup⟩]
  generalize takeManager (beatOf m) (b.updClk fun c => { c with quarters := (beatOf m).quarters }) = u at hmgr hsrc ⊢
  obtain ⟨hfrm, hclk, hdepth⟩ := placeEdge_keeps p arrival (beatOf m) (u.updFrm fun f => { f with state := .following })
  rw [hfrm, hclk, hdepth]
  exact ⟨congrArg (fun f : Frame => { f with state := .following }) hmgr, hsrc, rfl⟩

/-- Settles O28: what the clock decides at an edge, the links, the shared state and the frame keep. -/
theorem beatEdges : Obligations.BeatEdges := by
  unfold Obligations.BeatEdges
  refine ⟨fun s h => ?_, fun s p arrival m w h htake hlisten hup hlow hhigh => ?_⟩
  · refine acts_of (f := beatEdge) rfl h ?_
    unfold beatEdge
    generalize (cycleOver s.core).after = a
    obtain ⟨hclk, herr, hmissed, hlast, hports, hcmds⟩ := frameEdge_after (a.updWork fun w => staleBits (staleKills w))
    dsimp only at hclk herr hmissed hlast hports hcmds ⊢
    generalize frameEdge _ = b at hclk herr hmissed hlast hports hcmds ⊢
    have hphase : b.clk.phase = 0 := by
      rw [hclk]
      unfold edgeClock
      dsimp only
      split <;> rfl
    refine ⟨hphase, fun p => ?_, fun hworker => ?_, fun t ok hworker hfind => ?_, fun halone _ d hd => ?_⟩
    · have hgranted := (hports p).trans (staleKills_next a.work p)
      exact ⟨(congrArg Prod.fst hgranted :), (congrArg Prod.snd hgranted :)⟩
    · have hedge := edgeClock_standalone (b := a.updWork fun w => staleBits (staleKills w)) hworker
      rw [hclk, herr, hedge]
      exact ⟨rfl, rfl, rfl⟩
    · obtain ⟨hplaced, hmissed', hlast'⟩ := edgeClock_placed (b := a.updWork fun w => staleBits (staleKills w)) hworker hfind
      rw [hclk, hmissed, hlast, hplaced, hmissed', hlast']
      exact ⟨rfl, rfl, rfl, rfl⟩
    · rw [cmd_of_map (aged_id _) hcmds]
      have haged : Cmd.aged (staleBits (staleKills a.work)) d = Cmd.aged a.work d := by
        rw [Cmd.aged, Cmd.aged, timerRuns, timerRuns, staleKills_jnr]
      rw [show (a.updWork fun w => staleBits (staleKills w)).work.cmd d.id = some d from (cmd_congr (staleKills_cmds a.work) d.id).trans hd]
      exact congrArg some haged
  · refine acts_of (f := onMsgAll 0x01 beatMsg) rfl h ?_
    rw [onMsgAll, htake]
    exact beatMsg_listening (b := { s.core with work := w }) p arrival m hlisten hup hlow hhigh

end

end Sys2Proof.Machine

end

-- Proofs about charges, created objects and OBJ_FREE (R225 to R237).
section

namespace Sys2Proof.Machine

/-! ### Objects (R225 to R237) -/

section

variable {e : Block} {w v : Work} {c : Cmd} {n i : Nat}

/-! #### Charges -/

theorem slice_updCtx_other (w : Work) (n d : Nat) (f : Ctx → Ctx) {k : Nat} (h : k ≠ n) : (w.updCtx n d f).slice k = w.slice k :=
  slice_updSlice_other w n k _ h

@[simp] theorem slice_updObj (w : Work) (i : Nat) (f : Obj → Obj) (k : Nat) : (w.updObj i f).slice k = w.slice k := rfl

@[simp] theorem obj_updCmd (w : Work) (id : Nat) (f : Cmd → Cmd) (j : Nat) : (w.updCmd id f).obj j = w.obj j := rfl

@[simp] theorem obj_updSlice (w : Work) (k : Nat) (f : Slice → Slice) (j : Nat) : (w.updSlice k f).obj j = w.obj j := rfl

/-- A charge changes what a context counts alone. -/
theorem chargeMem_slice (n d : Nat) (x : Int) (w : Work) : { (chargeMem n d x w).slice n with ctxs := (w.slice n).ctxs } = w.slice n := by
  rw [chargeMem, Work.updCtx, slice_updSlice]

theorem chargeMem_ctx (n d : Nat) (x : Int) (w : Work) :
    ((chargeMem n d x w).ctx n d).memBytes = (w.ctx n d).memBytes + BitVec.ofInt 64 x := by
  rw [chargeMem, ctx_updCtx]

theorem chargeMem_frame (n d : Nat) (x : Int) (w : Work) : { chargeMem n d x w with slices := w.slices } = w := rfl

/-! #### OBJ_CREATE (R229, R232) -/

/-- An index and an object taken for a context: what a creation does before it writes (R226). -/
def madeObj (n ctx i : Nat) (rest : List Nat) (o : Obj) (w : Work) : Work :=
  chargeMem n ctx (o.size : Int) ((w.updSlice n fun x => { x with freeIdx := rest }).updObj i fun _ => o)

/-- What a creation has done once its index is taken and its charge made. -/
def Made (n ctx i : Nat) (rest : List Nat) (o : Obj) (w w' : Work) : Prop :=
  (w'.slice n).freeIdx = rest ∧ w'.obj i = o ∧ (∀ j, j ≠ i → w'.obj j = w.obj j) ∧
  (w'.ctx n ctx).memBytes = (w.ctx n ctx).memBytes + BitVec.ofNat 64 o.size ∧ (∀ k, k ≠ n → w'.slice k = w.slice k) ∧
  { w'.slice n with freeIdx := (w.slice n).freeIdx, ctxs := (w.slice n).ctxs } = w.slice n ∧
  { w' with slices := w.slices, objs := w.objs } = w

theorem madeObj_made (n ctx i : Nat) (rest : List Nat) (o : Obj) (w : Work) : Made n ctx i rest o w (madeObj n ctx i rest o w) := by
  generalize hv : (w.updSlice n fun x => { x with freeIdx := rest }).updObj i (fun _ => o) = v
  have hown : v.slice n = { w.slice n with freeIdx := rest } := by rw [← hv, slice_updObj, slice_updSlice]
  have hother (k : Nat) (hk : k ≠ n) : v.slice k = w.slice k := by rw [← hv, slice_updObj, slice_updSlice_other _ _ _ _ hk]
  have hobj : v.obj i = o := by rw [← hv, obj_updObj]
  have hobjs (j : Nat) (hj : j ≠ i) : v.obj j = w.obj j := by rw [← hv, obj_updObj_other _ _ _ _ hj]; rfl
  have hframe : { v with slices := w.slices, objs := w.objs } = w := by rw [← hv]; rfl
  have hslice := chargeMem_slice n ctx (o.size : Int) v
  have hctx := chargeMem_ctx n ctx (o.size : Int) v
  have hctx' : v.ctx n ctx = w.ctx n ctx := by rw [Work.ctx, hown, Work.ctx]
  rw [hown] at hslice
  rw [hctx', BitVec.ofInt_natCast] at hctx
  rw [madeObj, hv]
  refine ⟨(congrArg Slice.freeIdx hslice :), hobj, hobjs, hctx, fun k hk => ?_, ?_, hframe⟩
  · rw [chargeMem, slice_updCtx_other _ _ _ _ hk, hother k hk]
  · exact congrArg (fun x : Slice => { x with freeIdx := (w.slice n).freeIdx }) hslice

/-- An OBJ_FREE that is still a node of a graph whose predecessors have not all completed (R193). -/
def blockedFree : Cmd := { Tests.objFreeCmd with phase := .blocked }

/-- The end of a blocked command is quiet as well (R196): it produces no record. -/
theorem blockedFree_quiet : (objFreeLate {} blockedFree.id (Tests.withCmd blockedFree)).cmd blockedFree.id =
    some { blockedFree with endStatus := some St.stateReject, quietEnd := true } := by decide

end

/-- Refutes O9: its third part names no phase, and where the command is a blocked node of a graph, whose end is quiet (R196), the
OBJ_FREE of a handle that is not live sets the mark of a quiet end besides its status. -/
theorem not_objectCommands : ¬ Obligations.ObjectCommands := by
  unfold Obligations.ObjectCommands
  intro h
  obtain ⟨-, -, hserved⟩ := h
  obtain ⟨hdead, -, -⟩ := hserved { work := Tests.withCmd blockedFree } blockedFree 0 (by decide) (by decide) (by decide)
  obtain ⟨w', ⟨⟨hends, -⟩, -⟩, hdecided⟩ := hdead (by decide)
  have hw : w' = objFreeLate {} blockedFree.id (Tests.withCmd blockedFree) := (congrArg Block.work hdecided :).symm
  rw [hw, blockedFree_quiet] at hends
  exact absurd hends (by decide)

end Sys2Proof.Machine

end

-- Proofs about stream creation and mapping (R242 to R251).
section

namespace Sys2Proof.Machine

/-! ### Streams (R242 to R256) -/

section

variable {e : Block} {w v : Work} {c : Cmd} {n i : Nat}

theorem Does.imp {i : Instr} {s : State} {P Q : Work → Prop} (h : Does i s P) (hpq : ∀ w, P w → Q w) : Does i s Q := by
  obtain ⟨w', hp, hx⟩ := h
  exact ⟨w', hpq w' hp, hx⟩

theorem length_bytesAt (bs : List Byte) (off m : Nat) : (bytesAt bs off m).length = m := by simp [bytesAt]

/-- Bytes past a text's end are zero. -/
theorem bytesAt_pad (bs : List Byte) (m : Nat) : bytesAt bs 0 (bs.length + m) = bs ++ List.replicate m 0 := by
  refine List.ext_getElem (by simp [bytesAt]) fun j h1 h2 => ?_
  rw [List.getElem_append]
  split
  next hj => simp [bytesAt, List.getD_eq_getElem?_getD, hj]
  next hj => simp [bytesAt, List.getD_eq_getElem?_getD, List.getElem?_eq_none (Nat.le_of_not_lt hj)]

/-- Bytes taken out of a body keep their fields. -/
theorem fieldAt_bytesAt (bs : List Byte) (a m o k : Nat) (h : o + k ≤ m) : fieldAt (bytesAt bs a m) o k = fieldAt bs (a + o) k := by
  rw [fieldAt, fieldAt, Tests.bytesAt_bytesAt bs a m o k h]

/-- A write of a slice marks the dirty logs of that slice alone (R599). -/
theorem writeFor_other (e : Block) (n : Nat) (dev : Bool) (a : Nat) (data : List Byte) (why : Purpose) (w : Work) {k : Nat} (hk : k ≠ n) :
    (writeFor e (some n) dev a data why w).slice k = w.slice k := by
  have hmark (held : Bool) (r : Req) (hr : r.owner = some n) : (markSent e held r w).slice k = w.slice k := by
    unfold markSent markDirty
    rw [hr]
    dsimp only
    split
    · rfl
    · split
      · rfl
      · split
        · split
          · exact slice_updSlice_other w n k _ hk
          · rfl
        · exact slice_updSlice_other w n k _ hk
  unfold writeFor issue issueRaw
  split
  · exact hmark _ _ rfl
  · rfl

/-! #### Headers (R245) -/

/-- A stream whose header is written for a command, at once or behind an earlier one. -/
def Obj.headed (id : Nat) (o : Obj) : Obj := { o with hdrBusy := true, hdrDue := if o.hdrBusy then o.hdrDue ++ [id] else o.hdrDue }

theorem headerBytes_headed (e : Block) (i id : Nat) (o : Obj) : headerBytes e i (o.headed id) = headerBytes e i o := rfl

theorem length_headerBytes (e : Block) (i : Nat) (o : Obj) : (headerBytes e i o).length = 64 := by simp [headerBytes, length_leBytes]

/-- What a header write for a command does in a slice that may issue. -/
def WritesHeader (e : Block) (n i id : Nat) (w w' : Work) : Prop :=
  w'.obj i = (w.obj i).headed id ∧ (∀ j, j ≠ i → w'.obj j = w.obj j) ∧ ((w.obj i).hdrBusy = true → w'.fab = w.fab) ∧
  ((w.obj i).hdrBusy = false → Asks w (some n) .write true (spaceAddr e true (w.obj i).base) 64 (headerBytes e i (w'.obj i)) (.header i id) w') ∧
  LogsOnly w w' ∧ (∀ k, k ≠ n → w'.slice k = w.slice k) ∧ { w' with fab := w.fab, slices := w.slices, objs := w.objs } = w

theorem writeHeader_writes (id : Nat) (hact : (w.slice n).state = .active) : WritesHeader e n i id w (writeHeader e n i id w) := by
  have hmay : mayIssue w (some n) true = true := mayIssue_active hact true
  rw [writeHeader]
  cases hbusy : (w.obj i).hdrBusy with
  | true =>
    rw [if_pos rfl]
    refine ⟨?_, fun j hj => obj_updObj_other _ _ _ _ hj, fun _ => rfl, fun h => ?_, logs_refl w, fun _ _ => rfl, rfl⟩
    · rw [obj_updObj, Obj.headed, hbusy]
      simp
    · rw [hbusy] at h
      cases h
  | false =>
    rw [if_neg (by simp), hmay]
    generalize hu : w.updObj i (fun o => { o with hdrBusy := true }) = u
    have hobj : u.obj i = (w.obj i).headed id := by
      rw [← hu, obj_updObj, Obj.headed, hbusy]
      simp
    have hobjs (j : Nat) (hj : j ≠ i) : u.obj j = w.obj j := by rw [← hu, obj_updObj_other _ _ _ _ hj]
    have hslices : u.slices = w.slices := by rw [← hu]; rfl
    have hfab : u.fab = w.fab := by rw [← hu]; rfl
    have hframe : { u with objs := w.objs } = w := by rw [← hu]; rfl
    have hmay' : mayIssue u (some n) true = true := mayIssue_active ((congrArg Slice.state (slice_congr hslices n)).trans hact) true
    obtain ⟨hasks, hlogs, hsame⟩ := writeFor_issues (e := e) (a := (w.obj i).base) (why := .header i id) hmay' (length_headerBytes e i (w.obj i))
    have hother (k : Nat) (hk : k ≠ n) :=
      writeFor_other e n true (w.obj i).base (headerBytes e i (w.obj i)) (.header i id) u hk
    generalize writeFor e (some n) true _ _ _ u = x at hasks hlogs hsame hother ⊢
    have hx : x.objs = u.objs := (congrArg Work.objs hsame :)
    have hxi : x.obj i = (w.obj i).headed id := by rw [Work.obj, hx]; exact hobj
    refine ⟨hxi, fun j hj => ?_, fun h => ?_, fun _ => ?_, fun k => ?_, fun k hk => ?_, ?_⟩
    · rw [Work.obj, hx]
      exact hobjs j hj
    · rw [hbusy] at h
      cases h
    · rw [hxi, headerBytes_headed]
      exact hasks.congr hfab fun m hm => by rw [slice_congr hslices]
    · rw [← slice_congr hslices k]
      exact hlogs k
    · rw [hother k hk, slice_congr hslices]
    · have := congrArg (fun y : Work => { y with objs := w.objs }) hsame
      rw [hframe, hfab, hslices] at this
      exact this

/-- What a write leaves but for the port, the slices' dirty logs and nothing else. -/
theorem Asks.obj {u : Work} (h : { u with fab := v.fab, slices := v.slices } = v) (j : Nat) : u.obj j = v.obj j := by
  have hobjs : u.objs = v.objs := (congrArg Work.objs h :)
  rw [Work.obj, hobjs, Work.obj]

/-! #### STREAM_CREATE (R242, R244) -/

theorem streamCreateOp_noIndex (hn : c.slice = some n) (h : (w.slice n).freeIdx = []) :
    streamCreateOp e c w = endCmd c.id St.objTableFull w := by
  rw [streamCreateOp, hn]
  dsimp only
  rw [h]

theorem streamCreateOp_full (hn : c.slice = some n) (h : (w.slice n).freeIdx ≠ []) (hfull :
    w.streamFree = [] ∨ e.dct.streamQuota n ≤ liveStreams w n) :
    streamCreateOp e c w = endCmd c.id St.streamTableFull w := by
  rw [streamCreateOp, hn]
  dsimp only
  split
  next hnil => exact absurd hnil h
  next =>
    split
    next => rfl
    next d descs hd =>
      rcases hfull with hnil | hquota
      · rw [hd] at hnil
        cases hnil
      · rw [if_pos hquota]

theorem streamCreateOp_makes {rest descs : List Nat} {d : Nat} (hn : c.slice = some n) (hidx : (w.slice n).freeIdx = i :: rest)
    (hdesc : w.streamFree = d :: descs) (hquota : liveStreams w n < e.dct.streamQuota n) (hmirror : e.dct.posMirror n = 0) :
    let o := streamObj n c.ctx (w.obj i).gen d (w.obj i).cached c.bytes
    streamCreateOp e c w = writeResult e c (leBytes 4 (handleOf i o) ++ leBytes 2 d)
      (writeHeader e n i c.id ((madeObj n c.ctx i rest o { w with streamFree := descs }).updCmd c.id fun k =>
        { k with phase := .running, writesLeft := 2, auxNat := handleOf i o })) := by
  rw [streamCreateOp, hn]
  dsimp only
  rw [hidx]
  dsimp only
  rw [hdesc]
  dsimp only
  rw [if_neg (Nat.not_le.mpr hquota), hmirror]
  rfl

/-! #### STREAM_MAP (R250, R251) -/

theorem streamMapOp_refused (hn : c.slice = some n) (h : mapOk e.dct n (w.obj (hIndex (fieldAt c.bytes 24 4))) c.bytes = false) :
    streamMapOp e c w = endCmd c.id St.objRange w := by
  rw [streamMapOp, hn]
  dsimp only
  rw [h]
  rfl

end

section

variable {s : State} {c : Cmd} {n : Nat}

/-- A state with the parts of another that stream commands change. -/
def unstreamed (w v : Work) : Work :=
  { v with fab := w.fab, cmds := w.cmds, slices := w.slices, objs := w.objs, streamFree := w.streamFree }

theorem streamCreate_makes {i d : Nat} {rest descs : List Nat} (h : s.live) (hr : Ready s.core.work .streamCreate c) (hn : c.slice = some n)
    (hidx : (s.core.work.slice n).freeIdx = i :: rest) (hdesc : s.core.work.streamFree = d :: descs)
    (hquota : liveStreams s.core.work n < s.core.dct.streamQuota n) (hact : (s.core.work.slice n).state = .active)
    (hmirror : s.core.dct.posMirror n = 0) :
    let w := s.core.work
    Does (.streamCreate c.id) s fun w' =>
      (w'.slice n).freeIdx = rest ∧ w'.streamFree = descs ∧
      w'.obj i = (streamObj n c.ctx (w.obj i).gen d (w.obj i).cached c.bytes).headed c.id ∧
      (∀ j, j ≠ i → w'.obj j = w.obj j) ∧
      (w'.ctx n c.ctx).memBytes = (w.ctx n c.ctx).memBytes + BitVec.ofNat 64 (fieldAt c.bytes 32 8) ∧
      (∃ v, (v.slice n).pasid = (w.slice n).pasid ∧
        Asks w (some n) .write true (spaceAddr s.core true (ptrAddr (fieldAt c.bytes 24 8))) 64
          (headerBytes s.core i (w'.obj i)) (.header i c.id) v ∧
        Asks v (some n) .write (ptrDev (fieldAt c.bytes 40 8))
          (spaceAddr s.core (ptrDev (fieldAt c.bytes 40 8)) (ptrAddr (fieldAt c.bytes 40 8))) 32
          (leBytes 4 ((w.obj i).gen * 2 ^ 24 + i) ++ leBytes 2 d ++ List.replicate 26 0) (.createWrite c.id) w') ∧
      Turns w c { c with phase := .running, writesLeft := 2, auxNat := (w.obj i).gen * 2 ^ 24 + i } w' ∧
      (∀ k, k ≠ n → w'.slice k = w.slice k) ∧
      { w' with fab := w.fab, cmds := w.cmds, slices := w.slices, objs := w.objs, streamFree := w.streamFree } = w := by
  refine does_cmd rfl h hr ?_
  rw [streamCreateOp_makes hn hidx hdesc hquota hmirror, writeResult, hn]
  generalize ho : streamObj n c.ctx (s.core.work.obj i).gen d (s.core.work.obj i).cached c.bytes = o
  have hhandle : handleOf i o = (s.core.work.obj i).gen * 2 ^ 24 + i := by rw [← ho]; rfl
  have hplain : o.size = fieldAt c.bytes 32 8 ∧ o.base = ptrAddr (fieldAt c.bytes 24 8) ∧ o.hdrBusy = false := by
    rw [← ho]
    exact ⟨rfl, rfl, rfl⟩
  obtain ⟨hsize, hbase, hbusy⟩ := hplain
  rw [hhandle]
  clear ho hhandle
  have hbytes : bytesAt (leBytes 4 ((s.core.work.obj i).gen * 2 ^ 24 + i) ++ leBytes 2 d) 0 32 =
      leBytes 4 ((s.core.work.obj i).gen * 2 ^ 24 + i) ++ leBytes 2 d ++ List.replicate 26 0 := by
    have hpad := bytesAt_pad (leBytes 4 ((s.core.work.obj i).gen * 2 ^ 24 + i) ++ leBytes 2 d) 26
    simpa only [List.length_append, length_leBytes] using hpad
  have hlen : (leBytes 4 ((s.core.work.obj i).gen * 2 ^ 24 + i) ++ leBytes 2 d ++ List.replicate 26 0).length = 32 := by simp [length_leBytes]
  rw [hbytes]
  generalize leBytes 4 _ ++ leBytes 2 d ++ List.replicate 26 0 = data at hlen ⊢
  obtain ⟨hidx', hobj, hobjs, hmem, hothers, hown, hframe⟩ := madeObj_made n c.ctx i rest o { s.core.work with streamFree := descs }
  generalize madeObj n c.ctx i rest o _ = v at hidx' hobj hobjs hmem hothers hown hframe ⊢
  have hcmds : v.cmds = s.core.work.cmds := (congrArg Work.cmds hframe :)
  have hfab : v.fab = s.core.work.fab := (congrArg Work.fab hframe :)
  have hdescs : v.streamFree = descs := (congrArg Work.streamFree hframe :)
  have hpasid : (v.slice n).pasid = (s.core.work.slice n).pasid := (congrArg Slice.pasid hown :)
  have hturn := turns_updCmd (v := v) hr.cmd_eq (fun k => { k with phase := .running, writesLeft := 2, auxNat := (s.core.work.obj i).gen * 2 ^ 24 + i })
    (fun _ => rfl) hcmds
  have hstate : (v.slice n).state = .active := (congrArg Slice.state hown :).trans hact
  generalize hu : v.updCmd c.id _ = u at hturn ⊢
  have huv : { u with cmds := v.cmds } = v := by rw [← hu]; rfl
  have husl : u.slices = v.slices := (congrArg Work.slices huv :)
  have hufab : u.fab = v.fab := (congrArg Work.fab huv :)
  have huobj (j : Nat) : u.obj j = v.obj j := (congrArg (fun y : Work => y.obj j) huv :)
  obtain ⟨hxobj, hxobjs, -, hxasks, hxlogs, hxothers, hxframe⟩ := writeHeader_writes (e := s.core) (i := i) c.id
    ((congrArg Slice.state (slice_congr husl n)).trans hstate)
  generalize writeHeader s.core n i c.id u = x at hxobj hxobjs hxasks hxlogs hxothers hxframe ⊢
  have hxstate : (x.slice n).state = .active :=
    (congrArg Slice.state (hxlogs n) :).trans ((congrArg Slice.state (slice_congr husl n)).trans hstate)
  obtain ⟨hyasks, hylogs, hyframe⟩ := writeFor_issues (e := s.core) (a := ptrAddr (fieldAt c.bytes 40 8)) (why := .createWrite c.id)
    (mayIssue_active hxstate (ptrDev (fieldAt c.bytes 40 8))) hlen
  have hyothers (k : Nat) (hk : k ≠ n) :=
    writeFor_other s.core n (ptrDev (fieldAt c.bytes 40 8)) (ptrAddr (fieldAt c.bytes 40 8)) data (.createWrite c.id) x hk
  generalize writeFor s.core (some n) _ _ _ _ x = y at hyasks hylogs hyframe hyothers ⊢
  have hlogs : LogsOnly u y := hxlogs.trans hylogs
  have hyobj : y.obj i = o.headed c.id := by rw [Asks.obj hyframe, hxobj, huobj, hobj]
  have hucmds : y.cmds = u.cmds := (congrArg Work.cmds hyframe :).trans (congrArg Work.cmds hxframe :)
  refine ⟨?_, ?_, hyobj, fun j hj => ?_, ?_, ⟨x, ?_, ?_, hyasks⟩, ?_, fun k hk => ?_, ?_⟩
  · exact (congrArg Slice.freeIdx (hlogs n) :).trans ((congrArg Slice.freeIdx (slice_congr husl n)).trans hidx')
  · exact (congrArg Work.streamFree hyframe :).trans ((congrArg Work.streamFree hxframe :).trans ((congrArg Work.streamFree huv :).trans hdescs))
  · rw [Asks.obj hyframe, hxobjs j hj, huobj, hobjs j hj]
    rfl
  · have hctx : u.ctx n c.ctx = v.ctx n c.ctx := by rw [Work.ctx, slice_congr husl, Work.ctx]
    rw [hlogs.ctx, hctx, hmem, hsize]
    rfl
  · exact (congrArg Slice.pasid (hxlogs n) :).trans ((congrArg Slice.pasid (slice_congr husl n)).trans hpasid)
  · rw [huobj, hobj] at hxasks hxobj
    rw [hyobj, ← hxobj, ← hbase]
    refine (hxasks hbusy).congr (hufab.trans hfab) fun m hm => ?_
    cases hm
    exact (congrArg Slice.pasid (slice_congr husl n)).trans hpasid
  · rw [← hn]
    exact hturn.of_cmds hucmds
  · rw [hyothers k hk, hxothers k hk, slice_congr husl, hothers k hk]
    rfl
  · calc unstreamed s.core.work y = unstreamed s.core.work x := (congrArg (unstreamed s.core.work) hyframe :)
      _ = unstreamed s.core.work u := (congrArg (unstreamed s.core.work) hxframe :)
      _ = unstreamed s.core.work v := (congrArg (unstreamed s.core.work) huv :)
      _ = s.core.work := (congrArg (unstreamed s.core.work) hframe :)

/-- A state with the parts of another that commands on live streams change. -/
def unmapped (w v : Work) : Work := { v with fab := w.fab, cmds := w.cmds, slices := w.slices, objs := w.objs }

/-- The pages of a stream after a STREAM_MAP, and the charge for those added. -/
def mapped (c : Cmd) (n : Nat) (w : Work) : Work :=
  let i := hIndex (fieldAt c.bytes 24 4)
  let ps := pagesAfter (w.obj i).pages (fieldAt c.bytes 28 4) (mapPages c.bytes)
  chargeMem n (w.obj i).ctx (((ps.length : Int) - ((w.obj i).pages.length : Int)) * 65536) (w.updObj i fun o => { o with pages := ps })

/-- The page entries of a STREAM_MAP are written, where it has any. -/
def mapWrite (e : Block) (c : Cmd) (n base : Nat) (w : Work) : Work :=
  if (mapPages c.bytes).isEmpty then w
  else writeFor e (some n) true (base + 64 + 8 * fieldAt c.bytes 28 4) (pageBytes (mapPages c.bytes)) (.mapWrite c.id) w

theorem pagesAfter_eq (old : List Nat) (ix : Nat) (new : List Nat) :
    pagesAfter old ix new = if new = [] then old.take ix else old.take ix ++ new ++ old.drop (ix + new.length) := by
  simp only [pagesAfter, List.isEmpty_iff]

theorem mapped_maps (c : Cmd) (n : Nat) (w : Work) :
    let i := hIndex (fieldAt c.bytes 24 4)
    let ps := pagesAfter (w.obj i).pages (fieldAt c.bytes 28 4) (mapPages c.bytes)
    let v := mapped c n w
    v.obj i = { w.obj i with pages := ps } ∧ (∀ j, j ≠ i → v.obj j = w.obj j) ∧
    (v.ctx n (w.obj i).ctx).memBytes = (w.ctx n (w.obj i).ctx).memBytes +
      BitVec.ofInt 64 (((ps.length : Int) - ((w.obj i).pages.length : Int)) * 65536) ∧
    (∀ k, k ≠ n → v.slice k = w.slice k) ∧ { v.slice n with ctxs := (w.slice n).ctxs } = w.slice n ∧
    { v with slices := w.slices, objs := w.objs } = w := by
  dsimp only
  rw [mapped]
  generalize hIndex (fieldAt c.bytes 24 4) = i
  generalize pagesAfter (w.obj i).pages _ _ = ps
  generalize ((ps.length : Int) - ((w.obj i).pages.length : Int)) * 65536 = m
  generalize hu : w.updObj i (fun o => { o with pages := ps }) = u
  have hslices : u.slices = w.slices := by rw [← hu]; rfl
  have hctx : u.ctx n (w.obj i).ctx = w.ctx n (w.obj i).ctx := by rw [Work.ctx, slice_congr hslices, Work.ctx]
  refine ⟨?_, fun j hj => ?_, ?_, fun k hk => ?_, ?_, ?_⟩
  · exact (congrArg (fun x : Work => x.obj i) hu.symm).trans (obj_updObj w i _)
  · exact (congrArg (fun x : Work => x.obj j) hu.symm).trans (obj_updObj_other w i j _ hj)
  · rw [chargeMem_ctx, hctx]
  · rw [chargeMem, slice_updCtx_other _ _ _ _ hk, slice_congr hslices]
  · have hcharge := chargeMem_slice n (w.obj i).ctx m u
    rwa [slice_congr hslices] at hcharge
  · rw [← hu]
    rfl

theorem mapWrite_writes {e : Block} {v : Work} (base : Nat) (hact : (v.slice n).state = .active) :
    let new := mapPages c.bytes
    let v' := mapWrite e c n base v
    (new = [] → v'.fab = v.fab) ∧
    (new ≠ [] → Asks v (some n) .write true (spaceAddr e true (base + 64 + 8 * fieldAt c.bytes 28 4)) (pageBytes new).length
      (pageBytes new) (.mapWrite c.id) v') ∧
    LogsOnly v v' ∧ (∀ k, k ≠ n → v'.slice k = v.slice k) ∧ { v' with fab := v.fab, slices := v.slices } = v := by
  dsimp only
  rw [mapWrite]
  cases hnew : mapPages c.bytes with
  | nil => exact ⟨fun _ => rfl, fun h => absurd rfl h, logs_refl v, fun _ _ => rfl, rfl⟩
  | cons a as =>
    obtain ⟨hasks, hlogs, hframe⟩ := writeFor_issues (e := e) (a := base + 64 + 8 * fieldAt c.bytes 28 4) (why := .mapWrite c.id)
      (data := pageBytes (a :: as)) (mayIssue_active hact true) rfl
    exact ⟨fun h => (nomatch h), fun _ => hasks, hlogs, fun k hk => writeFor_other _ _ _ _ _ _ _ hk, hframe⟩

theorem streamMapOp_goes {e : Block} {w : Work} (hn : c.slice = some n) (h :
    mapOk e.dct n (w.obj (hIndex (fieldAt c.bytes 24 4))) c.bytes = true) :
    let i := hIndex (fieldAt c.bytes 24 4)
    streamMapOp e c w = writeHeader e n i c.id (mapWrite e c n (w.obj i).base ((mapped c n w).updCmd c.id fun d =>
      { d with phase := .running, writesLeft := if (mapPages c.bytes).isEmpty then 1 else 2 })) := by
  rw [streamMapOp, hn]
  dsimp only
  rw [h]
  rfl

end

/-- Settles O10: tables and charges first, then the writes of the header and of the result or the page entries. -/
theorem streamCommands : Obligations.StreamCommands := by
  refine ⟨fun s c n h hr hn => ⟨fun hidx => ?noIndex, fun hidx hfull => ?full, fun i rest d descs hidx hdesc hquota hact hmirror => ?make⟩,
    fun s c n h hr hn => ⟨fun hbad => ?refused, fun hok hact => ?goes⟩⟩
  case noIndex => exact does_just rfl h hr (streamCreateOp_noIndex hn hidx)
  case full => exact does_just rfl h hr (streamCreateOp_full hn hidx hfull)
  case refused => exact does_just rfl h hr (streamMapOp_refused hn hbad)
  case make =>
    refine Does.imp (streamCreate_makes h hr hn hidx hdesc hquota hact hmirror) fun w' hw => ?_
    obtain ⟨hidx', hdescs, hobj, hobjs, hmem, hasks, hturn, hothers, hframe⟩ := hw
    refine ⟨hidx', hdescs, ?_, ?_, ?_, ?_, ?_, ?_, ?_, ?_, ?_, ?_, ?_, ?_, hobjs, hmem, hasks, hturn, hothers, hframe⟩ <;> rw [hobj] <;> rfl
  case goes =>
    refine does_cmd rfl h hr ?_
    rw [streamMapOp_goes hn hok]
    dsimp only
    have hpages := pagesAfter_eq (s.core.work.obj (hIndex (fieldAt c.bytes 24 4))).pages (fieldAt c.bytes 28 4) (mapPages c.bytes)
    obtain ⟨hobj, hobjs, hmem, hothers, hown, hframe⟩ := mapped_maps c n s.core.work
    dsimp only at hobj hobjs hmem hothers hown hframe
    generalize mapped c n s.core.work = v at hobj hobjs hmem hothers hown hframe ⊢
    rw [hpages] at hobj hmem
    clear hpages hok
    generalize hIndex (fieldAt c.bytes 24 4) = i at hobj hobjs hmem ⊢
    have hturn := turns_updCmd (v := v) hr.cmd_eq (fun d => { d with phase := .running, writesLeft := if (mapPages c.bytes).isEmpty then 1 else 2 })
      (fun _ => rfl) (congrArg Work.cmds hframe :)
    simp only [List.isEmpty_iff] at hturn
    have hstate : (v.slice n).state = .active := (congrArg Slice.state hown :).trans hact
    have hpasid : (v.slice n).pasid = (s.core.work.slice n).pasid := (congrArg Slice.pasid hown :)
    simp only [List.isEmpty_iff]
    generalize hu : v.updCmd c.id _ = u at hturn ⊢
    have huv : { u with cmds := v.cmds } = v := by rw [← hu]; rfl
    have husl (k : Nat) : u.slice k = v.slice k := (congrArg (fun y : Work => y.slice k) huv :)
    have huobj (j : Nat) : u.obj j = v.obj j := (congrArg (fun y : Work => y.obj j) huv :)
    obtain ⟨hsame, hasks, hylogs, hyothers, hyframe⟩ := mapWrite_writes (c := c) (e := s.core) (s.core.work.obj i).base
      ((congrArg Slice.state (husl n)).trans hstate)
    generalize mapWrite s.core c n (s.core.work.obj i).base u = y at hsame hasks hylogs hyothers hyframe ⊢
    have hyobj (j : Nat) : y.obj j = v.obj j := (Asks.obj hyframe j).trans (huobj j)
    have hystate : (y.slice n).state = .active := (congrArg Slice.state (hylogs n) :).trans ((congrArg Slice.state (husl n)).trans hstate)
    have hypasid : (y.slice n).pasid = (s.core.work.slice n).pasid :=
      (congrArg Slice.pasid (hylogs n) :).trans ((congrArg Slice.pasid (husl n)).trans hpasid)
    obtain ⟨hxobj, hxobjs, hxfab, hxasks, hxlogs, hxothers, hxframe⟩ := writeHeader_writes (e := s.core) (i := i) c.id hystate
    generalize writeHeader s.core n i c.id y = x at hxobj hxobjs hxfab hxasks hxlogs hxothers hxframe ⊢
    rw [hyobj, hobj] at hxobj hxfab hxasks
    have hfab : u.fab = s.core.work.fab := (congrArg Work.fab huv :).trans (congrArg Work.fab hframe :)
    have hlogs : LogsOnly u x := hylogs.trans hxlogs
    have hcmds : x.cmds = u.cmds := (congrArg Work.cmds hxframe :).trans (congrArg Work.cmds hyframe :)
    refine ⟨hxobj, fun j hj => ?_, ?_, ⟨y, hypasid, fun h => (hsame h).trans hfab, fun h => ?_, hxfab, hxasks⟩, hturn.of_cmds hcmds,
      fun k hk => ?_, ?_⟩
    · rw [hxobjs j hj, hyobj, hobjs j hj]
    · rw [hxobj, hlogs.ctx]
      have hctx : u.ctx n (s.core.work.obj i).ctx = v.ctx n (s.core.work.obj i).ctx := by rw [Work.ctx, husl, Work.ctx]
      rw [hctx, hmem]
      rfl
    · refine (hasks h).congr hfab fun m hm => ?_
      cases hm
      exact (congrArg Slice.pasid (husl n)).trans hpasid
    · rw [hxothers k hk, hyothers k hk, husl, hothers k hk]
    · calc unmapped s.core.work x = unmapped s.core.work y := (congrArg (unmapped s.core.work) hxframe :)
        _ = unmapped s.core.work u := (congrArg (unmapped s.core.work) hyframe :)
        _ = unmapped s.core.work v := (congrArg (unmapped s.core.work) huv :)
        _ = s.core.work := (congrArg (unmapped s.core.work) hframe :)

end Sys2Proof.Machine

end

-- Proofs about advancing streams (R253 to R256).
section

namespace Sys2Proof.Machine

/-! ### Advancing streams (R253 to R256) -/

section

variable {e : Block} {w v : Work} {c : Cmd} {n i : Nat}

/-- A STREAM_ADVANCE of one stream as it begins: its entry is in its body. -/
def Cmd.advancing (c : Cmd) : Cmd := { c with phase := .running, aux := bytesAt c.bytes 24 8 }

theorem advanceEntries_single (bs : List Byte) : advanceEntries (bytesAt bs 24 8) = [(fieldAt bs 24 4, fieldAt bs 28 4)] := by
  rw [advanceEntries, length_bytesAt]
  simp [List.range_succ, fieldAt_bytesAt]

/-- The status of a stream's only entry, of an amount in range (R254). -/
def advanceStatus (d : Nat) (o : Obj) : Status :=
  if o.faulted then St.stateReject
  else if 2 ^ 32 - 1 ≤ o.tok + d then St.streamLimit
  else if o.pages.length * 2 ^ o.tpp < o.tok + d then St.objRange
  else St.ok

theorem entryStatus_single {h d : Nat} (hlow : 1 ≤ d) (hhigh : d ≤ 2 ^ 31) :
    entryStatus w n false [(h, d)] (h, d) = advanceStatus d (w.obj (hIndex h)) := by
  have htotal : totalDelta [(h, d)] h = d := by simp [totalDelta]
  have hrange : ¬(d = 0 ∨ d > 2 ^ 31) := by omega
  unfold entryStatus advanceStatus
  dsimp only
  rw [htotal, if_neg (by simp), if_neg hrange]

/-- A STREAM_ADVANCE of one stream is checked at once. -/
theorem streamAdvanceOp_single (hn : c.slice = some n) (hmirror : e.dct.posMirror n = 0) (hsingle : fieldAt c.bytes 40 8 = 0) :
    streamAdvanceOp e c w = advanceCheck e c.advancing n (w.updCmd c.id fun _ => c.advancing) := by
  have hbusy : advanceBusy e w c n = false := by simp [advanceBusy, hmirror]
  have hlisted : advanceListed c = false := by simp [advanceListed, hsingle]
  unfold streamAdvanceOp
  split
  next hnone => rw [hn] at hnone; cases hnone
  next m hm =>
    obtain rfl : m = n := by rw [hn] at hm; exact (Option.some.inj hm).symm
    simp only [hbusy, hlisted, Bool.false_eq_true, if_false]
    rfl

/-- A STREAM_ADVANCE with a list reads it. -/
theorem streamAdvanceOp_listed (hn : c.slice = some n) (hmirror : e.dct.posMirror n = 0) (hlisted : fieldAt c.bytes 40 8 ≠ 0) :
    streamAdvanceOp e c w = readFor e (some n) (ptrDev (fieldAt c.bytes 40 8)) (ptrAddr (fieldAt c.bytes 40 8)) (8 * fieldAt c.bytes 32 2)
      (.advanceList c.id) (w.updCmd c.id fun d => { d with phase := .running, aux := [] }) := by
  have hbusy : advanceBusy e w c n = false := by simp [advanceBusy, hmirror]
  have hlist : advanceListed c = true := bne_iff_ne.mpr hlisted
  rw [streamAdvanceOp, hn]
  simp only [hbusy, hlist, Bool.false_eq_true, if_false, if_true]

/-- A stream moved by its entry, and its command with one header to write. -/
def moved (c : Cmd) (w : Work) : Work :=
  (w.updObj (hIndex (fieldAt c.bytes 24 4)) fun o => { o with tok := o.tok + fieldAt c.bytes 28 4 }).updCmd c.id fun d =>
    { d with auxNat := 2, writesLeft := 1 }

theorem moved_obj (c : Cmd) (w : Work) :
    let i := hIndex (fieldAt c.bytes 24 4)
    (moved c w).obj i = { w.obj i with tok := (w.obj i).tok + fieldAt c.bytes 28 4 } ∧ ∀ j, j ≠ i → (moved c w).obj j = w.obj j := by
  refine ⟨?_, fun j hj => ?_⟩
  · rw [moved, obj_updCmd, obj_updObj]
  · rw [moved, obj_updCmd, obj_updObj_other _ _ _ _ hj]

/-- A stream that its entry takes past the limit, and its command with one header to write. -/
def limited (c : Cmd) (w : Work) : Work :=
  (w.updObj (hIndex (fieldAt c.bytes 24 4)) fun o => { o with faulted := true }).updCmd c.id fun d =>
    { d with auxNat := 3, writesLeft := 1, badStatus := St.streamLimit }

theorem limited_obj (c : Cmd) (w : Work) :
    let i := hIndex (fieldAt c.bytes 24 4)
    (limited c w).obj i = { w.obj i with faulted := true } ∧ ∀ j, j ≠ i → (limited c w).obj j = w.obj j := by
  refine ⟨?_, fun j hj => ?_⟩
  · rw [limited, obj_updCmd, obj_updObj]
  · rw [limited, obj_updCmd, obj_updObj_other _ _ _ _ hj]

theorem advanceCheck_single {st : Status} (hmirror : e.dct.posMirror n = 0) (hsingle : fieldAt c.bytes 40 8 = 0)
    (hst : entryStatus w n false [(fieldAt c.bytes 24 4, fieldAt c.bytes 28 4)] (fieldAt c.bytes 24 4, fieldAt c.bytes 28 4) = st) :
    advanceCheck e c.advancing n w =
      if st = St.ok then writeHeader e n (hIndex (fieldAt c.bytes 24 4)) c.id (moved c w)
      else if st = St.streamLimit then writeHeader e n (hIndex (fieldAt c.bytes 24 4)) c.id (limited c w)
      else endCmd c.id st w := by
  have hlisted : advanceListed c.advancing = false := by simp [advanceListed, Cmd.advancing, hsingle]
  have haux : c.advancing.aux = bytesAt c.bytes 24 8 := rfl
  unfold advanceCheck
  dsimp only
  rw [hlisted, haux, advanceEntries_single]
  simp only [Bool.false_eq_true, if_false, List.map_cons, List.map_nil, hst]
  by_cases hok : st = St.ok
  · subst hok
    simp only [List.find?_cons, bne_self_eq_false, List.find?_nil, hmirror, if_true]
    rw [moveAll, haux, advanceEntries_single]
    simp [advanceStreams, totalDelta, moved, Cmd.advancing]
  · have hne : (st != St.ok) = true := bne_iff_ne.mpr hok
    simp only [List.find?_cons, hne, if_neg hok, List.filter_cons, List.filter_nil]
    by_cases hlimit : st = St.streamLimit
    · simp [hlimit, limited, Cmd.advancing]
    · have hother : (st == St.streamLimit) = false := beq_eq_false_iff_ne.mpr hlimit
      simp only [hother, Bool.false_eq_true, if_false, if_neg hlimit, List.map_nil, List.dedup_nil, List.isEmpty_nil, if_true]
      rfl

/-- What a STREAM_ADVANCE of one stream does, by the status of its entry. -/
theorem streamAdvanceOp_by {st : Status} (hn : c.slice = some n) (hmirror : e.dct.posMirror n = 0) (hsingle : fieldAt c.bytes 40 8 = 0)
    (hlow : 1 ≤ fieldAt c.bytes 28 4) (hhigh : fieldAt c.bytes 28 4 ≤ 2 ^ 31)
    (hst : advanceStatus (fieldAt c.bytes 28 4) (w.obj (hIndex (fieldAt c.bytes 24 4))) = st) :
    let v := w.updCmd c.id fun _ => c.advancing
    streamAdvanceOp e c w =
      if st = St.ok then writeHeader e n (hIndex (fieldAt c.bytes 24 4)) c.id (moved c v)
      else if st = St.streamLimit then writeHeader e n (hIndex (fieldAt c.bytes 24 4)) c.id (limited c v)
      else endCmd c.id st v := by
  rw [streamAdvanceOp_single hn hmirror hsingle]
  exact advanceCheck_single hmirror hsingle ((entryStatus_single hlow hhigh).trans hst)

/-- A stream changed by its command, whose header is written: what both outcomes of a check have in common. -/
theorem header_turns {o : Obj} {c' : Cmd} (id : Nat) (hact : (w.slice n).state = .active) (hobj : v.obj i = o) (hobjs :
    ∀ j, j ≠ i → v.obj j = w.obj j)
    (hbusy : o.hdrBusy = (w.obj i).hdrBusy) (hbase : o.base = (w.obj i).base) (hturn : Turns w c c' v)
    (hframe : { v with cmds := w.cmds, objs := w.objs } = w) :
    let w' := writeHeader e n i id v
    w'.obj i = o.headed id ∧ (∀ j, j ≠ i → w'.obj j = w.obj j) ∧ ((w.obj i).hdrBusy = true → w'.fab = w.fab) ∧
    ((w.obj i).hdrBusy = false → Asks w (some n) .write true (spaceAddr e true (w.obj i).base) 64
      (headerBytes e i (w'.obj i)) (.header i id) w') ∧
    Turns w c c' w' ∧ LogsOnly w w' ∧ { w' with fab := w.fab, cmds := w.cmds, slices := w.slices, objs := w.objs } = w := by
  have hslices : v.slices = w.slices := (congrArg Work.slices hframe :)
  have hfab : v.fab = w.fab := (congrArg Work.fab hframe :)
  obtain ⟨hxobj, hxobjs, hxfab, hxasks, hxlogs, -, hxframe⟩ := writeHeader_writes (e := e) (i := i) id
    ((congrArg Slice.state (slice_congr hslices n)).trans hact)
  dsimp only
  generalize writeHeader e n i id v = x at hxobj hxobjs hxfab hxasks hxlogs hxframe ⊢
  rw [hobj] at hxobj hxfab hxasks
  rw [hbusy] at hxfab hxasks
  refine ⟨hxobj, fun j hj => (hxobjs j hj).trans (hobjs j hj), fun h => (hxfab h).trans hfab, fun h => ?_,
    hturn.of_cmds (congrArg Work.cmds hxframe :), (LogsOnly.of_slice (slice_congr hslices)).trans hxlogs, ?_⟩
  · rw [← hbase]
    exact (hxasks h).congr hfab fun m _ => by rw [slice_congr hslices]
  · exact (congrArg (unmapped w) hxframe :).trans (congrArg (unmapped w) hframe :)

end

/-- Settles O11: the one entry is checked first; only then is the stream moved, or faulted, and its header written. -/
theorem streamAdvancing : Obligations.StreamAdvancing := by
  intro s c n h hr hn hmirror hact
  have hstart := updCmd_turns_to hr.cmd_eq (fun _ => c.advancing) fun _ _ => rfl
  obtain ⟨-, -, -, hopen, -⟩ := id hr
  have hends (st : Status) : Turns s.core.work c { c with phase := .running, aux := bytesAt c.bytes 24 8, endStatus := some st }
      (endCmd c.id st (s.core.work.updCmd c.id fun _ => c.advancing)) := by
    have hend : c.advancing.endWith st = { c with phase := .running, aux := bytesAt c.bytes 24 8, endStatus := some st } := by
      simp [Cmd.endWith, Cmd.advancing, hopen]
    rw [← hend]
    exact hstart.trans (turns_updCmd hstart.1 (Cmd.endWith st) (fun _ => rfl) rfl) rfl
  refine ⟨fun hsingle hlow hhigh => ⟨fun hok hlimit hpages => ?move, fun hfault => ?faulted, fun hok hlimit hpages => ?past, fun hok hlimit => ?limit⟩,
    fun hlisted => ?list⟩
  case move =>
    have hst : advanceStatus (fieldAt c.bytes 28 4) (s.core.work.obj (hIndex (fieldAt c.bytes 24 4))) = St.ok := by
      rw [advanceStatus, hok, if_neg (by simp), if_neg (Nat.not_le.mpr hlimit), if_neg (Nat.not_lt.mpr hpages)]
    refine does_cmd rfl h hr ?_
    rw [streamAdvanceOp_by hn hmirror hsingle hlow hhigh hst, if_pos rfl]
    obtain ⟨hobj, hobjs⟩ := moved_obj c (s.core.work.updCmd c.id fun _ => c.advancing)
    exact header_turns c.id hact hobj hobjs rfl rfl
      (hstart.trans (turns_updCmd hstart.1 (fun d => { d with auxNat := 2, writesLeft := 1 }) (fun _ => rfl) rfl) rfl) rfl
  case limit =>
    have hst : advanceStatus (fieldAt c.bytes 28 4) (s.core.work.obj (hIndex (fieldAt c.bytes 24 4))) = St.streamLimit := by
      rw [advanceStatus, hok, if_neg (by simp), if_pos hlimit]
    refine does_cmd rfl h hr ?_
    rw [streamAdvanceOp_by hn hmirror hsingle hlow hhigh hst, if_neg (by decide), if_pos rfl]
    obtain ⟨hobj, hobjs⟩ := limited_obj c (s.core.work.updCmd c.id fun _ => c.advancing)
    exact header_turns c.id hact hobj hobjs rfl rfl
      (hstart.trans (turns_updCmd hstart.1 (fun d => { d with auxNat := 3, writesLeft := 1, badStatus := St.streamLimit }) (fun _ => rfl) rfl) rfl) rfl
  case faulted =>
    have hst : advanceStatus (fieldAt c.bytes 28 4) (s.core.work.obj (hIndex (fieldAt c.bytes 24 4))) = St.stateReject := by
      rw [advanceStatus, hfault, if_pos rfl]
    refine does_cmd rfl h hr ?_
    rw [streamAdvanceOp_by hn hmirror hsingle hlow hhigh hst, if_neg (by decide), if_neg (by decide)]
    exact ⟨hends _, rfl⟩
  case past =>
    have hst : advanceStatus (fieldAt c.bytes 28 4) (s.core.work.obj (hIndex (fieldAt c.bytes 24 4))) = St.objRange := by
      rw [advanceStatus, hok, if_neg (by simp), if_neg (Nat.not_le.mpr hlimit), if_pos hpages]
    refine does_cmd rfl h hr ?_
    rw [streamAdvanceOp_by hn hmirror hsingle hlow hhigh hst, if_neg (by decide), if_neg (by decide)]
    exact ⟨hends _, rfl⟩
  case list =>
    refine does_cmd rfl h hr ?_
    rw [streamAdvanceOp_listed hn hmirror hlisted]
    obtain ⟨hasks, hframe⟩ := readFor_issues (e := s.core) (v := s.core.work.updCmd c.id fun d => { d with phase := .running, aux := [] })
      (a := ptrAddr (fieldAt c.bytes 40 8)) (len := 8 * fieldAt c.bytes 32 2) (why := .advanceList c.id)
      (s := some n) (mayIssue_active (w := s.core.work.updCmd c.id fun d => { d with phase := .running, aux := [] }) hact (ptrDev (fieldAt c.bytes 40 8)))
    have hturn := updCmd_turns hr.cmd_eq (fun d => { d with phase := .running, aux := [] }) fun _ => rfl
    exact ⟨hasks, hturn.of_cmds (congrArg Work.cmds hframe :),
      (congrArg (fun x : Work => { x with fab := s.core.work.fab, cmds := s.core.work.cmds }) hframe :)⟩

end Sys2Proof.Machine

end

-- Proofs about releases and table entries (R166, R171, R227, R322).
section

namespace Sys2Proof.Machine

/-! ### Release (R166, R171, R276, R322) -/

section

variable {e : Block} {w v : Work} {c : Cmd} {n i : Nat}

/-- A command of a slice that has been released, before it takes what it need not wait for. -/
def released (e : Block) (c : Cmd) (n : Nat) (w : Work) : Work :=
  let w' := { w.updCmd c.id fun d => { d with
      phase := .released, relOrder := w.nextOrder, waitDone := true, slotTaken := needsSlot w c, waiting := .none,
      relSlot := c.slice.bind fun s => w.counterAt s c.ctx (fieldAt c.bytes 24 2) } with nextOrder := w.nextOrder + 1 }
  chargeCmd e n (match c.parent with
    | some entry => w'.updRun entry fun r => { r with started := true }
    | none => w')

theorem runs_started (w : Work) (parent : Option Nat) :
    (match parent with
      | some entry => w.updRun entry fun r => { r with started := true }
      | none => w) = { w with runs := w.runs.map fun r => if parent = some r.entry then { r with started := true } else r } := by
  cases parent with
  | none => simp
  | some entry =>
    simp only [Work.updRun, Option.some.injEq, eq_comm (a := entry)]

theorem released_releases (hc : w.cmd c.id = some c) (hn : c.slice = some n) : Releases e w c n (released e c n w) := by
  unfold released
  dsimp only
  rw [runs_started, hn]
  have hturn := updCmd_turns hc (fun d => { d with
      phase := .released, relOrder := w.nextOrder, waitDone := true, slotTaken := needsSlot w c, waiting := .none,
      relSlot := w.counterAt n c.ctx (fieldAt c.bytes 24 2) }) fun _ => rfl
  refine ⟨hturn.of_cmds rfl, rfl, rfl, fun h => ?_, fun h => ?_, fun k hk => slice_updSlice_other _ _ _ _ hk, rfl⟩
  · rw [chargeCmd, slice_updSlice, chargeLevel, if_pos h]
    rfl
  · rw [chargeCmd, slice_updSlice, chargeLevel, if_neg h]
    rfl

/-- A command that nothing holds back is released, and then takes what it need not wait for. -/
theorem doRelease_goes (hn : c.slice = some n) (hmay : mayRelease w c = true) (hopen : cmdShut e w c = false)
    (hslot : needsSlot w c = false ∨ slotFree w n = true) :
    doRelease e c w = if needsSlot w c then released e c n w else passWait c (released e c n w) := by
  have hcond : (mayRelease w c && !cmdShut e w c && (!needsSlot w c || c.slice.any (slotFree w))) = true := by
    rcases hslot with hslot | hslot <;> simp [hmay, hopen, hn, hslot]
  unfold doRelease released
  rw [if_pos hcond, hn]
  rfl

theorem mayRelease_of (hn : c.slice = some n) (hstate : (w.slice n).state = .active ∨ (w.slice n).state = .draining)
    (hres : w.isResident n c.ctx = true) (hstop : (w.ctx n c.ctx).stopped = false) (hreset : sliceInReset w n = false) : mayRelease w c = true := by
  have hruns : (w.slice n).runs = true := by rcases hstate with h | h <;> simp [Slice.runs, h]
  rw [mayRelease, hn]
  simp only [hruns, hres, hstop, hreset]
  rfl

theorem cmdShut_open (hn : c.slice = some n) (hlevel : e.dct.cmdLimit n = 0 ∨ 0 < (w.slice n).lvlCmd) : cmdShut e w c = false := by
  rw [cmdShut, hn]
  dsimp only
  rw [levelShut]
  rcases hlevel with h | h
  · simp [h]
  · simp [Int.not_le.mpr h]

theorem waitOver (h : cWait c.bytes = false ∨ c.waitDone = true) : (!cWait c.bytes || c.waitDone) = true := by
  rcases h with h | h <;> simp [h]

/-- A command that finds no watch slot for its wait holds in place (R322). -/
theorem doRelease_holds (hn : c.slice = some n) (hneeds : needsSlot w c = true) (hfull : slotFree w n = false) : doRelease e c w = w := by
  have hcond : ¬(mayRelease w c && !cmdShut e w c && (!needsSlot w c || c.slice.any (slotFree w))) = true := by simp [hneeds, hn, hfull]
  unfold doRelease
  exact if_neg hcond

/-- A command that has not ended and is no blocked node ends with its status alone. -/
theorem endWith_open {st : Status} (hend : c.endStatus = none) (hphase : c.phase ≠ .blocked) :
    c.endWith st = { c with endStatus := some st } := by
  simp [Cmd.endWith, hend, hphase]

theorem passWait_other (h : c.op ≠ some .semAcquire ∧ ¬(c.op = some .counterOp ∧ fieldAt c.bytes 27 1 = 3)) : passWait c w = w := by
  obtain ⟨hacquire, hcounter⟩ := h
  unfold passWait
  split
  next hop => exact absurd hop hacquire
  next hop => exact if_neg fun hge => hcounter ⟨hop, hge⟩
  next => rfl

/-- What a fetched command that nothing else holds is looked at for: its fence wait (R166). -/
theorem releaseCmd_looks (hc : w.cmd c.id = some c) (hn : c.slice = some n) (hphase : c.phase = .fetched) (hend : c.endStatus = none)
    (hsusp : c.suspended = false) (htable : c.waiting ≠ .table) (horder : heldByOrder w c = false) :
    releaseCmd e c.id w =
      if !cWait c.bytes || c.waitDone then doRelease e c w
      else match (w.fence n (cWaitFence c.bytes)).resolve (cWaitValue c.bytes) with
        | some st =>
          if st = St.ok then doRelease e c (w.updCmd c.id fun d => { d with waitDone := true, slotTaken := false }) else w.later (.waited c.id)
        | none => registerWait w c n := by
  have hfree : (!(c.phase == .fetched) || c.endStatus.isSome || c.suspended || c.waiting == .table || heldByOrder w c) = false := by
    simp [hphase, hend, hsusp, htable, horder]
  rw [releaseCmd, hc]
  cases hres : (w.fence n (cWaitFence c.bytes)).resolve (cWaitValue c.bytes) <;>
    simp only [hfree, hn, hres, Bool.false_eq_true, if_false]

/-! ### Table entries (R227) -/

theorem setCached_cached (i : Nat) (w : Work) : entryCached (setCached i true w) i = true := by
  have hcount (on : Bool) : (setCached i on w).tableEntries = w.tableEntries := by
    unfold setCached
    split <;> rfl
  rw [entryCached, hcount, setCached]
  split
  · rw [obj_updObj]
  · exact tblGet_tblSet_same false w.streamCached (i - w.tableEntries) true

/-- What a change of the cache leaves. -/
def CacheOnly (w w' : Work) : Prop :=
  (∀ j, { w'.obj j with cached := (w.obj j).cached } = w.obj j) ∧
  { w' with objs := w.objs, streamCached := w.streamCached, fresh := w.fresh } = w

theorem CacheOnly.trans {u : Work} (h : CacheOnly w v) (h' : CacheOnly v u) : CacheOnly w u :=
  ⟨fun j => (congrArg (fun o : Obj => { o with cached := (w.obj j).cached }) (h'.1 j)).trans (h.1 j),
    (congrArg (fun x : Work => { x with objs := w.objs, streamCached := w.streamCached, fresh := w.fresh }) h'.2).trans h.2⟩

theorem setCached_only (i : Nat) (on : Bool) (w : Work) : CacheOnly w (setCached i on w) := by
  unfold setCached
  split
  · refine ⟨fun j => ?_, rfl⟩
    by_cases hj : j = i
    · rw [hj, obj_updObj]
    · rw [obj_updObj_other _ _ _ _ hj]
  · exact ⟨fun j => rfl, rfl⟩

theorem cacheEntry_caches (i : Nat) (w : Work) : entryCached (cacheEntry i w) i = true ∧ CacheOnly w (cacheEntry i w) := by
  have hevict : ∃ v, CacheOnly w v ∧ cacheEntry i w = setCached i true v := by
    unfold cacheEntry
    dsimp only
    split
    · exact ⟨w, ⟨fun j => rfl, rfl⟩, rfl⟩
    · split
      · exact ⟨_, CacheOnly.trans (v := w.draw.2) ⟨fun j => rfl, rfl⟩ (setCached_only _ _ _), rfl⟩
      · exact ⟨w, ⟨fun j => rfl, rfl⟩, rfl⟩
  obtain ⟨v, hv, heq⟩ := hevict
  rw [heq]
  exact ⟨setCached_cached i v, hv.trans (setCached_only i true v)⟩

/-- A table entry that arrives for no command that waits enters the cache. -/
theorem entryLoaded_ok {r : Req} {data : List Byte} (hreq : w.fab.reqs.find? (fun q => q.why == .objEntry i) = some r)
    (hans : r.answer = some (St.ok, data)) (hnone : ∀ c ∈ w.cmds, needsEntry w c i = false) : entryLoaded e i w = cacheEntry i (w.dropReq r.tag) := by
  have hwait : ((w.dropReq r.tag).cmds.filter fun c => needsEntry (w.dropReq r.tag) c i) = [] :=
    List.filter_eq_nil_iff.mpr fun c hc h => by
      have hno : needsEntry (w.dropReq r.tag) c i = false := hnone c hc
      rw [hno] at h
      cases h
  unfold entryLoaded
  rw [hreq]
  dsimp only
  rw [hans]
  dsimp only
  rw [if_pos rfl, hwait]
  rfl

end

/-- Settles O13: a fetched command is looked at for its fence wait first, and released only where nothing holds it. -/
theorem releaseOfCommands : Obligations.ReleaseOfCommands := by
  refine ⟨fun s c n h hc hn hphase hend hsusp htable horder => ⟨fun hwait hstate hres hstop hreset hlevel hslot => ⟨fun hpass => ?released,
    fun hneeds hop => ?acquired, fun hneeds hop hge => ?counted⟩, fun hwait hneeds hfull => ?held, fun st hwait hdone hst hresolve => ?late,
    fun hwait hdone hresolve htaken hfree hwalk => ?registered⟩,
    fun b c n st hc hn hphase hend hsusp hst hresolve => ?waited, fun s i r data h hreq hans hnone => ?entry⟩
  case released =>
    refine does_of rfl h ?_
    rw [releaseCmd_looks hc hn hphase hend hsusp htable horder, if_pos (waitOver hwait),
      doRelease_goes hn (mayRelease_of hn hstate hres hstop hreset) (cmdShut_open hn hlevel) hslot]
    have hreleased := released_releases (e := s.core) hc hn
    split
    · exact hreleased
    next hneeds =>
      rw [passWait_other (hpass.resolve_left hneeds)]
      exact hreleased
  case acquired =>
    refine does_of rfl h ?_
    rw [releaseCmd_looks hc hn hphase hend hsusp htable horder, if_pos (waitOver hwait),
      doRelease_goes hn (mayRelease_of hn hstate hres hstop hreset) (cmdShut_open hn hlevel) hslot, if_neg (by simp [hneeds])]
    refine ⟨_, released_releases hc hn, ?_⟩
    rw [passWait, hop]
  case counted =>
    refine does_of rfl h ?_
    rw [releaseCmd_looks hc hn hphase hend hsusp htable horder, if_pos (waitOver hwait),
      doRelease_goes hn (mayRelease_of hn hstate hres hstop hreset) (cmdShut_open hn hlevel) hslot, if_neg (by simp [hneeds])]
    have hreleased := released_releases (e := s.core) hc hn
    obtain ⟨⟨hturn, -⟩, -⟩ := id hreleased
    refine ⟨_, hreleased, ?_⟩
    generalize released s.core c n s.core.work = v at hturn ⊢
    have hpass : passWait c v = endCmd c.id St.ok v := by
      rw [passWait, hop]
      exact if_pos hge
    rw [hpass]
    refine ⟨?_, fun j hj => cmd_updCmd_other _ _ _ _ (fun _ => rfl) hj, rfl⟩
    rw [endCmd, cmd_updCmd v c.id (Cmd.endWith St.ok) fun _ => rfl, hturn]
    simp [Cmd.endWith, hend]
  case held =>
    refine leaves_of rfl h ?_
    rw [releaseCmd_looks hc hn hphase hend hsusp htable horder, if_pos (waitOver hwait), doRelease_holds hn hneeds hfull]
  case late =>
    refine does_of rfl h ?_
    rw [releaseCmd_looks hc hn hphase hend hsusp htable horder, if_neg (by simp [hwait, hdone]), hresolve]
    exact if_neg hst
  case registered =>
    refine does_of rfl h ?_
    rw [releaseCmd_looks hc hn hphase hend hsusp htable horder, if_neg (by simp [hwait, hdone]), hresolve]
    dsimp only
    rw [registerWait, if_neg (by simp [htaken, hfree])]
    dsimp only
    rw [hwalk]
    exact ⟨updCmd_turns hc (fun d => { d with slotTaken := true }) fun _ => rfl, rfl⟩
  case waited =>
    refine ⟨_, ?_, rfl⟩
    have hfree : (!(c.phase == .fetched) || c.endStatus.isSome || c.suspended) = false := by simp [hphase, hend, hsusp]
    rw [waitedLate, hc]
    simp only [hfree, hn, Option.bind_some, hresolve, if_neg hst, Bool.false_eq_true, if_false]
    have hturn := updCmd_turns hc (Cmd.endWith st) fun _ => rfl
    rw [endWith_open hend (by simp [hphase])] at hturn
    exact ⟨hturn, rfl⟩
  case entry =>
    refine does_of rfl h ?_
    rw [entryLoaded_ok hreq hans hnone]
    obtain ⟨hcached, hobjs, hframe⟩ := cacheEntry_caches i (s.core.work.dropReq r.tag)
    refine ⟨hcached, hobjs, (congrArg Work.fab hframe :), ?_⟩
    exact (congrArg (fun x : Work => { x with fab := s.core.work.fab }) hframe :)

end Sys2Proof.Machine

end

-- Proofs about dirty logging (R596 to R603).
section

namespace Sys2Proof.Machine

/-! ### Dirty logging (R596 to R603) -/

section

variable {e : Block} {w v : Work} {c : Cmd}

/-! #### Writes and operations of the physical function -/

theorem put_reqs (r : Req) (f : Fabric) : (f.put r).reqs = f.reqs ++ [r] := by
  unfold Fabric.put
  exact foldl_keeps Fabric.reqs (fun f p => sendPart_reqs r f p) _ _

/-- What the physical function issues changes the port alone: it marks no dirty log (R599). -/
theorem issueRaw_function (e : Block) (r : Req) (w : Work) :
    ∃ f r', issueRaw e none r w = { w with fab := f } ∧ f.reqs = w.fab.reqs ++ [r'] ∧
    r'.why = r.why ∧ r'.op = r.op ∧ r'.amo = r.amo ∧ r'.dev = r.dev ∧ r'.len = r.len ∧ r'.addr = r.addr ∧ r'.data = r.data := by
  have hmark (held : Bool) (q : Req) (hq : q.owner = none) : markSent e held q w = w := by
    unfold markSent markDirty
    rw [hq]
    split <;> rfl
  unfold issueRaw
  dsimp only
  rw [hmark _ _ rfl]
  exact ⟨_, _, rfl, put_reqs _ _, rfl, rfl, rfl, rfl, rfl, rfl, rfl⟩

theorem writeFor_function (e : Block) (dev : Bool) (a : Nat) (data : List Byte) (why : Purpose) (w : Work) :
    ∃ f, writeFor e none dev a data why w = { w with fab := f } := by
  obtain ⟨f, -, hf, -⟩ := issueRaw_function e (newReq .write dev (spaceAddr e dev a) data.length data why) w
  exact ⟨f, hf⟩

theorem imageWriteFor_writes {d : Cmd} (dev : Bool) (a : Nat) (data : List Byte) (hd : w.cmd d.id = some d) :
    let w' := imageWriteFor e d.id dev a data w
    Asks w none .write dev (spaceAddr e dev a) data.length data (.imageWrite d.id) w' ∧
    Turns w d { d with writesLeft := d.writesLeft + 1 } w' ∧ { w' with fab := w.fab, cmds := w.cmds } = w := by
  have hturn := updCmd_turns hd (fun d => { d with writesLeft := d.writesLeft + 1 }) fun _ => rfl
  have hasks : Asks (w.updCmd d.id fun d => { d with writesLeft := d.writesLeft + 1 }) none .write dev (spaceAddr e dev a) data.length data
    (.imageWrite d.id) (imageWriteFor e d.id dev a data w) := writeFor_asks rfl
  refine ⟨hasks.congr rfl (fun _ h => nomatch h), ?_⟩
  rw [imageWriteFor]
  obtain ⟨f, hf⟩ := writeFor_function e dev a data (.imageWrite d.id) (w.updCmd d.id fun d => { d with writesLeft := d.writesLeft + 1 })
  rw [hf]
  exact ⟨hturn.of_cmds rfl, rfl⟩

/-! #### The marks of a log (R597, R602) -/

/-- A log without its marks of some words. -/
def DirtyLog.without (l : DirtyLog) (ks : List Nat) : DirtyLog := { l with bits := l.bits.filter fun p => !ks.contains (p.1 / 64) }

theorem without_nil (l : DirtyLog) : l.without [] = l := by simp [DirtyLog.without]

theorem clearWord_without (l : DirtyLog) (k : Nat) (ks : List Nat) : (l.clearWord k).without ks = l.without (k :: ks) := by
  simp only [DirtyLog.without, DirtyLog.clearWord, List.filter_filter]
  congr 1
  refine List.filter_congr fun p _ => ?_
  rw [List.contains_cons, Bool.not_or, Bool.and_comm]

theorem without_words (l : DirtyLog) : l.without ((l.bits.map fun p => p.1 / 64).dedup) = { l with bits := [] } := by
  unfold DirtyLog.without
  congr 1
  refine List.filter_eq_nil_iff.mpr fun p hp h => ?_
  have hin : p.1 / 64 ∈ (l.bits.map fun p => p.1 / 64).dedup := List.mem_dedup.mpr (List.mem_map.mpr ⟨p, hp, rfl⟩)
  rw [List.contains_iff_mem.mpr hin] at h
  cases h

theorem clearWord_clean {l : DirtyLog} (h : l.bits = []) (k : Nat) : l.clearWord k = l := by
  obtain ⟨on, base, len, map, bits, outside, seq⟩ := l
  obtain rfl : bits = [] := h
  rfl

/-- An operation on a word of a map. -/
theorem mapAmo_puts (e : Block) (c : Cmd) (host : Bool) (k : Nat) (fn : BitVec 4) (x : Nat) (w : Work) :
    ∃ f r, mapAmo e c host k fn x w = { w with fab := f } ∧ f.reqs = w.fab.reqs ++ [r] ∧
      r.why = .mapWord c.id ∧ r.op = .amo ∧ r.amo = fn ∧ r.dev = true ∧ r.len = 8 ∧
      r.addr = BitVec.ofNat 64 (spaceAddr e true (((w.slice (logSlice c)).log host).map + 8 * k)) ∧ r.data = leBytes 8 x := by
  unfold mapAmo
  dsimp only
  generalize spaceAddr e true (((w.slice (logSlice c)).log host).map + 8 * k) = a
  generalize leBytes 8 x = data
  exact issueRaw_function e { newReq .amo true a 8 data (.mapWord c.id) with amo := fn } w

theorem mapAmo_asks (e : Block) (c : Cmd) (host : Bool) (k : Nat) (x : Nat) (w : Work) :
    Asks w none .amo true (spaceAddr e true (((w.slice (logSlice c)).log host).map + 8 * k)) 8 (leBytes 8 x) (.mapWord c.id)
      (mapAmo e c host k 0 x w) := by
  unfold mapAmo
  dsimp only
  generalize spaceAddr e true (((w.slice (logSlice c)).log host).map + 8 * k) = a
  generalize leBytes 8 x = data
  exact issue_asks (op := .amo) (dev := true) (a := a) (len := 8) (data := data) (why := .mapWord c.id) (mayIssue_open (s := none) (fun _ h => nomatch h) true)

/-- A command with one write more to be answered. -/
def Cmd.writing (d : Cmd) : Cmd := { d with writesLeft := d.writesLeft + 1 }

/-- The OR of one word of a host log's marks into the map, which leaves the block's marks of that word (R602). -/
def flushWord (e : Block) (c : Cmd) (l : DirtyLog) (w : Work) (k : Nat) : Work :=
  mapAmo e c true k 3 (l.word k) ((w.updCmd c.id Cmd.writing).updSlice (logSlice c) fun x =>
    x.updLog true fun y => y.clearWord k)

theorem flushLog_host (e : Block) (c : Cmd) (w : Work) :
    flushLog e c true w = (((w.slice (logSlice c)).hostLog.bits.map fun p => p.1 / 64).dedup).foldl
      (flushWord e c (w.slice (logSlice c)).hostLog) w := rfl

/-- What flushing words does, one after another. -/
structure Flushed (e : Block) (c : Cmd) (l : DirtyLog) (ks : List Nat) (w w' : Work) : Prop where
  slice : w'.slice (logSlice c) = { w.slice (logSlice c) with hostLog := (w.slice (logSlice c)).hostLog.without ks }
  others : ∀ k, k ≠ logSlice c → w'.slice k = w.slice k
  reqs : ∃ rs, w'.fab.reqs = w.fab.reqs ++ rs ∧ rs.length = ks.length ∧
    ∀ k ∈ ks, ∃ r ∈ rs, r.why = .mapWord c.id ∧ r.op = .amo ∧ r.amo = 3 ∧ r.dev = true ∧ r.len = 8 ∧
      r.addr = BitVec.ofNat 64 (spaceAddr e true ((w.slice (logSlice c)).hostLog.map + 8 * k)) ∧ r.data = leBytes 8 (l.word k)
  turn : ∀ d, d.id = c.id → w.cmd c.id = some d → w'.cmd c.id = some { d with writesLeft := d.writesLeft + ks.length }
  cmds : ∀ j, j ≠ c.id → w'.cmd j = w.cmd j
  frame : { w' with fab := w.fab, cmds := w.cmds, slices := w.slices } = w

theorem flushWord_flushed (e : Block) (c : Cmd) (l : DirtyLog) (w : Work) (k : Nat) : Flushed e c l [k] w (flushWord e c l w k) := by
  unfold flushWord
  generalize hv : (w.updCmd c.id Cmd.writing).updSlice (logSlice c) (fun x => x.updLog true fun y => y.clearWord k) = v
  have hown : v.slice (logSlice c) = { w.slice (logSlice c) with hostLog := (w.slice (logSlice c)).hostLog.without [k] } := by
    rw [← hv, slice_updSlice, ← clearWord_without, without_nil]
    rfl
  have hothers (j : Nat) (hj : j ≠ logSlice c) : v.slice j = w.slice j := by rw [← hv, slice_updSlice_other _ _ _ _ hj]; rfl
  have hcmds : v.cmds = (w.updCmd c.id Cmd.writing).cmds := by rw [← hv]; rfl
  have hfab : v.fab = w.fab := by rw [← hv]; rfl
  have hrest : { v with cmds := w.cmds, slices := w.slices } = w := by rw [← hv]; rfl
  have hmap : ((v.slice (logSlice c)).log true).map = (w.slice (logSlice c)).hostLog.map := by rw [hown]; rfl
  obtain ⟨f, r, heq, hreqs, hr⟩ := mapAmo_puts e c true k 3 (l.word k) v
  rw [hmap] at hr
  rw [heq]
  refine ⟨hown, hothers, ⟨[r], ?_, rfl, fun j hj => ?_⟩, fun d hid hd => ?_, fun j hj => ?_, ?_⟩
  · exact hreqs.trans (by rw [hfab])
  · obtain rfl := List.mem_singleton.mp hj
    exact ⟨r, List.mem_singleton_self r, hr⟩
  · refine (cmd_congr hcmds _).trans ?_
    rw [cmd_updCmd w c.id Cmd.writing fun _ => rfl, hd]
    rfl
  · refine (cmd_congr hcmds _).trans ?_
    rw [cmd_updCmd_other w c.id j Cmd.writing (fun _ => rfl) hj]
  · exact (congrArg (fun x : Work => { x with fab := w.fab }) hrest :)

theorem flush_flushed (e : Block) (c : Cmd) (l : DirtyLog) (ks : List Nat) (w : Work) :
    Flushed e c l ks w (ks.foldl (flushWord e c l) w) := by
  induction ks generalizing w with
  | nil =>
    refine ⟨?_, fun _ _ => rfl, ⟨[], (List.append_nil _).symm, rfl, fun k hk => nomatch hk⟩, fun d _ hd => hd, fun _ _ => rfl, rfl⟩
    rw [without_nil]
    rfl
  | cons k ks ih =>
    have hk := flushWord_flushed e c l w k
    have hks := ih (flushWord e c l w k)
    rw [List.foldl_cons]
    generalize flushWord e c l w k = v at hk hks ⊢
    generalize ks.foldl (flushWord e c l) v = u at hks ⊢
    obtain ⟨rs, hreqs, hlen, hall⟩ := hk.reqs
    obtain ⟨rs', hreqs', hlen', hall'⟩ := hks.reqs
    have hmap : (v.slice (logSlice c)).hostLog.map = (w.slice (logSlice c)).hostLog.map := by rw [hk.slice]; rfl
    refine ⟨?_, fun j hj => (hks.others j hj).trans (hk.others j hj), ⟨rs ++ rs', ?_, ?_, fun j hj => ?_⟩, fun d hid hd => ?_,
      fun j hj => (hks.cmds j hj).trans (hk.cmds j hj), ?_⟩
    · rw [hks.slice, hk.slice]
      dsimp only
      rw [← clearWord_without, ← clearWord_without, without_nil]
    · rw [hreqs', hreqs, List.append_assoc]
    · rw [List.length_append, hlen, hlen', List.length_singleton, List.length_cons, Nat.add_comm]
    · rcases List.mem_cons.mp hj with rfl | hj
      · obtain ⟨r, hr, hfields⟩ := hall j (List.mem_singleton_self j)
        exact ⟨r, List.mem_append_left _ hr, hfields⟩
      · obtain ⟨r, hr, hfields⟩ := hall' j hj
        rw [hmap] at hfields
        exact ⟨r, List.mem_append_right _ hr, hfields⟩
    · rw [hks.turn { d with writesLeft := d.writesLeft + 1 } hid (hk.turn d hid hd), List.length_cons, Nat.add_assoc, Nat.add_comm 1]
    · exact (congrArg (fun x : Work => { x with fab := w.fab, cmds := w.cmds, slices := w.slices }) hks.frame :).trans hk.frame

/-! #### The operations (R598, R602, R603) -/

theorem logsAre_iff {on : Bool} : logsAre on c w = true ↔ (w.slice (logSlice c)).state ≠ .off ∧
    (logHost c = true → (w.slice (logSlice c)).hostLog.on = on) ∧ (logDev c = true → (w.slice (logSlice c)).devLog.on = on) := by
  unfold logsAre
  cases logHost c <;> cases logDev c <;> simp [bne_iff_ne, and_assoc]

/-- A selected log that is not as its operation requires, or a slice that is OFF. -/
theorem logsAre_not {on : Bool} (h : (w.slice (logSlice c)).state = .off ∨ logHost c = true ∧ (w.slice (logSlice c)).hostLog.on = !on ∨
    logDev c = true ∧ (w.slice (logSlice c)).devLog.on = !on) : logsAre on c w = false := by
  rw [← Bool.not_eq_true, logsAre_iff]
  rintro ⟨hstate, hhost, hdev⟩
  rcases h with hoff | ⟨hsel, hon⟩ | ⟨hsel, hon⟩
  · exact hstate hoff
  · rw [hhost hsel] at hon
    cases on <;> cases hon
  · rw [hdev hsel] at hon
    cases on <;> cases hon

/-- A host log's marks of a word that the block holds none of are zero. -/
theorem word_clean {l : DirtyLog} (h : l.bits = []) (k : Nat) : l.word k = 0 := by simp [DirtyLog.word, h]

/-- The first word of a host map that a HARVEST takes (R602 step 2). -/
theorem takeWord_first (hc : w.cmd c.id = some c) (haux : c.aux = []) (hhost : logHost c = true) (hdev : logDev c = false)
    (hbits : (w.slice (logSlice c)).hostLog.bits = []) (hlen : 2 ^ 18 ≤ (w.slice (logSlice c)).hostLog.len) :
    let w' := takeWord e c.id w
    Asks w none .amo true (spaceAddr e true (w.slice (logSlice c)).hostLog.map) 8 (List.replicate 8 0) (.mapWord c.id) w' ∧
    (∀ k, w'.slice k = w.slice k) ∧ Turns w c { c with auxNat := 1, aux := List.replicate 8 0 } w' ∧
    { w' with fab := w.fab, cmds := w.cmds, slices := w.slices } = w := by
  have hwords : (harvestWords e c w)[c.aux.length / 8]? = some (true, 0) := by
    have hmany : 0 < hostMapBytes (w.slice (logSlice c)).hostLog.len / 8 := by
      unfold hostMapBytes
      omega
    rw [haux, harvestWords, hhost, hdev]
    simp [hmany]
  have hturn := updCmd_turns hc (fun d => { d with auxNat := 1, aux := d.aux ++ leBytes 8 (((w.slice (logSlice c)).log true).word 0) }) fun _ => rfl
  have hclean : ((w.slice (logSlice c)).log true).bits = [] := hbits
  dsimp only
  rw [takeWord, hc]
  simp only [hwords]
  rw [word_clean hclean] at hturn ⊢
  generalize hv : (w.updCmd c.id fun d => { d with auxNat := 1, aux := d.aux ++ leBytes 8 0 }).updSlice (logSlice c)
    (fun x => x.updLog true fun y => y.clearWord 0) = v
  have hslice (k : Nat) : v.slice k = w.slice k := by
    rw [← hv]
    by_cases hk : k = logSlice c
    · have hlog : (w.slice (logSlice c)).updLog true (fun y => y.clearWord 0) = w.slice (logSlice c) := by
        change { w.slice (logSlice c) with hostLog := (w.slice (logSlice c)).hostLog.clearWord 0 } = _
        rw [clearWord_clean hbits]
      rw [hk, slice_updSlice]
      exact hlog
    · rw [slice_updSlice_other _ _ _ _ hk]
      rfl
  have hvcmds : v.cmds = (w.updCmd c.id fun d => { d with auxNat := 1, aux := d.aux ++ leBytes 8 0 }).cmds := by rw [← hv]; rfl
  have hrest : { v with cmds := w.cmds, slices := w.slices } = w := by rw [← hv]; rfl
  have hasks := mapAmo_asks e c true 0 0 v
  obtain ⟨f, r, heq, -⟩ := mapAmo_puts e c true 0 0 0 v
  rw [heq] at hasks ⊢
  rw [haux] at hturn
  refine ⟨?_, hslice, hturn.of_cmds hvcmds, ?_⟩
  · have hfab : v.fab = w.fab := by rw [← hv]; rfl
    rw [hslice] at hasks
    exact hasks.congr hfab fun _ h => nomatch h
  · exact (congrArg (fun x : Work => { x with fab := w.fab }) hrest :)

/-- The last step of a HARVEST of a host log: its summary and the words that it took (R602 step 3). -/
theorem takeWord_last (hc : w.cmd c.id = some c) (hhost : logHost c = true) (hdev : logDev c = false)
    (hall : c.aux.length = (w.slice (logSlice c)).hostLog.len / 32768) :
    let w' := takeWord e c.id w
    let bytes := harvestBytes (w.slice (logSlice c)).hostLog true c.aux
    Asks w none .write false (ptrAddr (fieldAt c.bytes 32 8)) bytes.length bytes (.imageWrite c.id) w' ∧
    w'.slice (logSlice c) = { w.slice (logSlice c) with hostLog := { (w.slice (logSlice c)).hostLog with
      outside := false, seq := (w.slice (logSlice c)).hostLog.seq + 1 } } ∧
    (∀ k, k ≠ logSlice c → w'.slice k = w.slice k) ∧
    Turns w c { c with auxNat := 2, aux := [], writesLeft := c.writesLeft + 1 } w' := by
  have hwords : (harvestWords e c w)[c.aux.length / 8]? = none := by
    rw [List.getElem?_eq_none_iff, harvestWords, hhost, hdev, hall]
    simp [hostMapBytes]
  have htake : c.aux.take (hostMapBytes (w.slice (logSlice c)).hostLog.len) = c.aux := List.take_of_length_le hall.le
  have hturn := updCmd_turns hc (fun d => { d with auxNat := 2, aux := [] }) fun _ => rfl
  dsimp only
  rw [takeWord, hc]
  simp only [hwords, hhost, hdev, if_true, Bool.false_eq_true, if_false, htake]
  generalize hv : w.updCmd c.id (fun d => { d with auxNat := 2, aux := [] }) = v at hturn ⊢
  have hslices : v.slices = w.slices := by rw [← hv]; rfl
  have hfab : v.fab = w.fab := by rw [← hv]; rfl
  have hlog : (v.slice (logSlice c)).log true = (w.slice (logSlice c)).hostLog := by rw [slice_congr hslices]; rfl
  rw [writeHarvest, hlog]
  generalize harvestBytes (w.slice (logSlice c)).hostLog true c.aux = bytes
  obtain ⟨hasks, hwrites, hframe⟩ := imageWriteFor_writes (e := e) (d := { c with auxNat := 2, aux := [] }) false
    (ptrAddr (fieldAt c.bytes 32 8)) bytes hturn.1
  dsimp only at hasks hwrites hframe
  generalize imageWriteFor e c.id false (ptrAddr (fieldAt c.bytes 32 8)) bytes v = u at hasks hwrites hframe ⊢
  have huslices : u.slices = w.slices := (congrArg Work.slices hframe :).trans hslices
  refine ⟨hasks.congr hfab (fun _ h => nomatch h), ?_, fun k hk => ?_, (hturn.trans hwrites rfl).of_cmds rfl⟩
  · rw [slice_updSlice, slice_congr huslices]
    rfl
  · rw [slice_updSlice_other _ _ _ _ hk, slice_congr huslices]

/-- A state with another's port and commands. -/
def unsent (w v : Work) : Work := { v with fab := w.fab, cmds := w.cmds }

/-- A state with another's port, commands and slices. -/
def unlogged (w v : Work) : Work := { v with fab := w.fab, cmds := w.cmds, slices := w.slices }

/-- A command with one write fewer to be answered. -/
def Cmd.answered (d : Cmd) : Cmd := { d with writesLeft := d.writesLeft - 1 }

/-- The last answer to an ENABLE starts the logs that it selects (R598). -/
theorem imageWriteAnswered_starts (hc : w.cmd c.id = some c) (hop : logOp c = 1) (hdirty : c.op = some .dirtyLog) (hopen :
    c.endStatus = none)
    (hnone : c.answered.writesLeft = 0) (hstate : (w.slice (logSlice c)).state ≠ .off) :
    imageWriteAnswered e c.id St.ok w = endCmd c.id St.ok (logsOn c (w.updCmd c.id Cmd.answered)) := by
  have hcmd : (w.updCmd c.id Cmd.answered).cmd c.id = some c.answered := by
    rw [cmd_updCmd w c.id Cmd.answered fun _ => rfl, hc]
    rfl
  have hover : (c.answered.writesLeft != 0 || c.answered.endStatus.isSome) = false := by
    rw [hnone, show c.answered.endStatus = none from hopen]
    rfl
  have hkind : (c.answered.op == some .dirtyLog) = true := by
    rw [show c.answered.op = some .dirtyLog from hdirty]
    rfl
  have hon : (decide (logOp c.answered = 1) && ((w.updCmd c.id Cmd.answered).slice (logSlice c.answered)).state != .off) = true := by
    rw [show logOp c.answered = 1 from hop]
    exact bne_iff_ne.mpr hstate
  have hanswered : (w.updCmd c.id fun d => { d with writesLeft := d.writesLeft - 1 }) = w.updCmd c.id Cmd.answered := rfl
  unfold imageWriteAnswered
  rw [if_neg (by simp)]
  simp only [hanswered, hcmd, hover, hkind, hon, Bool.false_eq_true, if_false, if_true]
  rfl

/-- A HARVEST begins with nothing taken yet. -/
def Cmd.harvesting (c : Cmd) : Cmd := { c with phase := .running, auxNat := 0, aux := [] }

theorem logHarvest_host (hop : logOp c = 2) (hare : logsAre true c w = true) (hhost : logHost c = true) (hdev : logDev c = false) :
    logHarvest e c w =
      let v := flushLog e c true (w.updCmd c.id Cmd.harvesting)
      if ((v.cmd c.id).map Cmd.writesLeft).getD 0 = 0 then takeWord e c.id v else v := by
  unfold logHarvest
  rw [if_neg (by simp [hop]), if_neg (by simp [hare])]
  simp only [hhost, hdev, if_true, Bool.false_eq_true, if_false]
  rfl

theorem logEnable_host (hop : logOp c = 1) (hare : logsAre false c w = true) (hhost : logHost c = true) (hdev : logDev c = false) :
    logEnable e c w = imageWriteFor e c.id true (fieldAt c.bytes 48 8) (List.replicate (fieldAt c.bytes 40 8 / 32768) 0)
      (w.updCmd c.id fun d => { d with phase := .running }) := by
  unfold logEnable
  rw [if_neg (by simp [hop]), if_neg (by simp [hare])]
  simp only [hhost, hdev, if_true, Bool.false_eq_true, if_false]
  rfl

end

/-- Settles O16: the marks that the block holds go out first, then the words are taken, and the logs change last. -/
theorem dirtyLogging : Obligations.DirtyLogging := by
  refine fun s c h hr => ⟨fun hop hhost hdev hon hoff => ?enable, fun hop hhost hdev hstate hon hleft => ⟨fun hbits hlen => ?first, fun hbits => ?flush⟩,
    fun hop hstate hhost hdev => ?disable, fun hhost hdev hstate => ⟨fun hop hleft => ?started, fun hop hall => ?summary⟩, fun i hi => ?reject⟩
  case enable =>
    refine does_cmd rfl h hr ?_
    have hare : logsAre false c s.core.work = true := logsAre_iff.mpr ⟨hon, fun _ => hoff, fun hsel => by rw [hdev] at hsel; cases hsel⟩
    have hturn := updCmd_turns hr.cmd_eq (fun d => { d with phase := .running }) fun _ => rfl
    rw [logEnable_host hop hare hhost hdev]
    generalize hv : s.core.work.updCmd c.id (fun d => { d with phase := .running }) = v at hturn ⊢
    have hrest : { v with cmds := s.core.work.cmds } = s.core.work := by rw [← hv]; rfl
    obtain ⟨hasks, hwrites, hframe⟩ := imageWriteFor_writes (e := s.core) (d := { c with phase := .running }) true (fieldAt c.bytes 48 8)
      (List.replicate (fieldAt c.bytes 40 8 / 32768) 0) hturn.1
    rw [List.length_replicate] at hasks
    dsimp only at hasks hwrites hframe
    generalize imageWriteFor s.core c.id true _ _ v = u at hasks hwrites hframe ⊢
    refine ⟨hasks.congr (congrArg Work.fab hrest :) (fun _ h => nomatch h), hturn.trans hwrites rfl, ?_⟩
    exact (congrArg (unsent s.core.work) hframe :).trans (congrArg (unsent s.core.work) hrest :)
  case first =>
    refine does_cmd rfl h hr ?_
    have hare : logsAre true c s.core.work = true := logsAre_iff.mpr ⟨hstate, fun _ => hon, fun hsel => by rw [hdev] at hsel; cases hsel⟩
    have hturn := updCmd_turns hr.cmd_eq Cmd.harvesting fun _ => rfl
    rw [logHarvest_host hop hare hhost hdev]
    generalize hv : s.core.work.updCmd c.id Cmd.harvesting = v at hturn ⊢
    have hrest : { v with cmds := s.core.work.cmds } = s.core.work := by rw [← hv]; rfl
    have hslice (k : Nat) : v.slice k = s.core.work.slice k := slice_congr (congrArg Work.slices hrest :) k
    have hflush : flushLog s.core c true v = v := by
      rw [flushLog_host, hslice, hbits]
      rfl
    dsimp only
    rw [hflush, hturn.1, if_pos (by exact hleft)]
    have hfirst := takeWord_first (e := s.core) (c := c.harvesting) (w := v) hturn.1 rfl hhost hdev (by rw [hslice]; exact hbits)
      (by rw [hslice]; exact hlen)
    obtain ⟨hasks, hsame, hword, hframe⟩ := hfirst
    change Asks _ _ _ _ _ _ _ _ (takeWord s.core c.id v) at hasks
    change ∀ k, (takeWord s.core c.id v).slice k = _ at hsame
    change Turns _ _ _ (takeWord s.core c.id v) at hword
    change unlogged v (takeWord s.core c.id v) = v at hframe
    generalize takeWord s.core c.id v = u at hasks hsame hword hframe ⊢
    have hmap : (v.slice (logSlice c.harvesting)).hostLog.map = (s.core.work.slice (logSlice c)).hostLog.map := by rw [hslice]; rfl
    rw [hmap] at hasks
    refine ⟨hasks.congr (congrArg Work.fab hrest :) (fun _ h => nomatch h), fun k => (hsame k).trans (hslice k), hturn.trans hword rfl, ?_⟩
    exact (congrArg (unlogged s.core.work) hframe :).trans (congrArg (unlogged s.core.work) hrest :)
  case flush =>
    refine does_cmd rfl h hr ?_
    have hare : logsAre true c s.core.work = true := logsAre_iff.mpr ⟨hstate, fun _ => hon, fun hsel => by rw [hdev] at hsel; cases hsel⟩
    have hturn := updCmd_turns hr.cmd_eq Cmd.harvesting fun _ => rfl
    rw [logHarvest_host hop hare hhost hdev]
    generalize hv : s.core.work.updCmd c.id Cmd.harvesting = v at hturn ⊢
    have hrest : { v with cmds := s.core.work.cmds } = s.core.work := by rw [← hv]; rfl
    have hslice (k : Nat) : v.slice k = s.core.work.slice k := slice_congr (congrArg Work.slices hrest :) k
    have hfab : v.fab = s.core.work.fab := (congrArg Work.fab hrest :)
    dsimp only
    rw [flushLog_host, hslice]
    have hflushed := flush_flushed s.core c (s.core.work.slice (logSlice c)).hostLog
      (((s.core.work.slice (logSlice c)).hostLog.bits.map fun p => p.1 / 64).dedup) v
    have hsome : (((s.core.work.slice (logSlice c)).hostLog.bits.map fun p => p.1 / 64).dedup).length ≠ 0 := by
      rw [Ne, List.length_eq_zero_iff, List.dedup_eq_nil, List.map_eq_nil_iff]
      exact hbits
    have hclear := without_words (s.core.work.slice (logSlice c)).hostLog
    generalize (((s.core.work.slice (logSlice c)).hostLog.bits.map fun p => p.1 / 64).dedup) = words at hflushed hsome hclear ⊢
    generalize words.foldl _ v = u at hflushed ⊢
    have hcmd := hflushed.turn c.harvesting rfl hturn.1
    obtain ⟨rs, hreqs, hlen, hall⟩ := hflushed.reqs
    have hmap : (v.slice (logSlice c)).hostLog = (s.core.work.slice (logSlice c)).hostLog := by rw [hslice]
    have hleft' : c.harvesting.writesLeft + words.length = words.length := by
      rw [show c.harvesting.writesLeft = 0 from hleft, Nat.zero_add]
    rw [hleft'] at hcmd
    rw [hcmd, if_neg (by exact hsome)]
    refine ⟨?_, fun k hk => (hflushed.others k hk).trans (hslice k), ?_, ?_, fun k hk => ?_, ⟨hcmd, fun j hj => ?_⟩, ?_⟩
    · rw [hflushed.slice, hslice, hclear]
    · rw [hreqs, List.length_append, hlen, hfab]
    · rw [hreqs, hfab, List.take_left]
    · obtain ⟨r, hr, hfields⟩ := hall k hk
      rw [hmap] at hfields
      exact ⟨r, by rw [hreqs]; exact List.mem_append_right _ hr, hfields⟩
    · rw [hflushed.cmds j hj, hturn.2 j hj]
    · exact (congrArg (unlogged s.core.work) hflushed.frame :).trans (congrArg (unlogged s.core.work) hrest :)
  case disable =>
    refine does_cmd rfl h hr ?_
    have hare : logsAre true c s.core.work = true := logsAre_iff.mpr ⟨hstate, hhost, hdev⟩
    rw [logDisable, if_neg (by simp [hop]), if_neg (by simp [hare])]
    refine ⟨fun hsel => ?_, fun hsel => ?_, fun hsel => ?_, fun hsel => ?_, ?_, fun k hk => ?_, ends_of_cmds hr St.ok rfl, rfl⟩
    · rw [slice_endCmd, slice_updSlice]
      exact if_pos hsel
    · rw [slice_endCmd, slice_updSlice]
      exact if_pos hsel
    · rw [slice_endCmd, slice_updSlice]
      exact if_neg (by simp [hsel])
    · rw [slice_endCmd, slice_updSlice]
      exact if_neg (by simp [hsel])
    · rw [slice_endCmd, slice_updSlice]
    · rw [slice_endCmd, slice_updSlice_other _ _ _ _ hk]
  case started =>
    obtain ⟨-, hphase, hdirty, hopen, -⟩ := id hr
    have hturn := updCmd_turns hr.cmd_eq Cmd.answered fun _ => rfl
    have hnone : c.answered.writesLeft = 0 := by
      change c.writesLeft - 1 = 0
      rw [hleft]
    dsimp only
    rw [imageWriteAnswered_starts hr.cmd_eq hop hdirty hopen hnone hstate]
    generalize hv : s.core.work.updCmd c.id Cmd.answered = v at hturn ⊢
    have hslice (k : Nat) : v.slice k = s.core.work.slice k := by rw [← hv]; rfl
    have hends := hturn.trans (turns_updCmd (v := logsOn c v) hturn.1 (Cmd.endWith St.ok) (fun _ => rfl) rfl) rfl
    rw [endWith_open (c := c.answered) hopen (by rw [show c.answered.phase = .released from hphase]; simp)] at hends
    refine ⟨?_, fun k hk => ?_, ?_⟩
    · rw [slice_endCmd, logsOn, slice_updSlice, hslice]
      simp only [hhost, hdev, if_true, Bool.false_eq_true, if_false]
    · rw [slice_endCmd, logsOn, slice_updSlice_other _ _ _ _ hk, hslice]
    · have hcmd : { c.answered with endStatus := some St.ok } = { c with writesLeft := 0, endStatus := some St.ok } := by
        rw [Cmd.answered, hleft]
      rw [← hcmd]
      exact hends
  case summary => exact takeWord_last hr.cmd_eq hhost hdev hall
  case reject =>
    rcases hi with ⟨rfl, hop, hbad⟩ | ⟨⟨rfl, hop⟩ | ⟨rfl, hop⟩, hbad⟩
    · refine does_just rfl h hr ?_
      rw [logEnable, if_neg (by simp [hop]), if_pos (by rw [logsAre_not hbad]; rfl)]
    · refine does_just rfl h hr ?_
      rw [logHarvest, if_neg (by simp [hop]), if_pos (by rw [logsAre_not hbad]; rfl)]
    · refine does_just rfl h hr ?_
      rw [logDisable, if_neg (by simp [hop]), if_pos (by rw [logsAre_not hbad]; rfl)]

end Sys2Proof.Machine

end

-- Proofs about the frame and its barriers (R514, R523, R529, R535 to R542).
section

namespace Sys2Proof.Machine

/-! ### The frame and its barriers (R514, R523, R529, R535 to R542) -/

section

variable {b b' : Block} {i : Nat}

/-! #### Fields of a message -/

theorem leNat_lt (bs : List Byte) : leNat bs < 256 ^ bs.length := by
  induction bs with
  | nil => exact Nat.one_pos
  | cons x bs ih =>
    rw [leNat, List.length_cons, Nat.pow_succ]
    have hx := x.isLt
    omega

theorem fieldAt_lt (bs : List Byte) (off n : Nat) : fieldAt bs off n < 256 ^ n := by
  have h := leNat_lt (bytesAt bs off n)
  rwa [length_bytesAt] at h

/-- A status in a message is OK where its two bytes are zero alone. -/
theorem status_ok_iff (bs : List Byte) (off : Nat) : (BitVec.ofNat 16 (fieldAt bs off 2) : Status) = St.ok ↔ fieldAt bs off 2 = 0 := by
  have hlt := fieldAt_lt bs off 2
  rw [← BitVec.toNat_inj, BitVec.toNat_ofNat, Nat.mod_eq_of_lt (by exact hlt)]
  rfl

/-! #### Arrivals (R535) -/

/-- Arrivals end one after another: each that has not ended ends with the status. -/
theorem foldl_endCmd {st : Status} (ids : List Nat) (w : Work) {id : Nat} {d : Cmd} (h : w.cmd id = some d)
    (hend : id ∈ ids ∧ d.endStatus = none ∨ d.endStatus = some st) :
    ((ids.foldl (fun w id => endCmd id st w) w).cmd id).bind Cmd.endStatus = some st := by
  induction ids generalizing w d with
  | nil =>
    obtain ⟨hin, -⟩ | hend := hend
    · cases hin
    · rw [List.foldl_nil, h]
      exact hend
  | cons k ids ih =>
    rw [List.foldl_cons]
    by_cases hk : id = k
    · subst hk
      have hcmd : (endCmd id st w).cmd id = some (d.endWith st) := by
        rw [endCmd, cmd_updCmd w id (Cmd.endWith st) fun _ => rfl, h]
        rfl
      refine ih _ hcmd (.inr ?_)
      rcases hend with ⟨-, hend⟩ | hend <;> simp [Cmd.endWith, hend]
    · refine ih _ ((cmd_updCmd_other w k id (Cmd.endWith st) (fun _ => rfl) hk).trans h) ?_
      rcases hend with ⟨hin, hend⟩ | hend
      · exact .inl ⟨(List.mem_cons.mp hin).resolve_left hk, hend⟩
      · exact .inr hend

theorem bar_endArrivals (i : Nat) (st : Status) (b : Block) (j : Nat) : (endArrivals i st b).bar j = b.bar j := rfl

/-- The arrivals of a barrier that break or are released end. -/
theorem endArrivals_ends {st : Status} {c : Nat} {d : Cmd} (hc : c ∈ (b.bar i).arrivals) (hd : b.work.cmd c = some d) (hend :
    d.endStatus = none) :
    ((endArrivals i st b).work.cmd c).bind Cmd.endStatus = some st := foldl_endCmd _ _ hd (.inl ⟨hc, hend⟩)

theorem releaseBar_bar (i : Nat) (gen : BitVec 64) (b : Block) : (releaseBar i gen b).bar i = { last := gen } ∧
    ∀ j, j ≠ i → (releaseBar i gen b).bar j = b.bar j :=
  ⟨bar_updBar _ _, fun _ hj => bar_updBar_other _ hj⟩

/-- A barrier that is not broken breaks (R539, R541). -/
theorem breakBar_breaks {st : Status} {src : Nat} (h : (b.bar i).state ≠ .broken) :
    let b' := breakBar i st src b
    b'.bar i = { b.bar i with state := .broken, arrivals := [] } ∧ (∀ j, j ≠ i → b'.bar j = b.bar j) ∧
    b'.frm = { b'.frm with breakStatus := st, breakSrc := BitVec.ofNat 6 src } ∧ b'.work = (endArrivals i St.stepBroken b).work := by
  dsimp only
  rw [breakBar, if_neg (by simpa using h)]
  exact ⟨bar_updBar (b := endArrivals i St.stepBroken b) i (fun x => { x with state := .broken, arrivals := [] }),
    fun _ hj => bar_updBar_other (b := endArrivals i St.stepBroken b) (fun x => { x with state := .broken, arrivals := [] }) hj, rfl, rfl⟩

/-- What a break leaves of the frame: only the barriers and what caused the break change. -/
def unbroken (b b' : Block) : Block := { b' with
  work := b.work
  frm := { b'.frm with
    barriers := b.frm.barriers, breakStatus := b.frm.breakStatus, breakSrc := b.frm.breakSrc, breakBarrier := b.frm.breakBarrier } }

theorem breakBar_frame (i : Nat) (st : Status) (src : Nat) (b : Block) : unbroken b (breakBar i st src b) = b := by
  unfold breakBar
  split <;> rfl

theorem breakBar_broken (i : Nat) (st : Status) (src : Nat) (b : Block) (j : Nat) :
    ((breakBar i st src b).bar j).state = .broken ↔ j = i ∨ (b.bar j).state = .broken := by
  by_cases hb : (b.bar i).state = .broken
  · rw [breakBar, if_pos (by simpa using hb)]
    constructor
    · exact .inr
    · rintro (rfl | h)
      · exact hb
      · exact h
  · obtain ⟨hown, hothers, -⟩ := breakBar_breaks (st := st) (src := src) hb
    by_cases hj : j = i
    · rw [hj, hown]
      simp
    · rw [hothers j hj]
      simp [hj]

theorem mgrBreak_frame (i : Nat) (st : Status) (src : Nat) (b : Block) : unbroken b (mgrBreak i st src b) = b := by
  unfold mgrBreak
  split
  · rfl
  · exact breakBar_frame i st src b

theorem mgrBreakAll_frame (st : Status) (src : Nat) (b : Block) : unbroken b (mgrBreakAll st src b) = b := by
  unfold mgrBreakAll
  refine List.foldlRecOn (motive := fun v => unbroken b v = b) _ _ rfl fun v hv j _ => ?_
  have h := congrArg (unbroken b) (mgrBreak_frame j st src v)
  exact h.trans hv

/-! #### A frame as its view shows it (R518, R529) -/

/-- Only the dictionary, the exclusions and the ports that are down decide the tree. -/
theorem treeFrom_congr (hdct : b'.dct = b.dct) (hexcl : b'.frm.excl = b.frm.excl) (hdown : b'.frm.down = b.frm.down) (m : Nat) :
    treeFrom b' m = treeFrom b m := by
  have hin : inF b' = inF b := by
    funext c
    rw [inF, inF, hdct, hexcl]
  have husable : usable b' = usable b := by
    funext c p
    have hmark : downMark b'.frm = downMark b.frm := by
      funext c p
      rw [downMark, downMark, hdown]
    rw [usable, usable, hin, hdct, hmark]
  have hstep : treeStep b' = treeStep b := by
    funext x reached
    simp only [treeStep, husable]
  have hwalk (fuel : Nat) : ∀ queue done, treeWalk b' fuel queue done = treeWalk b fuel queue done := by
    induction fuel with
    | zero =>
      intro queue done
      cases queue <;> rfl
    | succ fuel ih =>
      intro queue done
      cases queue with
      | nil => rfl
      | cons x queue => rw [treeWalk, treeWalk, hstep, ih]
  rw [treeFrom, treeFrom, hin, hwalk]

theorem frameChips_congr (hdct : b'.dct = b.dct) (hexcl : b'.frm.excl = b.frm.excl) : frameChips b' = frameChips b := by
  have hin : inF b' = inF b := by
    funext c
    rw [inF, inF, hdct, hexcl]
  rw [frameChips, frameChips, hin]

/-- A manager counts what it reaches: below half of F it enters MINORITY (R552), and breaks its barriers. -/
theorem checkMinority_counts (st : Status) (src : Nat) (h : b.frm.state = .manager) :
    let b' := checkMinority st src b
    let few := 2 * (treeFrom b b.dct.chipNum).length < (frameChips b).length
    b'.frm.state = (if few then .minority else .manager) ∧ (¬few → b' = b) ∧
    unbroken { b with frm := { b.frm with state := b'.frm.state } } b' = { b with frm := { b.frm with state := b'.frm.state } } := by
  dsimp only
  rw [checkMinority, if_neg (by simp [isMgr, h])]
  dsimp only
  split
  next hfew =>
    rw [if_neg (by simp [h])]
    have hframe := mgrBreakAll_frame st src (b.updFrm fun f => { f with state := .minority })
    generalize mgrBreakAll st src (b.updFrm fun f => { f with state := .minority }) = u at hframe ⊢
    have hstate : u.frm.state = .minority := (congrArg (fun x : Block => x.frm.state) hframe :)
    rw [hstate]
    exact ⟨rfl, fun hn => absurd hfew hn, hframe⟩
  next hmany =>
    have hsame : b.updFrm (fun f => { f with state := .manager }) = b := by rw [Block.updFrm, ← h]
    rw [hsame, h]
    exact ⟨rfl, fun _ => rfl, by rw [← h]; rfl⟩

/-! #### Exclusion (R529) -/

/-- A chip that is out of the frame's admitted and pending ones for its exclusion. -/
def Out (c : Nat) (excl : BitVec 64) (b : Block) : Prop :=
  b.frm.excl = excl ∧ b.frm.admitted.getLsbD c = false ∧ tblGet none b.frm.pending c = none ∧ b.frm.lastCause = St.chipExcluded

theorem Out.of_frm {c : Nat} {excl : BitVec 64} (h : Out c excl b) (he : b'.frm.excl = b.frm.excl) (ha : b'.frm.admitted = b.frm.admitted)
    (hp : b'.frm.pending = b.frm.pending) (hl : b'.frm.lastCause = b.frm.lastCause) : Out c excl b' := by
  unfold Out at *
  rw [he, ha, hp, hl]
  exact h

theorem Out.of_unbroken {c : Nat} {excl : BitVec 64} (h : Out c excl b) (hf : unbroken b b' = b) : Out c excl b' :=
  h.of_frm (congrArg (fun x : Block => x.frm.excl) hf :) (congrArg (fun x : Block => x.frm.admitted) hf :)
    (congrArg (fun x : Block => x.frm.pending) hf :) (congrArg (fun x : Block => x.frm.lastCause) hf :)

theorem checkMinority_out {c : Nat} {excl : BitVec 64} (st : Status) (src : Nat) (h : Out c excl b) :
    Out c excl (checkMinority st src b) := by
  unfold checkMinority
  dsimp only
  split
  · exact h
  · split
    · split
      · exact h
      · exact Out.of_unbroken (b := b.updFrm fun f => { f with state := .minority }) h (mgrBreakAll_frame _ _ _)
    · exact h

theorem loseMgr_out {c : Nat} {excl : BitVec 64} (byNotice : Bool) (h : Out c excl b) : Out c excl (loseMgr byNotice b) := by
  unfold loseMgr
  split
  · exact h
  · split <;> exact h

theorem trussAll_out {c : Nat} {excl : BitVec 64} (h : Out c excl b) : Out c excl (trussAll b) :=
  List.foldlRecOn (motive := fun v => Out c excl v) _ _ h fun _ hv _ _ => hv

/-- Clearing bits one after another clears no less. -/
theorem foldl_clrBit_getLsbD (keep : Nat → Bool) (cs : List Nat) (m : BitVec 64) (c : Nat) (h : m.getLsbD c = false) :
    (cs.foldl (fun m c => if m.getLsbD c && !keep c then clrBit m c else m) m).getLsbD c = false := by
  refine List.foldlRecOn (motive := fun m : BitVec 64 => m.getLsbD c = false) _ _ h fun m hm k _ => ?_
  split
  · simp [clrBit, hm]
  · exact hm

theorem dropUnreachable_out {c : Nat} {excl : BitVec 64} (h : Out c excl b) : Out c excl (dropUnreachable b) := by
  obtain ⟨he, ha, hp, hl⟩ := h
  exact ⟨he, foldl_clrBit_getLsbD _ _ _ _ ha, hp, hl⟩

/-- The chips that a change of the view puts in question become pending, but for one that was not admitted. -/
theorem foldl_pending (go : Nat → Bool) (cs : List Nat) (t : Tbl (Option Pending)) (c : Nat) (h : tblGet none t c = none) (hgo :
    go c = false) :
    tblGet none (cs.foldl (fun t c => if go c then tblSet none t c (some {}) else t) t) c = none := by
  refine List.foldlRecOn (motive := fun t : Tbl (Option Pending) => tblGet none t c = none) _ _ h fun t ht k _ => ?_
  split
  next hk =>
    have hne : c ≠ k := by
      rintro rfl
      rw [hgo] at hk
      cases hk
    rw [tblGet_tblSet_other _ _ _ _ _ hne, ht]
  next => exact ht

/-- What follows a change of the view leaves an excluded chip out of it. -/
theorem viewChanged_out {c : Nat} {excl : BitVec 64} (down : Bool) (src : Nat) (old : BitVec 64) (h : Out c excl b) (hin :
    inF b c = false) :
    Out c excl (viewChanged down St.chipExcluded src old b) := by
  unfold viewChanged
  extract_lets x y gone z u v m r
  have hlost : Out c excl y := dropUnreachable_out (b := b) h
  have hcause : Out c excl z := by
    obtain ⟨he, ha, hp, hl⟩ := hlost
    unfold z
    split
    · exact ⟨he, ha, hp, hl⟩
    · exact ⟨he, ha, hp, rfl⟩
  have hfrm : inF z c = false := by
    unfold z
    split <;> exact hin
  have hpend : Out c excl u := by
    obtain ⟨he, ha, hp, hl⟩ := hcause
    exact ⟨he, ha, foldl_pending _ _ _ _ hp (by rw [hfrm, Bool.and_false]), hl⟩
  have hbreak : Out c excl v := by
    unfold v
    split
    · exact hpend.of_unbroken (mgrBreakAll_frame _ _ _)
    · exact hpend
  have hcount : Out c excl m := checkMinority_out St.chipExcluded src hbreak
  refine trussAll_out ?_
  unfold r
  split
  · exact loseMgr_out false hcount
  · exact hcount

theorem setBit_getLsbD (x : BitVec 64) {n : Nat} (hn : n < 64) : (setBit x n).getLsbD n = true := by
  rw [setBit, BitVec.getLsbD_or, BitVec.getLsbD_ofNat, Nat.testBit_two_pow_self, decide_eq_true hn]
  simp

theorem clrBit_getLsbD (x : BitVec 64) {n : Nat} (hn : n < 64) : (clrBit x n).getLsbD n = false := by
  rw [clrBit, BitVec.getLsbD_and, BitVec.getLsbD_not, BitVec.getLsbD_ofNat, Nat.testBit_two_pow_self, decide_eq_true hn]
  simp

/-- The manager's exclusion takes the chip out (R529). -/
theorem exclude_out {c : Nat} (hc : c < 64) (b : Block) : Out c (setBit b.frm.excl c) (exclude c b) := by
  unfold exclude
  dsimp only
  refine viewChanged_out _ _ _ ⟨rfl, clrBit_getLsbD _ hc, ?_, rfl⟩ ?_
  · exact tblGet_tblSet_same none b.frm.pending c none
  · have hout : (setBit b.frm.excl c).toNat.testBit c = true := setBit_getLsbD _ hc
    rw [inF, Bool.and_eq_false_iff, Bool.not_eq_false']
    exact .inr hout

end

/-- A row that takes the first message of its type, with the whole block. -/
theorem acts_msgAll {n : Instr} {s : State} {typ : BitVec 8} {f : Nat → Nat → Msg → Block → Block} {x : Nat × Nat × Msg} {w : Work}
    {P : Block → Prop} (hx : exec n s = .next (s.onAll (onMsgAll typ f))) (h : s.live) (htake : takeMsg typ s.core.work = some (x, w))
    (hP : P (f x.1 x.2.1 x.2.2 { s.core with work := w })) : Acts n s P :=
  acts_of hx h (by rwa [onMsgAll, htake])

theorem takeMsg_cmds {typ : BitVec 8} {w w' : Work} {x : Nat × Nat × Msg} (h : takeMsg typ w = some (x, w')) : w'.cmds = w.cmds := by
  unfold takeMsg at h
  split at h <;> cases h
  rfl

/-- A barrier with what a message reports of its sender's subtree (R540). -/
def Barrier.reported (m : Msg) (x : Barrier) : Barrier := { x with reports := tblSet 0 x.reports m.src.toNat (m.field 10 2) }

/-- The frame that chip 0 founds, before it counts what it reaches (R523). -/
def founding (b : Block) : Block :=
  { b with
    clk := { b.clk with src := 1, aligned := false }
    dct := { b.dct with locked := true }
    lnk := { b.lnk with placed := none }
    frm := { b.frm with
      state := .manager, epoch := 0, mgr := 0, mgrLost := false, admitted := 1, barriers := []
      pending := ((List.range 64).filter fun c => inF b c && c != 0).map fun c => (c, some {}) } }

theorem foundFrame_founds (hlisten : b.frm.state = .listening) (hchip : b.dct.chipNum = 0) (hheard : b.dct.joinListen ≤ b.frm.listened) :
    foundFrame b = checkMinority b.frm.lastCause 0 (founding b) := by
  rw [foundFrame, if_neg (by simp [hlisten, hchip, hheard])]
  rfl

/-- The barriers that break one after another are broken, and a break keeps a broken one. -/
theorem foldl_breakBar_broken {j : Nat} (is : List Nat) (b : Block) (hj : j ∈ is ∨ (b.bar j).state = .broken) :
    ((is.foldl (fun b i => breakBar i b.frm.lastCause b.frm.lostMgr.toNat b) b).bar j).state = .broken := by
  induction is generalizing b with
  | nil => exact hj.resolve_left List.not_mem_nil
  | cons i is ih =>
    rw [List.foldl_cons]
    refine ih _ ?_
    rw [breakBar_broken]
    rcases hj with hj | hj
    · exact (List.mem_cons.mp hj).elim (fun h => .inr (.inl h)) .inl
    · exact .inr (.inr hj)

theorem foldl_breakBar_frame (is : List Nat) (b : Block) :
    unbroken b (is.foldl (fun b i => breakBar i b.frm.lastCause b.frm.lostMgr.toNat b) b) = b := by
  refine List.foldlRecOn (motive := fun v => unbroken b v = b) _ _ rfl fun v hv j _ => ?_
  have h := congrArg (unbroken b) (breakBar_frame j v.frm.lastCause v.frm.lostMgr.toNat v)
  exact h.trans hv

/-- A manager's break of a barrier that is not broken (R540). -/
theorem mgrBreak_breaks {st : Status} {src : Nat} (h : (b.bar i).state ≠ .broken) :
    let b' := mgrBreak i st src b
    (b'.bar i).state = .broken ∧ b'.frm.breakStatus = st ∧ b'.frm.breakSrc = BitVec.ofNat 6 src := by
  dsimp only
  obtain ⟨hown, -, hfrm, -⟩ := breakBar_breaks (st := st) (src := src) h
  rw [mgrBreak, if_neg (by simpa using h)]
  generalize breakBar i st src b = u at hown hfrm ⊢
  refine ⟨?_, (congrArg Frame.breakStatus hfrm :), (congrArg Frame.breakSrc hfrm :)⟩
  exact (congrArg Barrier.state hown :)

theorem isMgr_viewed (h : isMgr b = true) : b.frm.viewed = true := by
  unfold isMgr at h
  unfold Frame.viewed Frame.joined
  cases hs : b.frm.state <;> simp_all

/-- A release of a broken barrier is counted (R542). -/
def diverging (i : Nat) (b : Block) : Block :=
  if (b.bar i).state = .broken then b.updFrm fun f => { f with diverged := satInc f.diverged } else b

theorem diverging_bar (i j : Nat) (b : Block) : (diverging i b).bar j = b.bar j := by
  unfold diverging
  split <;> rfl

theorem diverging_work (i : Nat) (b : Block) : (diverging i b).work = b.work := by
  unfold diverging
  split <;> rfl

/-- A release of a worker's generation: it breaks, reopens or ends the barrier (R541, R542). -/
theorem releaseMsg_goes {m : Msg} (hworker : isWorker b = true) (hgen : m.field 16 8 = (b.bar (m.field 8 1)).last.toNat + 1) :
    releaseMsg m b = if BitVec.ofNat 16 (m.field 12 2) ≠ St.ok then breakBar (m.field 8 1) (BitVec.ofNat 16 (m.field 12 2)) m.src.toNat b
      else if m.field 10 2 = 0 then reopenBar (m.field 8 1) b
      else releaseBar (m.field 8 1) ((b.bar (m.field 8 1)).last + 1) (diverging (m.field 8 1) b) := by
  rw [releaseMsg]
  dsimp only
  rw [if_neg (by simp [hworker, hgen])]
  rfl

theorem status_of_field (m : Msg) : BitVec.ofNat 16 (m.field 12 2) ≠ St.ok ↔ fieldAt m.payload 4 2 ≠ 0 := not_congr (status_ok_iff _ _)

/-- Settles O43: a barrier's own operations, the frame that a break leaves, and what takes an excluded chip out of the view. -/
theorem frameAndBarriers : Obligations.FrameAndBarriers := by
  refine fun s h => ⟨fun p arrival m w htake => ?kept, fun b m => ⟨fun hview => ?dropped, fun hview hok hgen hwhole hstill => ?report,
    fun hmgr hst hgen hwhole howned => ?breaks⟩, fun p arrival m w htake hworker hgen => ⟨fun hok hcount => ?release, fun hok hcount => ?reopen,
    fun hst hwhole => ?broken⟩, fun hlost => ?lost, fun c => ?late, fun c hc hmay => ⟨?exclude, fun x hpend hbeats => ?timeUp⟩,
    fun hlisten hchip hheard => ?found⟩
  case kept =>
    refine acts_of (f := onMsgAll 0x20 fun _ _ m b => b.updWork fun w => w.later (.arrive m)) rfl h ?_
    rw [onMsgAll, htake]
    rfl
  case dropped =>
    change arriveMsg m b = _
    unfold arriveMsg
    dsimp only
    rw [if_pos (by rw [hview]; rfl)]
    rfl
  case report =>
    have hst : (BitVec.ofNat 16 (fieldAt m.payload 4 2) : Status) = St.ok := (status_ok_iff _ _).mpr hok
    change (arriveMsg m b).bar _ = _ ∧ (∀ j, j ≠ _ → (arriveMsg m b).bar j = b.bar j) ∧ (arriveMsg m b).work = _
    have hcurrent : (m.field 16 8 == (b.bar (m.field 8 1)).last.toNat + 1 && (b.bar (m.field 8 1)).state != .broken) = true :=
      Bool.and_eq_true_iff.mpr ⟨beq_iff_eq.mpr hgen, bne_iff_ne.mpr hwhole⟩
    have hnot (y : Block) (hy : (y.bar (m.field 8 1)).state ≠ .counting) : trussCheck (m.field 8 1) y = y := by
      rw [trussCheck, subtreeDone, beq_eq_false_iff_ne.mpr hy, Bool.false_and, Bool.false_and]
      rfl
    have harrive : arriveMsg m b = trussCheck (m.field 8 1) (b.updBar (m.field 8 1) (Barrier.reported m)) := by
      unfold arriveMsg
      dsimp only
      rw [hview, if_neg (by decide), if_neg (by exact not_not_intro hst), hcurrent, if_neg (by decide)]
      rfl
    rw [harrive, hnot]
    · exact ⟨bar_updBar _ (Barrier.reported m), fun _ hj => bar_updBar_other (Barrier.reported m) hj, rfl⟩
    · rw [bar_updBar]
      exact hstill
  case breaks =>
    have hcurrent : (m.field 16 8 == (b.bar (m.field 8 1)).last.toNat + 1 && (b.bar (m.field 8 1)).state != .broken) = true :=
      Bool.and_eq_true_iff.mpr ⟨beq_iff_eq.mpr hgen, bne_iff_ne.mpr hwhole⟩
    have howns : (b.dct.barrierOwner (m.field 8 1) != 0xFF) = true := bne_iff_ne.mpr howned
    have harrive : arriveMsg m b = mgrBreak (m.field 8 1) (BitVec.ofNat 16 (m.field 12 2)) m.src.toNat b := by
      unfold arriveMsg
      dsimp only
      rw [isMgr_viewed hmgr, if_neg (by decide), if_pos (by exact hst), hmgr, if_pos rfl, hcurrent, howns]
      rfl
    obtain ⟨hbroken, hstatus, hsrc⟩ := mgrBreak_breaks (st := BitVec.ofNat 16 (m.field 12 2)) (src := m.src.toNat) hwhole
    change ((arriveMsg m b).bar _).state = _ ∧ (arriveMsg m b).frm.breakStatus = _ ∧ (arriveMsg m b).frm.breakSrc = _
    rw [harrive]
    exact ⟨hbroken, hstatus, hsrc.trans (by simp)⟩
  case release =>
    refine acts_msgAll (f := fun _ _ m b => releaseMsg m b) rfl h htake ?_
    rw [releaseMsg_goes (b := { s.core with work := w }) hworker hgen, if_neg fun hne => (status_of_field m).mp hne hok, if_neg (by exact hcount)]
    obtain ⟨hown, hothers⟩ := releaseBar_bar (m.field 8 1) ((s.core.bar (m.field 8 1)).last + 1)
      (diverging (m.field 8 1) { s.core with work := w })
    refine ⟨hown, fun j hj => (hothers j hj).trans (diverging_bar ..), fun c hc d hd hopen => ?_⟩
    have hbar := diverging_bar (m.field 8 1) (m.field 8 1) { s.core with work := w }
    have hwork := diverging_work (m.field 8 1) { s.core with work := w }
    generalize diverging (m.field 8 1) { s.core with work := w } = v at hbar hwork ⊢
    refine endArrivals_ends (hbar ▸ hc) ?_ hopen
    rw [hwork, cmd_congr (takeMsg_cmds htake)]
    exact hd
  case reopen =>
    refine acts_msgAll (f := fun _ _ m b => releaseMsg m b) rfl h htake ?_
    rw [releaseMsg_goes (b := { s.core with work := w }) hworker hgen, if_neg fun hne => (status_of_field m).mp hne hok, if_pos (by exact hcount)]
    exact ⟨bar_updBar _ fun x => { last := x.last }, fun _ hj => bar_updBar_other (fun x => { last := x.last }) hj, rfl⟩
  case broken =>
    refine acts_msgAll (f := fun _ _ m b => releaseMsg m b) rfl h htake ?_
    rw [releaseMsg_goes (b := { s.core with work := w }) hworker hgen, if_pos ((status_of_field m).mpr hst)]
    obtain ⟨hown, -, hfrm, hwork⟩ := breakBar_breaks (b := { s.core with work := w }) (st := BitVec.ofNat 16 (fieldAt m.payload 4 2))
      (src := m.src.toNat) hwhole
    refine ⟨hown, (congrArg Frame.breakStatus hfrm :), (congrArg Frame.breakSrc hfrm :).trans (by simp), fun c hc d hd hopen => ?_⟩
    have hends := endArrivals_ends (b := { s.core with work := w }) (st := St.stepBroken) hc
      ((cmd_congr (takeMsg_cmds htake) c).trans hd) hopen
    rw [← hwork] at hends
    exact hends
  case lost =>
    refine acts_of (f := lostWaitOver) rfl h ?_
    rw [lostWaitOver, if_pos hlost]
    dsimp only
    have hframe := foldl_breakBar_frame (ownedBarriers (s.core.updFrm fun f => { f with waitLost := false }))
      (s.core.updFrm fun f => { f with waitLost := false })
    refine ⟨(congrArg (fun x : Block => x.frm.waitLost) hframe :), fun i hi howned => foldl_breakBar_broken _ _ (.inl ?_)⟩
    exact List.mem_filter.mpr ⟨List.mem_range.mpr hi, by simpa using howned⟩
  case late => exact defers_of rfl h rfl
  case exclude =>
    refine acts_of (f := frameCmdExclude c) rfl h ?_
    rw [frameCmdExclude, if_pos hmay]
    exact exclude_out hc s.core
  case timeUp =>
    change Out c _ (excludeLate c s.core)
    rw [excludeLate, hpend]
    dsimp only
    rw [if_pos (by rw [hmay]; exact decide_eq_true hbeats)]
    exact exclude_out hc s.core
  case found =>
    refine acts_of (f := foundFrame) rfl h ?_
    rw [foundFrame_founds hlisten hchip hheard]
    obtain ⟨hcount, hsame, hframe⟩ := checkMinority_counts (b := founding s.core) s.core.frm.lastCause 0 rfl
    generalize checkMinority s.core.frm.lastCause 0 (founding s.core) = u at hcount hsame hframe ⊢
    have hdct : u.dct = (founding s.core).dct := (congrArg Block.dct hframe :)
    have hexcl : u.frm.excl = (founding s.core).frm.excl := (congrArg (fun x : Block => x.frm.excl) hframe :)
    have htree : treeFrom u 0 = treeFrom (founding s.core) (founding s.core).dct.chipNum := by
      rw [treeFrom_congr hdct hexcl (congrArg (fun x : Block => x.frm.down) hframe :)]
      exact congrArg _ hchip.symm
    refine ⟨?_, (congrArg (fun x : Block => x.frm.mgr) hframe :), (congrArg (fun x : Block => x.frm.epoch) hframe :),
      (congrArg (fun x : Block => x.frm.admitted) hframe :), (congrArg (fun x : Block => x.clk.src) hframe :),
      (congrArg (fun x : Block => x.dct.locked) hframe :), fun c hc => ?_, fun hmgr => ?_⟩
    · rw [htree, frameChips_congr hdct hexcl]
      exact hcount
    · have hpend : u.frm.pending = (founding s.core).frm.pending := (congrArg (fun x : Block => x.frm.pending) hframe :)
      rw [hpend, founding, tblGet_map_filter]
      cases hin : (inF s.core c && c != 0) <;> simp [hc]
    · rw [hsame fun hfew => by rw [if_pos hfew, hmgr] at hcount; cases hcount]
      rfl

end Sys2Proof.Machine

end

-- Proofs about training of the Tenon ports (R465 to R472).
section

namespace Sys2Proof.Machine

/-! ### Training of a Tenon port (R465 to R472) -/

section

variable {b b' : Block} {p : Nat} {x : LinkPort}

/-! #### Block lock (R465) -/

/-- Valid sync headers count up to block lock: a lane that receives data takes it at the 64th. -/
theorem header_valid {l : Lane} (hrx : l.rxLock = true) (hlock : l.blockLock = false) :
    (l.header true).rxLock = true ∧
    (l.good < 63 → (l.header true).blockLock = false ∧ (l.header true).good = l.good + 1) ∧
    (l.good = 63 → (l.header true).blockLock = true) := by
  unfold Lane.header
  simp only [hlock, hrx, if_true, Bool.true_and, Bool.false_eq_true, if_false]
  refine ⟨?_, fun hgood => ?_, fun hgood => ?_⟩
  · split <;> rfl
  · rw [if_neg (by rw [decide_eq_true_iff]; omega)]
    exact ⟨rfl, Nat.min_eq_right (by omega)⟩
  · rw [if_pos (by rw [decide_eq_true_iff]; omega)]

/-- A lane's headers, all valid: it takes block lock when 64 are counted. -/
theorem foldl_header_valid (xs : List (BitVec 66)) {l : Lane} (hrx : l.rxLock = true) (hlock : l.blockLock = false)
    (hlen : xs.length + l.good = 64) (hgood : l.good < 64) (hvalid : ∀ x ∈ xs, syncValid x = true) :
    (xs.foldl (fun l x => l.header (syncValid x)) l).blockLock = true := by
  induction xs generalizing l with
  | nil =>
    rw [List.length_nil] at hlen
    omega
  | cons x xs ih =>
    rw [List.length_cons] at hlen
    obtain ⟨hrx', hmore, hlast⟩ := header_valid hrx hlock
    rw [List.foldl_cons, hvalid x List.mem_cons_self]
    by_cases h63 : l.good = 63
    · have hnil : xs = [] := List.length_eq_zero_iff.mp (by omega)
      rw [hnil]
      exact hlast h63
    · obtain ⟨hlock', hgood'⟩ := hmore (by omega)
      exact ih hrx' hlock' (by omega) (by omega) fun y hy => hvalid y (List.mem_cons_of_mem _ hy)

/-- The last 64 headers of which the latest `n` alone were invalid. -/
def lastBad (n : Nat) : BitVec 64 := BitVec.ofNat 64 (2 ^ n - 1)

theorem lastBad_succ {n : Nat} (hn : n < 16) : (lastBad n <<< 1 ||| BitVec.ofNat 64 true.toNat) = lastBad (n + 1) ∧
    (16 ≤ ((List.range 64).filter fun i => (lastBad (n + 1)).getLsbD i).length ↔ n = 15) := by
  have hall : ∀ n : Fin 16, (lastBad n <<< 1 ||| BitVec.ofNat 64 true.toNat) = lastBad (n + 1) ∧
      (16 ≤ ((List.range 64).filter fun i => (lastBad (n + 1)).getLsbD i).length ↔ n.val = 15) := by decide +kernel
  exact hall ⟨n, hn⟩

/-- An invalid header of a lane with block lock: the 16th of a row takes the lock. -/
theorem header_invalid {l : Lane} {n : Nat} (hlock : l.blockLock = true) (hbad : l.bad = lastBad n) (hn : n < 16) :
    (n = 15 → (l.header false).blockLock = false) ∧
    (n < 15 → (l.header false).blockLock = true ∧ (l.header false).bad = lastBad (n + 1)) := by
  obtain ⟨hnext, hcount⟩ := lastBad_succ hn
  unfold Lane.header
  simp only [hlock, hbad, if_true, Bool.not_false, Bool.true_and, hnext, decide_eq_true_iff, hcount]
  refine ⟨fun h15 => ?_, fun hless => ?_⟩
  · rw [if_pos h15]
  · rw [if_neg (by omega)]
    exact ⟨rfl, rfl⟩

theorem foldl_header_invalid (xs : List (BitVec 66)) {l : Lane} {n : Nat} (hlock : l.blockLock = true) (hbad : l.bad = lastBad n)
    (hn : n < 16) (hlen : xs.length + n = 16) (hinvalid : ∀ x ∈ xs, syncValid x = false) :
    (xs.foldl (fun l x => l.header (syncValid x)) l).blockLock = false := by
  induction xs generalizing l n with
  | nil =>
    rw [List.length_nil] at hlen
    omega
  | cons x xs ih =>
    rw [List.length_cons] at hlen
    obtain ⟨hlast, hmore⟩ := header_invalid hlock hbad hn
    rw [List.foldl_cons, hinvalid x List.mem_cons_self]
    by_cases h15 : n = 15
    · have hnil : xs = [] := List.length_eq_zero_iff.mp (by omega)
      rw [hnil]
      exact hlast h15
    · obtain ⟨hlock', hbad'⟩ := hmore (by omega)
      exact ih hlock' hbad' (by omega) (by omega) fun y hy => hinvalid y (List.mem_cons_of_mem _ hy)

/-! #### Blocks received -/

/-- What a port's receipt of blocks leaves: only the block layer of the ports and the lanes of its own change. -/
structure Hears (p : Nat) (b b' : Block) : Prop where
  rest : { b' with lnk := { b'.lnk with ports := b.lnk.ports, coders := b.lnk.coders } } = b
  others : ∀ q, q ≠ p → b'.lport q = b.lport q
  own : { b'.lport p with lane0 := (b.lport p).lane0, lane1 := (b.lport p).lane1 } = b.lport p

theorem Hears.refl (p : Nat) (b : Block) : Hears p b b := ⟨rfl, fun _ _ => rfl, rfl⟩

theorem Hears.trans {b'' : Block} (h : Hears p b b') (h' : Hears p b' b'') : Hears p b b'' where
  rest := by
    have := congrArg (fun x : Block => { x with lnk := { x.lnk with ports := b.lnk.ports, coders := b.lnk.coders } }) h'.rest
    exact this.trans h.rest
  others q hq := (h'.others q hq).trans (h.others q hq)
  own := by
    have := congrArg (fun x : LinkPort => { x with lane0 := (b.lport p).lane0, lane1 := (b.lport p).lane1 }) h'.own
    exact this.trans h.own

theorem Hears.work (h : Hears p b b') : b'.work = b.work := (congrArg Block.work h.rest :)

theorem Hears.dct (h : Hears p b b') : b'.dct = b.dct := (congrArg Block.dct h.rest :)

theorem Hears.now (h : Hears p b b') : b'.now = b.now := (congrArg Block.now h.rest :)

theorem updLane_lanes (x : LinkPort) (lane : Nat) (f : Lane → Lane) :
    { x.updLane lane f with lane0 := x.lane0, lane1 := x.lane1 } = x := by
  unfold LinkPort.updLane
  split <;> rfl

theorem receivedOn_hears (p lane : Nat) (k : LaneBlock) (b : Block) : Hears p b (b.receivedOn p lane k) where
  rest := rfl
  others q hq := lport_updLport_other (b.updCoder p fun c => c.receive lane k) p q (fun y => y.updLane lane fun l => l.header true) hq
  own := by
    rw [Block.receivedOn, lport_updLport]
    exact updLane_lanes ..

theorem received_hears (p : Nat) (ks : List LaneBlock) (b : Block) : Hears p b (b.received p ks) := by
  unfold Block.received
  split
  · exact List.foldlRecOn (motive := fun v => Hears p b v) _ _ (.refl p b) fun v hv k _ => hv.trans (receivedOn_hears p _ k v)
  · exact .refl p b

theorem receivedTrain_hears (p : Nat) (k : TrainBlk) (b : Block) : Hears p b (b.receivedTrain p k) := by
  unfold Block.receivedTrain
  split
  · exact receivedOn_hears p _ _ b
  · exact .refl p b

/-! #### Ports that train, fail and are lost -/

theorem portQueue_setQueue (p : Nat) (gone : List Queued) (w : Work) : portQueue (setQueue p gone [] w) p = [] := by
  have hnone : (w.msgs.out.filter fun x => x.port != p).filter (fun x => x.port == p) = [] := by
    rw [List.filter_filter, List.filter_eq_nil_iff]
    intro q _
    simp
  unfold portQueue setQueue
  simp [hnone]

/-- What a port drops: its queue, and its frames that wait for their acknowledgement. -/
theorem dropPort_drops (p : Nat) (b : Block) :
    portQueue (dropPort p b).work p = [] ∧ (dropPort p b).lport p = { b.lport p with unacked := [] } ∧
    ∀ q, q ≠ p → (dropPort p b).lport q = b.lport q :=
  ⟨portQueue_setQueue p (portQueue b.work p) b.work, lport_updLport _ p fun x => { x with unacked := [] },
    fun q hq => lport_updLport_other _ p q (fun x => { x with unacked := [] }) hq⟩

/-- A frame whose view changes: the block keeps all but its frame, its commands and messages, and the source of its beat. -/
def Reviews (b b' : Block) : Prop := { b' with clk := b.clk, work := b.work, frm := b.frm } = b

theorem Reviews.trans {b'' : Block} (h : Reviews b b') (h' : Reviews b' b'') : Reviews b b'' := by
  have := congrArg (fun x : Block => { x with clk := b.clk, work := b.work, frm := b.frm }) h'
  exact this.trans h

theorem Reviews.of_unbroken (h : unbroken b b' = b) : Reviews b b' :=
  (congrArg (fun x : Block => { x with clk := b.clk, work := b.work, frm := b.frm }) h :)

theorem checkMinority_reviews (st : Status) (src : Nat) (b : Block) : Reviews b (checkMinority st src b) := by
  unfold checkMinority
  dsimp only
  split
  · rfl
  · split
    · split
      · rfl
      · exact Reviews.trans (b' := b.updFrm fun f => { f with state := .minority }) rfl (.of_unbroken (mgrBreakAll_frame _ _ _))
    · rfl

theorem loseMgr_reviews (byNotice : Bool) (b : Block) : Reviews b (loseMgr byNotice b) := by
  unfold loseMgr
  split
  · rfl
  · split <;> rfl

theorem trussAll_reviews (b : Block) : Reviews b (trussAll b) :=
  List.foldlRecOn (motive := fun v => Reviews b v) _ _ rfl fun _ hv _ _ => hv.trans rfl

theorem viewChanged_reviews (down : Bool) (st : Status) (src : Nat) (old : BitVec 64) (b : Block) :
    Reviews b (viewChanged down st src old b) := by
  unfold viewChanged
  extract_lets x y gone z u v m r
  have hlost : Reviews b y := rfl
  have hcause : Reviews y z := by
    unfold z
    split <;> rfl
  have hpend : Reviews z u := rfl
  clear_value u z y
  have hbreak : Reviews u v := by
    unfold v
    split
    · exact .of_unbroken (mgrBreakAll_frame _ _ _)
    · rfl
  have hcount : Reviews v m := checkMinority_reviews _ _ _
  clear_value m v
  have hlose : Reviews m r := by
    unfold r
    split
    · exact loseMgr_reviews _ _
    · rfl
  exact ((((((hlost.trans hcause).trans hpend).trans hbreak).trans hcount).trans hlose).trans (trussAll_reviews r))

theorem markPort_reviews (c q : Nat) (down : Bool) (b : Block) : Reviews b (markPort c q down b) := by
  unfold markPort
  exact rfl

theorem frameLost_reviews (p : Nat) (st : Status) (b : Block) : Reviews b (frameLost p st b) := by
  unfold frameLost
  split
  · rfl
  · split
    · exact ((markPort_reviews _ _ _ _).trans (markPort_reviews _ _ _ _)).trans (viewChanged_reviews _ _ _ _ _)
    · rfl

/-- What the loss of a port's neighbour leaves in the port (R484). -/
def Lost (p : Nat) (st : Status) (b b' : Block) : Prop :=
  (b'.lport p).state = (if b.dct.flapLimit ≤ (satInc (b.lport p).flaps).toNat then .disabled else .lost) ∧
  (b'.lport p).lastCause = st ∧ (b'.lport p).flaps = satInc (b.lport p).flaps ∧ (b'.lport p).unacked = []

theorem loseNeighbour_lost (p : Nat) (st : Status) (b : Block) :
    Lost p st b (loseNeighbour p st b) ∧ (∀ q, q ≠ p → (loseNeighbour p st b).lport q = b.lport q) ∧ (loseNeighbour p st b).dct = b.dct := by
  obtain ⟨-, -, hothers⟩ := dropPort_drops p b
  have hdct : (dropPort p b).dct = b.dct := rfl
  unfold loseNeighbour
  extract_lets x flaps held u v
  have hown : u.lport p = _ := lport_updLport (dropPort p b) p fun x => { x.fresh with
    state := if held then .disabled else .lost, lastCause := st, flaps := flaps }
  have hother (q : Nat) (hq : q ≠ p) : u.lport q = b.lport q := (lport_updLport_other _ p q _ hq).trans (hothers q hq)
  have hnotice : Reviews u v := by
    unfold v
    split <;> rfl
  have hsame := hnotice.trans (frameLost_reviews p st v)
  have hlports (q : Nat) : (frameLost p st v).lport q = u.lport q := (congrArg (fun x : Block => x.lport q) hsame :)
  have hdct' : (frameLost p st v).dct = b.dct := (congrArg Block.dct hsame :)
  refine ⟨⟨?_, ?_, ?_, ?_⟩, fun q hq => (hlports q).trans (hother q hq), hdct'⟩
  · rw [hlports p, hown]
    exact if_congr decide_eq_true_iff rfl rfl
  · rw [hlports p, hown]
  · rw [hlports p, hown]
  · rw [hlports p, hown]
    rfl

/-- Training of a port that fails (R468). -/
theorem failTrain_fails (p sub : Nat) (b : Block) :
    let y := (failTrain p sub b).lport p
    y.state = (b.lport p).state ∧ y.step = 0 ∧ y.lastCause = St.trainFailed ∧ y.subCause = BitVec.ofNat 4 sub ∧ y.txIdle = true ∧
    ∀ q, q ≠ p → (failTrain p sub b).lport q = b.lport q := by
  dsimp only
  have hown : (failTrain p sub b).lport p = { (b.lport p).fresh with
      waking := (b.lport p).waking, lastCause := St.trainFailed, subCause := BitVec.ofNat 4 sub, txIdle := true, step := 0 } :=
    lport_updLport b p fun x => { x.fresh with
      waking := x.waking, lastCause := St.trainFailed, subCause := BitVec.ofNat 4 sub, txIdle := true, step := 0 }
  rw [hown]
  exact ⟨rfl, rfl, rfl, rfl, rfl, fun q hq => lport_updLport_other b p q _ hq⟩

/-- A PING goes out, and its time is kept (R471). -/
theorem sendPing_sends (p : Nat) (b : Block) :
    let b' := sendPing p b
    b'.lport p = { b.lport p with pingAt := b.now } ∧ (∀ q, q ≠ p → b'.lport q = b.lport q) ∧
    b'.work.fab.out = .ping p (BitVec.ofNat 8 (b.lport p).pings.length) false 0 :: b.work.fab.out :=
  ⟨lport_updLport b p fun x => { x with pingAt := b.now }, fun q hq => lport_updLport_other b p q (fun x => { x with pingAt := b.now }) hq, rfl⟩

theorem startPings_starts (p : Nat) (b : Block) :
    let b' := startPings p b
    b'.lport p = { b.lport p with pings := [], pinging := true, pingAt := b.now } ∧ (∀ q, q ≠ p → b'.lport q = b.lport q) ∧
    b'.work.fab.out = .ping p 0 false 0 :: b.work.fab.out := by
  have hown : (b.updLport p fun x => { x with pings := [], pinging := true }).lport p = _ := lport_updLport b p _
  obtain ⟨hping, hothers, hout⟩ := sendPing_sends p (b.updLport p fun x => { x with pings := [], pinging := true })
  rw [hown] at hping hout
  exact ⟨hping, fun q hq => (hothers q hq).trans (lport_updLport_other b p q _ hq), hout⟩

/-- What a port is as it begins to train (R467). -/
structure Trains (p : Nat) (b b' : Block) : Prop where
  state : (b'.lport p).state = .training
  rstN : (b'.lport p).rstN = false
  rstWait : (b'.lport p).rstWait = resetCycles b
  pd : (b'.lport p).pd = false
  step : (b'.lport p).step = 1
  lock0 : (b'.lport p).lane0.blockLock = false
  lock1 : (b'.lport p).lane1.blockLock = false
  unacked : (b'.lport p).unacked = []
  nextSeq : (b'.lport p).nextSeq = 0
  rxSeq : (b'.lport p).rxSeq = none
  queue : portQueue b'.work p = []
  others : ∀ q, q ≠ p → b'.lport q = b.lport q

theorem startTrain_trains (p : Nat) (b : Block) : Trains p b (startTrain p b) := by
  obtain ⟨hqueue, -, hothers⟩ := dropPort_drops p (b.updWork (portReturns p))
  unfold startTrain
  generalize dropPort p (b.updWork (portReturns p)) = u at hqueue hothers ⊢
  constructor
  case others => exact fun q hq => (lport_updLport_other _ _ _ _ hq).trans (hothers q hq)
  case queue => exact hqueue
  all_goals rw [lport_updLport] <;> rfl

/-- A port that has counted a TRAIN block (R467 steps 5 to 7). -/
def LinkPort.trained (k : TrainBlk) (x : LinkPort) : LinkPort :=
  let run := if consistent x k then x.trainRun + 1 else 1
  { x with
    lastCounter0 := if k.lane = 0 then some k.counter else x.lastCounter0
    lastCounter1 := if k.lane = 0 then x.lastCounter1 else some k.counter
    trainRun := run
    seen := x.seen || decide (16 ≤ run)
    lastTrain := some (k.chip, k.chipValid, k.port, k.rev)
    counter := k.counter
    seenRun := if k.seen then x.seenRun + 1 else x.seenRun
    doneRun := if k.done then x.doneRun + 1 else x.doneRun }

theorem trained_seenRun_le (k : TrainBlk) (x : LinkPort) : (x.trained k).seenRun ≤ x.seenRun + 1 := by
  unfold LinkPort.trained
  dsimp only
  split <;> omega

theorem trained_doneRun_le (k : TrainBlk) (x : LinkPort) : (x.trained k).doneRun ≤ x.doneRun + 1 := by
  unfold LinkPort.trained
  dsimp only
  split <;> omega

/-- The skew of a port's lanes, once both have counted a block. -/
def LinkPort.skew (x : LinkPort) : Option Nat :=
  match x.lastCounter0, x.lastCounter1 with
  | some c, some d => some (min (c - d).toNat (d - c).toNat)
  | _, _ => none

/-- A port that has seen both counters goes on from step 4, and from step 5 once it has seen a run (R467). -/
def LinkPort.goesOn (n : Nat) (x : LinkPort) : LinkPort :=
  let y := if x.step = 4 then { x with step := 5, deskew := some n } else x
  if y.step = 5 ∧ y.seen then { y with step := 6 } else y

/-- A port whose runs are complete records its neighbour and measures (R467 step 7, R469). -/
def recordsRun (p : Nat) (k : TrainBlk) (b : Block) : Block :=
  if (b.lport p).step = 6 ∧ 16 ≤ (b.lport p).seenRun ∧ 16 ≤ (b.lport p).doneRun then
    let b := recordNeighbour p k (b.updLport p fun x => { x with step := 7, waking := false })
    if (b.lport p).state == .miswired then b else startPings p b
  else b

/-- A port goes on by its skew. -/
def trainSkewed (p : Nat) (k : TrainBlk) (b : Block) : Block :=
  match (b.lport p).skew with
  | none => b
  | some n =>
    if (b.lport p).step = 4 ∧ 16 < n then failTrain p 3 b
    else
      let b := if (b.lport p).step = 4 then b.updLport p fun x => { x with step := 5, deskew := some n } else b
      recordsRun p k (b.updLport p fun x => if x.step = 5 ∧ x.seen then { x with step := 6 } else x)

/-- Only port `p` changes. -/
structure Retrains (p : Nat) (y : LinkPort) (b b' : Block) : Prop where
  own : b'.lport p = y
  others : ∀ q, q ≠ p → b'.lport q = b.lport q
  rest : { b' with lnk := { b'.lnk with ports := b.lnk.ports } } = b

theorem updLport_retrains (p : Nat) (f : LinkPort → LinkPort) (b : Block) : Retrains p (f (b.lport p)) b (b.updLport p f) :=
  ⟨lport_updLport b p f, fun q hq => lport_updLport_other b p q f hq, rfl⟩

theorem Retrains.trans {b'' : Block} {y z : LinkPort} (h : Retrains p y b b') (h' : Retrains p z b' b'') : Retrains p z b b'' where
  own := h'.own
  others q hq := (h'.others q hq).trans (h.others q hq)
  rest := by
    have := congrArg (fun x : Block => { x with lnk := { x.lnk with ports := b.lnk.ports } }) h'.rest
    exact this.trans h.rest

theorem Retrains.congr {y z : LinkPort} (h : Retrains p y b b') (hz : y = z) : Retrains p z b b' := hz ▸ h

theorem Retrains.work {y : LinkPort} (h : Retrains p y b b') : b'.work = b.work := (congrArg Block.work h.rest :)

theorem Retrains.dct {y : LinkPort} (h : Retrains p y b b') : b'.dct = b.dct := (congrArg Block.dct h.rest :)

/-- A TRAIN block with a skew known: too great a one fails, else training goes on. -/
theorem trainStep_goes {k : TrainBlk} {n : Nat} (hrev : k.rev.toNat / 16 = 1) (hskew : ((b.lport p).trained k).skew = some n) :
    (((b.lport p).trained k).step = 4 ∧ 16 < n → trainStep p k b = failTrain p 3 (b.updLport p (LinkPort.trained k))) ∧
    (¬(((b.lport p).trained k).step = 4 ∧ 16 < n) →
      ∃ e, Retrains p (((b.lport p).trained k).goesOn n) b e ∧ trainStep p k b = recordsRun p k e) := by
  have hb := updLport_retrains p (LinkPort.trained k) b
  have hstep : trainStep p k b = trainSkewed p k (b.updLport p (LinkPort.trained k)) := by
    rw [trainStep, if_neg (not_not_intro hrev)]
    rfl
  rw [hstep]
  generalize b.updLport p (LinkPort.trained k) = u at hb ⊢
  unfold trainSkewed
  rw [hb.own, hskew]
  refine ⟨fun hfar => if_pos hfar, fun hnear => ?_⟩
  dsimp only
  rw [if_neg hnear]
  by_cases hfour : ((b.lport p).trained k).step = 4
  · rw [if_pos hfour]
    have hd := updLport_retrains p (fun x => { x with step := 5, deskew := some n }) u
    have he := updLport_retrains p (fun x => if x.step = 5 ∧ x.seen then { x with step := 6 } else x)
      (u.updLport p fun x => { x with step := 5, deskew := some n })
    refine ⟨_, (hb.trans (hd.trans he)).congr ?_, rfl⟩
    rw [hd.own, hb.own, LinkPort.goesOn, if_pos hfour]
  · rw [if_neg hfour]
    have he := updLport_retrains p (fun x => if x.step = 5 ∧ x.seen then { x with step := 6 } else x) u
    refine ⟨_, (hb.trans he).congr ?_, rfl⟩
    rw [hb.own, LinkPort.goesOn, if_neg hfour]

theorem goesOn_four {n : Nat} (h : x.step = 4) :
    (x.goesOn n).deskew = some n ∧ (x.goesOn n).step = (if x.seen then 6 else 5) ∧ (x.goesOn n).seenRun = x.seenRun ∧
    (x.goesOn n).doneRun = x.doneRun := by
  unfold LinkPort.goesOn
  dsimp only
  rw [if_pos h]
  by_cases hseen : x.seen = true
  · rw [if_pos ⟨rfl, hseen⟩, if_pos hseen]
    exact ⟨rfl, rfl, rfl, rfl⟩
  · rw [if_neg fun hh => hseen hh.2, if_neg hseen]
    exact ⟨rfl, rfl, rfl, rfl⟩

theorem goesOn_six {n : Nat} (h : x.step = 6) : x.goesOn n = x := by
  unfold LinkPort.goesOn
  simp [h]

/-- The lanes of a port are all that its receipt of a block changes, so that it trains by the block alone. -/
theorem Hears.trained (h : Hears p b b') (k : TrainBlk) :
    { (b'.lport p).trained k with lane0 := (b.lport p).lane0, lane1 := (b.lport p).lane1 } = (b.lport p).trained k :=
  (congrArg (LinkPort.trained k) h.own :)

theorem Hears.inTouch (h : Hears p b b') : (b'.lport p).inTouch = (b.lport p).inTouch := (congrArg LinkPort.inTouch h.own :)

/-- At step 4 a block of lane 0 gives the skew, where lane 1 has counted one. -/
theorem trained_four {k : TrainBlk} {d : BitVec 16} (h : Hears p b b') (hstep : (b.lport p).step = 4) (hlane : k.lane = 0)
    (hlast : (b.lport p).lastCounter1 = some d) :
    ((b'.lport p).trained k).step = 4 ∧ ((b'.lport p).trained k).skew = some (min (k.counter - d).toNat (d - k.counter).toNat) := by
  refine ⟨(congrArg LinkPort.step (h.trained k) :).trans hstep, (congrArg LinkPort.skew (h.trained k) :).trans ?_⟩
  unfold LinkPort.skew LinkPort.trained
  dsimp only
  rw [if_pos hlane, if_pos hlane, hlast]

/-- A TRAIN block of a port that trains in steps 4 to 6 counts. -/
theorem trainBlock_counts {k : TrainBlk} (hp : p < 6) (hstate : (b.lport p).state = .training) (hfour : 4 ≤ (b.lport p).step)
    (hseven : (b.lport p).step < 7) : trainBlock p k b = trainStep p k b := by
  have hfree : (b.lport p).inTouch = false := by rw [LinkPort.inTouch, hstate]; rfl
  rw [trainBlock, if_neg (by omega), hfree, if_neg (by decide), if_pos (by simp [hstate, hfour, hseven])]

/-- A neighbour recorded where none is expected (R469). -/
theorem recordNeighbour_records {k : TrainBlk} (hnbr : expectedNeighbour b p = none) :
    Retrains p { b.lport p with nbrChip := k.chip, nbrPort := k.port, nbrValid := k.chipValid } b (recordNeighbour p k b) := by
  have h := updLport_retrains p (fun x => { x with nbrChip := k.chip, nbrPort := k.port, nbrValid := k.chipValid }) b
  have hgoes : recordNeighbour p k b = b.updLport p fun x => { x with nbrChip := k.chip, nbrPort := k.port, nbrValid := k.chipValid } := by
    unfold recordNeighbour
    dsimp only
    rw [show expectedNeighbour (b.updLport p fun x => { x with nbrChip := k.chip, nbrPort := k.port, nbrValid := k.chipValid }) p = none from hnbr]
  rw [hgoes]
  exact h

/-- Runs that are complete: the neighbour is recorded and the measurement begins. -/
theorem recordsRun_starts {k : TrainBlk} (hstate : (b.lport p).state = .training) (hstep : (b.lport p).step = 6)
    (hseen : 16 ≤ (b.lport p).seenRun) (hdone : 16 ≤ (b.lport p).doneRun) (hnbr : expectedNeighbour b p = none) :
    let b' := recordsRun p k b
    (b'.lport p).step = 7 ∧ (b'.lport p).nbrChip = k.chip ∧ (b'.lport p).nbrPort = k.port ∧ (b'.lport p).nbrValid = k.chipValid ∧
    (b'.lport p).pinging = true ∧ (b'.lport p).pings = [] ∧ b'.work.fab.out = .ping p 0 false 0 :: b.work.fab.out ∧
    ∀ q, q ≠ p → b'.lport q = b.lport q := by
  have hu := updLport_retrains p (fun x => { x with step := 7, waking := false }) b
  have hv := recordNeighbour_records (b := b.updLport p fun x => { x with step := 7, waking := false }) (k := k) hnbr
  unfold recordsRun
  dsimp only
  rw [if_pos ⟨hstep, hseen, hdone⟩]
  generalize recordNeighbour p k (b.updLport p fun x => { x with step := 7, waking := false }) = v at hv ⊢
  rw [hu.own] at hv
  obtain ⟨hown, hothers, hout⟩ := startPings_starts p v
  rw [if_neg (by rw [hv.own]; simp [hstate])]
  rw [hown, hv.own, hout, (hu.trans hv).work]
  exact ⟨rfl, rfl, rfl, rfl, rfl, rfl, rfl, fun q hq => (hothers q hq).trans ((hu.trans hv).others q hq)⟩

/-- Blocks that come as they are received change lane 1 by their headers, and no other lane or port. -/
theorem foldl_rawBlock (p : Nat) (xs : List (BitVec 66)) (b : Block) :
    let b' := xs.foldl (rawBlock p 1) b
    (b'.lport p).lane1 = xs.foldl (fun l x => l.header (syncValid x)) (b.lport p).lane1 ∧ (b'.lport p).lane0 = (b.lport p).lane0 ∧
    (∀ q, q ≠ p → b'.lport q = b.lport q) ∧ b'.work = b.work := by
  induction xs generalizing b with
  | nil => exact ⟨rfl, rfl, fun _ _ => rfl, rfl⟩
  | cons x xs ih =>
    obtain ⟨hlane1, hlane0, hothers, hwork⟩ := ih (rawBlock p 1 b x)
    have hown : (rawBlock p 1 b x).lport p = _ := lport_updLport _ p _
    have hother (q : Nat) (hq : q ≠ p) : (rawBlock p 1 b x).lport q = b.lport q := lport_updLport_other _ p q _ hq
    rw [hown] at hlane1 hlane0
    refine ⟨hlane1.trans ?_, hlane0.trans ?_, fun q hq => (hothers q hq).trans (hother q hq), hwork⟩
    · dsimp only
      split <;> rfl
    · dsimp only
      split <;> rfl

/-- A TRAIN block that comes: it is looked at where its lane holds block lock. -/
def onTrain (p : Nat) (k : TrainBlk) (b : Block) : Block :=
  if ((b.lport p).lane (k.lane % 2)).blockLock then trainBlock p k (b.receivedTrain p k) else (b.receivedTrain p k).updLport p lockChanged

/-- The answer to a port's PING gives a sample (R471). -/
theorem pingBlock_samples {tag : BitVec 8} {echo : Bool} {turn : BitVec 16} {arrival delay : Nat} (h : Hears p b b') (hp : p < 6)
    (hecho : echo = true) (hping : (b.lport p).pinging = true) (htag : tag.toNat = (b.lport p).pings.length) :
    ∃ e, Retrains p { b'.lport p with pings := (b.lport p).pings ++ [arrival - (b.lport p).pingAt - turn.toNat] } b' e ∧
      pingBlock p tag echo turn arrival delay b' = if (e.lport p).pings.length < 16 then sendPing p e else measured p e := by
  have hpinging : (b'.lport p).pinging = (b.lport p).pinging := (congrArg LinkPort.pinging h.own :)
  have hpings : (b'.lport p).pings = (b.lport p).pings := (congrArg LinkPort.pings h.own :)
  have hat : (b'.lport p).pingAt = (b.lport p).pingAt := (congrArg LinkPort.pingAt h.own :)
  have he := updLport_retrains p (fun x => { x with pings := x.pings ++ [arrival - x.pingAt - turn.toNat] }) b'
  have hsample : (b'.lport p).pings ++ [arrival - (b'.lport p).pingAt - turn.toNat] =
      (b.lport p).pings ++ [arrival - (b.lport p).pingAt - turn.toNat] := by rw [hpings, hat]
  refine ⟨_, he.congr (congrArg (fun xs => { b'.lport p with pings := xs }) hsample), ?_⟩
  rw [pingBlock, if_neg (by omega), if_neg (by rw [hecho]; decide), if_neg (by simp [hpinging, hping, hpings, htag])]

/-- A measurement in training that is steady takes the port to PROBATION (R468, R471). -/
theorem measured_ends (hstate : (b.lport p).state = .training)
    (hspread : (b.lport p).pings.foldl max 0 - (b.lport p).pings.foldl min ((b.lport p).pings.headD 0) ≤ 16) :
    let b' := measured p b
    (b'.lport p).hop = BitVec.ofNat 32 ((b.lport p).pings.sum / 32) ∧ (b'.lport p).state = .probation ∧ (b'.lport p).cleanBeats = 0 ∧
    (b'.lport p).pinging = false ∧ ∀ q, q ≠ p → b'.lport q = b.lport q := by
  unfold measured meanSpread
  dsimp only
  rw [if_pos (by simp [hstate]), if_neg (by omega), lport_updLport, lport_updLport]
  exact ⟨rfl, rfl, rfl, rfl, fun q hq => (lport_updLport_other _ p q _ hq).trans (lport_updLport_other b p q _ hq)⟩

/-- A TRAIN block on a lane that holds block lock, of a port that trains in steps 4 to 6. -/
theorem onTrain_trains {k : TrainBlk} (hp : p < 6) (hlock : ((b.lport p).lane (k.lane % 2)).blockLock = true)
    (hstate : (b.lport p).state = .training) (hfour : 4 ≤ (b.lport p).step) (hseven : (b.lport p).step < 7) :
    ∃ r, Hears p b r ∧ (r.lport p).state = .training ∧ onTrain p k b = trainStep p k r := by
  have hhears := receivedTrain_hears p k b
  have hstate' : ((b.receivedTrain p k).lport p).state = (b.lport p).state := (congrArg LinkPort.state hhears.own :)
  have hstep' : ((b.receivedTrain p k).lport p).step = (b.lport p).step := (congrArg LinkPort.step hhears.own :)
  refine ⟨_, hhears, hstate'.trans hstate, ?_⟩
  rw [onTrain, if_pos hlock, trainBlock_counts hp (hstate'.trans hstate) (by omega) (by omega)]

end

/-- Settles O41: block lock, the steps of training by their port's state, and the measurement of the hop. -/
theorem linkTraining : Obligations.LinkTraining := by
  refine ⟨fun l xs => ⟨fun hrx hlock hgood hlen hvalid => foldl_header_valid xs hrx hlock (by omega) (by omega) hvalid,
    fun hlock hbad hlen hinvalid => foldl_header_invalid (n := 0) xs hlock (by rw [hbad]; rfl) (by omega) (by omega) hinvalid⟩,
    fun x => ⟨fun hmore => ?waits, fun hlast hstate hstep => ?rises⟩, fun s p h hp => ⟨fun i hi => ?retrain, ?disable, fun v => ?rxLock,
    fun xs => ?blockLock, fun k hopen => ?unlocked, fun k hlock => ⟨fun htouch => ?lost, fun hstate hfour hseven hrev => ?revision,
      fun d hstate hstep hrev hlane hlast => ⟨fun hskew => ?skewed, fun hskew hruns => ?aligned⟩,
      fun hstate hstep hrev hc0 hc1 hseen hdone hkseen hkdone hnbr => ?recorded⟩, fun hstate hone hsix => ?late,
    fun tag echo turn arrival delay => ⟨fun hnone => ?unheard, fun hheard => ⟨fun hecho => ?answer, fun hecho hping htag hlen => ?sample,
      fun hecho hping htag hlen hstate hspread => ?last⟩⟩, fun hstate hbeat => ?remeasure⟩⟩
  case waits => rw [LinkPort.resetPasses, if_neg (by omega), if_neg (by omega)]
  case rises => simp [LinkPort.resetPasses, hlast, hstate, hstep, lockStep]
  case retrain =>
    obtain ⟨rfl, hon⟩ | ⟨rfl, hon, hstate⟩ := hi
    · refine acts_of (f := retrainOp p) rfl h ?_
      rw [retrainOp, if_pos (by simp [hp, hon])]
      have ht := startTrain_trains p s.core
      exact ⟨ht.state, ht.rstN, ht.rstWait, ht.pd, ht.step, ht.lock0, ht.lock1, ht.unacked, ht.nextSeq, ht.rxSeq, ht.queue, ht.others⟩
    · refine acts_of (f := trainAgain p) rfl h ?_
      have hagain : (tnlOn s.core && ((s.core.lport p).state == .lost || ((s.core.lport p).state == .training && (s.core.lport p).step == 0))) = true := by
        simp [hon, hstate]
      rw [trainAgain, if_pos hagain]
      have ht := startTrain_trains p s.core
      generalize startTrain p s.core = u at ht ⊢
      rw [lport_updLport]
      exact ⟨ht.state, ht.rstN, ht.rstWait, ht.pd, ht.step, ht.lock0, ht.lock1, ht.unacked, ht.nextSeq, ht.rxSeq, ht.queue,
        fun q hq => (lport_updLport_other _ _ _ _ hq).trans (ht.others q hq)⟩
  case disable =>
    refine acts_of (f := disablePort p) rfl h ?_
    rw [disablePort, if_pos hp]
    obtain ⟨hqueue, hown, hothers⟩ := dropPort_drops p (s.core.updWork (portReturns p))
    generalize dropPort p (s.core.updWork (portReturns p)) = u at hqueue hown hothers ⊢
    rw [lport_updLport]
    exact ⟨rfl, rfl, rfl, hqueue, fun q hq => (lport_updLport_other _ _ _ _ hq).trans (hothers q hq)⟩
  case rxLock =>
    refine acts_of (f := rxLock p 0 v) rfl h ?_
    rw [rxLock, if_neg (by omega), lport_updLport]
    exact ⟨rfl, rfl, rfl, fun q hq => lport_updLport_other _ _ _ _ hq, rfl⟩
  case blockLock =>
    refine acts_of (f := laneBlocks p 1 xs) rfl h ?_
    rw [laneBlocks, if_neg (by omega)]
    obtain ⟨hlane1, hlane0, hothers, hwork⟩ := foldl_rawBlock p xs s.core
    generalize xs.foldl (rawBlock p 1) s.core = u at hlane1 hlane0 hothers hwork ⊢
    rw [lport_updLport]
    exact ⟨hlane1, hlane0, fun q hq => (lport_updLport_other _ _ _ _ hq).trans (hothers q hq), hwork⟩
  case unlocked =>
    refine acts_of (f := onTrain p k) rfl h ?_
    rw [onTrain, if_neg (by rw [hopen]; decide)]
    have hhears := receivedTrain_hears p k s.core
    generalize s.core.receivedTrain p k = r at hhears ⊢
    rw [lport_updLport]
    exact ⟨(congrArg LinkPort.state hhears.own :), (congrArg LinkPort.seenRun hhears.own :),
      fun q hq => (lport_updLport_other _ _ _ _ hq).trans (hhears.others q hq), hhears.work⟩
  case lost =>
    refine acts_of (f := onTrain p k) rfl h ?_
    rw [onTrain, if_pos hlock]
    have hhears := receivedTrain_hears p k s.core
    generalize s.core.receivedTrain p k = r at hhears ⊢
    rw [trainBlock, if_neg (by omega), if_pos (by rw [hhears.inTouch]; exact htouch)]
    obtain ⟨⟨hstate, hcause, hflaps, -⟩, -, -⟩ := loseNeighbour_lost p St.peerLost r
    refine ⟨?_, hcause, hflaps.trans (congrArg (fun x : LinkPort => satInc x.flaps) hhears.own :)⟩
    rw [hstate]
    split
    · exact .inr rfl
    · exact .inl rfl
  case revision =>
    refine acts_of (f := onTrain p k) rfl h ?_
    obtain ⟨r, hhears, hrstate, hgoes⟩ := onTrain_trains hp hlock hstate hfour hseven
    rw [hgoes, trainStep, if_pos hrev]
    obtain ⟨hkept, hzero, hcause, hsub, hidle, hothers⟩ := failTrain_fails p 4 r
    exact ⟨(hkept.trans hrstate).trans hstate.symm, hzero, hcause, hsub, hidle, fun q hq => (hothers q hq).trans (hhears.others q hq)⟩
  case skewed =>
    refine acts_of (f := onTrain p k) rfl h ?_
    obtain ⟨r, hhears, hrstate, hgoes⟩ := onTrain_trains hp hlock hstate (by omega) (by omega)
    obtain ⟨hrstep, hrskew⟩ := trained_four hhears hstep hlane hlast
    rw [hgoes, (trainStep_goes hrev hrskew).1 ⟨hrstep, hskew⟩]
    have htrained := updLport_retrains p (LinkPort.trained k) r
    obtain ⟨hkept, hzero, hcause, hsub, hidle, hothers⟩ := failTrain_fails p 3 (r.updLport p (LinkPort.trained k))
    rw [htrained.own] at hkept
    exact ⟨(hkept.trans hrstate).trans hstate.symm, hzero, hcause, hsub, hidle,
      fun q hq => ((hothers q hq).trans (htrained.others q hq)).trans (hhears.others q hq)⟩
  case aligned =>
    refine acts_of (f := onTrain p k) rfl h ?_
    obtain ⟨r, hhears, hrstate, hgoes⟩ := onTrain_trains hp hlock hstate (by omega) (by omega)
    obtain ⟨hrstep, hrskew⟩ := trained_four hhears hstep hlane hlast
    obtain ⟨e, he, hgoes'⟩ := (trainStep_goes hrev hrskew).2 fun hfar => by omega
    obtain ⟨hdeskew, hsteps, hseenRun, hdoneRun⟩ := goesOn_four
      (n := min (k.counter - d).toNat (d - k.counter).toNat) hrstep
    have htrained := hhears.trained k
    have hfew : ¬((e.lport p).step = 6 ∧ 16 ≤ (e.lport p).seenRun ∧ 16 ≤ (e.lport p).doneRun) := by
      rw [he.own, hseenRun, hdoneRun, show ((r.lport p).trained k).seenRun = ((s.core.lport p).trained k).seenRun from
        (congrArg LinkPort.seenRun htrained :), show ((r.lport p).trained k).doneRun = ((s.core.lport p).trained k).doneRun from
        (congrArg LinkPort.doneRun htrained :)]
      have hseens := trained_seenRun_le k (s.core.lport p)
      have hdones := trained_doneRun_le k (s.core.lport p)
      omega
    rw [hgoes, hgoes', recordsRun, if_neg hfew, he.own, hdeskew, hsteps]
    refine ⟨rfl, ?_, fun q hq => (he.others q hq).trans (hhears.others q hq)⟩
    rw [show ((r.lport p).trained k).seen = ((s.core.lport p).trained k).seen from (congrArg LinkPort.seen htrained :)]
    exact if_congr (by simp [LinkPort.trained]) rfl rfl
  case recorded =>
    refine acts_of (f := onTrain p k) rfl h ?_
    obtain ⟨r, hhears, hrstate, hgoes⟩ := onTrain_trains hp hlock hstate (by omega) (by omega)
    have htrained := hhears.trained k
    obtain ⟨n, hskew⟩ : ∃ n, ((r.lport p).trained k).skew = some n := by
      rw [show ((r.lport p).trained k).skew = ((s.core.lport p).trained k).skew from (congrArg LinkPort.skew htrained :)]
      obtain ⟨c, hc⟩ := Option.ne_none_iff_exists'.mp hc0
      obtain ⟨d, hd⟩ := Option.ne_none_iff_exists'.mp hc1
      unfold LinkPort.trained LinkPort.skew
      dsimp only
      rw [hc, hd]
      by_cases hlane : k.lane = 0
      · rw [if_pos hlane, if_pos hlane]
        exact ⟨_, rfl⟩
      · rw [if_neg hlane, if_neg hlane]
        exact ⟨_, rfl⟩
    have hrstep : ((r.lport p).trained k).step = 6 := (congrArg LinkPort.step htrained :).trans hstep
    obtain ⟨e, he, hgoes'⟩ := (trainStep_goes hrev hskew).2 fun hfar => by omega
    rw [goesOn_six hrstep] at he
    have hseen' : ((r.lport p).trained k).seenRun = (s.core.lport p).seenRun + 1 := by
      rw [show ((r.lport p).trained k).seenRun = ((s.core.lport p).trained k).seenRun from (congrArg LinkPort.seenRun htrained :),
        LinkPort.trained, if_pos hkseen]
    have hdone' : ((r.lport p).trained k).doneRun = (s.core.lport p).doneRun + 1 := by
      rw [show ((r.lport p).trained k).doneRun = ((s.core.lport p).trained k).doneRun from (congrArg LinkPort.doneRun htrained :),
        LinkPort.trained, if_pos hkdone]
    have hexpects : expectedNeighbour e p = none := by
      rw [expectedNeighbour, he.dct, hhears.dct]
      exact hnbr
    rw [hgoes, hgoes']
    obtain ⟨hseven, hchip, hport, hvalid, hping, hpings, hout, hothers⟩ := recordsRun_starts (k := k) (by rw [he.own]; exact hrstate)
      (by rw [he.own]; exact hrstep) (by rw [he.own]; omega) (by rw [he.own]; omega) hexpects
    rw [he.work, hhears.work] at hout
    exact ⟨hseven, hchip, hport, hvalid, hping, hpings, hout,
      fun q hq => ((hothers q hq).trans (he.others q hq)).trans (hhears.others q hq)⟩
  case late =>
    refine acts_of (f := trainLate p) rfl h ?_
    have hfails (sub : Nat) := failTrain_fails p sub s.core
    have hgoes : trainLate p s.core = failTrain p (if (s.core.lport p).step ≤ 2 then 1 else if (s.core.lport p).step = 3 then 2 else 5) s.core := by
      rw [trainLate, if_neg (by simp [hstate]; omega)]
      split
      · rfl
      · split <;> rfl
    rw [hgoes]
    have hf := hfails (if (s.core.lport p).step ≤ 2 then 1 else if (s.core.lport p).step = 3 then 2 else 5)
    obtain ⟨hkept, hzero, hcause, hsub, hidle, hothers⟩ := hf
    refine ⟨hkept, hzero, hcause, hsub.trans ?_, hidle, hothers⟩
    split
    · rfl
    · split <;> rfl
  case unheard =>
    refine acts_of (f := whereLocked p [pingBlk tag echo turn] (pingBlock p tag echo turn arrival delay)) rfl h ?_
    have hhears := received_hears p [pingBlk tag echo turn] s.core
    rw [whereLocked, if_neg (by rw [List.length_singleton, hnone]; decide)]
    generalize s.core.received p [pingBlk tag echo turn] = r at hhears ⊢
    rw [lport_updLport]
    exact ⟨(congrArg LinkPort.pings hhears.own :), fun q hq => (lport_updLport_other _ _ _ _ hq).trans (hhears.others q hq), hhears.work⟩
  case answer =>
    refine acts_of (f := whereLocked p [pingBlk tag echo turn] (pingBlock p tag echo turn arrival delay)) rfl h ?_
    have hhears := received_hears p [pingBlk tag echo turn] s.core
    rw [whereLocked, if_pos (by exact hheard)]
    generalize s.core.received p [pingBlk tag echo turn] = r at hhears ⊢
    rw [pingBlock, if_neg (by omega), if_pos (by rw [hecho]; rfl)]
    refine ⟨lport_congr (emit_lports r _) p, fun q hq => (lport_congr (emit_lports r _) q).trans (hhears.others q hq), ?_⟩
    rw [← hhears.work]
    rfl
  case sample =>
    refine acts_of (f := whereLocked p [pingBlk tag echo turn] (pingBlock p tag echo turn arrival delay)) rfl h ?_
    have hhears := received_hears p [pingBlk tag echo turn] s.core
    rw [whereLocked, if_pos (by exact hheard)]
    generalize s.core.received p [pingBlk tag echo turn] = r at hhears ⊢
    obtain ⟨e, he, hgoes⟩ := pingBlock_samples (delay := delay) hhears hp hecho hping htag
    have hlen' : (e.lport p).pings.length = (s.core.lport p).pings.length + 1 := by
      rw [he.own, List.length_append, List.length_singleton]
    rw [hgoes, if_pos (by omega)]
    obtain ⟨hown, hothers, hout⟩ := sendPing_sends p e
    have hnow : e.now = s.core.now := (congrArg Block.now he.rest :).trans hhears.now
    rw [hown, hout, hlen', he.own, hnow, he.work, hhears.work]
    refine ⟨rfl, fun q hq => ((hothers q hq).trans (he.others q hq)).trans (hhears.others q hq), ?_⟩
    rw [show BitVec.ofNat 8 ((s.core.lport p).pings.length + 1) = tag + 1 by rw [← htag, BitVec.ofNat_add, BitVec.ofNat_toNat]; simp]
  case last =>
    refine acts_of (f := whereLocked p [pingBlk tag echo turn] (pingBlock p tag echo turn arrival delay)) rfl h ?_
    have hhears := received_hears p [pingBlk tag echo turn] s.core
    rw [whereLocked, if_pos (by exact hheard)]
    generalize s.core.received p [pingBlk tag echo turn] = r at hhears ⊢
    obtain ⟨e, he, hgoes⟩ := pingBlock_samples (delay := delay) hhears hp hecho hping htag
    have hlen' : (e.lport p).pings.length = (s.core.lport p).pings.length + 1 := by
      rw [he.own, List.length_append, List.length_singleton]
    have hrstate : (r.lport p).state = (s.core.lport p).state := (congrArg LinkPort.state hhears.own :)
    have hstate' : (e.lport p).state = .training := by
      rw [he.own]
      exact hrstate.trans hstate
    rw [hgoes, if_neg (by omega)]
    obtain ⟨hhop, hprob, hclean, hpinging, hothers⟩ := measured_ends (b := e) hstate' (by rw [he.own]; exact hspread)
    rw [he.own] at hhop
    exact ⟨hhop, hprob, hclean, hpinging, fun q hq => ((hothers q hq).trans (he.others q hq)).trans (hhears.others q hq)⟩
  case remeasure =>
    refine acts_of (f := remeasure p) rfl h ?_
    rw [remeasure, if_pos (by simp [hstate, hbeat])]
    exact startPings_starts p s.core

end Sys2Proof.Machine

end

-- Proofs about frames of a Tenon port (R476 to R487).
section

namespace Sys2Proof.Machine

/-! ### Frames of a Tenon port and their acknowledgement (R476 to R487) -/

section

variable {b b' : Block} {p : Nat}

/-! #### The scrambler (R96, R463) -/

theorem mapBits_descramble (st : BitVec 58) (ds : List Bool) :
    mapBits descrambleBit st (mapBits scrambleBit st ds).1 = (ds, (mapBits scrambleBit st ds).2) := by
  induction ds generalizing st with
  | nil => rfl
  | cons d ds ih =>
    have hbit : (d ^^ st.getLsbD 38 ^^ st.getLsbD 57 ^^ st.getLsbD 38 ^^ st.getLsbD 57) = d := by
      cases st.getLsbD 38 <;> cases st.getLsbD 57 <;> simp
    simp only [mapBits, scrambleBit, descrambleBit, hbit]
    rw [ih]

theorem length_mapBits (f : BitVec 58 → Bool → Bool × BitVec 58) (st : BitVec 58) (ds : List Bool) :
    (mapBits f st ds).1.length = ds.length := by
  induction ds generalizing st with
  | nil => rfl
  | cons d ds ih => simp only [mapBits, List.length_cons, ih]

theorem testBit_bits (bs : List Bool) (i : Nat) : (bs.foldr (fun (b : Bool) n => 2 * n + b.toNat) 0).testBit i = bs.getD i false := by
  induction bs generalizing i with
  | nil => simp
  | cons x bs ih =>
    cases i with
    | zero => cases x <;> simp [Nat.testBit_zero]
    | succ i =>
      have hhalf (n : Nat) : (2 * n + x.toNat) / 2 = n := by
        cases x
        · simp
        · simp
          omega
      rw [List.foldr_cons, Nat.testBit_succ, hhalf, ih, List.getD_cons_succ]

theorem bitsPayload_payloadBits (p : BitVec 64) : bitsPayload (payloadBits p) = p := by
  refine BitVec.eq_of_getLsbD_eq fun i hi => ?_
  rw [bitsPayload, BitVec.getLsbD_ofNat, testBit_bits]
  simp [payloadBits, hi]

theorem payloadBits_bitsPayload {bs : List Bool} (h : bs.length = 64) : payloadBits (bitsPayload bs) = bs := by
  refine List.ext_getElem (by simp [payloadBits, h]) fun i hi hi' => ?_
  have hi64 : i < 64 := h ▸ hi'
  have hbit := testBit_bits bs i
  simp only [payloadBits, bitsPayload, List.getElem_map, List.getElem_range, BitVec.getLsbD_ofNat, hi64, decide_true, Bool.true_and, hbit]
  rw [List.getD_eq_getElem _ _ hi']

theorem descramble_scramble (st : BitVec 58) (p : BitVec 64) : descramble st (scramble st p).1 = (p, (scramble st p).2) := by
  unfold descramble scramble
  dsimp only
  rw [payloadBits_bitsPayload (by rw [length_mapBits]; simp [payloadBits]), mapBits_descramble]
  dsimp only
  rw [bitsPayload_payloadBits]

theorem decode_code (st : BitVec 58) (x : LaneBlock) : LaneBlock.decode st (x.code st).1 = (some x, (x.code st).2) := by
  have hpayload : ((scramble st x.payload).1 ++ x.sync).extractLsb' 2 64 = (scramble st x.payload).1 := by
    refine BitVec.eq_of_getLsbD_eq fun i hi => ?_
    rw [BitVec.getLsbD_extractLsb', BitVec.getLsbD_append, if_neg (by omega), Nat.add_sub_cancel_left, decide_eq_true hi, Bool.true_and]
  have hsync : ((scramble st x.payload).1 ++ x.sync).extractLsb' 0 2 = x.sync := by
    refine BitVec.eq_of_getLsbD_eq fun i hi => ?_
    rw [BitVec.getLsbD_extractLsb', BitVec.getLsbD_append, if_pos (by omega), Nat.zero_add, decide_eq_true hi, Bool.true_and]
  unfold LaneBlock.decode LaneBlock.code
  dsimp only
  rw [hpayload, hsync, descramble_scramble]
  unfold LaneBlock.sync
  cases hc : x.control <;> simp [← hc]

/-! #### Block lock (R465) -/

theorem header_keeps (l : Lane) (h : l.blockLock = true) : (l.header true).blockLock = true := by
  unfold Lane.header
  simp [h]

theorem updLane_keeps (x : LinkPort) (lane : Nat) :
    (x.lane0.blockLock = true → (x.updLane lane fun l => l.header true).lane0.blockLock = true) ∧
    (x.lane1.blockLock = true → (x.updLane lane fun l => l.header true).lane1.blockLock = true) := by
  unfold LinkPort.updLane
  split
  · exact ⟨header_keeps _, id⟩
  · exact ⟨id, header_keeps _⟩

theorem received_keeps (p : Nat) (ks : List LaneBlock) (b : Block) :
    ((b.lport p).lane0.blockLock = true → ((b.received p ks).lport p).lane0.blockLock = true) ∧
    ((b.lport p).lane1.blockLock = true → ((b.received p ks).lport p).lane1.blockLock = true) := by
  unfold Block.received
  split
  · refine List.foldlRecOn (motive := fun v : Block => ((b.lport p).lane0.blockLock = true → (v.lport p).lane0.blockLock = true) ∧
      ((b.lport p).lane1.blockLock = true → (v.lport p).lane1.blockLock = true)) _ _ ⟨id, id⟩ fun v hv k _ => ?_
    obtain ⟨h0, h1⟩ := hv
    rw [Block.receivedOn, lport_updLport]
    obtain ⟨hk0, hk1⟩ := updLane_keeps ((v.updCoder p fun c => c.receive (tblGet {} v.lnk.coders p).rxNext k).lport p)
      (tblGet {} v.lnk.coders p).rxNext
    exact ⟨fun h => hk0 (h0 h), fun h => hk1 (h1 h)⟩
  · exact ⟨id, id⟩

/-! #### Frames that are sent again, and neighbours that are lost -/

/-- A port's only frame that waits is sent again (R481). -/
theorem resendFrom_one {f : SentFrame} (hone : (b.lport p).unacked = [f]) (hfirst : f.resent = false) :
    let b' := resendFrom p (fun g => g.seq == f.seq) b
    (b'.lport p).unacked = [{ f with resent := true }] ∧ (b'.lport p).retries = satAdd (b.lport p).retries 1 ∧
    b'.work.fab.out = .frame p f.seq f.flits (frameCrc f.seq f.flits) :: b.work.fab.out := by
  unfold resendFrom
  extract_lets x late early again u v
  have hlate : late = [f] := by simp [late, x, hone]
  have hearly : early = [] := by simp [early, x, hone]
  have hagain : again = [f] := by simp [again, hlate, hfirst]
  have hv : v = u.emit (.frame p f.seq f.flits (frameCrc f.seq f.flits)) := by simp only [v, hagain, List.foldl_cons, List.foldl_nil]
  have hown : u.lport p = { b.lport p with
      unacked := [{ f with resent := true }], retries := satAdd (b.lport p).retries 1, unclean := (b.lport p).unclean || true } := by
    rw [show u.lport p = _ from lport_updLport b p _, hearly, hlate, hagain]
    rfl
  rw [hv, lport_congr (emit_lports u _) p, hown]
  exact ⟨rfl, rfl, rfl⟩

theorem Lost.congr {st : Status} {u : Block} (h : Lost p st b b') (hx : u.lport p = b.lport p) (hdct : u.dct = b.dct) : Lost p st u b' := by
  unfold Lost
  rw [hx, hdct]
  exact h

theorem Lost.keeps {st : Status} {u : Block} (h : Lost p st b b') (hx : u.lport p = b'.lport p) : Lost p st b u := by
  unfold Lost
  rw [hx]
  exact h

/-- A neighbour whose reset is announced is lost on each port in touch with it (R483). -/
theorem foldl_resets_lost {c : Nat} (hc : ((b.lport p).nbrValid && (b.lport p).nbrChip.toNat == c && (b.lport p).inTouch) = true)
    (ps : List Nat) (hmem : p ∈ ps) (hnodup : ps.Nodup) :
    Lost p St.peerLost b (ps.foldl (fun b p =>
      let x := b.lport p
      if x.nbrValid && x.nbrChip.toNat == c && x.inTouch then loseNeighbour p St.peerLost b else b) b) := by
  have hstep (q : Nat) (hq : p ≠ q) (v : Block) :
      let v' := if (v.lport q).nbrValid && (v.lport q).nbrChip.toNat == c && (v.lport q).inTouch then loseNeighbour q St.peerLost v else v
      v'.lport p = v.lport p ∧ v'.dct = v.dct := by
    dsimp only
    split
    · obtain ⟨-, hothers, hdct⟩ := loseNeighbour_lost q St.peerLost v
      exact ⟨hothers p hq, hdct⟩
    · exact ⟨rfl, rfl⟩
  have hkeeps (qs : List Nat) (hout : p ∉ qs) (v : Block) : (qs.foldl (fun b p =>
      let x := b.lport p
      if x.nbrValid && x.nbrChip.toNat == c && x.inTouch then loseNeighbour p St.peerLost b else b) v).lport p = v.lport p :=
    List.foldlRecOn (motive := fun u : Block => u.lport p = v.lport p) _ _ rfl fun u hu q hq =>
      (hstep q (fun h => hout (h ▸ hq)) u).1.trans hu
  induction ps generalizing b with
  | nil => cases hmem
  | cons q ps ih =>
    obtain ⟨hnew, hrest⟩ := List.nodup_cons.mp hnodup
    rw [List.foldl_cons]
    by_cases hq : p = q
    · subst hq
      dsimp only
      rw [if_pos hc]
      exact (loseNeighbour_lost p St.peerLost b).1.keeps (hkeeps ps hnew _)
    · obtain ⟨hport, hdct⟩ := hstep q hq b
      exact (ih (by dsimp only at hport ⊢; rw [hport]; exact hc) ((List.mem_cons.mp hmem).resolve_left hq) hrest).congr hport.symm hdct.symm

/-- A chip without a view loses a neighbour in its port alone. -/
theorem loseNeighbour_frm {st : Status} (hview : b.frm.hasView = false) : (loseNeighbour p st b).frm = b.frm := by
  unfold loseNeighbour
  extract_lets x flaps held u v
  have hv : v.frm = b.frm := by
    unfold v
    split <;> rfl
  rw [frameLost, if_pos (by rw [hv, hview]; rfl), hv]

/-- A NOTICE of its sender's own reset, at a chip without a view (R483). -/
theorem noticeMsg_resets {m : Msg} (hkind : m.field 8 1 = 1) (hself : m.src.toNat = bitsOf (m.field 9 1) 5 0)
    (hview : b.frm.hasView = false) : noticeMsg m b = neighbourResets m.src.toNat b := by
  have hfrm : (neighbourResets (bitsOf (m.field 9 1) 5 0) b).frm = b.frm :=
    List.foldlRecOn (motive := fun v : Block => v.frm = b.frm) _ _ rfl fun v hv q _ => by
      dsimp only
      split
      · rw [loseNeighbour_frm (by rw [hv]; exact hview), hv]
      · exact hv
  have hreset : m.field 8 1 = 1 ∧ m.src.toNat = bitsOf (m.field 9 1) 5 0 := ⟨hkind, hself⟩
  unfold noticeMsg
  simp only [if_pos hreset, hfrm, hview]
  rw [hself]
  rfl

/-- What waits for other ports waits on, as a port trains. -/
theorem startTrain_out (p : Nat) (b : Block) : (startTrain p b).work.msgs.out = b.work.msgs.out.filter fun x => x.port != p := by
  have hreturns (w : Work) : (portReturns p w).msgs = w.msgs := by
    unfold portReturns domainReturns
    split <;> rfl
  change ((portReturns p b.work).msgs.out.filter fun x => x.port != p) ++ [] = _
  rw [List.append_nil, hreturns]

/-- A sleeping port that wakes trains, and keeps what waits for it (R509). -/
theorem wakePort_wakes (p : Nat) (b : Block) :
    let b' := wakePort p b
    (b'.lport p).state = .training ∧ (b'.lport p).waking = true ∧ (b'.lport p).pd = false ∧ ∀ q ∈ b.work.msgs.out, q ∈ b'.work.msgs.out := by
  unfold wakePort
  extract_lets q u v
  have htrains := startTrain_trains p (u.emit (.wakePattern p))
  have hout : v.work.msgs.out = _ := startTrain_out p (u.emit (.wakePattern p))
  have hv : v.lport p = _ := lport_updLport (startTrain p (u.emit (.wakePattern p))) p fun x => { x with waking := true }
  change (v.lport p).state = _ ∧ (v.lport p).waking = _ ∧ (v.lport p).pd = _ ∧ ∀ x ∈ b.work.msgs.out, x ∈ v.work.msgs.out ++ q
  rw [hv, hout]
  refine ⟨htrains.state, rfl, htrains.pd, fun x hx => ?_⟩
  by_cases hxp : x.port = p
  · exact List.mem_append_right _ (List.mem_filter.mpr ⟨hx, by simpa using hxp⟩)
  · refine List.mem_append_left _ (List.mem_filter.mpr ⟨List.mem_filter.mpr ⟨hx, ?_⟩, ?_⟩) <;> simpa using hxp

/-! #### Frames received (R479) -/

theorem receiveMsg_inbox {q arrival : Nat} {x : Nat × Nat × Msg} (m : Msg) (h : x ∈ b.work.msgs.inbox) :
    x ∈ (receiveMsg q arrival m b).work.msgs.inbox := by
  unfold receiveMsg
  split
  · exact h
  · split
    · exact h
    · split
      · exact h
      · split
        · exact List.mem_append_left _ h
        · unfold forwardMsg
          split
          · exact h
          · split
            · exact h
            · split <;> exact h

theorem foldl_receiveMsg_inbox {q arrival : Nat} {x : Nat × Nat × Msg} (ms : List Msg) (h : x ∈ b.work.msgs.inbox) :
    x ∈ (ms.foldl (fun b m => receiveMsg q arrival m b) b).work.msgs.inbox :=
  List.foldlRecOn (motive := fun v : Block => x ∈ v.work.msgs.inbox) _ _ h fun _ hv m _ => receiveMsg_inbox m hv

/-- A unicast message for this chip is delivered. -/
theorem receiveMsg_delivers {q arrival : Nat} {m : Msg} (hknown : knownType m.typ = true) (htyp : m.typ ≠ 0) (hcast : m.bcast = false)
    (hdest : m.dest.toNat = b.dct.chipNum) : (q, arrival, m) ∈ (receiveMsg q arrival m b).work.msgs.inbox := by
  rw [receiveMsg, if_neg htyp, if_neg (by rw [hknown]; decide), if_neg (by rw [hcast]; decide), if_pos hdest]
  exact List.mem_append_right _ List.mem_cons_self

theorem discardFrame_discards (p : Nat) (crcBad : Bool) (b : Block) :
    let b' := discardFrame p crcBad b
    (b'.lport p).crcErrors = satInc (b.lport p).crcErrors ∧ (b'.lport p).rxSeq = (b.lport p).rxSeq ∧ (b'.lport p).nakSent = true ∧
    (b'.lport p).naks = (if (b.lport p).nakSent then (b.lport p).naks else satInc (b.lport p).naks) ∧
    b'.work.fab.out = if (b.lport p).nakSent then b.work.fab.out
      else .ack p ((b.lport p).rxSeq.getD 0) true false (b.lport p).rxSeq.isSome (b.lport p).rxCredits :: b.work.fab.out := by
  unfold discardFrame
  extract_lets first u v
  have hu : u.lport p = _ := lport_updLport b p _
  cases hsent : (b.lport p).nakSent with
  | true =>
    have hfirst : first = false := by simp [first, hsent]
    have hv : v = u := if_neg (by simp [hfirst])
    rw [hfirst] at hu
    rw [hv, hu]
    exact ⟨rfl, rfl, rfl, rfl, rfl⟩
  | false =>
    have hfirst : first = true := by simp [first, hsent]
    have hv : v = sendAck p true false u := if_pos hfirst
    rw [hfirst] at hu
    have hack : (sendAck p true false u).lport p = u.lport p := lport_congr (emit_lports u _) p
    have hout : (sendAck p true false u).work.fab.out =
      .ack p ((u.lport p).rxSeq.getD 0) true false (u.lport p).rxSeq.isSome (u.lport p).rxCredits :: u.work.fab.out := rfl
    rw [hv, hack, hout, hu]
    exact ⟨rfl, rfl, rfl, rfl, rfl⟩

/-- A frame that does not hold, or is not next, is discarded (R479). -/
theorem linkFrame_discards {seq : BitVec 8} {flits : List Byte} {crc : BitVec 32} {arrival : Nat} (hp : p < 6)
    (htouch : (b.lport p).inTouch = true) (hbad : frameCrc seq flits ≠ crc ∨ seq ≠ nextRx (b.lport p)) :
    ∃ crcBad, linkFrame p seq flits crc arrival b = discardFrame p crcBad b := by
  unfold linkFrame
  dsimp only
  rw [if_neg (by simp [hp, htouch]), if_pos]
  · exact ⟨_, rfl⟩
  · rcases hbad with hcrc | hseq
    · simp [hcrc]
    · simp [hseq]

/-- A port that has accepted a frame. -/
def LinkPort.accepts (seq : BitVec 8) (x : LinkPort) : LinkPort := { x with rxSeq := some seq, nakSent := false }

/-- A frame that holds and is next is accepted; its messages are received where the port is UP (R479). -/
theorem linkFrame_accepts {seq : BitVec 8} {flits : List Byte} {crc : BitVec 32} {arrival : Nat} (hp : p < 6)
    (htouch : (b.lport p).inTouch = true) (hwords : flits.length % 64 = 0) (hmin : 64 ≤ flits.length) (hmax : flits.length ≤ 256)
    (hcrc : frameCrc seq flits = crc) (hseq : seq = nextRx (b.lport p)) :
    linkFrame p seq flits crc arrival b = if (b.lport p).state = .up then
        ((List.range (flits.length / 32)).map fun i => msgOf (bytesAt flits (32 * i) 32)).foldl (fun b m => receiveMsg p arrival m b)
          (b.updLport p (LinkPort.accepts seq))
      else b.updLport p (LinkPort.accepts seq) := by
  unfold linkFrame
  dsimp only
  rw [if_neg (by simp [hp, htouch]), if_neg (by simp [hwords, hmin, hmax, hcrc, ← hseq])]
  exact if_congr beq_iff_eq rfl rfl

end

/-- Settles O42: the scrambler's inverse, the block lock that receipt keeps, and each row of the frames by its port's state. -/
theorem linkFrames : Obligations.LinkFrames := by
  refine ⟨fun st x => ⟨descramble_scramble st x.payload, decode_code st x⟩, fun b p bs hp => ?receipt,
    fun s p seq h => ⟨defers_of rfl h rfl, defers_of rfl h rfl, defers_of rfl h rfl⟩,
    fun b p f htouch => ⟨fun hone hfirst => ?late, fun hin hagain => ?lateAgain, ?silence⟩,
    fun s p h hp => ⟨fun seq flits crc arrival hnone => ?unheard, fun seq flits crc arrival htouch hheard => ⟨fun hwords hmin hmax hcrc hseq => ?good,
      fun hbad => ?bad⟩, fun a n htouch => ⟨fun hheard => ?acked, fun hheard nak v => ?sleeps, ?ackDue⟩,
      fun hstate hclean hcount hr0 hr1 hb0 hb1 hack => ?clean, fun hstate hwindow => ?null, fun q hout hport htransit => ?transit,
      fun hon hstate => ?wake, fun hwaking hstate hseven => ?wakeLate, fun q arrival m w htake hkind hsrc hview hvalid hchip htouch => ?notice⟩⟩
  case receipt =>
    have hhears := received_hears p bs b
    obtain ⟨h0, h1⟩ := received_keeps p bs b
    have hown := congrArg (fun x : LinkPort => { x with lane0 := ((b.received p bs).lport p).lane0, lane1 := ((b.received p bs).lport p).lane1 }) hhears.own
    exact ⟨hown, hhears.others, hhears.work, h0, h1⟩
  case late =>
    have hlate : decideLate b (.ackTimeout p f.seq) = resendFrom p (fun g => g.seq == f.seq) b := by
      change ackLate p f.seq b = _
      unfold ackLate
      rw [if_pos (by simp [htouch, hone, hfirst])]
    dsimp only
    rw [hlate]
    exact resendFrom_one hone hfirst
  case lateAgain =>
    change Lost p St.linkDeadline b (resendLate p f.seq b)
    have hany : ((b.lport p).unacked.any fun g => g.seq == f.seq && g.resent) = true :=
      List.any_eq_true.mpr ⟨f, hin, by simp [hagain]⟩
    unfold resendLate
    rw [if_pos (by rw [htouch, hany]; rfl)]
    exact (loseNeighbour_lost p St.linkDeadline b).1
  case silence =>
    change Lost p St.peerLost b (silence p b)
    unfold silence
    rw [if_pos htouch]
    exact (loseNeighbour_lost p St.peerLost b).1
  case unheard =>
    refine acts_of (f := whereLocked p (frameBlocks seq flits crc) (linkFrame p seq flits crc arrival)) rfl h ?_
    have hhears := received_hears p (frameBlocks seq flits crc) s.core
    rw [whereLocked, if_neg (by rw [hnone]; decide)]
    generalize s.core.received p (frameBlocks seq flits crc) = r at hhears ⊢
    rw [lport_updLport]
    exact ⟨(congrArg LinkPort.rxSeq hhears.own :), (congrArg LinkPort.crcErrors hhears.own :), hhears.work⟩
  case good =>
    refine acts_of (f := whereLocked p (frameBlocks seq flits crc) (linkFrame p seq flits crc arrival)) rfl h ?_
    have hhears := received_hears p (frameBlocks seq flits crc) s.core
    rw [whereLocked, if_pos hheard]
    generalize s.core.received p (frameBlocks seq flits crc) = r at hhears ⊢
    have hstate : (r.lport p).state = (s.core.lport p).state := (congrArg LinkPort.state hhears.own :)
    have hnext : seq = nextRx (r.lport p) := hseq.trans (congrArg nextRx hhears.own :).symm
    rw [linkFrame_accepts hp (hhears.inTouch.trans htouch) hwords hmin hmax hcrc hnext]
    have haccepts := updLport_retrains p (LinkPort.accepts seq) r
    generalize r.updLport p (LinkPort.accepts seq) = u at haccepts ⊢
    refine ⟨?_, fun hprob => ?_, fun m hup hm hknown htyp hcast hdest => ?_⟩
    · split
      · exact (lport_congr (foldl_lports (fun v m => receiveMsg_lports v p arrival m) _ u) p).trans haccepts.own
      · exact haccepts.own
    · rw [if_neg (by rw [hstate, hprob]; decide), haccepts.work, hhears.work]
    · rw [if_pos (hstate.trans hup), show flits.length / 32 = (flits.length / 32 - 1) + 1 by omega, List.range_succ_eq_map, List.map_cons, List.foldl_cons]
      refine foldl_receiveMsg_inbox _ ?_
      rw [Nat.mul_zero, ← hm]
      exact receiveMsg_delivers hknown htyp hcast (by rw [haccepts.dct, hhears.dct]; exact hdest)
  case bad =>
    refine acts_of (f := whereLocked p (frameBlocks seq flits crc) (linkFrame p seq flits crc arrival)) rfl h ?_
    have hhears := received_hears p (frameBlocks seq flits crc) s.core
    rw [whereLocked, if_pos hheard]
    generalize s.core.received p (frameBlocks seq flits crc) = r at hhears ⊢
    have hnext : nextRx (r.lport p) = nextRx (s.core.lport p) := (congrArg nextRx hhears.own :)
    obtain ⟨crcBad, hgoes⟩ := linkFrame_discards (b := r) (arrival := arrival) hp (hhears.inTouch.trans htouch) (by rw [hnext]; exact hbad)
    obtain ⟨herrors, hrx, hsent, hnaks, hout⟩ := discardFrame_discards p crcBad r
    have hold : (r.lport p).nakSent = (s.core.lport p).nakSent := (congrArg LinkPort.nakSent hhears.own :)
    have hrx0 : (r.lport p).rxSeq = (s.core.lport p).rxSeq := (congrArg LinkPort.rxSeq hhears.own :)
    have hcredits : (r.lport p).rxCredits = (s.core.lport p).rxCredits := (congrArg LinkPort.rxCredits hhears.own :)
    rw [hgoes]
    refine ⟨herrors.trans (congrArg (fun x : LinkPort => satInc x.crcErrors) hhears.own :), hrx.trans hrx0, hsent, ?_, ?_⟩
    · rw [hnaks, hold, show (r.lport p).naks = (s.core.lport p).naks from (congrArg LinkPort.naks hhears.own :)]
    · rw [hout, hold, hrx0, hcredits, hhears.work]
  case acked =>
    refine acts_of (f := whereLocked p [ackBlk a false false true n.toNat] (ackBlock p a false false true n)) rfl h ?_
    have hhears := received_hears p [ackBlk a false false true n.toNat] s.core
    rw [whereLocked, if_pos (by exact hheard)]
    generalize s.core.received p [ackBlk a false false true n.toNat] = r at hhears ⊢
    have hunclean : (r.lport p).unclean = (s.core.lport p).unclean := (congrArg LinkPort.unclean hhears.own :)
    have hunacked : (r.lport p).unacked = (s.core.lport p).unacked := (congrArg LinkPort.unacked hhears.own :)
    have hackAt : (r.lport p).ackAt = (s.core.lport p).ackAt := (congrArg LinkPort.ackAt hhears.own :)
    rw [ackBlock, if_neg (by simp [hp, hhears.inTouch, htouch]), if_neg (by decide)]
    dsimp only
    rw [if_neg (by decide), lport_updLport]
    simp only [hunclean, hunacked, hackAt, hhears.now, if_true]
  case sleeps =>
    refine acts_of (f := whereLocked p [ackBlk a nak true v n.toNat] (ackBlock p a nak true v n)) rfl h ?_
    have hhears := received_hears p [ackBlk a nak true v n.toNat] s.core
    rw [whereLocked, if_pos (by exact hheard)]
    generalize s.core.received p [ackBlk a nak true v n.toNat] = r at hhears ⊢
    rw [ackBlock, if_neg (by simp [hp, hhears.inTouch, htouch]), if_pos rfl, partnerSleeps, lport_updLport]
  case ackDue =>
    refine acts_of (f := ackDue p) rfl h ?_
    unfold ackDue
    rw [if_pos htouch]
    exact ⟨lport_congr (emit_lports s.core _) p,
      tblGet_tblUpd_same _ s.core.lnk.coders p fun c => [ackBlk _ false false _ _].foldl Coder.send c, rfl⟩
  case clean =>
    refine acts_of (f := cleanBeat p) rfl h ?_
    rw [cleanBeat, if_neg (by simp [hstate, hclean, hcount, hr0, hr1, hb0, hb1, hack])]
    split
    · exact (lport_congr (framePortUp_lports _ p) p).trans (lport_updLport ..)
    · exact lport_updLport ..
  case null =>
    refine acts_of (f := nullFrame p) rfl h ?_
    rw [nullFrame, if_pos (by simp [hstate, hwindow]), sendFrame]
    exact (lport_congr (emit_lports _ _) p).trans (lport_updLport ..)
  case transit =>
    refine acts_of (f := transitLate p 0) rfl h ?_
    have hcount : 0 < (s.core.work.msgs.out.filter fun x => x.port == p && x.transit).length := by simp [hout, hport, htransit]
    rw [transitLate, if_pos hcount]
    refine ⟨?_, tblGet_tblUpd_same ..⟩
    change dropTransit p 0 s.core.work.msgs.out = []
    rw [hout, dropTransit, if_pos (by simp [hport, htransit]), if_pos rfl]
  case wake =>
    refine acts_of (f := wakeOp p) rfl h ?_
    have hgoes : wakeOp p s.core = wakePort p s.core := by
      rw [wakeOp, if_pos (by simp [hp, hon, hstate])]
    rw [hgoes]
    exact wakePort_wakes p s.core
  case wakeLate =>
    refine acts_of (f := wakeLate p) rfl h ?_
    have hgoes : wakeLate p s.core = loseNeighbour p St.peerLost s.core := by
      unfold wakeLate
      dsimp only
      rw [if_pos (by simp [hwaking, hstate, hseven])]
    rw [hgoes]
    exact (loseNeighbour_lost p St.peerLost s.core).1
  case notice =>
    refine acts_msgAll (f := fun _ _ m b => noticeMsg m b) rfl h htake ?_
    have hfits : ((s.core.lport p).nbrValid && (s.core.lport p).nbrChip.toNat == m.src.toNat && (s.core.lport p).inTouch) = true := by
      simp [hvalid, hchip, htouch]
    rw [noticeMsg_resets (b := { s.core with work := w }) hkind hsrc hview]
    exact foldl_resets_lost (b := { s.core with work := w }) hfits _ (List.mem_range.mpr hp) List.nodup_range

end Sys2Proof.Machine

end

-- Proofs about requests at the dictionary window (R668 to R671, R678).
section

namespace Sys2Proof.Machine

/-! ### Requests at the dictionary window (R668 to R671, R678) -/

section

variable {b : Block} {r : DictReq} {row : PRow}

/-! #### The rows of numbers -/

/-- No row of a number reaches an index whose value has a length of its own. -/
theorem scalarRows : ∀ row ∈ paramRows, row.ty.isBytes = false →
    (∀ x ∈ [0x1001, 0x1007, 0x501B, 0x6008], x < row.index ∨ row.index + row.count ≤ x) ∧
    (row.index + row.count ≤ 0x8040 ∨ 0x8080 ≤ row.index) := by decide +kernel

/-- The index of a number is none of the indices of strings, BLOBs and context records. -/
structure Scalar (i : Nat) : Prop where
  lot : i ≠ 0x1001
  die : i ≠ 0x1007
  join : i ≠ 0x501B
  sill : i ≠ 0x6008
  ctxs : ¬(0x8040 ≤ i ∧ i < 0x8080)

theorem scalar_of_row {i j : Nat} (h : paramRow i j = some row) (hty : row.ty.isBytes = false) : Scalar i := by
  obtain ⟨hout, hctx⟩ := scalarRows row (List.mem_of_find?_eq_some h) hty
  have hholds := List.find?_some h
  simp only [PRow.holds, Bool.and_eq_true, decide_eq_true_eq] at hholds
  obtain ⟨⟨⟨hlow, hhigh⟩, -⟩, -⟩ := hholds
  have hne (x : Nat) (hx : x ∈ [0x1001, 0x1007, 0x501B, 0x6008]) : i ≠ x := by
    have := hout x hx
    omega
  exact ⟨hne _ (by decide), hne _ (by decide), hne _ (by decide), hne _ (by decide), by omega⟩

theorem parSize_scalar {i : Nat} (h : Scalar i) (b : Block) (row : PRow) : parSize b row i = row.ty.size := by
  rw [parSize, if_neg h.lot, if_neg h.die, if_neg h.ctxs]

theorem parBytes_scalar {i : Nat} (h : Scalar i) (b : Block) (row : PRow) (j : Nat) :
    parBytes b row i j = leBytes row.ty.size (parNat b i j) := by
  rw [parBytes, if_neg h.lot, if_neg h.die, if_neg h.sill]

/-! #### The checks of a request in the window -/

/-- A request for this chip that carries no more than its path takes (R671 order 1). -/
structure Fits (r : DictReq) : Prop where
  size : r.size = 12 + 4096
  least : 1 ≤ r.op
  most : r.op ≤ 3
  here : r.target < 64
  len : r.len ≤ 4096

theorem remote_of_here (h : r.target < 64) : r.remote = false := Nat.testBit_lt_two_pow (i := 6) h

theorem away_of_here (h : r.target < 64) (b : Block) : r.away b = false := by rw [DictReq.away, remote_of_here h, Bool.false_and]

theorem reserved_of_here (h : r.target < 64) : r.target.testBit 7 = false := Nat.testBit_lt_two_pow (Nat.lt_trans h (by decide))

theorem Fits.notBad (h : Fits r) (b : Block) : badRequest b .bar0 r = false := by
  obtain ⟨hsize, hleast, hmost, hhere, hlen⟩ := h
  have hfour : (r.op == 4) = false := beq_eq_false_iff_ne.mpr (by omega)
  have hread : (r.op == 1 && decide (4096 < r.len)) = false := by
    rw [decide_eq_false (by omega), Bool.and_false]
  have hwrite : (r.op == 2 && (decide (4096 < r.len) || decide (r.size < 12 + r.len))) = false := by
    rw [decide_eq_false (by omega), decide_eq_false (by omega), Bool.or_self, Bool.and_false]
  simp only [badRequest, pathLimits, away_of_here hhere, remote_of_here hhere, reserved_of_here hhere, hfour]
  simp only [reduceCtorEq, decide_false, Bool.or_self, Bool.false_eq_true, if_false, hread, hwrite, Bool.false_and, Bool.or_false]
  simp only [Bool.not_eq_false', Bool.and_eq_true, decide_eq_true_eq, Bool.or_eq_false_iff, decide_eq_false_iff_not]
  omega

/-- The checks of a READ, WRITE or INFO of a parameter, in their order (R671). -/
theorem checkReq_row (h : Fits r) (hhalt : b.st.halted = false) (hrow : paramRow r.index r.sub = some row) :
    checkReq b .bar0 r = if denied .bar0 row r then St.accessDenied else if !shapeOk b row r then St.typeMismatch
      else if r.op == 2 && (locked b row r.sub || !stateRule b r.index) then St.lockedInState
      else if outOfRange b row r then St.valueRange else St.ok := by
  have hfour : r.op ≠ 4 := by have := h.most; omega
  rw [checkReq, h.notBad b, if_neg (by decide), if_neg hfour, hrow]
  dsimp only
  rw [lockedOut, hhalt, Bool.false_and, Bool.or_false]

theorem checkReq_none (h : Fits r) (b : Block) (hrow : paramRow r.index r.sub = none) : checkReq b .bar0 r = St.noSuchObject := by
  have hfour : r.op ≠ 4 := by have := h.most; omega
  rw [checkReq, h.notBad b, if_neg (by decide), if_neg hfour, hrow]

/-! #### Serving the window -/

theorem windowReq_size (b : Block) : (reqOf (windowBody b)).size = 12 + 4096 := by simp [reqOf, windowBody]

/-- A row of the window serves its request, at its turn. -/
theorem acts_window {s : State} {P : Block → Prop} (h : s.live) (hturn : WindowTurn s.core) (hr : reqOf (windowBody s.core) = r)
    (hfree : r.away s.core = false ∨ s.core.frm.fwd.length < 16) (hP : P (serve (windowServing s.core) true (atWindow s.core))) :
    Acts (windowRow r.op) s P := by
  obtain ⟨hserves, -, hbusy, hpath⟩ := hturn
  have hhead : headReq s.core .bar0 = some (windowServing s.core, s.core) := if_pos hbusy
  have hgoes : (r.away s.core && tagsFree s.core == 0) = false := by
    rcases hfree with haway | hfew
    · rw [haway, Bool.false_and]
    · rw [tagsFree, beq_eq_false_iff_ne.mpr (by omega), Bool.and_false]
  have hserve (takes : Nat → Bool) (htakes : takes r.op = true) : P (dictRow .bar0 0 0 [] takes true s.core) := by
    have hpaths : servePath .bar0 takes true s.core = serve (windowServing s.core) true (atWindow s.core) := by
      simp [servePath, hserves, hpath, hhead, windowServing, hr, htakes, hgoes, atWindow]
    change P (servePath .bar0 takes true s.core)
    rw [hpaths]
    exact hP
  unfold windowRow
  split
  next htwo => exact ⟨_, hserve (fun o => o == 2) (by simp [htwo]), congrArg Host.Outcome.next (onI3c_live s false _ h)⟩
  next htwo =>
    split
    next hthree => exact ⟨_, hserve (fun o => o == 3) (by simp [hthree]), congrArg Host.Outcome.next (onI3c_live s false _ h)⟩
    next hthree =>
      split
      next hfour => exact ⟨_, hserve (fun o => o == 4) (by simp [hfour]), congrArg Host.Outcome.next (onI3c_live s false _ h)⟩
      next hfour =>
        have htakes : (!(decide (2 ≤ r.op) && decide (r.op ≤ 4))) = true := by
          rw [Bool.not_eq_true', Bool.and_eq_false_iff, decide_eq_false_iff_not, decide_eq_false_iff_not]
          omega
        exact ⟨_, hserve (fun o => !(2 ≤ o && o ≤ 4)) htakes, congrArg Host.Outcome.next (onI3c_live s false _ h)⟩

theorem acts_op {s : State} {P : Block → Prop} {op n : Nat} (h : op = n) (hP : Acts (windowRow op) s P) : Acts (windowRow n) s P := h ▸ hP

/-- A request that fails a check is answered with its status. -/
theorem acts_window_aborts {s : State} {st : Status} (h : s.live) (hturn : WindowTurn s.core) (hr : reqOf (windowBody s.core) = r)
    (hfree : r.away s.core = false ∨ s.core.frm.fwd.length < 16)
    (hhere : (r.away (atWindow s.core) && !badRequest (atWindow s.core) .bar0 r) = false)
    (hcheck : checkReq (atWindow s.core) .bar0 r = st) (hst : st ≠ St.ok) : Acts (windowRow r.op) s (Aborts s.core st) := by
  refine acts_window h hturn hr hfree ?_
  have hserve : serve (windowServing s.core) true (atWindow s.core) = answer (windowServing s.core) st [] (atWindow s.core) := by
    unfold serve
    rw [windowServing_body, hr]
    dsimp only
    rw [if_neg (by rw [show (windowServing s.core).path = .bar0 from rfl, hhere]; decide)]
    rw [if_pos (by rw [show (windowServing s.core).path = .bar0 from rfl, hcheck]; exact hst)]
    exact congrArg (fun x => answer (windowServing s.core) x [] (atWindow s.core)) hcheck
  rw [hserve]
  exact aborts_answer s.core st

/-- A block whose request in service is over and counted (R672). -/
def servedOver (b : Block) : Block := b.updDct fun d => { d with serving := none, requests := d.requests + 1 }

theorem answer_inWindow {x : Serving} (hpath : x.path = .bar0) (st : Status) (data : List Byte) (u : Block) :
    answer x st data u = windowAnswer (answerBytes (reqOf x.body) st data) (servedOver u) := by
  rw [answer, giveAnswer, hpath]
  rfl

/-- The answer to the window's request, given by a block that holds its window still. -/
theorem inWindow_answer {b u : Block} {x : Serving} (hpath : x.path = .bar0) (hbody : x.body = windowBody b) (st : Status) (data :
    List Byte)
    (hbuf : u.dct.buf = b.dct.buf) (hrequests : u.dct.requests = b.dct.requests) : InWindow b st data (answer x st data u) := by
  rw [answer_inWindow hpath, hbody]
  have hover : (servedOver u).dct.requests = b.dct.requests + 1 := congrArg (· + 1) hrequests
  exact inWindow_windowAnswer st data (b' := servedOver u) hbuf rfl hover

/-- What the answer in the window leaves. -/
theorem answer_leaves {x : Serving} (hpath : x.path = .bar0) (st : Status) (data : List Byte) (u : Block) :
    (answer x st data u).dct.vals = u.dct.vals ∧ (answer x st data u).clk = u.clk ∧ (answer x st data u).work.objs = u.work.objs ∧
    (answer x st data u).dct.halfA = u.dct.halfA ∧ (answer x st data u).dct.halfB = u.dct.halfB := by
  rw [answer_inWindow hpath, (windowAnswer_frame _ _).1, windowAnswer_dct]
  refine ⟨rfl, rfl, ?_, rfl, rfl⟩
  unfold windowAnswer
  dsimp only
  split <;> rfl

theorem shape_read (hop : r.op = 1) (hrow : paramRow r.index r.sub = some row) (hty : row.ty.isBytes = false)
    (hcode : r.ty = 0 ∨ r.ty = row.ty.code) : shapeOk b row r = (r.off == 0 && decide (row.ty.size ≤ r.len)) := by
  have htype : (r.ty == row.ty.code || (r.ty == 0 && r.op != 2)) = true := by
    rcases hcode with hzero | hsame
    · rw [hzero, hop]
      simp
    · rw [hsame]
      simp
  unfold shapeOk
  dsimp only
  rw [htype, if_pos hop, hty, parSize_scalar (scalar_of_row hrow hty), Bool.true_and]
  rfl

theorem shape_write (hop : r.op = 2) (hty : row.ty.isBytes = false) :
    shapeOk b row r = (r.ty == row.ty.code && (r.off == 0 && r.len == row.ty.size)) := by
  unfold shapeOk
  rw [hop]
  cases ht : row.ty with
  | str n => rw [ht] at hty; cases hty
  | blob n => rw [ht] at hty; cases hty
  | _ => simp

theorem shape_info (hop : r.op = 3) (hcode : r.ty = 0 ∨ r.ty = row.ty.code) (hoff : r.off = 0) (hlen : r.len = 0) :
    shapeOk b row r = true := by
  unfold shapeOk
  rcases hcode with hzero | hsame <;> simp [*]

theorem denied_write (hop : r.op = 2) (hacc : row.acc ≠ .ro) (hjoin : r.index ≠ 0x501B) : denied .bar0 row r = false := by
  simp [denied, hop, hacc, hjoin]

/-- The checks of a write of a number that is no command of the frame (R671). -/
theorem checkReq_write (h : Fits r) (hhalt : b.st.halted = false) (hrow : paramRow r.index r.sub = some row) (hop : r.op = 2)
    (hacc : row.acc ≠ .ro) (hty : row.ty.isBytes = false) (hidx : r.index ≠ 0x501A) :
    checkReq b .bar0 r = if !(r.ty == row.ty.code && (r.off == 0 && r.len == row.ty.size)) then St.typeMismatch
      else if locked b row r.sub then St.lockedInState
      else if !valueOk b.st.present b.dictNow row r.index r.sub (leNat r.data) then St.valueRange else St.ok := by
  have hjoin := (scalar_of_row hrow hty).join
  have hrule : stateRule b r.index = true := by rw [stateRule, if_neg hidx, if_neg hjoin]
  have hrange : outOfRange b row r = !valueOk b.st.present b.dictNow row r.index r.sub (leNat r.data) := by
    unfold outOfRange
    simp [hop, hidx, hty]
  rw [checkReq_row h hhalt hrow, denied_write hop hacc hjoin, if_neg (by decide), shape_write hop hty, hrule, hrange, hop]
  simp

/-- The checks of a READ or INFO of a parameter that may be read (R671). -/
theorem checkReq_shown (h : Fits r) (hhalt : b.st.halted = false) (hrow : paramRow r.index r.sub = some row) (hop : r.op ≠ 2)
    (hdenied : denied .bar0 row r = false) : checkReq b .bar0 r = if !shapeOk b row r then St.typeMismatch else St.ok := by
  have htwo : (r.op == 2) = false := beq_eq_false_iff_ne.mpr hop
  rw [checkReq_row h hhalt hrow, hdenied, outOfRange, htwo]
  simp

/-- A write of a number that is no command leaves its value, and the rest of the dictionary (R667). -/
theorem writePar_sets {i j : Nat} {data : List Byte} (hcmd : i ≠ 0x501A) (hjoin : i ≠ 0x501B)
    (htrack : ¬(0x4100 ≤ i ∧ i < 0x4140 ∧ 0x18 ≤ j ∧ j < 0x20)) (b : Block) :
    (writePar i j data b).dct = b.dct.setPar i j (leNat data) ∧
    (writePar i j data b).clk = (if i = 0x2001 then { b.clk with quarters := BitVec.ofNat 8 (leNat data) } else b.clk) := by
  unfold writePar
  dsimp only
  rw [if_neg hcmd, if_neg hjoin, if_neg htrack]
  split
  · exact ⟨rfl, rfl⟩
  · unfold takeSizes
    split <;> exact ⟨rfl, rfl⟩

/-- The turn of the paths decides no value (R671). -/
theorem valueOk_atWindow (b : Block) (row : PRow) (i j v : Nat) :
    valueOk (atWindow b).st.present (atWindow b).dictNow row i j v = valueOk b.st.present b.dictNow row i j v := rfl

theorem locked_atWindow (b : Block) (row : PRow) (j : Nat) : locked (atWindow b) row j = locked b row j := rfl

theorem parNat_atWindow (b : Block) (i j : Nat) : parNat (atWindow b) i j = parNat b i j := rfl

/-- INFO of a number (R670). -/
theorem infoBytes_scalar {i j : Nat} (h : Scalar i) (hty : row.ty.isBytes = false) :
    infoBytes b row i j = leBytes 1 row.ty.code ++ leBytes 1 (match row.acc with | .ro => 0 | .rw => 1 | .rwl => 2 | .wo => 3) ++
      leBytes 1 ((if row.pers then 1 else 0) + if locked b row j then 2 else 0) ++ leBytes 1 0 ++ leBytes 4 row.ty.size ++
      leBytes 8 row.dflt := by
  unfold infoBytes bit
  dsimp only
  rw [if_neg h.ctxs, hty]
  simp only [Bool.false_eq_true, if_false]
  cases locked b row j <;> rfl

/-- A request that passes its checks is served (R671). -/
theorem serve_passes {x : Serving} {u : Block} (hr : reqOf x.body = r) (hpath : x.path = .bar0) (hhere : r.target < 64)
    (hcheck : checkReq u .bar0 r = St.ok) (storeOk : Bool) :
    serve x storeOk u = if r.op = 1 then serveRead x r u
      else if r.op = 2 then answer x St.ok [] (writePar r.index r.sub r.data u)
      else if r.op = 3 then
        match paramRow r.index r.sub with
        | some row => answer x St.ok (infoBytes u row r.index r.sub) u
        | none => u
      else beginDictSave x storeOk u := by
  unfold serve
  rw [hr]
  dsimp only
  rw [away_of_here hhere, Bool.false_and, if_neg (by decide), hpath, hcheck, if_neg (by decide)] <;> rfl

/-! #### SAVE (R678) -/

/-- Everything emitted in a row goes out, and nothing that went out before is lost. -/
theorem foldl_emit_out (os : List Output) (b : Block) :
    ∀ o, o ∈ os ∨ o ∈ b.work.fab.out → o ∈ (os.foldl (fun b o => b.emit o) b).work.fab.out := by
  induction os generalizing b with
  | nil => exact fun o ho => ho.resolve_left List.not_mem_nil
  | cons x os ih =>
    intro o ho
    refine ih (b.emit x) o ?_
    rw [Block.emit_work, List.mem_cons] at *
    rcases ho with (rfl | ho) | ho
    · exact .inr List.mem_cons_self
    · exact .inl ho
    · exact .inr (List.mem_cons_of_mem _ ho)

theorem writeHalf_writes (base : Nat) (bytes : List Byte) (b : Block) :
    (∀ o ∈ halfOps b.storeMode (b.dct.at 0x6006 0 1 == 1) base bytes, o ∈ (writeHalf base bytes b).work.fab.out) ∧
    (writeHalf base bytes b).dct = b.dct := by
  unfold writeHalf
  refine ⟨fun o ho => ?_, ?_⟩
  · rw [Block.emit_work]
    exact List.mem_cons_of_mem _ (foldl_emit_out _ b o (.inl ho))
  · rw [Block.emit_dct]
    exact List.foldlRecOn (motive := fun v : Block => v.dct = b.dct) _ _ rfl fun v hv o _ => (Block.emit_dct v o).trans hv

theorem beginDictSave_begins (x : Serving) (storeOk : Bool) (b : Block) :
    let n := nextHalf b.dct
    (∀ o ∈ halfOps b.storeMode (b.dct.at 0x6006 0 1 == 1) (if n.1 then 0x18000 else 0x10000) (saveBytes b.dictNow n.2),
      o ∈ (beginDictSave x storeOk b).work.fab.out) ∧
    (beginDictSave x storeOk b).dct = { setHalf n.1 none b.dct with serving := some { x with save := some (n.1, n.2, storeOk) } } := by
  obtain ⟨hops, hdct⟩ := writeHalf_writes (halfBase (nextHalf b.dct).1) (saveBytes b.dictNow (nextHalf b.dct).2) b
  refine ⟨hops, ?_⟩
  change ({ setHalf _ none (writeHalf _ _ b).dct with serving := _ } : Dict) = _
  rw [hdct]

/-- What a change of a half sets and leaves. -/
structure HalfFrame (second : Bool) (seq : Option (BitVec 32)) (d d' : Dict) : Prop where
  halfA : d'.halfA = if second then d.halfA else seq
  halfB : d'.halfB = if second then seq else d.halfB
  buf : d'.buf = d.buf
  requests : d'.requests = d.requests
  vals : d'.vals = d.vals
  busy : d'.busy = d.busy

theorem setHalf_leaves (second : Bool) (seq : Option (BitVec 32)) (d : Dict) : HalfFrame second seq d (setHalf second seq d) := by
  cases second <;> exact ⟨rfl, rfl, rfl, rfl, rfl, rfl⟩

theorem startTest_dct (b : Block) : (startTest b).dct = b.dct := by
  unfold startTest
  split
  · obtain ⟨bytes, hop⟩ := startSill_begins .test St.ok b
    rw [hop, Block.emit_dct]
    rfl
  · rfl

theorem InWindow.congr {b b' u : Block} {st : Status} {data : List Byte} (h : InWindow b st data b') (hdct : u.dct = b'.dct) :
    InWindow b st data u := by
  unfold InWindow at *
  rw [hdct]
  exact h

/-- A SAVE that the store has taken ends with its half valid, and its answer in the window (R678). -/
theorem saveEnds_window {b u : Block} {x : Serving} {second : Bool} {seq : BitVec 32} (hpath : x.path = .bar0) (hbody :
    x.body = windowBody b)
    (hserving : u.dct.serving = some { x with save := some (second, seq, true) }) (hbuf : u.dct.buf = b.dct.buf)
    (hrequests : u.dct.requests = b.dct.requests) :
    InWindow b St.ok [] (saveEnds u) ∧ (saveEnds u).dct.vals = u.dct.vals ∧
    (saveEnds u).dct.halfA = (if second then u.dct.halfA else some seq) ∧
    (saveEnds u).dct.halfB = (if second then some seq else u.dct.halfB) := by
  obtain ⟨hsetA, hsetB, hsetBuf, hsetRequests, hsetVals, -⟩ := setHalf_leaves second (some seq) u.dct
  have hwindow := inWindow_answer (b := b) (u := u.updDct (setHalf second (some seq))) (x := { x with save := some (second, seq, true) })
    hpath hbody St.ok [] (hsetBuf.trans hbuf) (hsetRequests.trans hrequests)
  obtain ⟨hvals, -, -, hA, hB⟩ := answer_leaves (x := { x with save := some (second, seq, true) }) hpath St.ok []
    (u.updDct (setHalf second (some seq)))
  have hends : (saveEnds u).dct =
      (answer { x with save := some (second, seq, true) } St.ok [] (u.updDct (setHalf second (some seq)))).dct := by
    unfold saveEnds
    rw [hserving]
    dsimp only
    rw [if_pos rfl, if_pos rfl]
    split
    · exact startTest_dct _
    · rfl
  rw [hends]
  exact ⟨hwindow.congr hends, hvals.trans hsetVals, hA.trans hsetA, hB.trans hsetB⟩

theorem saveBytes_atWindow (b : Block) (seq : BitVec 32) : saveBytes (atWindow b).dictNow seq = saveBytes b.dictNow seq := rfl

end

/-- Settles O44: the checks in their order, and what a served READ, WRITE, INFO and SAVE leave. -/
theorem dictionaryAtTheWindow : Obligations.DictionaryAtTheWindow := by
  intro s h hturn r d
  have ⟨hserves, hhalt, hbusy, hpath⟩ := hturn
  have hr : reqOf (windowBody s.core) = r := rfl
  clear_value r
  have hsize : r.size = 12 + 4096 := hr ▸ windowReq_size s.core
  have hbody : reqOf (windowServing s.core).body = r := (congrArg reqOf (windowServing_body s.core)).trans hr
  have hon : (atWindow s.core).st.halted = false := hhalt
  refine ⟨fun hbad hfree => ?bad, fun hleast hmost hhere hlen => ⟨fun hnone => ?none, fun row hrow => ⟨fun hdenied => ?denied,
    fun hop hacc hty hcode => ⟨fun hshape => ?readShape, fun hoff hfull => ?read⟩,
    fun hop hacc hty hidx => ⟨fun hshape => ?writeShape, fun hcode hoff hfull => ⟨fun hlocked => ?writeLocked, fun hlocked hvalue => ?writeRange,
      fun hlocked hvalue hplain => ?write, fun hd hlocked hvalue hone hlow hhigh hsub hsub' htrack hlive => ?clear⟩⟩,
    fun hop hty hcode hoff hzero => ?info⟩⟩, fun hop hhere hidx hsub hty hlen hoff => ⟨fun hnone => ?fresh, fun q hnewer hq => ?second,
      fun q hnewer hq => ?first, ?save⟩⟩
  case bad =>
    have hbad' : badRequest (atWindow s.core) .bar0 r = true := by
      unfold badRequest
      rcases hbad with hop | hbit | ⟨hremote, hmgr⟩
      · have hop' : (decide (1 ≤ r.op) && decide (r.op ≤ 4)) = false := by
          rw [Bool.and_eq_false_iff, decide_eq_false_iff_not, decide_eq_false_iff_not]
          omega
        simp [hop']
      · simp [hbit]
      · simp [hremote, show isMgr (atWindow s.core) = false from hmgr]
    exact acts_window_aborts h hturn hr hfree (by rw [hbad']; simp) (by rw [checkReq, hbad']; rfl) (by decide)
  case none =>
    have hfits : Fits r := ⟨hsize, hleast, hmost, hhere, hlen⟩
    have haway := away_of_here hhere
    exact acts_window_aborts h hturn hr (.inl (haway _)) (by rw [haway]; rfl) (checkReq_none hfits _ hnone) (by decide)
  case denied =>
    have hfits : Fits r := ⟨hsize, hleast, hmost, hhere, hlen⟩
    have haway := away_of_here hhere
    have hdenied' : denied .bar0 row r = true := by
      rcases hdenied with ⟨hop, hacc⟩ | ⟨hop, hacc | hidx⟩ <;> simp [denied, *]
    exact acts_window_aborts h hturn hr (.inl (haway _)) (by rw [haway]; rfl)
      (by rw [checkReq_row hfits hon hrow, hdenied', if_pos rfl]) (by decide)
  case readShape =>
    have hfits : Fits r := ⟨hsize, hleast, hmost, hhere, hlen⟩
    have haway := away_of_here hhere
    have hcheck : checkReq (atWindow s.core) .bar0 r = St.typeMismatch := by
      rw [checkReq_shown hfits hon hrow (by omega) (by simp [denied, hop, hacc]), shape_read hop hrow hty hcode]
      rcases hshape with hoff | hfew
      · simp [hoff]
      · rw [decide_eq_false (Nat.not_le.mpr hfew), Bool.and_false]
        rfl
    exact acts_op hop (acts_window_aborts h hturn hr (.inl (haway _)) (by rw [haway]; rfl) hcheck (by decide))
  case read =>
    have hfits : Fits r := ⟨hsize, hleast, hmost, hhere, hlen⟩
    have hscalar := scalar_of_row hrow hty
    have hcheck : checkReq (atWindow s.core) .bar0 r = St.ok := by
      rw [checkReq_shown hfits hon hrow (by omega) (by simp [denied, hop, hacc]), shape_read hop hrow hty hcode, hoff, decide_eq_true hfull]
      rfl
    refine acts_op hop (acts_window h hturn hr (.inl (away_of_here hhere _)) ?_)
    rw [serve_passes hbody rfl hhere hcheck, if_pos hop, serveRead, hrow]
    dsimp only
    rw [if_neg hscalar.ctxs, parBytes_scalar hscalar, hty, parNat_atWindow]
    exact ⟨inWindow_answer rfl (windowServing_body _) _ _ rfl rfl, (answer_leaves rfl _ _ _).1⟩
  case writeShape =>
    have hfits : Fits r := ⟨hsize, hleast, hmost, hhere, hlen⟩
    have haway := away_of_here hhere
    have hcheck : checkReq (atWindow s.core) .bar0 r = St.typeMismatch := by
      rw [checkReq_write hfits hon hrow hop hacc hty hidx]
      rcases hshape with hbad | hbad | hbad <;> simp [hbad]
    exact acts_op hop (acts_window_aborts h hturn hr (.inl (haway _)) (by rw [haway]; rfl) hcheck (by decide))
  case writeLocked =>
    have hfits : Fits r := ⟨hsize, hleast, hmost, hhere, hlen⟩
    have haway := away_of_here hhere
    have hcheck : checkReq (atWindow s.core) .bar0 r = St.lockedInState := by
      rw [checkReq_write hfits hon hrow hop hacc hty hidx, locked_atWindow, hlocked]
      simp [hcode, hoff, hfull]
    exact acts_op hop (acts_window_aborts h hturn hr (.inl (haway _)) (by rw [haway]; rfl) hcheck (by decide))
  case writeRange =>
    have hfits : Fits r := ⟨hsize, hleast, hmost, hhere, hlen⟩
    have haway := away_of_here hhere
    have hcheck : checkReq (atWindow s.core) .bar0 r = St.valueRange := by
      rw [checkReq_write hfits hon hrow hop hacc hty hidx, locked_atWindow, hlocked,
        valueOk_atWindow, hvalue]
      simp [hcode, hoff, hfull]
    exact acts_op hop (acts_window_aborts h hturn hr (.inl (haway _)) (by rw [haway]; rfl) hcheck (by decide))
  case write =>
    have hfits : Fits r := ⟨hsize, hleast, hmost, hhere, hlen⟩
    have hcheck : checkReq (atWindow s.core) .bar0 r = St.ok := by
      rw [checkReq_write hfits hon hrow hop hacc hty hidx, locked_atWindow, hlocked,
        valueOk_atWindow, hvalue]
      simp [hcode, hoff, hfull]
    refine acts_op hop (acts_window h hturn hr (.inl (away_of_here hhere _)) ?_)
    rw [serve_passes hbody rfl hhere hcheck, if_neg (show ¬r.op = 1 by omega), if_pos hop]
    obtain ⟨hdct, hclk⟩ := writePar_sets (data := r.data) hidx (scalar_of_row hrow hty).join hplain (atWindow s.core)
    generalize writePar r.index r.sub r.data (atWindow s.core) = u at hdct hclk ⊢
    obtain ⟨hvals, hclk', -⟩ := answer_leaves (x := windowServing s.core) rfl St.ok [] u
    have hpar (i j : Nat) : (answer (windowServing s.core) St.ok [] u).dct.par i j =
        if i = r.index ∧ j = r.sub then leNat r.data else s.core.dct.par i j := by
      rw [par_congr hvals, hdct, par_setPar]
      rfl
    have hwindow : InWindow s.core St.ok [] (answer (windowServing s.core) St.ok [] u) :=
      inWindow_answer rfl (windowServing_body _) _ _ (congrArg Dict.buf hdct :) (congrArg Dict.requests hdct :)
    rw [hclk', hclk]
    refine ⟨hwindow, (hpar ..).trans (if_pos ⟨rfl, rfl⟩), fun i j hij => (hpar ..).trans (if_neg hij), fun hquarters => ?_, fun hother => ?_⟩
    · rw [if_pos hquarters]
    · rw [if_neg hother]
      rfl
  case clear =>
    have hfits : Fits r := ⟨hsize, hleast, hmost, hhere, hlen⟩
    have hcheck : checkReq (atWindow s.core) .bar0 r = St.ok := by
      rw [checkReq_write hfits hon hrow hop hacc hty hidx, locked_atWindow, hlocked, hone,
        valueOk_atWindow, hvalue]
      simp [hcode, hoff, hfull]
    refine acts_op hop (acts_window h hturn hr (.inl (away_of_here hhere _)) ?_)
    rw [serve_passes hbody rfl hhere hcheck, if_neg (show ¬r.op = 1 by omega), if_pos hop]
    have hclear : writePar r.index r.sub r.data (atWindow s.core) =
        (atWindow s.core).updWork fun w => w.updObj (hIndex hd) fun o => { o with guards := {} } := by
      unfold writePar
      dsimp only
      rw [if_neg hidx, if_neg (scalar_of_row hrow hty).join, if_pos ⟨hlow, hhigh, hsub, hsub'⟩, if_pos hone, trackClear,
        show (atWindow s.core).dct.trackHandle (r.index - 0x4100) (r.sub - 0x18) = hd from htrack]
      exact if_pos hlive
    rw [hclear]
    obtain ⟨hvals, -, hobjs, -, -⟩ := answer_leaves (x := windowServing s.core) rfl St.ok []
      ((atWindow s.core).updWork fun w => w.updObj (hIndex hd) fun o => { o with guards := {} })
    refine ⟨inWindow_answer rfl (windowServing_body _) _ _ rfl rfl, hvals, ?_⟩
    have hcleared := obj_updObj s.core.work (hIndex hd) fun o => { o with guards := {} }
    exact (congrArg (fun t => tblGet {} t (hIndex hd)) hobjs :).trans hcleared
  case info =>
    have hfits : Fits r := ⟨hsize, hleast, hmost, hhere, hlen⟩
    have hcheck : checkReq (atWindow s.core) .bar0 r = St.ok := by
      rw [checkReq_shown hfits hon hrow (by omega) (by simp [denied, hop]), shape_info hop hcode hoff hzero]
      rfl
    refine acts_op hop (acts_window h hturn hr (.inl (away_of_here hhere _)) ?_)
    rw [serve_passes hbody rfl hhere hcheck, if_neg (show ¬r.op = 1 by omega), if_neg (show ¬r.op = 2 by omega), if_pos hop, hrow]
    dsimp only
    refine ⟨?_, (answer_leaves rfl _ _ _).1⟩
    have hwindow := inWindow_answer (u := atWindow s.core) rfl (windowServing_body s.core) St.ok
      (infoBytes (atWindow s.core) row r.index r.sub) rfl rfl
    generalize answer (windowServing s.core) St.ok (infoBytes (atWindow s.core) row r.index r.sub) (atWindow s.core) = u at hwindow ⊢
    rw [infoBytes_scalar (scalar_of_row hrow hty) hty, locked_atWindow] at hwindow
    cases hacc : row.acc <;> rw [hacc] at hwindow <;> exact hwindow
  case fresh => rw [nextHalf, hnone]
  case second => rw [nextHalf, hnewer, hq]; rfl
  case first => rw [nextHalf, hnewer, hq]; rfl
  case save =>
    have hcheck : checkReq (atWindow s.core) .bar0 r = St.ok := by
      have hbad : badRequest (atWindow s.core) .bar0 r = false := by
        simp [badRequest, hop, hidx, hsub, hty, hlen, hoff, hsize, reserved_of_here hhere, remote_of_here hhere]
      rw [checkReq, hbad, if_neg (by decide), if_pos hop, hon, if_neg (by decide)]
    refine acts_op hop (acts_window h hturn hr (.inl (away_of_here hhere _)) ?_)
    rw [serve_passes hbody rfl hhere hcheck, if_neg (show ¬r.op = 1 by omega), if_neg (show ¬r.op = 2 by omega),
      if_neg (show ¬r.op = 3 by omega)]
    obtain ⟨hops, hdct⟩ := beginDictSave_begins (windowServing s.core) true (atWindow s.core)
    generalize beginDictSave (windowServing s.core) true (atWindow s.core) = u at hops hdct ⊢
    rw [saveBytes_atWindow] at hops
    have hserving : u.dct.serving = _ := (congrArg Dict.serving hdct :)
    have hleft := setHalf_leaves (nextHalf d).1 none (atWindow s.core).dct
    obtain ⟨hwindow, hvals, hA, hB⟩ := saveEnds_window (b := s.core) rfl (windowServing_body _) hserving
      ((congrArg Dict.buf hdct :).trans hleft.buf) ((congrArg Dict.requests hdct :).trans hleft.requests)
    have huvals : u.dct.vals = s.core.dct.vals := (congrArg Dict.vals hdct :).trans hleft.vals
    have hubusy : u.dct.busy = true := ((congrArg Dict.busy hdct :).trans hleft.busy).trans hbusy
    have huA : u.dct.halfA = if (nextHalf d).1 then d.halfA else none := (congrArg Dict.halfA hdct :).trans hleft.halfA
    have huB : u.dct.halfB = if (nextHalf d).1 then none else d.halfB := (congrArg Dict.halfB hdct :).trans hleft.halfB
    rw [hA, hB, huA, huB]
    refine ⟨hops, huvals, hubusy, fun hsecond => ?_, fun hfirst => ?_, hwindow, hvals.trans huvals, fun hsecond => ?_, fun hfirst => ?_⟩
    · simp only [hsecond, if_true, and_self]
    · simp only [hfirst, Bool.false_eq_true, if_false, and_self]
    · have hnow : (nextHalf (atWindow s.core).dct).1 = true := hsecond
      simp only [hsecond, hnow, if_true, true_and]
      rfl
    · have hnow : (nextHalf (atWindow s.core).dct).1 = false := hfirst
      simp only [hfirst, hnow, Bool.false_eq_true, if_false, true_and]
      rfl

end Sys2Proof.Machine

end

-- Proofs about the paths to the dictionary (R498, R525 to R528, R671 to R675).
section

namespace Sys2Proof.Machine

/-! ### The paths to the dictionary (R498, R525 to R528, R671 to R675) -/

section

variable {b : Block} {r : DictReq}

/-- Tables filled number by number. -/
theorem tblGet_foldl_range {α : Type} [DecidableEq α] (d : α) (f : Nat → α) (n i : Nat) (hi : i < n) :
    tblGet d ((List.range n).foldl (fun t k => tblSet d t k (f k)) []) i = f i := by
  induction n with
  | zero => omega
  | succ n ih =>
    rw [List.range_succ, List.foldl_append, List.foldl_cons, List.foldl_nil]
    by_cases h : i = n
    · subst h
      exact tblGet_tblSet_same ..
    · rw [tblGet_tblSet_other _ _ _ _ _ h, ih (by omega)]

/-- A JOIN_STATE that a following chip adopts makes it a member (R527, R528). -/
theorem adoptJoin_joins (body : List Byte) (b : Block) :
    let b' := adoptJoin body b
    b'.frm.state = .member ∧ b'.frm.admitted = BitVec.ofNat 64 (fieldAt body 0 8) ∧ b'.frm.excl = BitVec.ofNat 64 (fieldAt body 8 8) ∧
    (∀ i, i < 256 → b'.bar i = { last := BitVec.ofNat 64 (fieldAt body (80 + 8 * i) 8) }) ∧
    b'.frm.lastCause = St.frameJoined ∧ b'.dct.locked = true ∧ b'.work = b.work := by
  unfold adoptJoin
  extract_lets down bars u
  have hbars (i : Nat) (hi : i < 256) : tblGet {} bars i = { last := BitVec.ofNat 64 (fieldAt body (80 + 8 * i) 8) } := by
    unfold bars
    rw [tblGet_foldl_range _ (fun i => ({ last := BitVec.ofNat 64 (fieldAt body (80 + 8 * i) 8) } : Barrier)) _ _ hi]
  clear_value down bars
  exact ⟨rfl, rfl, rfl, hbars, rfl, rfl, rfl⟩

/-- A read for another chip is no bad request at the manager, where its answer fits the path (R671 order 1). -/
theorem notBad_remote (hsize : r.size = 12 + 4096) (hremote : r.remote = true) (htarget : r.target < 128) (haway : r.away b = true)
    (hmgr : isMgr b = true) (hop : r.op = 1) (hlen : r.len ≤ 2552) : badRequest b .bar0 r = false := by
  have hbit : r.target.testBit 7 = false := Nat.testBit_lt_two_pow htarget
  simp [badRequest, pathLimits, haway, hmgr, hop, hbit, hsize, hremote, hlen]

/-- An answer in the window ends the request in service (R674). -/
theorem giveAnswer_window {x : Serving} (hpath : x.path = .bar0) (body : List Byte) (b : Block) :
    giveAnswer x body b = windowAnswer body (servedOver b) := by
  rw [giveAnswer, hpath]
  rfl

theorem windowAnswer_ends (body : List Byte) (b : Block) :
    let b' := windowAnswer body (servedOver b)
    b'.frm = b.frm ∧ b'.dct.busy = false ∧ b'.dct.serving = none ∧ b'.dct.lastStatus = BitVec.ofNat 16 (fieldAt body 2 2) ∧
    ∀ i, i < body.length → tblGet 0 b'.dct.buf i = body.getD i 0 := by
  dsimp only
  refine ⟨(windowAnswer_frame _ _).2.1, ?_, ?_, ?_, fun i hi => (windowAnswer_buf ..).trans (if_pos hi)⟩
  · rw [windowAnswer_dct]
  · rw [windowAnswer_dct]
    rfl
  · rw [windowAnswer_dct]

/-- A row of a path other than the window's at a dictionary that serves a request: only the message arrives. -/
theorem acts_mctp {s : State} {P : Block → Prop} {src tag : BitVec 8} {m : List Byte} (h : s.live) (hm : m ≠ [])
    (hserving : (mctpArrives src tag m s.core).dct.serving.isSome = true) (hP : P (mctpArrives src tag m s.core)) :
    Acts (.dictRead .mctp src tag m) s P := by
  have hrow : dictRow .mctp src tag m (fun o => !(2 ≤ o && o ≤ 4)) true s.core = mctpArrives src tag m s.core := by
    rw [dictRow, if_pos ⟨rfl, hm⟩]
    have hbusy : dictServes (mctpArrives src tag m s.core) = false := by
      rw [dictServes, Option.isNone_eq_false_iff.mpr hserving, Bool.false_and]
    rw [servePath, hbusy]
    rfl
  exact ⟨_, hrow.symm ▸ hP, congrArg Host.Outcome.next (onI3c_live s _ _ h)⟩

/-- A body of up to 20 bytes goes out in one segment (R553, R676). -/
theorem sendSegments_one {typ : BitVec 8} {chip : Nat} {tag : BitVec 16} {body : List Byte} (hlen : body.length ≤ 20) (b : Block) :
    sendSegments typ chip tag body b = b.updWork (sendMsg b (mkMsg b typ chip 0
      (leBytes 2 tag.toNat ++ leBytes 1 128 ++ leBytes 1 body.length ++ body))) := by
  have hone : max 1 (ceilDiv body.length 20) = 1 := by
    unfold ceilDiv
    omega
  have hbody : (body.drop (20 * 0)).take 20 = body := by rw [Nat.mul_zero, List.drop_zero, List.take_of_length_le hlen]
  unfold sendSegments segments
  dsimp only
  rw [hone]
  simp only [List.range_one, List.map_cons, List.map_nil, List.foldl_cons, List.foldl_nil, hbody, Nat.zero_mod, Nat.zero_add, if_true]

/-- The first segment of a request that the chip does not hold yet (R554). -/
theorem takeSegment_first {src : Nat} {m : Msg} (hzero : (segOf m).2.1 = 0)
    (hfind : b.frm.reqIn.find? (fun q => q.tag == (segOf m).1 && q.src == src) = none) :
    takeSegment src m b = b.updFrm fun f => { f with
      reqIn := f.reqIn ++ [{ tag := (segOf m).1, src := src, nextSeg := 1, body := (segOf m).2.2.2, whole := (segOf m).2.2.1 }] } := by
  unfold takeSegment
  dsimp only
  rw [hfind]
  exact if_pos hzero

/-- The answer to a request of a chip that is not the manager (R498). -/
def strangerAnswer (m : Msg) : List Byte :=
  leBytes 1 (fieldAt (segOf m).2.2.2 0 1 % 128 + 128) ++ leBytes 1 0 ++ leBytes 2 St.accessDenied.toNat ++ leBytes 4 0

theorem dictReqMsg_stranger {m : Msg} (hfollowed : followed b m.src.toNat = false) (hzero : (segOf m).2.1 = 0) :
    dictReqMsg m b = b.updWork (sendMsg b (mkMsg b 0x31 m.src.toNat 0
      (leBytes 2 (segOf m).1.toNat ++ leBytes 1 128 ++ leBytes 1 (strangerAnswer m).length ++ strangerAnswer m))) := by
  unfold dictReqMsg
  dsimp only
  rw [hfollowed, if_neg (by decide), if_pos hzero]
  refine sendSegments_one ?_ b
  simp [leBytes]

theorem answerOp_set (n : Nat) : (BitVec.ofNat 8 (n % 128 + 128)).getLsbD 7 = true := by
  rw [BitVec.getLsbD_ofNat, Nat.testBit_eq_decide_div_mod_eq]
  have : (n % 128 + 128) / 2 ^ 7 = 1 := by omega
  rw [this]
  rfl

/-- The bytes of the answer's only segment. -/
theorem stranger_bytes (m : Msg) :
    leBytes 2 (segOf m).1.toNat ++ leBytes 1 128 ++ leBytes 1 (strangerAnswer m).length ++ strangerAnswer m =
    leBytes 2 (fieldAt m.payload 0 2) ++ [0x80, 8, BitVec.ofNat 8 (fieldAt (segOf m).2.2.2 0 1 % 128 + 128), 0, 0x02, 0x90, 0, 0, 0, 0] := by
  have htag : (segOf m).1.toNat = fieldAt m.payload 0 2 := by
    rw [segOf, BitVec.toNat_ofNat]
    exact Nat.mod_eq_of_lt (fieldAt_lt m.payload 0 2)
  have hlen : (strangerAnswer m).length = 8 := by simp [strangerAnswer, leBytes]
  rw [htag, hlen]
  simp [strangerAnswer, leBytes, St.accessDenied]

/-- Segments of the answer to the manager's only request (R554). -/
theorem dictRspMsg_part {m : Msg} {x : Forwarded} (hfwd : b.frm.fwd = [x]) (htag : x.tag = (segOf m).1) (hchip : x.chip = m.src.toNat)
    (hseg : (segOf m).2.1 = x.nextSeg) (hmore : (segOf m).2.2.1 = false) :
    dictRspMsg m b = b.updFrm fun f => { f with fwd := [{ x with nextSeg := x.nextSeg + 1, body := x.body ++ (segOf m).2.2.2 }] } := by
  have hfind : b.frm.fwd.find? (fun x => x.tag == (segOf m).1 && x.chip == m.src.toNat) = some x := by
    simp [hfwd, htag, hchip]
  unfold dictRspMsg
  dsimp only
  rw [hfind]
  dsimp only
  rw [if_neg (not_not_intro hseg), hmore, if_neg (by decide)]
  unfold Block.updFrm
  simp [hfwd]

theorem dictRspMsg_whole {m : Msg} {x : Forwarded} {q : Serving} (hfwd : b.frm.fwd = [x]) (htag : x.tag = (segOf m).1)
    (hchip : x.chip = m.src.toNat) (hseg : (segOf m).2.1 = x.nextSeg) (hlast : (segOf m).2.2.1 = true) (hwhy : x.why = .carried)
    (hserving : b.dct.serving = some q) :
    dictRspMsg m b = giveAnswer q (x.body ++ (segOf m).2.2.2) (b.updFrm fun f => { f with fwd := [] }) := by
  have hfind : b.frm.fwd.find? (fun x => x.tag == (segOf m).1 && x.chip == m.src.toNat) = some x := by
    simp [hfwd, htag, hchip]
  have hnone : (b.updFrm fun f => { f with fwd := f.fwd.filter fun y => !(y.tag == x.tag) }) = b.updFrm fun f => { f with fwd := [] } := by
    unfold Block.updFrm
    simp [hfwd]
  unfold dictRspMsg
  dsimp only
  rw [hfind]
  dsimp only
  rw [if_neg (not_not_intro hseg), if_pos hlast, hnone, answered, hwhy]
  dsimp only
  rw [show (b.updFrm fun f => { f with fwd := [] }).dct.serving = some q from hserving]

end

/-- Settles O45: each path by what stands at its head, and the requests that the manager carries. -/
theorem dictionaryPaths : Obligations.DictionaryPaths := by
  refine fun s h => ⟨fun irq => ⟨fun hbusy => ?goBusy, fun hfree => ?go⟩, fun src tag m hserving hdict hkind hvendor hnamed =>
    ⟨fun hnew => ?arrives, fun hwaits => ?discards⟩, fun hturn => ?remote, fun p arrival m w htake => ⟨fun hfollowed hzero hfind => ?request,
      fun hfollowed hzero => ?stranger⟩, fun p arrival m w x htake hfwd htag hchip hseg => ⟨fun hmore => ?part, fun q hlast hwhy hserving hpath => ?whole⟩,
    fun tag x q hfind hwhy hserving hpath => ?lost, fun body => ⟨fun hother => ?ignored, fun hfollowing => ?joins⟩⟩
  case goBusy =>
    refine acts_of (f := dictGo irq) rfl h ?_
    rw [dictGo, if_pos hbusy]
  case go =>
    refine acts_of (f := dictGo irq) rfl h ?_
    rw [dictGo, if_neg (by rw [hfree]; decide)]
    rfl
  case ignored =>
    refine acts_of (f := joinWrite body) rfl h ?_
    rw [joinWrite, if_neg hother]
  case joins =>
    refine acts_of (f := joinWrite body) rfl h ?_
    rw [joinWrite, if_pos hfollowing]
    exact adoptJoin_joins body s.core
  case arrives =>
    have hm : m ≠ [] := by
      rintro rfl
      simp [fieldAt, bytesAt, leNat, List.range_succ] at hdict
    have harrive : mctpArrives src tag m s.core = { s.core with dct := { s.core.dct with waitMctp := s.core.dct.waitMctp ++ [(src, tag, m.drop 4)] } } := by
      unfold mctpArrives
      simp only [hdict, hkind, hnamed, hnew]
      simp [hvendor, Block.updDct]
    exact acts_mctp h hm (by rw [harrive]; exact hserving) harrive
  case discards =>
    have hm : m ≠ [] := by
      rintro rfl
      simp [fieldAt, bytesAt, leNat, List.range_succ] at hdict
    have harrive : mctpArrives src tag m s.core = { s.core with dct := { s.core.dct with discarded := satInc s.core.dct.discarded } } := by
      unfold mctpArrives
      simp only [hdict, hkind, hnamed, hwaits]
      simp [hvendor, Block.updDct]
    exact acts_mctp h hm (by rw [harrive]; exact hserving) harrive
  case remote =>
    intro r hremote htarget hchip hmgr hop hlen hfew
    have hr : reqOf (windowBody s.core) = r := rfl
    clear_value r
    have hsize : r.size = 12 + 4096 := hr ▸ windowReq_size s.core
    have haway : r.away (atWindow s.core) = true := by simp [DictReq.away, hremote, show r.chip ≠ (atWindow s.core).dct.chipNum from hchip]
    have hbad : badRequest (atWindow s.core) .bar0 r = false := notBad_remote hsize hremote htarget haway hmgr hop hlen
    have hserve : serve (windowServing s.core) true (atWindow s.core) = if inF s.core r.chip && follows s.core r.chip
        then forwardReq (windowServing s.core) r (atWindow s.core) else answer (windowServing s.core) St.noSuchObject [] (atWindow s.core) := by
      unfold serve
      rw [(congrArg reqOf (windowServing_body s.core)).trans hr]
      dsimp only
      rw [show (windowServing s.core).path = .bar0 from rfl, hbad, haway, if_pos (by rfl)]
      rfl
    refine ⟨fun hnot => acts_op hop (acts_window h hturn hr (.inr hfew) ?_), fun hin hfollows => acts_op hop (acts_window h hturn hr (.inr hfew) ?_)⟩
    · rw [hserve, if_neg (by rcases hnot with hn | hn <;> simp [hn])]
      exact aborts_answer s.core St.noSuchObject
    · rw [hserve, if_pos (by rw [hin, hfollows]; rfl)]
      exact ⟨hturn.2.2.1, rfl, rfl, rfl, rfl⟩
  case request =>
    refine acts_msgAll (f := fun _ _ m b => dictReqMsg m b) rfl h htake ?_
    have htakes : dictReqMsg m { s.core with work := w } = takeSegment m.src.toNat m { s.core with work := w } := if_pos hfollowed
    rw [htakes, takeSegment_first (b := { s.core with work := w }) hzero hfind]
    exact ⟨rfl, rfl, rfl⟩
  case stranger =>
    refine acts_msgAll (f := fun _ _ m b => dictReqMsg m b) rfl h htake ?_
    rw [dictReqMsg_stranger (b := { s.core with work := w }) hfollowed hzero]
    refine ⟨rfl, rfl, BitVec.ofNat 8 (fieldAt (segOf m).2.2.2 0 1 % 128 + 128), answerOp_set _, ?_⟩
    rw [stranger_bytes]
    rfl
  case part =>
    refine acts_msgAll (f := fun _ _ m b => dictRspMsg m b) rfl h htake ?_
    rw [dictRspMsg_part (b := { s.core with work := w }) hfwd htag hchip hseg hmore]
    exact ⟨rfl, rfl⟩
  case whole =>
    refine acts_msgAll (f := fun _ _ m b => dictRspMsg m b) rfl h htake ?_
    rw [dictRspMsg_whole (b := { s.core with work := w }) hfwd htag hchip hseg hlast hwhy hserving, giveAnswer_window hpath]
    obtain ⟨hfrm, hends⟩ := windowAnswer_ends (x.body ++ (segOf m).2.2.2) ({ s.core with work := w }.updFrm fun f => { f with fwd := [] })
    rw [hfrm]
    exact ⟨rfl, hends⟩
  case lost =>
    refine acts_of (f := dictReqLate tag) rfl h ?_
    have hlate : dictReqLate tag s.core = windowAnswer (answerBytes (reqOf q.body) St.linkDeadline [])
        (servedOver (s.core.updFrm fun f => { f with fwd := f.fwd.filter fun y => !(y.tag == tag) })) := by
      have hanswer := answer_inWindow hpath St.linkDeadline [] (s.core.updFrm fun f => { f with fwd := f.fwd.filter fun y => !(y.tag == tag) })
      rw [← hanswer, dictReqLate, hfind]
      dsimp only
      rw [if_pos hwhy, forwardLost, show (s.core.updFrm fun f => { f with fwd := f.fwd.filter fun y => !(y.tag == tag) }).dct.serving = some q
        from hserving]
    rw [hlate]
    obtain ⟨hfrm, hbusy, hserve, hstatus, -⟩ := windowAnswer_ends (answerBytes (reqOf q.body) St.linkDeadline [])
      (s.core.updFrm fun f => { f with fwd := f.fwd.filter fun y => !(y.tag == tag) })
    rw [hfrm]
    refine ⟨fun y hy => ?_, hbusy, hserve, hstatus.trans (fieldAt_answerBytes ..)⟩
    have := (List.mem_filter.mp hy).2
    simpa using this

end Sys2Proof.Machine

end

-- Proofs about tiles and engine ports (R270, R288, R557 to R562, R573 to R575).
section

namespace Sys2Proof.Machine

/-! ### What the handling of tiles and engine ports leaves -/

section

variable {w v w' : Work} {e : Block} {p : Nat}

/-! #### Captures (R584 to R590) -/

/-- Only the capture unit and the free values changed, but neither a teardown nor a reset recorded. -/
def Captures (w w' : Work) : Prop :=
  ∃ k n, w' = { w with cap := k, fresh := n } ∧ k.teardowns = w.cap.teardowns ∧ k.lastDomain = w.cap.lastDomain

theorem Captures.trans (h : Captures w v) (g : Captures v w') : Captures w w' := by
  obtain ⟨k, n, rfl, ht, hd⟩ := h
  obtain ⟨k', n', rfl, ht', hd'⟩ := g
  exact ⟨k', n', rfl, ht'.trans ht, hd'.trans hd⟩

theorem captureEvent_captures (e : Block) (ev : Event) (w : Work) : Captures w (captureEvent e ev w) := by
  unfold captureEvent
  extract_lets seq v
  split
  · exact ⟨_, w.fresh, rfl, rfl, rfl⟩
  · split
    · exact ⟨_, w.fresh, rfl, rfl, rfl⟩
    · exact ⟨_, _, rfl, rfl, rfl⟩

theorem captureAdd_captures (q : Nat) (w : Work) : Captures w (captureAdd q w) := ⟨_, w.fresh, rfl, rfl, rfl⟩

theorem captureRung_captures (q r : Nat) (w : Work) : Captures w (captureRung q r w) := ⟨_, w.fresh, rfl, rfl, rfl⟩

/-! #### Commands up to when their tiles returned to ready -/

theorem KeepsCmds.refl (w : Work) : KeepsCmds w w := rfl

theorem KeepsCmds.trans (h : KeepsCmds w v) (g : KeepsCmds v w') : KeepsCmds w w' := Eq.trans g h

theorem KeepsCmds.of_cmds (h : w'.cmds = w.cmds) : KeepsCmds w w' := congrArg _ h

theorem keepsCmds_updCmd (w : Work) (id : Nat) {f : Cmd → Cmd} (hf : ∀ c, { f c with readyAt := [] } = { c with readyAt := [] }) :
    KeepsCmds w (w.updCmd id f) := by
  show (w.cmds.map _).map _ = w.cmds.map _
  rw [List.map_map]
  refine List.map_congr_left fun c _ => ?_
  show { (if c.id = id then f c else c) with readyAt := [] } = _
  split
  · exact hf c
  · rfl

/-- What does not name when tiles returned to ready is the same of every command. -/
theorem KeepsCmds.cmd (h : KeepsCmds w w') (id : Nat) :
    (w'.cmd id).map (fun c => { c with readyAt := [] }) = (w.cmd id).map fun c => { c with readyAt := [] } := by
  have hfind : ∀ x : Work, (x.cmd id).map (fun c : Cmd => { c with readyAt := [] }) =
      (x.cmds.map fun c : Cmd => { c with readyAt := [] }).find? fun c => c.id == id := by
    intro x
    rw [List.find?_map]
    rfl
  rw [hfind, hfind, show _ = _ from h]

theorem KeepsCmds.map {α : Type} (h : KeepsCmds w w') (id : Nat) {g : Cmd → α} (hg : ∀ c, g { c with readyAt := [] } = g c) :
    (w'.cmd id).map g = (w.cmd id).map g := by
  have hmap := congrArg (Option.map g) (h.cmd id)
  rw [Option.map_map, Option.map_map] at hmap
  rwa [show g ∘ (fun c : Cmd => { c with readyAt := [] }) = g from funext hg] at hmap

/-- A command in flight is there still, but for when its tiles returned to ready. -/
theorem KeepsCmds.some (h : KeepsCmds w w') {id : Nat} {c : Cmd} (hc : w.cmd id = some c) :
    ∃ r, w'.cmd id = some { c with readyAt := r } := by
  have hid := h.cmd id
  rw [hc] at hid
  cases hd : w'.cmd id with
  | none =>
    rw [hd] at hid
    exact nomatch hid
  | some d =>
    rw [hd] at hid
    refine ⟨d.readyAt, congrArg Option.some ?_⟩
    have hdc : { d with readyAt := [] } = { c with readyAt := [] } := Option.some.inj hid
    calc d = { ({ d with readyAt := [] } : Cmd) with readyAt := d.readyAt } := rfl
      _ = { c with readyAt := d.readyAt } := by rw [hdc]

/-! #### Tiles that leave their port (R270, R288, R392, R396) -/

/-- Tiles have left their ports: some are gone, their credits are returned, units of lanes are discarded, and nothing else of the
shared state changed but when tiles returned to ready. -/
structure Unbinds (w w' : Work) : Prop where
  tiles : ∀ t ∈ w'.tiles, t ∈ w.tiles
  cmds : KeepsCmds w w'
  frame : { w' with
    tiles := w.tiles, cmds := w.cmds, nextOrder := w.nextOrder, msgs := { w'.msgs with credits := w.msgs.credits }
    pln := { w'.pln with lanes := w.pln.lanes } } = w

theorem Unbinds.refl (w : Work) : Unbinds w w := ⟨fun _ h => h, rfl, rfl⟩

theorem Unbinds.trans (h : Unbinds w v) (g : Unbinds v w') : Unbinds w w' where
  tiles t ht := h.tiles t (g.tiles t ht)
  cmds := h.cmds.trans g.cmds
  frame := by
    have hf := h.frame
    rw [← g.frame] at hf
    exact hf

theorem Unbinds.foldl {α : Type} {f : Work → α → Work} (hf : ∀ v x, Unbinds v (f v x)) (l : List α) (w : Work) : Unbinds w (l.foldl f w) :=
  List.foldlRecOn (motive := Unbinds w) l f (.refl w) fun v h x _ => h.trans (hf v x)

theorem Unbinds.ports (h : Unbinds w w') : w'.ports = w.ports := (congrArg Work.ports h.frame :)
theorem Unbinds.slices (h : Unbinds w w') : w'.slices = w.slices := (congrArg Work.slices h.frame :)
theorem Unbinds.cap (h : Unbinds w w') : w'.cap = w.cap := (congrArg Work.cap h.frame :)
theorem Unbinds.sw (h : Unbinds w w') : w'.sw = w.sw := (congrArg Work.sw h.frame :)
theorem Unbinds.fab (h : Unbinds w w') : w'.fab = w.fab := (congrArg Work.fab h.frame :)
theorem Unbinds.slots (h : Unbinds w w') : w'.slots = w.slots := (congrArg Work.slots h.frame :)
theorem Unbinds.runs (h : Unbinds w w') : w'.runs = w.runs := (congrArg Work.runs h.frame :)
theorem Unbinds.jnr (h : Unbinds w w') : w'.jnr = w.jnr := (congrArg Work.jnr h.frame :)
theorem Unbinds.pln (h : Unbinds w w') : { w'.pln with lanes := w.pln.lanes } = w.pln := (congrArg Work.pln h.frame :)

theorem backToReady_unbinds (c i : Nat) (w : Work) : Unbinds w (backToReady c i w) :=
  ⟨fun _ h => h, keepsCmds_updCmd w c (f := fun c => { c with readyAt := tblSet 0 c.readyAt i w.nextOrder }) fun _ => rfl, rfl⟩

theorem discardUnits_unbinds (c i : Nat) (w : Work) : Unbinds w (discardUnits c i w) := ⟨fun _ h => h, rfl, rfl⟩

theorem returnCredits_unbinds (ps : List Nat) (w : Work) : Unbinds w (returnCredits ps w) := ⟨fun _ h => h, rfl, rfl⟩

theorem filterTiles_unbinds (f : Tile → Bool) (w : Work) : Unbinds w { w with tiles := w.tiles.filter f } :=
  ⟨fun _ h => (List.mem_filter.1 h).1, rfl, rfl⟩

theorem unstage_unbinds (c i : Nat) (w : Work) : Unbinds w (unstage c i w) :=
  ((filterTiles_unbinds _ w).trans (backToReady_unbinds c i _)).trans (discardUnits_unbinds c i _)

theorem foldl_returnCredits_tiles (ts : List Tile) (w : Work) :
    (ts.foldl (fun w t => returnCredits t.credits w) w).tiles = w.tiles := foldl_keeps Work.tiles (by intros; rfl) ts w

theorem dropTile_tiles (c i : Nat) (w : Work) : (dropTile c i w).tiles = w.tiles.filter fun t => !sameTile t c i := by
  show (List.foldl _ w _).tiles.filter _ = _
  rw [foldl_returnCredits_tiles]

theorem dropTile_unbinds (c i : Nat) (w : Work) : Unbinds w (dropTile c i w) :=
  ((Unbinds.foldl (f := fun w (t : Tile) => returnCredits t.credits w) (fun v t => returnCredits_unbinds t.credits v) _ w).trans
    (filterTiles_unbinds _ _)).trans (backToReady_unbinds c i _)

/-- A tile that has not started leaves its port, and the units that stage it come to nothing. -/
abbrev takeOff (w : Work) (t : Tile) : Work := discardUnits t.cmd t.index (dropTile t.cmd t.index w)

theorem takeOff_unbinds (w : Work) (t : Tile) : Unbinds w (takeOff w t) :=
  (dropTile_unbinds t.cmd t.index w).trans (discardUnits_unbinds t.cmd t.index _)

theorem unbindPort_unbinds (p : Nat) (w : Work) : Unbinds w (unbindPort p w) := Unbinds.foldl takeOff_unbinds _ w

theorem unstageCmd_unbinds (id : Nat) (w : Work) : Unbinds w (unstageCmd id w) :=
  Unbinds.foldl (f := fun w (t : Tile) => unstage t.cmd t.index w) (fun v t => unstage_unbinds t.cmd t.index v) _ w

/-- A tile stays where none of those that are taken off, one after another, is the same. -/
theorem mem_foldl_drop {f : Work → Tile → Work} (hf : ∀ v t, (f v t).tiles = v.tiles.filter fun x => !sameTile x t.cmd t.index)
    (ts : List Tile) (w : Work) (x : Tile) :
    x ∈ (ts.foldl f w).tiles ↔ x ∈ w.tiles ∧ ∀ t ∈ ts, sameTile x t.cmd t.index = false := by
  induction ts generalizing w with
  | nil => simp
  | cons t ts ih =>
    rw [List.foldl_cons, ih, hf, List.mem_filter, List.forall_mem_cons, Bool.not_eq_true', and_assoc]

/-- The tiles of a port that have not started go. -/
theorem mem_unbindPort (p : Nat) (w : Work) (x : Tile) :
    x ∈ (unbindPort p w).tiles ↔ x ∈ w.tiles ∧
      ∀ t ∈ (tilesOn w p).filter fun t => t.state == .staging || t.state == .staged || t.state == .offered,
        sameTile x t.cmd t.index = false :=
  mem_foldl_drop (f := takeOff) (fun v t => dropTile_tiles t.cmd t.index v) _ w x

theorem sameTile_self (t : Tile) : sameTile t t.cmd t.index = true := by rw [sameTile, beq_self_eq_true, beq_self_eq_true, Bool.and_true]

theorem sameTile_comm (x y : Tile) : sameTile x y.cmd y.index = sameTile y x.cmd x.index := by
  rw [sameTile, sameTile, BEq.comm (a := x.cmd), BEq.comm (a := x.index)]

/-- What stays bound to a port after its unstarted tiles have left has started. -/
theorem unbindPort_started {x : Tile} (hx : x ∈ (unbindPort p w).tiles) (hp : x.port = p) :
    x.state ≠ .staging ∧ x.state ≠ .staged ∧ x.state ≠ .offered := by
  obtain ⟨hmem, hkeep⟩ := (mem_unbindPort p w x).1 hx
  have hstays : ¬(x.state == .staging || x.state == .staged || x.state == .offered) = true := fun hs => by
    have := hkeep x (List.mem_filter.2 ⟨List.mem_filter.2 ⟨hmem, by rw [hp, beq_self_eq_true]⟩, hs⟩)
    rw [sameTile_self] at this
    exact nomatch this
  simpa [or_assoc] using hstays

/-! #### Charges (R154, R259, R283) -/

/-- Tile time has been charged: of the slices only what they have used and the engine time of contexts changed. -/
structure Charges (w w' : Work) : Prop where
  frame : { w' with slices := w.slices } = w
  slice : ∀ n, { w'.slice n with used := (w.slice n).used, ctxs := (w.slice n).ctxs } = w.slice n
  ctx : ∀ n c, { w'.ctx n c with engineNs := (w.ctx n c).engineNs } = w.ctx n c

theorem Charges.refl (w : Work) : Charges w w := ⟨rfl, fun _ => rfl, fun _ _ => rfl⟩

theorem Charges.trans (h : Charges w v) (g : Charges v w') : Charges w w' where
  frame := by
    have hf := h.frame
    rw [← g.frame] at hf
    exact hf
  slice n := by
    have hs := h.slice n
    rw [← g.slice n] at hs
    exact hs
  ctx n c := by
    have hs := h.ctx n c
    rw [← g.ctx n c] at hs
    exact hs

theorem ctx_updSlice (w : Work) (s : Nat) {f : Slice → Slice} (hf : ∀ x, (f x).ctxs = x.ctxs) (n c : Nat) :
    (w.updSlice s f).ctx n c = w.ctx n c := by
  by_cases h : n = s
  · subst h
    rw [Work.ctx, slice_updSlice, hf, Work.ctx]
  · rw [Work.ctx, slice_updSlice_other _ _ _ _ h, Work.ctx]

theorem charges_used (w : Work) (s : Nat) (f : Nat → Nat) : Charges w (w.updSlice s fun x => { x with used := f x.used }) where
  frame := rfl
  slice n := by
    by_cases h : n = s
    · subst h
      rw [slice_updSlice]
    · rw [slice_updSlice_other _ _ _ _ h]
  ctx n c := by rw [ctx_updSlice w s (f := fun x => { x with used := f x.used }) fun _ => rfl]

theorem ctx_updCtx_other (w : Work) {s c n d : Nat} (f : Ctx → Ctx) (h : ¬(n = s ∧ d = c)) : (w.updCtx s c f).ctx n d = w.ctx n d := by
  by_cases hn : n = s
  · subst hn
    rw [Work.ctx, Work.updCtx, slice_updSlice]
    exact tblGet_tblUpd_other _ _ _ _ _ fun hd => h ⟨rfl, hd⟩
  · rw [Work.ctx, Work.updCtx, slice_updSlice_other _ _ _ _ hn, Work.ctx]

theorem slice_updCtx (w : Work) (s c n : Nat) (f : Ctx → Ctx) :
    { (w.updCtx s c f).slice n with ctxs := (w.slice n).ctxs } = w.slice n := by
  by_cases h : n = s
  · subst h
    rw [Work.updCtx, slice_updSlice]
  · rw [slice_updCtx_other _ _ _ _ h]

theorem charges_ctx (w : Work) (s c : Nat) (f : BitVec 64 → BitVec 64) :
    Charges w (w.updCtx s c fun x => { x with engineNs := f x.engineNs }) where
  frame := rfl
  slice n := by
    have hs := slice_updCtx w s c n fun x => { x with engineNs := f x.engineNs }
    generalize (w.updCtx s c _).slice n = x at hs ⊢
    exact (congrArg (fun y : Slice => { y with used := (w.slice n).used }) hs :)
  ctx n d := by
    by_cases h : n = s ∧ d = c
    · obtain ⟨rfl, rfl⟩ := h
      rw [ctx_updCtx]
    · rw [ctx_updCtx_other _ _ h]

theorem chargeTile_charges (e : Block) (t : Tile) (n : Nat) (s : Option Nat) (w : Work) : Charges w (chargeTile e t n s w) := by
  unfold chargeTile
  extract_lets ns v
  have hv : Charges w v := by
    unfold v
    cases cmdContext w t.cmd with
    | none => exact .refl w
    | some x => exact charges_ctx w x.1 x.2.1 (· + BitVec.ofNat 64 ns)
  cases s with
  | none => exact hv
  | some s => exact hv.trans (charges_used v s (· + ns))

theorem Charges.ports (h : Charges w w') : w'.ports = w.ports := (congrArg Work.ports h.frame :)
theorem Charges.tiles (h : Charges w w') : w'.tiles = w.tiles := (congrArg Work.tiles h.frame :)
theorem Charges.cmds (h : Charges w w') : w'.cmds = w.cmds := (congrArg Work.cmds h.frame :)
theorem Charges.cap (h : Charges w w') : w'.cap = w.cap := (congrArg Work.cap h.frame :)
theorem Charges.sw (h : Charges w w') : w'.sw = w.sw := (congrArg Work.sw h.frame :)
theorem Charges.jnr (h : Charges w w') : w'.jnr = w.jnr := (congrArg Work.jnr h.frame :)
theorem Charges.pln (h : Charges w w') : w'.pln = w.pln := (congrArg Work.pln h.frame :)
theorem Charges.slots (h : Charges w w') : w'.slots = w.slots := (congrArg Work.slots h.frame :)
theorem Charges.state (h : Charges w w') (n : Nat) : (w'.slice n).state = (w.slice n).state := (congrArg Slice.state (h.slice n) :)
theorem Charges.stopped (h : Charges w w') (n c : Nat) : (w'.ctx n c).stopped = (w.ctx n c).stopped := (congrArg Ctx.stopped (h.ctx n c) :)
theorem Charges.killed (h : Charges w w') (n c : Nat) : (w'.ctx n c).killed = (w.ctx n c).killed := (congrArg Ctx.killed (h.ctx n c) :)

/-- A tile's time is charged to the context of its command. -/
theorem chargeTile_ctx {c : Cmd} {n : Nat} {t : Tile} (hc : w.cmd t.cmd = some c) (hs : c.slice = some n) (cycles : Nat) (s : Option Nat) :
    ((chargeTile e t cycles s w).ctx n c.ctx).engineNs = (w.ctx n c.ctx).engineNs + BitVec.ofNat 64 (cyclesToNs e.dct cycles) := by
  have hctx : cmdContext w t.cmd = some (n, c.ctx, t.cmd) := by rw [cmdContext, hc, Option.bind_some, hs, Option.map_some]
  unfold chargeTile
  rw [hctx]
  cases s with
  | none =>
    show ((w.updCtx n c.ctx _).ctx n c.ctx).engineNs = _
    rw [ctx_updCtx]
  | some s =>
    show ((Work.updSlice (w.updCtx n c.ctx _) s _).ctx n c.ctx).engineNs = _
    rw [ctx_updSlice _ _ (by intros; rfl), ctx_updCtx]

/-! #### A port enters its ladder (R573 to R575) -/

theorem port_congr (h : w'.ports = w.ports) (q : Nat) : w'.port q = w.port q := by rw [Work.port, h, Work.port]

theorem switch_congr (h : w'.sw = w.sw) (d : Domain) : w'.switch d = w.switch d := by rw [Work.switch, h, Work.switch]

/-- A rung has begun on port `p`: what is left as it was. -/
structure Rungs (p : Nat) (w w' : Work) : Prop where
  others : ∀ q, q ≠ p → w'.port q = w.port q
  counts : (w'.port p).faults = (w.port p).faults ∧ (w'.port p).hung = (w.port p).hung ∧ (w'.port p).lastFlt = (w.port p).lastFlt ∧
    (w'.port p).due = (w.port p).due ∧ (w'.port p).kill = (w.port p).kill
  frame : { w' with ports := w.ports, sw := w.sw, fab := w.fab, cap := w.cap, fresh := w.fresh } = w
  reqs : w'.fab.reqs = w.fab.reqs
  teardowns : w'.cap.teardowns = w.cap.teardowns
  lastDomain : w'.cap.lastDomain = w.cap.lastDomain

theorem captureRung_port (q r : Nat) (w : Work) (p : Nat) : (captureRung q r w).port p = w.port p := rfl

theorem emit_switch (w : Work) (o : Output) (d : Domain) : (w.emit o).switch d = w.switch d := rfl

@[simp] theorem emit_port (w : Work) (o : Output) (q : Nat) : (w.emit o).port q = w.port q := rfl

@[simp] theorem updTile_port (t : Tile) (f : Tile → Tile) (w : Work) (q : Nat) : (updTile t f w).port q = w.port q := rfl

theorem port_withPln (w : Work) (x : Planer) (q : Nat) : ({ w with pln := x } : Work).port q = w.port q := rfl

theorem updPort_onlyPorts {v : Work} (h : { v with ports := w.ports } = w) (p : Nat) (f : Port → Port) :
    { v.updPort p f with ports := w.ports } = w := h

/-- The port of a ladder shows the rung. -/
theorem noteRung_port (p r : Nat) (w : Work) : (noteRung p r w).port p =
    { w.port p with lastRung := BitVec.ofNat 4 r, ladder := (w.port p).ladder.map fun l => { l with rung := r } } := by
  rw [noteRung, captureRung_port, port_updPort]

theorem noteRung_others (p r : Nat) (w : Work) {q : Nat} (h : q ≠ p) : (noteRung p r w).port q = w.port q := by
  rw [noteRung, captureRung_port, port_updPort_other _ _ _ _ h]

theorem noteRung_rungs (p r : Nat) (w : Work) : Rungs p w (noteRung p r w) where
  others q h := noteRung_others p r w h
  counts := by rw [noteRung_port]; exact ⟨rfl, rfl, rfl, rfl, rfl⟩
  frame := rfl
  reqs := rfl
  teardowns := rfl
  lastDomain := rfl

theorem Rungs.trans (h : Rungs p w v) (g : Rungs p v w') : Rungs p w w' where
  others q hq := (g.others q hq).trans (h.others q hq)
  counts := by
    obtain ⟨h₁, h₂, h₃, h₄, h₅⟩ := h.counts
    obtain ⟨g₁, g₂, g₃, g₄, g₅⟩ := g.counts
    exact ⟨g₁.trans h₁, g₂.trans h₂, g₃.trans h₃, g₄.trans h₄, g₅.trans h₅⟩
  frame := by
    have hf := h.frame
    rw [← g.frame] at hf
    exact hf
  reqs := g.reqs.trans h.reqs
  teardowns := g.teardowns.trans h.teardowns
  lastDomain := g.lastDomain.trans h.lastDomain

theorem updPort_rungs (w : Work) (p : Nat) {f : Port → Port}
    (hf : ∀ x, (f x).faults = x.faults ∧ (f x).hung = x.hung ∧ (f x).lastFlt = x.lastFlt ∧ (f x).due = x.due ∧ (f x).kill = x.kill) :
    Rungs p w (w.updPort p f) where
  others q h := port_updPort_other _ _ _ _ h
  counts := by rw [port_updPort]; exact hf _
  frame := rfl
  reqs := rfl
  teardowns := rfl
  lastDomain := rfl

theorem updSwitch_rungs (w : Work) (p : Nat) (d : Domain) (f : Switch → Switch) : Rungs p w (w.updSwitch d f) :=
  ⟨fun _ _ => rfl, ⟨rfl, rfl, rfl, rfl, rfl⟩, rfl, rfl, rfl, rfl⟩

theorem emit_rungs (w : Work) (p : Nat) (o : Output) : Rungs p w (w.emit o) :=
  ⟨fun _ _ => rfl, ⟨rfl, rfl, rfl, rfl, rfl⟩, rfl, rfl, rfl, rfl⟩

theorem beginRetire_rungs (p : Nat) (w : Work) : Rungs p w (beginRetire p w) :=
  (noteRung_rungs p 3 w).trans (updSwitch_rungs _ p _ _)

/-- Rung 3 isolates the port and lowers its power switch. -/
theorem beginRetire_begins (p : Nat) (w : Work) :
    (beginRetire p w).port p =
      { w.port p with lastRung := 3, ladder := (w.port p).ladder.map fun l => { l with rung := 3 } } ∧
    (beginRetire p w).switch (.eng p) = { w.switch (.eng p) with iso := true, on := false } :=
  ⟨noteRung_port p 3 w, switch_updSwitch _ _ _⟩

/-- The soft reset of rung 1. -/
theorem startRung_soft (e : Block) (p : Nat) (w : Work) :
    Rungs p w (startRung e p 1 w) ∧ (startRung e p 1 w).port p = { w.port p with
      lastRung := 1, ladder := (w.port p).ladder.map fun l => { l with rung := 1 }
      state := .softReset, srst := true, soft := satInc (w.port p).soft } := by
  rw [startRung, if_pos rfl]
  refine ⟨(noteRung_rungs p 1 w).trans (updPort_rungs _ p (by intro _; exact ⟨rfl, rfl, rfl, rfl, rfl⟩)), ?_⟩
  rw [port_updPort, noteRung_port]
  rfl

/-- The hard reset of rung 2, which goes on to rung 3 at once where it starts too often (R575). -/
theorem startRung_hard (e : Block) (p : Nat) (w : Work) :
    let x := w.port p
    let w' := startRung e p 2 w
    Rungs p w w' ∧
    (w'.port p).state = .hardReset ∧ (w'.port p).srst = false ∧ (w'.port p).hrstN = false ∧ (w'.port p).hrstWait = 64 ∧
    (w'.port p).idle = false ∧ (w'.port p).hard = satInc x.hard ∧ (w'.switch (.eng p)).iso = true ∧
    (e.dct.retireAfter ≤ (satInc x.hard).toNat → (w'.port p).lastRung = 3 ∧ (w'.switch (.eng p)).on = false) ∧
    ((satInc x.hard).toNat < e.dct.retireAfter → (w'.port p).lastRung = 2 ∧ (w'.switch (.eng p)).on = (w.switch (.eng p)).on) ∧
    ∃ r, (w'.port p).ladder = x.ladder.map fun l => { l with rung := r } := by
  intro x w'
  have hw' : w' = startRung e p 2 w := rfl
  rw [startRung, if_neg (show ¬(2 : Nat) = 1 by omega), if_pos rfl] at hw'
  generalize hv : (noteRung p 2 w).updPort p _ = v at hw'
  have hvp : v.port p = { x with
      lastRung := 2, ladder := x.ladder.map fun l => { l with rung := 2 }
      state := .hardReset, srst := false, hrstN := false, hrstWait := hrstCycles, idle := false, hard := satInc x.hard } := by
    rw [← hv, port_updPort, noteRung_port]
    rfl
  have hrungs : Rungs p w v := hv ▸ (noteRung_rungs p 2 w).trans (updPort_rungs _ p (by intro _; exact ⟨rfl, rfl, rfl, rfl, rfl⟩))
  have hsw : v.switch (.eng p) = w.switch (.eng p) := hv ▸ rfl
  have hhard : (v.port p).hard = satInc x.hard := by rw [hvp]
  clear_value w' x
  by_cases hn : e.dct.retireAfter ≤ (v.port p).hard.toNat
  · rw [if_pos hn] at hw'
    rw [hhard] at hn
    obtain ⟨hport, hswitch⟩ := beginRetire_begins p v
    rw [hvp] at hport
    rw [hw']
    refine ⟨hrungs.trans (beginRetire_rungs p v), ?_, ?_, ?_, ?_, ?_, ?_, ?_, fun _ => ⟨?_, ?_⟩, fun h => absurd hn (by omega), 3, ?_⟩ <;>
      first
        | rw [hport]
        | rw [hswitch]
    · rfl
    · rw [Option.map_map]
      rfl
  · rw [if_neg hn] at hw'
    rw [hhard] at hn
    have hport : w'.port p = v.port p := by rw [hw']; rfl
    have hswitch : w'.switch (.eng p) = { w.switch (.eng p) with iso := true } := by
      rw [hw', ← hsw]
      rw [emit_switch, switch_updSwitch]
    have hframe : Rungs p w w' := by
      rw [hw']
      exact (hrungs.trans (updSwitch_rungs _ p _ _)).trans (emit_rungs _ p _)
    rw [hvp] at hport
    rw [hport, hswitch]
    exact ⟨hframe, rfl, rfl, rfl, rfl, rfl, rfl, rfl, fun h => absurd h hn, fun _ => ⟨rfl, rfl⟩, 2, rfl⟩

/-- The retirement of rung 3. -/
theorem startRung_retire (e : Block) (p : Nat) (w : Work) :
    Rungs p w (startRung e p 3 w) ∧ (startRung e p 3 w).port p = { w.port p with
      lastRung := 3, ladder := (w.port p).ladder.map fun l => { l with rung := 3 }
      state := .hardReset, srst := false, idle := false } ∧
    (startRung e p 3 w).switch (.eng p) = { w.switch (.eng p) with iso := true, on := false } := by
  rw [startRung, if_neg (show ¬(3 : Nat) = 1 by omega), if_neg (show ¬(3 : Nat) = 2 by omega), if_pos rfl]
  have hrungs := fun v => beginRetire_rungs p v
  have hport := fun v => (beginRetire_begins p v).1
  have hswitch := fun v => (beginRetire_begins p v).2
  refine ⟨((noteRung_rungs p 3 w).trans (updPort_rungs _ p (by intro _; exact ⟨rfl, rfl, rfl, rfl, rfl⟩))).trans (hrungs _), ?_, hswitch _⟩
  rw [hport, port_updPort, noteRung_port, Option.map_map]
  rfl

/-- A port is ready for its ladder: what a tile left on it is over, and the ladder stands at its rung. -/
abbrev Port.laddered (x : Port) (l : Ladder) : Port := { x with
  kill := false, killAck := false, killWhy := none, killFresh := false, done := none, fault := none, overKill := false, opd := []
  due := none, overrun := false, ladder := some l }

/-- A port has entered its ladder: `l` is what the ladder shows. -/
structure EntersLadder (p : Nat) (l : Ladder) (w w' : Work) : Prop where
  others : ∀ q, q ≠ p → w'.port q = w.port q
  counts : (w'.port p).faults = (w.port p).faults ∧ (w'.port p).hung = (w.port p).hung ∧ (w'.port p).lastFlt = (w.port p).lastFlt
  rest : (w'.port p).due = none ∧ (w'.port p).kill = false
  ladder : ∃ r, (w'.port p).ladder = some { l with rung := r }
  tiles : ∀ x, x ∈ w'.tiles ↔ x ∈ (unbindPort p w).tiles
  cmds : KeepsCmds w w'
  slices : w'.slices = w.slices
  runs : w'.runs = w.runs
  jnr : w'.jnr = w.jnr
  teardowns : w'.cap.teardowns = w.cap.teardowns

/-- What a rung leaves, of a port that enters its ladder. -/
theorem Rungs.enters {e : Block} {st : Status} {dcmd : Option Nat} {q rung : Nat} {l : Ladder} {w' : Work}
    (hl : l = { rung := rung, named := if dcmd.isSome then rung else 0, status := st, cmd := dcmd, seq := q })
    (hw' : w' = enterLadder e p rung st dcmd q w)
    (h : ∀ v : Work, Rungs p v (startRung e p rung v))
    (hlad : ∀ v : Work, ∃ r, ((startRung e p rung v).port p).ladder = (v.port p).ladder.map fun l => { l with rung := r }) :
    EntersLadder p l w w' := by
  unfold enterLadder at hw'
  extract_lets w₁ w₂ w₃ at hw'
  have hun : Unbinds w₁ w₂ := unbindPort_unbinds p w₁
  have htiles : ∀ x, x ∈ w₂.tiles ↔ x ∈ (unbindPort p w).tiles := fun x => (mem_unbindPort p w₁ x).trans (mem_unbindPort p w x).symm
  have hw₃ : w₃.port p = (w.port p).laddered l := by
    rw [hl]
    show (w₂.updPort p _).port p = _
    rw [port_updPort, port_congr hun.ports]
    rfl
  have hother : ∀ q, q ≠ p → w₃.port q = w.port q := fun q hq => by
    show (w₂.updPort p _).port q = _
    rw [port_updPort_other _ _ _ _ hq, port_congr hun.ports]
    rfl
  have hr := h w₃
  obtain ⟨r, hr'⟩ := hlad w₃
  rw [← hw'] at hr hr'
  have hcounts := hr.counts
  rw [hw₃] at hcounts hr'
  obtain ⟨hfaults, hhung, hflt, hdue, hkill⟩ := hcounts
  have hf := hr.frame
  refine ⟨fun q hq => (hr.others q hq).trans (hother q hq), ⟨hfaults, hhung, hflt⟩, ⟨hdue, hkill⟩, ⟨r, hr'⟩, ?_, ?_, ?_, ?_, ?_, ?_⟩
  · intro x
    rw [← htiles x, show _ = _ from congrArg Work.tiles hf]
    rfl
  · exact hun.cmds.trans (.of_cmds (congrArg Work.cmds hf :))
  · exact (congrArg Work.slices hf :).trans hun.slices
  · exact (congrArg Work.runs hf :).trans hun.runs
  · exact (congrArg Work.jnr hf :).trans hun.jnr
  · exact hr.teardowns.trans (congrArg Capture.teardowns hun.cap :)

theorem enterLadder_soft (e : Block) (p : Nat) (st : Status) (dcmd : Option Nat) (q : Nat) (w : Work) :
    let w' := enterLadder e p 1 st dcmd q w
    EntersLadder p { rung := 1, named := if dcmd.isSome then 1 else 0, status := st, cmd := dcmd, seq := q } w w' ∧
    (w'.port p).state = .softReset ∧ (w'.port p).srst = true ∧ (w'.port p).ladder.map Ladder.rung = some 1 := by
  intro w'
  have hsoft := fun v => startRung_soft e p v
  refine ⟨Rungs.enters rfl rfl (fun v => (hsoft v).1) fun v => ⟨1, by rw [(hsoft v).2]⟩, ?_, ?_, ?_⟩ <;>
    rw [show w' = startRung e p 1 _ from rfl, (hsoft _).2]
  rw [port_updPort]
  rfl

/-! #### What stopping work leaves (R560, R562) -/

/-- Work has been stopped: kills have been raised on ports, tiles have left theirs, and of the slices graphs and contexts changed
alone. -/
structure Stops (w w' : Work) : Prop where
  ports : ∀ q, { w'.port q with
    kill := (w.port q).kill, killWhy := (w.port q).killWhy, killFresh := (w.port q).killFresh, opd := (w.port q).opd } = w.port q
  kills : ∀ q, (w.port q).kill = true → (w'.port q).kill = true
  tiles : ∀ t ∈ w'.tiles, t ∈ w.tiles
  teardowns : w'.cap.teardowns = w.cap.teardowns
  state : ∀ n, (w'.slice n).state = (w.slice n).state
  killed : ∀ n c, (w'.ctx n c).killed = (w.ctx n c).killed

theorem Stops.trans (h : Stops w v) (g : Stops v w') : Stops w w' where
  ports q := by
    have hp := h.ports q
    rw [← g.ports q] at hp
    exact hp
  kills q hq := g.kills q (h.kills q hq)
  tiles t ht := h.tiles t (g.tiles t ht)
  teardowns := g.teardowns.trans h.teardowns
  state n := (g.state n).trans (h.state n)
  killed n c := (g.killed n c).trans (h.killed n c)

theorem Stops.of_keeps (hp : w'.ports = w.ports) (ht : ∀ t ∈ w'.tiles, t ∈ w.tiles) (hcap : w'.cap = w.cap) (hs : w'.slices = w.slices) :
    Stops w w' where
  ports q := by rw [port_congr hp]
  kills q h := by rwa [port_congr hp]
  tiles := ht
  teardowns := by rw [hcap]
  state n := by rw [slice_congr hs]
  killed n c := by rw [Work.ctx, slice_congr hs, Work.ctx]

theorem Stops.refl (w : Work) : Stops w w := .of_keeps rfl (fun _ h => h) rfl rfl

theorem Unbinds.stops (h : Unbinds w w') : Stops w w' := .of_keeps h.ports h.tiles h.cap h.slices

theorem Stops.foldl {α : Type} {f : Work → α → Work} (hf : ∀ v x, Stops v (f v x)) (l : List α) (w : Work) : Stops w (l.foldl f w) :=
  List.foldlRecOn (motive := Stops w) l f (.refl w) fun v h x _ => h.trans (hf v x)

theorem updCmd_stops (w : Work) (id : Nat) (f : Cmd → Cmd) : Stops w (w.updCmd id f) := .of_keeps rfl (fun _ h => h) rfl rfl

theorem killPort_stops (p : Nat) (why : KillWhy) (w : Work) : Stops w (killPort p why w) where
  ports q := by
    by_cases h : q = p
    · subst h
      rw [killPort, port_updPort]
    · rw [killPort, port_updPort_other _ _ _ _ h]
  kills q hq := by
    by_cases h : q = p
    · subst h
      rw [killPort, port_updPort]
    · rwa [killPort, port_updPort_other _ _ _ _ h]
  tiles _ h := h
  teardowns := rfl
  state _ := rfl
  killed _ _ := rfl

theorem removeProgram_keeps (pid : Nat) (w : Work) : { removeProgram pid w with jnr := w.jnr } = w := by
  unfold removeProgram
  cases w.jnr.progs.find? fun p => p.pid == pid && !p.gone <;> rfl

theorem removeProgram_stops (pid : Nat) (w : Work) : Stops w (removeProgram pid w) := by
  have h := removeProgram_keeps pid w
  generalize removeProgram pid w = w' at h ⊢
  exact .of_keeps (congrArg Work.ports h :) (fun t ht => (congrArg (t ∈ Work.tiles ·) h :) ▸ ht) (congrArg Work.cap h :)
    (congrArg Work.slices h :)

theorem updSlice_stops (w : Work) (s : Nat) {f : Slice → Slice} (hf : ∀ x, (f x).state = x.state ∧ (f x).ctxs = x.ctxs) :
    Stops w (w.updSlice s f) where
  ports _ := rfl
  kills _ h := h
  tiles _ h := h
  teardowns := rfl
  state n := by
    by_cases h : n = s
    · subst h
      rw [slice_updSlice, (hf _).1]
    · rw [slice_updSlice_other _ _ _ _ h]
  killed n c := by rw [ctx_updSlice w s fun x => (hf x).2]

theorem dropLoading_stops (id : Nat) (w : Work) : Stops w (dropLoading id w) := by
  unfold dropLoading
  cases w.cmd id with
  | none => exact .refl w
  | some c =>
    dsimp only
    cases c.slice with
    | none => exact .refl w
    | some s =>
      dsimp only
      split
      · exact updSlice_stops w s (f := fun x => { x with graphs := x.graphs.filter fun r => !(r.gid == loadId c) }) fun _ => ⟨rfl, rfl⟩
      · exact .refl w

theorem stopWork_stops (id : Nat) (why : KillWhy) (w : Work) : Stops w (stopWork id why w) := by
  have hunstage := (unstageCmd_unbinds id w).stops
  have hkill := fun v : Work => Stops.foldl (f := fun w (t : Tile) => killPort t.port why w) (fun v t => killPort_stops t.port why v)
    (v.tiles.filter fun t => t.cmd == id && t.state == .running) v
  have hprogs := fun v : Work => Stops.foldl (f := fun w (x : Prog) => removeProgram x.pid w) (fun v x => removeProgram_stops x.pid v)
    (v.jnr.progs.filter fun x => x.cmd == id) v
  exact ((hunstage.trans (hkill _)).trans (hprogs _)).trans (dropLoading_stops id _)

theorem updCtx_stops (w : Work) (s c : Nat) {f : Ctx → Ctx} (hf : ∀ x, (f x).killed = x.killed) : Stops w (w.updCtx s c f) where
  ports _ := rfl
  kills _ h := h
  tiles _ h := h
  teardowns := rfl
  state n := (congrArg Slice.state (slice_updCtx w s c n f) :)
  killed n d := by
    by_cases h : n = s ∧ d = c
    · obtain ⟨rfl, rfl⟩ := h
      rw [ctx_updCtx, hf]
    · rw [ctx_updCtx_other _ _ h]

theorem stopContext_stops (s c : Nat) (why : KillWhy) (w : Work) : Stops w (stopContext s c why w) :=
  (updCtx_stops w s c (f := fun x => { x with stopped := true }) fun _ => rfl).trans
    (Stops.foldl (f := fun w (d : Cmd) => stopWork d.id why w) (fun v d => stopWork_stops d.id why v) _ _)

theorem failedBy_stops (id : Nat) (st : Status) (w : Work) : Stops w (failedBy id st w) := by
  unfold failedBy
  extract_lets v
  split
  · exact (stopWork_stops id .teardown w).trans (updCmd_stops v id _)
  · exact (stopWork_stops id .teardown w).trans (updCmd_stops v id _)

/-- A port after work has been stopped, in what a kill does not touch. -/
theorem Stops.port {α : Type} (h : Stops w w') (q : Nat) {g : Port → α}
    (hg : ∀ x k y f o, g { x with kill := k, killWhy := y, killFresh := f, opd := o } = g x) : g (w'.port q) = g (w.port q) :=
  (hg _ _ _ _ _).symm.trans (congrArg g (h.ports q))

theorem Captures.stops_ports (h : Captures w w') : w'.ports = w.ports ∧ w'.tiles = w.tiles ∧ w'.slices = w.slices ∧ w'.cmds = w.cmds := by
  obtain ⟨k, n, rfl, -⟩ := h
  exact ⟨rfl, rfl, rfl, rfl⟩

theorem Captures.stops (h : Captures w w') : Stops w w' := by
  obtain ⟨k, n, rfl, ht, -⟩ := h
  exact ⟨fun _ => rfl, fun _ h => h, fun _ h => h, ht, fun _ => rfl, fun _ _ => rfl⟩

theorem teardownEvent_stops (e : Block) (covered : Option Nat) (ev : Event) (w : Work) : Stops w (teardownEvent e covered ev w) := by
  unfold teardownEvent
  extract_lets v
  have hv : Stops w v := by
    unfold v
    cases covered with
    | none => exact (captureEvent_captures e ev w).stops
    | some q => exact (captureAdd_captures q w).stops
  clear_value v
  cases ev.ctx with
  | none => exact hv
  | some c => exact hv.trans (updCtx_stops v ev.slice c (f := fun x => { x with event := covered.getD v.cap.seq }) fun _ => rfl)

/-- Work has been stopped, and the teardown of a context has begun with it. -/
structure TearsDown (t : Teardown) (w w' : Work) : Prop where
  stops : Stops { w with cap := { w.cap with teardowns := w.cap.teardowns ++ [t] } } w'

/-- A fault that TEARDOWN_MASK does not leave out begins the teardown of its command's context (R557 to R559, R562). -/
theorem faultWith_tearsDown {covered port : Option Nat} {id : Nat} {st : Status} {m : BitVec 64} {c : Cmd} {n : Nat}
    (hc : w.cmd id = some c) (hs : c.slice = some n) (hend : c.endStatus = none) (hfenced : (w.slice n).state ≠ .fenced)
    (htear : tearing w n c.ctx = false) (hkilled : (w.ctx n c.ctx).killed = false) (hst : st ≠ St.pasidRevoked)
    (hmask : ∀ b, maskBit st = some b → (e.dct.teardownMask n).testBit b = true) :
    TearsDown { slice := n, ctx := c.ctx, status := st, cmd := some id, others := St.ownerReset, rank := some (faultRank port st) } w
      (faultWith covered port e id st m w) := by
  unfold faultWith
  rw [hc]
  dsimp only
  rw [hs]
  dsimp only
  rw [hend, if_neg (fun h => hfenced h.1), if_neg (by decide), htear, hkilled, if_neg, if_neg (by decide)]
  · have hv : Stops w (stopContext n c.ctx .teardown (failedBy id st w)) :=
      (failedBy_stops id st w).trans (stopContext_stops n c.ctx .teardown _)
    refine ⟨Stops.trans ?_ (teardownEvent_stops _ _ _ _)⟩
    generalize stopContext n c.ctx .teardown (failedBy id st w) = v at hv ⊢
    exact ⟨hv.ports, hv.kills, hv.tiles, congrArg (· ++ _) hv.teardowns, hv.state, hv.killed⟩
  · rintro (h | h | h)
    · exact hst h
    · cases hb : maskBit st with
      | none =>
        rw [hb] at h
        exact nomatch h
      | some b =>
        rw [hb] at h
        dsimp only at h
        rw [hmask b hb] at h
        exact nomatch h
    · exact hfenced h

/-! #### A tile that ends with its port (R43, R557, R574) -/

/-- The running tile is charged and dropped, the port enters rung 1, and the tile's command fails. -/
def endInFault (e : Block) (p : Nat) (t : Tile) (st : Status) (dcmd : Option Nat) (cycles : Nat) (w : Work) : Work :=
  let w := chargeTile e t cycles (payer w t) w
  let w := captureEvent e (ladderEvent p 1 st (cmdContext w t.cmd)) w
  let q := w.cap.seq
  let w := enterLadder e p 1 st dcmd q (dropTile t.cmd t.index w)
  faultWith (some q) (some p) e t.cmd st 0 w

theorem faultTile_eq (e : Block) (p : Nat) (t : Tile) (code : BitVec 8) (cycles : Nat) (w : Work) :
    faultTile e p t code cycles w =
      endInFault e p t St.engineFault none cycles ((countFault p w).updPort p fun x => { x with lastFlt := code }) := rfl

/-- A port's fault sends the port into rung 1, drops its tile, and begins the teardown of the context. -/
theorem endInFault_ends {t : Tile} {c : Cmd} {n : Nat} {st : Status} (hc : w.cmd t.cmd = some c) (hs : c.slice = some n)
    (hend : c.endStatus = none) (hfenced : (w.slice n).state ≠ .fenced) (htear : tearing w n c.ctx = false)
    (hkilled : (w.ctx n c.ctx).killed = false) (hst : st ≠ St.pasidRevoked) (hmask : maskBit st = none) (dcmd : Option Nat) (cycles : Nat) :
    let w' := endInFault e p t st dcmd cycles w
    (w'.port p).state = .softReset ∧ (w'.port p).faults = (w.port p).faults ∧ (w'.port p).hung = (w.port p).hung ∧
    (w'.port p).lastFlt = (w.port p).lastFlt ∧ (∀ y ∈ w'.tiles, sameTile y t.cmd t.index = false) ∧
    ∃ k, w'.cap.teardowns = w.cap.teardowns ++
      [{ slice := n, ctx := c.ctx, status := st, cmd := some t.cmd, others := St.ownerReset, rank := some k }] := by
  intro w'
  have hw' : w' = endInFault e p t st dcmd cycles w := rfl
  clear_value w'
  unfold endInFault at hw'
  extract_lets w₁ w₂ q w₃ at hw'
  have hcharge : Charges w w₁ := chargeTile_charges e t cycles (payer w t) w
  have hcap : Captures w₁ w₂ := captureEvent_captures e _ w₁
  have hdrop := dropTile_unbinds t.cmd t.index w₂
  have hgone := dropTile_tiles t.cmd t.index w₂
  obtain ⟨hen, hstate, -, -⟩ := enterLadder_soft e p st dcmd q (dropTile t.cmd t.index w₂)
  rw [show enterLadder e p 1 st dcmd q (dropTile t.cmd t.index w₂) = w₃ from rfl] at hen hstate
  clear_value w₃ q w₂ w₁
  generalize dropTile t.cmd t.index w₂ = v at hdrop hgone hen
  obtain ⟨hports₂, -, hslices₂, hcmds₂⟩ := hcap.stops_ports
  have hteardowns₂ : w₂.cap.teardowns = w₁.cap.teardowns := by
    obtain ⟨k, m, rfl, ht, -⟩ := hcap
    exact ht
  have hports : v.ports = w.ports := (hdrop.ports.trans hports₂).trans hcharge.ports
  have hslice : ∀ m, w₃.slice m = w₁.slice m := slice_congr ((hen.slices.trans hdrop.slices).trans hslices₂)
  have hctx : ∀ m d, w₃.ctx m d = w₁.ctx m d := fun m d => by rw [Work.ctx, hslice, Work.ctx]
  have hkeeps : KeepsCmds w w₃ :=
    ((KeepsCmds.of_cmds (hcmds₂.trans hcharge.cmds)).trans hdrop.cmds).trans hen.cmds
  obtain ⟨r, hc₃⟩ := hkeeps.some hc
  have hteardowns : w₃.cap.teardowns = w.cap.teardowns := by
    rw [hen.teardowns, hdrop.cap, hteardowns₂, hcharge.cap]
  obtain ⟨hfault⟩ := faultWith_tearsDown (covered := some q) (port := some p) (m := 0) (e := e) (st := st) hc₃ hs hend
    (by rw [hslice, hcharge.state]; exact hfenced)
    (by rw [tearing, hteardowns]; exact htear) (by rw [hctx, hcharge.killed]; exact hkilled) hst
    (fun b hb => nomatch hmask.symm.trans hb)
  rw [← hw'] at hfault
  have hport : ∀ {α : Type} {g : Port → α} (_ : ∀ x k y f o, g { x with kill := k, killWhy := y, killFresh := f, opd := o } = g x),
      g (w'.port p) = g (w₃.port p) := fun hg => hfault.port p hg
  obtain ⟨hfaults, hhung, hflt⟩ := hen.counts
  refine ⟨?_, ?_, ?_, ?_, fun y hy => ?_, _, hfault.teardowns.trans (congrArg (· ++ _) hteardowns)⟩
  · exact (hport (g := Port.state) fun _ _ _ _ _ => rfl).trans hstate
  · rw [hport (g := Port.faults) fun _ _ _ _ _ => rfl, hfaults, port_congr hports]
  · rw [hport (g := Port.hung) fun _ _ _ _ _ => rfl, hhung, port_congr hports]
  · rw [hport (g := Port.lastFlt) fun _ _ _ _ _ => rfl, hflt, port_congr hports]
  · have hin := ((mem_unbindPort p v y).1 ((hen.tiles y).1 (hfault.tiles y hy))).1
    rw [hgone] at hin
    exact (Bool.not_eq_true' _).mp (List.mem_filter.1 hin).2

end

end Sys2Proof.Machine

end

-- Proofs about binding, offer and start of tiles (R80 to R87, R269 to R272).
section

namespace Sys2Proof.Machine

/-! ### Binding, offer and start of tiles (R80 to R87, R269 to R272, R288) -/

section

variable {w : Work} {e : Block} {p : Nat} {t : Tile}

/-! #### Binding (R269, R270, R395) -/

theorem makeRoom_fits {need : Nat} (h : need ≤ freePages w p) (ts : List Tile) : makeRoom p need ts w = some w := by
  cases ts <;> rw [makeRoom, if_pos h]

/-- A ready tile has its place where its pages fit. -/
theorem bindPlace_fits {c : Cmd} {n i : Nat} (hs : c.slice = some n) (hop : c.op = some .exec) (hmay : mayStage e w c = true)
    (hready : tileReady w c i = true) (hstays : staysResident w n c.ctx = true) (hport : bindPort e.dct w c n = some p)
    (hroom : newPages w c p ((List.range 8).map (slotAt e.dct w c p i)) ≤ freePages w p) :
    bindPlace e w c i = some (p, (List.range 8).map (slotAt e.dct w c p i), w) := by
  unfold bindPlace
  rw [hs]
  dsimp only
  rw [hop, hmay, hready, hstays, hport]
  simp only [bne_self_eq_false, Bool.not_true, Bool.or_self, Bool.false_eq_true, if_false, Option.bind_some]
  rw [makeRoom_fits hroom, Option.map_some]

theorem bindPlace_port {c : Cmd} {n i : Nat} (hs : c.slice = some n) {x : Nat × List SlotData × Work}
    (hx : bindPlace e w c i = some x) : bindPort e.dct w c n = some x.1 := by
  unfold bindPlace at hx
  rw [hs] at hx
  dsimp only at hx
  split at hx
  · exact nomatch hx
  · cases hp : bindPort e.dct w c n with
    | none =>
      rw [hp] at hx
      exact nomatch hx
    | some q =>
      rw [hp, Option.bind_some] at hx
      obtain ⟨v, -, rfl⟩ := Option.map_eq_some_iff.1 hx
      rfl

theorem bindTile_ps0 {c : Cmd} (i : Nat) (hc : w.cmd c.id = some c) (hps : e.pwr.state = .ps0) (htr : e.pwr.transition = none) :
    bindTile e c.id i w = match bindPlace e w c i with
      | none => w
      | some (q, slots, v) => if boundAfter e w c i q then w else { v with tiles := v.tiles ++ [({
          cmd := c.id, index := i, port := q, state := .staging, tileId := 0, order := readyKey c i, slots := slots,
          result := [], credits := [], grace := false, startCycle := 0, beats := 0 } : Tile).settled] } := by
  unfold bindTile
  rw [hc]
  dsimp only
  rw [hps, htr]
  rfl

theorem bindTile_nowhere {c : Cmd} {i : Nat} (hc : w.cmd c.id = some c) (h : bindPlace e w c i = none) : bindTile e c.id i w = w := by
  unfold bindTile
  rw [hc]
  dsimp only
  rw [h]
  dsimp only
  split <;> rfl

/-- A tile that another goes before is not bound. -/
theorem bindTile_after {c : Cmd} {n i : Nat} (hc : w.cmd c.id = some c) (hs : c.slice = some n) (hport : bindPort e.dct w c n = some p)
    (h : boundAfter e w c i p = true) : bindTile e c.id i w = w := by
  cases hplace : bindPlace e w c i with
  | none => exact bindTile_nowhere hc hplace
  | some x =>
    obtain ⟨q, slots, v⟩ := x
    obtain rfl : p = q := Option.some.inj (hport.symm.trans (bindPlace_port hs hplace))
    unfold bindTile
    rw [hc]
    dsimp only
    rw [hplace]
    dsimp only
    rw [if_pos h]
    split <;> rfl

theorem settled_keeps (x : Tile) (hx : x.state = .staging) :
    (x.settled.state = .staging ∨ x.settled.state = .staged) ∧ { x.settled with state := x.state } = x := by
  unfold Tile.settled
  split
  · exact ⟨.inr rfl, rfl⟩
  · exact ⟨.inl hx, rfl⟩

/-! #### The offer (R80, R83, R271) -/

theorem updTile_tiles (t : Tile) (f : Tile → Tile) (w : Work) :
    (updTile t f w).tiles = w.tiles.map fun x => if sameTile x t.cmd t.index then f x else x := rfl

/-! #### The start (R84, R288) -/

theorem tblGet_count (qs : List Nat) (m : Tbl Nat) (q : Nat) :
    tblGet 0 (qs.foldl (fun m q => tblUpd 0 m q (· + 1)) m) q = tblGet 0 m q + qs.count q := by
  induction qs generalizing m with
  | nil => rfl
  | cons x xs ih =>
    rw [List.foldl_cons, ih]
    by_cases h : x = q
    · subst h
      rw [tblGet_tblUpd_same, List.count_cons_self]
      omega
    · rw [tblGet_tblUpd_other _ _ _ _ _ (Ne.symm h), List.count_cons_of_ne h]

theorem startTile_held (ht : offeredTile w p = some t)
    (h : creditsFree e w (((w.cmd t.cmd).map (creditPorts e w)).getD []) = false ∨ (w.port p).inService = false ∨
      w.pln.engineDomain = true) : startTile e p w = w := by
  unfold startTile
  rw [ht]
  dsimp only
  rw [if_pos]
  rcases h with h | h | h <;> simp [h]

/-- The shared state once the engine has taken a tile, before its operands begin. -/
def begun (e : Block) (w : Work) (p : Nat) (t : Tile) (ports : List Nat) : Work :=
  let w := updTile t (fun x => { x with
    state := .running, result := [], startCycle := e.clk.cycle, grace := false, beats := 0, credits := ports }) w
  { w with msgs := { w.msgs with credits := ports.foldl (fun m q => tblUpd 0 m q (· + 1)) w.msgs.credits } }.updPort p
    fun x => { x with overrun := false }

theorem begun_port (e : Block) (w : Work) (p : Nat) (t : Tile) (ports : List Nat) :
    (begun e w p t ports).port p = { w.port p with overrun := false } := by
  rw [begun, port_updPort]
  rfl

theorem begun_other (e : Block) (w : Work) (t : Tile) (ports : List Nat) {p q : Nat} (h : q ≠ p) :
    (begun e w p t ports).port q = w.port q := by
  rw [begun, port_updPort_other _ _ _ _ h]
  rfl

/-- A start changes tiles, credits and its port. -/
theorem begun_frame (e : Block) (w : Work) (p : Nat) (t : Tile) (ports : List Nat) (f : Port → Port) :
    let w' := (begun e w p t ports).updPort p f
    { w' with tiles := w.tiles, ports := w.ports, msgs := { w'.msgs with credits := w.msgs.credits } } = w := rfl

theorem deliverSlot_congr {v : Work} (hport : (v.port p).opdFmt = (w.port p).opdFmt) (hobjs : v.objs = w.objs) (s : Nat) (c : Cmd)
    (t : Tile) (k : Nat) : deliverSlot v p s c t k = deliverSlot w p s c t k := by
  unfold deliverSlot slotObj Work.obj
  rw [hport, hobjs]

section

variable {ports : List Nat} (ht : offeredTile w p = some t) (hports : ((w.cmd t.cmd).map (creditPorts e w)).getD [] = ports)
  (hfree : creditsFree e w ports = true) (hin : (w.port p).inService = true) (hdom : w.pln.engineDomain = false)

include ht hports hfree hin hdom

/-- A tile that may not run is killed as the engine takes it. -/
theorem startTile_kills {why : KillWhy} (hkill : startKill w t = some why) :
    startTile e p w = killPort p why (begun e w p t ports) := by
  unfold startTile
  rw [ht]
  dsimp only
  rw [hports, hfree, hin, hdom, if_neg (by decide)]
  split
  next why' h =>
    obtain rfl : why = why' := Option.some.inj (hkill.symm.trans h)
    rfl
  next h => exact nomatch hkill.symm.trans h

/-- A tile that may run has its operand beats to be accepted. -/
theorem startTile_runs {c : Cmd} {n : Nat} (hkill : startKill w t = none) (hc : w.cmd t.cmd = some c) (hs : c.slice = some n) :
    startTile e p w = (begun e w p t ports).updPort p fun x => { x with
      opd := (List.range 8).flatMap fun k => deliverSlot w p n c t k } := by
  have hdeliver := deliverSlot_congr (v := begun e w p t ports) (w := w) (p := p) (by rw [begun_port]) rfl
  unfold startTile
  rw [ht]
  dsimp only
  rw [hports, hfree, hin, hdom, if_neg (by decide)]
  split
  next why' h => exact nomatch h.symm.trans hkill
  next h =>
    split
    next c' h' =>
      obtain rfl : c = c' := Option.some.inj (hc.symm.trans h')
      simp only [← hdeliver]
      rw [hs]
      rfl
    next h' => exact nomatch hc.symm.trans h'

end

/-- A tile that is not killed as it starts has its command, in a slice. -/
theorem startKill_none (h : startKill w t = none) : ∃ c n, w.cmd t.cmd = some c ∧ c.slice = some n := by
  unfold startKill at h
  cases hc : w.cmd t.cmd with
  | none =>
    rw [hc] at h
    exact nomatch h
  | some c =>
    rw [hc] at h
    dsimp only at h
    cases hs : c.slice with
    | none =>
      rw [hs] at h
      exact nomatch h
    | some n => exact ⟨c, n, rfl, hs⟩

/-! #### An offer that hangs (R83, R574) -/

/-- Settles O36: each row is its operation, and a hanging offer is the entry of its port into rung 1. -/
theorem tileDispatch : Obligations.TileDispatch := by
  unfold Obligations.TileDispatch
  refine ⟨fun s h => ?_, fun s p t h ht => ?_⟩
  · intro w
    refine ⟨fun c n i p hc hs hop hps htr hmay hready hstays hport => ⟨fun hroom hafter => ?_, fun hafter => ?_⟩,
      fun c n i hc hs hport => ?_, fun p t c hfree ht hc => ?_, fun p hp => ?_⟩
    · have hplace := bindPlace_fits hs hop hmay hready hstays hport hroom
      refine does_of rfl h ?_
      rw [bindTile_ps0 i hc hps htr, hplace]
      dsimp only
      rw [hafter, if_neg (by decide)]
      obtain ⟨hst, hx⟩ := settled_keeps { 
          cmd := c.id, index := i, port := p, state := .staging, tileId := 0, order := readyKey c i,
          slots := (List.range 8).map (slotAt s.core.dct w c p i),
          result := [], credits := [], grace := false, startCycle := 0, beats := 0 } rfl
      refine ⟨_, rfl, ?_⟩
      generalize Tile.settled _ = x at hst hx ⊢
      exact ⟨congrArg Tile.cmd hx, congrArg Tile.index hx, congrArg Tile.port hx, hst, congrArg Tile.slots hx, congrArg Tile.order hx,
        congrArg Tile.result hx, rfl⟩
    · exact leaves_of rfl h (bindTile_after hc hs hport hafter)
    · refine leaves_of rfl h ?_
      cases hplace : bindPlace s.core w c i with
      | none => exact bindTile_nowhere hc hplace
      | some x => exact nomatch hport.symm.trans (bindPlace_port hs hplace)
    · refine does_of rfl h ?_
      rw [offerTile, hfree, if_neg (by decide), ht]
      dsimp only
      rw [hc]
      dsimp only
      refine ⟨rfl, ?_, fun q hq => ?_, rfl, rfl⟩
      · rw [emit_port, port_updPort]
        rfl
      · rw [emit_port, port_updPort_other _ _ _ _ hq]
        rfl
    · refine leaves_of rfl h ?_
      unfold offerTile
      rcases hp with hp | hp
      · rw [hp]
        rfl
      · rw [hp]
        dsimp only
        split <;> rfl
  · intro w ports
    refine ⟨fun hheld => leaves_of rfl h (startTile_held ht hheld), fun hfree hin hdom => ?_, ?_⟩
    · cases hkill : startKill w t with
      | some why =>
        refine does_of rfl h ?_
        rw [startTile_kills ht rfl hfree hin hdom hkill]
        refine ⟨rfl, tblGet_count ports _, (fun _ _ _ _ hno => nomatch hno), fun why' hwhy => ?_, fun q hq => ?_,
          begun_frame _ _ _ _ _ _⟩
        · obtain rfl : why = why' := Option.some.inj hwhy
          rw [killPort, port_updPort, begun_port]
        · rw [killPort, port_updPort_other _ _ _ _ hq, begun_other _ _ _ _ hq]
      | none =>
        obtain ⟨c, n, hc, hs⟩ := startKill_none hkill
        refine does_of rfl h ?_
        rw [startTile_runs ht rfl hfree hin hdom hkill hc hs]
        refine ⟨rfl, tblGet_count ports _, fun c' n' hc' hs' _ => ?_, (fun _ hwhy => nomatch hwhy), fun q hq => ?_,
          begun_frame _ _ _ _ _ _⟩
        · obtain rfl : c = c' := Option.some.inj (hc.symm.trans hc')
          obtain rfl : n = n' := Option.some.inj (hs.symm.trans hs')
          rw [port_updPort, begun_port]
        · rw [port_updPort_other _ _ _ _ hq, begun_other _ _ _ _ hq]
    · refine does_of rfl h ?_
      rw [offerHung, ht]
      dsimp only
      have hcap := captureEvent_captures s.core (ladderEvent p 1 St.engineHung none) (countHang p s.core.work)
      generalize captureEvent _ _ _ = v at hcap ⊢
      obtain ⟨hports, htiles, -, hcmds⟩ := hcap.stops_ports
      obtain ⟨hen, hstate, hsrst, hrung⟩ := enterLadder_soft s.core p St.engineHung none v.cap.seq v
      generalize enterLadder _ _ _ _ _ _ v = w' at hen hstate hsrst hrung ⊢
      obtain ⟨r, hlad⟩ := hen.ladder
      rw [hlad] at hrung
      obtain rfl : r = 1 := Option.some.inj hrung
      have hof : ∀ x, x ∈ v.tiles ↔ x ∈ w.tiles := fun x => by rw [htiles]; rfl
      refine ⟨hstate, hsrst, ?_, ?_, fun x hx hp => unbindPort_started ((hen.tiles x).1 hx) hp, fun x hx hp hno => ?_, ?_⟩
      · rw [hen.counts.2.1, port_congr hports, countHang, port_updPort]
      · rw [hlad]
        rfl
      · refine (hen.tiles x).2 ((mem_unbindPort p v x).2 ⟨(hof x).2 hx, fun y hy => ?_⟩)
        obtain ⟨hy, -⟩ := List.mem_filter.1 hy
        obtain ⟨hy, hyp⟩ := List.mem_filter.1 hy
        rw [sameTile_comm]
        exact hno y ((hof y).1 hy) (beq_iff_eq.1 hyp)
      · exact KeepsCmds.trans (.of_cmds hcmds) hen.cmds

end

end Sys2Proof.Machine

end

-- Proofs about results and endings of tiles (R38 to R45, R87 to R90).
section

namespace Sys2Proof.Machine

/-! ### Results and endings of tiles (R38 to R45, R87 to R90, R414) -/

section

variable {w : Work} {e : Block} {p : Nat} {t : Tile}

/-! #### Sampling (R87 to R90) -/

theorem runningTile_of_named {id : BitVec 8} (h : namedTile w p id = some t) : runningTile w p = some t :=
  (Option.filter_eq_some_iff.1 h).1

theorem runningTile_runs (h : runningTile w p = some t) : t ∈ w.tiles ∧ t.port = p ∧ t.state = .running := by
  have hp := List.find?_some h
  rw [Bool.and_eq_true, beq_iff_eq, beq_iff_eq] at hp
  exact ⟨List.mem_of_find?_eq_some h, hp.1, hp.2⟩

/-- A change of one port, as the claims of a row state it. -/
theorem does_port {i : Instr} {s : State} {f : Block → Work → Work} {g : Port → Port} {x : Port} (hx : exec i s = .next (s.onWork f))
    (h : s.live) (hf : f s.core s.core.work = s.core.work.updPort p g) (hg : g (s.core.work.port p) = x) :
    Does i s fun w' =>
      w'.port p = x ∧ (∀ q, q ≠ p → w'.port q = s.core.work.port q) ∧ { w' with ports := s.core.work.ports } = s.core.work := by
  refine does_of hx h ?_
  rw [hf]
  exact ⟨by rw [port_updPort, hg], fun q hq => port_updPort_other _ _ _ _ hq, rfl⟩

theorem protoErr_serves (hin : (w.port p).inService = true) :
    protoErr p w = w.updPort p fun x => { x with protoErrs := x.protoErrs + 1 } := by rw [protoErr, if_pos hin]

theorem named_inService {id : BitVec 8} (h : namedTile w p id = some t) : (w.port p).inService = true := by
  have hp := (Option.filter_eq_some_iff.1 h).2
  rw [Bool.and_eq_true] at hp
  exact hp.2

/-- A beat's bytes that its mask names are written, from byte `base` of the result area. -/
theorem tblGet_beat (mask : BitVec 128) (base k : Nat) (bs : List Byte) (m : Nat) (r : Tbl Byte) :
    tblGet 0 ((bs.zipIdx m).foldl (fun (r : Tbl Byte) b => if mask.getLsbD (b.2 / 8) then tblSet 0 r (base + b.2) b.1 else r) r) k =
      if (base + m ≤ k ∧ k < base + m + bs.length) ∧ mask.getLsbD ((k - base) / 8) = true then bs.getD (k - base - m) 0
      else tblGet 0 r k := by
  induction bs generalizing m r with
  | nil =>
    rw [List.zipIdx_nil, List.foldl_nil, if_neg]
    rintro ⟨⟨h₁, h₂⟩, -⟩
    rw [List.length_nil] at h₂
    omega
  | cons b bs ih =>
    rw [List.zipIdx_cons, List.foldl_cons, ih, List.length_cons]
    dsimp only
    by_cases hk : k = base + m
    · subst hk
      rw [if_neg (fun h => by omega), Nat.add_sub_cancel_left, Nat.sub_self]
      cases hm : mask.getLsbD (m / 8) with
      | true => rw [if_pos rfl, tblGet_tblSet_same, if_pos ⟨⟨Nat.le_refl _, by omega⟩, rfl⟩, List.getD_cons_zero]
      | false => rw [if_neg (by decide), if_neg (fun h => nomatch h.2)]
    · have hrest : tblGet 0 (if mask.getLsbD (m / 8) then tblSet 0 r (base + m) b else r) k = tblGet 0 r k := by
        split
        · exact tblGet_tblSet_other _ _ _ _ _ hk
        · rfl
      rw [hrest]
      by_cases hin : (base + (m + 1) ≤ k ∧ k < base + (m + 1) + bs.length) ∧ mask.getLsbD ((k - base) / 8) = true
      · obtain ⟨⟨h₁, h₂⟩, hm⟩ := hin
        rw [if_pos ⟨⟨h₁, h₂⟩, hm⟩, if_pos ⟨⟨by omega, by omega⟩, hm⟩, show k - base - m = k - base - (m + 1) + 1 by omega,
          List.getD_cons_succ]
      · rw [if_neg hin, if_neg fun h => hin ⟨⟨by omega, by omega⟩, h.2⟩]

section

variable {id : BitVec 8} {o : BitVec 16} {mask : BitVec 128} {data : List Byte} {code : BitVec 8} {cycles : Nat}

theorem resultBeatOp_killed (hold : killOld w p = true) (hrun : (runningTile w p).isSome = true) :
    resultBeatOp e p id o mask data w = w := by
  unfold resultBeatOp
  cases namedTile w p id with
  | none =>
    dsimp only
    rw [hold, hrun]
    rfl
  | some t => exact if_pos hold

theorem tileDoneOp_killed (hold : killOld w p = true) (hrun : (runningTile w p).isSome = true) : tileDoneOp p id cycles w = w := by
  unfold tileDoneOp
  cases namedTile w p id with
  | none =>
    dsimp only
    rw [hold, hrun]
    rfl
  | some t => exact if_pos hold

theorem engineFaultOp_killed (hold : killOld w p = true) (ht : (namedTile w p id).isSome = true) :
    engineFaultOp p id code cycles w = w := by
  unfold engineFaultOp
  cases h : namedTile w p id with
  | none =>
    rw [h] at ht
    exact nomatch ht
  | some t => exact if_pos hold

/-- What names no running tile is a protocol error, outside a ladder and a kill. -/
theorem unnamed_protoErr (hold : killOld w p = false) (hnone : namedTile w p id = none) (hlad : (w.port p).ladder = none) :
    resultBeatOp e p id o mask data w = protoErr p w ∧ tileDoneOp p id cycles w = protoErr p w ∧
    engineFaultOp p id code cycles w = protoErr p w := by
  refine ⟨?_, ?_, ?_⟩
  · rw [resultBeatOp, hnone, hold]
    rfl
  · rw [tileDoneOp, hnone, hold]
    rfl
  · unfold engineFaultOp
    rw [hnone]
    dsimp only
    rw [hlad]

section

variable (hold : killOld w p = false) (ht : namedTile w p id = some t)

include hold ht

theorem named_done (hdone : (w.port p).done.isSome = true) :
    resultBeatOp e p id o mask data w = protoErr p w ∧ tileDoneOp p id cycles w = protoErr p w := by
  constructor
  · rw [resultBeatOp, ht]
    dsimp only
    rw [hold, if_neg (by decide), if_pos hdone]
  · rw [tileDoneOp, ht]
    dsimp only
    rw [hold, if_neg (by decide), if_pos hdone]

theorem engineFaultOp_named : engineFaultOp p id code cycles w = sampleFault p code cycles w := by
  rw [engineFaultOp, ht]
  dsimp only
  rw [hold, if_neg (by decide)]

variable (hdone : (w.port p).done = none)

include hdone

theorem tileDoneOp_named : tileDoneOp p id cycles w = w.updPort p fun x => { x with done := some cycles } := by
  rw [tileDoneOp, ht]
  dsimp only
  rw [hold, if_neg (by decide), hdone, if_neg (by decide)]

theorem resultBeatOp_beyond {c : Cmd} (hc : w.cmd t.cmd = some c) (ho : resultKib c.bytes ≤ o.toNat) :
    resultBeatOp e p id o mask data w = sampleFault p 0xFF (sinceStart e t) w := by
  rw [resultBeatOp, ht]
  dsimp only
  rw [hold, if_neg (by decide), hdone, if_neg (by decide), hc]
  dsimp only
  rw [if_pos ho]

theorem resultBeatOp_named {c : Cmd} (hc : w.cmd t.cmd = some c) (ho : o.toNat < resultKib c.bytes) (hlen : data.length = 1024) :
    resultBeatOp e p id o mask data w = updTile t (fun x => { x with
      beats := x.beats + 1
      result := (data.zipIdx 0).foldl (fun (r : Tbl Byte) b =>
        if mask.getLsbD (b.2 / 8) then tblSet 0 r (o.toNat * 1024 + b.2) b.1 else r) x.result }) w := by
  rw [resultBeatOp, ht]
  dsimp only
  rw [hold, if_neg (by decide), hdone, if_neg (by decide), hc]
  dsimp only
  rw [if_neg (by omega), List.take_of_length_le (by rw [List.length_zipIdx, hlen])]

end

end

/-! #### What the end of a control cycle makes of a tile (R40 to R45, R414) -/

theorem chargeTile_used {c : Cmd} {n : Nat} (hc : w.cmd t.cmd = some c) (hs : c.slice = some n) (cycles : Nat) (b : Bool) :
    ((chargeTile e t cycles (if b then none else some n) w).slice n).used =
      (w.slice n).used + if b then 0 else cyclesToNs e.dct cycles := by
  have hctx : cmdContext w t.cmd = some (n, c.ctx, t.cmd) := by rw [cmdContext, hc, Option.bind_some, hs, Option.map_some]
  have hkeep : ∀ f : Ctx → Ctx, ((w.updCtx n c.ctx f).slice n).used = (w.slice n).used := fun f =>
    (congrArg Slice.used (slice_updCtx w n c.ctx n f) :)
  unfold chargeTile
  rw [hctx]
  cases b with
  | true => exact hkeep _
  | false =>
    show ((Work.updSlice _ n _).slice n).used = _
    rw [slice_updSlice]
    exact congrArg (· + _) (hkeep _)

/-- What the end of a control cycle clears of a port's samples. -/
abbrev Port.sampled (x : Port) : Port := { x with done := none, fault := none, overKill := false }

section

variable {c : Cmd} {n : Nat} (hrun : runningTile w p = some t)

include hrun

/-- A fault that is sampled under no kill is the tile's. -/
theorem endPort_faults {code : BitVec 8} {cycles : Nat} (hfault : (w.port p).fault = some (code, cycles)) (hkill :
    (w.port p).kill = false) :
    endPort e p w = faultTile e p t code cycles (w.updPort p Port.sampled) := by
  have hrun' : runningTile (w.updPort p Port.sampled) p = some t := hrun
  unfold endPort
  dsimp only
  rw [hrun']
  dsimp only
  rw [hfault]
  dsimp only
  rw [hkill, if_neg (by decide)]

theorem endPort_underKill {code : BitVec 8} {cycles : Nat} (hfault : (w.port p).fault = some (code, cycles))
    (hkill : (w.port p).kill = true) (hover : (w.port p).overKill = false) :
    endPort e p w = faultUnderKill p code (w.updPort p Port.sampled) := by
  have hrun' : runningTile (w.updPort p Port.sampled) p = some t := hrun
  unfold endPort
  dsimp only
  rw [hrun']
  dsimp only
  rw [hfault]
  dsimp only
  rw [hkill, if_pos rfl, hover, if_neg (by decide)]

theorem endPort_commits {cycles : Nat} (hfault : (w.port p).fault = none) (hdone : (w.port p).done = some cycles)
    (hwhy : (w.port p).killWhy ≠ some .kilnError) : endPort e p w = tileCommits e p t cycles (w.updPort p Port.sampled) := by
  have hrun' : runningTile (w.updPort p Port.sampled) p = some t := hrun
  unfold endPort
  dsimp only
  rw [hrun']
  dsimp only
  rw [hfault, hdone]
  dsimp only
  rw [if_neg (by rw [beq_iff_eq]; exact hwhy)]

theorem endPort_spoilt {cycles : Nat} (hfault : (w.port p).fault = none) (hdone : (w.port p).done = some cycles)
    (hwhy : (w.port p).killWhy = some .kilnError) (hover : (w.port p).overKill = false) :
    endPort e p w = w.updPort p Port.sampled := by
  have hrun' : runningTile (w.updPort p Port.sampled) p = some t := hrun
  unfold endPort
  dsimp only
  rw [hrun']
  dsimp only
  rw [hfault, hdone]
  dsimp only
  rw [hwhy, if_pos (by decide), hover, if_neg (by decide)]

end

/-- Settles O37: each row samples on its port, and the end of the cycle chooses by what was sampled. -/
theorem tileResults : Obligations.TileResults := by
  unfold Obligations.TileResults
  refine ⟨fun s p id h => ?_, fun e w p t c n hrun hc hs => ?_⟩
  · intro w portBecomes
    refine ⟨fun hold hruns => ⟨fun o m d => ?_, fun n => ?_, fun code n hnamed => ?_⟩,
      fun hold => ⟨fun hnone hin hlad i hi => ?_, fun t c ht hc => ⟨fun hdone i hi => ?_, fun hdone => ⟨fun o mask data ho hlen => ?_,
        fun o mask data ho hfault => ?_, fun cycles => ?_⟩, fun code cycles => ?_⟩⟩⟩
    · exact leaves_of rfl h (resultBeatOp_killed hold hruns)
    · exact leaves_of rfl h (tileDoneOp_killed hold hruns)
    · exact leaves_of rfl h (engineFaultOp_killed hold hnamed)
    · have hserves := protoErr_serves hin
      obtain ⟨o, m, d, rfl⟩ | ⟨n, rfl⟩ | ⟨code, n, rfl⟩ := hi
      · exact does_port rfl h ((unnamed_protoErr (cycles := 0) (code := 0) hold hnone hlad).1.trans hserves) rfl
      · exact does_port rfl h ((unnamed_protoErr (e := s.core) (o := 0) (mask := 0) (data := []) (code := 0)
          hold hnone hlad).2.1.trans hserves) rfl
      · exact does_port rfl h ((unnamed_protoErr (e := s.core) (o := 0) (mask := 0) (data := []) hold hnone hlad).2.2.trans hserves) rfl
    · have hserves := protoErr_serves (named_inService ht)
      obtain ⟨o, m, d, rfl⟩ | ⟨n, rfl⟩ := hi
      · exact does_port rfl h ((named_done (cycles := 0) hold ht hdone).1.trans hserves) rfl
      · exact does_port rfl h ((named_done (e := s.core) (o := 0) (mask := 0) (data := []) hold ht hdone).2.trans hserves) rfl
    · refine does_of rfl h ?_
      rw [resultBeatOp_named hold ht hdone hc ho hlen]
      obtain ⟨hmem, -, -⟩ := runningTile_runs (runningTile_of_named ht)
      refine ⟨_, List.mem_map.2 ⟨t, hmem, if_pos (sameTile_self t)⟩, rfl, fun j hj => ?_, fun k hk => ?_, rfl⟩
      · show tblGet 0 (List.foldl _ _ _) _ = _
        rw [tblGet_beat, Nat.add_sub_cancel_left, Nat.add_zero, Nat.sub_zero, hlen]
        cases hm : mask.getLsbD (j / 8) with
        | true => rw [if_pos ⟨⟨by omega, by omega⟩, rfl⟩, if_pos rfl]
        | false => rw [if_neg (fun h => nomatch h.2), if_neg (by decide)]
      · show tblGet 0 (List.foldl _ _ _) _ = _
        rw [tblGet_beat, if_neg fun h => by omega]
    · exact does_port rfl h (resultBeatOp_beyond hold ht hdone hc ho) (by rw [hfault]; rfl)
    · exact does_port rfl h (tileDoneOp_named hold ht hdone) rfl
    · exact does_port rfl h (engineFaultOp_named hold ht) rfl
  · intro x w'
    obtain ⟨hmem, -, -⟩ := runningTile_runs hrun
    refine ⟨fun cycles hfault hdone hwhy => ?_, fun cycles hfault hdone hwhy hover => ?_, fun code cycles hfault hkill hover => ?_,
      fun code cycles hfault hkill hend hfenced htear hkilled => ?_⟩
    · have hw' : w' = tileCommits e p t cycles (w.updPort p Port.sampled) := endPort_commits hrun hfault hdone hwhy
      rw [hw', tileCommits]
      have hpays : payer (w.updPort p Port.sampled) t = if c.unpaid.contains t.index then none else some n := by
        unfold payer
        rw [show (w.updPort p Port.sampled).cmd t.cmd = some c from hc]
        dsimp only
        rw [hs]
      have hctx := chargeTile_ctx (e := e) (w := w.updPort p Port.sampled) hc hs cycles (payer (w.updPort p Port.sampled) t)
      have hused := chargeTile_used (e := e) (w := w.updPort p Port.sampled) hc hs cycles (c.unpaid.contains t.index)
      have hch := chargeTile_charges e t cycles (payer (w.updPort p Port.sampled) t) (w.updPort p Port.sampled)
      rw [← hpays] at hused
      generalize chargeTile e t cycles _ _ = v at hctx hused hch ⊢
      refine ⟨⟨_, List.mem_map.2 ⟨t, ?_, if_pos (sameTile_self t)⟩⟩, ?_, ?_, hctx, hused, hch.cmds⟩
      · rw [hch.tiles]
        exact hmem
      · show v.pln.commitQ ++ _ = _
        rw [hch.pln]
        rfl
      · rw [port_withPln, port_updPort, updTile_port, port_congr hch.ports, port_updPort]
    · have hw' : w' = w.updPort p Port.sampled := endPort_spoilt hrun hfault hdone hwhy hover
      rw [hw', port_updPort]
      refine ⟨?_, fun q hq => port_updPort_other _ _ _ _ hq, rfl⟩
      rw [hfault, hover]
    · have hw' : w' = faultUnderKill p code (w.updPort p Port.sampled) := endPort_underKill hrun hfault hkill hover
      rw [hw', faultUnderKill, countFault]
      refine ⟨?_, fun q hq => ?_, ?_⟩
      · rw [port_updPort, port_updPort, port_updPort, hover]
      · rw [port_updPort_other _ _ _ _ hq, port_updPort_other _ _ _ _ hq, port_updPort_other _ _ _ _ hq]
      · exact updPort_onlyPorts (updPort_onlyPorts (updPort_onlyPorts rfl p _) p _) p _
    · have hw' : w' = faultTile e p t code cycles (w.updPort p Port.sampled) := endPort_faults hrun hfault hkill
      rw [hw', faultTile_eq]
      generalize hv : (countFault p (w.updPort p Port.sampled)).updPort p _ = v
      have hcmds : v.cmds = w.cmds := by
        rw [← hv, Work.updPort_cmds, countFault, Work.updPort_cmds, Work.updPort_cmds]
      have hslices : v.slices = w.slices := by
        rw [← hv, Work.updPort_slices, countFault, Work.updPort_slices, Work.updPort_slices]
      have hcap : v.cap = w.cap := by
        rw [← hv, Work.updPort_cap, countFault, Work.updPort_cap, Work.updPort_cap]
      have hvp : v.port p = { x.sampled with faults := satInc x.faults, lastFlt := code } := by
        rw [← hv, port_updPort, countFault, port_updPort, port_updPort]
      obtain ⟨hstate, hfaults, -, hflt, hgone, k, hk⟩ := endInFault_ends (e := e) (p := p) (t := t) (w := v) (st := St.engineFault)
        ((cmd_congr hcmds _).trans hc) hs hend (by rw [slice_congr hslices]; exact hfenced) (by rw [tearing, hcap]; exact htear)
        (by rw [Work.ctx, slice_congr hslices]; exact hkilled) (by decide) (by decide) none cycles
      rw [hcap] at hk
      refine ⟨hstate, ?_, ?_, hgone, k, hk⟩
      · rw [hfaults, hvp]
      · rw [hflt, hvp]

end

end Sys2Proof.Machine

end

-- Proofs about kills, overruns and Kiln errors (R90, R282 to R287, R398).
section

namespace Sys2Proof.Machine

/-! ### Kills, overruns and Kiln errors (R90, R282 to R287, R398) -/

section

variable {w w' : Work} {e : Block} {p : Nat} {t : Tile}

/-! #### A kill is acknowledged (R90, R283) -/

/-- Where nothing else was sampled on a port, the end of the control cycle leaves its tile. -/
theorem endPort_idle (hdone : (w.port p).done = none) (hfault : (w.port p).fault = none) (hover : (w.port p).overKill = false) :
    endPort e p w = w.updPort p Port.sampled := by
  unfold endPort
  dsimp only
  split
  · rfl
  · rw [hfault, hdone]
    dsimp only
    rw [hover, if_neg (by decide)]

theorem dueRung_none (h : (w.port p).due = none) : dueRung e p w = w := by
  unfold dueRung
  rw [h]

/-- A kill is over: its port serves again. -/
abbrev Port.unkilled (x : Port) : Port := { x with kill := false, killAck := true, killWhy := none, killFresh := false, overrun := false }

/-- A kill of a tile on whose port nothing else was sampled, and where no rung is due. -/
theorem killAckOp_ends {why : KillWhy} {cycles : Nat} (hrun : runningTile w p = some t) (hkill : (w.port p).kill = true)
    (hwhy : (w.port p).killWhy = some why) (hdue : (w.port p).due = none) (hdone : (w.port p).done = none)
    (hfault : (w.port p).fault = none) (hover : (w.port p).overKill = false)
    (hports : (endKilled e t why cycles (w.updPort p Port.sampled)).ports = (w.updPort p Port.sampled).ports) :
    let v := endKilled e t why cycles (w.updPort p Port.sampled)
    killAckOp e p cycles w = v.updPort p Port.unkilled ∧
    (v.updPort p Port.unkilled).port p = (w.port p).sampled.unkilled := by
  intro v
  have hrun' : runningTile (w.updPort p Port.sampled) p = some t := hrun
  have hvp : (v.updPort p Port.unkilled).port p = (w.port p).sampled.unkilled := by
    rw [port_updPort, port_congr hports, port_updPort]
  refine ⟨?_, hvp⟩
  unfold killAckOp
  rw [hkill, if_neg (by decide)]
  dsimp only
  rw [endPort_idle hdone hfault hover, hrun', port_updPort]
  dsimp only
  rw [hwhy]
  exact dueRung_none ((congrArg Port.due hvp).trans hdue)

/-- A tile's replay that no slice pays leaves tiles and ports. -/
theorem unpay_keeps (t : Tile) (w : Work) : { unpay t w with slices := w.slices, cmds := w.cmds } = w := by
  unfold unpay
  cases payer w t <;> rfl

theorem unpay_unpaid {c : Cmd} (hc : w.cmd t.cmd = some c) :
    ((unpay t w).cmd t.cmd).map Cmd.unpaid =
      some (if c.unpaid.contains t.index then c.unpaid else c.unpaid ++ [t.index]) := by
  unfold unpay
  extract_lets v
  have hv : v.cmds = w.cmds := by
    unfold v
    cases payer w t <;> rfl
  rw [cmd_updCmd v t.cmd _ (by intros; rfl), cmd_congr hv, hc]
  rfl

/-- A killed tile that is not pre-empted leaves its port. -/
theorem endKilled_drops {why : KillWhy} (hwhy : ∀ n, why ≠ .preempt n) (cycles : Nat) (w : Work) :
    let w' := endKilled e t why cycles w
    w'.ports = w.ports ∧ (∀ y ∈ w'.tiles, sameTile y t.cmd t.index = false) ∧ (why ≠ .planerReset → KeepsCmds w w') ∧
    ∀ c, why = .planerReset → w.cmd t.cmd = some c →
      (w'.cmd t.cmd).map Cmd.unpaid = some (if c.unpaid.contains t.index then c.unpaid else c.unpaid ++ [t.index]) := by
  have hgone : ∀ v y, y ∈ (dropTile t.cmd t.index v).tiles → sameTile y t.cmd t.index = false := fun v y hy => by
    rw [dropTile_tiles] at hy
    exact (Bool.not_eq_true' _).mp (List.mem_filter.1 hy).2
  have hdrop := dropTile_unbinds t.cmd t.index (chargeTile e t cycles (payer w t) w)
  have hcharge := chargeTile_charges e t cycles (payer w t) w
  have hother : ∀ w', w' = dropTile t.cmd t.index (chargeTile e t cycles (payer w t) w) → why ≠ .planerReset →
      w'.ports = w.ports ∧ (∀ y ∈ w'.tiles, sameTile y t.cmd t.index = false) ∧ (why ≠ .planerReset → KeepsCmds w w') ∧
      ∀ c, why = .planerReset → w.cmd t.cmd = some c →
        (w'.cmd t.cmd).map Cmd.unpaid = some (if c.unpaid.contains t.index then c.unpaid else c.unpaid ++ [t.index]) := by
    rintro w' rfl hno
    exact ⟨hdrop.ports.trans hcharge.ports, hgone _, fun _ => KeepsCmds.trans (.of_cmds hcharge.cmds) hdrop.cmds,
      fun _ h => absurd h hno⟩
  cases why with
  | preempt n => exact absurd rfl (hwhy n)
  | planerReset =>
    intro w'
    have hdrop := dropTile_unbinds t.cmd t.index (chargeTile e t cycles none w)
    have hcharge := chargeTile_charges e t cycles none w
    have hgone := hgone (chargeTile e t cycles none w)
    have hun := unpay_keeps t (dropTile t.cmd t.index (chargeTile e t cycles none w))
    have hpaid := @unpay_unpaid (dropTile t.cmd t.index (chargeTile e t cycles none w)) t
    rw [show unpay t (dropTile t.cmd t.index (chargeTile e t cycles none w)) = w' from rfl] at hun hpaid
    clear_value w'
    generalize dropTile t.cmd t.index (chargeTile e t cycles none w) = v at hdrop hgone hun hpaid
    refine ⟨?_, fun y hy => hgone y ?_, fun h => absurd rfl h, fun c _ hc => ?_⟩
    · exact ((congrArg Work.ports hun :).trans hdrop.ports).trans hcharge.ports
    · rwa [← show w'.tiles = v.tiles from (congrArg Work.tiles hun :)]
    · obtain ⟨r, hc'⟩ := (KeepsCmds.trans (.of_cmds hcharge.cmds) hdrop.cmds).some hc
      exact hpaid (c := { c with readyAt := r }) hc'
  | kilnError => exact hother _ rfl (by decide)
  | portReset => exact hother _ rfl (by decide)
  | overrun => exact hother _ rfl (by decide)
  | timeout => exact hother _ rfl (by decide)
  | teardown => exact hother _ rfl (by decide)
  | revoke => exact hother _ rfl (by decide)

theorem chargeTile_pays (e : Block) (t : Tile) (cycles u : Nat) (w : Work) :
    ((chargeTile e t cycles (some u) w).slice u).used = (w.slice u).used + cyclesToNs e.dct cycles := by
  unfold chargeTile
  extract_lets ns v
  have hv : (v.slice u).used = (w.slice u).used := by
    unfold v
    cases cmdContext w t.cmd with
    | none => rfl
    | some x => exact (congrArg Slice.used (slice_updCtx w x.1 x.2.1 u _) :)
  clear_value v
  show ((v.updSlice u _).slice u).used = _
  rw [slice_updSlice]
  exact congrArg (· + ns) hv

/-- Marks and charges have no part in whether a tile keeps its operands. -/
theorem Charges.keepsStaged {v : Work} {c : Cmd} {m : Tbl (Nat × Nat)} (h : Charges w v) (hc : w.cmd t.cmd = some c)
    (hcmd : w'.cmd t.cmd = some { c with marks := m }) (hslices : w'.slices = v.slices) (hslots : w'.slots = v.slots) :
    keepsStaged w' t = keepsStaged w t := by
  unfold Machine.keepsStaged
  rw [hc, hcmd]
  dsimp only
  cases hs : c.slice with
  | none => rfl
  | some n =>
    dsimp only
    have hslots' : w'.slots = w.slots := hslots.trans h.slots
    have hruns : (w'.slice n).runs = (w.slice n).runs := by rw [Slice.runs, slice_congr hslices, h.state, Slice.runs]
    have hstopped : (w'.ctx n c.ctx).stopped = (w.ctx n c.ctx).stopped := by
      rw [Work.ctx, slice_congr hslices]
      exact h.stopped n c.ctx
    have hstays : staysResident w' n c.ctx = staysResident w n c.ctx := by
      unfold staysResident Work.residentSlot Work.slot
      rw [hslots']
    rw [hruns, hstopped, hstays]

/-- A pre-empted tile keeps its operands for the replay (R283). -/
theorem endKilled_restages {u cycles : Nat} {c : Cmd} (ht : t ∈ w.tiles) (hc : w.cmd t.cmd = some c) (hkeeps : keepsStaged w t = true) :
    let w' := endKilled e t (.preempt u) cycles w
    w'.ports = w.ports ∧
    (∃ y ∈ w'.tiles, y = { t with state := .staged, result := [], credits := [], grace := false, beats := 0, order := y.order }) ∧
    (w'.cmd t.cmd).map (fun d => tblGet (0, 0) d.marks t.index) =
      some ((tblGet (0, 0) c.marks t.index).1 + 1, (tblGet (0, 0) c.marks t.index).2) ∧
    (w'.slice u).used = (w.slice u).used + cyclesToNs e.dct cycles := by
  intro w'
  have hw' : w' = endKilled e t (.preempt u) cycles w := rfl
  clear_value w'
  unfold endKilled at hw'
  dsimp only at hw'
  have hcharge := chargeTile_charges e t cycles (some u) w
  have hused := chargeTile_pays e t cycles u w
  generalize chargeTile e t cycles (some u) w = v at hw' hcharge hused
  have hmarked : (updMarks t.cmd t.index (fun m => (m.1 + 1, m.2)) v).cmd t.cmd =
      some { c with marks := tblUpd (0, 0) c.marks t.index fun m => (m.1 + 1, m.2) } := by
    rw [updMarks, cmd_updCmd v t.cmd _ (by intros; rfl), cmd_congr hcharge.cmds, hc]
    rfl
  have hkeep : keepsStaged (updMarks t.cmd t.index (fun m => (m.1 + 1, m.2)) v) t = true := by
    rw [hcharge.keepsStaged hc hmarked rfl rfl]
    exact hkeeps
  rw [if_pos hkeep] at hw'
  have hback := (returnCredits_unbinds t.credits (updMarks t.cmd t.index (fun m => (m.1 + 1, m.2)) v)).trans
    (backToReady_unbinds t.cmd t.index _)
  generalize hx : backToReady t.cmd t.index _ = x at hw' hback
  have htiles : x.tiles = w.tiles := by
    rw [← hx]
    exact hcharge.tiles
  rw [hw']
  refine ⟨hback.ports.trans hcharge.ports, ⟨_, List.mem_map.2 ⟨t, by rwa [htiles], if_pos (sameTile_self t)⟩, rfl⟩, ?_, ?_⟩
  · rw [show (updTile t _ x).cmd t.cmd = x.cmd t.cmd from rfl, hback.cmds.map t.cmd (by intros; rfl), hmarked, Option.map_some,
      tblGet_tblUpd_same]
  · show (x.slice u).used = _
    rw [slice_congr hback.slices]
    exact hused

/-! #### Kills that are late, and overruns (R286, R287, R574) -/

/-- A kill whose time runs out is the fault of its tile, on a port that has hung. -/
theorem killHung_ends (hrun : runningTile w p = some t) (hkill : (w.port p).kill = true) :
    ∃ dcmd, killHung e p w = endInFault e p t St.engineHung dcmd (sinceStart e t) (countHang p w) := by
  unfold killHung
  rw [hkill, if_neg (by decide), hrun]
  exact ⟨_, rfl⟩

/-- A tile killed for its overrun that has not ended in the same control cycle. -/
theorem endPort_overruns (hrun : runningTile w p = some t) (hover : (w.port p).overKill = true) (hdone : (w.port p).done = none)
    (hfault : (w.port p).fault = none) : endPort e p w = overrunFault e p t (w.updPort p Port.sampled) := by
  have hrun' : runningTile (w.updPort p Port.sampled) p = some t := hrun
  unfold endPort
  dsimp only
  rw [hrun']
  dsimp only
  rw [hfault, hdone]
  dsimp only
  rw [hover, if_pos rfl]

/-- A first double-bit error of a running tile kills it (R398). -/
theorem kilnError_running {c : Cmd} {n : Nat} {place : EccPlace} (hn : (tilesOn w p)[n]? = some t) (hstate : t.state = .running)
    (hport : t.port = p) (hc : w.cmd t.cmd = some c) (hmarks : tblGet (0, 0) c.marks t.index = (0, 0))
    (hwhy : (w.port p).killWhy = none) :
    kilnError p n place true w = killPort p .kilnError
      (updMarks t.cmd t.index (fun m => (m.1, m.2 + 1)) { w with pln := { w.pln with uncorrected := satInc w.pln.uncorrected } }) := by
  unfold kilnError
  rw [Bool.not_true, if_neg (by decide)]
  dsimp only
  rw [show (tilesOn { w with pln := { w.pln with uncorrected := satInc w.pln.uncorrected } } p)[n]? = some t from hn]
  dsimp only
  generalize hv : ({ w with pln := { w.pln with uncorrected := satInc w.pln.uncorrected } } : Work) = v
  have hcv : v.cmd t.cmd = some c := by rw [← hv]; exact hc
  have hagain : tileMarks v t.cmd t.index = (0, 0) := by rw [tileMarks, hcv, Option.map_some, Option.getD_some, hmarks]
  have hport' : ((updMarks t.cmd t.index (fun m => (m.1, m.2 + 1)) v).port t.port).killWhy = none := by
    rw [hport, show (updMarks t.cmd t.index (fun m => (m.1, m.2 + 1)) v).port p = v.port p from rfl, ← hv]
    exact hwhy
  unfold doubleError
  rw [hcv]
  dsimp only
  rw [hagain, hstate, hport', hport]
  rfl

/-- Settles O38: each row on its port and tile, an acknowledged kill through the end of its tile, a late one through its fault. -/
theorem killsAndOverruns : Obligations.KillsAndOverruns := by
  unfold Obligations.KillsAndOverruns
  intro s p t h hrun w x
  obtain ⟨hmem, hport, hstate⟩ := runningTile_runs hrun
  refine ⟨fun u hu hin hkill hres hprio hprot => ?_, fun why cycles hkill hwhy hnot hdue hdone hfault hover => ?_,
    fun u c cycles hkill hwhy hdue hdone hfault hover hc hkeeps => ?_, fun hkill => ?_, fun hkill => ?_,
    fun c n hkill hc hs hend hfenced htear hkilled => ?_, fun hgrace hdone => ?_, fun hgrace hkill => ?_,
    fun c n hover hkill hdone hfault hc hs hend hfenced htear hkilled => ?_, fun n place => ?_, fun c n place hn hc hmarks hwhy => ?_⟩
  · refine does_port (g := fun x => { x with
      kill := true, killWhy := some (.preempt ((tileSlice w u).getD 0)), killFresh := x.killFresh || !x.kill, opd := x.opd.take 1 }) rfl h ?_ ?_
    · unfold preempt
      rw [hu, hrun]
      dsimp only
      rw [if_pos (by simp [w, x] at hin hkill hres hprio hprot ⊢; exact ⟨⟨⟨⟨hin, hkill⟩, hres⟩, hprio⟩, hprot⟩)]
      rfl
    · rw [show (s.core.work.port p).kill = false from hkill, Bool.not_false, Bool.or_true]
  · obtain ⟨hports, hgone, hcmds, hunpaid⟩ := endKilled_drops (e := s.core) (t := t) hnot cycles (w.updPort p Port.sampled)
    obtain ⟨hop, hp⟩ := killAckOp_ends (e := s.core) (cycles := cycles) hrun hkill hwhy hdue hdone hfault hover hports
    refine does_of rfl h ?_
    rw [hop]
    generalize endKilled _ _ _ _ _ = v at *
    rw [hp]
    exact ⟨hgone, rfl, rfl, rfl, hcmds, hunpaid⟩
  · obtain ⟨hports, hstaged, hmarks, hused⟩ := endKilled_restages (e := s.core) (w := w.updPort p Port.sampled) (u := u) (cycles := cycles)
      hmem hc hkeeps
    obtain ⟨hop, hp⟩ := killAckOp_ends (e := s.core) (cycles := cycles) hrun hkill hwhy hdue hdone hfault hover hports
    refine does_of rfl h ?_
    rw [hop]
    generalize endKilled _ _ _ _ _ = v at *
    rw [hp]
    exact ⟨hstaged, hmarks, hused, rfl⟩
  · exact defers_of rfl h (if_pos hkill)
  · exact leaves_of rfl h (if_neg (by rw [show (s.core.work.port p).kill = false from hkill]; decide))
  · refine ⟨_, ?_, rfl⟩
    obtain ⟨dcmd, hop⟩ := killHung_ends (e := s.core) hrun hkill
    rw [show killHung s.core p s.core.work = _ from hop]
    obtain ⟨hstate, -, hhung, -, hgone, k, hk⟩ := endInFault_ends (e := s.core) (p := p) (t := t) (w := countHang p w) (st := St.engineHung)
      hc hs hend hfenced htear hkilled (by decide) (by decide) dcmd (sinceStart s.core t)
    refine ⟨hstate, ?_, hgone, k, hk⟩
    rw [hhung, countHang, port_updPort]
  · refine does_of rfl h ?_
    have hop : overrunHalf p s.core.work = (updTile t (fun x => { x with grace := true }) w).updPort p fun x => { x with
        overrun := true, overruns := x.overruns + 1 } := by
      unfold overrunHalf
      rw [hrun]
      dsimp only
      rw [hgrace, show (s.core.work.port p).done = none from hdone, if_neg (by decide)]
    rw [hop]
    refine ⟨rfl, ?_, fun q hq => ?_, rfl⟩
    · rw [port_updPort]
      rfl
    · rw [port_updPort_other _ _ _ _ hq]
      rfl
  · refine does_of rfl h ?_
    have hop : overrunKill p s.core.work = (killPort p .overrun w).updPort p fun x => { x with overKill := true } := by
      unfold overrunKill
      rw [hrun]
      dsimp only
      rw [hgrace, show (s.core.work.port p).kill = false from hkill, if_neg (by decide)]
    rw [hop, killPort]
    refine ⟨?_, fun q hq => ?_, updPort_onlyPorts (updPort_onlyPorts rfl p _) p _⟩
    · rw [port_updPort, port_updPort, show (w.port p).kill = false from hkill, Bool.not_false, Bool.or_true]
    · rw [port_updPort_other _ _ _ _ hq, port_updPort_other _ _ _ _ hq]
  · intro w'
    have hw' : w' = overrunFault s.core p t (w.updPort p Port.sampled) := endPort_overruns hrun hover hdone hfault
    rw [hw', overrunFault]
    generalize hv : (countFault p (w.updPort p Port.sampled)).updPort p _ = v
    have hcmds : v.cmds = w.cmds := by rw [← hv, Work.updPort_cmds, countFault, Work.updPort_cmds, Work.updPort_cmds]
    have hslices : v.slices = w.slices := by rw [← hv, Work.updPort_slices, countFault, Work.updPort_slices, Work.updPort_slices]
    have hcap : v.cap = w.cap := by rw [← hv, Work.updPort_cap, countFault, Work.updPort_cap, Work.updPort_cap]
    have hvp : v.port p = { x.sampled with faults := satInc x.faults, due := some (1, St.tileOverrun, none, 0) } := by
      rw [← hv, port_updPort, countFault, port_updPort, port_updPort]
    obtain ⟨hstops⟩ := faultWith_tearsDown (covered := none) (port := some p) (m := 0) (e := s.core) (st := St.tileOverrun) (w := v)
      ((cmd_congr hcmds _).trans hc) hs hend (by rw [slice_congr hslices]; exact hfenced) (by rw [tearing, hcap]; exact htear)
      (by rw [Work.ctx, slice_congr hslices]; exact hkilled) (by decide) (fun b hb => nomatch hb)
    generalize faultWith _ _ _ _ _ _ v = y at hstops ⊢
    have hports : ∀ {α : Type} {g : Port → α} (_ : ∀ x k y f o, g { x with kill := k, killWhy := y, killFresh := f, opd := o } = g x),
        g (y.port p) = g (v.port p) := fun hg => hstops.port p hg
    have hteardowns := hstops.teardowns
    rw [show _ = v.cap.teardowns ++ _ from rfl, hcap] at hteardowns
    refine ⟨hstops.kills p ?_, ?_, ?_, _, hteardowns⟩
    · show (v.port p).kill = true
      rw [hvp]
      exact hkill
    · rw [hports (g := Port.faults) fun _ _ _ _ _ => rfl, hvp]
    · rw [hports (g := Port.due) fun _ _ _ _ _ => rfl, hvp]
      rfl
  · exact does_of rfl h rfl
  · refine does_of rfl h ?_
    rw [kilnError_running hn hstate hport hc hmarks hwhy]
    refine ⟨?_, ?_, rfl, rfl, ?_⟩
    · rw [killPort, port_updPort]
    · rw [killPort, port_updPort]
    · show ((Work.updCmd w t.cmd _).cmd t.cmd).map _ = _
      rw [cmd_updCmd w t.cmd _ (by intros; rfl), hc]
      rw [Option.map_some, Option.map_some, tblGet_tblUpd_same, hmarks]

end

end Sys2Proof.Machine

end

-- Proofs about the ladder of a port, the engine domain and the Planer (R573 to R578).
section

namespace Sys2Proof.Machine

/-! ### The ladder of a port, the engine domain and the Planer (R573 to R578) -/

section

variable {w v w' : Work} {e : Block} {p : Nat}

/-! #### A port returns or is retired (R572, R573, R576) -/

theorem endReset_frame (id : Option Nat) (ok : Bool) (w : Work) : { endReset id ok w with cmds := w.cmds } = w := by
  cases id <;> rfl

theorem endReset_other (ok : Bool) (w : Work) {d : Option Nat} {id : Nat} (h : d ≠ some id) : (endReset d ok w).cmd id = w.cmd id := by
  cases d with
  | none => rfl
  | some j => exact cmd_updCmd_other w j id (Cmd.endWith _) (fun _ => rfl) fun hj => h (congrArg some hj.symm)

/-- A DOMAIN_RESET that has not ended ends with the status of its reset. -/
theorem endReset_ends (ok : Bool) {c : Cmd} (hc : w.cmd c.id = some c) (hend : c.endStatus = none) :
    ((endReset (some c.id) ok w).cmd c.id).bind Cmd.endStatus = some (if ok then St.ok else St.resetDomain) := by
  rw [endReset, endCmd, cmd_updCmd w c.id (Cmd.endWith _) (fun _ => rfl), hc, Option.map_some, Option.bind_some, Cmd.endWith, hend,
    Option.getD_none]

/-- A port whose reset is over. -/
abbrev Port.returned (x : Port) (st : PortSt) : Port := { x with state := st, ladder := none, srst := false, kill := false }

theorem endLadder_frame (p : Nat) (st : PortSt) (w : Work) :
    { endLadder p st w with ports := w.ports, cmds := w.cmds, fab := w.fab } = w := by
  unfold endLadder
  extract_lets l v u
  have hu : { u with ports := w.ports, cmds := w.cmds } = w := by
    unfold u
    cases l with
    | none => rfl
    | some l =>
      have hf := endReset_frame l.cmd (decide (l.rung ≤ l.named)) v
      exact (congrArg (fun x : Work => { x with ports := w.ports, cmds := w.cmds }) hf :)
  clear_value u
  have hraise : ∀ y : Work, y = u.raise (vecAdmin 4) ∨ y = u → { y with ports := w.ports, cmds := w.cmds, fab := w.fab } = w := by
    rintro y (rfl | rfl) <;> exact (congrArg (fun x : Work => { x with fab := w.fab }) hu :)
  exact hraise _ (ite_eq_or_eq _ _ _)

theorem endLadder_sw (p : Nat) (st : PortSt) (w : Work) : (endLadder p st w).sw = w.sw := (congrArg Work.sw (endLadder_frame p st w) :)

theorem endLadder_pln (p : Nat) (st : PortSt) (w : Work) : (endLadder p st w).pln = w.pln := (congrArg Work.pln (endLadder_frame p st w) :)

theorem endLadder_ports (p : Nat) (st : PortSt) (w : Work) : (endLadder p st w).ports = (w.updPort p fun x => x.returned st).ports := by
  unfold endLadder
  extract_lets l v u
  have hu : u.ports = v.ports := by
    unfold u
    cases l with
    | none => rfl
    | some l => exact (congrArg Work.ports (endReset_frame l.cmd _ v) :)
  clear_value u
  split <;> exact hu

theorem endLadder_port (p : Nat) (st : PortSt) (w : Work) : (endLadder p st w).port p = (w.port p).returned st := by
  rw [port_congr (endLadder_ports p st w), port_updPort]

theorem endLadder_other (p : Nat) (st : PortSt) (w : Work) {q : Nat} (h : q ≠ p) : (endLadder p st w).port q = w.port q := by
  rw [port_congr (endLadder_ports p st w), port_updPort_other _ _ _ _ h]

theorem endLadder_cmds (p : Nat) (st : PortSt) (w : Work) {l : Ladder} (hl : (w.port p).ladder = some l) :
    (endLadder p st w).cmds = (endReset l.cmd (decide (l.rung ≤ l.named)) (w.updPort p fun x => x.returned st)).cmds := by
  unfold endLadder
  rw [hl]
  dsimp only
  rw [Option.isSome_some, Bool.true_or, if_pos rfl]
  rfl

/-- A port that is retired: the tiles bound to it have left. -/
theorem failExec_keeps (id : Nat) (st : Status) (w : Work) :
    (failExec id st w).ports = w.ports ∧ (failExec id st w).sw = w.sw ∧ (∀ t ∈ (failExec id st w).tiles, t ∈ w.tiles) := by
  unfold failExec
  cases w.cmd id with
  | none => exact ⟨rfl, rfl, fun _ h => h⟩
  | some c =>
    dsimp only
    split
    · exact ⟨rfl, rfl, fun _ h => h⟩
    · have hun := unstageCmd_unbinds id w
      generalize unstageCmd id w = v at hun ⊢
      exact ⟨hun.ports, hun.sw, fun t ht => hun.tiles t (List.mem_filter.1 ht).1⟩

/-- What a port's retirement does: the port leaves service, and tiles that have not started leave it. -/
theorem retirePort_retires (p : Nat) (w : Work) :
    let w' := retirePort p w
    w'.port p = (w.port p).returned .retired ∧ (∀ q, q ≠ p → w'.port q = w.port q) ∧ w'.sw = w.sw ∧
    (∀ y ∈ w'.tiles, y ∈ (unbindPort p w).tiles) := by
  unfold retirePort
  intro w'
  have hun := unbindPort_unbinds p w
  have hframe := endLadder_frame p .retired (unbindPort p w)
  have hport := endLadder_port p .retired (unbindPort p w)
  have hother := @endLadder_other p .retired (unbindPort p w)
  have hw' : w' = if matrixLeft (endLadder p .retired (unbindPort p w)) then endLadder p .retired (unbindPort p w) else
    ((endLadder p .retired (unbindPort p w)).cmds.filter fun c =>
      c.op == some .exec && c.endStatus.isNone && (c.phase == .released || c.phase == .running)).foldl
        (fun w c => failExec c.id St.resetDomain w) (endLadder p .retired (unbindPort p w)) := rfl
  clear_value w'
  generalize endLadder p .retired (unbindPort p w) = v at hframe hport hother hw'
  have hv : w'.ports = v.ports ∧ w'.sw = v.sw ∧ ∀ t ∈ w'.tiles, t ∈ v.tiles := by
    rw [hw']
    split
    · exact ⟨rfl, rfl, fun _ h => h⟩
    · refine List.foldlRecOn (motive := fun x : Work => x.ports = v.ports ∧ x.sw = v.sw ∧ ∀ t ∈ x.tiles, t ∈ v.tiles) _ _
        ⟨rfl, rfl, fun _ h => h⟩ fun x hx c _ => ?_
      obtain ⟨hp, hs, ht⟩ := failExec_keeps c.id St.resetDomain x
      obtain ⟨hxp, hxs, hxt⟩ := hx
      exact ⟨hp.trans hxp, hs.trans hxs, fun t h => hxt t (ht t h)⟩
  obtain ⟨hports, hsw, htiles⟩ := hv
  refine ⟨?_, fun q hq => ?_, ?_, fun y hy => ?_⟩
  · rw [port_congr hports, hport, port_congr hun.ports]
  · rw [port_congr hports, hother hq, port_congr hun.ports]
  · exact (hsw.trans (congrArg Work.sw hframe :)).trans hun.sw
  · have := htiles y hy
    rwa [show v.tiles = (unbindPort p w).tiles from (congrArg Work.tiles hframe :)] at this

theorem checkDomain_out (h : w.pln.engineDomain = false) : checkDomain w = w := by
  rw [checkDomain, h]
  rfl

theorem matrixLeft_congr (h : ∀ q, (v.port q).present = (w.port q).present ∧ (v.port q).state = (w.port q).state) :
    matrixLeft v = matrixLeft w := by
  unfold matrixLeft
  congr 1
  funext q
  rw [(h q).1, (h q).2]

/-! #### The engine domain enters reset (R577) -/

theorem beginEngineDomain_begins (w : Work) :
    let w' := beginEngineDomain w
    w'.pln = { w.pln with engineDomain := true, inReset := true } ∧ w'.cmds = w.cmds ∧
    (∀ q, 3 ≤ rungOf w q → w'.port q = w.port q) ∧ w'.jnr = w.jnr := by
  intro w'
  have hw' : w' = beginEngineDomain w := rfl
  clear_value w'
  unfold beginEngineDomain at hw'
  generalize hv : Work.updSwitch _ Domain.pln _ = v at hw'
  have hports : v.ports = w.ports := by rw [← hv]; rfl
  rw [hw']
  refine ⟨?_, ?_, fun q hq => ?_, (foldl_keeps Work.jnr (by intros; rfl) _ v).trans (hv ▸ rfl)⟩
  · exact (foldl_keeps Work.pln (by intros; rfl) _ v).trans (hv ▸ rfl)
  · exact (foldl_keeps Work.cmds (by intros; rfl) _ v).trans (hv ▸ rfl)
  · refine List.foldlRecOn (motive := fun x : Work => x.port q = w.port q) _ _ (port_congr hports q) fun x hx r hr => ?_
    have hr' := (List.mem_filter.1 hr).2
    have hne : q ≠ r := by
      rintro rfl
      rw [Bool.and_eq_true, decide_eq_true_iff] at hr'
      have hrung : rungOf v q = rungOf w q := by rw [rungOf, port_congr hports, rungOf]
      omega
    rw [port_updPort_other _ _ _ _ hne]
    exact hx

theorem startDomain_starts (st : Status) (id covered : Option Nat) (b : Bool) (h : w.pln.engineDomain = false) :
    let w' := startDomain e st id covered b w
    w'.pln = { w.pln with engineDomain := true, inReset := true, engCmd := id } ∧ w'.cmds = w.cmds ∧
    (∀ q, 3 ≤ rungOf w q → w'.port q = w.port q) ∧ w'.jnr = w.jnr := by
  unfold startDomain
  rw [h, if_neg (by decide)]
  intro w'
  have hcap : ∃ x, Captures w x ∧ w' = { beginEngineDomain (recordReset 6 0 st x) with
      pln := { (beginEngineDomain (recordReset 6 0 st x)).pln with engCmd := id } } := by
    cases covered with
    | some q => exact ⟨_, captureAdd_captures q w, rfl⟩
    | none =>
      cases b with
      | true => exact ⟨w, ⟨w.cap, w.fresh, rfl, rfl, rfl⟩, rfl⟩
      | false => exact ⟨_, captureEvent_captures e _ w, rfl⟩
  obtain ⟨x, ⟨k, n, hx, -⟩, hw'⟩ := hcap
  obtain ⟨hpln, hcmds, hports, hjnr⟩ := beginEngineDomain_begins (recordReset 6 0 st x)
  clear_value w'
  generalize beginEngineDomain (recordReset 6 0 st x) = y at *
  subst hx hw'
  refine ⟨?_, hcmds, fun q hq => hports q hq, hjnr⟩
  show { y.pln with engCmd := id } = _
  rw [hpln]
  rfl

/-! #### Tiles taken off ports and lanes (R577, R578) -/

/-- Tiles have been taken off ports and lanes for their replay: ports, switches and the Planer's resets stay, and the commands
change only in when tiles returned to ready and in what is not paid for. -/
structure Replays (w w' : Work) : Prop where
  ports : w'.ports = w.ports
  sw : w'.sw = w.sw
  cap : w'.cap = w.cap
  jnr : w'.jnr = w.jnr
  resets : w'.pln.inReset = w.pln.inReset ∧ w'.pln.engineDomain = w.pln.engineDomain ∧ w'.pln.plnCmd = w.pln.plnCmd
  cmds : w'.cmds.map (fun c => { c with readyAt := [], unpaid := [] }) = w.cmds.map fun c => { c with readyAt := [], unpaid := [] }

theorem Replays.refl (w : Work) : Replays w w := ⟨rfl, rfl, rfl, rfl, ⟨rfl, rfl, rfl⟩, rfl⟩

theorem Replays.trans (h : Replays w v) (g : Replays v w') : Replays w w' where
  ports := g.ports.trans h.ports
  sw := g.sw.trans h.sw
  cap := g.cap.trans h.cap
  jnr := g.jnr.trans h.jnr
  resets := by
    obtain ⟨h₁, h₂, h₃⟩ := h.resets
    obtain ⟨g₁, g₂, g₃⟩ := g.resets
    exact ⟨g₁.trans h₁, g₂.trans h₂, g₃.trans h₃⟩
  cmds := g.cmds.trans h.cmds

theorem Replays.foldl {α : Type} {f : Work → α → Work} (hf : ∀ v x, Replays v (f v x)) (l : List α) (w : Work) : Replays w (l.foldl f w) :=
  List.foldlRecOn (motive := Replays w) l f (.refl w) fun v h x _ => h.trans (hf v x)

theorem Unbinds.replays (h : Unbinds w w') : Replays w w' where
  ports := h.ports
  sw := h.sw
  cap := h.cap
  jnr := h.jnr
  resets := ⟨(congrArg Planer.inReset h.pln :), (congrArg Planer.engineDomain h.pln :), (congrArg Planer.plnCmd h.pln :)⟩
  cmds := by
    have hc := congrArg (List.map fun c : Cmd => { c with unpaid := [] }) h.cmds
    rwa [List.map_map, List.map_map] at hc

theorem Charges.replays (h : Charges w w') : Replays w w' where
  ports := h.ports
  sw := h.sw
  cap := h.cap
  jnr := h.jnr
  resets := by
    rw [h.pln]
    exact ⟨rfl, rfl, rfl⟩
  cmds := by rw [h.cmds]

theorem unpay_replays (t : Tile) (w : Work) : Replays w (unpay t w) := by
  have hf := unpay_keeps t w
  have hc : (unpay t w).cmds = (w.updCmd t.cmd fun c => { c with
      unpaid := if c.unpaid.contains t.index then c.unpaid else c.unpaid ++ [t.index] }).cmds := by
    unfold unpay
    cases payer w t <;> rfl
  generalize unpay t w = v at hf hc ⊢
  have hpln : v.pln = w.pln := (congrArg Work.pln hf :)
  refine ⟨(congrArg Work.ports hf :), (congrArg Work.sw hf :), (congrArg Work.cap hf :), (congrArg Work.jnr hf :), ?_, ?_⟩
  · rw [hpln]
    exact ⟨rfl, rfl, rfl⟩
  · rw [hc]
    show (w.cmds.map _).map _ = _
    rw [List.map_map]
    refine List.map_congr_left fun c _ => ?_
    show { (if c.id = t.cmd then _ else c) with readyAt := [], unpaid := [] } = _
    split <;> rfl

theorem abandonCommit_replays (t : Tile) (w : Work) : Replays w (abandonCommit t w) := by
  unfold abandonCommit
  extract_lets _ v
  have hv : Replays w v := ⟨rfl, rfl, rfl, rfl, ⟨rfl, rfl, rfl⟩, rfl⟩
  clear_value v
  split
  next x _ =>
    have hset : Replays v (setCommit (deadenCommit x.1 v) x.1 none) := ⟨rfl, rfl, rfl, rfl, ⟨rfl, rfl, rfl⟩, rfl⟩
    exact (hv.trans hset).trans (dropTile_unbinds t.cmd t.index _).replays
  next => exact hv.trans (dropTile_unbinds t.cmd t.index _).replays

theorem abandonCommit_tiles (t : Tile) (w : Work) : (abandonCommit t w).tiles = w.tiles.filter fun x => !sameTile x t.cmd t.index := by
  unfold abandonCommit
  extract_lets _ v
  split <;> exact dropTile_tiles t.cmd t.index _

theorem unpay_tiles (t : Tile) (w : Work) : (unpay t w).tiles = w.tiles := (congrArg Work.tiles (unpay_keeps t w) :)

theorem deadenLanes_replays (w : Work) : Replays w (deadenLanes w) := ⟨rfl, rfl, rfl, rfl, ⟨rfl, rfl, rfl⟩, rfl⟩

/-- Whether the last write of a tile's commit has been answered. -/
def commitDone (w : Work) (t : Tile) : Bool := w.pln.commits.any fun p => match p.2 with
  | some j => j.cmd == t.cmd && j.tile == t.index && j.done
  | none => false

/-- A tile returns for its replay. -/
def returnTile (e : Block) (w : Work) (t : Tile) : Work :=
  match t.state with
  | .running => unpay t (dropTile t.cmd t.index (chargeTile e t (sinceStart e t) none w))
  | .committing => abandonCommit t (unpay t w)
  | _ => discardUnits t.cmd t.index (dropTile t.cmd t.index w)

theorem returnTile_replays (e : Block) (w : Work) (t : Tile) : Replays w (returnTile e w t) := by
  unfold returnTile
  have hoff := (takeOff_unbinds w t).replays
  cases t.state with
  | running =>
    exact ((chargeTile_charges e t (sinceStart e t) none w).replays.trans (dropTile_unbinds t.cmd t.index _).replays).trans
      (unpay_replays t _)
  | committing => exact (unpay_replays t w).trans (abandonCommit_replays t _)
  | staging => exact hoff
  | staged => exact hoff
  | offered => exact hoff

theorem returnTile_tiles (e : Block) (w : Work) (t : Tile) :
    (returnTile e w t).tiles = w.tiles.filter fun x => !sameTile x t.cmd t.index := by
  unfold returnTile
  have hoff : (takeOff w t).tiles = _ := dropTile_tiles t.cmd t.index w
  cases t.state with
  | running =>
    dsimp only
    rw [unpay_tiles, dropTile_tiles, (chargeTile_charges e t (sinceStart e t) none w).tiles]
  | committing =>
    dsimp only
    rw [abandonCommit_tiles, unpay_tiles]
  | staging => exact hoff
  | staged => exact hoff
  | offered => exact hoff

theorem returnTiles_eq (e : Block) (w : Work) : returnTiles e w = (w.tiles.filter fun t => !commitDone w t).foldl (returnTile e) w := rfl

theorem returnTiles_replays (e : Block) (w : Work) : Replays w (returnTiles e w) := by
  rw [returnTiles_eq]
  exact .foldl (returnTile_replays e) _ w

/-- Only tiles whose commits are written stay. -/
theorem returnTiles_done {t : Tile} (h : t ∈ (returnTiles e w).tiles) :
    ∃ l j, (l, some j) ∈ w.pln.commits ∧ j.cmd = t.cmd ∧ j.tile = t.index ∧ j.done = true := by
  rw [returnTiles_eq, mem_foldl_drop (returnTile_tiles e)] at h
  obtain ⟨hmem, hnot⟩ := h
  have hdone : commitDone w t = true := by
    cases hd : commitDone w t with
    | true => rfl
    | false =>
      have := hnot t (List.mem_filter.2 ⟨hmem, by rw [hd]; rfl⟩)
      rw [sameTile_self] at this
      exact nomatch this
  obtain ⟨⟨l, o⟩, hl, ho⟩ := List.any_eq_true.1 hdone
  cases o with
  | none => exact nomatch ho
  | some j =>
    simp only [Bool.and_eq_true, beq_iff_eq] at ho
    exact ⟨l, j, hl, ho.1.1, ho.1.2, ho.2⟩

/-! #### The engine domain reset runs (R577) -/

/-- A change of ports one after another, the same for each of them, reaches the ports listed. -/
theorem port_foldl {g : Work → Nat → Work} {f : Port → Port} (hg : ∀ w p, (g w p).port p = f (w.port p))
    (ho : ∀ w p q, q ≠ p → (g w p).port q = w.port q) (hf : ∀ x, f (f x) = f x) (l : List Nat) (w : Work) (q : Nat) :
    (l.foldl g w).port q = if q ∈ l then f (w.port q) else w.port q := by
  induction l generalizing w with
  | nil => rfl
  | cons p l ih =>
    rw [List.foldl_cons, ih]
    by_cases hq : q = p
    · subst hq
      rw [hg, hf, ite_self, if_pos List.mem_cons_self]
    · rw [ho w p q hq]
      exact if_congr (by rw [List.mem_cons, or_iff_right hq]) rfl rfl

theorem resetDomainPorts_congr (h : v.ports = w.ports) : resetDomainPorts v = resetDomainPorts w := by
  unfold resetDomainPorts rungOf
  congr 1
  funext q
  rw [port_congr h]

theorem runDomain_runs (hdom : w.pln.engineDomain = true) (hres : w.pln.inReset = true) (hhard :
    ∃ p, p < 16 ∧ (w.port p).state = .hardReset) :
    let w' := runDomain e w
    (∀ p ∈ resetDomainPorts w, w'.port p = { w.port p with hrstN := true }) ∧
    (∀ p, p ∉ resetDomainPorts w → w'.port p = w.port p) ∧
    w'.pln.inReset = false ∧ w'.pln.engineDomain = true ∧ w'.pln.lanes = [] ∧ (w'.switch .pln).iso = false ∧
    w'.tiles = (returnTiles e w).tiles := by
  intro w'
  have hw' : w' = runDomain e w := rfl
  clear_value w'
  unfold runDomain at hw'
  rw [hdom, hres, if_neg (by decide)] at hw'
  extract_lets w₁ w₂ at hw'
  have hrep : Replays w w₁ := (returnTiles_replays e w).trans (deadenLanes_replays _)
  have hlanes : w₁.pln.lanes = [] := rfl
  have htiles₁ : w₁.tiles = (returnTiles e w).tiles := rfl
  have hw₂ : w₂ = (resetDomainPorts w).foldl (fun w p => (w.updPort p fun x => { x with hrstN := true }).emit (.hardReset p)) w₁ := by
    rw [← resetDomainPorts_congr hrep.ports]
  clear_value w₂ w₁
  have hport₂ : ∀ q, w₂.port q = if q ∈ resetDomainPorts w then { w.port q with hrstN := true } else w.port q := fun q => by
    rw [hw₂, port_foldl (f := fun x => { x with hrstN := true }) (fun w p => by rw [emit_port, port_updPort])
      (fun w p q hq => by rw [emit_port, port_updPort_other _ _ _ _ hq]) (fun _ => rfl), port_congr hrep.ports]
  have hpln₂ : w₂.pln = w₁.pln := by
    rw [hw₂]
    exact foldl_keeps Work.pln (by intros; rfl) _ w₁
  have htiles₂ : w₂.tiles = w₁.tiles := by
    rw [hw₂]
    exact foldl_keeps Work.tiles (by intros; rfl) _ w₁
  obtain ⟨-, hdom₁, -⟩ := hrep.resets
  generalize hu : Work.updSwitch _ Domain.pln _ = u at hw'
  have hports : u.ports = w₂.ports := by rw [← hu]; rfl
  have hout : checkDomain u = u := by
    obtain ⟨q, hq, hst⟩ := hhard
    have hmem : q ∈ domainPorts u := by
      refine List.mem_filter.2 ⟨List.mem_range.2 hq, beq_iff_eq.2 ?_⟩
      rw [port_congr hports, hport₂]
      split <;> exact hst
    unfold checkDomain
    rw [if_neg]
    rw [Bool.and_eq_true, List.isEmpty_iff]
    rintro ⟨-, h⟩
    rw [h] at hmem
    exact nomatch hmem
  rw [hw', hout]
  refine ⟨fun q hq => ?_, fun q hq => ?_, ?_, ?_, ?_, ?_, ?_⟩
  · rw [port_congr hports, hport₂, if_pos hq]
  · rw [port_congr hports, hport₂, if_neg hq]
  · rw [← hu]
    rfl
  · rw [← hu]
    show w₂.pln.engineDomain = true
    rw [hpln₂, hdom₁, hdom]
  · rw [← hu]
    show w₂.pln.lanes = []
    rw [hpln₂, hlanes]
  · rw [← hu, switch_updSwitch]
  · rw [← hu]
    exact htiles₂.trans htiles₁

/-! #### The Planer enters reset (R578) -/

theorem loseStaged_replays (w : Work) : Replays w (loseStaged w) := by
  have h : Replays w ((w.tiles.filter fun t => t.state == .staging || t.state == .staged).foldl takeOff w) :=
    (Unbinds.foldl takeOff_unbinds _ w).replays
  exact ⟨h.ports, h.sw, h.cap, h.jnr, h.resets, h.cmds⟩

/-- A running tile is killed for the Planer's reset, but where another kill, which does not replay, is under way. -/
def resetKill (w : Work) (t : Tile) : Work :=
  let w := w.updPort t.port fun x => { x with done := none }
  match (w.port t.port).killWhy with
  | none => killPort t.port .planerReset w
  | some (.preempt _) => killPort t.port .planerReset w
  | some _ => w

/-- A port without a reason for a kill, or with a kill. -/
abbrev Port.kept (x : Port) : Prop := x.killWhy = none ∨ x.kill = true

theorem resetKill_port (w : Work) (t : Tile) (h : (w.port t.port).kept) : ((resetKill w t).port t.port).kill = true := by
  unfold resetKill
  dsimp only
  have hport : (w.updPort t.port fun x => { x with done := none }).port t.port = { w.port t.port with done := none } := port_updPort _ _ _
  split
  · rw [killPort, port_updPort]
  · rw [killPort, port_updPort]
  next y hy =>
    rw [hport] at hy ⊢
    exact h.resolve_left fun hno => nomatch hno.symm.trans hy

theorem resetKill_frame (w : Work) (t : Tile) : { resetKill w t with ports := w.ports } = w := by
  unfold resetKill
  dsimp only
  split <;> rfl

theorem resetKill_other (w : Work) (t : Tile) {q : Nat} (h : q ≠ t.port) : (resetKill w t).port q = w.port q := by
  unfold resetKill
  dsimp only
  split
  · rw [killPort, port_updPort_other _ _ _ _ h, port_updPort_other _ _ _ _ h]
  · rw [killPort, port_updPort_other _ _ _ _ h, port_updPort_other _ _ _ _ h]
  · rw [port_updPort_other _ _ _ _ h]

/-- Every port on which a tile runs has its kill, where no other kill was under way. -/
theorem foldl_resetKill (ts : List Tile) (w : Work) {q : Nat} (h : (w.port q).kept) :
    ((ts.foldl resetKill w).port q).kept ∧ ((w.port q).kill = true ∨ (∃ t ∈ ts, t.port = q) →
        ((ts.foldl resetKill w).port q).kill = true) := by
  induction ts generalizing w with
  | nil => exact ⟨h, fun hk => hk.resolve_right fun ⟨_, ht, _⟩ => nomatch ht⟩
  | cons t ts ih =>
    rw [List.foldl_cons]
    by_cases hq : t.port = q
    · subst hq
      have hk := resetKill_port w t h
      obtain ⟨hkept, hkill⟩ := ih _ (.inr hk)
      exact ⟨hkept, fun _ => hkill (.inl hk)⟩
    · have hp := resetKill_other w t (Ne.symm hq)
      rw [← hp] at h
      obtain ⟨hkept, hkill⟩ := ih _ h
      refine ⟨hkept, fun hk => hkill ?_⟩
      rw [hp]
      refine hk.imp_right ?_
      rintro ⟨u, hu, huq⟩
      rcases List.mem_cons.1 hu with rfl | hu
      · exact absurd huq hq
      · exact ⟨u, hu, huq⟩

theorem startPlaner_starts (st : Status) (id : Option Nat) (b : Bool) (hres : w.pln.inReset = false) (hdom : w.pln.engineDomain = false) :
    let w' := startPlaner e st id b w
    w'.pln.inReset = true ∧ w'.pln.plnCmd = id ∧ w'.pln.lanes = [] ∧ w'.cap.lastDomain = 2 ∧ (w'.switch .pln).iso = true ∧
    (∀ t ∈ w.tiles, t.state = .running → (w.port t.port).killWhy = none → (w'.port t.port).kill = true) ∧
    w'.cmds.map (fun c => { c with readyAt := [], unpaid := [] }) = w.cmds.map (fun c => { c with readyAt := [], unpaid := [] }) ∧
    w'.jnr = w.jnr := by
  intro w'
  have hw' : w' = startPlaner e st id b w := rfl
  clear_value w'
  unfold startPlaner at hw'
  rw [hres, hdom, if_neg (by decide)] at hw'
  extract_lets w₁ q w₂ y w₃ w₄ done w₅ at hw'
  have h₁ : ∃ k n, w₁ = { w with cap := k, fresh := n } := by
    unfold w₁
    split
    · exact ⟨w.cap, w.fresh, rfl⟩
    · obtain ⟨k, n, hk, -⟩ := captureEvent_captures e { trigger := st, domain := 2, concern := .allPorts } w
      exact ⟨k, n, hk⟩
  obtain ⟨k, n, h₁⟩ := h₁
  have hports₃ : w₃.ports = w.ports := by
    show w₁.ports = w.ports
    rw [h₁]
  have htiles₃ : w₃.tiles = w.tiles := by
    show w₁.tiles = w.tiles
    rw [h₁]
  have hcmds₃ : w₃.cmds = w.cmds := by
    show w₁.cmds = w.cmds
    rw [h₁]
  have hjnr₃ : w₃.jnr = w.jnr := by
    show w₁.jnr = w.jnr
    rw [h₁]
  have hpln₃ : w₃.pln.inReset = true ∧ w₃.pln.plnCmd = id := ⟨rfl, rfl⟩
  have hsw₃ : (w₃.switch .pln).iso = true := congrArg Switch.iso (switch_updSwitch _ .pln _)
  have hcap₃ : w₃.cap.lastDomain = 2 := rfl
  have hw₄ : w₄ = (w₃.tiles.filter fun t => t.state == .running).foldl resetKill w₃ := rfl
  have hrep : Replays w₄ w' := by
    rw [hw']
    exact (((Replays.foldl (f := fun w t => abandonCommit t (unpay t w)) (fun v t => (unpay_replays t v).trans
        (abandonCommit_replays t _)) _
      w₄).trans (loseStaged_replays _)).trans (deadenLanes_replays _))
  have hlanes : w'.pln.lanes = [] := by rw [hw']; rfl
  clear_value w₅ w₄ w₃ y w₂ q done w₁
  have hframe₄ : { w₄ with ports := w₃.ports } = w₃ := by
    rw [hw₄]
    refine List.foldlRecOn (motive := fun x : Work => { x with ports := w₃.ports } = w₃) _ resetKill rfl fun x hx t _ => ?_
    have hf := resetKill_frame x t
    generalize resetKill x t = y at hf ⊢
    rw [← hx]
    exact (congrArg (fun x : Work => { x with ports := w₃.ports }) hf :)
  have hpln₄ : w₄.pln = w₃.pln := (congrArg Work.pln hframe₄ :)
  obtain ⟨hres', -, hcmd'⟩ := hrep.resets
  refine ⟨?_, ?_, hlanes, ?_, ?_, fun t ht hst hwhy => ?_, ?_, ?_⟩
  · rw [hres', hpln₄, hpln₃.1]
  · rw [hcmd', hpln₄, hpln₃.2]
  · rw [hrep.cap, show w₄.cap = w₃.cap from (congrArg Work.cap hframe₄ :), hcap₃]
  · rw [switch_congr hrep.sw, switch_congr (show w₄.sw = w₃.sw from (congrArg Work.sw hframe₄ :)), hsw₃]
  · rw [port_congr hrep.ports, hw₄]
    refine (foldl_resetKill _ w₃ (.inl ?_)).2 (.inr ⟨t, List.mem_filter.2 ⟨by rwa [htiles₃], by rw [hst]; rfl⟩, rfl⟩)
    rw [port_congr hports₃, hwhy]
  · rw [hrep.cmds, show w₄.cmds = w₃.cmds from (congrArg Work.cmds hframe₄ :), hcmds₃]
  · rw [hrep.jnr, show w₄.jnr = w₃.jnr from (congrArg Work.jnr hframe₄ :), hjnr₃]

/-! #### Ports that are late (R573, R577) -/

/-- An engine that shows no ENGn_IDLE after the domain's reset is retired and switched off. -/
theorem foldl_retire (ps : List Nat) (w : Work) (p : Nat) :
    let w' := ps.foldl (fun w p => retirePort p (w.updSwitch (.eng p) fun x => { x with on := false })) w
    ((w.port p).state = .retired ∧ (w.switch (.eng p)).on = false) ∨ p ∈ ps → (w'.port p).state = .retired ∧
        (w'.switch (.eng p)).on = false := by
  induction ps generalizing w with
  | nil => exact fun h => h.resolve_right fun h => nomatch h
  | cons q ps ih =>
    intro w' h
    refine ih _ ?_
    obtain ⟨hport, hother, hsw, -⟩ := retirePort_retires q (w.updSwitch (.eng q) fun x => { x with on := false })
    by_cases hq : p = q
    · subst hq
      refine .inl ⟨by rw [hport], ?_⟩
      rw [switch_congr hsw, switch_updSwitch]
    · refine (h.imp (fun ⟨hst, hon⟩ => ⟨?_, ?_⟩) fun hp => (List.mem_cons.1 hp).resolve_left hq)
      · rw [hother p hq]
        exact hst
      · rw [switch_congr hsw, switch_updSwitch_other _ _ fun hd => hq (by injection hd)]
        exact hon

theorem checkDomain_ports (w : Work) : (checkDomain w).ports = w.ports ∧ (checkDomain w).sw = w.sw := by
  unfold checkDomain
  split
  · unfold endDomain
    extract_lets v
    have h₁ := endReset_frame w.pln.plnCmd false w
    have h₂ := endReset_frame w.pln.engCmd true (endReset w.pln.plnCmd false w)
    have hports : v.ports = w.ports := (congrArg Work.ports h₂ :).trans (congrArg Work.ports h₁ :)
    have hsw : v.sw = w.sw := (congrArg Work.sw h₂ :).trans (congrArg Work.sw h₁ :)
    exact ⟨hports, hsw⟩
  · exact ⟨rfl, rfl⟩

theorem domainLate_retires (hdom : w.pln.engineDomain = true) (hres : w.pln.inReset = false) (hrung : ∀ p, rungOf w p ≠ 4) {p : Nat}
    (hp : p < 16) (hst : (w.port p).state = .hardReset) :
    ((domainLate e w).port p).state = .retired ∧ ((domainLate e w).switch (.eng p)).on = false := by
  have hany : ((List.range 16).any fun p => rungOf w p == 4) = false := by
    rw [List.any_eq_false]
    exact fun q _ h => hrung q (beq_iff_eq.1 h)
  unfold domainLate
  rw [hdom, hres, hany, if_neg (by decide), if_neg (by decide)]
  obtain ⟨hports, hsw⟩ := checkDomain_ports
    ((domainPorts w).foldl (fun w p => retirePort p (w.updSwitch (.eng p) fun x => { x with on := false })) w)
  rw [port_congr hports, switch_congr hsw]
  exact foldl_retire _ w p (.inr (List.mem_filter.2 ⟨List.mem_range.2 hp, beq_iff_eq.2 hst⟩))

theorem updSwitch_port (w : Work) (d : Domain) (f : Switch → Switch) (q : Nat) : (w.updSwitch d f).port q = w.port q := rfl

/-- ENGn_IDLE is awaited of a port in hard reset, outside the domain's reset. -/
theorem engineIdleOp_returns (h : awaitsIdle w p = true) : engineIdleOp p w = portIdle p w := by
  have h' := h
  unfold awaitsIdle at h'
  simp only [Bool.and_eq_true, beq_iff_eq, Bool.not_eq_true'] at h'
  obtain ⟨⟨⟨hst, -⟩, hdom⟩, -⟩ := h'
  rw [engineIdleOp, hst, hdom, h]
  rfl

/-- With another matrix port left, a port's retirement ends no command. -/
theorem retirePort_left (h : matrixLeft (w.updPort p fun y => { y with state := .retired }) = true) :
    retirePort p w = endLadder p .retired (unbindPort p w) := by
  have hports := (unbindPort_unbinds p w).ports
  unfold retirePort
  dsimp only
  rw [if_pos]
  rw [← h]
  refine matrixLeft_congr fun q => ?_
  by_cases hq : q = p
  · subst hq
    rw [endLadder_port, port_updPort, port_congr hports]
    exact ⟨rfl, rfl⟩
  · rw [endLadder_other _ _ _ hq, port_updPort_other _ _ _ _ hq, port_congr hports]
    exact ⟨rfl, rfl⟩

/-- Settles O40: each row in the terms of its rung, of the engine domain's reset, or of the Planer's. -/
theorem portAndDomainResets : Obligations.PortAndDomainResets := by
  unfold Obligations.PortAndDomainResets
  refine ⟨fun s p h => ?_, fun s h => ?_⟩
  · intro w x
    refine ⟨fun hst => ?_, fun hst => ?_, fun hidle => ?_, fun hidle => ?_, fun hrung hleft hdom => ?_, fun hrung hdom => ?_⟩
    · refine does_of rfl h ?_
      rw [softAck, if_pos (beq_iff_eq.2 hst)]
      refine ⟨?_, fun q hq => ?_, fun l hl hno => ?_, fun l c hl hcmd hc hend => ?_⟩
      · rw [endLadder_port, port_updPort]
      · rw [endLadder_other _ _ _ hq, port_updPort_other _ _ _ _ hq]
      · rw [endLadder_cmds p .inService _ (l := l) (by rw [port_updPort]; exact hl), hno]
        rfl
      · rw [cmd_congr (endLadder_cmds p .inService _ (l := l) (by rw [port_updPort]; exact hl)), hcmd]
        generalize hu : Work.updPort (Work.updPort _ _ _) _ _ = u
        have hcu : u.cmd c.id = some c := by
          rw [← hu]
          exact hc
        rw [endReset_ends _ hcu hend]
        simp only [decide_eq_true_eq]
    · refine does_of rfl h ?_
      rw [softLate, if_pos (beq_iff_eq.2 hst)]
      obtain ⟨-, h₁, h₂, h₃, h₄, h₅, h₆, h₇, h₈, h₉, -⟩ := startRung_hard s.core p s.core.work
      exact ⟨h₁, h₂, h₃, h₄, h₅, h₆, h₇, h₈, h₉⟩
    · refine does_of rfl h ?_
      rw [engineIdleOp_returns hidle]
      refine ⟨?_, ?_, fun q hq => ?_⟩
      · rw [portIdle, endLadder_port, updSwitch_port, port_updPort]
      · rw [portIdle, switch_congr (endLadder_sw p .inService _), switch_updSwitch]
        rfl
      · rw [portIdle, endLadder_other _ _ _ hq, updSwitch_port, port_updPort_other _ _ _ _ hq]
    · refine does_of rfl h ?_
      rw [hardLate, if_pos hidle]
      obtain ⟨hr, hport, hswitch⟩ := startRung_retire s.core p (s.core.work.updPort p fun x => { x with
        ladder := some (x.ladder.getD { rung := 3, named := 0, status := St.engineHung, cmd := none }) })
      generalize startRung _ _ _ _ = v at hr hport hswitch ⊢
      refine ⟨by rw [hport], ?_, by rw [hport], hswitch, fun q hq => ?_⟩
      · rw [rungOf, hport, port_updPort]
        rfl
      · rw [hr.others q hq, port_updPort_other _ _ _ _ hq]
    · refine does_of rfl h ?_
      rw [pswFell, hrung, if_pos (by decide)]
      obtain ⟨hport, hother, hsw, htiles⟩ := retirePort_retires p (s.core.work.updSwitch (.eng p) fun x => { x with ack := false })
      have hout : checkDomain (retirePort p (s.core.work.updSwitch (.eng p) fun x => { x with ack := false })) =
          retirePort p (s.core.work.updSwitch (.eng p) fun x => { x with ack := false }) := by
        refine checkDomain_out ?_
        rw [retirePort_left]
        · have hpln := (unbindPort_unbinds p (s.core.work.updSwitch (.eng p) fun x => { x with ack := false })).pln
          rw [endLadder_pln]
          exact (congrArg Planer.engineDomain hpln :).trans hdom
        · exact hleft
      rw [hout]
      refine ⟨by rw [hport], by rw [hport], ?_, fun y hy hp => unbindPort_started (htiles y hy) hp⟩
      rw [switch_congr hsw, switch_updSwitch]
    · refine does_of rfl h ?_
      rw [retireLate, if_pos hrung]
      have hcov : ((w.port p).ladder.map Ladder.seq).or (some 0) = some (((w.port p).ladder.map Ladder.seq).getD 0) := by
        cases (w.port p).ladder <;> rfl
      obtain ⟨hpln, -, hports, -⟩ := startDomain_starts (e := s.core) (w := noteRung p 4 s.core.work) St.engineHung none
        (((w.port p).ladder.map Ladder.seq).or (some 0)) false hdom
      have hrung4 : rungOf (noteRung p 4 s.core.work) p = 4 := by
        unfold rungOf at hrung ⊢
        rw [noteRung_port]
        cases hl : (s.core.work.port p).ladder with
        | none =>
          rw [show w.port p = s.core.work.port p from rfl, hl] at hrung
          exact nomatch hrung
        | some l => rfl
      refine ⟨?_, by rw [hpln], by rw [hpln]⟩
      rw [rungOf, hports p (by omega)]
      exact hrung4
  · intro w
    refine ⟨fun hdom hres hhard => ?_, fun hdom hres => ?_, fun hdom hres hrung => ?_, fun hworks hres hdom => ?_, fun hno => ?_⟩
    · refine does_of rfl h ?_
      obtain ⟨hin, hout, hres', hdom', hlanes, hsw, htiles⟩ := runDomain_runs (e := s.core) hdom hres hhard
      refine ⟨hin, hout, hres', hdom', hlanes, hsw, fun t ht => returnTiles_done (e := s.core) ?_⟩
      rwa [htiles] at ht
    · refine does_of rfl h ?_
      rw [domainLate, hdom, hres, Bool.not_true, if_neg (by decide), Bool.true_or, if_pos rfl]
      rfl
    · exact does_of rfl h fun p hp hst => domainLate_retires hdom hres hrung hp hst
    · refine does_of rfl h ?_
      obtain ⟨h₁, -, h₂, h₃, h₄, h₅, -⟩ := startPlaner_starts (e := s.core) (w := (stallStatus s.core.work).2)
        (stallStatus s.core.work).1 none false hres hdom
      rw [planerStall, hworks, hres, if_neg (by decide)]
      exact ⟨h₁, h₂, h₃, h₄, h₅⟩
    · refine leaves_of rfl h ?_
      rw [planerStall, hno]
      rfl

end

end Sys2Proof.Machine

end

-- Proofs about lanes, code tables and commits of the Planer (R390, R391, R404).
section

namespace Sys2Proof.Machine

/-! ### Lanes, code tables and commits of the Planer (R288, R351, R383, R390, R391, R404) -/

section

variable {w : Work} {e : Block} {l : Nat}

/-! #### Lanes (R390) -/

theorem laneUnit_setLane (w : Work) (l : Nat) (u : Option LaneUnit) : laneUnit (setLane w l u) l = u := tblGet_tblSet_same _ _ _ _

/-- A lane that gives its unit up leaves everything but the port and the lanes. -/
theorem freeLane_frame (l : Nat) (w : Work) :
    { freeLane l w with fab := w.fab, pln := { (freeLane l w).pln with lanes := w.pln.lanes } } = w := by
  unfold freeLane
  cases laneReq w l with
  | none => rfl
  | some r =>
    dsimp only
    split <;> rfl

theorem laneUnit_freeLane (l : Nat) (w : Work) : laneUnit (freeLane l w) l = none := laneUnit_setLane _ l none

theorem freeLane_cmds (l : Nat) (w : Work) : (freeLane l w).cmds = w.cmds := (congrArg Work.cmds (freeLane_frame l w) :)
theorem freeLane_slices (l : Nat) (w : Work) : (freeLane l w).slices = w.slices := (congrArg Work.slices (freeLane_frame l w) :)
theorem freeLane_tiles (l : Nat) (w : Work) : (freeLane l w).tiles = w.tiles := (congrArg Work.tiles (freeLane_frame l w) :)
theorem freeLane_tables (l : Nat) (w : Work) : (freeLane l w).pln.tables = w.pln.tables :=
  (congrArg (fun x : Work => x.pln.tables) (freeLane_frame l w) :)

theorem tblGet_mapValues {α : Type} (f : Option α → Option α) (hf : f none = none) (t : Tbl (Option α)) (k : Nat) :
    tblGet none (t.map fun p => (p.1, f p.2)) k = f (tblGet none t k) := by
  induction t with
  | nil => exact hf.symm
  | cons x t ih =>
    obtain ⟨i, x⟩ := x
    rw [List.map_cons, tblGet, tblGet]
    split
    · rfl
    · exact ih

theorem laneUnit_discardUnits (c i : Nat) (h : laneUnit w l = none) : laneUnit (discardUnits c i w) l = none := by
  unfold laneUnit discardUnits
  rw [tblGet_mapValues (fun o => o.map _) rfl, show tblGet none w.pln.lanes l = none from h]
  rfl

theorem laneUnit_unstageCmd (id : Nat) (h : laneUnit w l = none) : laneUnit (unstageCmd id w) l = none :=
  List.foldlRecOn (motive := fun v : Work => laneUnit v l = none) _ _ h fun _ hv t _ => laneUnit_discardUnits t.cmd t.index hv

/-- A command whose staging fails ends, and its tiles are unstaged (R359). -/
theorem failExec_fails {id : Nat} {st : Status} {c : Cmd} (hc : w.cmd id = some c) (hend : c.endStatus = none) :
    let w' := failExec id st w
    (w'.cmd id).bind Cmd.endStatus = some st ∧ w'.pln.tables = w.pln.tables ∧ (laneUnit w l = none → laneUnit w' l = none) := by
  unfold failExec
  rw [hc]
  dsimp only
  rw [hend, if_neg (by decide)]
  have hun := unstageCmd_unbinds id w
  have hlane := @laneUnit_unstageCmd w l id
  generalize unstageCmd id w = v at hun hlane ⊢
  obtain ⟨r, hc'⟩ := hun.cmds.some hc
  refine ⟨?_, (congrArg Planer.tables hun.pln :), hlane⟩
  rw [cmd_updCmd (withdrawCmd id v) id _ (by intros; rfl), show (withdrawCmd id v).cmd id = v.cmd id from rfl, hc']
  show some (c.endStatus.getD st) = some st
  rw [hend]
  rfl

/-! #### Units (R351, R390) -/

theorem chargeUnit_charges {c : Cmd} {n : Nat} (hs : c.slice = some n) (k : Nat) (w : Work) :
    { chargeUnit e c k w with slices := w.slices } = w ∧
    ((chargeUnit e c k w).ctx n c.ctx).planerBytes = (w.ctx n c.ctx).planerBytes + BitVec.ofNat 64 k := by
  unfold chargeUnit
  rw [hs]
  dsimp only
  refine ⟨rfl, ?_⟩
  rw [chargePlaner, ctx_updCtx, ctx_updSlice _ _ (by intros; rfl)]

section

variable {u : LaneUnit} {c : Cmd} {r : Req} {st : Status} {data : List Byte} {t : Tile} (hu : laneUnit w l = some u)
  (hreq : laneReq w l = some r) (hans : r.answer = some (st, data)) (hc : w.cmd u.cmd = some c)

include hu hreq hans hc

/-- A lane's finished unit is finished for the tile that takes it. -/
theorem finishUnit_for (hstage : u.stage = .data) (hdiscard : u.discard = false) (ht : w.tiles.find? (fun x => takesUnit c u x) = some t) :
    finishUnit e l w = finishFor e l u c t data w := by
  unfold finishUnit
  rw [hu, hreq, Option.bind_some, hans]
  dsimp only
  rw [hstage, hc]
  dsimp only
  rw [hdiscard, if_neg (by decide), if_neg (by decide), ht]

theorem finishTable_stage (hstage : u.stage = .table) :
    finishTable e l w = if !tableFits (bytesAt data 0 128) then laneFail l St.rosrekFormat w
      else readBlock e l { u with table := bytesAt data 0 128 } c (slotObj (w.dropReq r.tag) c u.slot)
        (touchTable (unitHandle c u) (iTable u.entry) (bytesAt data 0 128) (w.dropReq r.tag)) := by
  unfold finishTable
  rw [hu, hreq, Option.bind_some, hans]
  dsimp only
  rw [hstage, hc]
  dsimp only
  rw [if_neg (by decide)]

end

/-- A unit whose groups are there, and for whose bytes the port has its pages, is written into the Kiln. -/
theorem finishFor_stores {u : LaneUnit} {c : Cmd} {t : Tile} {data : List Byte} {out : UnitOut} {o : Obj} {d full : SlotData}
    (ho : slotObj w c u.slot = o) (hd : t.slots.getD u.slot {} = d)
    (hfull : d.finish { pos := u.pos, next := unitEnd o u, found := out.found, bytes := out.bytes } = full)
    (htail : unitTail o u = false ∨ d.at0 = u.pos) (hout : unitOutput o u (unitWant o d u) data = (St.ok, out))
    (hopen : unitOpen o u = false ∨ d.left ≤ out.found) (hfit : tilePages c t + (full.pages - d.pages) ≤ (w.port u.port).pages)
    (hroom : full.pages - d.pages ≤ freePages w u.port) (hmore : full.left ≠ 0 → full.at0 < streamLen o) :
    finishFor e l u c t data w = (chargeUnit e c out.bytes.length (freeLane l w)).mapTiles fun x =>
      if takesUnit c u x then ({ x with slots := x.slots.set u.slot full } : Tile).settled else x := by
  have hnow : (unitTail o u && !(d.at0 == u.pos)) = false := by
    rcases htail with h | h
    · rw [h, Bool.false_and]
    · rw [h, beq_self_eq_true, Bool.not_true, Bool.and_false]
  have hends : (unitOpen o u && decide (out.found < d.left)) = false := by
    rcases hopen with h | h
    · rw [h, Bool.false_and]
    · rw [decide_eq_false (by omega), Bool.and_false]
  have hlast : (full.left != 0 && decide (streamLen o ≤ full.at0)) = false := by
    by_cases h : full.left = 0
    · rw [h]
      rfl
    · rw [decide_eq_false (by have := hmore h; omega), Bool.and_false]
  unfold finishFor
  rw [ho, hd]
  dsimp only
  rw [hnow, hout, if_neg (by decide), if_neg (fun h => h rfl), hends, if_neg (by decide)]
  unfold storeUnit
  rw [ho, hd]
  dsimp only
  rw [hfull, if_neg (by omega), makeRoom_fits hroom]
  dsimp only
  rw [hlast, if_neg (by decide)]

/-- A lane that moves on to a read keeps its unit, at its stage. -/
theorem laneStage_reads {c : Cmd} {n : Nat} (hs : c.slice = some n) (l : Nat) (u : LaneUnit) (o : Obj) (st : LaneStage) (off len : Nat)
    (w : Work) :
    (laneStage e l u c o st off len w).pln = (setLane w l (some { u with stage := st, len := len })).pln ∧
    (laneStage e l u c o st off len w).cmds = w.cmds := by
  unfold laneStage laneRead
  rw [hs]
  dsimp only
  rw [chargeBytes]
  exact ⟨by rw [Work.updSlice_pln, issue_pln], by rw [Work.updSlice_cmds, issue_cmds]; rfl⟩

/-! #### The last commit of a command (R42, R288, R404) -/

theorem commitJob_setCommit (w : Work) (l : Nat) (j : Option CommitJob) : commitJob (setCommit w l j) l = j := tblGet_tblSet_same _ _ _ _

/-- A commit that is written is over: its lane and its tile are free, and the tile has committed. -/
theorem finishCommit_commits {j : CommitJob} (hj : commitJob w l = some j) (hdone : j.done = true) (hfailed : j.failed = none)
    (hbusy : commitBusy w l = false) :
    finishCommit l w = tileCommitted j.cmd j.tile j.counts ((commitTile w j.cmd j.tile).elim [] Tile.credits)
      { setCommit w l none with tiles := w.tiles.filter fun t => !sameTile t j.cmd j.tile } := by
  unfold finishCommit
  rw [hj]
  dsimp only
  rw [commitOver, hbusy, hdone, hfailed, if_neg (by simp), if_pos (by decide)]
  rfl

/-- A command with one more of its tiles committed. -/
abbrev Cmd.committed (c : Cmd) (i : Nat) (n : CodeCount) : Cmd :=
  { c with tilesDone := c.tilesDone ++ [i], codes := c.codes + n.codes, clipped := c.clipped + n.clipped, escs := c.escs + n.escs }

/-- What a tile's commit leaves: of the commands only its own changes, and neither lanes nor tiles do. -/
theorem tileCommitted_commits {id i n : Nat} {k : CodeCount} {qs : List Nat} {c : Cmd} (hc : w.cmd id = some c) (hs : c.slice = some n)
    (hcompletes : completes w c n = true) (hbad : c.badStatus = 0) :
    let w' := tileCommitted id i k qs w
    w'.pln = w.pln ∧ w'.tiles = w.tiles ∧
    (tileCount c.bytes ≤ c.tilesDone.length + 1 → sigOf w c = none →
      w'.cmd id = some { c.committed i k with endStatus := some St.ok }) ∧
    (c.tilesDone.length + 1 < tileCount c.bytes → w'.cmd id = some (c.committed i k)) ∧
    (tileCount c.bytes ≤ c.tilesDone.length + 1 → sigOf w c ≠ none →
      w'.cmd id = some { c.committed i k with credits := qs } ∧ w'.msgs = w.msgs) := by
  intro w'
  have hw' : w' = tileCommitted id i k qs w := rfl
  clear_value w'
  unfold tileCommitted at hw'
  generalize hv : w.updCmd id _ = v at hw'
  have hcv : v.cmd id = some (c.committed i k) := by
    rw [← hv, cmd_updCmd w id _ (by intros; rfl), hc]
    rfl
  have hphase : c.phase = .running ∧ c.endStatus = none := by
    simp only [completes, Bool.and_eq_true, beq_iff_eq, Option.isNone_iff_eq_none] at hcompletes
    exact hcompletes.1
  have hcomp : completes v (c.committed i k) n = true := by
    rw [← hcompletes, ← hv]
    rfl
  have hsig : sigOf v (c.committed i k) = sigOf w c := by
    rw [← hv]
    rfl
  have hlen : (c.committed i k).tilesDone.length = c.tilesDone.length + 1 := List.length_append
  have hpln : v.pln = w.pln := hv ▸ rfl
  have htiles : v.tiles = w.tiles := hv ▸ rfl
  have hmsgs : v.msgs = w.msgs := hv ▸ rfl
  clear hv
  dsimp only at hw'
  rw [hcv] at hw'
  dsimp only at hw'
  rw [show (c.committed i k).slice = some n from hs] at hw'
  dsimp only at hw'
  rw [hcomp, hlen, Bool.not_true, Bool.false_or, show (c.committed i k).badStatus = 0 from hbad, hsig] at hw'
  by_cases hmore : c.tilesDone.length + 1 < tileCount c.bytes
  · rw [if_pos (decide_eq_true hmore)] at hw'
    rw [hw']
    exact ⟨hpln, htiles, fun h => absurd h (by omega), fun _ => hcv, fun h => absurd h (by omega)⟩
  · rw [if_neg (by rw [decide_eq_true_iff]; exact hmore), if_neg (by decide)] at hw'
    cases hsigned : sigOf w c with
    | some x =>
      rw [hsigned, Option.isSome_some, if_pos rfl] at hw'
      rw [hw']
      refine ⟨hpln, htiles, (fun _ h => nomatch h), fun h => absurd h hmore, fun _ _ => ⟨?_, hmsgs⟩⟩
      rw [cmd_updCmd v id _ (by intros; rfl), hcv]
      rfl
    | none =>
      rw [hsigned, if_neg (by decide)] at hw'
      have hguard : ∀ x : Work, (countGuard (c.committed i k) n x).pln = x.pln ∧ (countGuard (c.committed i k) n x).tiles = x.tiles ∧
          (countGuard (c.committed i k) n x).cmds = x.cmds := fun x => by
        unfold countGuard
        split <;> exact ⟨rfl, rfl, rfl⟩
      obtain ⟨h₁, h₂, h₃⟩ := hguard (returnCredits qs v)
      rw [hw']
      refine ⟨h₁.trans hpln, h₂.trans htiles, fun _ _ => ?_, fun h => absurd h hmore, fun _ h => absurd rfl h⟩
      rw [endCmd, cmd_updCmd _ id _ (by intros; rfl), cmd_congr h₃, show (returnCredits qs v).cmd id = v.cmd id from rfl, hcv]
      exact congrArg some (endWith_open (c := c.committed i k) hphase.2 (show c.phase ≠ .blocked by rw [hphase.1]; decide))

/-- Settles O39: units through the tile that takes them, tables through the cache, commits through their commands. -/
theorem planerLanes : Obligations.PlanerLanes := by
  unfold Obligations.PlanerLanes
  intro s l h w
  refine ⟨fun u r st data c n hu hreq hans hc hs hdiscard => ⟨fun t out hstage ht => ?_, fun t hstage ht htail hat => ?_,
    fun hstage hfits => ?_, fun hstage hfits hend => ?_⟩, fun j c n hj hdone hfailed hbusy hc hs hcomp hsig hbad => ?_,
    fun j c n t hj hdone hfailed hbusy hc hs hcomp hsig hbad ht hlast => ?_⟩
  · intro o d full htail hout hopen hfit hroom hmore
    refine does_of rfl h ?_
    rw [finishUnit_for (e := s.core) hu hreq hans hc hstage hdiscard ht,
      finishFor_stores (o := o) (d := d) (full := full) rfl rfl rfl htail hout hopen hfit hroom hmore]
    obtain ⟨hframe, hbytes⟩ := chargeUnit_charges (e := s.core) hs out.bytes.length (freeLane l s.core.work)
    generalize chargeUnit s.core c out.bytes.length (freeLane l s.core.work) = v at hframe hbytes ⊢
    have hlane : laneUnit v l = none := by
      rw [laneUnit, show v.pln = (freeLane l s.core.work).pln from (congrArg Work.pln hframe :)]
      exact laneUnit_freeLane l _
    have htiles : v.tiles = w.tiles := (congrArg Work.tiles hframe :).trans (freeLane_tiles l _)
    refine ⟨hlane, ?_, ?_, (congrArg Work.cmds hframe :).trans (freeLane_cmds l _)⟩
    · show v.tiles.map _ = _
      rw [htiles]
    · show (v.ctx n c.ctx).planerBytes = _
      rw [hbytes, Work.ctx, slice_congr (freeLane_slices l _), Work.ctx]
  · refine leaves_of rfl h ?_
    rw [finishUnit_for (e := s.core) hu hreq hans hc hstage hdiscard ht, finishFor]
    dsimp only
    rw [if_pos]
    rw [show unitTail (slotObj s.core.work c u.slot) u = true from htail, Bool.true_and, Bool.not_eq_true', beq_eq_false_iff_ne]
    exact hat
  · refine does_of rfl h ?_
    rw [finishTable_stage (e := s.core) hu hreq hans hc hstage, hfits, if_neg (by decide), readBlock]
    obtain ⟨hpln, hcmds⟩ := laneStage_reads (e := s.core) hs l { u with table := bytesAt data 0 128 } (slotObj
        (s.core.work.dropReq r.tag) c u.slot)
      .data (iOffset u.entry) (iBytes u.entry) (touchTable (unitHandle c u) (iTable u.entry) (bytesAt data 0 128)
          (s.core.work.dropReq r.tag))
    generalize laneStage _ _ _ _ _ _ _ _ _ = v at hpln hcmds ⊢
    refine ⟨?_, ?_, hcmds⟩
    · rw [hpln]
      rfl
    · rw [laneUnit, hpln]
      exact congrArg (Option.map _) (laneUnit_setLane _ l _)
  · refine does_of rfl h ?_
    rw [finishTable_stage (e := s.core) hu hreq hans hc hstage, hfits, if_pos (by decide), laneFail, hu]
    dsimp only
    rw [hdiscard, if_neg (by decide)]
    obtain ⟨hended, htables, hlane⟩ := failExec_fails (l := l) (st := St.rosrekFormat) (w := freeLane l s.core.work)
      ((cmd_congr (freeLane_cmds l _) _).trans hc) hend
    rw [cmd_id _ _ _ hc]
    exact ⟨hlane (laneUnit_freeLane l _), hended, htables.trans (freeLane_tables l _)⟩
  · refine does_of rfl h ?_
    rw [finishCommit_commits hj hdone hfailed hbusy]
    obtain ⟨hpln, htiles, hlast, hmore, -⟩ := tileCommitted_commits (i := j.tile) (k := j.counts)
      (qs := (commitTile s.core.work j.cmd j.tile).elim [] Tile.credits)
      (w := { setCommit s.core.work l none with tiles := s.core.work.tiles.filter fun t => !sameTile t j.cmd j.tile }) hc hs hcomp hbad
    generalize tileCommitted _ _ _ _ _ = v at hpln htiles hlast hmore ⊢
    refine ⟨?_, fun x hx => ?_, ?_⟩
    · rw [commitJob, hpln]
      exact commitJob_setCommit s.core.work l none
    · rw [htiles] at hx
      exact (Bool.not_eq_true' _).mp (List.mem_filter.1 hx).2
    · by_cases hle : tileCount c.bytes ≤ c.tilesDone.length + 1
      · rw [hlast hle hsig, if_pos hle]
        exact ⟨rfl, rfl⟩
      · rw [hmore (by omega), if_neg hle]
        simp only [completes, Bool.and_eq_true, Option.isNone_iff_eq_none] at hcomp
        exact ⟨rfl, hcomp.1.2⟩
  · refine does_of rfl h ?_
    rw [finishCommit_commits hj hdone hfailed hbusy]
    obtain ⟨hpln, -, -, -, hsigned⟩ := tileCommitted_commits (i := j.tile) (k := j.counts)
      (qs := (commitTile s.core.work j.cmd j.tile).elim [] Tile.credits)
      (w := { setCommit s.core.work l none with tiles := s.core.work.tiles.filter fun t => !sameTile t j.cmd j.tile }) hc hs hcomp hbad
    generalize tileCommitted _ _ _ _ _ = v at hpln hsigned ⊢
    obtain ⟨hcmd, hmsgs⟩ := hsigned hlast hsig
    refine ⟨?_, hmsgs, ?_⟩
    · rw [commitJob, hpln]
      exact commitJob_setCommit s.core.work l none
    · simp only [completes, Bool.and_eq_true, Option.isNone_iff_eq_none] at hcomp
      rw [hcmd, show commitTile s.core.work j.cmd j.tile = some t from ht]
      show some (_, c.endStatus, t.credits) = _
      rw [hcomp.1.2]

end

end Sys2Proof.Machine

end

-- Proofs about DOMAIN_RESET (R569 to R572, R579 to R582).
section

namespace Sys2Proof.Machine

/-! ### DOMAIN_RESET (R569 to R572, R579 to R582) -/

section

variable {s : State} {c : Cmd} {b e : Block} {w : Work} {p : Nat}

/-! #### The row (R571) -/

/-- DOMAIN_RESET, released, is its operation on the block; a reset of the cluster reaches the mailbox unit. -/
theorem acts_domainReset {P : Block → Prop} (h : s.live) (hr : Ready s.core.work .domainReset c)
    (hP : P (boxReset (resetDomainOp c s.core))) : Acts (.domainReset c.id) s P := by
  refine acts_of (f := fun b => boxReset (runBlock .domainReset c.id resetDomainOp b)) rfl h ?_
  obtain ⟨hc, hphase, hop, hend, hsusp⟩ := hr
  rw [runBlock, hc]
  dsimp only
  rw [hphase, hop, hend, hsusp, if_pos (by decide)]
  exact hP

theorem acts_domainReset_quiet {P : Block → Prop} (h : s.live) (hr : Ready s.core.work .domainReset c)
    (hbox : (resetDomainOp c s.core).work.jnr.boxDue = false) (hP : P (resetDomainOp c s.core)) : Acts (.domainReset c.id) s P :=
  acts_domainReset h hr (by rwa [boxReset_none hbox])

theorem domainCapture_captures (e : Block) (c : Cmd) (x : Concern) (w : Work) : Captures w (domainCapture e c x w) := by
  unfold domainCapture
  split
  · exact ⟨w.cap, w.fresh, rfl, rfl, rfl⟩
  · exact captureEvent_captures e _ w

/-- A command that waits for its domain. -/
abbrev Cmd.inDomain (c : Cmd) : Cmd := { c with phase := .running, waiting := .domain }

theorem awaitDomain_turns (hc : w.cmd c.id = some c) : Turns w c c.inDomain (awaitDomain c.id w) :=
  turns_updCmd hc Cmd.inDomain (fun _ => rfl) rfl

/-! #### An engine port (R573, R574) -/

/-- A port enters its ladder at one of the rungs of the port itself. -/
theorem enterLadder_rung {rung : Nat} (h₁ : 1 ≤ rung) (h₃ : rung ≤ 3) (st : Status) (dcmd : Option Nat) (q : Nat) (w : Work) :
    let w' := enterLadder e p rung st dcmd q w
    EntersLadder p { rung := rung, named := if dcmd.isSome then rung else 0, status := st, cmd := dcmd, seq := q } w w' ∧
    (w'.port p).state = if rung = 1 then .softReset else .hardReset := by
  intro w'
  have hw' : w' = enterLadder e p rung st dcmd q w := rfl
  obtain rfl | rfl | rfl : rung = 1 ∨ rung = 2 ∨ rung = 3 := by omega
  · obtain ⟨hen, hstate, -⟩ := enterLadder_soft e p st dcmd q w
    exact ⟨hen, hstate⟩
  · have hhard := fun v => startRung_hard e p v
    refine ⟨Rungs.enters rfl rfl (fun v => (hhard v).1) fun v => ?_, ?_⟩
    · obtain ⟨-, -, -, -, -, -, -, -, -, -, hlad⟩ := hhard v
      exact hlad
    · rw [hw']
      exact (hhard _).2.1
  · have hretire := fun v => startRung_retire e p v
    refine ⟨Rungs.enters rfl rfl (fun v => (hretire v).1) fun v => ⟨3, by rw [(hretire v).2.1]⟩, ?_⟩
    rw [hw', show (enterLadder e p 3 st dcmd q w).port p = _ from (hretire _).2.1]
    rfl

/-- A port in service on which no tile runs enters the rung that the command names. -/
theorem resetEngine_enters {rung : Nat} (hst : (w.port p).state = .inService) (hdue : (w.port p).due = none)
    (hdom : w.pln.engineDomain = false) (hrun : runningTile w p = none) :
    ∃ v q, Captures (awaitDomain c.id w) v ∧ resetEngine e c p rung w = enterLadder e p rung St.resetDomain (some c.id) q v := by
  have hcap := domainCapture_captures e c (.portOnly p) (awaitDomain c.id w)
  refine ⟨_, domainSeq c (domainCapture e c (.portOnly p) (awaitDomain c.id w)), hcap, ?_⟩
  unfold resetEngine
  rw [hst]
  dsimp only
  rw [hdue, hdom, if_neg (by decide)]
  have hnone : runningTile (domainCapture e c (.portOnly p) (awaitDomain c.id w)) p = none := by
    rw [runningTile, hcap.stops_ports.2.1]
    exact hrun
  rw [hnone]

theorem resetEngine_absent {rung : Nat} (h : (w.port p).state = .absent ∨ (w.port p).state = .retired) :
    resetEngine e c p rung w = endCmd c.id St.stateReject w := by
  unfold resetEngine
  rcases h with h | h <;> rw [h]

/-! #### The joiner cluster (R445) and a Tenon port (R579) -/

/-- A cluster reset by a domain reset takes the mailbox unit into MAINT. -/
theorem resetJoinerDomain_resets (hreset : jnrInReset b.work = false) :
    let b' := boxReset (b.updWork (resetJoinerDomain e c))
    b'.work.jnr.state = .reset ∧ b'.work.jnr.cause = .domainReset ∧ b'.work.jnr.progs = [] ∧ b'.work.jnr.domainCmd = some c.id ∧
    b'.mbx.maint = true := by
  unfold resetJoinerDomain
  rw [Block.updWork, hreset, if_neg (by decide)]
  dsimp only
  generalize hu : ({ b with work := _ } : Block) = u
  have hdue : u.work.jnr.boxDue = true := by rw [← hu]; rfl
  have hjnr : u.work.jnr.state = .reset ∧ u.work.jnr.cause = .domainReset ∧ u.work.jnr.progs = [] ∧
      u.work.jnr.domainCmd = some c.id := by
    rw [← hu]
    exact ⟨rfl, rfl, rfl, rfl⟩
  obtain ⟨h₁, h₂, h₃, h₄⟩ := hjnr
  rw [boxReset, if_pos hdue, setMode]
  split
  next hmode => exact ⟨h₁, h₂, h₃, h₄, hmode⟩
  next => exact ⟨h₁, h₂, h₃, h₄, rfl⟩

theorem boxReset_lport (b : Block) (q : Nat) : (boxReset b).lport q = b.lport q := by
  unfold boxReset setMode
  split
  · split <;> rfl
  · rfl

/-- The lane resets of a Tenon port fall, and its lane layer is reset. -/
theorem resetTenon_resets (hen : b.dct.portEnable.testBit p = true) (hcmds : b.work.cmds.any (fun x => x.awaits 4 p) = false) :
    let x := (resetTenon c p b).lport p
    x.rstN = false ∧ x.deskew = none ∧ x.lane0.blockLock = false ∧ x.lane1.blockLock = false := by
  unfold resetTenon
  rw [hen, hcmds, if_neg (by decide)]
  dsimp only
  generalize hv : Block.updLport _ p _ = v
  have hlost : ∀ u : Block, u = v.updCoder p (fun c => {
      sent := c.sent, lane0 := { words := c.lane0.words }, lane1 := { words := c.lane1.words } }) →
      (if (u.lport p).state == .lost then u else u.updWork (portReturns p)).lport p = v.lport p := by
    rintro u rfl
    split <;> rfl
  rw [hlost _ rfl, ← hv, lport_updLport]
  exact ⟨rfl, rfl, rfl, rfl⟩

/-! #### A slice (R580) -/

/-- The commands that use a context are seen by their slices and contexts alone. -/
theorem contextsInUse_none {v : Work} (hcmds : ∀ d ∈ v.cmds, ∃ d' ∈ w.cmds, d'.slice = d.slice) (hslots : v.slots = w.slots)
    (hslices : v.slices = w.slices) (hnone : contextsInUse w p = []) : contextsInUse v p = [] := by
  unfold contextsInUse at hnone ⊢
  rw [List.dedup_eq_nil, List.append_eq_nil_iff, List.append_eq_nil_iff] at hnone ⊢
  obtain ⟨⟨hc, hs⟩, hw⟩ := hnone
  rw [hslots, slice_congr hslices]
  refine ⟨⟨?_, hs⟩, hw⟩
  rw [List.map_eq_nil_iff, List.filter_eq_nil_iff] at hc ⊢
  intro d hd
  obtain ⟨d', hd', hsl⟩ := hcmds d hd
  rw [← hsl]
  exact hc d' hd'

/-- A slice without a context in use has returned at once. -/
theorem resetSlice_ends (hc : w.cmd c.id = some c) (hop : c.op = some .domainReset) (hend : c.endStatus = none)
    (h₅ : fieldAt c.bytes 24 1 = 5) (hst : (w.slice p).state ≠ .off) (hp : fieldAt c.bytes 25 1 = p) (hreset : sliceInReset w p = false)
    (hnone : contextsInUse w p = []) (htear : ∀ t ∈ w.cap.teardowns, t.slice ≠ p) :
    ((resetSlice e c p w).cmd c.id).bind Cmd.endStatus = some St.ok ∧ (resetSlice e c p w).jnr = w.jnr := by
  unfold resetSlice
  rw [if_neg (by rw [beq_iff_eq]; exact hst), hreset, if_neg (by decide)]
  have hcap := domainCapture_captures e c (.sliceAll p) (awaitDomain c.id w)
  generalize hv : domainCapture e c (.sliceAll p) (awaitDomain c.id w) = v at hcap
  obtain ⟨k, n, rfl, hteardowns, -⟩ := hcap
  generalize hu : recordReset 5 p St.resetDomain _ = u
  have hcmds : u.cmds = (awaitDomain c.id w).cmds := by rw [← hu]; rfl
  have hcmd : u.cmd c.id = some c.inDomain := (cmd_congr hcmds _).trans (awaitDomain_turns hc).1
  have hnone' : contextsInUse u p = [] := by
    refine contextsInUse_none (fun d hd => ?_) (by rw [← hu]; rfl) (by rw [← hu]; rfl) hnone
    rw [hcmds] at hd
    obtain ⟨d', hd', rfl⟩ := List.mem_map.1 hd
    refine ⟨d', hd', ?_⟩
    split <;> rfl
  have hno : (u.cap.teardowns.any fun t => t.slice == p) = false := by
    rw [List.any_eq_false]
    intro t ht h
    refine htear t ?_ (beq_iff_eq.1 h)
    rw [← hu] at ht
    exact hteardowns ▸ ht
  have hjnr : u.jnr = w.jnr := by rw [← hu]; rfl
  clear hu hv
  dsimp only
  rw [hnone', List.foldl_nil, sliceReturns, hno, if_neg (by decide), domainReturns]
  have hawaits : c.inDomain.awaits 5 p = true := by
    simp [Cmd.awaits, show c.inDomain.op = c.op from rfl, hop, hend, h₅, hp]
  rw [if_pos (List.any_eq_true.2 ⟨c.inDomain, List.mem_of_find?_eq_some hcmd, hawaits⟩)]
  refine ⟨?_, hjnr⟩
  show ((u.mapCmds _).cmd c.id).bind _ = _
  rw [cmd_of_map (w := u) (fun d => ?_) rfl, hcmd, Option.map_some, if_pos hawaits, Option.bind_some]
  · show some (c.endStatus.getD St.ok) = _
    rw [hend]
    rfl
  · split <;> rfl

/-! #### The rows by domain -/

/-- What stays of every command stays of the command with a number. -/
theorem cmd_of_map_eq {v : Work} {σ : Cmd → Cmd} (hσ : ∀ c, (σ c).id = c.id) (h : v.cmds.map σ = w.cmds.map σ) (id : Nat) :
    (v.cmd id).map σ = (w.cmd id).map σ := by
  have hfind : ∀ x : Work, (x.cmd id).map σ = (x.cmds.map σ).find? fun c => c.id == id := fun x => by
    rw [List.find?_map, Work.cmd]
    congr 2
    funext c
    exact congrArg (· == id) (hσ c).symm
  rw [hfind, hfind, h]

/-- Settles O32: of each domain the row is its own operation. -/
theorem domainResets : Obligations.DomainResets := by
  unfold Obligations.DomainResets
  intro s c h hr hbox w d i r
  obtain ⟨hc, hphase, hop, hend, hsusp⟩ := id hr
  have hrow : ∀ k, d = k → fieldAt c.bytes 24 1 = k := fun _ h => h
  refine ⟨fun hrej => ?_, fun hd hst hdue hdom hrun h₁ h₃ => ?_, fun hd hres hdom => ?_, fun hd hreset => ?_, fun hd hen hcmds => ?_,
    fun hd hst hreset hnone htear => ?_, fun hd hdom => ?_, fun hd => ?_⟩
  · have hop' : resetDomainOp c s.core = s.core.updWork (endCmd c.id St.stateReject) := by
      rcases hrej with ⟨hd, hst⟩ | ⟨hd, hen⟩ | ⟨hd, hst⟩
      · rw [resetDomainOp, hrow 1 hd]
        exact congrArg (fun w => { s.core with work := w }) (resetEngine_absent hst)
      · rw [resetDomainOp, hrow 4 hd]
        show resetTenon c i s.core = _
        rw [resetTenon, hen]
        rfl
      · rw [resetDomainOp, hrow 5 hd]
        refine congrArg (fun w => { s.core with work := w }) ?_
        rw [resetSlice, if_pos (beq_iff_eq.2 hst)]
    refine acts_domainReset_quiet h hr ?_ ?_
    · rw [hop']
      exact hbox
    · rw [hop']
      exact ⟨endCmd_just hr _, rfl⟩
  · have hop' : resetDomainOp c s.core = s.core.updWork (resetEngine s.core c i r) := by
      rw [resetDomainOp, hrow 1 hd]
      rfl
    obtain ⟨v, q, hcap, hv⟩ := resetEngine_enters (e := s.core) (c := c) (rung := r) hst hdue hdom hrun
    obtain ⟨hen, hstate⟩ := enterLadder_rung (e := s.core) (p := i) h₁ h₃ St.resetDomain (some c.id) q v
    rw [← hv] at hen hstate
    obtain ⟨k, n, rfl, -⟩ := hcap
    have hturns := awaitDomain_turns hc
    refine acts_domainReset_quiet h hr ?_ ?_
    · rw [hop', Block.updWork, hen.jnr]
      exact hbox
    · rw [hop', Block.updWork]
      refine ⟨hstate, ?_, ?_, fun j hj => ?_⟩
      · obtain ⟨r', hl⟩ := hen.ladder
        rw [hl]
        rfl
      · rw [hen.cmds.map c.id (by intros; rfl)]
        exact congrArg (Option.map _) hturns.1
      · rw [hen.cmds.cmd j]
        exact congrArg (Option.map _) (hturns.2 j hj)
  · have hop' : resetDomainOp c s.core = s.core.updWork fun w =>
        startPlaner s.core St.resetDomain (some c.id) ((fieldAt c.bytes 27 1).testBit 0) (awaitDomain c.id w) := by
      rw [resetDomainOp, hrow 2 hd]
      refine congrArg (fun w => { s.core with work := w }) (if_neg ?_)
      rw [show s.core.work.pln.inReset = false from hres, show s.core.work.pln.engineDomain = false from hdom]
      decide
    obtain ⟨hin, hcmd, hlanes, -, -, -, hcmds, hjnr⟩ := startPlaner_starts (e := s.core) (w := awaitDomain c.id w) St.resetDomain
      (some c.id) ((fieldAt c.bytes 27 1).testBit 0) hres hdom
    refine acts_domainReset_quiet h hr ?_ ?_
    · rw [hop', Block.updWork, hjnr]
      exact hbox
    · rw [hop']
      refine ⟨hin, hcmd, hlanes, ?_⟩
      have hstrip := cmd_of_map_eq (σ := fun c => { c with readyAt := [], unpaid := [] }) (fun _ => rfl) hcmds c.id
      rw [(awaitDomain_turns hc).1] at hstrip
      have hshown := congrArg (Option.map fun x : Cmd => (x.phase, x.waiting)) hstrip
      rwa [Option.map_map] at hshown
  · have hop' : resetDomainOp c s.core = s.core.updWork (resetJoinerDomain s.core c) := by
      rw [resetDomainOp, hrow 3 hd]
      rfl
    refine acts_domainReset h hr ?_
    rw [hop']
    exact resetJoinerDomain_resets hreset
  · have hop' : resetDomainOp c s.core = resetTenon c i s.core := by
      rw [resetDomainOp, hrow 4 hd]
      rfl
    refine acts_domainReset h hr ?_
    rw [hop', boxReset_lport]
    exact resetTenon_resets hen hcmds
  · have hop' : resetDomainOp c s.core = s.core.updWork (resetSlice s.core c i) := by
      rw [resetDomainOp, hrow 5 hd]
      rfl
    obtain ⟨hended, hjnr⟩ := resetSlice_ends (e := s.core) hc hop hend (hrow 5 hd) hst rfl hreset hnone htear
    refine acts_domainReset_quiet h hr ?_ ?_
    · rw [hop', Block.updWork, hjnr]
      exact hbox
    · rw [hop']
      exact hended
  · have hop' : resetDomainOp c s.core = s.core.updWork fun w =>
        startDomain s.core St.resetDomain (some c.id) none ((fieldAt c.bytes 27 1).testBit 0) (awaitDomain c.id w) := by
      rw [resetDomainOp, hrow 6 hd]
      refine congrArg (fun w => { s.core with work := w }) (if_neg ?_)
      rw [show s.core.work.pln.engineDomain = false from hdom]
      decide
    obtain ⟨hpln, hcmds, -, hjnr⟩ := startDomain_starts (e := s.core) (w := awaitDomain c.id w) St.resetDomain (some c.id) none
      ((fieldAt c.bytes 27 1).testBit 0) hdom
    refine acts_domainReset_quiet h hr ?_ ?_
    · rw [hop', Block.updWork, hjnr]
      exact hbox
    · rw [hop']
      refine ⟨?_, ?_, ?_, (awaitDomain_turns hc).of_cmds hcmds⟩ <;> rw [Block.updWork, hpln]
  · have hop' : resetDomainOp c s.core = s.core.updWork (resetBlock s.core c) := by
      rw [resetDomainOp, hrow 7 hd]
      rfl
    obtain ⟨k, n, hk, -⟩ := domainCapture_captures s.core c .block (endCmd c.id St.ok w)
    have hwork : (resetDomainOp c s.core).work = (dueBlockReset (recordReset 7 0 St.resetDomain
        { endCmd c.id St.ok w with cap := k, fresh := n })).updCap fun k => { k with recordFirst := true } := by
      rw [hop', ← hk]
      rfl
    refine acts_domainReset_quiet h hr ?_ ?_
    · rw [hwork]
      exact hbox
    · rw [hwork]
      exact ⟨(endCmd_ends hr _).of_cmds rfl, rfl, rfl⟩

end

end Sys2Proof.Machine

end

-- Proofs about resets and starts of the joiner cluster (R441 to R445, R451).
section

namespace Sys2Proof.Machine

/-! ### Resets and starts of the joiner cluster (R441 to R445, R451) -/

section

variable {b b' e : Block} {w w' : Work} {s : State}

/-! #### Resets (R438, R445, R451) -/

theorem mem_of_tblGet {α : Type} {t : Tbl (Option α)} {k : Nat} {x : α} (h : tblGet none t k = some x) : (k, some x) ∈ t := by
  induction t with
  | nil => nomatch h
  | cons p t ih =>
    obtain ⟨i, y⟩ := p
    rw [tblGet] at h
    split at h
    next hi => rw [hi, h]; exact List.mem_cons_self
    next => exact List.mem_cons_of_mem _ (ih h)

/-- A cluster reset that is due reaches the mailbox unit: MAINT mode, with every channel at its reset value, and no lock of a core. -/
structure ResetsBoxes (b b' : Block) : Prop where
  jnr : b'.work.jnr = { b.work.jnr with boxDue := false }
  maint : b'.mbx.maint = true
  chans : b.mbx.maint = false → b'.mbx.chans = []
  locks : tblWf none b.mbx.locks = true → ∀ j o, b'.lock j = some o → b.lock j = some o ∧ clusterMid o.toNat = false

theorem boxReset_boxes (hdue : b.work.jnr.boxDue = true) : ResetsBoxes b (boxReset b) := by
  rw [boxReset, if_pos hdue]
  have hlocks : (setMode true b).mbx.locks = b.mbx.locks := setMode_locks b true
  refine ⟨?_, ?_, fun hmaint => ?_, fun hwf j o ho => ?_⟩
  · rw [setMode]
    split <;> rfl
  · rw [setMode]
    split
    next hmode => exact hmode
    next => rfl
  · rw [setMode, if_neg (by rw [hmaint]; exact Bool.false_ne_true)]
    rfl
  · obtain ⟨hin, hq⟩ := List.mem_filter.1 (mem_of_tblGet ho)
    rw [hlocks] at hin
    exact ⟨tblGet_of_mem hwf hin, (Bool.not_eq_true' _).mp hq⟩

/-- A cluster reset that the host has asked for, with the mailbox unit's part of it. -/
structure ClusterReset (cause : ClusterCause) (b b' : Block) : Prop where
  state : b'.work.jnr.state = .reset
  cause : b'.work.jnr.cause = cause
  progs : b'.work.jnr.progs = []
  cores : b'.work.jnr.cores = stopCores b.work.jnr.cores
  maint : b'.mbx.maint = true
  chans : b.mbx.maint = false → b'.mbx.chans = []
  locks : tblWf none b.mbx.locks = true → ∀ j o, b'.lock j = some o → b.lock j = some o ∧ clusterMid o.toNat = false

/-- A reset by the host of a block whose cluster, mode and locks are still `b`'s. -/
theorem resetByHost_resets (e : Block) (cause : ClusterCause) {v : Block} (hcores : v.work.jnr.cores = b.work.jnr.cores)
    (hmaint : v.mbx.maint = b.mbx.maint) (hlocks : v.mbx.locks = b.mbx.locks) :
    ClusterReset cause b (boxReset (v.updWork (resetByHost e cause))) := by
  obtain ⟨k, n, hcap, -⟩ := captureEvent_captures e
    { trigger := (Config.freeWord v.work.draw.1).setWidth 16, domain := 3, concern := .cores } v.work.draw.2
  have hjnr : (v.updWork (resetByHost e cause)).work.jnr = { v.work.jnr with
      state := .reset, progs := [], cores := stopCores v.work.jnr.cores, fwVersion := 0, cause := cause, boxDue := true } := by
    rw [Block.updWork, resetByHost]
    dsimp only
    rw [hcap]
    rfl
  have hbox := boxReset_boxes (b := v.updWork (resetByHost e cause)) (by rw [hjnr])
  have hlock : ∀ j, (v.updWork (resetByHost e cause)).lock j = b.lock j := fun j => congrArg (fun t => tblGet none t j) hlocks
  obtain ⟨hj, hm, hc, hl⟩ := hbox
  rw [hjnr] at hj
  refine ⟨by rw [hj], by rw [hj], by rw [hj], by rw [hj, hcores], hm, fun h => hc (hmaint.trans h), fun hwf j o ho => ?_⟩
  obtain ⟨hin, hmid⟩ := hl (by rw [show (v.updWork (resetByHost e cause)).mbx.locks = b.mbx.locks from hlocks]; exact hwf) j o ho
  exact ⟨(hlock j).symm.trans hin, hmid⟩

/-- A ring of bit 0 on channel 0 in NORMAL mode (R445). -/
theorem ringBits_clusterReset {mid : BitVec 8} (hmaint : b.mbx.maint = false) (hdb : (b.chan 0).db.getLsbD 0 = false) :
    ClusterReset .recoveryRing b (ringBits mid 0 false 1 b) := by
  let v := b.updWork fun w => w.sets (.doorbell 0) ((halfOf false 1).setWidth 64)
  have hbit : (newBits b 0 false 1).getLsbD 0 = true := by
    simpa [newBits, halfOf] using hdb
  have hnew : newBits v 0 false 1 ≠ 0 := fun hnone => by
    rw [show newBits v 0 false 1 = newBits b 0 false 1 from rfl] at hnone
    rw [hnone] at hbit
    exact absurd hbit (by decide)
  have hreset : resetsCluster v 0 false 1 = true := by
    show (!b.mbx.maint && (0 == 0) && !false && (newBits b 0 false 1).getLsbD 0) = true
    rw [hmaint, hbit]
    rfl
  have hop : ringBits mid 0 false 1 b = boxReset ((setBits mid 0 false 1 v).updWork (resetByHost
      (setBits mid 0 false 1 v) .recoveryRing)) := by
    simp only [ringBits]
    rw [if_neg hnew, if_pos hreset]
  have hon := setBits_on mid 0 false 1 v
  rw [hop]
  exact resetByHost_resets _ _ (congrArg (fun y : Block => y.work.jnr.cores) hon.frame :) hon.maint (setBits_locks v mid 0 false 1)

/-! #### The boot ROM (R441 to R443) -/

/-- A ring of bit 16 of channel 0 by the boot ROM: the bit stands, and the outgoing words stay. -/
theorem ringBits_ready (mid : BitVec 8) (b : Block) :
    ((ringBits mid 0 true 1 b).chan 0).db.getLsbD 16 = true ∧ ((ringBits mid 0 true 1 b).chan 0).clusterWord = (b.chan 0).clusterWord ∧
    BoxFrame b (ringBits mid 0 true 1 b) := by
  by_cases hnew : newBits b 0 true 1 = 0
  · rw [ringBits_none hnew]
    refine ⟨?_, rfl, rfl⟩
    show (b.chan 0).db.getLsbD 16 = true
    have hbit := congrArg (BitVec.getLsbD · 16) hnew
    simpa [newBits, halfOf] using hbit
  · have hon := ringBits_new (mid := mid) hnew (by simp [resetsCluster])
    refine ⟨?_, ?_, hon.frame⟩
    · rw [hon.chan]
      split
      · rw [timedOut_db, rung_db]
        simp [halfOf]
      · rw [rung_db]
        simp [halfOf]
    · rw [hon.chan]
      split
      · rw [timedOut_clusterWord]
        rfl
      · rfl

/-- The boot ROM rings a code: its message carries it, and only the channel and what interrupts take change besides. -/
structure Announces (code : Nat) (b b' : Block) : Prop where
  jnr : b'.work.jnr = { b.work.jnr with lastCode := BitVec.ofNat 16 code }
  bit : (b'.chan 0).db.getLsbD 16 = true
  word : (b'.chan 0).clusterWord.setWidth 16 = BitVec.ofNat 16 code
  start : b'.st = b.st

theorem bootRing_announces (code : Nat) (b : Block) : Announces code b (bootRing code b) := by
  obtain ⟨hbit, hword, hframe⟩ := ringBits_ready 3 (bootWord code b)
  have hw : ((bootWord code b).chan 0).clusterWord =
      BitVec.ofNat 64 (code + 2 ^ 16 * b.work.jnr.attempts.toNat + 2 ^ 32 * b.work.jnr.fwVersion.toNat) :=
    congrArg Channel.clusterWord (writeWord_on 3 0 true _ (b.updJnr fun j => { j with lastCode := BitVec.ofNat 16 code })).chan
  refine ⟨(congrArg (fun y : Block => y.work.jnr) hframe :), hbit, ?_, (congrArg Block.st hframe :)⟩
  rw [bootRing, hword, hw]
  apply BitVec.eq_of_toNat_eq
  rw [BitVec.toNat_setWidth, BitVec.toNat_ofNat, BitVec.toNat_ofNat]
  omega

theorem bootWaits_announces (code : Nat) (b : Block) :
    Announces code (b.updJnr fun j => { j with state := .recoveryWait }) (bootWaits code b) := bootRing_announces code _

/-! #### Images (R439, R441, R442) -/

theorem tblGet_map_succ {α : Type} (d x : α) {k : Nat} {l : List Nat} (h : k ∈ l) : tblGet d (l.map fun i => (i + 1, x)) (k + 1) = x := by
  induction l with
  | nil => nomatch h
  | cons i l ih =>
    rw [List.map_cons, tblGet]
    split
    next => rfl
    next hne =>
      refine ih ((List.mem_cons.1 h).resolve_left ?_)
      rintro rfl
      exact hne rfl

/-- The boot ROM's check decides what becomes of the cluster; a warm start only keeps record of it. -/
theorem bootProceeds_checks (hstate : b.work.jnr.state = .checking) :
    (bootProceeds b).work = (bootCheck b).work ∧ (bootProceeds b).chan 0 = (bootCheck b).chan 0 := by
  unfold bootProceeds
  rw [hstate, if_neg (by decide)]
  dsimp only
  generalize bootCheck b = v
  split <;> exact ⟨rfl, rfl⟩

theorem bootProceeds_starts (hstate : b.work.jnr.state = .checking) (hgood : imageCheck b.work.jnr.image = cLoaded) :
    let b' := bootProceeds b
    b'.work.jnr.state = .starting ∧ b'.work.jnr.lastCode = 3 ∧ b'.work.jnr.attempts = 0 ∧ (b'.chan 0).db.getLsbD 16 = true ∧
    b'.work.jnr.image = b.work.jnr.image ∧ ∀ k, 1 ≤ k → k < 32 → tblGet [] b'.work.jnr.copies k = b.work.jnr.image := by
  obtain ⟨hwork, hchan⟩ := bootProceeds_checks hstate
  obtain ⟨hjnr, hbit, -, -⟩ := bootRing_announces cLoaded (b.updJnr startCluster)
  dsimp only
  rw [hwork, hchan, bootCheck, if_pos hgood, hjnr]
  refine ⟨rfl, rfl, rfl, hbit, rfl, fun k h₁ hk => ?_⟩
  obtain ⟨i, rfl⟩ := Nat.exists_eq_add_of_le' h₁
  exact tblGet_map_succ [] _ (List.mem_range.2 (by omega))

theorem bootProceeds_rejects (hstate : b.work.jnr.state = .checking) (hbad : imageCheck b.work.jnr.image ≠ cLoaded) :
    let b' := bootProceeds b
    b'.work.jnr.state = .recoveryWait ∧ b'.work.jnr.lastCode = BitVec.ofNat 16 (imageCheck b.work.jnr.image) ∧
    b'.work.jnr.image = [] ∧ (b'.chan 0).db.getLsbD 16 = true := by
  obtain ⟨hwork, hchan⟩ := bootProceeds_checks hstate
  obtain ⟨hjnr, hbit, -, -⟩ := bootWaits_announces (imageCheck b.work.jnr.image) (b.updJnr fun j => { j with image := [], fwVersion := 0 })
  dsimp only
  rw [hwork, hchan, bootCheck, if_neg hbad, hjnr]
  exact ⟨rfl, rfl, rfl, hbit⟩

/-- The boot ROM reads as the physical function, of the port alone. -/
theorem bootReads_asks (a n : Nat) (rest : Bool) (b : Block) :
    Asks b.work none .read false a n [] (.bootRead rest) (bootReads a n rest b).work ∧ (bootReads a n rest b).work.jnr = b.work.jnr ∧
    (bootReads a n rest b).mbx = b.mbx := by
  have hopen : mayIssue b.work none false = true := mayIssue_open (s := none) (fun _ h => nomatch h) false
  have hissue : (bootReads a n rest b).work = issue b none (newReq .read false a n [] (.bootRead rest)) b.work := by
    rw [issue, if_pos (show mayIssue b.work none (newReq .read false a n [] (.bootRead rest)).dev = true from hopen)]
    rfl
  rw [hissue]
  exact ⟨issue_asks hopen, by simp, rfl⟩

/-- A request of the boot ROM is one of those that are out. -/
theorem Asks.mem_reqs {a len : Nat} {why : Purpose} (h : Asks w none .read false a len [] why w') (ha : a < 2 ^ 64) :
    ∃ r ∈ w'.fab.reqs, r.op = .read ∧ r.addr.toNat = a ∧ r.len = len ∧ r.slice = none ∧ r.why = why := by
  unfold Asks at h
  rw [h]
  refine ⟨_, by rw [put_reqs]; exact List.mem_append_right _ List.mem_cons_self, rfl, ?_, rfl, rfl, rfl⟩
  exact Nat.mod_eq_of_lt ha

/-- What the boot ROM does for bit 0 of channel 0 (R442). -/
theorem bootTakes_takes (hstate : b.work.jnr.state = .recoveryWait) (hbit : (b.chan 0).db.getLsbD 0 = true) :
    let b' := bootTakes b
    let a := (b.chan 0).peerWord
    (b'.chan 0).db.getLsbD 0 = false ∧ b'.work.jnr.attempts = satInc b.work.jnr.attempts ∧
    (a = 0 → b'.work.jnr = { b.work.jnr with state := .checking, attempts := satInc b.work.jnr.attempts } ∧
      { b' with work := b.work, mbx := b.mbx } = b) ∧
    (a ≠ 0 → b'.work.jnr.state = .loading ∧ b'.work.jnr.image = [] ∧ b'.work.jnr.lastCode = 2 ∧
      Asks b.work none .read false a.toNat 256 [] (.bootRead false) b'.work) := by
  have hclear (v : Block) (hv : v.chan 0 = (takeBits 0 1 b).chan 0) : (v.chan 0).db.getLsbD 0 = false := by
    rw [hv, takeBits, chan_updChan]
    simp [halfOf]
  have hop : bootTakes b = (let v := (takeBits 0 1 b).updJnr fun j => { j with attempts := satInc j.attempts }
      if (b.chan 0).peerWord = 0 then bootChecks v
      else bootReads (b.chan 0).peerWord.toNat 256 false
        (bootWord cLoading (v.updJnr fun j => { j with state := .loading, image := [], fwVersion := 0 }))) := by
    unfold bootTakes
    dsimp only
    rw [hstate, hbit, if_neg (by decide)]
  rw [hop]
  by_cases ha : (b.chan 0).peerWord = 0
  · dsimp only
    rw [if_pos ha]
    exact ⟨hclear _ rfl, rfl, fun _ => ⟨rfl, rfl⟩, fun hne => absurd ha hne⟩
  · dsimp only
    rw [if_neg ha]
    generalize hv : bootWord cLoading _ = v
    obtain ⟨hasks, hjnr, hmbx⟩ := bootReads_asks (b.chan 0).peerWord.toNat 256 false v
    have hchan : (v.chan 0).db = ((takeBits 0 1 b).chan 0).db := by
      rw [← hv, bootWord, (writeWord_on 3 0 true _ _).chan]
      rfl
    have hdb : ((bootReads (b.chan 0).peerWord.toNat 256 false v).chan 0).db.getLsbD 0 = false := by
      rw [Block.chan, hmbx]
      show (v.chan 0).db.getLsbD 0 = false
      rw [hchan]
      exact hclear _ rfl
    rw [hjnr]
    have hfab : v.work.fab = b.work.fab := by rw [← hv]; rfl
    refine ⟨hdb, by rw [← hv]; rfl, fun h0 => absurd h0 ha, fun _ => ⟨by rw [← hv]; rfl, by rw [← hv]; rfl, by rw [← hv]; rfl, ?_⟩⟩
    exact hasks.congr hfab (fun _ h => nomatch h)

/-- A ring of a bit 0 that stands already, by any identity, leaves what the boot ROM acts on (R455). -/
theorem onEnd_again {mid : BitVec 8} (hdb : (b.chan 0).db.getLsbD 0 = true) :
    let v := onEnd mid 0 false (ringBits mid 0 false 1) b
    v.work.jnr = b.work.jnr ∧ v.work.fab = b.work.fab ∧ v.chan 0 = b.chan 0 ∧ { v with work := b.work, mbx := b.mbx } = b := by
  have hnone : newBits b 0 false 1 = 0 := by
    refine BitVec.eq_of_getLsbD_eq fun i hi => ?_
    rw [newBits, BitVec.getLsbD_and, BitVec.getLsbD_not]
    by_cases h0 : i = 0
    · rw [h0, hdb]
      simp
    · simp [halfOf, BitVec.getLsbD_one, h0]
  by_cases hacc : endAccepts b mid.toNat 0 false = true
  · rw [onEnd_accepts (by decide) hacc, ringBits_none hnone]
    exact ⟨rfl, rfl, rfl, rfl⟩
  · rw [onEnd_refuses (by decide) ((Bool.not_eq_true _).mp hacc)]
    exact ⟨rfl, rfl, rfl, rfl⟩

/-- A ring of a new bit 0 in MAINT mode, which the boot ROM can answer. -/
theorem ringBits_waiting {mid : BitVec 8} (hstate : b.work.jnr.state = .recoveryWait) (hmaint : b.mbx.maint = true)
    (hdb : (b.chan 0).db.getLsbD 0 = false) : OnChan 0 ((b.chan 0).rung mid false 1) b (ringBits mid 0 false 1 b) := by
  have hnew : newBits b 0 false 1 ≠ 0 := fun hnone => by
    have hbit := congrArg (BitVec.getLsbD · 0) hnone
    rw [newBits] at hbit
    simp [halfOf] at hbit
    exact absurd (hbit.symm.trans hdb) (by decide)
  have hon := ringBits_new (mid := mid) (e := false) (bits := 1) hnew (by simp [resetsCluster, hmaint])
  have hcan : cannotAnswer b 0 false = false := by
    unfold cannotAnswer
    rw [hstate]
    rfl
  rwa [if_neg (by rw [hcan]; exact Bool.false_ne_true)] at hon

/-- A load that fails (R442, R443). -/
theorem bootAnswered_fails {r : Req} {rest : Bool} {st : Status} {data : List Byte} (hstate : b.work.jnr.state = .loading) (hst :
    st ≠ St.ok) :
    let b' := bootAnswered r rest st data b
    b'.work.jnr.state = .recoveryWait ∧ b'.work.jnr.lastCode = 0x13 ∧ (b'.chan 0).db.getLsbD 16 = true := by
  unfold bootAnswered
  rw [hstate, if_neg (by decide), if_pos hst]
  obtain ⟨hjnr, hbit, -, -⟩ := bootWaits_announces cReadFailed (b.updJnr fun j => { j with image := spoiltRegion b.work })
  dsimp only
  generalize bootWaits cReadFailed _ = v at hjnr hbit
  have hj : (v.updWork fun w => { w with fresh := w.fresh + 1 }).work.jnr = v.work.jnr := rfl
  rw [hj, hjnr]
  exact ⟨rfl, rfl, hbit⟩

/-- What has been read joins the image; the header asks for the rest, and an image that is complete is checked (R442). -/
theorem bootAnswered_loads {r : Req} {rest : Bool} {data : List Byte} (hstate : b.work.jnr.state = .loading) :
    let image := b.work.jnr.image ++ data
    let len := fieldAt image 8 4
    let b' := bootAnswered r rest St.ok data b
    b'.work.jnr.image = image ∧
    (rest = false → 256 < len → len ≤ 65536 → b'.work.jnr.state = .loading ∧
      Asks b.work none .read false (r.addr.toNat + 256) (len - 256) [] (.bootRead true) b'.work) ∧
    (rest = true ∨ len ≤ 256 ∨ 65536 < len → b'.work.jnr.state = .checking) := by
  intro image len
  have hop : bootAnswered r rest St.ok data b = (let v := b.updJnr fun j => { j with image := image }
      if !rest && decide (256 < len ∧ len ≤ 65536) then bootReads (r.addr.toNat + 256) (len - 256) true v else bootChecks v) := by
    unfold bootAnswered
    rw [hstate, if_neg (by decide), if_neg (not_not_intro rfl)]
    rfl
  rw [hop]
  clear_value image len
  generalize hv : (b.updJnr fun j => { j with image := image }) = v
  have himage : v.work.jnr.image = image ∧ v.work.jnr.state = .loading ∧ v.work.fab = b.work.fab := by
    rw [← hv]
    exact ⟨rfl, hstate, rfl⟩
  obtain ⟨himage, hst, hfab⟩ := himage
  dsimp only
  obtain ⟨hasks, hjnr, -⟩ := bootReads_asks (r.addr.toNat + 256) (len - 256) true v
  by_cases hmore : (!rest && decide (256 < len ∧ len ≤ 65536)) = true
  · rw [if_pos hmore, hjnr]
    refine ⟨himage, fun _ _ _ => ⟨hst, hasks.congr hfab (fun _ h => nomatch h)⟩, fun hno => ?_⟩
    simp only [Bool.and_eq_true, Bool.not_eq_true', decide_eq_true_eq] at hmore
    obtain ⟨hrest, hlo, hhi⟩ := hmore
    simp only [hrest, Bool.false_eq_true, false_or] at hno
    omega
  · rw [if_neg hmore]
    refine ⟨himage, fun hrest hlo hhi => absurd ?_ hmore, fun _ => rfl⟩
    simp [hrest, hlo, hhi]

/-! #### The firmware's start (R444, R451) -/

theorem tblGet_foldl_tblUpd {α : Type} [DecidableEq α] (d : α) (f : Nat → α → α) (t : Tbl α) {n k : Nat} (hk : k < n) :
    tblGet d ((List.range n).foldl (fun t i => tblUpd d t i (f i)) t) k = f k (tblGet d t k) := by
  induction n with
  | zero => omega
  | succ n ih =>
    rw [List.range_succ, List.foldl_append, List.foldl_cons, List.foldl_nil]
    by_cases h : k = n
    · subst h
      have hlow (m : Nat) (hm : m ≤ k) : tblGet d ((List.range m).foldl (fun t i => tblUpd d t i (f i)) t) k = tblGet d t k := by
        induction m with
        | zero => rfl
        | succ m ihm =>
          rw [List.range_succ, List.foldl_append, List.foldl_cons, List.foldl_nil, tblGet_tblUpd_other _ _ _ _ _ (by omega), ihm (by omega)]
      rw [tblGet_tblUpd_same, hlow k le_rfl]
    · rw [tblGet_tblUpd_other _ _ _ _ _ h, ih (by omega)]

theorem firmwareUp_runs (hstate : b.work.jnr.state = .starting) :
    let b' := firmwareUp b
    b'.work.jnr.state = .running ∧ b'.mbx.maint = false ∧
    ∀ k, k < 32 → (b'.work.jcore k).up = (!b.st.bistCores.getLsbD k && !(b.work.jcore k).restarting) ∧
      (b'.work.jcore k).inService = !b.st.bistCores.getLsbD k := by
  intro b'
  have hb' : b' = firmwareUp b := rfl
  clear_value b'
  unfold firmwareUp at hb'
  rw [hstate, if_neg (by decide)] at hb'
  have hmode : (setMode false b).mbx.maint = false ∧ (setMode false b).work = b.work ∧ (setMode false b).st = b.st := by
    unfold setMode
    split
    next h => exact ⟨h, rfl, rfl⟩
    next => exact ⟨rfl, rfl, rfl⟩
  obtain ⟨hmaint, hwork, hst⟩ := hmode
  generalize setMode false b = v at hb' hmaint hwork hst
  extract_lets v' cores j u at hb'
  have hjnr : b'.work.jnr = u.work.jnr := by
    rw [hb', Block.updWork]
    dsimp only
    cases j.domainCmd <;> dsimp only <;> split <;> rfl
  have hcore (k : Nat) (hk : k < 32) : tblGet {} u.work.jnr.cores k =
      { b.work.jcore k with
        up := !b.st.bistCores.getLsbD k && !(b.work.jcore k).restarting, inService := !b.st.bistCores.getLsbD k } := by
    show tblGet {} cores k = _
    unfold cores
    rw [tblGet_foldl_tblUpd {} (fun k (x : JCore) => { x with
      up := !v.st.bistCores.getLsbD k && !x.restarting, inService := !v.st.bistCores.getLsbD k }) _ hk, hwork, hst]
    rfl
  refine ⟨by rw [hjnr]; rfl, ?_, fun k hk => ?_⟩
  · rw [hb']
    exact hmaint
  · rw [Work.jcore, hjnr, hcore k hk]
    exact ⟨rfl, rfl⟩

theorem firmwareLate_rings (hstate : b.work.jnr.state = .starting) (hst : b.st.warm = false ∨ b.st.done = true) :
    let b' := firmwareLate b
    b'.work.jnr.state = .recoveryWait ∧ b'.work.jnr.lastCode = 0x14 ∧ (b'.chan 0).db.getLsbD 16 = true := by
  unfold firmwareLate
  rw [hstate, if_neg (by decide)]
  obtain ⟨hjnr, hbit, -, hstart⟩ := bootWaits_announces cStartFailed (b.updJnr fun j => { j with cores := stopCores j.cores })
  dsimp only
  generalize bootWaits cStartFailed _ = v at hjnr hbit hstart
  have hno : ¬(v.st.warm && !v.st.done) = true := by
    rw [hstart]
    show ¬(b.st.warm && !b.st.done) = true
    obtain h | h := hst <;> simp [h]
  rw [if_neg hno, hjnr]
  exact ⟨rfl, rfl, hbit⟩

end

/-- Settles O33: the resets of the cluster, the boot ROM's waits, checks and loads, and the firmware's start. -/
theorem clusterStarts : Obligations.ClusterStarts := by
  unfold Obligations.ClusterStarts
  refine ⟨fun s i cause h hwf hi => ?reset, fun s cause h hstate hcause => ⟨fun hk => ?waits, fun hk => ?checks⟩,
      fun b hstate => ⟨bootProceeds_starts hstate,
    bootProceeds_rejects hstate⟩, fun s mid h hstate hdb => ⟨fun hacc => ?refused, fun hacc hmaint => ?rung⟩,
    fun s mid h hstate hdb => ⟨fun ha => ?load, fun ha => ?retained⟩, fun b r rest st data hstate => ⟨bootAnswered_fails hstate, ?loads⟩,
    fun s h hstate => ⟨acts_of rfl h (firmwareUp_runs hstate), fun hst => acts_of rfl h (firmwareLate_rings hstate hst)⟩⟩
  case reset =>
    have finish {b : Block} (hb : ClusterReset cause s.core b) : b.work.jnr.state = .reset ∧ b.work.jnr.cause = cause ∧
        b.work.jnr.progs = [] ∧ b.work.jnr.cores = stopCores s.core.work.jnr.cores ∧ b.mbx.maint = true ∧
        (s.core.mbx.maint = false → b.mbx.chans = []) ∧
        ∀ j o, b.lock j = some o → s.core.lock j = some o ∧ clusterMid o.toNat = false :=
      ⟨hb.state, hb.cause, hb.progs, hb.cores, hb.maint, hb.chans, hb.locks hwf⟩
    obtain ⟨rfl, rfl⟩ | ⟨rfl, rfl⟩ | ⟨hi, rfl, hmaint, hdb⟩ := hi
    · exact acts_of (f := fun b => boxReset (b.updWork (resetByHost b .recover))) rfl h (finish (resetByHost_resets _ _ rfl rfl rfl))
    · exact acts_of (f := fun b => boxReset (b.updWork (resetByHost b .restart))) rfl h (finish (resetByHost_resets _ _ rfl rfl rfl))
    · obtain rfl | ⟨mid, rfl, hacc⟩ := hi
      · refine acts_of (f := recoveryRing) rfl h (finish ?_)
        rw [recoveryRing, hmaint, if_neg (by decide)]
        exact ringBits_clusterReset hmaint hdb
      · refine acts_of (f := recoveryLoad mid) rfl h (finish ?_)
        have hreset := ringBits_clusterReset (mid := mid) hmaint hdb
        rw [recoveryLoad, onEnd_accepts (by decide) hacc, bootTakes, hreset.state,
            if_pos (show (JnrSt.reset != .recoveryWait || _) = true from rfl)]
        exact hreset
  case waits =>
    refine acts_of (f := bootRun cause) rfl h ?_
    obtain ⟨hjnr, hbit, hword, -⟩ := bootWaits_announces cReady s.core
    have hop : bootRun cause s.core = bootWaits cReady s.core := by
      unfold bootRun
      rw [hstate, hcause]
      obtain rfl | rfl := hk <;> rfl
    rw [hop, hjnr]
    exact ⟨rfl, rfl, hbit, hword⟩
  case checks =>
    refine acts_of (f := bootRun cause) rfl h ?_
    have hop : bootRun cause s.core = bootChecks s.core := by
      unfold bootRun
      rw [hstate, hcause]
      obtain rfl | rfl := hk <;> rfl
    rw [hop]
    exact ⟨rfl, rfl⟩
  case refused =>
    refine acts_of (f := recoveryLoad mid) rfl h ?_
    rw [recoveryLoad, onEnd_refuses (by decide) hacc, bootTakes]
    exact if_pos (by rw [show (countRefused s.core).chan 0 = s.core.chan 0 from rfl, hdb]; simp)
  case rung =>
    refine acts_of (f := recoveryLoad mid) rfl h ?_
    rw [recoveryLoad, onEnd_accepts (by decide) hacc]
    have hon := ringBits_waiting (mid := mid) hstate hmaint hdb
    generalize ringBits mid 0 false 1 s.core = v at hon
    have hjnr : v.work.jnr = s.core.work.jnr := (congrArg (fun y : Block => y.work.jnr) hon.frame :)
    have hword : (v.chan 0).peerWord = (s.core.chan 0).peerWord := by rw [hon.chan]; rfl
    have hbit : (v.chan 0).db.getLsbD 0 = true := by
      rw [hon.chan, rung_db]
      simp [halfOf]
    obtain ⟨hdb', hatt, hzero, hload⟩ := bootTakes_takes (by rw [hjnr]; exact hstate) hbit
    rw [hword] at hzero hload
    refine ⟨hatt.trans (by rw [hjnr]), hdb', fun ha => by rw [(hzero ha).1], fun ha => ?_⟩
    obtain ⟨hst, -, -, hasks⟩ := hload ha
    exact ⟨hst, hasks.mem_reqs (BitVec.isLt _)⟩
  case load =>
    refine acts_of (f := recoveryLoad mid) rfl h ?_
    rw [recoveryLoad]
    obtain ⟨hjnr, hfab, hchan, -⟩ := onEnd_again (mid := mid) hdb
    generalize onEnd mid 0 false (ringBits mid 0 false 1) s.core = v at hjnr hfab hchan
    obtain ⟨hdb', hatt, -, hload⟩ := bootTakes_takes (by rw [hjnr]; exact hstate) (by rw [hchan]; exact hdb)
    rw [hchan] at hload
    obtain ⟨hst, himage, hcode, hasks⟩ := hload ha
    exact ⟨hst, himage, hatt.trans (by rw [hjnr]), hcode, hdb', hasks.congr hfab (fun _ h => nomatch h)⟩
  case retained =>
    refine acts_of (f := recoveryLoad mid) rfl h ?_
    rw [recoveryLoad]
    obtain ⟨hjnr, -, hchan, hrest⟩ := onEnd_again (mid := mid) hdb
    generalize onEnd mid 0 false (ringBits mid 0 false 1) s.core = v at hjnr hchan hrest
    obtain ⟨hdb', -, hzero, -⟩ := bootTakes_takes (by rw [hjnr]; exact hstate) (by rw [hchan]; exact hdb)
    rw [hchan] at hzero
    obtain ⟨hjnr', hrest'⟩ := hzero ha
    refine ⟨hjnr'.trans (by rw [hjnr]), hdb', ?_⟩
    have hframe := congrArg (fun y : Block => { y with work := s.core.work, mbx := s.core.mbx }) hrest'
    exact hframe.trans hrest
  case loads =>
    rintro rfl
    exact bootAnswered_loads hstate

end Sys2Proof.Machine

end

-- Proofs about core faults and restarts (R436, R565 to R567).
section

namespace Sys2Proof.Machine

/-! ### Core faults and restarts (R436, R565 to R567) -/

section

variable {b b' e : Block} {w w' : Work} {k : Nat} {why : CoreFaultCause}

theorem boxReset_jnr (b : Block) : (boxReset b).work.jnr = { b.work.jnr with boxDue := false } := by
  by_cases hdue : b.work.jnr.boxDue = true
  · exact (boxReset_boxes hdue).jnr
  · rw [boxReset_none ((Bool.not_eq_true _).mp hdue), ← (Bool.not_eq_true _).mp hdue]

theorem boxReset_jcore (b : Block) (j : Nat) : (boxReset b).work.jcore j = b.work.jcore j := by
  rw [Work.jcore, boxReset_jnr]
  rfl

theorem boxReset_cap (b : Block) : (boxReset b).work.cap = b.work.cap := (congrArg Work.cap (boxReset_work b) :)

/-- A capture takes the next number. -/
theorem captureEvent_seq (e : Block) (ev : Event) (w : Work) : (captureEvent e ev w).cap.seq = w.cap.seq + 1 := by
  unfold captureEvent
  extract_lets seq v
  split
  · rfl
  · split <;> rfl

/-! #### Cores -/

@[simp] theorem jcore_updCore (w : Work) (k : Nat) (f : JCore → JCore) : (w.updCore k f).jcore k = f (w.jcore k) := tblGet_tblUpd_same ..

theorem jcore_updCore_other (w : Work) {k j : Nat} (f : JCore → JCore) (hj : j ≠ k) : (w.updCore k f).jcore j = w.jcore j :=
  tblGet_tblUpd_other _ _ _ _ _ hj

theorem jcore_of_jnr (h : w'.jnr.cores = w.jnr.cores) (j : Nat) : w'.jcore j = w.jcore j := congrArg (fun t :
    Tbl JCore => tblGet ({} : JCore) t j) h

theorem coreFaultOp_none (hrun : w.jnr.state = .running)
    (h : (w.jcore k).up = false ∧ (w.jcore k).restarting = false ∨ why = .beatNotAcknowledged ∧ (w.jcore k).events < 2) :
    coreFaultOp e k why w = w := by
  unfold coreFaultOp
  refine if_pos ?_
  unfold coreExecutes
  rw [hrun]
  obtain ⟨hup, hre⟩ | ⟨rfl, hev⟩ := h
  · simp [hup, hre]
  · simp [hev]

/-- A core with a fault, before its programs and images go. -/
def faulted (e : Block) (k : Nat) (w : Work) : Work :=
  let w := w.updCore k fun y => { y with faults := satInc y.faults }
  let guilty := (corePrograms w k).find? fun p => p.replaying
  captureEvent e
    { trigger := St.suspectConfirmed, slice := ((guilty.map Prog.slice).getD 0xFF), ctx := guilty.map Prog.ctx,
      cmd := guilty.map Prog.cmd, suspects := suspectsOf w k, concern := .cores } w

theorem Captures.jnr (h : Captures w w') : w'.jnr = w.jnr := by
  obtain ⟨k, n, rfl, -⟩ := h
  rfl

/-- A fault counts, and is captured. -/
theorem faulted_counts (e : Block) (k : Nat) (w : Work) :
    (faulted e k w).jnr = (w.updCore k fun y => { y with faults := satInc y.faults }).jnr ∧ (faulted e k w).cap.seq = w.cap.seq + 1 :=
  ⟨(captureEvent_captures ..).jnr, captureEvent_seq ..⟩

/-- The programs `ps` of a core whose fault holds them. -/
def suspectAll (ps : List Prog) (w : Work) : Work :=
  ps.foldl (fun w p => w.updProg p.pid fun q => { q with suspect := true, current := false, exitA0 := none }) w

/-- A program held as a suspect. -/
def Prog.held (p : Prog) : Prog := { p with suspect := true, current := false, exitA0 := none }

theorem suspectAll_progs (ps : List Prog) (w : Work) : suspectAll ps w =
    { w with jnr.progs := ps.foldl (fun l p => l.map fun q => if q.pid = p.pid then q.held else q) w.jnr.progs } := by
  induction ps generalizing w with
  | nil => rfl
  | cons p ps ih => exact ih _

/-- A core that stops for a fault, and is to be restarted. -/
def JCore.faulty (x : JCore) (q : Nat) : JCore :=
  { x with faults := satInc x.faults, event := q, up := false, restarting := true, events := 0, kept := [] }

section

variable (hrun : w.jnr.state = .running) (hbeat : why = .beatNotAcknowledged → 2 ≤ (w.jcore k).events)

include hrun hbeat

/-- A fault of a core that executes code is one. -/
theorem coreFault_counts (h : (w.jcore k).up = true ∨ (w.jcore k).restarting = true) :
    ¬(!coreExecutes e w k || (why == .beatNotAcknowledged && decide ((w.jcore k).events < 2))) = true := by
  have hexec : coreExecutes e w k = true := by
    unfold coreExecutes
    rw [hrun]
    obtain h | h := h <;> simp [h]
  rw [hexec]
  by_cases hwhy : why = .beatNotAcknowledged
  · simpa [hwhy, Nat.lt_iff_add_one_le] using hbeat hwhy
  · simp [hwhy]

/-- A fault while the core restarts resets the cluster (R566). -/
theorem coreFaultOp_resets (hre : (w.jcore k).restarting = true) : coreFaultOp e k why w = resetJoiner (faulted e k w) := by
  unfold coreFaultOp
  dsimp only
  rw [if_neg (coreFault_counts hrun hbeat (.inr hre)), if_pos hre]
  rfl

/-- A fault of a core on which no program is replayed holds its programs (R565, R567). -/
theorem coreFaultOp_stops (hup : (w.jcore k).up = true) (hre : (w.jcore k).restarting = false)
    (hno : ∀ p ∈ corePrograms w k, p.replaying = false) :
    let w' := coreFaultOp e k why w
    w'.jnr.state = w.jnr.state ∧ w'.cap.seq = w.cap.seq + 1 ∧ w'.jcore k = (w.jcore k).faulty (w.cap.seq + 1) ∧
    (∀ j, j ≠ k → w'.jcore j = w.jcore j) ∧ w'.jnr.progs = (suspectAll (corePrograms w k) w).jnr.progs := by
  obtain ⟨hjnr, hseq⟩ := faulted_counts e k w
  have hprogs : corePrograms (w.updCore k fun y => { y with faults := satInc y.faults }) k = corePrograms w k := rfl
  have hnone : ((corePrograms w k).find? fun p => p.replaying) = none :=
    List.find?_eq_none.2 fun p hp h => Bool.false_ne_true ((hno p hp).symm.trans h)
  intro w'
  have hw' : w' = coreFaultOp e k why w := rfl
  clear_value w'
  unfold coreFaultOp at hw'
  rw [if_neg (coreFault_counts hrun hbeat (.inl hup))] at hw'
  extract_lets v guilty v₁ q v₂ v₃ v₄ at hw'
  have hguilty : guilty = none := hnone
  have hv₁ : v₁ = faulted e k w := rfl
  have hv₄ : v₄ = suspectAll (corePrograms v₃ k) v₃ := rfl
  have hcap : v₃.cap = v₁.cap := rfl
  have hjnr₃ : v₃.jnr = (v₁.updCore k fun y => { y with
    event := q, up := false, restarting := true, events := 0, kept := [], replayFault := y.replayFault || guilty.isSome,
    confirmed := if guilty.isSome then satInc y.confirmed else y.confirmed }).jnr := rfl
  have hq : q = w.cap.seq + 1 := hseq
  rw [if_neg (by rw [hre]; decide), hguilty] at hw'
  dsimp only at hw'
  clear_value v₄ v₃ v₂ v₁ q guilty
  rw [hguilty, hq, hv₁] at hjnr₃
  have hcore : corePrograms v₃ k = corePrograms w k := by
    rw [corePrograms, hjnr₃, Work.updCore, hjnr]
    rfl
  have hjnr' : w'.jnr.state = v₃.jnr.state ∧ w'.jnr.cores = v₃.jnr.cores ∧ w'.cap = v₃.cap ∧
      w'.jnr.progs = (suspectAll (corePrograms w k) w).jnr.progs := by
    rw [hw', hv₄, hcore, suspectAll_progs, suspectAll_progs, hjnr₃, Work.updCore, hjnr]
    exact ⟨rfl, rfl, rfl, rfl⟩
  obtain ⟨hst, hcores, hcap', hprogs'⟩ := hjnr'
  have hcores₃ : v₃.jnr.cores = ((w.updCore k fun y => { y with faults := satInc y.faults }).updCore k fun y => { y with
      event := w.cap.seq + 1, up := false, restarting := true, events := 0, kept := [], replayFault := y.replayFault || false,
      confirmed := y.confirmed }).jnr.cores := by
    rw [hjnr₃, Work.updCore, hjnr]
    rfl
  refine ⟨by rw [hst, hjnr₃, Work.updCore, hjnr]; rfl, by rw [hcap', hcap, hv₁, hseq], ?_, fun j hj => ?_, hprogs'⟩
  · rw [jcore_of_jnr (hcores.trans hcores₃), jcore_updCore, jcore_updCore, Bool.or_false]
    rfl
  · rw [jcore_of_jnr (hcores.trans hcores₃), jcore_updCore_other _ _ hj, jcore_updCore_other _ _ hj]

end

/-! #### Restarts (R566) -/

/-- A restart that fails resets the cluster. -/
theorem coreRestarted_fails {intact : Bool} (hre : (w.jcore k).restarting = true)
    (hbad : intact = false ∨ imageCheck (imageSource w k) ≠ cLoaded) : coreRestarted k intact w = resetJoiner w := by
  have hfails : (!intact || imageCheck (imageSource w k) != cLoaded) = true := by
    obtain h | h := hbad <;> simp [h]
  unfold coreRestarted
  dsimp only
  rw [hre, if_neg (by decide), if_pos hfails]

/-- A good restart brings the core back, to replay its suspects. -/
theorem coreRestarted_good (hrun : w.jnr.state = .running) (hre : (w.jcore k).restarting = true)
    (hgood : imageCheck (imageSource w k) = cLoaded) :
    (coreRestarted k true w).jcore k = { w.jcore k with
      up := true, restarting := false, replay := true, kept := [], hart := firmwareHart (imageSource w k) } ∧
    ∀ j, j ≠ k → (coreRestarted k true w).jcore j = w.jcore j := by
  have hpass : ¬(!true || imageCheck (imageSource w k) != cLoaded) = true := by simp [hgood]
  have hruns : jnrRuns w = true := by simp [jnrRuns, hrun]
  have hcores : (copyImage k (imageSource w k) w.jnr).cores = w.jnr.cores := by
    unfold copyImage
    split <;> rfl
  unfold coreRestarted
  dsimp only
  rw [hre, if_neg (by decide), if_neg hpass, hruns]
  refine ⟨?_, fun j hj => ?_⟩
  · rw [jcore_updCore, jcore_of_jnr hcores]
  · rw [jcore_updCore_other _ _ hj, jcore_of_jnr hcores]

end

/-- Settles O34: the faults of a core by what it was doing, and the ends of its restart. -/
theorem coreFaults : Obligations.CoreFaults := by
  unfold Obligations.CoreFaults
  intro s k why h hrun
  have hfault {P : Block → Prop} (hP : P (boxReset (s.core.updWork (coreFaultOp s.core k why)))) : Acts (.coreFault k why) s P :=
    acts_of (f := fun b => boxReset (b.updWork (coreFaultOp b k why))) rfl h hP
  have hrestart {P : Block → Prop} (intact : Bool) (hP : P (boxReset (s.core.updWork (coreRestarted k intact)))) :
      Acts (.coreRestartDone k intact) s P :=
    acts_of (f := fun b => boxReset (b.updWork (coreRestarted k intact))) rfl h hP
  refine ⟨fun hno hdue => hfault ?none, fun hbeat => ⟨fun hup hre hempty => hfault ?stops, fun p hup hre hp hk hgone hrep => hfault ?holds,
    fun hre => hfault ?resets⟩, fun hre => ⟨fun hgood => hrestart _ ?good, fun intact hbad => hrestart _ ?fails⟩⟩
  case none =>
    rw [Block.updWork, coreFaultOp_none hrun hno]
    exact boxReset_none hdue
  case stops =>
    obtain ⟨hst, hseq, hcore, hothers, -⟩ := coreFaultOp_stops (e := s.core) hrun hbeat hup hre (by rw [hempty]; exact fun _ h => nomatch h)
    have hcore' : (s.core.updWork (coreFaultOp s.core k why)).work.jcore k = _ := hcore
    rw [boxReset_jnr, boxReset_cap, boxReset_jcore, hcore']
    exact ⟨rfl, rfl, rfl, rfl, rfl, fun j hj => by rw [boxReset_jcore]; exact hothers j hj, hst.trans hrun, hseq⟩
  case holds =>
    have honly : corePrograms s.core.work k = [p] := by simp [corePrograms, hp, hk, hgone]
    obtain ⟨-, -, -, -, hprogs⟩ := coreFaultOp_stops (e := s.core) hrun hbeat hup hre
      (by rw [honly]; exact fun q hq => (List.mem_singleton.1 hq) ▸ hrep)
    rw [boxReset_jnr]
    show (coreFaultOp s.core k why s.core.work).jnr.progs = _
    rw [hprogs, suspectAll_progs, honly, hp]
    simp [Prog.held]
  case resets =>
    obtain ⟨hjnr, hseq⟩ := faulted_counts s.core k s.core.work
    rw [boxReset_cap, boxReset_jnr]
    have hwork : (s.core.updWork (coreFaultOp s.core k why)).work = resetJoiner (faulted s.core k s.core.work) :=
      coreFaultOp_resets hrun hbeat hre
    have hbox := boxReset_boxes (b := s.core.updWork (coreFaultOp s.core k why)) (by rw [hwork]; rfl)
    rw [hwork]
    exact ⟨hseq, rfl, rfl, rfl, hbox.maint⟩
  case good =>
    obtain ⟨hcore, hothers⟩ := coreRestarted_good hrun hre hgood
    exact ⟨by rw [boxReset_jcore]; exact hcore, fun j hj => by rw [boxReset_jcore]; exact hothers j hj⟩
  case fails =>
    rw [boxReset_jnr, Block.updWork, coreRestarted_fails hre hbad]
    exact ⟨rfl, rfl, rfl⟩

end Sys2Proof.Machine

end

-- Proofs about the snapshot and the rounds of the copy engine (R260 to R267, R293).
section

namespace Sys2Proof.Machine

/-! ### The snapshot and the rounds of the copy engine (R260 to R267, R293) -/

section

variable {e b : Block} {w w' v : Work} {n : Nat}

/-! #### Shares and grants (R260 to R264) -/

/-- What a snapshot decides of slots and lends leaves the slices, the ports and RR. -/
structure KeepsShares (w w' : Work) : Prop where
  slices : w'.slices = w.slices
  ports : w'.ports = w.ports
  rr : w'.rr = w.rr

theorem KeepsShares.refl (w : Work) : KeepsShares w w := ⟨rfl, rfl, rfl⟩

theorem KeepsShares.trans (h : KeepsShares w v) (g : KeepsShares v w') : KeepsShares w w' :=
  ⟨g.slices.trans h.slices, g.ports.trans h.ports, g.rr.trans h.rr⟩

theorem KeepsShares.foldl {α : Type} {f : Work → α → Work} (hf : ∀ v x, KeepsShares v (f v x)) (l : List α) (w : Work) :
    KeepsShares w (l.foldl f w) :=
  List.foldlRecOn (motive := KeepsShares w) l f (.refl w) fun v hv x _ => hv.trans (hf v x)

theorem Unbinds.keepsShares (h : Unbinds w w') : KeepsShares w w' := ⟨h.slices, h.ports, (congrArg Work.rr h.frame :)⟩

theorem chooseSlot_keepsShares (k : Nat) (w : Work) : KeepsShares w (chooseSlot k w) :=
  have hslot : KeepsShares w (w.updSlot k fun y => { y with chosen := true }) := ⟨rfl, rfl, rfl⟩
  hslot.trans (Unbinds.foldl (fun v (d : Cmd) => unstageCmd_unbinds d.id v) _ _).keepsShares

theorem serveClaim_keepsShares (e : Block) (a : Work × SlotBudget) (x : Claim) : KeepsShares a.1 (serveClaim e a x).1 := by
  unfold serveClaim
  extract_lets u free
  split
  · exact .refl _
  · split
    · exact ⟨rfl, rfl, rfl⟩
    · split
      · exact .refl _
      · split
        next k _ =>
          have hslot (v : Work) : KeepsShares v (v.updSlot k fun y => { y with next := some (x.slice, x.ctx) }) := ⟨rfl, rfl, rfl⟩
          exact (chooseSlot_keepsShares k u).trans (hslot _)
        · exact .refl _

theorem planSlots_keepsShares (e : Block) (w : Work) : KeepsShares w (planSlots e w) := by
  unfold planSlots
  extract_lets asked u
  have hu : KeepsShares w u := KeepsShares.foldl (fun v k => chooseSlot_keepsShares k v) asked w
  exact List.foldlRecOn (motive := fun a : Work × SlotBudget => KeepsShares w a.1) (claims u) (serveClaim e) hu
    fun a ha x _ => ha.trans (serveClaim_keepsShares e a x)

theorem planLends_keepsShares (w : Work) : KeepsShares w (planLends w) := by
  refine KeepsShares.foldl (fun v c => ?_) _ w
  unfold lendFor
  split
  · exact .refl v
  · refine KeepsShares.foldl (fun v h => ?_) _ v
    split <;> exact ⟨rfl, rfl, rfl⟩

/-- A slice that a table of slices names, each changed by `f` once or more. -/
theorem slice_foldl_updSlice {f : Nat → Slice → Slice} {Q : Slice → Prop} (hagain : ∀ y, Q y → Q (f n y)) :
    ∀ {l : Tbl Slice} {w : Work}, n ∈ l.map Prod.fst → Q (f n (w.slice n)) →
        Q ((l.foldl (fun w x => w.updSlice x.1 (f x.1)) w).slice n) := by
  have hkeep : ∀ (l : Tbl Slice) (w : Work), Q (w.slice n) → Q ((l.foldl (fun w x => w.updSlice x.1 (f x.1)) w).slice n) := by
    intro l w hw
    refine List.foldlRecOn (motive := fun v : Work => Q (v.slice n)) l _ hw fun v hv x _ => ?_
    by_cases hx : n = x.1
    · subst hx
      rw [slice_updSlice]
      exact hagain _ hv
    · rwa [slice_updSlice_other _ _ _ _ hx]
  intro l
  induction l with
  | nil => exact fun hmem => nomatch hmem
  | cons x l ih =>
    intro w hmem hstart
    rw [List.foldl_cons]
    by_cases hx : n = x.1
    · subst hx
      refine hkeep l _ ?_
      rwa [slice_updSlice]
    · refine ih ((List.mem_cons.1 hmem).resolve_left hx) ?_
      rwa [slice_updSlice_other _ _ _ _ hx]

theorem slice_foldl_other {f : Nat → Slice → Slice} {l : Tbl Slice} (hmem : n ∉ l.map Prod.fst) (w : Work) :
    (l.foldl (fun w x => w.updSlice x.1 (f x.1)) w).slice n = w.slice n := by
  refine List.foldlRecOn (motive := fun v : Work => v.slice n = w.slice n) l _ rfl fun v hv x hx => ?_
  have hne : n ≠ x.1 := fun h => hmem (h.symm ▸ List.mem_map_of_mem hx)
  rw [slice_updSlice_other _ _ _ _ hne, hv]

/-- Whatever every slice becomes, one that no table names is the default. -/
theorem slice_foldl_all {f : Nat → Slice → Slice} {Q : Slice → Prop} (w : Work) (hnone : Q {}) (hstart : Q (f n (w.slice n)))
    (hagain : ∀ y, Q y → Q (f n y)) : Q ((w.slices.foldl (fun w x => w.updSlice x.1 (f x.1)) w).slice n) := by
  by_cases hmem : n ∈ w.slices.map Prod.fst
  · exact slice_foldl_updSlice hagain hmem hstart
  · rw [slice_foldl_other hmem]
    rw [show w.slice n = {} from tblGet_of_not_mem hmem]
    exact hnone

/-- A port among those that are changed one after another. -/
theorem port_foldl_mem {f : Work → Nat → Port → Port} {q : Nat} {P : Port → Prop} (hf : ∀ w x, P (f w q x)) {l : List Nat} (hq : q ∈ l) :
    ∀ w : Work, P ((l.foldl (fun w q => w.updPort q (f w q)) w).port q) := by
  have hkeep (l : List Nat) (w : Work) (hw : P (w.port q)) : P ((l.foldl (fun w q => w.updPort q (f w q)) w).port q) := by
    refine List.foldlRecOn (motive := fun v : Work => P (v.port q)) l _ hw fun v hv i _ => ?_
    by_cases hi : q = i
    · subst hi
      rw [port_updPort]
      exact hf v _
    · rwa [port_updPort_other _ _ _ _ hi]
  induction l with
  | nil => exact nomatch hq
  | cons i l ih =>
    intro w
    by_cases hi : q = i
    · subst hi
      refine hkeep l _ ?_
      rw [port_updPort]
      exact hf w _
    · exact ih ((List.mem_cons.1 hq).resolve_left hi) _

/-- Every slice takes its MAX_PRIORITY, and nothing else changes of what it has used and what it is owed. -/
theorem takeMaxPriority_keeps (e : Block) (w : Work) :
    (∀ n, ((takeMaxPriority e w).slice n).used = (w.slice n).used ∧ ((takeMaxPriority e w).slice n).deficit = (w.slice n).deficit) ∧
    { takeMaxPriority e w with slices := w.slices } = w := by
  have hslice (n : Nat) : (({ (takeMaxPriority e w).slice n with maxPrio := 0 } : Slice)) = { w.slice n with maxPrio := 0 } :=
    foldl_keeps (fun v : Work => ({ v.slice n with maxPrio := 0 } : Slice)) (fun v x => by
      by_cases hx : n = x.1
      · subst hx
        rw [slice_updSlice]
      · rw [slice_updSlice_other _ _ _ _ hx]) w.slices w
  refine ⟨fun n => ⟨(congrArg Slice.used (hslice n) :), (congrArg Slice.deficit (hslice n) :)⟩, ?_⟩
  unfold takeMaxPriority
  refine Eq.trans (foldl_keeps (fun v : Work => { v with slices := w.slices }) ?_ w.slices w) rfl
  intros
  rfl

/-- What a snapshot makes of a slice: it is charged, and with ready tiles it takes its quantum (R262). -/
def Slice.shared (demand : Bool) (quantum cap : Int) (y : Slice) : Slice :=
  let d := chargedDeficit y demand
  { y with deficit := if demand then min (d + quantum) cap else d, used := 0 }

theorem shared_idle (y : Slice) (quantum cap : Int) : (y.shared false quantum cap).deficit = min (y.deficit - (y.used : Int)) 0 := rfl

/-- What a snapshot decides for a port: the primary slice and the grants of the next beat where it serves, else none (R264). -/
def Port.planned (serves : Bool) (prim : Option Nat) (grants : List Nat) (x : Port) : Port :=
  if serves then { x with nextPrimary := prim, nextGrants := grants } else { x with nextPrimary := none, nextGrants := [] }

/-- What a snapshot charges, and what it leaves to a slice without ready tiles and to a port that does not serve. -/
theorem planGrants_plans (e : Block) (w : Work) :
    let w' := planGrants e w
    w'.rr = (w.rr + 1) % 64 ∧ (∀ n, (w'.slice n).used = 0) ∧
    (∀ n, sliceTiles w n = 0 → (w'.slice n).deficit = min ((w.slice n).deficit - ((w.slice n).used : Int)) 0) ∧
    ∀ p, p < 16 → (servingPorts w).contains p = false → (w'.port p).nextPrimary = none ∧ (w'.port p).nextGrants = [] := by
  intro w'
  have hw' : w' = planGrants e w := rfl
  clear_value w'
  unfold planGrants at hw'
  extract_lets ports p t rr demand wsum v bids bids' placed u at hw'
  have hslices : w'.slices = v.slices := by
    rw [hw']
    exact foldl_keeps Work.slices (by intros; rfl) (List.range 16) v
  have hslice (n : Nat) : w'.slice n = v.slice n := slice_congr hslices n
  have hv : v = w.slices.foldl (fun w x => w.updSlice x.1 (Slice.shared (demand.contains x.1)
      ((p * t * e.dct.weight x.1 / wsum : Nat) : Int) ((p * t * e.dct.defCap : Nat) : Int))) w := rfl
  refine ⟨by rw [hw'], fun n => ?_, fun n hn => ?_, fun q hq hno => ?_⟩
  · rw [hslice, hv]
    exact slice_foldl_all (f := fun n => Slice.shared (demand.contains n) ((p * t * e.dct.weight n / wsum : Nat) : Int)
      ((p * t * e.dct.defCap : Nat) : Int)) (Q := fun y => y.used = 0) w rfl rfl fun _ _ => rfl
  · rw [hslice, hv]
    have hidle : demand.contains n = false := by
      refine (Bool.not_eq_true _).mp fun h => ?_
      obtain ⟨-, hd⟩ := List.mem_filter.1 (List.contains_iff_mem.1 h)
      rw [hn] at hd
      exact absurd hd (by decide)
    by_cases hmem : n ∈ w.slices.map Prod.fst
    · have hfirst := slice_foldl_updSlice (n := n) (w := w) (f := fun n => Slice.shared (demand.contains n)
        ((p * t * e.dct.weight n / wsum : Nat) : Int) ((p * t * e.dct.defCap : Nat) : Int))
        (Q := fun y => y.used = 0 ∧ y.deficit = min ((w.slice n).deficit - ((w.slice n).used : Int)) 0)
        (fun y hy => ⟨rfl, by
          obtain ⟨hused, hdef⟩ := hy
          simp only [hidle, shared_idle, hused, hdef]
          omega⟩) hmem ⟨rfl, by rw [hidle, shared_idle]⟩
      exact hfirst.2
    · rw [slice_foldl_other (f := fun n => Slice.shared (demand.contains n) ((p * t * e.dct.weight n / wsum : Nat) : Int)
        ((p * t * e.dct.defCap : Nat) : Int)) hmem, show w.slice n = {} from tblGet_of_not_mem hmem]
      rfl
  · have hnot : ports.contains q = false := hno
    have hport : w'.port q = u.port q := by rw [hw']; rfl
    have hu : u = (List.range 16).foldl (fun w q => w.updPort q (Port.planned (ports.contains q)
        ((placed.find? fun y => y.1 == q).map Prod.snd) (grantList w rr q ((placed.find? fun y => y.1 == q).map Prod.snd) bids'))) v := rfl
    clear hw' hslices hslice hv
    clear_value u placed bids' bids v wsum demand ports rr
    have hall := port_foldl_mem (f := fun w q => Port.planned (ports.contains q) ((placed.find? fun y => y.1 == q).map Prod.snd)
      (grantList w rr q ((placed.find? fun y => y.1 == q).map Prod.snd) bids')) (P := fun x => x.nextPrimary = none ∧ x.nextGrants = [])
      (fun w x => by rw [hnot]; exact ⟨rfl, rfl⟩) (List.mem_range.2 hq) v
    rw [hport, hu]
    exact hall

theorem takeSnapshot_takes (b : Block) :
    let b' := takeSnapshot b
    b'.dct = { b.dct with taken := b.dct.vals } ∧ b'.work.rr = (b.work.rr + 1) % 64 ∧ (∀ n, (b'.work.slice n).used = 0) ∧
    (∀ n, sliceTiles b.work n = 0 →
      (b'.work.slice n).deficit = min ((b.work.slice n).deficit - ((b.work.slice n).used : Int)) 0) ∧
    (∀ p, p < 16 → (servingPorts b.work).contains p = false → (b'.work.port p).nextPrimary = none ∧ (b'.work.port p).nextGrants = []) ∧
    { b' with work := b.work, dct := b.dct } = b := by
  let e := takeParams b
  obtain ⟨hslice, hframe⟩ := takeMaxPriority_keeps e b.work
  generalize hv : takeMaxPriority e b.work = v at hslice hframe
  obtain ⟨hrr, hused, hidle, hports⟩ := planGrants_plans e v
  generalize hu : planGrants e v = u at hrr hused hidle hports
  have hkeep : KeepsShares u (planSlots e (planLends u)) := (planLends_keepsShares u).trans (planSlots_keepsShares e _)
  have hb : takeSnapshot b = { e with work := planSlots e (planLends u) } := by
    rw [← hu, ← hv, takeSnapshot]
    rfl
  clear hu hv
  have htiles (n : Nat) : sliceTiles v n = sliceTiles b.work n := by
    have hcmds : v.cmds = b.work.cmds := (congrArg Work.cmds hframe :)
    have htiles : v.tiles = b.work.tiles := (congrArg Work.tiles hframe :)
    have hslots : v.slots = b.work.slots := (congrArg Work.slots hframe :)
    have hready : readyTiles v = readyTiles b.work := by
      funext c
      simp only [readyTiles, htiles]
    simp only [sliceTiles, hready, Work.isResident, Work.residentSlot, hcmds, hslots]
  have hserving : servingPorts v = servingPorts b.work := by
    have : v.ports = b.work.ports := (congrArg Work.ports hframe :)
    simp only [servingPorts, port_congr this]
  dsimp only
  rw [hb]
  generalize planSlots e (planLends u) = x at hkeep
  refine ⟨rfl, ?_, fun n => ?_, fun n hn => ?_, fun p hp hno => ?_, rfl⟩
  · rw [hkeep.rr, hrr, show v.rr = b.work.rr from (congrArg Work.rr hframe :)]
  · rw [slice_congr hkeep.slices, hused]
  · rw [slice_congr hkeep.slices, hidle n ((htiles n).trans hn), (hslice n).1, (hslice n).2]
  · rw [port_congr hkeep.ports]
    exact hports p hp (by rw [hserving]; exact hno)

/-! #### A round of the copy engine (R182, R267, R293) -/

variable {c : Cmd}

theorem moveOrder_nil (hcmds : w.cmds = []) (n : Nat) : moveOrder w n = [] := by
  rw [moveOrder, hcmds]
  rfl

theorem copyRoundOp_none (hcmds : w.cmds = []) : copyRoundOp e n w = w := by
  unfold copyRoundOp
  rw [moveOrder_nil hcmds, List.foldl_nil]
  exact if_pos (by rw [hasMoves, moveOrder_nil hcmds]; rfl)

/-- One COPY that moves, of a slice that may, with nothing of it under way. -/
structure OneCopy (e : Block) (n : Nat) (c : Cmd) (w : Work) : Prop where
  cmds : w.cmds = [c]
  op : c.op = some .copy
  slice : c.slice = some n
  phase : c.phase = .running
  open_ : c.endStatus = none
  free : c.suspended = false
  aux : c.aux = []
  reqs : w.fab.reqs = []
  active : (w.slice n).state = .active
  runs : (w.ctx n c.ctx).stopped = false
  room : memShut e w n = false
  left : c.bytesDone < moveLen c

theorem OneCopy.cmd (h : OneCopy e n c w) : w.cmd c.id = some c := by
  rw [Work.cmd, h.cmds]
  simp

theorem OneCopy.moving (h : OneCopy e n c w) : moving w c = true := by
  unfold Machine.moving
  rw [h.phase, h.open_, h.slice]
  simp [h.runs]

theorem OneCopy.movable (h : OneCopy e n c w) : movable e w n c = true := by
  unfold Machine.movable
  rw [h.moving, h.free, h.room]
  simp [h.left]

theorem OneCopy.order (h : OneCopy e n c w) (m : Nat) : moveOrder w m = if m = n then [c] else [] := by
  unfold moveOrder
  rw [h.cmds, List.filter_cons, h.slice, h.op, h.phase, List.filter_nil]
  by_cases hm : m = n
  · simp [hm, List.isort, List.insertBy]
  · simp [hm, Ne.symm hm, List.isort]

theorem OneCopy.turn (h : OneCopy e n c w) : hasMoves e w n = true ∧ copyTurn e w n = true := by
  have hmoves (m : Nat) : hasMoves e w m = decide (m = n) := by
    rw [hasMoves, h.order]
    by_cases hm : m = n
    · subst hm
      simp [h.movable]
    · simp [hm]
  refine ⟨by simp [hmoves], List.all_eq_true.2 fun m _ => ?_⟩
  rw [hmoves]
  by_cases hm : m = n
  · simp [hm]
  · simp [hm]

/-- Nothing has been read that could be written. -/
theorem OneCopy.drained (h : OneCopy e n c w) : drainReads e c.id ((copyReads w c.id).length + 1) w = w := by
  have hnone : copyReads w c.id = [] := by rw [copyReads, h.reqs]; rfl
  have hfinish : finishMove e c.id w = w := by
    unfold finishMove
    rw [h.cmd]
    dsimp only
    rw [h.slice]
    dsimp only
    rw [h.moving, h.aux, if_neg (by rw [List.isEmpty_nil]; exact Bool.false_ne_true)]
  rw [hnone, List.length_nil, drainReads, h.cmd]
  dsimp only
  rw [h.slice]
  dsimp only
  rw [hnone]
  exact hfinish

/-- What the round of a COPY asks for now (R267, R293). -/
def copyAsks (e : Block) (n : Nat) (c : Cmd) (w : Work) : Nat :=
  memRoom e w n (objReq e (w.obj (moveSrc c).1) .read ((moveSrc c).2 + c.bytesDone) 1 [] (.copyRead c.id)).addr.toNat
    (min 65536 (moveLen c - c.bytesDone))

/-- A chunk of a COPY is read. -/
def readChunk (e : Block) (n : Nat) (c : Cmd) (w : Work) : Work :=
  chargeBytes e n (copyAsks e n c w) (issue e (some n)
    (objReq e (w.obj (moveSrc c).1) .read ((moveSrc c).2 + c.bytesDone) (copyAsks e n c w) [] (.copyRead c.id))
    (w.updCmd c.id fun d => { d with bytesDone := c.bytesDone + copyAsks e n c w }))

theorem OneCopy.round (h : OneCopy e n c w) (hweight : e.dct.weight n = 1) :
    copyRoundOp e n w = { readChunk e n c w with copyLast := n } := by
  have horder : moveOrder w n = [c] := by rw [h.order, if_pos rfl]
  unfold copyRoundOp
  rw [horder, List.foldl_cons, List.foldl_nil, h.drained]
  dsimp only
  rw [horder, h.turn.1, h.turn.2, if_neg (by decide), hweight, roundBytes, hweight, List.foldl_cons, List.foldl_nil]
  have hsome : (moveSome e c.id n 1 (copyChunk * 1) w).1 = readChunk e n c w := by
    rw [moveSome, h.cmd]
    dsimp only
    rw [h.movable, h.op, if_neg (by decide), if_pos (by decide), if_pos (by decide), Nat.mul_one, ← Nat.min_assoc, Nat.min_self]
    rfl
  rw [hsome]

theorem readChunk_reads (h : OneCopy e n c w) :
    let w' := readChunk e n c w
    w'.cmds = [{ c with bytesDone := c.bytesDone + copyAsks e n c w }] ∧
    ∃ r, w'.fab.reqs = [r] ∧ r.op = .read ∧ r.len = copyAsks e n c w ∧ r.why = .copyRead c.id ∧ r.owner = some n ∧
      r.addr = (objReq e (w.obj (moveSrc c).1) .read ((moveSrc c).2 + c.bytesDone) (copyAsks e n c w) [] (.copyRead c.id)).addr := by
  unfold readChunk
  generalize hr : objReq e _ _ _ _ _ _ = r
  generalize copyAsks e n c w = k at hr
  generalize hv : (w.updCmd c.id fun d => { d with bytesDone := c.bytesDone + k }) = v
  have hcmds : v.cmds = [{ c with bytesDone := c.bytesDone + k }] := by
    rw [← hv, Work.updCmd, h.cmds]
    simp
  have hopen : mayIssue v (some n) r.dev = true := mayIssue_active (s := n) (w := v) (by rw [← hv]; exact h.active) r.dev
  have hreqs : v.fab.reqs = [] := by rw [← hv]; exact h.reqs
  refine ⟨(issue_cmds v e (some n) r).trans hcmds, ?_⟩
  show ∃ x, (issue e (some n) r v).fab.reqs = [x] ∧ _
  rw [issue, if_pos hopen, issueRaw]
  simp only [Work.updFab_fab, markSent_fab, put_reqs, hreqs, List.nil_append]
  refine ⟨_, rfl, ?_⟩
  rw [← hr]
  exact ⟨rfl, rfl, rfl, rfl, rfl⟩

end

/-- Settles O30: the snapshot's parameters, shares and grants, and the round of a slice with one COPY. -/
theorem snapshotsAndCopyRounds : Obligations.SnapshotsAndCopyRounds := by
  unfold Obligations.SnapshotsAndCopyRounds
  refine ⟨fun s h => acts_of rfl h (takeSnapshot_takes s.core), fun s n h => ⟨?round,
      fun hnone => leaves_of rfl h (copyRoundOp_none hnone)⟩⟩
  case round =>
    intro c hcmds hop hslice hphase hopen hfree haux hreqs hactive hruns hroom hleft hweight
    have hc : OneCopy s.core n c s.core.work :=
      ⟨hcmds, hop, hslice, hphase, hopen, hfree, haux, hreqs, hactive, hruns, hroom, hleft⟩
    refine does_of rfl h ?_
    rw [hc.round hweight]
    obtain ⟨hcmds', hreq⟩ := readChunk_reads hc
    exact ⟨hcmds', rfl, hreq⟩

end Sys2Proof.Machine

end

-- Proofs about what a tidy program does (R424 to R435).
section

namespace Sys2Proof.Machine

/-! ### What a tidy program does (R424 to R435) -/

section

variable {e : Block} {w w' v : Work} {p q : Prog} {pid : Nat} {s : State} {c : Cmd} {n : Nat}

/-! #### Programs -/

theorem prog_congr (h : w'.jnr.progs = w.jnr.progs) (pid : Nat) : w'.prog pid = w.prog pid := by rw [Work.prog, h, Work.prog]

theorem prog_pid (h : w.prog pid = some p) : p.pid = pid ∧ p.gone = false := by
  have := List.find?_some h
  simpa using this

/-- A program that stays on its core, changed. -/
theorem prog_updProg {f : Prog → Prog} (h : w.prog pid = some p) (hf : ∀ x, (f x).pid = x.pid ∧ (f x).gone = x.gone) :
    (w.updProg pid f).prog pid = some (f p) := by
  have hp := prog_pid h
  have hsel (x : Prog) : ((if x.pid = pid then f x else x).pid == pid && !(if x.pid = pid then f x else x).gone) =
      (x.pid == pid && !x.gone) := by
    split
    · rw [(hf x).1, (hf x).2]
    · rfl
  have hfind : (w.updProg pid f).prog pid = (w.prog pid).map fun x => if x.pid = pid then f x else x := by
    unfold Work.prog Work.updProg
    dsimp only
    rw [List.find?_map]
    congr 1
    exact congrArg (fun q => List.find? q w.jnr.progs) (funext hsel)
  rw [hfind, h, Option.map_some, if_pos hp.1]

/-- No program of a number is on a core. -/
def OffCore (pid : Nat) (w : Work) : Prop := ∀ x ∈ w.jnr.progs, x.pid = pid → x.gone = true

theorem prog_none (h : OffCore pid w) : w.prog pid = none := by
  refine List.find?_eq_none.2 fun x hx hsel => ?_
  rw [Bool.and_eq_true, beq_iff_eq, Bool.not_eq_true'] at hsel
  exact absurd (h x hx hsel.1) (by rw [hsel.2]; decide)

theorem OffCore.congr (h : OffCore pid w) (hp : w'.jnr.progs = w.jnr.progs) : OffCore pid w' := fun x hx => h x (hp ▸ hx)

/-- A program that leaves its core is off it, and no other comes back. -/
theorem offCore_removeProgram (k : Nat) (w : Work) (h : OffCore pid w ∨ k = pid) : OffCore pid (removeProgram k w) := by
  unfold removeProgram
  cases hfind : w.jnr.progs.find? fun p => p.pid == k && !p.gone with
  | none =>
    obtain h | rfl := h
    · exact h
    · intro x hx hpid
      have hno := List.find?_eq_none.1 hfind x hx
      simpa [hpid] using hno
  | some p =>
    extract_lets busy progs
    have hprogs : ∀ x ∈ progs, x.pid = pid → x.gone = true := by
      intro x hx hpid
      unfold progs at hx
      split at hx
      · obtain ⟨y, hy, rfl⟩ := List.mem_map.1 hx
        by_cases hk : y.pid = k
        · rw [if_pos hk]
        · rw [if_neg hk] at hpid ⊢
          exact (h.resolve_right fun heq => hk (hpid.trans heq.symm)) y hy hpid
      · obtain ⟨hy, hne⟩ := List.mem_filter.1 hx
        refine (h.resolve_right ?_) x hy hpid
        rintro rfl
        simp [hpid] at hne
    intro x hx hpid
    change x ∈ (if p.current then progs.map _ else progs) at hx
    split at hx
    · obtain ⟨y, hy, rfl⟩ := List.mem_map.1 hx
      by_cases hk : some y.pid = (progs.find? fun q => q.core == p.core && !q.gone && !q.suspect).map Prog.pid
      · rw [if_pos hk] at hpid ⊢
        exact hprogs y hy hpid
      · rw [if_neg hk] at hpid ⊢
        exact hprogs y hy hpid
    · exact hprogs x hx hpid

theorem offCore_foldl {α : Type} {f : Work → α → Work} (hf : ∀ v x, OffCore pid v → OffCore pid (f v x)) (l : List α) (h : OffCore pid w) :
    OffCore pid (l.foldl f w) :=
  List.foldlRecOn (motive := OffCore pid) l f h fun v hv x _ => hf v x hv

/-! #### The stop of a command's work (R560) -/

theorem dropLoading_keeps (id : Nat) (w : Work) : { dropLoading id w with slices := w.slices } = w := by
  unfold dropLoading
  cases w.cmd id with
  | none => rfl
  | some c =>
    dsimp only
    cases c.slice with
    | none => rfl
    | some n =>
      dsimp only
      split <;> rfl

theorem killCmdTiles_keeps (id : Nat) (why : KillWhy) (w : Work) : { killCmdTiles id why w with ports := w.ports } = w := by
  unfold killCmdTiles
  refine Eq.trans (foldl_keeps (fun v : Work => { v with ports := w.ports }) ?_ _ w) rfl
  intros
  rfl

/-- The stop of a command's work leaves the commands, and puts no program back on a core. -/
theorem stopWork_offCore (id : Nat) (why : KillWhy) (h : OffCore pid w) : OffCore pid (stopWork id why w) := by
  have hunstage : (unstageCmd id w).jnr = w.jnr := (unstageCmd_unbinds id w).jnr
  have hkill := killCmdTiles_keeps id why (unstageCmd id w)
  have h₁ : OffCore pid (killCmdTiles id why (unstageCmd id w)) :=
    h.congr ((congrArg (fun v : Work => v.jnr.progs) hkill :).trans (congrArg Joiner.progs hunstage))
  have h₂ : OffCore pid (removeCmdPrograms id (killCmdTiles id why (unstageCmd id w))) :=
    offCore_foldl (f := fun w (x : Prog) => removeProgram x.pid w) (fun v x hv => offCore_removeProgram x.pid v (.inl hv)) _ h₁
  exact h₂.congr (congrArg (fun v : Work => v.jnr.progs) (dropLoading_keeps id _) :)

theorem removeCmdPrograms_cmds (id : Nat) (w : Work) : (removeCmdPrograms id w).cmds = w.cmds := by
  unfold removeCmdPrograms
  refine foldl_keeps (f := fun w (x : Prog) => removeProgram x.pid w) Work.cmds (fun v x => ?_) _ w
  exact (congrArg Work.cmds (removeProgram_keeps x.pid v) :)

theorem stopWork_keepsCmds (id : Nat) (why : KillWhy) (w : Work) : KeepsCmds w (stopWork id why w) := by
  refine (unstageCmd_unbinds id w).cmds.trans (.of_cmds ?_)
  rw [stopWork]
  exact (congrArg Work.cmds (dropLoading_keeps id _) :).trans ((removeCmdPrograms_cmds id _).trans
    (congrArg Work.cmds (killCmdTiles_keeps id why _) :))

/-- A fault that TEARDOWN_MASK leaves out ends its command alone (R559). -/
theorem faultWith_masked {covered port : Option Nat} {id b : Nat} {st : Status} {m : BitVec 64} (hc : w.cmd id = some c)
    (hs : c.slice = some n) (hend : c.endStatus = none) (hrun : w.run id = none) (hbit : maskBit st = some b)
    (hmask : (e.dct.teardownMask n).testBit b = false) :
    faultWith covered port e id st m w = (stopWork id .timeout (w.updCmd id fun d => { d with timer := none })).updCmd id fun d =>
      { d.endWith st with phase := .stopping, waiting := .none } := by
  unfold faultWith
  rw [hc]
  dsimp only
  rw [hs]
  dsimp only
  rw [hend, hbit, hrun, if_neg (fun h => nomatch h.2), if_neg (by decide), if_pos (.inr (.inl (by dsimp only; rw [hmask]; rfl)))]
  rfl

theorem faultWith_ends {covered port : Option Nat} {id b : Nat} {st : Status} {m : BitVec 64} (hc : w.cmd id = some c)
    (hs : c.slice = some n) (hend : c.endStatus = none) (hrun : w.run id = none) (hbit : maskBit st = some b)
    (hmask : (e.dct.teardownMask n).testBit b = false) :
    ((faultWith covered port e id st m w).cmd id).bind Cmd.endStatus = some st := by
  rw [faultWith_masked hc hs hend hrun hbit hmask]
  have hid := cmd_id w id c hc
  subst hid
  have hc' := cmd_updCmd w c.id (fun d : Cmd => { d with timer := none }) (fun _ => rfl)
  rw [hc, Option.map_some] at hc'
  obtain ⟨r, hr⟩ := (stopWork_keepsCmds c.id .timeout _).some hc'
  rw [cmd_updCmd _ c.id (fun d : Cmd => { d.endWith st with phase := .stopping, waiting := .none }) (fun _ => rfl), hr]
  show some (c.endStatus.getD st) = some st
  rw [hend]
  rfl

/-! #### What a program that can execute does -/

theorem onProg_runs {f : Prog → Work → Work} (hp : w.prog pid = some p) (hruns : progRuns w p = true) : onProg pid f w = f p w := by
  rw [onProg, hp]
  exact if_pos hruns

/-- What holds of a program that can execute its next instruction. -/
theorem progRuns_facts (hruns : progRuns w p = true) : p.suspect = false ∧ p.failing = false ∧ p.current = true := by
  simp only [progRuns, Bool.and_eq_true, Bool.not_eq_true'] at hruns
  obtain ⟨⟨⟨⟨⟨⟨⟨⟨⟨hcur, -⟩, hsus⟩, -⟩, -⟩, hfail⟩, -⟩, -⟩, -⟩, -⟩ := hruns
  exact ⟨hsus, hfail, hcur⟩

theorem exitProg_ends {a0 : BitVec 64} (hp : w.prog p.pid = some p) (hfail : p.failing = false) (hout : p.storesOut = 0)
    (hc : w.cmd p.cmd = some c) (hend : c.endStatus = none) :
    ((exitProg a0 p w).cmd p.cmd).bind Cmd.endStatus = some (if a0 = 0 then St.ok else St.tidyExit) ∧
        (exitProg a0 p w).prog p.pid = none := by
  have hexit := prog_updProg (f := fun q => { q with exitA0 := some a0 }) hp fun _ => ⟨rfl, rfl⟩
  have hop : exitProg a0 p w = endProgram { p with exitA0 := some a0 } (if a0 = 0 then St.ok else St.tidyExit)
      (w.updProg p.pid fun q => { q with exitA0 := some a0 }) := by
    rw [exitProg, finishExit, hexit]
    exact if_pos ⟨hout, by rw [show Prog.failing { p with exitA0 := some a0 } = p.failing from rfl, hfail]; rfl⟩
  rw [hop]
  have hcv : (w.updProg p.pid fun q => { q with exitA0 := some a0 }).cmd p.cmd = some c := hc
  generalize (w.updProg p.pid fun q => { q with exitA0 := some a0 }) = v at hcv
  have hkeep := removeProgram_keeps p.pid v
  have hoff := offCore_removeProgram (pid := p.pid) p.pid v (.inr rfl)
  unfold endProgram
  generalize removeProgram p.pid v = u at hkeep hoff
  refine ⟨?_, prog_none hoff⟩
  show ((u.updCmd p.cmd (Cmd.endWith _)).cmd p.cmd).bind Cmd.endStatus = _
  have hcmds : u.cmds = v.cmds := (congrArg Work.cmds hkeep :)
  rw [cmd_updCmd u p.cmd (Cmd.endWith _) fun _ => rfl, cmd_congr hcmds, hcv]
  show some (c.endStatus.getD _) = some _
  rw [hend]
  rfl

theorem switchProg_switches (hprogs : w.jnr.progs = [p, q]) (hne : q.pid ≠ p.pid) (hcore : q.core = p.core) (hpgone : p.gone = false)
    (hpsus : p.suspect = false) (hgone : q.gone = false) (hsus : q.suspect = false) :
    (switchProg p w).jnr.progs = [{ p with current := false }, { q with current := true }] ∧ { switchProg p w with jnr := w.jnr } = w := by
  have hnext : nextProg w p = q.pid := by
    simp [nextProg, corePrograms, hprogs, hcore, hpgone, hpsus, hgone, hsus]
  refine ⟨?_, rfl⟩
  rw [switchProg, hnext]
  simp [Work.updProg, hprogs, hne, hne.symm]

theorem trapProgram_traps (hp : w.prog pid = some p) (hc : w.cmd p.cmd = some c) (hs : c.slice = some n) (hend : c.endStatus = none)
    (hmask : (e.dct.teardownMask n).testBit 2 = false) (hrun : w.run p.cmd = none) :
    ((trapProgram e pid St.tidyFault w).cmd p.cmd).bind Cmd.endStatus = some St.tidyFault ∧
    (trapProgram e pid St.tidyFault w).prog pid = none := by
  have hkeep := removeProgram_keeps pid w
  have hoff := offCore_removeProgram (pid := pid) pid w (.inr rfl)
  have hop : trapProgram e pid St.tidyFault w = faultWith none none e p.cmd St.tidyFault 0 (removeProgram pid w) := by
    rw [trapProgram, hp]
    rfl
  rw [hop]
  generalize removeProgram pid w = v at hkeep hoff
  have hc' : v.cmd p.cmd = some c := (cmd_congr (congrArg Work.cmds hkeep :) p.cmd).trans hc
  have hrun' : v.run p.cmd = none := by
    rw [Work.run, show v.runs = w.runs from (congrArg Work.runs hkeep :)]
    exact hrun
  refine ⟨faultWith_ends hc' hs hend hrun' rfl hmask, prog_none ?_⟩
  rw [faultWith_masked hc' hs hend hrun' rfl hmask]
  exact stopWork_offCore p.cmd .timeout (w := v.updCmd p.cmd fun d => { d with timer := none }) hoff

/-! #### Memory (R424 to R427) -/

/-- A request of a program, of a slice that may issue it. -/
theorem programReq_issues {r : Req} (hp : w.prog p.pid = some p) (hopen : mayIssue w (some p.slice) r.dev = true) :
    (∃ x, (programReq e p r w).fab.reqs = w.fab.reqs ++ [x] ∧ x.op = r.op ∧ x.dev = r.dev ∧ x.addr = r.addr ∧ x.len = r.len ∧
      x.data = r.data ∧ x.amo = r.amo ∧ x.why = r.why ∧ x.pasid = if r.dev then 0 else (w.slice p.slice).pasid) ∧
    (programReq e p r w).prog p.pid = some { p with
      storesOut := if r.op = .write then p.storesOut + 1 else p.storesOut, lastLoad := if r.op = .write then p.lastLoad else none } := by
  generalize hv : chargeBytes e p.slice r.len w = v
  have hslice : ∃ x, v.slice p.slice = { w.slice p.slice with lvlMem := x } := ⟨_, by rw [← hv, chargeBytes, slice_updSlice]⟩
  have hprogs : v.jnr.progs = w.jnr.progs := by rw [← hv]; rfl
  have hreqs : v.fab.reqs = w.fab.reqs := by rw [← hv]; rfl
  obtain ⟨x, hx⟩ := hslice
  have hopen' : mayIssue v (some p.slice) r.dev = true := by
    rw [mayIssue, hx]
    exact hopen
  unfold programReq
  dsimp only
  rw [hv]
  refine ⟨?_, prog_updProg ((prog_congr (by rw [issue_jnr, hprogs]) p.pid).trans hp) fun _ => ⟨rfl, rfl⟩⟩
  show ∃ y, (issue e (some p.slice) r v).fab.reqs = _ ∧ _
  rw [issue, if_pos hopen', issueRaw]
  simp only [Work.updFab_fab, markSent_fab, put_reqs, hreqs]
  refine ⟨_, rfl, rfl, rfl, rfl, rfl, rfl, rfl, rfl, ?_⟩
  rw [hx]

theorem toNat_addr {a : Nat} (ha : a < 2 ^ 64) : (BitVec.ofNat 64 a).toNat = a := by rw [BitVec.toNat_ofNat, Nat.mod_eq_of_lt ha]

theorem reachOf_high {pages a m : Nat} (hpages : pages ≤ 44) (ha : 2 ^ 62 ≤ a) : reachOf pages a m =
    if a + m ≤ 2 ^ 62 + 2 ^ 48 then .device (a - 2 ^ 62) else if 2 ^ 63 ≤ a ∧ a + m ≤ 2 ^ 64 then .host (a - 2 ^ 63) else .nothing := by
  rw [reachOf, if_neg (by omega), if_neg (by omega)]
  simp only [ha, true_and]

theorem reachOf_own {pages a off m : Nat} (ha : a = 0x100000 + off) (hend : off + m ≤ pages * 4096) : reachOf pages a m = .own off := by
  have hoff : a - 0x100000 = off := by omega
  rw [reachOf, if_pos (by omega), hoff]

theorem reachOf_host {pages a m : Nat} (hpages : pages ≤ 44) (ha : 2 ^ 63 ≤ a) (hend : a + m ≤ 2 ^ 64) :
    reachOf pages a m = .host (a - 2 ^ 63) := by
  rw [reachOf_high hpages (by omega), if_neg (by omega)]
  exact if_pos ⟨ha, hend⟩

theorem accessOp_host {b : Block} {a m : Nat} {store : Option (List Byte)} (hp : b.work.prog pid = some p)
    (hruns : progRuns b.work p = true) (hm : 1 ≤ m) (hpages : p.pages ≤ 44) (ha : 2 ^ 63 ≤ a) (hend : a + m ≤ 2 ^ 64)
    (hal : aligned (a - 2 ^ 63) m = true) :
    accessOp pid a m store b = b.updWork (memoryAccess b p false (a - 2 ^ 63) m store) := by
  have hgo : ¬(!progRuns b.work p || m = 0) = true := by
    simp only [hruns, Bool.not_true, Bool.false_or, decide_eq_true_eq]
    omega
  unfold accessOp
  rw [hp]
  dsimp only
  rw [if_neg hgo, reachOf_host hpages ha hend]
  exact if_pos hal

theorem accessOp_own {b : Block} {a off m : Nat} {store : Option (List Byte)} (hp : b.work.prog pid = some p)
    (hruns : progRuns b.work p = true) (hm : 1 ≤ m) (ha : a = 0x100000 + off) (hend : off + m ≤ p.pages * 4096) :
    accessOp pid a m store b = b.updWork (ownAccess p off m store) := by
  have hgo : ¬(!progRuns b.work p || m = 0) = true := by
    simp only [hruns, Bool.not_true, Bool.false_or, decide_eq_true_eq]
    omega
  unfold accessOp
  rw [hp]
  dsimp only
  rw [if_neg hgo, reachOf_own ha hend]

/-! #### A program's own pages (R424, R426) -/

theorem length_localRead (k a m : Nat) (w : Work) : (localRead w k a m).length = m := by simp [localRead]

theorem localWrite_own {k a m : Nat} {d : List Byte} (hd : d.length = m) (w : Work) :
    localRead (localWrite k a d w) k a m = d ∧ OwnBytes w k a m (localWrite k a d w) := by
  subst hd
  refine ⟨localRead_localWrite k a d w, fun i hi => ?_⟩
  obtain hi | hi := hi
  · refine List.foldlRecOn (motive := fun m : Tbl Byte => tblGet 0 m i = tblGet 0 w.jnr.mem i) d.zipIdx _ rfl fun m hm x _ => ?_
    rw [tblGet_tblSet_other _ _ _ _ _ (by omega), hm]
  · obtain ⟨j, rfl⟩ := Nat.exists_eq_add_of_le hi
    rw [Nat.add_assoc _ d.length j, localWrite_get, if_neg (by omega)]

/-- The value that a load in the program's own pages, or an atomic instruction there, leaves with the program. -/
theorem loadBytes_loads (bs : List Byte) (hp : w.prog p.pid = some p) :
    (loadBytes p bs w).prog p.pid = some { p with lastLoad := some (St.ok, bs) } ∧ (loadBytes p bs w).jnr.mem = w.jnr.mem ∧
    { loadBytes p bs w with jnr := w.jnr } = w :=
  ⟨prog_updProg hp fun _ => ⟨rfl, rfl⟩, rfl, rfl⟩

/-- The reservation that LR or SC leaves with its program. -/
theorem reserve_reserves {x : Prog} (r : Option (Nat × Nat)) (hp : w.prog p.pid = some x) :
    (reserve p r w).prog p.pid = some { x with reserved := r } ∧ (reserve p r w).jnr.mem = w.jnr.mem ∧
    { reserve p r w with jnr := w.jnr } = w :=
  ⟨prog_updProg hp fun _ => ⟨rfl, rfl⟩, rfl, rfl⟩

/-- The value that LR or a failed SC leaves, with the reservation. -/
theorem reserve_loadBytes (bs : List Byte) (r : Option (Nat × Nat)) (hp : w.prog p.pid = some p) :
    let w' := reserve p r (loadBytes p bs w)
    w'.prog p.pid = some { p with lastLoad := some (St.ok, bs), reserved := r } ∧ w'.jnr.mem = w.jnr.mem ∧
    { w' with jnr := w.jnr } = w := by
  obtain ⟨hprog, hmem, hrest⟩ := loadBytes_loads bs hp
  generalize loadBytes p bs w = v at hprog hmem hrest
  obtain ⟨hprog', hmem', hrest'⟩ := reserve_reserves r hprog
  refine ⟨hprog', hmem'.trans hmem, ?_⟩
  exact (congrArg (fun u : Work => { u with jnr := w.jnr }) hrest').trans hrest

/-- An atomic instruction other than LR and SC: its result stands in memory, and its program has the old value. -/
theorem ownAmo_plain {fn : AmoFn} {off m : Nat} {x : BitVec 64} (hp : w.prog p.pid = some p) (hlr : fn ≠ .lr) (hsc : fn ≠ .sc) :
    let old := localRead w p.core (p.base + off) m
    let w' := ownAmo fn off m x p w
    localRead w' p.core (p.base + off) m = leBytes m (amoResult fn (BitVec.ofNat (8 * m) (leNat old)) (BitVec.ofNat
        (8 * m) x.toNat)).toNat ∧
    OwnBytes w p.core (p.base + off) m w' ∧ w'.prog p.pid = some { p with lastLoad := some (St.ok, old) } ∧
        { w' with jnr := w.jnr } = w := by
  intro old w'
  generalize hnew : leBytes m (amoResult fn (BitVec.ofNat (8 * m) (leNat old)) (BitVec.ofNat (8 * m) x.toNat)).toNat = new
  have hop : w' = loadBytes p old (localWrite p.core (p.base + off) new w) := by
    rw [← hnew]
    show ownAmo fn off m x p w = _
    unfold ownAmo
    split
    · exact absurd rfl hlr
    · exact absurd rfl hsc
    · rfl
  have hlength : new.length = m := by rw [← hnew, length_leBytes]
  obtain ⟨hread, hown⟩ := localWrite_own (k := p.core) (a := p.base + off) hlength w
  have hp' : (localWrite p.core (p.base + off) new w).prog p.pid = some p := hp
  rw [hop]
  exact ⟨hread, hown, (loadBytes_loads old hp').1, rfl⟩

theorem ownAmo_stores {off m : Nat} {x : BitVec 64} (hp : w.prog p.pid = some p) (hres : p.reserved = some (off, m)) :
    let w' := ownAmo .sc off m x p w
    localRead w' p.core (p.base + off) m = leBytes m (BitVec.ofNat (8 * m) x.toNat).toNat ∧ OwnBytes w p.core (p.base + off) m w' ∧
    w'.prog p.pid = some { p with lastLoad := some (St.ok, leBytes 8 0), reserved := none } ∧ { w' with jnr := w.jnr } = w := by
  have hlength := length_leBytes m (BitVec.ofNat (8 * m) x.toNat).toNat
  have hop : ownAmo .sc off m x p w =
      reserve p none (loadResult p 0 (localWrite p.core (p.base + off) (leBytes m (BitVec.ofNat (8 * m) x.toNat).toNat) w)) := by
    unfold ownAmo
    dsimp only [amoResult]
    rw [if_pos hres]
  rw [hop]
  clear hop
  generalize leBytes m (BitVec.ofNat (8 * m) x.toNat).toNat = new at hlength ⊢
  obtain ⟨hread, hown⟩ := localWrite_own (k := p.core) (a := p.base + off) hlength w
  have hp' : (localWrite p.core (p.base + off) new w).prog p.pid = some p := hp
  have hzero : (0 : BitVec 64).toNat = 0 := rfl
  rw [loadResult, hzero]
  obtain ⟨hprog, hmem, hrest⟩ := loadBytes_loads (leBytes 8 0) hp'
  generalize loadBytes p (leBytes 8 0) (localWrite p.core (p.base + off) new w) = v at hprog hmem hrest
  obtain ⟨hreserve, -, -⟩ := reserve_reserves none hprog
  have hmem' : (reserve p none v).jnr.mem = (localWrite p.core (p.base + off) new w).jnr.mem := hmem
  refine ⟨?_, ?_, hreserve, ?_⟩
  · rw [localRead, hmem']
    exact hread
  · intro i hi
    rw [hmem']
    exact hown i hi
  · exact congrArg (fun u : Work => { u with jnr := w.jnr }) hrest

theorem amoOp_own {a off : Nat} {fn : AmoFn} {v : AmoOperand} (ha : a = 0x100000 + off) (hend : off + amoWidth v ≤ p.pages * 4096)
    (hal : off % amoWidth v = 0) : amoOp e a fn v p w = ownAmo fn off (amoWidth v) (amoValue v) p w := by
  unfold amoOp
  dsimp only
  rw [reachOf_own ha hend]
  exact if_pos hal

theorem amoOp_traps {a : Nat} {fn : AmoFn} {v : AmoOperand} (hpages : p.pages ≤ 44) (ha : 2 ^ 62 ≤ a)
    (hno : fn = .lr ∨ fn = .sc ∨ amoWidth v = 4 ∨ 2 ^ 63 ≤ a) : amoOp e a fn v p w = trapProgram e p.pid St.tidyFault w := by
  unfold amoOp
  dsimp only
  rw [reachOf_high hpages ha]
  split
  next off h => split at h <;> [nomatch h; (split at h <;> nomatch h)]
  next d h =>
    split at h
    next hd =>
      refine if_neg fun hf => ?_
      have hfab : onFabric fn v = true := hf.1
      obtain rfl | rfl | hw | hhigh := hno
      · simp [onFabric] at hfab
      · simp [onFabric] at hfab
      · simp [onFabric, hw] at hfab
      · omega
    next => split at h <;> nomatch h
  next => rfl

theorem amoOp_device {a : Nat} {fn : AmoFn} {v : BitVec 64} (hpages : p.pages ≤ 44) (ha : 2 ^ 62 ≤ a) (hend : a + 8 ≤ 2 ^ 62 + 2 ^ 48)
    (hlr : fn ≠ .lr) (hsc : fn ≠ .sc) (hal : (a - 2 ^ 62) % 8 = 0) (hdev : deviceOpen e p.slice (a - 2 ^ 62) 8 = true) :
    amoOp e a fn (.double v) p w = programReq e p { newReq .amo true (a - 2 ^ 62) 8 (leBytes 8 v.toNat) (.program p.pid) with
      amo := amoCode fn } w := by
  unfold amoOp
  dsimp only
  rw [reachOf_high hpages ha, show amoWidth (.double v) = 8 from rfl, if_pos hend]
  refine if_pos ⟨?_, hal, hdev⟩
  simp [onFabric, amoWidth, hlr, hsc]

/-! #### The user page (R433, R434) -/

theorem putFence_jnr (e : Block) (n i : Nat) (o : FenceOut) (w : Work) : (putFence e n i o w).jnr = w.jnr := by
  have hput : (putOutcome e false n i o w).jnr = w.jnr := by
    unfold putOutcome
    dsimp only
    split
    · rfl
    · obtain ⟨v, hv, heq⟩ := fenceChanged_frame (w.updSlice n _) e false n i (w.fence n i)
      rw [heq]
      exact (congrArg Work.jnr hv :)
  unfold putFence
  dsimp only
  split <;> exact hput

/-- What an operation of a program on a fence of its slice's pool brings about. -/
theorem juSync_puts {op i : Nat} {o : FenceOut} (hp : w.prog p.pid = some p) (hi : i < (w.slice p.slice).fenceCount)
    (ho : op = 1 ∧ o = (w.fence p.slice i).signal p.syncValue ∨ op = 2 ∧ o = (w.fence p.slice i).add p.syncValue) :
    (juSync e p op i w).fence p.slice i = o.fence ∧
    (juSync e p op i w).prog p.pid = some { p with syncStatus := if o.saturated then St.fenceSaturated else St.ok } := by
  have hop : juSync e p op i w = (putFence e p.slice i o w).updProg p.pid fun q => { q with
      syncStatus := if o.saturated then St.fenceSaturated else St.ok } := by
    unfold juSync
    dsimp only
    obtain ⟨rfl, rfl⟩ | ⟨rfl, rfl⟩ := ho
    · rw [if_neg (by omega)]
      rfl
    · rw [if_neg (by omega)]
      rfl
  have hfence := (putFence_becomes e p.slice i o w).1
  have hprog : (putFence e p.slice i o w).prog p.pid = some p := (prog_congr (by rw [putFence_jnr]) p.pid).trans hp
  rw [hop]
  exact ⟨hfence, prog_updProg hprog fun _ => ⟨rfl, rfl⟩⟩

theorem juSync_beyond {op i : Nat} (hp : w.prog p.pid = some p) (hi : (w.slice p.slice).fenceCount ≤ i) :
    (juSync e p op i w).prog p.pid = some { p with syncStatus := St.badCommand } ∧ { juSync e p op i w with jnr := w.jnr } = w := by
  have hop : juSync e p op i w = w.updProg p.pid fun q => { q with syncStatus := St.badCommand } := if_pos (.inl hi)
  rw [hop]
  exact ⟨prog_updProg hp fun _ => ⟨rfl, rfl⟩, rfl⟩

theorem juDoorbell_word {word : BitVec 64} (hslice : p.slice < 64) : juDoorbell e p word w =
    if word.getLsbD 38 then cqDoorbellOp e (64 * p.slice + bitsOf word.toNat 37 32) (word.setWidth 32) w
    else sqDoorbellOp (64 * p.slice + bitsOf word.toNat 37 32) (word.setWidth 32) w := by
  have hq : bitsOf word.toNat 37 32 < 64 := Nat.mod_lt _ (by decide)
  rw [juDoorbell, qkey_eq hslice hq]

end

/-- Settles O35: what a program that can execute does, by the instruction, and the registers of its user page. -/
theorem joinerPrograms : Obligations.JoinerPrograms := by
  unfold Obligations.JoinerPrograms
  refine ⟨fun s p h hp hruns hpages => ⟨fun a0 c hout hc hend => ?exit, fun i q hi hne hprogs hcore hqgone hqsus => ?switch, ?fence,
    fun c n hc hs hend hmask hrun => ?trap, fun a n d ha hlen hn hal hact => ⟨?load, ?store⟩,
    fun a fn v ha hlen hlr hsc hal hdev hquiet => ?amo, fun a fn v c n ha hno hc hs hend hmask hrun => ?amoTrap,
    fun a off n ha hlen hn => ⟨fun d => ?ownStore, ?ownLoad, fun fn v hw hal => ⟨fun hlr hsc => ?ownAmo, fun hlr => ?lr,
        fun hsc hres => ?sc,
      fun hsc hres => ?scFails⟩⟩⟩,
    fun s p i h hp hruns => ⟨fun hi => ⟨?signal, ?add⟩, fun hi y hy => ?beyond,
      fun word hslice hr hl => ⟨fun hbit htail hhead => ?tail, fun hbit hrange hheld => ?head⟩⟩⟩
  all_goals
    obtain ⟨hsus, hfail, hcur⟩ := progRuns_facts hruns
    have hgone := (prog_pid hp).2
    have hdoes {i : Instr} {f : Block → Prog → Work → Work} {P : Work →
        Prop} (hx : exec i s = .next (s.onWork fun e w => onProg p.pid (f e) w))
        (hP : P (f s.core p s.core.work)) : Does i s P := does_of hx h (by rw [onProg_runs hp hruns]; exact hP)
  case exit => exact hdoes (f := fun _ => exitProg a0) rfl (exitProg_ends hp hfail hout hc hend)
  case switch =>
    have hswitch := switchProg_switches hprogs hne hcore hgone hsus hqgone hqsus
    obtain rfl | rfl := hi
    · exact hdoes (f := fun _ => switchProg) rfl hswitch
    · exact hdoes (f := fun _ => switchProg) rfl hswitch
  case fence => exact hdoes (f := fun _ => fenceProg) rfl ⟨prog_updProg hp fun _ => ⟨rfl, rfl⟩, rfl⟩
  case trap =>
    refine does_of (f := fun e w => trapOp e p.pid .other w) rfl h ?_
    rw [trapOp, hp]
    dsimp only
    rw [onProg_runs hp hruns]
    exact trapProgram_traps hp hc hs hend hmask hrun
  case load =>
    refine acts_of (f := accessOp p.pid a.toNat n none) rfl h ?_
    rw [accessOp_host hp hruns hn hpages ha hlen hal]
    obtain ⟨⟨r, hreqs, hop, hdev, haddr, hlen', -, -, hwhy, hpasid⟩, hprog⟩ := programReq_issues (e := s.core)
      (r := newReq .read false (a.toNat - 2 ^ 63) n [] (.program p.pid)) hp (mayIssue_active hact false)
    refine ⟨r, hreqs, hop, hdev, ?_, hlen', hpasid, hwhy, hprog⟩
    exact (congrArg BitVec.toNat haddr).trans (toNat_addr (by omega))
  case store =>
    refine acts_of (f := accessOp p.pid a.toNat n (some d)) rfl h ?_
    rw [accessOp_host hp hruns hn hpages ha hlen hal]
    obtain ⟨⟨r, hreqs, hop, hdev, haddr, hlen', hdata, -, hwhy, hpasid⟩, hprog⟩ := programReq_issues (e := s.core)
      (r := newReq .write false (a.toNat - 2 ^ 63) n (bytesAt d 0 n) (.program p.pid)) hp (mayIssue_active hact false)
    refine ⟨r, hreqs, hop, hdev, ?_, hlen', hdata, hpasid, hwhy, hprog⟩
    exact (congrArg BitVec.toNat haddr).trans (toNat_addr (by omega))
  case amo =>
    refine hdoes (f := fun e => amoOp e a.toNat fn (.double v)) rfl ?_
    rw [amoOp_device hpages ha hlen hlr hsc hal hdev]
    obtain ⟨⟨r, hreqs, hop, hdev', haddr, -, hdata, hamo, hwhy, -⟩, -⟩ := programReq_issues (e := s.core)
      (r := { newReq .amo true (a.toNat - 2 ^ 62) 8 (leBytes 8 v.toNat) (.program p.pid) with amo := amoCode fn }) hp
      (by rw [mayIssue, hquiet]; rfl)
    exact ⟨r, hreqs, hop, hdev', hamo, (congrArg BitVec.toNat haddr).trans (toNat_addr (by omega)), hdata, hwhy⟩
  case amoTrap =>
    refine hdoes (f := fun e => amoOp e a.toNat fn v) rfl ?_
    rw [amoOp_traps hpages ha hno]
    exact trapProgram_traps hp hc hs hend hmask hrun
  case ownStore =>
    refine acts_of (f := accessOp p.pid a.toNat n (some d)) rfl h ?_
    rw [accessOp_own hp hruns hn ha hlen]
    obtain ⟨hread, hown⟩ := localWrite_own (k := p.core) (a := p.base + off) (length_bytesAt d 0 n) s.core.work
    exact ⟨hread, hown, rfl⟩
  case ownLoad =>
    refine acts_of (f := accessOp p.pid a.toNat n none) rfl h ?_
    rw [accessOp_own hp hruns hn ha hlen]
    obtain ⟨hprog, -, hrest⟩ := loadBytes_loads (localRead s.core.work p.core (p.base + off) n) hp
    exact ⟨hprog, hrest⟩
  case ownAmo =>
    refine hdoes (f := fun e => amoOp e a.toNat fn v) rfl ?_
    subst hw
    rw [amoOp_own ha hlen hal]
    exact ownAmo_plain hp hlr hsc
  case lr =>
    refine hdoes (f := fun e => amoOp e a.toNat fn v) rfl ?_
    subst hw hlr
    rw [amoOp_own ha hlen hal]
    exact reserve_loadBytes _ _ hp
  case sc =>
    refine hdoes (f := fun e => amoOp e a.toNat fn v) rfl ?_
    subst hw hsc
    rw [amoOp_own ha hlen hal]
    exact ownAmo_stores hp hres
  case scFails =>
    refine hdoes (f := fun e => amoOp e a.toNat fn v) rfl ?_
    subst hw hsc
    rw [amoOp_own ha hlen hal]
    have hop : ownAmo .sc off (amoWidth v) (amoValue v) p s.core.work = reserve p none (loadResult p 1 s.core.work) := if_neg hres
    obtain ⟨hprog, hmem, hrest⟩ := reserve_loadBytes (leBytes 8 1) none hp
    rw [hop]
    exact ⟨hmem, hprog, hrest⟩
  case signal =>
    refine hdoes (f := fun e p w => juSync e p 1 i.toNat w) rfl ?_
    have hputs := juSync_puts (e := s.core) hp hi (.inl ⟨rfl, rfl⟩)
    rw [signal_fence, signal_saturated] at hputs
    simp only [decide_eq_true_eq] at hputs
    exact hputs
  case add =>
    refine hdoes (f := fun e p w => juSync e p 2 i.toNat w) rfl ?_
    have hputs := juSync_puts (e := s.core) hp hi (.inr ⟨rfl, rfl⟩)
    refine ⟨fun hv => ?_, fun hv hsum => ?_, fun hv hsum => ?_⟩
    · have hzero := add_zero_out (s.core.work.fence p.slice i.toNat)
      rw [← hv] at hzero
      rw [hzero] at hputs
      exact hputs
    · rw [add_within _ hv hsum] at hputs
      exact hputs
    · rw [add_past _ hv hsum] at hputs
      exact hputs
  case beyond =>
    obtain rfl | rfl := hy
    · exact hdoes (f := fun e p w => juSync e p 1 i.toNat w) rfl (juSync_beyond hp hi)
    · exact hdoes (f := fun e p w => juSync e p 2 i.toNat w) rfl (juSync_beyond hp hi)
  case tail =>
    refine hdoes (f := fun e p w => juDoorbell e p word w) rfl ?_
    rw [juDoorbell_word hslice, hbit, if_neg Bool.false_ne_true, sqDoorbellOp_taken hr hl, applyTail,
      if_neg (not_or.mpr ⟨Nat.not_lt.mpr htail, Nat.not_lt.mpr hhead⟩)]
    exact updQueue_only ..
  case head =>
    refine hdoes (f := fun e p w => juDoorbell e p word w) rfl ?_
    rw [juDoorbell_word hslice, hbit, if_pos rfl, cqDoorbellOp_taken hr hl, applyHead, if_neg (Nat.not_lt.mpr hrange),
      retryRecords_none (by rw [queue_updQueue]; exact hheld)]
    exact updQueue_only ..

end Sys2Proof.Machine

end

-- Proofs about timeouts, lends and slots (R156 to R158, R212, R291).
section

namespace Sys2Proof.Machine

/-! ### Timeouts, lends and slots (R156 to R158, R212, R291) -/

section

variable {e : Block} {w w' v : Work} {s c n id : Nat} {st : Status}

/-! #### What stops with a context (R560, R562) -/

/-- Work of commands has been stopped: of the slices graphs alone have gone, and the commands are the same but for when their tiles
returned to ready. -/
structure StopsWork (w w' : Work) : Prop where
  slices : ∀ n, { w'.slice n with graphs := (w.slice n).graphs } = w.slice n
  cmds : KeepsCmds w w'
  runs : w'.runs = w.runs

theorem StopsWork.refl (w : Work) : StopsWork w w := ⟨fun _ => rfl, .refl w, rfl⟩

theorem StopsWork.trans (h : StopsWork w v) (g : StopsWork v w') : StopsWork w w' where
  slices n := by
    have hn := congrArg (fun x : Slice => { x with graphs := (w.slice n).graphs }) (g.slices n)
    exact hn.trans (h.slices n)
  cmds := h.cmds.trans g.cmds
  runs := g.runs.trans h.runs

theorem StopsWork.foldl {α : Type} {f : Work → α → Work} (hf : ∀ v x, StopsWork v (f v x)) (l : List α) (w : Work) :
    StopsWork w (l.foldl f w) :=
  List.foldlRecOn (motive := StopsWork w) l f (.refl w) fun v hv x _ => hv.trans (hf v x)

theorem StopsWork.of_keeps (hs : w'.slices = w.slices) (hc : KeepsCmds w w') (hr : w'.runs = w.runs) : StopsWork w w' :=
  ⟨fun n => by rw [slice_congr hs], hc, hr⟩

theorem StopsWork.ctx (h : StopsWork w w') (n c : Nat) : w'.ctx n c = w.ctx n c :=
  congrArg (fun t : Tbl Ctx => tblGet ({} : Ctx) t c) (congrArg Slice.ctxs (h.slices n) :)

theorem StopsWork.sem (h : StopsWork w w') (n i : Nat) : w'.sem n i = w.sem n i :=
  congrArg (fun t : Tbl Sem => tblGet ({} : Sem) t i) (congrArg Slice.sems (h.slices n) :)

theorem dropLoading_stopsWork (id : Nat) (w : Work) : StopsWork w (dropLoading id w) := by
  unfold dropLoading
  cases w.cmd id with
  | none => exact .refl w
  | some d =>
    dsimp only
    cases d.slice with
    | none => exact .refl w
    | some k =>
      dsimp only
      split
      · refine ⟨fun n => ?_, .of_cmds rfl, rfl⟩
        rw [dropResident]
        by_cases hn : n = k
        · subst hn
          rw [slice_updSlice]
        · rw [slice_updSlice_other _ _ _ _ hn]
      · exact .refl w

theorem stopWork_stopsWork (id : Nat) (why : KillWhy) (w : Work) : StopsWork w (stopWork id why w) := by
  have hunstage := unstageCmd_unbinds id w
  have hkill := killCmdTiles_keeps id why (unstageCmd id w)
  have h₁ : StopsWork w (killCmdTiles id why (unstageCmd id w)) :=
    (StopsWork.of_keeps hunstage.slices hunstage.cmds hunstage.runs).trans
      (.of_keeps (congrArg Work.slices hkill :) (.of_cmds (congrArg Work.cmds hkill :)) (congrArg Work.runs hkill :))
  refine (h₁.trans ?_).trans (dropLoading_stopsWork id _)
  refine StopsWork.foldl (f := fun w (x : Prog) => removeProgram x.pid w) (fun u x => ?_) _ _
  have hx := removeProgram_keeps x.pid u
  exact .of_keeps (congrArg Work.slices hx :) (.of_cmds (congrArg Work.cmds hx :)) (congrArg Work.runs hx :)

theorem sem_updCtx (w : Work) (s c : Nat) (f : Ctx → Ctx) (n i : Nat) : (w.updCtx s c f).sem n i = w.sem n i :=
  congrArg (fun t : Tbl Sem => tblGet ({} : Sem) t i) (congrArg Slice.sems (slice_updCtx w s c n f) :)

/-- A context that is stopped, with its commands' work. -/
theorem stopContext_stopped (s c : Nat) (why : KillWhy) (w : Work) :
    let w' := stopContext s c why w
    (w'.ctx s c).stopped = true ∧ (∀ n i, w'.sem n i = w.sem n i) ∧ KeepsCmds w w' := by
  have hstop : StopsWork (w.updCtx s c fun x => { x with stopped := true }) (stopContext s c why w) :=
    StopsWork.foldl (f := fun w (d : Cmd) => stopWork d.id why w) (fun v d => stopWork_stopsWork d.id why v) _ _
  exact ⟨by rw [hstop.ctx, ctx_updCtx], fun n i => (hstop.sem n i).trans (sem_updCtx ..), KeepsCmds.trans (.of_cmds rfl) hstop.cmds⟩

/-- The event of a teardown marks its context alone. -/
theorem teardownEvent_marks (covered : Option Nat) {ev : Event} {k : Nat} (hk : ev.ctx = some k) (w : Work) :
    let w' := teardownEvent e covered ev w
    (∀ n c, (w'.ctx n c).stopped = (w.ctx n c).stopped) ∧ (∀ n i, w'.sem n i = w.sem n i) ∧ w'.cmds = w.cmds := by
  have hop : ∃ (v : Work) (q : Nat), v.slices = w.slices ∧ v.cmds = w.cmds ∧
      teardownEvent e covered ev w = v.updCtx ev.slice k fun x => { x with event := q } := by
    unfold teardownEvent
    rw [hk]
    cases covered with
    | none =>
      obtain ⟨-, -, hs, hc⟩ := (captureEvent_captures e ev w).stops_ports
      exact ⟨_, _, hs, hc, rfl⟩
    | some q => exact ⟨captureAdd q w, q, rfl, rfl, rfl⟩
  obtain ⟨v, q, hs, hc, hop⟩ := hop
  dsimp only
  rw [hop]
  have hctx (n c : Nat) : v.ctx n c = w.ctx n c := by rw [Work.ctx, slice_congr hs, Work.ctx]
  have hsem (n i : Nat) : v.sem n i = w.sem n i := by rw [Work.sem, slice_congr hs, Work.sem]
  refine ⟨fun n c => ?_, fun n i => (sem_updCtx ..).trans (hsem n i), hc⟩
  rw [← hctx]
  by_cases h : n = ev.slice ∧ c = k
  · obtain ⟨rfl, rfl⟩ := h
    rw [ctx_updCtx]
  · rw [ctx_updCtx_other _ _ h]

/-! #### Teardowns that begin (R557 to R562) -/

/-- A teardown without a command at fault. -/
theorem startTeardown_begins (hoff : (w.slice s).state ≠ .off) (hfenced : (w.slice s).state ≠ .fenced) (htear : tearing w s c = false)
    (hkilled : (w.ctx s c).killed = false) (st others : Status) (covered : Option Nat) :
    let w' := startTeardown e s c st others covered w
    w'.cap.teardowns = w.cap.teardowns ++
      [{ slice := s, ctx := c, status := st, cmd := none, others := others, rank := some (faultRank none st) }] ∧
    (w'.ctx s c).stopped = true ∧ (∀ n i, w'.sem n i = w.sem n i) ∧ KeepsCmds w w' := by
  unfold startTeardown
  rw [if_neg (by rw [beq_iff_eq]; exact hoff), if_neg (by rw [beq_iff_eq]; exact hfenced), htear, hkilled, if_neg (by decide)]
  obtain ⟨hstop, hsem, hcmds⟩ := stopContext_stopped s c .teardown w
  have hteardowns := (stopContext_stops s c .teardown w).teardowns
  generalize stopContext s c .teardown w = v at hstop hsem hcmds hteardowns
  dsimp only
  generalize hu : v.updCap _ = u
  have hut : u.cap.teardowns = v.cap.teardowns ++
      [{ slice := s, ctx := c, status := st, cmd := none, others := others, rank := some (faultRank none st) }] := by rw [← hu]; rfl
  have hus : u.slices = v.slices ∧ u.cmds = v.cmds := by rw [← hu]; exact ⟨rfl, rfl⟩
  obtain ⟨hmark, hsem', hcmds'⟩ := teardownEvent_marks (e := e) covered (ev := {
    trigger := st, slice := s, ctx := some c, concern := .context s c }) rfl u
  have hstops := (teardownEvent_stops e covered { trigger := st, slice := s, ctx := some c, concern := .context s c } u).teardowns
  refine ⟨by rw [hstops, hut, hteardowns], ?_, fun n i => ?_, hcmds.trans (.of_cmds (hcmds'.trans hus.2))⟩
  · rw [hmark, Work.ctx, slice_congr hus.1]
    exact hstop
  · rw [hsem', Work.sem, slice_congr hus.1]
    exact hsem n i

/-- A fault that TEARDOWN_MASK does not leave out stops its context, and its command keeps the status (R557 to R559). -/
theorem faultWith_stops {covered port : Option Nat} {m : BitVec 64} {d : Cmd} (hc : w.cmd id = some d) (hs : d.slice = some n)
    (hend : d.endStatus = none) (hfenced : (w.slice n).state ≠ .fenced) (htear : tearing w n d.ctx = false)
    (hkilled : (w.ctx n d.ctx).killed = false) (hst : st ≠ St.pasidRevoked)
    (hmask : ∀ b, maskBit st = some b → (e.dct.teardownMask n).testBit b = true) (hrun : w.run id = none) :
    let w' := faultWith covered port e id st m w
    (w'.ctx n d.ctx).stopped = true ∧ (w'.cmd id).map Cmd.badStatus = some st := by
  have hno : ¬(st = St.pasidRevoked ∨ (match maskBit st with
      | some b => !(e.dct.teardownMask n).testBit b
      | none => false) = true ∨ (w.slice n).state = .fenced) := by
    rintro (h | h | h)
    · exact hst h
    · cases hb : maskBit st with
      | none =>
        rw [hb] at h
        exact nomatch h
      | some b =>
        rw [hb] at h
        dsimp only at h
        rw [hmask b hb] at h
        exact nomatch h
    · exact hfenced h
  have hstopped := stopWork_stopsWork id .teardown w
  have hfailed : failedBy id st w = (stopWork id .teardown w).updCmd id fun d => { d with
      phase := .stopping, badStatus := st, waiting := .none } := by
    have hrun' : (stopWork id .teardown w).run id = none := by
      rw [Work.run, hstopped.runs]
      exact hrun
    unfold failedBy
    dsimp only
    rw [hrun', if_neg (by decide)]
  have hbad : ((failedBy id st w).cmd id).map Cmd.badStatus = some st := by
    obtain ⟨r, hr⟩ := hstopped.cmds.some hc
    rw [hfailed, cmd_updCmd _ id (fun d : Cmd => { d with phase := .stopping, badStatus := st, waiting := .none }) fun _ => rfl, hr]
    rfl
  unfold faultWith
  rw [hc]
  dsimp only
  rw [hs]
  dsimp only
  rw [hend, if_neg (fun h => hfenced h.1), if_neg (by decide), htear, hkilled, if_neg ?_, if_neg (by decide)]
  rotate_left
  · exact hno
  obtain ⟨hstop, -, hcmds⟩ := stopContext_stopped n d.ctx .teardown (failedBy id st w)
  generalize stopContext n d.ctx .teardown (failedBy id st w) = v at hstop hcmds
  generalize hu : v.updCap _ = u
  have hus : u.slices = v.slices ∧ u.cmds = v.cmds := by rw [← hu]; exact ⟨rfl, rfl⟩
  obtain ⟨hmark, -, hcmds'⟩ := teardownEvent_marks (e := e) covered (ev := {
    trigger := st, slice := n, ctx := some d.ctx, cmd := some id, cycleMap := m, concern := .context n d.ctx }) rfl u
  refine ⟨?_, ?_⟩
  · rw [hmark, Work.ctx, slice_congr hus.1]
    exact hstop
  · rw [cmd_congr (hcmds'.trans hus.2), hcmds.map id (g := Cmd.badStatus) fun _ => rfl]
    exact hbad

/-! #### Timeouts (R212) -/

/-- A command that times out fails, of a context that is not being torn down with the queues of its walk noted (R338). -/
theorem timeoutCmd_fails {d : Cmd} (hc : w.cmd id = some d) (htimer : d.timer = some 0) (hend : d.endStatus = none)
    (hsusp : d.suspended = false) (hs : d.slice = some n) :
    timeoutCmd e id w = if tearing w n d.ctx || (w.ctx n d.ctx).killed then faultCmd e id St.cmdTimeout 0 w
      else faultCmd e id St.cmdTimeout (timeoutMap w n id)
        ((w.updSlice n fun x => { x with cycleMap := x.cycleMap ||| timeoutMap w n id }).sets (.cycleMap n) (timeoutMap w n id)) := by
  unfold timeoutCmd
  rw [hc]
  dsimp only
  rw [htimer, hend, hsusp, if_neg (by decide), hs]

theorem slice_sets (w : Work) (r : W1c) (x : BitVec 64) (n : Nat) : (w.sets r x).slice n = w.slice n := rfl

theorem timeoutCmd_masked {d : Cmd} (hc : w.cmd id = some d) (htimer : d.timer = some 0) (hend : d.endStatus = none)
    (hsusp : d.suspended = false) (hs : d.slice = some n) (hrun : w.run id = none) (hmask : (e.dct.teardownMask n).testBit 0 = false) :
    ((timeoutCmd e id w).cmd id).bind Cmd.endStatus = some St.cmdTimeout ∧ (timeoutCmd e id w).cap.teardowns = w.cap.teardowns := by
  have key (v : Work) (m : BitVec 64) (hcmds : v.cmds = w.cmds) (hruns : v.runs = w.runs) (hcap : v.cap = w.cap) :
      ((faultCmd e id St.cmdTimeout m v).cmd id).bind Cmd.endStatus = some St.cmdTimeout ∧
      (faultCmd e id St.cmdTimeout m v).cap.teardowns = w.cap.teardowns := by
    have hcv : v.cmd id = some d := (cmd_congr hcmds id).trans hc
    have hrunv : v.run id = none := by
      rw [Work.run, hruns]
      exact hrun
    refine ⟨faultWith_ends hcv hs hend hrunv rfl hmask, ?_⟩
    rw [faultCmd, faultWith_masked hcv hs hend hrunv rfl hmask, ← hcap]
    exact (stopWork_stops id .timeout _).teardowns
  rw [timeoutCmd_fails hc htimer hend hsusp hs]
  split
  · exact key w _ rfl rfl rfl
  · exact key _ _ rfl rfl rfl

theorem timeoutCmd_tears {d : Cmd} (hc : w.cmd id = some d) (htimer : d.timer = some 0) (hend : d.endStatus = none)
    (hsusp : d.suspended = false) (hs : d.slice = some n) (hrun : w.run id = none) (hmask : (e.dct.teardownMask n).testBit 0 = true)
    (hfenced : (w.slice n).state ≠ .fenced) (htear : tearing w n d.ctx = false) (hkilled : (w.ctx n d.ctx).killed = false) :
    let w' := timeoutCmd e id w
    (∃ k, w'.cap.teardowns = w.cap.teardowns ++
      [{ slice := n, ctx := d.ctx, status := St.cmdTimeout, cmd := some id, others := St.ownerReset, rank := some k }]) ∧
    (w'.ctx n d.ctx).stopped = true ∧ (w'.cmd id).map Cmd.badStatus = some St.cmdTimeout := by
  rw [timeoutCmd_fails hc htimer hend hsusp hs, htear, hkilled, if_neg (by decide)]
  generalize timeoutMap w n id = m
  generalize hv : (w.updSlice n fun x => { x with cycleMap := x.cycleMap ||| m }).sets (.cycleMap n) m = v
  have hslice : v.slice n = { w.slice n with cycleMap := (w.slice n).cycleMap ||| m } := by
    rw [← hv, slice_sets, slice_updSlice]
  have hkeep : v.cmds = w.cmds ∧ v.runs = w.runs ∧ v.cap = w.cap := by
    rw [← hv]
    exact ⟨rfl, rfl, rfl⟩
  obtain ⟨hcmds, hruns, hcap⟩ := hkeep
  have hctx : v.ctx n d.ctx = w.ctx n d.ctx := by rw [Work.ctx, hslice, Work.ctx]
  have hcv : v.cmd id = some d := (cmd_congr hcmds id).trans hc
  have hfencedv : (v.slice n).state ≠ .fenced := by rw [hslice]; exact hfenced
  have htearv : tearing v n d.ctx = false := by rw [tearing, hcap]; exact htear
  have hkilledv : (v.ctx n d.ctx).killed = false := by rw [hctx]; exact hkilled
  have hbits : ∀ b, maskBit St.cmdTimeout = some b → (e.dct.teardownMask n).testBit b = true := by
    intro b hb
    rw [← Option.some.inj (show some 0 = some b from hb)]
    exact hmask
  have hrunv : v.run id = none := by
    rw [Work.run, hruns]
    exact hrun
  have htears := (faultWith_tearsDown (covered := none) (port := none) (m := m) hcv hs hend hfencedv htearv hkilledv
      (by decide) hbits).stops
  refine ⟨⟨faultRank none St.cmdTimeout, ?_⟩, faultWith_stops hcv hs hend hfencedv htearv hkilledv (by decide) hbits hrunv⟩
  rw [← hcap]
  exact htears.teardowns

/-! #### Lends (R291, R295) -/

theorem lendOut_any {l : Lend} (hl : l ∈ w.lends) (hlive : l.live = true) (hbeats : l.beats = 0) :
    (w.lends.any fun k => k.slice == l.slice && k.sem == l.sem && k.ctx == l.ctx && k.live && k.beats == 0) = true :=
  List.any_eq_true.2 ⟨l, hl, by simp [hlive, hbeats]⟩

theorem lendOut_ends {l : Lend} (hl : l ∈ w.lends) (hlive : l.live = true) (hbeats : l.beats = 0)
    (hno : lendStands w l.slice l.sem l.ctx = false) :
    let w' := lendOut e l.slice l.sem l.ctx w
    (∀ k, k ∈ w'.lends ↔ k ∈ w.lends ∧ ¬(k.slice = l.slice ∧ k.sem = l.sem ∧ k.ctx = l.ctx)) ∧ { w' with lends := w.lends } = w := by
  unfold lendOut
  rw [if_pos (lendOut_any hl hlive hbeats), hno, if_pos (by decide)]
  refine ⟨fun k => ?_, rfl⟩
  dsimp only
  rw [List.mem_filter, Bool.not_eq_true', ← Bool.not_eq_true]
  simp [and_assoc]

/-- An acquire that is granted an abandoned semaphore takes no units (R317). -/
theorem grantsLate_abandoned {d : Cmd} {i : Nat} (hcmds : w.cmds = [d]) (hs : d.slice = some n) (hi : semIndex d.bytes = i)
    (hfits : acquireFits w d = true) (hab : (w.sem n i).abandoned = true) :
    ((grantsLate 1 w).sem n i).abandoned = false ∧ ∀ c, ((grantsLate 1 w).sem n i).holding c = (w.sem n i).holding c := by
  subst hi
  have hfind : w.cmds.find? (fun c => acquireFits w c) = some d := by rw [hcmds, List.find?_cons, hfits]
  have hop : grantsLate 1 w = endCmd d.id St.semAbandoned (w.updSem n (semIndex d.bytes) fun m => { m with abandoned := false }) := by
    rw [grantsLate, hfind]
    dsimp only
    rw [grantsLate, grantAcquire, hs]
    exact if_pos hab
  have hsem : (grantsLate 1 w).sem n (semIndex d.bytes) = { w.sem n (semIndex d.bytes) with abandoned := false } := by
    rw [hop]
    exact sem_updSem ..
  rw [hsem]
  exact ⟨rfl, fun _ => rfl⟩

theorem lendOut_tears {l : Lend} (hl : l ∈ w.lends) (hlive : l.live = true) (hbeats : l.beats = 0)
    (hstands : lendStands w l.slice l.sem l.ctx = true) (hfenced : (w.slice l.slice).state ≠ .fenced) (hoff :
        (w.slice l.slice).state ≠ .off)
    (htear : tearing w l.slice l.ctx = false) (hkilled : (w.ctx l.slice l.ctx).killed = false) :
    let w' := lendOut e l.slice l.sem l.ctx w
    (w'.sem l.slice l.sem).holding l.ctx = 0 ∧ (w'.sem l.slice l.sem).abandoned = true ∧
    (∃ k, w'.cap.teardowns = w.cap.teardowns ++
      [{ slice := l.slice, ctx := l.ctx, status := St.semLendExpired, cmd := none, others := St.ownerReset, rank := some k }]) ∧
    (w'.ctx l.slice l.ctx).stopped = true := by
  unfold lendOut
  rw [if_pos (lendOut_any hl hlive hbeats), hstands, if_neg (by decide)]
  dsimp only
  generalize hv : (w.updSem l.slice l.sem fun m => { m.setHolding l.ctx 0 with abandoned := true }) = v
  have hslice : ∃ t, v.slice l.slice = { w.slice l.slice with sems := t } := ⟨_, by rw [← hv, Work.updSem, slice_updSlice]⟩
  have hsem : v.sem l.slice l.sem = { (w.sem l.slice l.sem).setHolding l.ctx 0 with abandoned := true } := by
    rw [← hv]
    exact sem_updSem ..
  have hcap : v.cap = w.cap := by rw [← hv]; rfl
  obtain ⟨t, hslice⟩ := hslice
  have hctx : v.ctx l.slice l.ctx = w.ctx l.slice l.ctx := by rw [Work.ctx, hslice, Work.ctx]
  obtain ⟨hteardowns, hstop, hsems, -⟩ := startTeardown_begins (e := e) (w := v) (s := l.slice) (c := l.ctx) (by rw [hslice]; exact hoff)
    (by rw [hslice]; exact hfenced) (by rw [tearing, hcap]; exact htear) (by rw [hctx]; exact hkilled) St.semLendExpired St.ownerReset none
  rw [hsems, hsem]
  exact ⟨Sem.holding_setHolding_same _ l.ctx 0, rfl, ⟨_, by rw [hteardowns, hcap]⟩, hstop⟩

/-! #### Slots (R156 to R158, R279) -/

theorem ctx_writeFor (e : Block) (x : Option Nat) (dev : Bool) (a : Nat) (data : List Byte) (why : Purpose) (w : Work) (n c : Nat) :
    (writeFor e x dev a data why w).ctx n c = w.ctx n c := (writeFor_logs e x dev a data why w).ctx n c

/-- A slot that is freed: its context has left it. -/
theorem freeSlot_frees {k : Nat} (hstate : (w.slot k).state ≠ .free) :
    let w' := freeSlot k w
    let x := w.slot k
    w'.slot k = { next := x.next } ∧ (∀ j, j ≠ k → w'.slot j = w.slot j) ∧
    w'.ctx x.slice x.ctx = { w.ctx x.slice x.ctx with leftAt := w.nextOrder } := by
  intro w' x
  have hw' : w' = freeSlot k w := rfl
  clear_value w'
  unfold freeSlot at hw'
  extract_lets v src u at hw'
  have hv : v.slots = w.slots ∧ v.slices = w.slices ∧ v.nextOrder = w.nextOrder := by
    unfold v
    split <;> exact ⟨rfl, rfl, rfl⟩
  have hu : u = { v.updCtx x.slice x.ctx fun c => { c with leftAt := v.nextOrder } with nextOrder := v.nextOrder + 1 } :=
    if_neg (by rw [beq_iff_eq]; exact hstate)
  have hslot (j : Nat) : u.slot j = w.slot j := by
    rw [hu]
    show tblGet _ v.slots j = _
    rw [hv.1, Work.slot]
  have hctx : u.ctx x.slice x.ctx = { w.ctx x.slice x.ctx with leftAt := w.nextOrder } := by
    rw [hu, ← hv.2.2]
    have hsame : v.ctx x.slice x.ctx = w.ctx x.slice x.ctx := by rw [Work.ctx, slice_congr hv.2.1, Work.ctx]
    rw [← hsame]
    exact ctx_updCtx v x.slice x.ctx _
  clear_value u
  rw [hw']
  exact ⟨by rw [slot_updSlot, hslot], fun j hj => (slot_updSlot_other _ _ _ _ hj).trans (hslot j), hctx⟩

/-- A save area that has been written: its slot is FREE, with nothing to load there, and its context is SAVED. -/
theorem slotSaved_saves {k : Nat} {r : Req} {b : List Byte} (hans : slotAnswer w k (.slotSave k) = some (r, St.ok, b))
    (hsaving : (w.slot k).state = .saving) (hnext : (w.slot k).next = none) :
    let w' := slotSaved e k w
    let x := w.slot k
    w'.slot k = {} ∧ (∀ j, j ≠ k → w'.slot j = w.slot j) ∧ (w'.ctx x.slice x.ctx).saved = true ∧
    (w'.ctx x.slice x.ctx).engineNs = (w.ctx x.slice x.ctx).engineNs := by
  generalize hx : w.slot k = x at hsaving hnext
  have hop : slotSaved e k w = slotLeft e k (writeCtxFlags e x.slice x.ctx (writeCtxValues e x.slice x.ctx
      ((w.dropReq r.tag).updCtx x.slice x.ctx fun y => { y with saved := true }))) := by
    unfold slotSaved
    rw [hans, hx]
    dsimp only
    rw [hsaving, if_neg (by decide), if_pos rfl]
  generalize hv : writeCtxFlags e x.slice x.ctx _ = v at hop
  have hslots : v.slots = w.slots := by
    rw [← hv]
    simp [writeCtxFlags, writeCtxValues]
  have hctx : v.ctx x.slice x.ctx = { w.ctx x.slice x.ctx with saved := true, updateBeat := e.clk.beat } := by
    rw [← hv, writeCtxFlags, ctx_writeFor, writeCtxValues, ctx_writeFor, ctx_updCtx, ctx_updCtx]
    rfl
  have hslot (j : Nat) : v.slot j = w.slot j := by rw [Work.slot, hslots, Work.slot]
  obtain ⟨hfree, hothers, hleft⟩ := freeSlot_frees (k := k) (w := v) (by rw [hslot, hx, hsaving]; decide)
  rw [hslot, hx] at hfree hleft
  have hload : slotLeft e k v = freeSlot k v := by
    rw [slotLeft, beginSlotLoad, hfree, hnext]
  rw [hop, hload]
  refine ⟨by rw [hfree, hnext], fun j hj => (hothers j hj).trans (hslot j), ?_, ?_⟩
  · rw [hleft, hctx]
  · rw [hleft, hctx]

theorem slotLoaded_reads {k : Nat} {r : Req} {b : List Byte} (hans : slotAnswer w k (.slotRecord k) = some (r, St.ok, b))
    (hloading : (w.slot k).state = .loading) : slotLoaded e k w = recordRead e k b (w.dropReq r.tag) := by
  unfold slotLoaded
  rw [hans]
  dsimp only
  rw [hloading, if_neg (by decide), if_pos rfl]

/-- A record with INIT and without SAVED makes its context resident. -/
theorem recordRead_resident {k : Nat} {b : List Byte} (hinit : (fieldAt b 32 1).testBit 0 = true)
    (hsaved : (fieldAt b 33 1).testBit 0 = false) :
    let w' := recordRead e k b w
    let x := w.slot k
    w'.slot k = { x with state := .idle, beats := 0 } ∧ (∀ j, j ≠ k → w'.slot j = w.slot j) ∧
    w'.ctx x.slice x.ctx = { (w.ctx x.slice x.ctx).fromRecord b with saved := false } := by
  have hop : recordRead e k b w = becomeResident k (w.updCtx (w.slot k).slice (w.slot k).ctx fun y => y.fromRecord b) := by
    unfold recordRead
    dsimp only
    rw [hinit, hsaved, if_neg (by decide), if_neg (by decide)]
  dsimp only
  rw [hop, becomeResident]
  refine ⟨slot_updSlot .., fun j hj => slot_updSlot_other _ _ _ _ hj, ?_⟩
  have hctx := ctx_updCtx w (w.slot k).slice (w.slot k).ctx fun y => y.fromRecord b
  refine (show _ = _ from hctx).trans ?_
  rw [Ctx.fromRecord, hsaved]

/-- A record without INIT tears its context down (R156). -/
theorem recordRead_tears {k : Nat} {b : List Byte} (hinit : (fieldAt b 32 1).testBit 0 = false)
    (hact : (w.slice (w.slot k).slice).state = .active) (htear : tearing w (w.slot k).slice (w.slot k).ctx = false)
    (hkilled : (w.ctx (w.slot k).slice (w.slot k).ctx).killed = false)
    (hknown : (w.ctx (w.slot k).slice (w.slot k).ctx).known = true ∨ (fieldAt b 33 1).testBit 1 = false) :
    ∃ q, (recordRead e k b w).cap.teardowns = w.cap.teardowns ++
      [{ slice := (w.slot k).slice, ctx := (w.slot k).ctx, status := St.badCommand, cmd := none, others := St.ownerReset,
          rank := some q }] := by
  generalize hs : (w.slot k).slice = n at *
  generalize hc : (w.slot k).ctx = c at *
  generalize hv : (w.updCtx n c fun y => y.fromRecord b) = v
  have hop : recordRead e k b w = slotLoadFails e n c St.badCommand v := by
    unfold recordRead
    dsimp only
    rw [hinit, if_pos (by decide), hs, hc, hv]
  have hstate : (v.slice n).state = .active := by rw [← hv, updCtx_state, hact]
  have hcap : v.cap = w.cap := by rw [← hv]; rfl
  have hkilled' : (v.ctx n c).killed = false := by
    rw [← hv, ctx_updCtx]
    show (if (w.ctx n c).known then (w.ctx n c).killed else _) = false
    obtain hk | hk := hknown
    · rw [if_pos hk, hkilled]
    · rw [hk]
      split
      · exact hkilled
      · rfl
  obtain ⟨hteardowns, -⟩ := startTeardown_begins (e := e) (w := v) (s := n) (c := c) (by rw [hstate]; decide) (by rw [hstate]; decide)
    (by rw [tearing, hcap]; exact htear) hkilled' St.badCommand St.ownerReset none
  rw [hcap] at hteardowns
  refine ⟨faultRank none St.badCommand, ?_⟩
  rw [hop, slotLoadFails]
  have htears : tearing (startTeardown e n c St.badCommand St.ownerReset none v) n c = true := by
    rw [tearing, hteardowns]
    simp
  rw [htears, if_pos rfl]
  exact hteardowns

end

/-- Settles O29: what the end of a cycle decides of timeouts and lends, and the answers that save and load a context. -/
theorem timersAndSlots : Obligations.TimersAndSlots := by
  unfold Obligations.TimersAndSlots
  refine ⟨⟨fun s id h => defers_of rfl h rfl, fun b c n hc htimer hend hsusp hs hrun => ⟨fun hmask => ⟨_, ?masked, rfl⟩,
      fun hmask hfenced htear hkilled => ⟨_, ?tears, rfl⟩⟩⟩,
    ⟨fun s n i c h => defers_of rfl h rfl, fun b l hl hlive hbeats hfenced hoff htear hkilled => ⟨fun hno => ⟨_,
        lendOut_ends hl hlive hbeats hno, rfl⟩,
      fun hstands => ⟨_, ?lend, rfl⟩⟩⟩,
    fun s k r b h => ⟨fun hans hsaving hnext => does_of rfl h (slotSaved_saves hans hsaving hnext),
        fun hans hloading hinit hsaved => ?loaded,
      fun hans hloading hinit hact htear hkilled hknown => ?bad⟩⟩
  case masked => exact timeoutCmd_masked hc htimer hend hsusp hs hrun hmask
  case tears => exact timeoutCmd_tears hc htimer hend hsusp hs hrun hmask hfenced htear hkilled
  case lend =>
    obtain ⟨hhold, hab, hteardowns, hstop⟩ := lendOut_tears (e := b) hl hlive hbeats hstands hfenced hoff htear hkilled
    refine ⟨hhold, hab, fun c hcmds hs hi hfits => ?_, hteardowns, hstop⟩
    obtain ⟨hclear, hsame⟩ := grantsLate_abandoned hcmds hs hi hfits hab
    exact ⟨hclear, hsame c.ctx⟩
  case loaded =>
    refine does_of rfl h ?_
    rw [slotLoaded_reads hans hloading]
    exact recordRead_resident (w := s.core.work.dropReq r.tag) hinit hsaved
  case bad =>
    refine does_of rfl h ?_
    rw [slotLoaded_reads hans hloading]
    exact recordRead_tears (w := s.core.work.dropReq r.tag) hinit hact htear hkilled hknown

end Sys2Proof.Machine

end

-- Proofs about what follows in the same control cycle keeps (log entry 13).
section

namespace Sys2Proof.Machine

/-! ### What follows in the same control cycle keeps (log entry 13) -/

/-- A command as it may become by what follows in the same control cycle: it keeps its number and what its tiles returned to
ready with, and is open at the head of its chain only where it was. -/
structure Tame (c d : Cmd) : Prop where
  id : d.id = c.id
  readyAt : d.readyAt = c.readyAt
  head : d.endStatus = none → d.chainPos = none → c.endStatus = none ∧ c.chainPos = none

theorem Tame.refl (c : Cmd) : Tame c c := ⟨rfl, rfl, fun h g => ⟨h, g⟩⟩

theorem tame_endWith (st : Status) (c : Cmd) : Tame c (c.endWith st) := ⟨rfl, rfl, nofun⟩

/-- A predicate that rests on the commands, the runs and the count of free values, and that what follows in a control cycle keeps. -/
structure Stable (I : Work → Prop) : Prop where
  same : ∀ {w v}, I w → v.cmds = w.cmds → v.runs = w.runs → w.fresh ≤ v.fresh → I v
  mapCmds : ∀ {w f}, (∀ c, Tame c (f c)) → I w → I (w.mapCmds f)
  dropCmd : ∀ {w} id, I w → I (w.dropCmd id)
  runs : ∀ {w rs}, (∀ r ∈ rs, ∃ q ∈ w.runs, r.started = q.started) → I w → I { w with runs := rs }
  fail : ∀ {w} id st, I w → I (failExec id st w)

section

variable {e : Block} {w v : Work} {I : Work → Prop} (hI : Stable I)

include hI

theorem stable_updCmd {id : Nat} {f : Cmd → Cmd} (hf : ∀ c, Tame c (f c)) (h : I w) : I (w.updCmd id f) := by
  refine hI.mapCmds (f := fun c => if c.id = id then f c else c) (fun c => ?_) h
  split
  · exact hf c
  · exact .refl c

theorem stable_endCmd (id : Nat) (st : Status) (h : I w) : I (endCmd id st w) := stable_updCmd hI (tame_endWith st) h

/-! #### The memory port, messages and slices -/

theorem stable_updSlice (s : Nat) (f : Slice → Slice) (h : I w) : I (w.updSlice s f) := hI.same h rfl rfl le_rfl

theorem stable_updCtx (s c : Nat) (f : Ctx → Ctx) (h : I w) : I (w.updCtx s c f) := hI.same h rfl rfl le_rfl

theorem stable_updObj (i : Nat) (f : Obj → Obj) (h : I w) : I (w.updObj i f) := hI.same h rfl rfl le_rfl

theorem stable_updQueue (k : Nat) (f : Queue → Queue) (h : I w) : I (w.updQueue k f) := hI.same h rfl rfl le_rfl

theorem stable_later (x : Late) (h : I w) : I (w.later x) := hI.same h rfl rfl le_rfl

theorem stable_issue (s : Option Nat) (r : Req) (h : I w) : I (issue e s r w) :=
  hI.same h (issue_cmds ..) (issue_runs ..) (issue_fresh ..).ge

theorem stable_writeFor (s : Option Nat) (dev : Bool) (a : Nat) (bs : List Byte) (why : Purpose) (h : I w) :
    I (writeFor e s dev a bs why w) := stable_issue hI s _ h

theorem stable_readFor (s : Option Nat) (dev : Bool) (a len : Nat) (why : Purpose) (h : I w) : I (readFor e s dev a len why w) :=
  stable_issue hI s _ h

theorem stable_sendMsg (m : Msg) (h : I w) : I (sendMsg e m w) := hI.same h (sendMsg_cmds ..) (sendMsg_runs ..) (sendMsg_fresh ..).ge

theorem stable_raise (v : Nat) (h : I w) : I (w.raise v) := hI.same h rfl rfl le_rfl

theorem stable_raiseUnless (was : Bool) (v : Nat) (h : I w) : I (if was then w else w.raise v) := by
  split
  · exact h
  · exact stable_raise hI v h

theorem stable_setCause (s : Nat) (c : Cause) (st : Status) (h : I w) : I (setCause s c st w) :=
  stable_raiseUnless hI _ _ (hI.same h rfl rfl le_rfl)

theorem stable_setAdminCause (c : Cause) (st : Status) (h : I w) : I (setAdminCause c st w) :=
  stable_raiseUnless hI _ _ (hI.same h rfl rfl le_rfl)

theorem stable_queueCause (k : Nat) (c : Cause) (st : Status) (h : I w) : I (queueCause k c st w) := by
  unfold queueCause
  split
  · exact stable_setCause hI _ c st (hI.same h rfl rfl le_rfl)
  · exact stable_setAdminCause hI c st h

/-! #### The Planer -/

theorem stable_chargeBytes (s n : Nat) (h : I w) : I (chargeBytes e s n w) := hI.same h rfl rfl le_rfl

theorem stable_chargePlaner (s c n : Nat) (h : I w) : I (chargePlaner e s c n w) := hI.same h rfl rfl le_rfl

theorem stable_setCommit (l : Nat) (j : Option CommitJob) (h : I w) : I (setCommit w l j) := hI.same h rfl rfl le_rfl

theorem stable_setLane (l : Nat) (u : Option LaneUnit) (h : I w) : I (setLane w l u) := hI.same h rfl rfl le_rfl

theorem stable_commitWrite (l : Nat) (o : Obj) (s : Nat) (c : Cmd) (a : Nat) (bs : List Byte) (gs : List (Nat × CodeCount))
    (u : Option FenceUpd) (h : I w) : I (commitWrite e l o s c a bs gs u w) :=
  stable_chargePlaner hI _ _ _ (stable_chargeBytes hI _ _ (stable_issue hI _ _ h))

theorem stable_sendLast (l : Nat) (j : CommitJob) (c : Cmd) (s : Nat) (h : I w) : I (sendLast e l j c s w) := by
  have hwrite {v : Work} (hv : I v) (o : Obj) (u : Option FenceUpd) : I (commitWrite e l o s c j.lastAt j.lastBytes j.groups u v) :=
    stable_commitWrite hI l o s c j.lastAt j.lastBytes j.groups u hv
  have hguard (bad : Bool) : I (w.updCmd c.id fun d => { d with guard := bad }) :=
    stable_updCmd hI (fun _ => ⟨rfl, rfl, fun h g => ⟨h, g⟩⟩) h
  unfold sendLast
  extract_lets o more sent bad w'
  have hw' : I w' := hguard bad
  clear_value o more sent bad w'
  split
  · exact hwrite (stable_setCommit hI _ _ h) _ _
  · split
    · exact h
    · split
      all_goals
        refine hwrite (stable_updCmd hI (fun _ => ?_) (stable_setCommit hI _ _ hw')) _ _
        exact ⟨rfl, rfl, fun h g => ⟨h, g⟩⟩

theorem stable_advanceCommit (l : Nat) (h : I w) : I (advanceCommit e l w) := by
  unfold advanceCommit
  split
  · exact h
  · split
    · exact h
    · split
      · exact h
      · split
        · split
          · exact stable_sendLast hI _ _ _ _ h
          · exact stable_setCommit hI _ _ h
        · exact h

theorem stable_countEvent (s k m : Nat) (h : I w) : I (countEvent s k m w) := hI.same h rfl rfl le_rfl

theorem stable_countMet (s i : Nat) (x : Converted) (h : I w) : I (countMet s i x w) :=
  stable_countEvent hI _ _ _ (stable_updObj hI _ _ (stable_countEvent hI _ _ _ (stable_countEvent hI _ _ _ (stable_updObj hI _ _ h))))

theorem stable_takeCommit (l cmd index port : Nat) (h : I w) : I (takeCommit e l cmd index port w) := by
  unfold takeCommit
  split
  · split
    · exact h
    · extract_lets i o win v bs cut w₁ ps gs w₂
      have hmet : I w₁ := stable_countMet hI _ _ _ h
      split
      · exact stable_setCommit hI _ _ hmet
      · exact stable_setCommit hI _ _
          (List.foldlRecOn (motive := I) ps _ hmet fun u hu p _ => stable_commitWrite hI _ _ _ _ _ _ _ _ hu)
  · exact hI.same h rfl rfl le_rfl

theorem stable_feedCommits (m : Nat) (h : I w) : I (feedCommits e m w) := by
  induction m generalizing w with
  | zero => exact h
  | succ m ih =>
    unfold feedCommits
    split
    · exact h
    · split
      · exact ih (stable_takeCommit hI _ _ _ _ (hI.same h rfl rfl le_rfl))
      · exact h

theorem stable_laneRead (c : Cmd) (r : Req) (h : I w) : I (laneRead e c r w) := by
  unfold laneRead
  split
  · exact stable_chargeBytes hI _ _ (stable_issue hI _ _ h)
  · exact h

theorem stable_takeUnit (l : Nat) (t : Tile) (c : Cmd) (k : Nat) (h : I w) : I (takeUnit e l t c k w) := by
  have hstage {v : Work} (hv : I v) (u : Option LaneUnit) (r : Req) : I (laneRead e c r (setLane v l u)) :=
    stable_laneRead hI c r (stable_setLane hI l u hv)
  unfold takeUnit
  extract_lets o d need n u w₁ w₂ w₃
  have hmoved : I w₃ := hI.same h rfl rfl le_rfl
  split
  · exact hI.fail _ _ h
  · split
    · split
      · exact hstage hmoved _ _
      · exact hstage hmoved _ _
    · split
      · exact hstage hmoved _ _
      · exact hstage hmoved _ _

theorem stable_feedLanes (m : Nat) (h : I w) : I (feedLanes e m w) := by
  induction m generalizing w with
  | zero => exact h
  | succ m ih =>
    unfold feedLanes
    split
    · exact ih (stable_takeUnit hI _ _ _ _ h)
    · exact h

theorem stable_sweepLanes (h : I w) : I (sweepLanes w) :=
  hI.same (List.foldlRecOn (motive := I) _ (fun v (p : Nat × Option LaneUnit) => setLane v p.1 none) h fun _ hu p _ =>
    stable_setLane hI p.1 none hu) rfl rfl le_rfl

theorem stable_feedPlaner (h : I w) : I (feedPlaner e w) := by
  unfold feedPlaner
  exact stable_feedLanes hI _ (stable_sweepLanes hI (List.foldlRecOn (motive := I) _ _ (stable_feedCommits hI _ h) fun _ hu l _ =>
    stable_advanceCommit hI l hu))

/-! #### Slots, objects and records -/

theorem stable_beginSlotSave (k : Nat) (h : I w) : I (beginSlotSave e k w) :=
  stable_writeFor hI _ _ _ _ _ (hI.same h rfl rfl (Nat.le_succ _))

theorem stable_evictReady (h : I w) : I (evictReady e w) :=
  List.foldlRecOn (motive := I) _ _ h fun _ hv p _ => stable_beginSlotSave hI p.1 hv

theorem stable_freeSlot (k : Nat) (h : I w) : I (freeSlot k w) := by
  unfold freeSlot
  extract_lets x v₁ v₀ v₂
  have h₁ : I v₁ := by
    show I (if _ then _ else _)
    split
    · exact hI.same h rfl rfl le_rfl
    · exact h
  have h₂ : I v₂ := by
    show I (if _ then _ else _)
    split
    · exact h₁
    · exact hI.same h₁ rfl rfl le_rfl
  exact hI.same h₂ rfl rfl le_rfl

theorem stable_leaveSlots (s : Nat) (h : I w) : I (leaveSlots e s w) :=
  List.foldlRecOn (motive := I) _ _ h fun _ hv p _ =>
    stable_freeSlot hI p.1 (stable_writeFor hI _ _ _ _ _ (stable_updCtx hI _ _ _ hv))

theorem stable_chargeMem (s c : Nat) (m : Int) (h : I w) : I (chargeMem s c m w) := stable_updCtx hI _ _ _ h

theorem stable_reclaim (i : Nat) (h : I w) : I (reclaim e i w) := by
  unfold reclaim
  extract_lets o s w₁ w₂ w₃ w₄ w₅
  have h₂ : I w₂ := stable_updSlice hI _ _ (stable_chargeMem hI _ _ _ h)
  have h₃ : I w₃ := by
    show I (if _ then _ else _)
    split
    · exact hI.same h₂ rfl rfl le_rfl
    · exact h₂
  have h₄ : I w₄ := by
    show I (if _ then _ else _)
    split
    · exact stable_writeFor hI _ _ _ _ _ h₃
    · exact h₃
  have h₅ : I w₅ := stable_updObj hI _ _ h₄
  split
  · exact stable_endCmd hI _ _ h₅
  · exact h₅

theorem stable_dropRefs (is : List Nat) (h : I w) : I (dropRefs e is w) := by
  refine List.foldlRecOn (motive := I) is _ h fun v hv i _ => ?_
  dsimp only
  split
  · exact stable_reclaim hI _ (stable_updObj hI _ _ hv)
  · exact stable_updObj hI _ _ hv

theorem stable_reclaimAll (s : Nat) (h : I w) : I (reclaimAll e s w) := by
  refine List.foldlRecOn (motive := I) _ _ h fun v hv p _ => ?_
  dsimp only
  split
  · exact stable_reclaim hI _ (stable_updObj hI _ _ hv)
  · exact stable_reclaim hI _ (stable_updObj hI _ _ (stable_updObj hI _ _ hv))

theorem stable_toOverflow (k : Nat) (r : Rec) (h : I w) : I (toOverflow k r w) := by
  unfold toOverflow
  split
  · exact hI.same h rfl rfl le_rfl
  · exact stable_queueCause hI _ _ _ (stable_updQueue hI _ _ h)

theorem stable_startRecord (k : Nat) (r : Rec) (deferred : Bool) (h : I w) : I (startRecord e k r deferred w) :=
  stable_writeFor hI _ _ _ _ _ (stable_updQueue hI _ _ h)

theorem stable_serveDue (k m : Nat) (h : I w) : I (serveDue e k m w) := by
  induction m generalizing w with
  | zero => exact h
  | succ m ih =>
    unfold serveDue
    extract_lets q
    split
    · exact h
    · extract_lets v
      have hv : I v := stable_updQueue hI _ _ h
      split
      · exact h
      · split
        · exact ih (stable_toOverflow hI _ _ hv)
        · split
          · exact h
          · split
            · exact ih (stable_toOverflow hI _ _ hv)
            · exact stable_startRecord hI _ _ _ hv

theorem stable_produceRecord (k : Nat) (r : Rec) (h : I w) : I (produceRecord e k r w) :=
  stable_serveDue hI _ _ (stable_updQueue hI _ _ h)

theorem stable_drainCheck (k : Nat) (h : I w) : I (drainCheck e k w) := by
  unfold drainCheck
  extract_lets q
  split
  · split
    · exact stable_updQueue hI _ _ (List.foldlRecOn (motive := I) _ _ h fun v hv _ _ => stable_produceRecord hI _ _ hv)
    · exact h
  · exact h

theorem stable_entryEnded (c : Cmd) (h : I w) : I (entryEnded e c w) :=
  stable_drainCheck hI _ (stable_updQueue hI _ _ (hI.dropCmd _ h))

/-! #### Fences -/

theorem stable_removeWatch (s wid : Nat) (h : I w) : I (removeWatch s wid w) := stable_updSlice hI _ _ h

theorem stable_writeWatchAt (s : Nat) (x : Watch) (st : Status) (a b : BitVec 64) (h : I w) : I (writeWatchAt e s x st a b w) := by
  have hdrop (irq : Bool) : I (dropWatchRecord s irq w) := by
    unfold dropWatchRecord
    dsimp only
    split
    · exact stable_raise hI _ (stable_updSlice hI _ _ h)
    · exact stable_updSlice hI _ _ h
  unfold writeWatchAt
  split
  · exact h
  · extract_lets dev
    split
    · exact hdrop _
    · exact stable_writeFor hI _ _ _ _ _ h

theorem stable_fireWatch (s : Nat) (x : Watch) (st : Status) (a : BitVec 64) (h : I w) : I (fireWatch e s x st a w) := by
  unfold fireWatch
  split
  · exact stable_updSlice hI _ _ h
  · exact stable_writeWatchAt hI _ _ _ _ _ (stable_removeWatch hI _ _ h)

theorem stable_fenceChanged (done : Bool) (s i : Nat) (old : Fence) (h : I w) : I (fenceChanged e done s i old w) := by
  unfold fenceChanged
  refine hI.mapCmds (fun c => ?_) ?_
  · split
    · split
      · split
        · exact ⟨rfl, rfl, fun h g => ⟨h, g⟩⟩
        · exact tame_endWith _ c
      · exact .refl c
    · exact .refl c
  · refine List.foldlRecOn (motive := I) _ _ (List.foldlRecOn (motive := I) _ _ h fun v hv x _ => ?_) fun v hv x _ => ?_
    · dsimp only
      split
      · exact hv
      · split
        · have hsent : I (if old.value ≠ (w.fence s i).value then sendFence e x.chip s x.target none (w.fence s i).value v else v) := by
            split
            · exact stable_sendMsg hI _ hv
            · exact hv
          split
          · exact stable_sendMsg hI _ hsent
          · exact hsent
        · split
          · exact stable_fireWatch hI _ _ _ _ hv
          · exact hv
    · split
      · exact hv
      · split
        · exact stable_sendMsg hI _ (stable_updSlice hI _ _ hv)
        · exact hv

theorem stable_putFence (s i : Nat) (o : FenceOut) (h : I w) : I (putFence e s i o w) := by
  have hput : I (putOutcome e false s i o w) := by
    unfold putOutcome
    extract_lets old v
    have hv : I v := stable_updSlice hI _ _ h
    split
    · exact hv
    · exact stable_fenceChanged hI _ _ _ _ hv
  unfold putFence
  dsimp only
  split
  · exact stable_later hI _ hput
  · exact hput

theorem stable_signalEnd (c : Cmd) (st : Status) (h : I w) : I (signalEnd e c st w).1 := by
  unfold signalEnd
  split
  · exact h
  · extract_lets a ix o v v'
    have hv : I v := stable_putFence hI _ _ _ h
    clear_value v o
    split
    · split
      · exact h
      · split
        · exact hv
        · exact hv
    · exact stable_later hI _ h

theorem stable_markDeclared (s : Nat) (b : List Byte) (st : Status) (h : I w) : I (markDeclared s b st w) :=
  List.foldlRecOn (motive := I) _ _ h fun _ hv _ _ => stable_later hI _ hv

/-! #### Endings and waits -/

theorem stable_nodeEnded (c : Cmd) (entry : Nat) (st : Status) (beats : Nat → Nat) (h : I w) : I (nodeEnded c entry st beats w) := by
  unfold nodeEnded
  extract_lets m w₁
  have h₁ : I w₁ := by
    refine hI.runs (fun r hr => ?_) h
    obtain ⟨q, hq, rfl⟩ := List.mem_map.mp hr
    refine ⟨q, hq, ?_⟩
    split <;> rfl
  clear_value w₁
  split
  · exact h₁
  next r _ =>
    extract_lets succ ready w₂ w₃
    have h₂ : I w₂ := by
      refine hI.mapCmds (fun d => ?_) h₁
      split
      · split
        · exact ⟨rfl, rfl, nofun⟩
        · split
          · exact ⟨rfl, rfl, fun h g => ⟨h, g⟩⟩
          · exact .refl d
      · exact .refl d
    have h₃ : I w₃ := by
      dsimp only [w₃]
      split
      · split
        · exact stable_markDeclared hI _ _ _ h₂
        · exact h₂
      · exact h₂
    split
    · exact stable_endCmd hI _ _ (hI.runs (fun r hr => ⟨r, (List.mem_filter.mp hr).1, rfl⟩) h₃)
    · exact h₂

theorem stable_readSuccessor (c : Cmd) (ptr : Nat) (skip : Bool) (h : I w) : I (readSuccessor e c ptr skip w) := by
  have hupd : I (w.updCmd c.id fun d => { d with aux := [], auxNat := ptr }) :=
    stable_updCmd hI (fun _ => ⟨rfl, rfl, fun h g => ⟨h, g⟩⟩) h
  unfold readSuccessor
  dsimp only
  split
  · exact hupd
  · exact stable_readFor hI _ _ _ _ _ hupd

theorem stable_noteArrival (c : Cmd) (st : Status) (h : I w) : I (noteArrival c st w) := by
  unfold noteArrival
  split
  · split
    · exact hI.same h rfl rfl le_rfl
    · exact h
  · exact h

theorem stable_finalize (c : Cmd) (st : Status) (h : I w) : I (finalize e c st w) := by
  unfold finalize
  extract_lets w₁ w₂
  have h₁ : I w₁ := hI.same (stable_dropRefs hI c.refs h) rfl rfl le_rfl
  have h₂ : I w₂ := stable_noteArrival hI _ _ (stable_updCmd hI (fun _ => ⟨rfl, rfl, fun h g => ⟨h, g⟩⟩) h₁)
  have hsig : I (signalEnd e c st w₂).1 := stable_signalEnd hI _ _ h₂
  generalize signalEnd e c st w₂ = x at hsig ⊢
  obtain ⟨v, st', fence, value⟩ := x
  dsimp -zeta only at hsig ⊢
  extract_lets r w₃ node goes past fails
  have h₃ : I w₃ := by
    dsimp only [w₃]
    split
    · exact stable_produceRecord hI _ _ hsig
    · exact hsig
  have hgoes : I goes := stable_updCmd hI (fun _ => ⟨rfl, rfl, nofun⟩) h₃
  have hfails : I fails := stable_updCmd hI (fun _ => ⟨rfl, rfl, nofun⟩) h₃
  clear_value w₃ goes fails
  split
  · exact stable_nodeEnded hI _ _ _ _ (hI.dropCmd _ h₃)
  · split
    · split
      · split
        · exact stable_entryEnded hI _ (stable_produceRecord hI _ _ hgoes)
        · exact stable_readSuccessor hI _ _ _ hgoes
      · split
        · exact stable_entryEnded hI _ hfails
        · exact stable_readSuccessor hI _ _ _ hfails
    · exact stable_entryEnded hI _ h₃

theorem stable_settle (m : Nat) (h : I w) : I (settle e m w) := by
  induction m generalizing w with
  | zero => exact h
  | succ m ih =>
    unfold settle
    split
    · exact ih (stable_finalize hI _ _ h)
    · split
      next c _ =>
        refine ih ?_
        unfold grantAcquire
        split
        · exact h
        · dsimp only
          split
          · exact stable_endCmd hI _ _ (stable_updSlice hI _ _ h)
          · exact stable_endCmd hI _ _ (stable_updSlice hI _ _ h)
      · split
        next c _ =>
          refine ih (stable_endCmd hI _ _ ?_)
          split
          · exact hI.same h rfl rfl le_rfl
          · exact h
        · exact h

theorem stable_quiesce (s : Nat) (h : I w) : I (quiesce s w) := by
  unfold quiesce
  split
  · refine List.foldlRecOn (motive := I) _ _ (stable_updSlice hI _ _ h) fun v hv c _ => ?_
    split
    · refine stable_later hI _ (stable_updCmd hI (fun _ => ?_) hv)
      exact ⟨rfl, rfl, fun h g => ⟨h, g⟩⟩
    · exact stable_endCmd hI _ _ hv
  · exact h

theorem stable_endLends (h : I w) : I (endLends w) := hI.same h rfl rfl le_rfl

theorem stable_refreshSlots (h : I w) : I (refreshSlots w) := hI.same h rfl rfl le_rfl

/-- What follows in the same control cycle keeps a stable predicate that a slice's way to OFF keeps. -/
theorem stable_afterWork (hoff : ∀ {s v}, I v → I (sliceOff e s v)) (h : I w) : I (afterWork e w) := by
  unfold afterWork
  extract_lets w₁ w₂ ss w₃ w₄
  have h₃ : I w₃ := List.foldlRecOn (motive := I) _ _ (stable_settle hI _ (stable_feedPlaner hI h)) fun _ hv s _ =>
    stable_quiesce hI s hv
  have h₄ : I w₄ := stable_settle hI _ (stable_endLends hI h₃)
  have hlate (v : Work) (s : Nat) (hv : I v) : I (offLate e s v) := by
    unfold offLate
    split
    · exact hoff (stable_leaveSlots hI s hv)
    · exact hv
  exact stable_refreshSlots hI (stable_evictReady hI (List.foldlRecOn (motive := I) ss _ h₄ fun v hv s _ => hlate v s hv))

end

end Sys2Proof.Machine

end

-- Proofs about a run's start and command numbers that repeat (R193, R270).
section

namespace Sys2Proof.Machine

/-! ### Three statements that what follows decides (O12, O15, O31) -/

section

variable {e : Block} {w v : Work} {id n : Nat} {ra : Tbl Nat} {c : Cmd}

/-! #### What a slice's way to OFF leaves of runs and free values -/

/-- Every run has started. -/
def AllStarted (w : Work) : Prop := ∀ r ∈ w.runs, r.started = true

theorem unstageCmd_runs (id : Nat) (w : Work) : (unstageCmd id w).runs = w.runs := (unstageCmd_unbinds id w).runs

theorem failExec_runs (id : Nat) (st : Status) (w : Work) : (failExec id st w).runs = w.runs := by
  unfold failExec
  split
  · split
    · rfl
    · exact unstageCmd_runs id w
  · rfl

theorem allStarted_stable : Stable AllStarted where
  same h _ hr _ r hmem := h r (hr ▸ hmem)
  mapCmds _ h := h
  dropCmd _ h := h
  runs hrs h r hr := by
    obtain ⟨q, hq, hstarted⟩ := hrs r hr
    rw [hstarted, h q hq]
  fail id st h r hr := h r (by rwa [failExec_runs] at hr)

/-- A slice's way to OFF starts no run and leaves none that has not started. -/
theorem allStarted_sliceOff (s : Nat) (h : AllStarted w) : AllStarted (sliceOff e s w) := by
  have hI := allStarted_stable
  have hstopped : AllStarted ((w.cmds.filter fun c => c.slice == some s).foldl (fun w c => stopWork c.id .teardown w) w) :=
    List.foldlRecOn (motive := AllStarted) _ _ h fun u hu c _ r hr => hu r ((stopWork_stopsWork c.id .teardown u).runs ▸ hr)
  have hreclaimed := stable_reclaimAll (e := e) hI s hstopped
  unfold sliceOff
  extract_lets w₁ w₂ w₃ w₄ w₅ w₆ st w₇ w₈
  have h₂ : AllStarted w₂ := hreclaimed
  clear_value w₂
  have h₃ : AllStarted w₃ := fun r hr => h₂ r (List.mem_filter.mp hr).1
  clear_value w₃
  have h₄ : AllStarted w₄ := h₃
  clear_value w₄
  have h₅ : AllStarted w₅ := List.foldlRecOn (motive := AllStarted) _ _ h₄ fun u hu p _ => stable_freeSlot hI p.1 hu
  clear_value w₅
  have h₇ : AllStarted w₇ := h₅
  clear_value w₇
  have h₈ : AllStarted w₈ := List.foldlRecOn (motive := AllStarted) _ _ h₇ fun u hu x _ => stable_sendMsg hI _ hu
  exact stable_updSlice hI _ _ h₈

/-- A slice's way to OFF takes a free value (R497). -/
theorem sliceOff_fresh (s : Nat) (w : Work) : (sliceOff e s w).fresh ≠ 0 := by
  unfold sliceOff
  extract_lets w₁ w₂ w₃ w₄ w₅ w₆ st w₇ w₈
  have h₈ : w₈.fresh = w₆.fresh + 1 :=
    foldl_keeps (f := fun w (x : RemoteWait) => sendWatchDrop e x.src s x.wid st w) Work.fresh (fun u x => sendMsg_fresh ..) _ w₇
  show w₈.fresh ≠ 0
  rw [h₈]
  exact Nat.succ_ne_zero _

/-! #### When the tiles of a command returned to ready -/

/-- Until a free value has been taken, command `id` has its tiles returned to ready as `ra` says, where it has not ended and stands
at the head of its chain. -/
def HoldsReady (id : Nat) (ra : Tbl Nat) (w : Work) : Prop :=
  w.fresh = 0 → ∀ c, w.cmd id = some c → c.endStatus = none → c.chainPos = none → c.readyAt = ra

theorem cmd_mapCmds {f : Cmd → Cmd} (hf : ∀ c, (f c).id = c.id) (id : Nat) (w : Work) :
    (w.mapCmds f).cmd id = (w.cmd id).map f := by
  unfold Work.cmd Work.mapCmds
  dsimp only
  rw [List.find?_map]
  refine congrArg (fun p => (w.cmds.find? p).map f) (funext fun c => ?_)
  rw [Function.comp_apply, hf]

theorem cmd_of_dropCmd {k : Nat} (h : (w.dropCmd k).cmd id = some c) : w.cmd id = some c := by
  unfold Work.cmd Work.dropCmd at h
  rw [List.find?_filter] at h
  have hid : ¬c.id = k ∧ c.id = id := by simpa using List.find?_some h
  rw [Work.cmd, ← h]
  refine congrArg (fun p => w.cmds.find? p) (funext fun d => ?_)
  by_cases hd : d.id = id
  · simp [hd, ← hid.2, hid.1]
  · simp [hd]

theorem cmd_unstageCmd {k : Nat} (hk : id ≠ k) (w : Work) : (unstageCmd k w).cmd id = w.cmd id := by
  refine List.foldlRecOn (motive := fun u : Work => u.cmd id = w.cmd id) _ _ rfl fun u hu t ht => ?_
  have hcmd : t.cmd = k := by
    have := (List.mem_filter.mp ht).2
    simp only [Bool.and_eq_true, beq_iff_eq] at this
    exact this.1
  let f (c : Cmd) : Cmd := { c with readyAt := tblSet 0 c.readyAt t.index u.nextOrder }
  exact (cmd_updCmd_other u t.cmd id f (fun _ => rfl) (hcmd.symm ▸ hk)).trans hu

theorem holdsReady_stable (id : Nat) (ra : Tbl Nat) : Stable (HoldsReady id ra) where
  same h hc _ hf h0 c hcmd := h (Nat.le_zero.mp (h0 ▸ hf)) c (by rwa [cmd_congr hc] at hcmd)
  mapCmds {w f} hf h h0 c hcmd hend hchain := by
    rw [cmd_mapCmds fun c => (hf c).id] at hcmd
    obtain ⟨d, hd, rfl⟩ := Option.map_eq_some_iff.mp hcmd
    obtain ⟨hdend, hdchain⟩ := (hf d).head hend hchain
    rw [(hf d).readyAt, h h0 d hd hdend hdchain]
  dropCmd k h h0 c hcmd := h h0 c (cmd_of_dropCmd hcmd)
  runs _ h := h
  fail {w} k st h h0 c hcmd hend hchain := by
    obtain ⟨-, -, hframe⟩ := unstageCmd_unbinds k w
    unfold failExec at h0 hcmd
    split at hcmd
    next d hd =>
      rw [hd] at h0
      dsimp only at h0
      split at hcmd
      next hended => exact h (by rwa [if_pos hended] at h0) c hcmd hend hchain
      next hopen =>
        rw [if_neg hopen] at h0
        have hfresh : w.fresh = 0 := (congrArg Work.fresh hframe :) ▸ h0
        have hid (x : Cmd) : ({ x.endWith st with phase := .stopping, waiting := .none } : Cmd).id = x.id := rfl
        by_cases hk : id = k
        · rw [hk, cmd_updCmd _ _ _ hid] at hcmd
          obtain ⟨x, -, rfl⟩ := Option.map_eq_some_iff.mp hcmd
          exact absurd hend nofun
        · rw [cmd_updCmd_other _ _ _ _ hid hk] at hcmd
          exact h hfresh c ((cmd_unstageCmd hk w).symm.trans hcmd) hend hchain
    next hd =>
      rw [hd] at h0
      exact h h0 c hcmd hend hchain

/-! #### What a command's answer shows of the state that it decides -/

/-- A command's answer keeps a stable predicate that a slice's way to OFF keeps. -/
theorem Does.stable {i : Instr} {s : State} {P I : Work → Prop} (h : Does i s P) (hI : Stable I)
    (hoff : ∀ {n w}, I w → I (sliceOff s.core n w)) (hP : ∀ w, P w → I w) : I (Tests.after i s).work := by
  obtain ⟨w, hw, hx⟩ := h
  have hafter : (Tests.after i s).work = afterWork s.core w := by rw [Tests.after, hx]; rfl
  rw [hafter]
  exact stable_afterWork hI hoff (hP w hw)

/-- What shows when a command's tiles returned to ready shows in the answer. -/
theorem Does.readyAt {i : Instr} {s : State} {P : Work → Prop} {d : Cmd} (h : Does i s P)
    (hP : ∀ w, P w → w.cmd d.id = some d) : HoldsReady d.id d.readyAt (Tests.after i s).work := by
  refine h.stable (holdsReady_stable d.id d.readyAt) (fun _ hfresh => absurd hfresh (sliceOff_fresh _ _)) fun w hw _ c hc _ _ => ?_
  rw [hP w hw] at hc
  rw [← Option.some.inj hc]

/-! #### O12: a run starts with its first release -/

/-- A RELAUNCH without patches of a resident copy. -/
def plainRelaunch : Work := Tests.withGraph (Tests.relaunchCmd 0 0) []

/-- The run has not started. -/
theorem plainRelaunch_waits :
    (Tests.after (.relaunch 1) (Tests.live plainRelaunch)).work.runs.map (fun r => r.started) = [false] := by decide

/-! #### O15, O31: command numbers that repeat -/

/-- A tile of a command that is staged on port 0. -/
def stagedTile (id : Nat) : Tile :=
  { cmd := id, index := 0, port := 0, state := .staged, tileId := 0, order := 0, slots := [], result := [], credits := [], grace := false,
    startCycle := 0, beats := 0 }

/-- A command of the admin queue that runs, of number 2. -/
def runningCmd : Cmd := { Tests.adminCmd (Tests.body 0 []) with id := 2, phase := .running }

/-- A SLICE_FREEZE of slice 0, and two commands of one number: the first belongs to no slice, the second to slice 0 and has a staged
tile. -/
def freezeTwins : Work := { Tests.inState (Tests.sliceCmd 0x80 0) .active with
  cmds := [Tests.sliceCmd 0x80 0, runningCmd, { runningCmd with slice := some 0 }], tiles := [stagedTile 2] }

/-- The tile returns to ready, and so the first of the two shows it as well. -/
theorem freezeTwins_unstage : let b := Tests.after (.sliceFreeze 1) (Tests.live freezeTwins)
    b.work.fresh = 0 ∧ (b.work.cmd 2).map (fun c => (c.endStatus, c.chainPos, c.readyAt)) = some (none, none, [(0, 2)]) := by decide

/-- A PASID_REVOKE of slice 0, and a command of the same number that belongs to slice 0, whose teardown is under way, and has a staged
tile. -/
def revokeTwins : Work := { Tests.inState (Tests.sliceCmd 0x8A 0) .active with
  cmds := [Tests.sliceCmd 0x8A 0, { runningCmd with id := 1, slice := some 0 }], tiles := [stagedTile 1],
  cap := { teardowns := [{ slice := 0, ctx := 0, status := St.cmdTimeout, cmd := none, others := St.contextKilled }] } }

/-- The tile returns to ready, and so the PASID_REVOKE shows it as well. -/
theorem revokeTwins_unstage : let b := Tests.after (.pasidRevoke 1) (Tests.live revokeTwins)
    b.work.fresh = 0 ∧ (b.work.cmd 1).map (fun c => (c.endStatus, c.chainPos, c.readyAt)) = some (none, none, [(0, 2)]) := by decide

end

/-- Refutes O12: where RELAUNCH begins a run of the copy, the run has not started yet; it starts with the first release of a command of
it. -/
theorem not_graphCommands : ¬ Obligations.GraphCommands := by
  unfold Obligations.GraphCommands
  intro h
  obtain ⟨-, hqueue⟩ := h
  obtain ⟨-, hrelaunch, -⟩ := hqueue (Tests.live plainRelaunch) (Tests.relaunchCmd 0 0) 0 (by decide) (by decide)
  obtain ⟨-, -, hplain, -⟩ := hrelaunch (by decide) (by decide)
  have hdoes := hplain { gid := 3, image := [], loading := false } (by decide) (by decide) (by decide)
  have hstarted : AllStarted (Tests.after (.relaunch 1) (Tests.live plainRelaunch)).work := by
    refine hdoes.stable allStarted_stable (allStarted_sliceOff _) fun w hw r hr => ?_
    rw [hw.1] at hr
    have hr' := List.mem_singleton.mp hr
    rw [hr']
  have hwaits := plainRelaunch_waits
  generalize (Tests.after (.relaunch 1) (Tests.live plainRelaunch)).work = w at hstarted hwaits
  obtain ⟨r, hr, hfalse⟩ := List.mem_map.mp (hwaits ▸ List.mem_singleton.mpr rfl : false ∈ w.runs.map fun r => r.started)
  rw [hstarted r hr] at hfalse
  exact absurd hfalse (by decide)

/-- Refutes O15: it does not say that command numbers are unique. Where a command that belongs to no slice shares its number with one
of the slice to be frozen, which has a staged tile, the freeze changes when the tiles of both returned to ready. -/
theorem not_migrationCommands : ¬ Obligations.MigrationCommands := by
  unfold Obligations.MigrationCommands
  intro h
  obtain ⟨hfreezes, -⟩ := h
  obtain ⟨hfreeze, -⟩ := hfreezes (Tests.live freezeTwins) (Tests.sliceCmd 0x80 0) (by decide) (by decide)
  have hdoes := hfreeze (by decide) (by decide)
  have hready := hdoes.readyAt (d := runningCmd) fun w ⟨_, _, _, _, _, hothers⟩ =>
    hothers runningCmd (by decide) (by decide) (by decide)
  obtain ⟨hfresh, hcmd⟩ := freezeTwins_unstage
  obtain ⟨c, hc, hfields⟩ := Option.map_eq_some_iff.mp hcmd
  simp only [Prod.mk.injEq] at hfields
  obtain ⟨hend, hchain, hreadyAt⟩ := hfields
  exact absurd (hreadyAt.symm.trans (hready hfresh c hc hend hchain)) (by decide)

/-- Refutes O31: it does not say that command numbers are unique. Where a PASID_REVOKE shares its number with a command of the slice
whose context is being torn down, and that one has a staged tile, the revocation changes when the tiles of both returned to ready. -/
theorem not_teardownAndRevocation : ¬ Obligations.TeardownAndRevocation := by
  unfold Obligations.TeardownAndRevocation
  intro h
  obtain ⟨-, -, hrevokes, -⟩ := h
  obtain ⟨hrevoke, -⟩ := hrevokes (Tests.live revokeTwins) (Tests.sliceCmd 0x8A 0) (by decide) (by decide) (by decide)
  have hdoes := hrevoke (by decide) (by decide)
  have hready := hdoes.readyAt (d := { Tests.sliceCmd 0x8A 0 with phase := .running, waiting := .revoke })
    fun w ⟨_, _, _, _, _, _, _, _, hcmd⟩ => hcmd
  obtain ⟨hfresh, hcmd⟩ := revokeTwins_unstage
  obtain ⟨c, hc, hfields⟩ := Option.map_eq_some_iff.mp hcmd
  simp only [Prod.mk.injEq] at hfields
  obtain ⟨hend, hchain, hreadyAt⟩ := hfields
  exact absurd (hreadyAt.symm.trans (hready hfresh c hc hend hchain)) (by decide)

end Sys2Proof.Machine

end
